-- ==== Sys2Proof/Word.lean ====
section
/-! DEFINITION. The word types of the device: bytes, 32-bit and 64-bit words (00_scope.md R5, R6). -/

namespace Sys2Proof

/-- One byte. -/
abbrev Byte := BitVec 8

/-- A 32-bit word; every element code of a tensor is held in one. -/
abbrev Word32 := BitVec 32

/-- A 64-bit word. -/
abbrev Word64 := BitVec 64

end Sys2Proof
end

