-- ==== Sys2Proof/Syntax.lean ====
section
/-! DEFINITION. The commands of the device: every row of opcode_table.json, with the operands that tell one
occurrence of it from another. A command packet's parameters are not operands: they are read from the packet's
own bytes, which State holds; the operand `n` of such a row is the packet's number in order of validation. -/

namespace Sys2Proof

/-- What the surroundings decide while a command runs, as far as the spec lets it show: a word of a core memory that has
become uncorrectable, by its offset in the core windows (R17, R92); granules of HBM with errors in their stored bytes, by
node-local address and the 72 error bytes over data and check bytes (R274); a granule that meets a parity error (R266);
reports of the on-die ECC (R266); the loss of the route to another node (R299, R304); and the single-bit errors corrected
meanwhile in core memories, by service core, true for the accumulator buffer (R92). -/
structure Env where
  sramBad : Option Nat
  hbm : List (Nat × List Nat)
  parity : Option Nat
  onDie : Nat
  lost : Bool
  sramFixed : List (Nat × Bool)
  deriving DecidableEq, Repr

/-- Nothing goes wrong. -/
def Env.good : Env := ⟨none, [], none, 0, false, []⟩

/-- What a sensor read gives: a reading, or a failed read (R272, R403). -/
inductive Reading where
  | value (c : Nat)
  | failed
  deriving DecidableEq, Repr

/-- What arrives of one step of RING_ATTENTION (R176, R178): the galleys of the origin module as codes by element,
scale and mark of (block, KV head, place in the galley), and the running sums they carry by (token, column). -/
structure RingStep where
  elems : List (Nat × Nat)
  scales : List (Nat × Nat)
  marks : List (Nat × Nat)
  dk : List (Nat × Nat)
  dv : List (Nat × Nat)
  deriving DecidableEq, Repr

/-- A message in Collator chunks whose last frame arrives (R217, R322): a chunk of a collective with its header and
CRC-64, and the rank it is for where the members between forward it (R320); or a piece of the new
edition of the UPDATE with a number, from a byte on, with its CRC-64, whether the update was skipped, and the owner's update
report. -/
inductive ChunkMsg where
  | coll (dest : Nat) (bytes : List Byte)
  | edition (cmd first : Nat) (skipped : Bool) (report : Nat) (bytes : List Byte)
  deriving DecidableEq, Repr

/-- An IFP frame (11_links.md Table 11.5): its header fields, its payload and the ICRC it carries. -/
structure IfpFrame where
  /-- bits 3:0 of byte 0 -/
  version : Nat
  /-- remaining forwards -/
  hops : Nat
  typ : Nat
  /-- 0 scheduled, 1 control, 2 best-effort -/
  cls : Nat
  ece : Bool
  last : Bool
  retx : Bool
  epoch : Nat
  src : Nat
  dst : Nat
  msgId : Nat
  seq : Nat
  ack : Nat
  addr : Nat
  aux : Nat
  payload : List Byte
  icrc : Nat
  deriving DecidableEq, Repr

/-- What an Ethernet port sees of a received frame that is neither PAUSE nor priority flow control (R294): its destination
MAC and IP addresses, IPv4 in the mapped form, its bytes, whether its headers are supported (no second tag, no IP options
or extension headers, a protocol the port knows), and whether it is an IPv4 fragment. -/
structure RxHeader where
  dstMac : Nat
  dstIp : List Byte
  size : Nat
  supported : Bool
  fragment : Bool
  deriving DecidableEq, Repr

/-- What training of a D128 link found (R289, R291): the one-way flight in LCLK, the lanes received inverted, and whether
the lane order is reversed. -/
structure LinkTraining where
  flight : Nat
  polarity : Nat
  reversed : Bool
  deriving DecidableEq, Repr

/-- What training of the GCL found (R365, R366, Table 15.10): the width (1 and 2 one half, 3 both), the one-way flight in
GCLK, the lanes received inverted, and whether the lane order is reversed. -/
structure GclTraining where
  width : Nat
  flight : Nat
  polarity : Nat
  reversed : Bool
  deriving DecidableEq, Repr

/-- What moves at a publication (R250): a unit, by its logical core and part, or a page of HBM. -/
inductive MoveKind where
  | unit (core part : Nat)
  | page (page : Nat)
  deriving DecidableEq, Repr

/-- What the test commands find (18_observability.md R427, R428): failed physical slots, routers by copse, Collator
slices, Margin engines and channels, and the links that train. -/
structure Findings where
  slots : List Nat
  routers : List Nat
  slices : List Nat
  engines : List Nat
  channels : List Nat
  trained : List (Nat × LinkTraining)
  deriving DecidableEq, Repr


/-- The commands of the device: one constructor for each row of the opcode table. -/
inductive Instr where
  /-- DOORBELL (R31). A write to RING_PTR_n sets the ring's TAIL, so the device fetches packets from HEAD up to
      the new TAIL; the write is ignored while the ring is disabled. -/
  | doorbell (ring : Nat) (tail : Nat)
  /-- RING_ENABLE (R33). Setting RING_CFG_n.ENABLE from 0 to 1 zeroes the ring and reply pointers and sets the
      reply phase to 1. -/
  | ringEnable (ring : Nat) (cfg : Word64)
  /-- RING_DISABLE (R34). Clearing RING_CFG_n.ENABLE stops fetching at the next packet boundary, while validated
      commands of the ring run to completion. -/
  | ringDisable (ring : Nat) (cfg : Word64)
  /-- REPLY_HEAD_WRITE (R35). A write of REPLY_PTR_n.HEAD frees reply entries, so held completions are written in
      the order they were held. -/
  | replyHeadWrite (ring : Nat) (head : Nat)
  /-- HEADER_VALIDATION (R39). The master fetches one packet in round-robin ring order, validates its header in 12
      ACLK, allocates its tag or rejects it with BAD_PARAM. -/
  | headerValidation
  /-- WAIT_NOTICE (R51). Notice of a met header wait reaches the master, and the command becomes eligible once it
      holds notice of its last present wait. -/
  | waitNotice (notices : List (Nat × Nat))
  /-- DISPATCH (R51). The master dispatches one eligible command per ACLK, in order of eligibility, to the
      sequencers that execute it. -/
  | dispatch
  /-- WAIT_LIMIT (R52). RING_TIMEOUT_n.WAIT_LIMIT_US expires before a command's header waits are met, so the
      command completes TIMEOUT, detaches its waits and lets the ring proceed. -/
  | waitLimit (n : Nat)
  /-- COMPLETION_REPORT (R55). A sequencer's completion report reaches the master, which applies the command's
      signals, writes its reply and frees its tag. -/
  | completionReport (n : Nat)
  /-- NOP (R44). No action; waits and signals apply. -/
  | nop (n : Nat)
  /-- IDENTIFY (R44). Returns model, stepping, firmware version, node and counts in service in RESULT. -/
  | identify (n : Nat)
  /-- READ_REG (R62). Reads one register into RESULT in the ACLK of dispatch, clearing the RC fields it covers. -/
  | readReg (n : Nat)
  /-- WRITE_REG (R62). Writes one register in the ACLK of dispatch. -/
  | writeReg (n : Nat)
  /-- DISABLE_FUNCTION (R56). Drains and disables a function; commands dispatched to it afterwards complete
      DISABLED. -/
  | disableFunction (n : Nat)
  /-- DRAIN_LIMIT (R56). A drain that is not finished within its limit completes DISABLE_FUNCTION with TIMEOUT and
      wedges the function. -/
  | drainLimit (n : Nat)
  /-- ENABLE_FUNCTION (R57). Re-enables a disabled function at its completion, waiting first for any drain in
      progress. -/
  | enableFunction (n : Nat)
  /-- FULL_RESET (R416). Stops fetching, writes its reply and requests a full reset with cause COMMAND 10 µs
      later. -/
  | fullReset (n : Nat)
  /-- COMMAND_RESET_DELAY (R416). 10 µs after the FULL_RESET reply write completes, a full reset begins with cause
      COMMAND. -/
  | commandResetDelay
  /-- COPY (R284). Copies bytes between two fabric addresses in the best-effort class. -/
  | copy (n : Nat) (env : Env)
  /-- FILL (R284). Fills a region with a 64-bit pattern. -/
  | fill (n : Nat) (env : Env)
  /-- COPY_2D (R284). Strided copy of rows, written in ascending row order. -/
  | copy2d (n : Nat) (env : Env)
  /-- CHECKSUM (R284). Computes the CRC-64 of a region in address order. -/
  | checksum (n : Nat) (env : Env)
  /-- DECLARE_TENSOR (R238). Declares a tensor's shape, format, role and cut, assigns its handle and places it
      when an imposition is in force. -/
  | declareTensor (n : Nat)
  /-- RELEASE_TENSOR (R242). Releases a declared tensor once earlier commands that name it have completed. -/
  | releaseTensor (n : Nat)
  /-- DECLARE_OP (R241). Declares an operation of the step with its handles, repeat count and K_PARTS. -/
  | declareOp (n : Nat)
  /-- IMPOSE (R249). Computes (NEW) or marks a step boundary (BOUNDARY) and publishes a new imposition, applying
      pending changes. -/
  | impose (n : Nat) (shards : Option (List (List Byte)))
  /-- QUERY_IMPOSITION (R263). Reports the imposition in force and capacity, optionally writing a 64-byte report. -/
  | queryImposition (n : Nat)
  /-- MIGRATE (R253). Makes a vacate or restore request for copses or channels pending, and publishes at once when
      NOW is set. -/
  | migrate (n : Nat)
  /-- RESHARD (R254). Stages new cuts and reserves second half-buffers for the next BOUNDARY. -/
  | reshard (n : Nat)
  /-- READ_IDLE (R262). Snapshots every position's idle and busy counters in one ACLK, writes them to memory and
      optionally clears them. -/
  | readIdle (n : Nat)
  /-- MATMUL (R113). Runs a matrix product of streamed A against stationary B tiles on the arrays. -/
  | matmul (n : Nat) (env : Env)
  /-- MATMUL_GATHER (R114). Runs a matrix product that consumes the checked chunks of a running ALL_GATHER in
      logical order. -/
  | matmulGather (n : Nat) (env : Env)
  /-- MATMUL_PACKED (R108). Runs many small packed problems as sub-arrays of each array. -/
  | matmulPacked (n : Nat) (env : Env)
  /-- SET_MATRIX_MODE (R87). Sets ARITH_MODE (PASSES, SCSAT, ORND, LOADMODE) for commands dispatched after it
      completes. -/
  | setMatrixMode (n : Nat)
  /-- SHADOW_LOAD (R99). Once a tile's first bytes are in the landing buffer and the shadow registers are free,
      the tile is written into the shadow registers in 32 ACLK. -/
  | shadowLoad (core : Nat) (array : Nat) (n : Nat) (k0 : Nat) (n0 : Nat) (behind : Option (Nat × Nat))
  /-- SWAP (R100). Once the pass's last row has entered and the next shadow load is complete, the shadow registers
      become active in 1 ACLK. -/
  | swap (core : Nat) (tiles : List Nat) (hazard : Nat) (waited : Nat)
  /-- RIPPLE_FRONT (R105). Under RIPPLE, a weight front writes the active registers one cell row per ACLK, halting
      when a row of weights has not landed. -/
  | rippleFront (core : Nat) (array : Nat) (n : Nat) (k0 : Nat) (n0 : Nat) (landed : Bool)
  /-- VECTOR_PROGRAM (R125). Runs a straight-line vector program once per token row and column group of every
      sliver. -/
  | vectorProgram (n : Nat) (env : Env)
  /-- LD (R124). Loads an element of a slot tensor, widened to FP32, into a vector register. -/
  | ld (core : Nat) (t : Nat) (g : Nat) (w : Word64)
  /-- ST (R121). Converts a vector register and stores it to an element of a slot tensor. -/
  | st (core : Nat) (t : Nat) (g : Nat) (w : Word64)
  /-- LDI (R124). Loads the FP32 immediate into a vector register. -/
  | ldi (core : Nat) (t : Nat) (g : Nat) (w : Word64)
  /-- ADD (R124). Lane FP32 addition rounded once by rne32. -/
  | add (core : Nat) (t : Nat) (g : Nat) (w : Word64)
  /-- SUB (R124). Lane FP32 subtraction rounded once by rne32. -/
  | sub (core : Nat) (t : Nat) (g : Nat) (w : Word64)
  /-- MUL (R124). Lane FP32 multiplication rounded once by rne32. -/
  | mul (core : Nat) (t : Nat) (g : Nat) (w : Word64)
  /-- FMA (R124). Lane fused multiply-add rounded once. -/
  | fma (core : Nat) (t : Nat) (g : Nat) (w : Word64)
  /-- MIN (R124). Lane minimum, with NaN propagation. -/
  | min (core : Nat) (t : Nat) (g : Nat) (w : Word64)
  /-- MAX (R124). Lane maximum, with NaN propagation. -/
  | max (core : Nat) (t : Nat) (g : Nat) (w : Word64)
  /-- ABS (R124). Clears the sign. -/
  | abs (core : Nat) (t : Nat) (g : Nat) (w : Word64)
  /-- NEG (R124). Inverts the sign. -/
  | neg (core : Nat) (t : Nat) (g : Nat) (w : Word64)
  /-- CMPLT (R124). Gives 1.0 if VA is less than VB, else +0. -/
  | cmplt (core : Nat) (t : Nat) (g : Nat) (w : Word64)
  /-- SEL (R124). Selects VA or VB by VC. -/
  | sel (core : Nat) (t : Nat) (g : Nat) (w : Word64)
  /-- SFU (R127). Evaluates one of ten special functions from the seed tables in 14 ACLK. -/
  | sfu (core : Nat) (t : Nat) (g : Nat) (w : Word64)
  /-- RAND (R140). Takes one generator draw as 32 raw bits. -/
  | rand (core : Nat) (t : Nat) (g : Nat) (w : Word64)
  /-- RANDU (R124). Takes one generator draw scaled to [0, 1). -/
  | randu (core : Nat) (t : Nat) (g : Nat) (w : Word64)
  /-- VECTOR_NOP (R124). Vector no-operation. -/
  | vectorNop (core : Nat) (t : Nat) (g : Nat) (w : Word64)
  /-- ROW_STATS (R135). Computes mean, variance, maximum and log-sum-exp of each row in two passes. -/
  | rowStats (n : Nat) (env : Env)
  /-- GATED_ACT (R134). Writes act(G) × U for sigmoid, SiLU or GELU-erf. -/
  | gatedAct (n : Nat) (env : Env)
  /-- LOAD_SEED_TABLE (R132). Replaces one seed table through the inactive bank, waiting first until no command in
      flight holds that bank. -/
  | loadSeedTable (n : Nat)
  /-- SEED_BANK_SWITCH (R132). After its wait, LOAD_SEED_TABLE copies and writes the inactive bank, checks its CRC
      and makes the bank active in every core. -/
  | seedBankSwitch (n : Nat)
  /-- SEED_GENERATORS (R141). Seeds every lane generator of every logical core from the job seed and step number. -/
  | seedGenerators (n : Nat)
  /-- ATTN_FORWARD (R160). Block attention forward over galley tables with an online softmax. -/
  | attnForward (n : Nat) (env : Env)
  /-- ATTN_BACKWARD (R169). Attention backward by recomputation, writing dQ, dK and dV. -/
  | attnBackward (n : Nat) (env : Env)
  /-- WALK_END (R153). A walk on a table ends; if it was the last walk on a DRAINING bank, the bank is refreshed. -/
  | walkEnd (n : Nat)
  /-- GALLEY_WAITER_RESUME (R154). A command waiting for a shadow proceeds once the DRAINING bank has been
      refreshed. -/
  | galleyWaiterResume (n : Nat) (env : Env)
  /-- GALLEY_APPEND (R150). Quantises and appends K and V tokens at the shadow length. -/
  | galleyAppend (n : Nat) (env : Env)
  /-- GALLEY_EDIT (R158). Performs STORE_INIT, CREATE, FORK, TRUNCATE or DESTROY on the galley store or a table's
      shadow. -/
  | galleyEdit (n : Nat)
  /-- GALLEY_PUBLISH (R152). Publishes changed shadows as new generations, leaving the old banks DRAINING or
      refreshing them. -/
  | galleyPublish (n : Nat)
  /-- VERIFY_TREE (R173). Finds the longest accepted candidate path, moves its tokens into place and truncates the
      shadows. -/
  | verifyTree (n : Nat) (env : Env)
  /-- RING_ATTENTION (R177). Attention with galleys circulating around the S axis in a fixed walk order. -/
  | ringAttention (n : Nat) (env : Env) (ring : List RingStep)
  /-- BACKWARD_INPUT (R191). Forms the input gradient dY × Wᵀ from the edition recorded in the save. -/
  | backwardInput (n : Nat) (env : Env)
  /-- BACKWARD_WEIGHT (R194). Forms and accumulates the weight gradient in MB_SEQ order, deferred when DEFER is
      set. -/
  | backwardWeight (n : Nat) (env : Env)
  /-- DEFERRED_PASS (R188). A queued deferred pass begins at a pass boundary at which no pass without DEFER is
      ready. -/
  | deferredPass (env : Env)
  /-- WGRAD_READER_RESUME (R189). A command reading a weight-gradient tensor proceeds once earlier BACKWARD_WEIGHT
      on it have completed. -/
  | wgradReaderResume (n : Nat)
  /-- OFFLOAD (R200). Copies a save's image with per-block CRCs out of core SRAM to local or remote HBM. -/
  | offload (n : Nat) (env : Env)
  /-- SAVE_WRITE_RESUME (R200). A write of a save that waited for its OFFLOAD or PREFETCH proceeds in place or
      takes new space. -/
  | saveWriteResume (n : Nat)
  /-- PREFETCH (R201). Brings an off-loaded save back, checking each block's CRC. -/
  | prefetch (n : Nat) (env : Env)
  /-- SET_STEP_SIZE (R219). Writes LR, WD, BC1 and BC2 of a slot and advances its stamp. -/
  | setStepSize (n : Nat)
  /-- UPDATE (R217). Checks a parameter update on every D-group member; the owner then runs the rule and
      multicasts the new edition. -/
  | update (n : Nat) (env : Env)
  /-- VERDICT (R217). A D-group member's check verdict arrives; once every verdict passes, the owner runs the
      update rule. -/
  | verdict (n : Nat) (rank : Nat) (status : Nat) (env : Env)
  /-- PEER_LIMIT (R217). A member waiting longer than the wait limit for verdicts completes TIMEOUT and sends a
      failing verdict. -/
  | peerLimit (n : Nat)
  /-- RETIRE_EDITION (R215). Releases or takes host holds on an edition. -/
  | retireEdition (n : Nat)
  /-- ALL_REDUCE (R318). Reduces FP32 data across an axis in a fixed chain order and distributes the result. -/
  | allReduce (n : Nat) (env : Env)
  /-- REDUCE_SCATTER (R318). Reduces each shard in a fixed chain ending at its owner. -/
  | reduceScatter (n : Nat) (env : Env)
  /-- ALL_GATHER (R320). Gathers every member's input into every member's output. -/
  | allGather (n : Nat) (env : Env)
  /-- BROADCAST (R320). Sends the root's input to every member. -/
  | broadcast (n : Nat) (env : Env)
  /-- ALL_TO_ALL (R320). Sends block j of each member to rank j. -/
  | allToAll (n : Nat) (env : Env)
  /-- PERMUTE (R321). Sends each member's input to rank TO and receives from rank FROM. -/
  | permute (n : Nat) (env : Env)
  /-- COLLECTIVE_START (R317). A collective that waited at dispatch takes a free slot and store share and begins
      sending chunks. -/
  | collectiveStart (n : Nat) (env : Env)
  /-- CHUNK (R323). A collective chunk's last frame arrives, and its CRC is checked before the chunk is reduced,
      written, forwarded or consumed. -/
  | chunk (m : ChunkMsg)
  /-- RE_REQUEST (R323). A re-request arrives at the holder of a retained copy, which checks the copy and re-sends
      it with PHASE 2. -/
  | reRequest (axis : Nat) (seq : Nat) (phase : Nat) (shard : Nat) (chunk : Nat) (dest : Nat) (rank : Nat) (bad : Bool) (env : Env)
  /-- DONE (R324). Rank 0 receives a member's DONE message and sends COMMIT once it holds N of them. -/
  | done (axis : Nat) (seq : Nat) (rank : Nat) (flags : Nat)
  /-- COMMIT (R324). A member receives COMMIT, raises COMMIT_TALLY, clears marks and releases its slot. -/
  | commit (axis : Nat) (seq : Nat) (flags : Nat)
  /-- FAIL (R327). A member receives FAIL, stops the collective, frees its share and slot, completes it ABORTED
      and marks the step aborted. -/
  | fail (axis : Nat) (seq : Nat) (detail : Nat)
  /-- PEER_SILENT (R327). No chunk, copy, DONE or COMMIT arrives within SILENT_US, so the collective fails. -/
  | peerSilent (n : Nat)
  /-- COLL_ABORT (R329). A write of a step number to COLL_ABORT aborts that step on the module. -/
  | collAbort (v : Nat)
  /-- MARK_WAIT_END (R325). A command waiting for uncommitted marks on its data proceeds after commit, or
      completes ABORTED after a failure. -/
  | markWaitEnd (n : Nat)
  /-- FEED_OPEN (R336). Opens a stream on a manifest, optionally reserving a sheet cache. -/
  | feedOpen (n : Nat)
  /-- FEED_EPOCH (R341). Starts an epoch in STRICT or SHUFFLED order for a member's share. -/
  | feedEpoch (n : Nat)
  /-- FEED_ROWS (R346). Packs decoded samples in order into rows of tokens, marks and positions. -/
  | feedRows (n : Nat) (bad : List Nat)
  /-- DECODE_DONE (R348). A worker finishes decoding a sample, which is packed or skipped once every earlier
      position has been emitted. -/
  | decodeDone (stream : Nat) (pos : Nat) (entry : List Byte) (bytes : List Byte) (env : Env)
  /-- DEADLINE (R348). A sample at the head of the window for DEADLINE_US without being decoded is skipped with
      reason DEADLINE. -/
  | deadline (stream : Nat)
  /-- FEED_SKIP_LOG (R344). Copies, and optionally consumes, entries of the skip log. -/
  | feedSkipLog (n : Nat)
  /-- FEED_CLOSE (R351). Closes a stream once its commands complete, freeing its cache and log. -/
  | feedClose (n : Nat)
  /-- WORKER_FAULT (R350). A decode worker finds an internal fault, is bypassed until full reset, and its sample
      is decoded again elsewhere. -/
  | workerFault (grove : Nat) (worker : Nat)
  /-- WORKER_BYPASS (R350). A write of FEED_WORKERS_g bypasses or restores decode workers. -/
  | workerBypass (grove : Nat) (v : Nat)
  /-- CONV (R357). Convolution with GROUPS 1 on the arrays. -/
  | conv (n : Nat) (env : Env)
  /-- CONV_GROUPED (R357). Grouped or depth-wise convolution, using the diagonal mapping where it applies. -/
  | convGrouped (n : Nat) (env : Env)
  /-- GLOBAL_AVG_POOL (R359). Computes the per-image, per-channel mean in a fixed order. -/
  | globalAvgPool (n : Nat) (env : Env)
  /-- MARGIN_LAYER (R360). Runs a stem or head layer on the Margin engines, or on the arrays where an engine is
      bypassed or faulted. -/
  | marginLayer (n : Nat) (env : Env) (fault : Option Nat)
  /-- MARGIN_BYPASS (R361). A write of MARGIN_STATE.BYPASS bypasses engines from the next command. -/
  | marginBypass (v : Nat)
  /-- TALLY_ADD (R64). Adds to a local or remote tally. -/
  | tallyAdd (n : Nat)
  /-- TALLY_SET (R64). Sets a local or remote tally. -/
  | tallySet (n : Nat)
  /-- TALLY_WAIT_GE (R64). Waits until a tally is at or above a value, lodging a watch for a remote tally. -/
  | tallyWaitGe (n : Nat)
  /-- TALLY_WAIT_EQ (R64). Waits until a tally equals a value. -/
  | tallyWaitEq (n : Nat)
  /-- TALLY_LIMIT (R64). LIMIT_US of a tally wait expires, so the command completes TIMEOUT and its wait is
      detached or its watch cancelled. -/
  | tallyLimit (n : Nat)
  /-- TALLY_READ (R64). Reads a tally into RESULT. -/
  | tallyRead (n : Nat)
  /-- PROOF_NOW (R422). Fires the proof trigger 16 ACLK after dispatch. -/
  | proofNow (n : Nat)
  /-- PROOF_AT_TIME (R425). Schedules a proof at an IEEE 1588 time. -/
  | proofAtTime (n : Nat)
  /-- PROOF_FIRE (R421). A proof latches every register into the proof image in one ACLK and sets HELD. -/
  | proofFire (sources : List Nat)
  /-- PROOF_PIN_EDGE (R422). A falling edge on the PROOF pin with IN_EN set triggers a proof. -/
  | proofPinEdge
  /-- PROOF_PULL_END (R424). After 100 UCLK the device releases the PROOF pin. -/
  | proofPullEnd
  /-- PROOF_READ (R436). Copies the proof image to memory and optionally releases HELD. -/
  | proofRead (n : Nat)
  /-- PROOF_RELEASE (R423). A write of 1 to PROOF_STATE.HELD releases the held image. -/
  | proofRelease
  /-- COUNTERS_READ (R426). Snapshots a register range in one ACLK to memory, optionally clearing its RC fields. -/
  | countersRead (n : Nat)
  /-- ARRAY_SELF_TEST (R427). Tests every slot, router, Collator slice and Margin engine, and is deferred during
      normal running. -/
  | arraySelfTest (n : Nat) (r : Findings)
  /-- HBM_RECAL_ALL (R427). Recalibrates every channel, and is deferred during normal running. -/
  | hbmRecalAll (n : Nat) (r : Findings)
  /-- HBM_RECAL_CHANNEL (R428). Recalibrates one channel while running. -/
  | hbmRecalChannel (n : Nat) (pass : Bool)
  /-- LINK_RETRAIN_ALL (R312). Retrains every assigned link, and is deferred during normal running. -/
  | linkRetrainAll (n : Nat) (r : Findings)
  /-- LINK_RETRAIN_ONE (R312). Removes one link from its group, trains it and adds it back. -/
  | linkRetrainOne (n : Nat)
  /-- SWEEP_CONTROL (R255). Starts, stops or paces the test sweep. -/
  | sweepControl (n : Nat)
  /-- IDLE_BOUNDARY (R259). At the first ACLK with no non-admin work in flight and no packet pending, every
      pending kind of deferred test work starts. -/
  | idleBoundary
  /-- DEFERRED_WORK_END (R429). A kind of deferred work ends, records TEST_RESULT_k and applies its requests'
      signals. -/
  | deferredWorkEnd (kind : Nat) (r : Findings) (us : Nat)
  /-- ATTEST (R397). Writes a report signed with the device keys. -/
  | attest (n : Nat)
  /-- GET_CERTIFICATE (R397). Copies a device, manufacturing or owner certificate to memory. -/
  | getCertificate (n : Nat)
  /-- DEBUG_UNLOCK (R396). Unlocks Colophon or JTAG scopes with a signed single-use token. -/
  | debugUnlock (n : Nat) (env : Env)
  /-- STAGE_IMAGE (R395). Writes a firmware or profile object into the non-primary flash slot. -/
  | stageImage (n : Nat) (env : Env) (flashFail : Bool)
  /-- ACTIVATE_IMAGE (R395). Verifies the staged object and writes a boot selector copy that makes its slot
      primary. -/
  | activateImage (n : Nat) (flashFail : Bool)
  /-- SWEEP_EVENT (R255). Every INTERVAL_MS, the next slot of every SPARED copse is scheduled for test, moving its
      position to slot 16. -/
  | sweepEvent
  /-- SWEEP_MOVE_END (R255). A 4,112-ACLK sweep move of a position to or from slot 16 completes. -/
  | sweepMoveEnd (copse : Nat)
  /-- SLOT_TEST_END (R256). A 1,400,000-ACLK slot test ends; a failed slot makes its copse UNSPARED. -/
  | slotTestEnd (copse : Nat) (pass : Bool)
  /-- PLACEMENT_MOVE (R250). Once the commands using its old place have completed, a unit or HBM page begins its
      move to the new place. -/
  | placementMove (kind : MoveKind)
  /-- PLACEMENT_MOVE_END (R250). A placement move ends, and waiting commands and held deliveries proceed. -/
  | placementMoveEnd (kind : MoveKind)
  /-- IMPOSITION_DRAINED (R251). The DRAINING imposition drains, the forwarding entries are cleared and
      DRAIN_TALLY is raised. -/
  | impositionDrained
  /-- PENDING_PUBLICATION (R248). A publication that waited for a DRAINING imposition publishes once it has
      drained. -/
  | pendingPublication (n : Nat) (shards : Option (List (List Byte)))
  /-- ROUTER_FAULT (R20). A router fault detected while running sets ROUTER_FAULT and raises the fatal alarm. -/
  | routerFault (copse : Nat)
  /-- MAP_OUT_REQUEST (R276). A write of HBM_MAP_OUT with GO queues a channel for mapping out. -/
  | mapOutRequest (channel : Nat)
  /-- REFRESH_SUBSLOT (R269). In each calendar sub-slot, the banks assigned to it are refreshed in every channel. -/
  | refreshSubslot
  /-- STACK_TEMP_READ (R272). Every 10 µs a stack's temperature is read and its throttle level updated. -/
  | stackTempRead (stack : Nat) (r : Reading)
  /-- JUNCTION_READ (R403). Every 10 µs the junction sensors are read and the grove's thermal level updated. -/
  | junctionRead (grove : Nat) (readings : List Reading)
  /-- POWER_CHECK (R403). Every 1 ms the input power averages are compared with their limits and the power level
      updated. -/
  | powerCheck (avg1 : Nat) (avg100 : Nat)
  /-- ACLK_CAP_WRITE (R403). A write of ACLK_CAP changes the rate requested. -/
  | aclkCapWrite (v : Nat)
  /-- ACLK_RATE_CHANGE (R404). At the first calendar period boundary after a request, the pending ACLK rate takes
      effect. -/
  | aclkRateChange
  /-- GATE_ENTRY (R406). A copse idle for GATE_IDLE_UCLK, with none of its work scheduled within that time, stops
      its ACLK. -/
  | gateEntry (copse : Nat)
  /-- RETAIN_ENTRY (R406). A copse GATED for RETAIN_IDLE µs and carrying no unit enters retention. -/
  | retainEntry (copse : Nat)
  /-- WAKE (R407). The grove sequencer begins a copse wake so that it reaches RUN before its first scheduled work. -/
  | wake (copse : Nat)
  /-- WAKE_COMPLETE (R406). After 4 or 60 UCLK the copse reaches RUN. -/
  | wakeComplete (copse : Nat)
  /-- MEMORY_CONTROLLER_RESET (R413). A memory controller that loses PHY lock or faults resets alone, or causes a
      full reset under JOINT. -/
  | memoryControllerReset (channel : Nat) (reads : List Nat)
  /-- SEAM_RESET (R413). A seam port that loses lane lock retrains and aborts the step, or causes a full reset
      under JOINT. -/
  | seamReset (port : Nat)
  /-- D128_DATA_BLOCK (R290). A DATA block is received, decoded and delivered at LAT_LCLK, or discarded with a
      NACK when uncorrectable. -/
  | d128DataBlock (n : Nat) (b : List Byte)
  /-- D128_IDLE_BLOCK (R290). An IDLE block returns credit and acknowledgement. -/
  | d128IdleBlock (n : Nat) (ack : Nat) (credit : Nat)
  /-- D128_NACK_BLOCK (R292). A NACK block makes the sender replay from the named block. -/
  | d128NackBlock (n : Nat) (seq : Nat)
  /-- LOSS_OF_SIGNAL (R293). Loss of signal on a lane for 1 µs takes the link DOWN. -/
  | lossOfSignal (n : Nat)
  /-- LINK_RETRAIN_TIMER (R293). Every 100 ms a DOWN link without HOLD is retrained. -/
  | linkRetrainTimer (n : Nat)
  /-- LINK_TRAINED (R291). Training of a link ends, fixing LAT_LCLK and adding the link back to its group. -/
  | linkTrained (n : Nat) (t : Option LinkTraining)
  /-- WRITE (R297). An IFP WRITE frame is applied at its destination in SEQ order and acknowledged when visible. -/
  | write (n : Nat) (f : IfpFrame) (ce : Bool)
  /-- READ_REQ (R297). An IFP read request is served with READ_RESP frames. -/
  | readReq (n : Nat) (f : IfpFrame) (ce : Bool)
  /-- READ_RESP (R295). Read response data arrives for an outstanding request. -/
  | readResp (n : Nat) (f : IfpFrame) (ce : Bool)
  /-- IFP_TALLY_ADD (R49). A remote tally add is applied at the tally's home exactly once. -/
  | ifpTallyAdd (n : Nat) (f : IfpFrame) (ce : Bool)
  /-- WATCH (R50). A remote node lodges a watch on a tally, refused when 1,024 are held. -/
  | watch (n : Nat) (f : IfpFrame) (ce : Bool)
  /-- WATCH_NOTIFY (R66). A notification that a lodged watch was met completes the waiting command, or is
      discarded. -/
  | watchNotify (n : Nat) (f : IfpFrame) (ce : Bool)
  /-- WATCH_CANCEL (R66). The home releases the named watch. -/
  | watchCancel (n : Nat) (f : IfpFrame) (ce : Bool)
  /-- SCHED (R251). A scheduled delivery arrives and is resolved against the imposition named. -/
  | sched (n : Nat) (f : IfpFrame) (ce : Bool)
  /-- IFP_ACK (R298). A standalone acknowledgement releases acknowledged frames. -/
  | ifpAck (n : Nat) (f : IfpFrame) (ce : Bool)
  /-- IFP_NACK (R298). The sender resends from the named frame. -/
  | ifpNack (n : Nat) (f : IfpFrame) (ce : Bool)
  /-- IFP_ERROR (R304). A fabric fault code from a destination completes the requester's access with an error. -/
  | ifpError (n : Nat) (f : IfpFrame) (ce : Bool)
  /-- CNP (R303). A congestion notification cuts the connection's rate by 7/8, at most once per 10 µs. -/
  | cnp (n : Nat) (f : IfpFrame) (ce : Bool)
  /-- CONTROL (R295). An IFP control frame carrying Imposer, Collator or update messages is delivered. -/
  | control (n : Nat) (f : IfpFrame) (ce : Bool) (report : List Nat)
  /-- ACK_TIMER (R298). 2 µs after the oldest unacknowledged frame, a standalone ACK is sent. -/
  | ackTimer (node : Nat) (cls : Nat)
  /-- RETRANSMISSION_TIMEOUT (R298). A frame unacknowledged for RTO_US is resent with RETX, doubling the wait. -/
  | retransmissionTimeout (node : Nat) (cls : Nat) (seq : Nat)
  /-- NO_ROUTE_TIMEOUT (R298). A destination without a route for 1,000 µs makes its connection LOST. -/
  | noRouteTimeout (node : Nat) (cls : Nat)
  /-- RATE_INCREASE (R303). Every 20 µs without ECE or CNP, the connection's rate rises by 2 Gb/s. -/
  | rateIncrease (node : Nat) (cls : Nat)
  /-- PAUSE_FRAME (R294). A received PAUSE frame is discarded and counted. -/
  | pauseFrame (n : Nat)
  /-- SEND (R308). An incoming RoCEv2 SEND fills the next receive descriptor and raises RECV_TALLY, or is answered
      RNR NAK. -/
  | send (i : Nat) (psn : Nat) (kind : Nat) (d : List Byte) (ce : Bool)
  /-- RDMA_WRITE (R308). An incoming RDMA WRITE is applied within a registered window, or refused. -/
  | rdmaWrite (i : Nat) (psn : Nat) (kind : Nat) (vaddr : Nat) (rkey : Nat) (len : Nat) (d : List Byte) (ce : Bool)
  /-- RDMA_READ_REQUEST (R308). An incoming RDMA READ is served from a registered window, or refused. -/
  | rdmaReadRequest (i : Nat) (psn : Nat) (vaddr : Nat) (rkey : Nat) (len : Nat) (ce : Bool)
  /-- RDMA_READ_RESPONSE (R307). Response data arrives for a read the device issued. -/
  | rdmaReadResponse (i : Nat) (last : Bool) (d : List Byte) (ce : Bool)
  /-- ROCE_ACKNOWLEDGE (R305). An ACK, NAK or RNR NAK for a queue pair is received. -/
  | roceAcknowledge (i : Nat) (psn : Nat) (kind : Nat)
  /-- ROCE_ACK_TIMEOUT (R305). A queue pair's ACK timeout expires, triggering go-back-N retransmission or the
      error state. -/
  | roceAckTimeout (i : Nat)
  /-- QP_READY (R306). A write of STATE 1 to a queue-pair context makes the device read the whole context. -/
  | qpReady (i : Nat)
  /-- PTP_SYNC (R309). A PTP Sync message updates the offset used to discipline PTP_NOW and the lock state. -/
  | ptpSync (transport : Nat) (domain : Nat) (seq : Nat) (twoStep : Bool) (origin : Nat) (correction : Int)
  /-- PTP_DELAY_RESPONSE (R309). A delay response completes a path-delay measurement. -/
  | ptpDelayResponse (transport : Nat) (domain : Nat) (seq : Nat) (received : Nat) (correction : Int)
  /-- GCL_DATA_FLIT (R367). A GCL flit is received and its messages delivered, or it is discarded with a NACK. -/
  | gclDataFlit (b : List Byte)
  /-- GCL_NACK_FLIT (R369). The sender replays flits from the named one. -/
  | gclNackFlit (seq : Nat)
  /-- RD_NC (R372). A non-coherent read of device memory is answered CMP_DATA or ERR. -/
  | rdNc (tag : Nat) (a : Nat) (n : Nat)
  /-- RD_SHARED (R374). The companion requests a window line in shared state. -/
  | rdShared (tag : Nat) (a : Nat)
  /-- RD_OWN (R374). The companion requests a window line exclusively. -/
  | rdOwn (tag : Nat) (a : Nat)
  /-- WR_NC (R376). A non-coherent write completes once visible to every agent. -/
  | wrNc (tag : Nat) (a : Nat) (d : List Byte)
  /-- WR_POSTED (R376). A posted write is applied in order. -/
  | wrPosted (a : Nat) (d : List Byte)
  /-- WR_BACK (R375). The companion writes back a window line, or supplies the data of a crossing snoop. -/
  | wrBack (tag : Nat) (a : Nat) (d : List Byte)
  /-- EVICT_CLEAN (R374). The companion drops a clean window line. -/
  | evictClean (tag : Nat) (a : Nat)
  /-- SNP_ACK (R374). A snoop response without data completes a pending snoop. -/
  | snpAck (tag : Nat)
  /-- SNP_DATA (R374). A snoop response with data is written to HBM and the waiting access proceeds. -/
  | snpData (tag : Nat) (d : List Byte)
  /-- CMP (R377). A completion of a device write arrives, letting the second half of a reply be written. -/
  | cmp (tag : Nat)
  /-- CMP_DATA (R376). Read data arrives for a device fetch. -/
  | cmpData (tag : Nat) (d : List Byte)
  /-- ERR (R379). An ERR answer to a fetch or reply write stops the ring and sets HOST_FAULT. -/
  | err (tag : Nat) (code : Nat)
  /-- GCL_DOWN (R380). The GCL goes DOWN on loss of signal, the replay limit or a signalled reset, and retrains. -/
  | gclDown (signalled : Bool)
  /-- GCL_RETRAINED (R380). The GCL retrains and replays from the first unacknowledged flit. -/
  | gclRetrained (t : GclTraining)
  /-- GCL_LOSS_TIMEOUT (R380). The GCL not back within 100 ms sets FATAL and poisons directory-E lines. -/
  | gclLossTimeout
  /-- GCL_IRQ_ACK (R378). Acknowledging a vector clears it as pending and resends it if a new cause arose. -/
  | gclIrqAck (v : Nat)
  /-- RESET_CTRL (R417). A write of KEY 0x5253 begins a full reset with cause REGISTER. -/
  | resetCtrl (v : Nat)
  /-- WATCHDOG_RESTART (R418). Falosteo restarts the watchdog. -/
  | watchdogRestart
  /-- WATCHDOG (R418). The watchdog runs TIMEOUT_MS without restart and begins a full reset. -/
  | watchdog
  /-- POWER_ON (R444). The input rises through 12 V and the understory starts, reading POWER_ON. -/
  | powerOn
  /-- INPUT (R443). The input leaves its range for 5 µs, beginning a full reset with cause INPUT. -/
  | input
  /-- POWER_LOSS (R444). The input falls below 12 V and every pin becomes as unpowered. -/
  | powerLoss
  /-- RESET_N_ASSERT (R414). Assertion of RESET_N begins a full reset with cause PIN. -/
  | resetNAssert
  /-- FULL_RESET_BEGIN (R415). A full reset latches its cause, quiets transmitters, abandons commands and stops
      clocks. -/
  | fullResetBegin (cause : Nat)
  /-- RESET_RELEASE (R415). Once the release conditions have held 10 µs, the reset ends and start-up begins. -/
  | resetRelease
  /-- START_UP (R389). Start-up stage 1 brings up the understory and starts the device time counter. -/
  | startUp (duration : Nat)
  /-- BOOT_ROM_STAGE (R389). The boot ROM self-checks and reads the boot selector. -/
  | bootRomStage (duration : Nat) (ok : Bool)
  /-- VERIFICATION_STAGE (R390). Firmware and profile are verified with fallback, or start-up stops in the boot
      ROM. -/
  | verificationStage (duration : Nat)
  /-- FALOSTEO_STAGE (R391). The firmware is loaded into the sequencers and started. -/
  | falosteoStage (duration : Nat) (ok : Bool)
  /-- PUF_STAGE (R392). The device secret and keys are derived and the certificates checked. -/
  | pufStage (duration : Nat) (ok : Bool)
  /-- SELF_TEST_STAGE (R391). Routers, slots, slices and engines are tested, the repair map is written, memories
      are zeroed and the seed tables written. -/
  | selfTestStage (duration : Nat) (slots : List Nat) (routers : List Nat) (engines : List Nat)
  /-- HBM_TRAINING_STAGE (R391). Channels are trained, excluded channels applied and the calendar started. -/
  | hbmTrainingStage (duration : Nat) (channels : List Nat)
  /-- LINK_TRAINING_STAGE (R389). Link modes and groups are applied and D128 links trained. -/
  | linkTrainingStage (duration : Nat) (links : List (Nat × LinkTraining))
  /-- GCL_TRAINING_STAGE (R391). The GCL is trained in up to three attempts, or start-up fails with FATAL. -/
  | gclTrainingStage (duration : Nat) (training : Option GclTraining)
  /-- COLOPHON_ID (R433). Replies with model, stepping, DEVICE_ID and BOOT_STATUS. -/
  | colophonId
  /-- COLOPHON_STATUS (R433). Replies with the boot, command, alarm and reset status. -/
  | colophonStatus
  /-- COLOPHON_NONCE (R433). Replies with UNLOCK_NONCE. -/
  | colophonNonce
  /-- COLOPHON_UNLOCK (R396). Presents an unlock token over the UART. -/
  | colophonUnlock (token : List Byte)
  /-- COLOPHON_RESET (R417). Begins a full reset. -/
  | colophonReset
  /-- COLOPHON_RD (R433). Reads a register. -/
  | colophonRd (off : Nat)
  /-- COLOPHON_WR (R433). Writes a register. -/
  | colophonWr (off : Nat) (v : Nat)
  /-- COLOPHON_MR (R433). Reads node-local memory. -/
  | colophonMr (a : Nat) (n : Nat)
  /-- COLOPHON_PROOF (R422). Triggers a proof. -/
  | colophonProof
  /-- COLOPHON_PR (R433). Reads bytes of the proof image. -/
  | colophonPr (off : Nat) (n : Nat)
  /-- COLOPHON_LOAD (R434). Writes bytes into the non-primary slot in recovery mode. -/
  | colophonLoad (kind : Nat) (off : Nat) (d : List Byte) (flashFail : Bool)
  /-- COLOPHON_ACTIVATE (R434). Verifies the slot and makes it primary in recovery mode. -/
  | colophonActivate (kind : Nat) (flashFail : Bool)
  /-- COLOPHON_OVERFLOW (R432). A line that overflows the buffer is discarded and answered ERR 05. -/
  | colophonOverflow
  /-- SMBUS_BLOCK_WRITE (R446). SMBus command 0x10 writes a register. -/
  | smbusBlockWrite (off : Nat) (v : Word64)
  /-- SMBUS_PROCESS_CALL (R446). SMBus command 0x12 reads a register with a status byte. -/
  | smbusProcessCall (off : Nat)
  /-- TAP_RESET (R435). TMS held high for five TCK resets the TAP and selects IDCODE. -/
  | tapReset
  /-- IDCODE (R435). Selects the identification register. -/
  | idcode
  /-- EXTEST (R435). Drives the sideband outputs from the boundary-scan register. -/
  | extest
  /-- SAMPLE_PRELOAD (R435). Samples and preloads the boundary-scan register. -/
  | samplePreload (pins : Nat) (cells : Nat)
  /-- BYPASS (R435). Selects the one-bit bypass register. -/
  | bypass
  /-- ARITH_FLAGS_CLEAR (R88). A write of 1 to an ARITH_FLAGS_SUMMARY bit clears it in the summary and in every
      array. -/
  | arithFlagsClear (v : Nat)
  /-- READ_CLEAR (R9). A read of a register with RC fields returns them and clears those within the bytes read. -/
  | readClear (offset : Nat) (size : Nat)
  /-- REGISTER_WRITE (R9). A write to a register without a row of its own sets its RW fields, clears W1C bits and
      ignores the rest. -/
  | registerWrite (offset : Nat) (size : Nat) (value : Nat)
  /-- INPUT_IN_RANGE (R444). The input rises to 40 V, the power stage soft-starts and MODULE_INPUT.IN_RANGE is set
      within 5 ms. -/
  | inputInRange
  /-- RESET_N_DEASSERT (R415). RESET_N is deasserted, which starts the 10 µs qualification of the release
      conditions of a held full reset. -/
  | resetNDeassert
  /-- SEAM_PORT_RETRAINED (R413). A seam port that reset alone under SIGNALLED ends its retraining within 50 µs
      and carries traffic again. -/
  | seamPortRetrained (port : Nat)
  /-- MEMORY_CONTROLLER_RETRAINED (R413). A memory controller that reset alone under SIGNALLED finishes retraining
      its channel within 2 ms and takes the channel out of self refresh. -/
  | memoryControllerRetrained (channel : Nat)
  /-- PRIORITY_FLOW_CONTROL (R294). An IEEE 802.1Qbb priority flow control frame arrives on an E100 port that has
      PFC enabled, and it pauses or resumes sending on that priority. -/
  | priorityFlowControl (n : Nat) (pause : Bool)
  /-- FOLLOW_UP (R309). A PTP Follow_Up message from a two-step master gives the precise origin timestamp of the
      preceding Sync. -/
  | followUp (transport : Nat) (domain : Nat) (seq : Nat) (origin : Nat) (correction : Int)
  /-- FRAME_DROPS (R294). A received Ethernet frame addressed to another MAC or IP address, with an unsupported
      header, or an IPv4 fragment, is discarded and counted in ETH_DROPS_n. -/
  | frameDrops (n : Nat) (h : RxHeader)
  /-- NAK_INVALID_REQUEST (R305). An incoming RoCEv2 request of an unsupported kind, such as an atomic, is
      answered NAK Invalid Request. -/
  | nakInvalidRequest (i : Nat) (psn : Nat)
  deriving DecidableEq, Repr

end Sys2Proof
end

