-- ==== Sys2Proof/Decode.lean ====
section
/-! DEFINITION. The decoder the host asks for. The table of this device gives its rows no bits: a command is an event or
the packet it stands for, and no word spells one. -/

namespace Sys2Proof

/-- The command a word spells by the table's bits: none, for no row of the table has bits. -/
def decodeTableWord (_nbits _w : Nat) : Option Instr := none

end Sys2Proof
end

