-- ==== Sys2Proof/Machine/Bits.lean ====
section
/-! DEFINITION. Bit fields (00_scope.md R5) and little-endian byte strings (R6). -/

namespace Sys2Proof.Machine

/-- The field `hi:lo` of a number (R5). -/
def bits (v hi lo : Nat) : Nat := (v >>> lo) % 2 ^ (hi + 1 - lo)

/-- Bit `i` of a number, 0 or 1. -/
def bit (v i : Nat) : Nat := (v >>> i) % 2

/-- A register word with field `hi:lo` replaced by the low bits of `x`. -/
def putBits (v hi lo x : Nat) : Nat :=
  let w := 2 ^ (hi + 1 - lo)
  v - bits v hi lo * 2 ^ lo + (x % w) * 2 ^ lo

/-- The number a little-endian byte string stands for (R6). -/
def leNat : List Byte → Nat
  | [] => 0
  | b :: bs => b.toNat + 256 * leNat bs

/-- The `n` bytes of a number, lowest first (R6). -/
def leBytes : Nat → Nat → List Byte
  | 0, _ => []
  | n + 1, v => BitVec.ofNat 8 v :: leBytes n (v / 256)

/-- Bytes `i` to `i + n - 1` of a byte string as a little-endian number; a byte beyond the end counts as 0. -/
def fieldAt (p : List Byte) (i n : Nat) : Nat := leNat ((p.drop i).take n)

/-- The least of a number and a limit: a counter that saturates. -/
def saturate (limit v : Nat) : Nat := min limit v

/-- The quotient rounded up. -/
def ceilDiv (a b : Nat) : Nat := (a + b - 1) / b

/-- A truth value as a bit. -/
def ofBool (b : Bool) : Nat := if b then 1 else 0

/-- `x` as a two's-complement number of `w` bits. -/
def signed (w x : Nat) : Int :=
  let y := x % 2 ^ w
  if y < 2 ^ (w - 1) then (y : Int) else (y : Int) - 2 ^ w

/-- The low `w` bits of an integer, in two's complement. -/
def unsigned (w : Nat) (x : Int) : Nat := (x % 2 ^ w).toNat

/-- Whether `x` comes before `y` in numbers modulo 1,024. -/
def seqBefore (x y : Nat) : Bool := decide (0 < (y + 1024 - x) % 1024) && decide ((y + 1024 - x) % 1024 < 512)

/-- A list with an element put before the first one it does not come after. -/
def insertBy {α : Type} (le : α → α → Bool) (x : α) : List α → List α
  | [] => [x]
  | y :: l => if le x y then x :: y :: l else y :: insertBy le x l

/-- A list in ascending order, equal elements in the order they have. -/
def sortBy {α : Type} (le : α → α → Bool) : List α → List α
  | [] => []
  | x :: l => insertBy le x (sortBy le l)

end Sys2Proof.Machine
end

