-- ==== Sys2Proof/Machine/Flags.lean ====
section
/-! DEFINITION. The four sticky arithmetic flags NV, OF, UF and SC (03_number_formats.md R82, Table 3.9). -/

namespace Sys2Proof.Machine

/-- The flags raised by a computation (R82). -/
structure Flags where
  nv : Bool
  of : Bool
  uf : Bool
  sc : Bool
  deriving DecidableEq, Repr

/-- No flag. -/
def Flags.none : Flags := ⟨false, false, false, false⟩

/-- Both computations' flags. -/
def Flags.or (a b : Flags) : Flags := ⟨a.nv || b.nv, a.of || b.of, a.uf || b.uf, a.sc || b.sc⟩

/-- The flags on the bit positions of Table 3.9. -/
def Flags.code (f : Flags) : Nat := ofBool f.nv + 2 * ofBool f.of + 4 * ofBool f.uf + 8 * ofBool f.sc

/-- The invalid flag alone. -/
def Flags.onlyNV : Flags := { Flags.none with nv := true }

/-- The overflow flag alone. -/
def Flags.onlyOF : Flags := { Flags.none with of := true }

/-- The underflow flag alone. -/
def Flags.onlyUF : Flags := { Flags.none with uf := true }

/-- The scale flag alone. -/
def Flags.onlySC : Flags := { Flags.none with sc := true }

end Sys2Proof.Machine
end

