-- ==== Sys2Proof/Machine/Num.lean ====
section
/-! DEFINITION. Number formats and the arithmetic of the arrays (03_number_formats.md R67 to R86, R122's
rounding shared with the vector engine). Values are exact: a finite value is a sign and a rational magnitude. -/

namespace Sys2Proof.Machine

/-- The value an encoding stands for (R69, R70): a NaN, an infinity, or a sign and a magnitude (the sign of a
zero is kept). -/
inductive Val where
  | nan
  | inf (neg : Bool)
  | fin (neg : Bool) (mag : Rat)
  deriving DecidableEq, Repr

/-- The real value of a finite `Val`; 0 for the others. -/
def Val.real : Val → Rat
  | .fin neg m => if neg then -m else m
  | _ => 0

/-- The `Val` of a real number; a zero carries no sign (R79). -/
def Val.ofReal (q : Rat) : Val := .fin (decide (q < 0)) (if q < 0 then -q else q)

/-- Whether the value is NaN. -/
def Val.isNan : Val → Bool
  | .nan => true
  | _ => false

/-- Whether the value is an infinity. -/
def Val.isInf : Val → Bool
  | .inf _ => true
  | _ => false

/-- The sign bit; a NaN the device produces has it clear (R70). -/
def Val.neg : Val → Bool
  | .nan => false
  | .inf s => s
  | .fin s _ => s

/-- Whether the value is a zero. -/
def Val.isZero : Val → Bool
  | .fin _ m => decide (m = 0)
  | _ => false

/-- Two to an integer power. -/
def pow2 (e : Int) : Rat := if 0 ≤ e then ((2 ^ e.toNat : Nat) : Rat) else mkRat 1 (2 ^ (-e).toNat)

/-- The floor of the base-2 logarithm of a positive rational (0 for 0). -/
def flog2 (q : Rat) : Int :=
  let n := q.num.natAbs
  let e : Int := (Nat.log2 n : Int) - (Nat.log2 q.den : Int)
  if pow2 e ≤ q then e else e - 1

/-- One row of Table 3.2 for a floating-point format. -/
structure Format where
  ebits : Nat
  mbits : Nat
  bias : Nat
  /-- the binade of the largest finite value (R84) -/
  emax : Int
  /-- the largest finite value -/
  maxFin : Rat
  hasInf : Bool
  hasNan : Bool
  deriving DecidableEq, Repr

/-- Table 3.2, by the format code of Table 3.1; INT8 and E8M0 are not floating-point formats. -/
def Format.ofCode : Nat → Option Format
  | 0 => some ⟨8, 23, 127, 127, ((2 ^ 24 - 1 : Nat) : Rat) * pow2 104, true, true⟩
  | 1 => some ⟨8, 7, 127, 127, 255 * pow2 120, true, true⟩
  | 2 => some ⟨5, 10, 15, 15, 65504, true, true⟩
  | 3 => some ⟨4, 3, 7, 8, 448, false, true⟩
  | 4 => some ⟨5, 2, 15, 15, 57344, true, true⟩
  | 5 => some ⟨2, 3, 1, 2, mkRat 15 2, false, false⟩
  | 6 => some ⟨3, 2, 3, 4, 28, false, false⟩
  | 7 => some ⟨2, 1, 1, 2, 6, false, false⟩
  | _ => none

/-- Binary32. -/
def fp32 : Format := ⟨8, 23, 127, 127, ((2 ^ 24 - 1 : Nat) : Rat) * pow2 104, true, true⟩

/-- bfloat16. -/
def bf16 : Format := ⟨8, 7, 127, 127, 255 * pow2 120, true, true⟩

/-- The binade of the smallest normal value. -/
def Format.emin (f : Format) : Int := 1 - (f.bias : Int)

/-- The smallest normal value. -/
def Format.minNormal (f : Format) : Rat := pow2 f.emin

/-- The element width in bits (Table 3.1). -/
def elemBits (code : Nat) : Nat :=
  match code % 16 with
  | 0 => 32
  | 1 => 16
  | 2 => 16
  | 5 => 6
  | 6 => 6
  | 7 => 4
  | _ => 8

/-- Whether a format byte is one R68 allows: a code of Table 3.1, an MX bit the table permits, reserved bits
clear. -/
def fmtOk (b : Nat) : Bool :=
  b < 32 &&
  (match b % 16 with
   | 0 | 1 | 2 | 9 => b < 16
   | 3 | 4 | 8 => true
   | 5 | 6 | 7 => 16 ≤ b
   | _ => false)

/-- Whether a format byte has block scales (R68). -/
def isMX (b : Nat) : Bool := bit b 4 = 1

/-- The value of a code of a floating-point format (R69, Table 3.2). -/
def Format.decode (f : Format) (c : Nat) : Val :=
  let s := bit c (f.ebits + f.mbits) = 1
  let e := bits c (f.ebits + f.mbits - 1) f.mbits
  let m := c % 2 ^ f.mbits
  let top := 2 ^ f.ebits - 1
  if f.hasInf ∧ e = top then (if m = 0 then .inf s else .nan)
  else if f.hasNan ∧ ¬ f.hasInf ∧ e = top ∧ m = 2 ^ f.mbits - 1 then .nan
  else if e = 0 then .fin s ((m : Rat) * pow2 (f.emin - f.mbits))
  else .fin s (((2 ^ f.mbits + m : Nat) : Rat) * pow2 ((e : Int) - f.bias - f.mbits))

/-- The code of a value that the format holds exactly; NaN gives the canonical one of R70. A format without
NaN or infinity is given neither. -/
def Format.encode (f : Format) (v : Val) : Nat :=
  let top := 2 ^ f.ebits - 1
  let sgn := fun (s : Bool) => ofBool s * 2 ^ (f.ebits + f.mbits)
  match v with
  | .nan =>
    if f.hasInf then top * 2 ^ f.mbits + 2 ^ (f.mbits - 1)
    else top * 2 ^ f.mbits + (2 ^ f.mbits - 1)
  | .inf s => sgn s + top * 2 ^ f.mbits
  | .fin s m =>
    if m = 0 then sgn s
    else if m < f.minNormal then sgn s + (m / pow2 (f.emin - f.mbits)).floor.toNat
    else
      let e := flog2 m
      sgn s + (e + f.bias).toNat * 2 ^ f.mbits + ((m / pow2 e - 1) * 2 ^ f.mbits).floor.toNat

/-- The value of an element code in the format of a format byte (R69, R72): an INT8 element is its integer,
times 2^−6 when it carries block scales; an E8M0 code is its power of two. -/
def decodeElem (fmt c : Nat) : Val :=
  match Format.ofCode (fmt % 16) with
  | some f => f.decode (c % 2 ^ elemBits fmt)
  | none =>
    if fmt % 16 = 9 then (if c % 256 = 255 then .nan else .fin false (pow2 ((c % 256 : Nat) - 127)))
    else
      let q : Rat := (signed 8 c : Rat)
      Val.ofReal (if isMX fmt then q * pow2 (-6) else q)

/-- The spacing of the format's values at magnitude `y` (R84, ulp_F). -/
def Format.ulp (f : Format) (y : Rat) : Rat :=
  if f.minNormal ≤ y then pow2 (min (flog2 y) f.emax - f.mbits) else pow2 (f.emin - f.mbits)

/-- How a conversion rounds (R84): to nearest even, or by a 16-bit draw. -/
inductive Rounding where
  | rne
  | sr (draw : Nat)
  deriving DecidableEq, Repr

/-- A magnitude as a whole number of spacings, rounded (R84). -/
def roundUnits (r : Rounding) (y : Rat) : Nat :=
  let m := y.floor.toNat
  let f := y - (m : Rat)
  match r with
  | .rne => if mkRat 1 2 < f ∨ (f = mkRat 1 2 ∧ m % 2 = 1) then m + 1 else m
  | .sr d => if d < (f * 65536).floor.toNat then m + 1 else m

/-- convert() of R84 on a value, with the flags it raises; the result is a value the format holds. -/
def convertVal (f : Format) (r : Rounding) (x : Val) : Val × Flags :=
  match x with
  | .nan => (.nan, Flags.none)
  | .inf s => if f.hasInf then (.inf s, Flags.none) else (.fin s f.maxFin, Flags.onlyOF)
  | .fin s y =>
    if y = 0 then (.fin s 0, Flags.none)
    else
      let w := f.ulp y
      let v := (roundUnits r (y / w) : Rat) * w
      if f.maxFin < v then
        (if f.hasInf then .inf s else .fin s f.maxFin, Flags.onlyOF)
      else
        (.fin s v, if (y / w).den ≠ 1 ∧ v < f.minNormal then Flags.onlyUF else Flags.none)

/-- rne32 of R79: the exact real rounded to binary32; an exact zero gives +0. -/
def rne32 (q : Rat) : Val × Flags :=
  if q = 0 then (.fin false 0, Flags.none) else convertVal fp32 .rne (Val.ofReal q)

/-- The value of a binary32 code. -/
def val32 (c : Word32) : Val := fp32.decode c.toNat

/-- The binary32 code of a value. -/
def code32 (v : Val) : Word32 := BitVec.ofNat 32 (fp32.encode v)

/-- An element of an operand: its value, its block's scale byte (0x7F when unscaled, R73), and its FP32 bit
pattern where the operand is FP32 (R81). -/
structure Elem where
  v : Val
  x : Nat
  code : Nat
  deriving DecidableEq, Repr

/-- What a product adds to a step (R77). -/
inductive Addend where
  | zero
  | nan
  | inf (neg : Bool)
  | term (q : Rat)
  deriving DecidableEq, Repr

/-- FP32_MAX of R77. -/
def fp32Max : Rat := fp32.maxFin

/-- The least magnitude that rounds to infinity in binary32 (R77). -/
def fp32Limit : Rat := pow2 128 - pow2 103

/-- The addend of one product of a tree step, with its flags (R77). -/
def addend (scsat : Bool) (a b : Elem) : Addend × Flags :=
  let s := Bool.xor a.v.neg b.v.neg
  if a.v.isNan || b.v.isNan || decide (a.x = 255) || decide (b.x = 255) then (.nan, Flags.onlyNV)
  else if (a.v.isInf && b.v.isZero) || (b.v.isInf && a.v.isZero) then (.nan, Flags.onlyNV)
  else if a.v.isInf || b.v.isInf then (.inf s, Flags.none)
  else if a.v.isZero || b.v.isZero then (.zero, Flags.none)
  else
    let t : Int := ((a.x : Int) - 127) + ((b.x : Int) - 127)
    if 127 < t then
      (if scsat then .term (if s then -fp32Max else fp32Max) else .inf s, Flags.onlySC)
    else if t < -126 then (.zero, Flags.onlyUF)
    else
      let p := a.v.real * b.v.real * pow2 t
      if fp32Limit ≤ |p| then (.inf s, Flags.onlyOF) else (.term p, Flags.none)

/-- The flags of a list of addends. -/
def addendFlags (l : List (Addend × Flags)) : Flags := l.foldl (fun f x => f.or x.2) Flags.none

/-- Whether some addend is an infinity of the given sign. -/
def hasInf (neg : Bool) (l : List (Addend × Flags)) : Bool := l.any fun x => x.1 == .inf neg

/-- The finite non-zero addends. -/
def terms (l : List (Addend × Flags)) : List Rat :=
  l.filterMap fun x => match x.1 with
    | .term q => some q
    | _ => none

/-- The exponent of the largest of a non-empty list of addends. -/
def maxExp : List Rat → Int
  | [] => 0
  | [q] => flog2 |q|
  | q :: l => max (flog2 |q|) (maxExp l)

/-- The aligned and truncated sum of the finite addends (R77, R78): 28 bits are kept below the leading bit of
the largest. -/
def treeSum (l : List Rat) : Rat :=
  let u := pow2 (maxExp l - 28)
  l.foldl (fun s q => s + (if q < 0 then -1 else 1) * ((|q| / u).floor : Rat) * u) 0

/-- The outcome of a tree step from its addends (R77). -/
def treeOf (l : List (Addend × Flags)) : Val × Flags :=
  let f := addendFlags l
  let pinf := hasInf false l
  let ninf := hasInf true l
  let nan := l.any fun x => x.1 == .nan
  if pinf && ninf then (.nan, f.or Flags.onlyNV)
  else if nan then (.nan, f)
  else if pinf then (.inf false, f)
  else if ninf then (.inf true, f)
  else (Val.ofReal (treeSum (terms l)), f)

/-- tree_step of R77 on the products of one step. -/
def treeStep (scsat : Bool) (l : List (Elem × Elem)) : Val × Flags :=
  treeOf (l.map fun p => addend scsat p.1 p.2)

/-- acc_step of R79. -/
def accStep (acc s : Val) : Val × Flags :=
  match s, acc with
  | .nan, _ => (.nan, Flags.none)
  | _, .nan => (.nan, Flags.none)
  | .inf a, .inf b => if a = b then (.inf a, Flags.none) else (.nan, Flags.onlyNV)
  | .inf a, _ => (.inf a, Flags.none)
  | _, .inf b => (.inf b, Flags.none)
  | .fin _ _, .fin _ _ => rne32 (acc.real + s.real)

/-- split of R81: the two bfloat16 parts of a binary32 pattern. -/
def split32 (c : Nat) : Nat × Nat :=
  match fp32.decode c with
  | .nan => (0x7FC0, 0)
  | .inf _ => (c / 65536, 0)
  | v =>
    let hi := c / 65536
    let d := v.real - (fp32.decode (hi * 65536)).real
    (hi, if d = 0 then 0 else bf16.encode (convertVal bf16 .rne (Val.ofReal d)).1)

/-- The terms of a pass (R81): which part of A and which part of B a tree step multiplies. -/
inductive Term where
  | hh
  | hl
  | lh
  deriving DecidableEq, Repr

/-- Table 3.5. -/
def passTerms : Nat → List Term
  | 1 => [.hh]
  | 2 => [.hh, .hl]
  | _ => [.hh, .hl, .lh]

/-- The addend of one index of a split FP32 product (R81): a NaN or infinite operand is decided by the hh term
from the operands themselves, and gives the other terms a zero addend. -/
def splitAddend (scsat : Bool) (t : Term) (a b : Elem) : Addend × Flags :=
  let special := a.v.isNan || a.v.isInf || b.v.isNan || b.v.isInf
  if special then (match t with
    | .hh => addend scsat a b
    | _ => (.zero, Flags.none))
  else
    let pa := split32 a.code
    let pb := split32 b.code
    let part := fun (c : Nat) => (⟨bf16.decode c, 127, 0⟩ : Elem)
    match t with
    | .hh => addend scsat (part pa.1) (part pb.1)
    | .hl => addend scsat (part pa.2) (part pb.1)
    | .lh => addend scsat (part pa.1) (part pb.2)

/-- A list cut into pieces of `n`; `fuel` bounds the number of pieces. -/
def chunks {α : Type} (n : Nat) : Nat → List α → List (List α)
  | 0, _ => []
  | fuel + 1, l => if l.isEmpty then [] else l.take n :: chunks n fuel (l.drop n)

/-- The number of addends per step by operand format bytes (R75, Table 3.4). -/
def stepWidth (fa fb : Nat) : Nat :=
  if fa % 16 = 7 ∧ fb % 16 = 7 then 64
  else if max (elemBits fa) (elemBits fb) ≤ 8 then 32 else 16

/-- Whether two format bytes form an operand pair of R74. -/
def pairOk (fa fb : Nat) : Bool :=
  let fp := fun c => decide (c = 1 ∨ c = 2 ∨ c = 3 ∨ c = 4 ∨ c = 5 ∨ c = 6 ∨ c = 7)
  let a := fa % 16
  let b := fb % 16
  (fp a && fp b) || (decide (a = 8) && decide (b = 8)) || (decide (a = 0) && decide (b = 0))

/-- What a command latched of ARITH_MODE that its products use (R87, Table 3.8). -/
structure ArithMode where
  passes : Nat
  scsat : Bool
  stochastic : Bool
  deriving DecidableEq, Repr

/-- The low fields of the ARITH_MODE word (Table 3.8). -/
def ArithMode.ofWord (w : Nat) : ArithMode := ⟨bits w 1 0, bit w 2 = 1, bit w 3 = 1⟩

/-- One term's tree step of a step of products (R80, R81). -/
def termStep (scsat isFp32 : Bool) (t : Term) (l : List (Elem × Elem)) : Val × Flags :=
  if isFp32 then treeOf (l.map fun p => splitAddend scsat t p.1 p.2) else treeStep scsat l

/-- A step: each of its terms enters the accumulator in turn (R80). -/
def dotStep (scsat isFp32 : Bool) (ts : List Term) (l : List (Elem × Elem)) (acc : Val × Flags) : Val × Flags :=
  ts.foldl (fun a t =>
    let s := termStep scsat isFp32 t l
    let r := accStep a.1 s.1
    (r.1, (a.2.or s.2).or r.2)) acc

/-- dot() of R80 over the products of a reduction in logical order. -/
def dot (m : ArithMode) (fa fb : Nat) (l : List (Elem × Elem)) (acc0 : Val) : Val × Flags :=
  let isFp32 := decide (fa % 16 = 0)
  let ts := if isFp32 then passTerms m.passes else [Term.hh]
  (chunks (stepWidth fa fb) l.length l).foldl (fun a st => dotStep m.scsat isFp32 ts st a) (acc0, Flags.none)

/-- A reduction cut into K_PARTS contiguous parts, combined in increasing logical rank (R241). -/
def dotParts (m : ArithMode) (fa fb kparts : Nat) (l : List (Elem × Elem)) (acc0 : Val) : Val × Flags :=
  match chunks (max 1 (ceilDiv l.length kparts)) l.length l with
  | [] => (acc0, Flags.none)
  | p0 :: ps =>
    ps.foldl (fun a p =>
      let d := dot m fa fb p (.fin false 0)
      let r := accStep a.1 d.1
      (r.1, (a.2.or d.2).or r.2)) (dot m fa fb p0 acc0)

/-- convert() of R84 to a floating-point format byte, giving the element code. -/
def convertElem (f : Format) (r : Rounding) (x : Val) : Nat × Flags :=
  let c := convertVal f r x
  (f.encode c.1, c.2)

/-- The largest magnitude of a block (R86). -/
def blockMax (l : List Val) : Rat := l.foldl (fun a v => match v with
  | .fin _ m => if a < m then m else a
  | _ => a) 0

/-- The exponent of a block's shared scale before the lower clamp (R86). -/
def blockExp (f : Format) (l : List Val) : Int :=
  if blockMax l = 0 then -127 else flog2 (blockMax l) - f.emax

/-- A block-scaled output block (R86): its scale byte, its element codes and the flags it raises. -/
def convertBlock (f : Format) (l : List (Val × Rounding)) : Nat × List Nat × Flags :=
  let vs := l.map (·.1)
  if vs.any (fun v => v.isNan || v.isInf) then
    (255, vs.map fun _ => 0, if vs.any Val.isInf then Flags.onlyNV else Flags.none)
  else
    let x0 := blockExp f vs
    let x := max (-127) (min 127 x0)
    let conv := l.map fun p => match p.1 with
      | .fin s m => ((convertVal { f with hasInf := false } p.2 (.fin s (m * pow2 (-x)))).1, m)
      | v => (v, 0)
    let lost := decide (x0 < -127) && conv.any fun p => p.1.isZero && decide (p.2 ≠ 0)
    ((x + 127).toNat, conv.map fun p => f.encode p.1, if lost then Flags.onlyUF else Flags.none)

end Sys2Proof.Machine
end

