-- ==== Sys2Proof/Config.lean ====
section
/-! DEFINITION. What the spec leaves open: opaque constants with no value. A statement about the model holds
whatever they are. Each is named in the assumption log. -/

namespace Sys2Proof

/-- A free number: a value or a choice the spec does not state, fresh for each value of State.freeCtr. -/
opaque Config.freeNat : Nat → Nat

/-- The Falosteo minor version and patch level in service (02 Table 2.11: not fixed by the spec). -/
opaque Config.fwMinor : Nat
opaque Config.fwPatch : Nat

/-- The working space in core SRAM that the declared operations need per core, in bytes (09 R451: fixed by the
Imposer from the declared operations and their shapes alone, by a rule the spec does not give). -/
opaque Config.workSpace : List Nat → Nat

/-- Zstandard decoding as RFC 8878 has it, under the limits of 13_feeder.md R339: the content, or an error, true when a
limit is exceeded and false when a frame is malformed. The RFC stands outside the spec. -/
opaque Config.zstd : List (BitVec 8) → Except Bool (List (BitVec 8))

/-- One component of a JPEG frame after entropy decoding: its blocks of 64 dequantised coefficients, row after row, `u`
ascending before `v`, so many to a line, and its subsampling against the frame, 1 or 2 each way. -/
structure JpegPlane where
  stepX : Nat
  stepY : Nat
  blockCols : Nat
  blocks : List (List Int)

/-- JPEG decoding as ITU-T T.81 has it, up to the dequantised coefficients (13_feeder.md R340): height, width and one or
three components; or an error, true for an unsupported process and false for a malformed stream. The Recommendation stands
outside the spec. -/
opaque Config.jpeg : List (BitVec 8) → Except Bool (Nat × Nat × List JpegPlane)

/-- The class whose frames have the priority that IEEE 802.1Qbb flow control governs on an E100 port, when it is enabled
there (11_links.md Table 11.4: one priority per port, off by default; the spec says neither which, nor what enables it). -/
opaque Config.pfcClass : Nat → Option Nat

/-- The IEEE 802.1Q tag of an E100 port, when it has one (11_links.md Table 11.4: one per port or none; the spec does not
say where it is configured). -/
opaque Config.vlanTag : Nat → Option Nat

/-- DSCP, flow label and UDP source port of the RoCEv2 frames of a queue pair (11_links.md R305 gives the destination port
alone). -/
opaque Config.roceMarks : Nat → Nat × Nat × Nat

/-- DSCP, flow label, UDP source port and destination addresses of the PTP messages of a transport (11_links.md R309; they
are IEEE 1588's). -/
opaque Config.ptpMarks : Nat → Nat × Nat × Nat × List (BitVec 8)

/-- The node of the member with a rank on an axis, from this module's ranks (12_collectives.md R314: the spec gives no
relation of ranks and node numbers). -/
opaque Config.memberNode : List Nat → Nat → Nat → Nat

/-- The rank that a module sends a tensor to when its cut changes from one CUT byte to another, from the size of the torus
axis and its own rank (09_imposer.md R254, 12_collectives.md R321: computed by the Imposer, by a rule the spec does not
give). -/
opaque Config.reshardTo : Nat → Nat → Nat → Nat → Nat

/-- ADDR of the frames of a Collator chunk, by axis, COLL_SEQ and chunk (11_links.md Table 11.5 gives it for tensors), and
the payload of a CONTROL frame by what it says (Table 11.6 gives none). -/
opaque Config.schedAddr : Nat → Nat → Nat → Nat
opaque Config.controlBytes : List Nat → List (BitVec 8)

/-- The flash as it was manufactured, by offset (16_startup_security.md R383). -/
opaque Config.flashByte : Nat → BitVec 8

/-- SHA-384 (R386): 48 bytes. -/
opaque Config.sha384 : List (BitVec 8) → List (BitVec 8)

/-- Ed25519 under RFC 8032 and ML-DSA-65 under FIPS 204 (R386): verification of a signature over a message by a public
key, signing with a seed, and the public key of a seed. -/
opaque Config.edVerify : List (BitVec 8) → List (BitVec 8) → List (BitVec 8) → Bool
opaque Config.mldsaVerify : List (BitVec 8) → List (BitVec 8) → List (BitVec 8) → Bool
opaque Config.edSign : List (BitVec 8) → List (BitVec 8) → List (BitVec 8)
opaque Config.mldsaSign : List (BitVec 8) → List (BitVec 8) → List (BitVec 8)
opaque Config.edPublic : List (BitVec 8) → List (BitVec 8)
opaque Config.mldsaPublic : List (BitVec 8) → List (BitVec 8)

/-- The Colgegal root's two public keys, which the boot ROM holds (R387). -/
opaque Config.rootEd : List (BitVec 8)
opaque Config.rootMldsa : List (BitVec 8)

/-- The boot ROM (R397), and the module's device secret S (R392). -/
opaque Config.bootRom : List (BitVec 8)
opaque Config.deviceSecret : List (BitVec 8)

end Sys2Proof
end

