-- ==== Sys2Proof/Machine/Crc.lean ====
section
/-! DEFINITION. The two cyclic redundancy checks of the device: CRC-32 of IEEE 802.3 (05_vector_engine.md
R130) and CRC-64 of ECMA-182 (07_backward_and_schedule.md R200). -/

namespace Sys2Proof.Machine

/-- Eight bit steps of the reflected CRC-32. -/
def crc32Bits : Nat → Nat → Nat
  | 0, c => c
  | n + 1, c => crc32Bits n (if c % 2 = 1 then (c / 2) ^^^ 0xEDB88320 else c / 2)

/-- One byte into the CRC-32 register. -/
def crc32Byte (c : Nat) (b : Byte) : Nat := crc32Bits 8 (c ^^^ b.toNat)

/-- CRC-32 with the parameters of R130. -/
def crc32 (l : List Byte) : Nat := (l.foldl crc32Byte 0xFFFFFFFF) ^^^ 0xFFFFFFFF

/-- Eight bit steps of the CRC-64, most significant bit first. -/
def crc64Bits : Nat → Nat → Nat
  | 0, c => c
  | n + 1, c =>
    crc64Bits n (if bit c 63 = 1 then ((2 * c) % 2 ^ 64) ^^^ 0x42F0E1EBA9EA3693 else (2 * c) % 2 ^ 64)

/-- One byte into the CRC-64 register. -/
def crc64Byte (c : Nat) (b : Byte) : Nat := crc64Bits 8 (c ^^^ (b.toNat * 2 ^ 56))

/-- CRC-64 with the parameters of R200: not reflected, initial value 0, no final XOR. -/
def crc64 (l : List Byte) : Nat := l.foldl crc64Byte 0

end Sys2Proof.Machine
end

