-- ==== Sys2Proof/Machine/RegTable.lean ====
section
/-! DEFINITION. The register map: every register table of the spec (the tables named beside each family), its
offset in the register region (10_memory.md R280), its fields with their access types (00_scope.md Table 0.10)
and reset values. -/

namespace Sys2Proof.Machine

/-- Register access types (Table 0.10). -/
inductive Access where
  | ro
  | rw
  | wo
  | w1c
  | rc
  deriving DecidableEq, Repr

/-- One field of a register table; RESERVED fields are not listed (they read zero, R10). -/
structure RegField where
  hi : Nat
  lo : Nat
  acc : Access
  reset : Nat
  deriving DecidableEq, Repr

/-- One register table: a register, or a family of registers at `base + i × stride` (two strides where the
register is per core and per index). -/
structure RegFamily where
  name : String
  base : Nat
  strides : List (Nat × Nat)
  bytes : Nat
  fields : List RegField
  deriving DecidableEq, Repr

/-- Whether a register of the family starts at this offset. -/
def RegFamily.hit (f : RegFamily) (off : Nat) : Bool :=
  decide (f.base ≤ off) &&
  (match f.strides with
   | [] => decide (off = f.base)
   | [(a, n)] => decide ((off - f.base) % a = 0 ∧ (off - f.base) / a < n)
   | (a, n) :: (b, m) :: _ =>
     decide ((off - f.base) / a < n ∧ (off - f.base) % a % b = 0 ∧ (off - f.base) % a / b < m))

/-- The reset word of a register. -/
def RegFamily.resetWord (f : RegFamily) : Nat := f.fields.foldl (fun w x => w + x.reset * 2 ^ x.lo) 0

/-- Offset of ORG_SHAPE (01_organisation.md, Table 1.7). -/
def Reg.orgShape : Nat := 0x100

/-- Offset of COPSE_STATE_n (01_organisation.md, Table 1.8). -/
def Reg.copseState (i : Nat) : Nat := 0x1000 + 0x4 * i

/-- Offset of GROVE_STATUS_g (01_organisation.md, Table 1.9). -/
def Reg.groveStatus (i : Nat) : Nat := 0x200 + 0x40 * i

/-- Offset of RING_CFG_n (02_commands_and_tallies.md, Table 2.1). -/
def Reg.ringCfg (i : Nat) : Nat := 0x10000 + 0x40 * i

/-- Offset of REPLY_CFG_n (02_commands_and_tallies.md, Table 2.2). -/
def Reg.replyCfg (i : Nat) : Nat := 0x10008 + 0x40 * i

/-- Offset of RING_PTR_n (02_commands_and_tallies.md, Table 2.3). -/
def Reg.ringPtr (i : Nat) : Nat := 0x10010 + 0x40 * i

/-- Offset of REPLY_PTR_n (02_commands_and_tallies.md, Table 2.4). -/
def Reg.replyPtr (i : Nat) : Nat := 0x10014 + 0x40 * i

/-- Offset of RING_STATUS_n (02_commands_and_tallies.md, Table 2.5). -/
def Reg.ringStatus (i : Nat) : Nat := 0x10018 + 0x40 * i

/-- Offset of RING_TIMEOUT_n (02_commands_and_tallies.md, Table 2.12). -/
def Reg.ringTimeout (i : Nat) : Nat := 0x10020 + 0x40 * i

/-- Offset of CMD_STATUS (02_commands_and_tallies.md, Table 2.14). -/
def Reg.cmdStatus : Nat := 0x10400

/-- Offset of FUNC_STATE (02_commands_and_tallies.md, Table 2.15). -/
def Reg.funcState : Nat := 0x10408

/-- Offset of ARITH_FLAGS_SUMMARY (03_number_formats.md, Table 3.9). -/
def Reg.arithFlagsSummary : Nat := 0x30000

/-- Offset of MATRIX_CAPS (04_matrix_arrays.md, Table 4.14). -/
def Reg.matrixCaps : Nat := 0x40000

/-- Offset of ARITH_MODE_NOW (04_matrix_arrays.md, Table 4.15). -/
def Reg.arithModeNow : Nat := 0x40008

/-- Offset of ARRAY_FLAGS_s_a (04_matrix_arrays.md, Table 4.16). -/
def Reg.arrayFlags (i j : Nat) : Nat := 0x100000 + 0x100 * i + 0x20 * j

/-- Offset of ARRAY_STATE_s_a (04_matrix_arrays.md, Table 4.17). -/
def Reg.arrayState (i j : Nat) : Nat := 0x100004 + 0x100 * i + 0x20 * j

/-- Offset of ARRAY_COUNT_s_a (04_matrix_arrays.md, Table 4.18). -/
def Reg.arrayCount (i j : Nat) : Nat := 0x100008 + 0x100 * i + 0x20 * j

/-- Offset of ARRAY_STALLS_s_a (04_matrix_arrays.md, Table 4.19). -/
def Reg.arrayStalls (i j : Nat) : Nat := 0x100010 + 0x100 * i + 0x20 * j

/-- Offset of CORE_MEM_s (04_matrix_arrays.md, Table 4.20). -/
def Reg.coreMem (i : Nat) : Nat := 0x100080 + 0x100 * i

/-- Offset of VECTOR_CAPS (05_vector_engine.md, Table 5.13). -/
def Reg.vectorCaps : Nat := 0x50000

/-- Offset of SEED_BANK_STATE (05_vector_engine.md, Table 5.14). -/
def Reg.seedBankState : Nat := 0x50008

/-- Offset of SEED_CHECK_t (05_vector_engine.md, Table 5.15). -/
def Reg.seedCheck (i : Nat) : Nat := 0x50010 + 0x4 * i

/-- Offset of VECTOR_FLAGS_s (05_vector_engine.md, Table 5.16). -/
def Reg.vectorFlags (i : Nat) : Nat := 0x100088 + 0x100 * i

/-- Offset of GEN_STATE_s (05_vector_engine.md, Table 5.17). -/
def Reg.genState (i : Nat) : Nat := 0x100090 + 0x100 * i

/-- Offset of GEN_DRAWS_s (05_vector_engine.md, R147). -/
def Reg.genDraws (i : Nat) : Nat := 0x100098 + 0x100 * i

/-- Offset of ATTN_CAPS (06_attention_galleys.md, Table 6.13). -/
def Reg.attnCaps : Nat := 0x60000

/-- Offset of GALLEY_STORE (06_attention_galleys.md, Table 6.14). -/
def Reg.galleyStore : Nat := 0x60008

/-- Offset of GALLEY_FREE (06_attention_galleys.md, Table 6.15). -/
def Reg.galleyFree : Nat := 0x6000C

/-- Offset of GALLEY_EVENTS (06_attention_galleys.md, Table 6.16). -/
def Reg.galleyEvents : Nat := 0x60010

/-- Offset of ATTN_EMPTY_ROWS (06_attention_galleys.md, Table 6.17). -/
def Reg.attnEmptyRows : Nat := 0x60018

/-- Offset of TABLE_PROBE_SEL (06_attention_galleys.md, Table 6.18). -/
def Reg.tableProbeSel : Nat := 0x60020

/-- Offset of TABLE_PROBE (06_attention_galleys.md, Table 6.19). -/
def Reg.tableProbe : Nat := 0x60028

/-- Offset of TABLE_PROBE_LEN (06_attention_galleys.md, R184). -/
def Reg.tableProbeLen : Nat := 0x60030

/-- Offset of GALLEY_WAITERS (06_attention_galleys.md, R184). -/
def Reg.galleyWaiters : Nat := 0x60038

/-- Offset of SCHED_CFG (07_backward_and_schedule.md, Table 7.10). -/
def Reg.schedCfg : Nat := 0x70000

/-- Offset of WGRAD_STATE (07_backward_and_schedule.md, Table 7.11). -/
def Reg.wgradState : Nat := 0x70008

/-- Offset of DEFER_STATE (07_backward_and_schedule.md, Table 7.12). -/
def Reg.deferState : Nat := 0x70010

/-- Offset of DEFER_FILLED (07_backward_and_schedule.md, Table 7.13). -/
def Reg.deferFilled : Nat := 0x70018

/-- Offset of RESIDENCY_TRAFFIC (07_backward_and_schedule.md, Table 7.14). -/
def Reg.residencyTraffic : Nat := 0x70020

/-- Offset of OFFLOAD_EVENTS (07_backward_and_schedule.md, Table 7.15). -/
def Reg.offloadEvents : Nat := 0x70028

/-- Offset of SAVE_RECORDS (07_backward_and_schedule.md, Table 7.16). -/
def Reg.saveRecords : Nat := 0x70030

/-- Offset of STALE_CONTRIB (07_backward_and_schedule.md, Table 7.17). -/
def Reg.staleContrib : Nat := 0x70038

/-- Offset of STEP_LR_n (08_parameter_update.md, Table 8.8). -/
def Reg.stepLr (i : Nat) : Nat := 0x71000 + 0x20 * i

/-- Offset of STEP_BC_n (08_parameter_update.md, Table 8.9). -/
def Reg.stepBc (i : Nat) : Nat := 0x71008 + 0x20 * i

/-- Offset of STEP_STAMP_n (08_parameter_update.md, Table 8.10). -/
def Reg.stepStamp (i : Nat) : Nat := 0x71010 + 0x20 * i

/-- Offset of UPDATE_EVENTS (08_parameter_update.md, Table 8.11). -/
def Reg.updateEvents : Nat := 0x71200

/-- Offset of EDITIONS_RETIRED (08_parameter_update.md, Table 8.12). -/
def Reg.editionsRetired : Nat := 0x71208

/-- Offset of EDITION_PROBE_SEL (08_parameter_update.md, Table 8.13). -/
def Reg.editionProbeSel : Nat := 0x71210

/-- Offset of EDITION_PROBE (08_parameter_update.md, Table 8.14). -/
def Reg.editionProbe : Nat := 0x71218

/-- Offset of IMPOSER_STATE (09_imposer.md, Table 9.10). -/
def Reg.imposerState : Nat := 0x90000

/-- Offset of IMPOSER_CAPACITY (09_imposer.md, Table 9.11). -/
def Reg.imposerCapacity : Nat := 0x90008

/-- Offset of FORWARD_STATE (09_imposer.md, Table 9.12). -/
def Reg.forwardState : Nat := 0x90010

/-- Offset of SWEEP_STATE (09_imposer.md, Table 9.13). -/
def Reg.sweepState : Nat := 0x90018

/-- Offset of TEST_PENDING (09_imposer.md, Table 9.14). -/
def Reg.testPending : Nat := 0x90020

/-- Offset of IDLE_SUM_c (09_imposer.md, Table 9.15). -/
def Reg.idleSum (i : Nat) : Nat := 0x90100 + 0x8 * i

/-- Offset of BUSY_SUM (09_imposer.md, Table 9.15). -/
def Reg.busySum : Nat := 0x90140

/-- Offset of IDLE_s_c (09_imposer.md, Table 9.16). -/
def Reg.idle (i j : Nat) : Nat := 0x1000A0 + 0x100 * i + 0x8 * j

/-- Offset of BUSY_s (09_imposer.md, Table 9.16). -/
def Reg.busy (i : Nat) : Nat := 0x1000E0 + 0x100 * i

/-- Offset of HBM_CAPS (10_memory.md, Table 10.9). -/
def Reg.hbmCaps : Nat := 0xA0000

/-- Offset of HBM_CALENDAR (10_memory.md, Table 10.10). -/
def Reg.hbmCalendar : Nat := 0xA0008

/-- Offset of HBM_THERMAL (10_memory.md, Table 10.12). -/
def Reg.hbmThermal : Nat := 0xA0200

/-- Offset of HBM_ERR_ADDR (10_memory.md, Table 10.13). -/
def Reg.hbmErrAddr : Nat := 0xA0208

/-- Offset of HBM_STATUS (10_memory.md, Table 10.14). -/
def Reg.hbmStatus : Nat := 0xA0210

/-- Offset of STACK_TEMP_k (10_memory.md, Table 10.11). -/
def Reg.stackTemp (i : Nat) : Nat := 0xA0100 + 0x8 * i

/-- Offset of HBM_CE_LIMIT (10_memory.md, Table 10.15). -/
def Reg.hbmCeLimit : Nat := 0xA0218

/-- Offset of HBM_MAP_OUT (10_memory.md, Table 10.15). -/
def Reg.hbmMapOut : Nat := 0xA0220

/-- Offset of CHANNEL_STATE_n (10_memory.md, Table 10.16). -/
def Reg.channelState (i : Nat) : Nat := 0xA1000 + 0x8 * i

/-- Offset of LINK_CAPS (11_links.md, Table 11.12). -/
def Reg.linkCaps : Nat := 0xB0000

/-- Offset of IFP_CFG (11_links.md, Table 11.13). -/
def Reg.ifpCfg : Nat := 0xB0010

/-- Offset of NODE_MAP_BASE (11_links.md, Table 11.14). -/
def Reg.nodeMapBase : Nat := 0xB0018

/-- Offset of ROUTE_k (11_links.md, Table 11.15). -/
def Reg.route (i : Nat) : Nat := 0x240000 + 0x8 * i

/-- Offset of FABRIC_ERR (11_links.md, Table 11.16). -/
def Reg.fabricErr : Nat := 0xB0020

/-- Offset of FABRIC_ERR_ADDR (11_links.md, Table 11.16). -/
def Reg.fabricErrAddr : Nat := 0xB0028

/-- Offset of IFP_COUNTERS (11_links.md, Table 11.17). -/
def Reg.ifpCounters : Nat := 0xB0030

/-- Offset of IFP_LOST_NODE (11_links.md, Table 11.18). -/
def Reg.ifpLostNode : Nat := 0xB0038

/-- Offset of LINK_EVENT_CFG (11_links.md, Table 11.19). -/
def Reg.linkEventCfg : Nat := 0xB0040

/-- Offset of ROCE_CFG (11_links.md, Table 11.19). -/
def Reg.roceCfg : Nat := 0xB0050

/-- Offset of ROCE_WIN (11_links.md, Table 11.19). -/
def Reg.roceWin : Nat := 0xB0058

/-- Offset of PTP_CFG (11_links.md, Table 11.20). -/
def Reg.ptpCfg : Nat := 0xB0060

/-- Offset of PTP_NOW (11_links.md, Table 11.20). -/
def Reg.ptpNow : Nat := 0xB0068

/-- Offset of PTP_STATUS (11_links.md, Table 11.20). -/
def Reg.ptpStatus : Nat := 0xB0070

/-- Offset of LINK_GROUP_g (11_links.md, Table 11.21). -/
def Reg.linkGroup (i : Nat) : Nat := 0xB0100 + 0x8 * i

/-- Offset of LINK_CFG_n (11_links.md, Table 11.22). -/
def Reg.linkCfg (i : Nat) : Nat := 0xB1000 + 0x40 * i

/-- Offset of LINK_STATE_n (11_links.md, Table 11.22). -/
def Reg.linkState (i : Nat) : Nat := 0xB1008 + 0x40 * i

/-- Offset of LINK_LAT_n (11_links.md, Table 11.22). -/
def Reg.linkLat (i : Nat) : Nat := 0xB1010 + 0x40 * i

/-- Offset of LINK_ERR_n (11_links.md, Table 11.22). -/
def Reg.linkErr (i : Nat) : Nat := 0xB1018 + 0x40 * i

/-- Offset of LINK_TRAFFIC_n (11_links.md, Table 11.22). -/
def Reg.linkTraffic (i : Nat) : Nat := 0xB1020 + 0x40 * i

/-- Offset of ETH_MAC_n (11_links.md, Table 11.22). -/
def Reg.ethMac (i : Nat) : Nat := 0xB1028 + 0x40 * i

/-- Offset of ETH_NEXTHOP_n (11_links.md, Table 11.22). -/
def Reg.ethNexthop (i : Nat) : Nat := 0xB1030 + 0x40 * i

/-- Offset of ETH_DROPS_n (11_links.md, Table 11.22). -/
def Reg.ethDrops (i : Nat) : Nat := 0xB1038 + 0x40 * i

/-- Offset of COLL_CAPS (12_collectives.md, Table 12.8). -/
def Reg.collCaps : Nat := 0xC0000

/-- Offset of COLL_STATE (12_collectives.md, Table 12.9). -/
def Reg.collState : Nat := 0xC0008

/-- Offset of COLL_TIMEOUT (12_collectives.md, Table 12.10). -/
def Reg.collTimeout : Nat := 0xC0010

/-- Offset of COLL_ABORT (12_collectives.md, Table 12.11). -/
def Reg.collAbort : Nat := 0xC0018

/-- Offset of COLL_ABORTED_STEP (12_collectives.md, Table 12.12). -/
def Reg.collAbortedStep : Nat := 0xC0020

/-- Offset of COLL_EVENTS (12_collectives.md, Table 12.13). -/
def Reg.collEvents : Nat := 0xC0028

/-- Offset of COLL_COMMITS (12_collectives.md, Table 12.14). -/
def Reg.collCommits : Nat := 0xC0030

/-- Offset of COLL_LAST_FLAGS (12_collectives.md, Table 12.14). -/
def Reg.collLastFlags : Nat := 0xC0038

/-- Offset of COLL_SEQ_a (12_collectives.md, Table 12.15). -/
def Reg.collSeq (i : Nat) : Nat := 0xC0108 + 0x8 * i

/-- Offset of COLL_SLOT_i (12_collectives.md, Table 12.16). -/
def Reg.collSlot (i : Nat) : Nat := 0xC0200 + 0x8 * i

/-- Offset of FEED_CAPS (13_feeder.md, Table 13.11). -/
def Reg.feedCaps : Nat := 0xD0000

/-- Offset of FEED_DEADLINE (13_feeder.md, Table 13.12). -/
def Reg.feedDeadline : Nat := 0xD0010

/-- Offset of FEED_WORKERS_g (13_feeder.md, Table 13.13). -/
def Reg.feedWorkers (i : Nat) : Nat := 0xD0020 + 0x8 * i

/-- Offset of FEED_FAULTS_g (13_feeder.md, Table 13.13). -/
def Reg.feedFaults (i : Nat) : Nat := 0xD0040 + 0x8 * i

/-- Offset of FEED_EVENTS (13_feeder.md, Table 13.14). -/
def Reg.feedEvents : Nat := 0xD0060

/-- Offset of FEED_STREAM_s (13_feeder.md, Table 13.15). -/
def Reg.feedStream (i : Nat) : Nat := 0xD0100 + 0x40 * i

/-- Offset of FEED_EPOCH_s (13_feeder.md, Table 13.15). -/
def Reg.feedEpoch (i : Nat) : Nat := 0xD0108 + 0x40 * i

/-- Offset of FEED_ENTRIES_s (13_feeder.md, Table 13.15). -/
def Reg.feedEntries (i : Nat) : Nat := 0xD0110 + 0x40 * i

/-- Offset of FEED_SKIPS_s (13_feeder.md, Table 13.15). -/
def Reg.feedSkips (i : Nat) : Nat := 0xD0118 + 0x40 * i

/-- Offset of FEED_CACHE_s (13_feeder.md, Table 13.15). -/
def Reg.feedCache (i : Nat) : Nat := 0xD0120 + 0x40 * i

/-- Offset of CONV_CAPS (14_convolution.md, Table 14.7). -/
def Reg.convCaps : Nat := 0xE0000

/-- Offset of MARGIN_STATE (14_convolution.md, Table 14.8). -/
def Reg.marginState : Nat := 0xE0008

/-- Offset of MARGIN_COUNT (14_convolution.md, Table 14.9). -/
def Reg.marginCount : Nat := 0xE0010

/-- Offset of GCL_CAPS (15_host_link.md, Table 15.9). -/
def Reg.gclCaps : Nat := 0xF0000

/-- Offset of GCL_STATE (15_host_link.md, Table 15.10). -/
def Reg.gclState : Nat := 0xF0008

/-- Offset of GCL_ERR (15_host_link.md, Table 15.11). -/
def Reg.gclErr : Nat := 0xF0010

/-- Offset of GCL_COH_BASE (15_host_link.md, Table 15.12). -/
def Reg.gclCohBase : Nat := 0xF0018

/-- Offset of GCL_COH_SIZE (15_host_link.md, Table 15.12). -/
def Reg.gclCohSize : Nat := 0xF0020

/-- Offset of GCL_IRQ_ADDR_v (15_host_link.md, Table 15.13). -/
def Reg.gclIrqAddr (i : Nat) : Nat := 0xF0100 + 0x10 * i

/-- Offset of GCL_IRQ_DATA_v (15_host_link.md, Table 15.13). -/
def Reg.gclIrqData (i : Nat) : Nat := 0xF0108 + 0x10 * i

/-- Offset of GCL_IRQ_ACK (15_host_link.md, Table 15.14). -/
def Reg.gclIrqAck : Nat := 0xF0030

/-- Offset of BOOT_STATUS (16_startup_security.md, Table 16.9). -/
def Reg.bootStatus : Nat := 0x80000

/-- Offset of SEC_STATE (16_startup_security.md, Table 16.10). -/
def Reg.secState : Nat := 0x80010

/-- Offset of SEC_FLOORS (16_startup_security.md, Table 16.11). -/
def Reg.secFloors : Nat := 0x80018

/-- Offset of DEVICE_ID (16_startup_security.md, Table 16.12). -/
def Reg.deviceId : Nat := 0x80020

/-- Offset of OWNER_ID (16_startup_security.md, Table 16.12). -/
def Reg.ownerId : Nat := 0x80028

/-- Offset of UNLOCK_NONCE (16_startup_security.md, Table 16.12). -/
def Reg.unlockNonce : Nat := 0x80030

/-- Offset of BOOT_TIME_k (16_startup_security.md, R401). -/
def Reg.bootTime (i : Nat) : Nat := 0x80044 + 0x4 * i

/-- Offset of CLK_STATE (17_clocks_power_reset.md, Table 17.11). -/
def Reg.clkState : Nat := 0x200000

/-- Offset of ACLK_CAP (17_clocks_power_reset.md, Table 17.12). -/
def Reg.aclkCap : Nat := 0x200008

/-- Offset of POWER_LIMIT (17_clocks_power_reset.md, Table 17.13). -/
def Reg.powerLimit : Nat := 0x200010

/-- Offset of GATE_CFG (17_clocks_power_reset.md, Table 17.14). -/
def Reg.gateCfg : Nat := 0x200018

/-- Offset of GATE_STATE (17_clocks_power_reset.md, Table 17.15). -/
def Reg.gateState : Nat := 0x200020

/-- Offset of CDC_RSTMODE (17_clocks_power_reset.md, Table 17.16). -/
def Reg.cdcRstmode : Nat := 0x200030

/-- Offset of RESET_CAUSE (17_clocks_power_reset.md, Table 17.17). -/
def Reg.resetCause : Nat := 0x200038

/-- Offset of RESET_CTRL (17_clocks_power_reset.md, Table 17.18). -/
def Reg.resetCtrl : Nat := 0x200040

/-- Offset of WATCHDOG (17_clocks_power_reset.md, Table 17.18). -/
def Reg.watchdog : Nat := 0x200048

/-- Offset of JUNCTION_g (17_clocks_power_reset.md, Table 17.19). -/
def Reg.junction (i : Nat) : Nat := 0x200100 + 0x8 * i

/-- Offset of PROOF_CFG (18_observability.md, Table 18.8). -/
def Reg.proofCfg : Nat := 0x210000

/-- Offset of PROOF_STATE (18_observability.md, Table 18.9). -/
def Reg.proofState : Nat := 0x210008

/-- Offset of PROOF_STAMP_TIME (18_observability.md, Table 18.10). -/
def Reg.proofStampTime : Nat := 0x210010

/-- Offset of PROOF_STAMP_PTP (18_observability.md, Table 18.10). -/
def Reg.proofStampPtp : Nat := 0x210018

/-- Offset of PROOF_STAMP_CAL (18_observability.md, Table 18.10). -/
def Reg.proofStampCal : Nat := 0x210020

/-- Offset of TEST_RESULT_k (18_observability.md, Table 18.11). -/
def Reg.testResult (i : Nat) : Nat := 0x210100 + 0x8 * i

/-- Offset of ALARM_STATE (18_observability.md, Table 18.11). -/
def Reg.alarmState : Nat := 0x210200

/-- Offset of SLOT_TEST_p (18_observability.md, Table 18.12). -/
def Reg.slotTest (i : Nat) : Nat := 0x220000 + 0x8 * i

/-- Offset of MODULE_INPUT (19_module.md, Table 19.12). -/
def Reg.moduleInput : Nat := 0x230000

/-- Offset of COLD_PLATE (19_module.md, Table 19.13). -/
def Reg.coldPlate : Nat := 0x230008

/-- Offset of MODULE_STRAPS (19_module.md, Table 19.14). -/
def Reg.moduleStraps : Nat := 0x230010

/-- Register tables 0 to 14, in the order of the spec. -/
def regFamilies0 : List RegFamily :=
  [
   ⟨"ORG_SHAPE", 0x100, [], 4, [⟨31, 28, .ro, 0x4⟩, ⟨27, 20, .ro, 0x40⟩, ⟨19, 15, .ro, 0x11⟩, ⟨14, 10, .ro, 0x10⟩, ⟨9, 6, .ro, 0x8⟩, ⟨5, 2, .ro, 0x8⟩]⟩,
   ⟨"COPSE_STATE_n", 0x1000, [(0x4, 256)], 4, [⟨31, 28, .ro, 0x0⟩, ⟨21, 17, .ro, 0x1F⟩, ⟨16, 0, .ro, 0x1FFFF⟩]⟩,
   ⟨"GROVE_STATUS_g", 0x200, [(0x40, 4)], 4, [⟨31, 16, .rc, 0x0⟩, ⟨1, 1, .ro, 0x0⟩, ⟨0, 0, .w1c, 0x0⟩]⟩,
   ⟨"RING_CFG_n", 0x10000, [(0x40, 16)], 8, [⟨63, 12, .rw, 0x0⟩, ⟨7, 4, .rw, 0x0⟩, ⟨0, 0, .rw, 0x0⟩]⟩,
   ⟨"REPLY_CFG_n", 0x10008, [(0x40, 16)], 8, [⟨63, 12, .rw, 0x0⟩, ⟨7, 4, .rw, 0x0⟩]⟩,
   ⟨"RING_PTR_n", 0x10010, [(0x40, 16)], 4, [⟨31, 16, .ro, 0x0⟩, ⟨15, 0, .rw, 0x0⟩]⟩,
   ⟨"REPLY_PTR_n", 0x10014, [(0x40, 16)], 4, [⟨31, 16, .ro, 0x0⟩, ⟨15, 0, .rw, 0x0⟩]⟩,
   ⟨"RING_STATUS_n", 0x10018, [(0x40, 16)], 4, [⟨28, 16, .ro, 0x0⟩, ⟨4, 4, .w1c, 0x0⟩, ⟨3, 3, .ro, 0x0⟩, ⟨2, 2, .w1c, 0x0⟩, ⟨1, 1, .w1c, 0x0⟩, ⟨0, 0, .ro, 0x0⟩]⟩,
   ⟨"RING_TIMEOUT_n", 0x10020, [(0x40, 16)], 4, [⟨31, 0, .rw, 0x0⟩]⟩,
   ⟨"CMD_STATUS", 0x10400, [], 4, [⟨31, 31, .w1c, 0x0⟩, ⟨30, 30, .ro, 0x0⟩, ⟨12, 0, .ro, 0x0⟩]⟩,
   ⟨"FUNC_STATE", 0x10408, [], 4, [⟨25, 16, .ro, 0x0⟩, ⟨9, 0, .ro, 0x0⟩]⟩,
   ⟨"ARITH_FLAGS_SUMMARY", 0x30000, [], 4, [⟨3, 3, .w1c, 0x0⟩, ⟨2, 2, .w1c, 0x0⟩, ⟨1, 1, .w1c, 0x0⟩, ⟨0, 0, .w1c, 0x0⟩]⟩,
   ⟨"MATRIX_CAPS", 0x40000, [], 4, [⟨31, 24, .ro, 0x4⟩, ⟨23, 16, .ro, 0x20⟩, ⟨15, 8, .ro, 0x20⟩, ⟨7, 0, .ro, 0x26⟩]⟩,
   ⟨"ARITH_MODE_NOW", 0x40008, [], 4, [⟨31, 0, .ro, 0x1⟩]⟩,
   ⟨"ARRAY_FLAGS_s_a", 0x100000, [(0x100, 4096), (0x20, 4)], 4, [⟨3, 3, .w1c, 0x0⟩, ⟨2, 2, .w1c, 0x0⟩, ⟨1, 1, .w1c, 0x0⟩, ⟨0, 0, .w1c, 0x0⟩]⟩]

/-- Register tables 15 to 29, in the order of the spec. -/
def regFamilies1 : List RegFamily :=
  [
   ⟨"ARRAY_STATE_s_a", 0x100004, [(0x100, 4096), (0x20, 4)], 4, [⟨31, 31, .ro, 0x0⟩, ⟨30, 30, .ro, 0x0⟩, ⟨29, 29, .ro, 0x0⟩, ⟨28, 28, .ro, 0x0⟩, ⟨27, 27, .ro, 0x0⟩, ⟨11, 0, .ro, 0x0⟩]⟩,
   ⟨"ARRAY_COUNT_s_a", 0x100008, [(0x100, 4096), (0x20, 4)], 8, [⟨63, 32, .ro, 0x0⟩, ⟨31, 0, .ro, 0x0⟩]⟩,
   ⟨"ARRAY_STALLS_s_a", 0x100010, [(0x100, 4096), (0x20, 4)], 8, [⟨63, 32, .rc, 0x0⟩, ⟨31, 0, .rc, 0x0⟩]⟩,
   ⟨"CORE_MEM_s", 0x100080, [(0x100, 4096)], 4, [⟨31, 16, .rc, 0x0⟩, ⟨15, 8, .rc, 0x0⟩, ⟨1, 1, .w1c, 0x0⟩, ⟨0, 0, .w1c, 0x0⟩]⟩,
   ⟨"VECTOR_CAPS", 0x50000, [], 4, [⟨31, 24, .ro, 0x40⟩, ⟨23, 16, .ro, 0x20⟩, ⟨15, 8, .ro, 0xE⟩, ⟨7, 4, .ro, 0xA⟩]⟩,
   ⟨"SEED_BANK_STATE", 0x50008, [], 4, [⟨31, 31, .ro, 0x0⟩, ⟨30, 30, .ro, 0x0⟩, ⟨25, 16, .ro, 0x0⟩, ⟨12, 0, .ro, 0x0⟩]⟩,
   ⟨"SEED_CHECK_t", 0x50010, [(0x4, 10)], 4, [⟨31, 0, .ro, 0x0⟩]⟩,
   ⟨"VECTOR_FLAGS_s", 0x100088, [(0x100, 4096)], 4, [⟨2, 2, .w1c, 0x0⟩, ⟨1, 1, .w1c, 0x0⟩, ⟨0, 0, .w1c, 0x0⟩]⟩,
   ⟨"GEN_STATE_s", 0x100090, [(0x100, 4096)], 8, [⟨63, 18, .ro, 0x0⟩, ⟨0, 0, .ro, 0x0⟩]⟩,
   ⟨"GEN_DRAWS_s", 0x100098, [(0x100, 4096)], 8, [⟨63, 0, .ro, 0x0⟩]⟩,
   ⟨"ATTN_CAPS", 0x60000, [], 4, [⟨31, 24, .ro, 0x40⟩, ⟨23, 16, .ro, 0x80⟩, ⟨15, 8, .ro, 0x10⟩, ⟨4, 0, .ro, 0x1F⟩]⟩,
   ⟨"GALLEY_STORE", 0x60008, [], 4, [⟨31, 29, .ro, 0x0⟩, ⟨23, 0, .ro, 0x0⟩]⟩,
   ⟨"GALLEY_FREE", 0x6000C, [], 4, [⟨23, 0, .ro, 0x0⟩]⟩,
   ⟨"GALLEY_EVENTS", 0x60010, [], 8, [⟨63, 32, .rc, 0x0⟩, ⟨31, 0, .rc, 0x0⟩]⟩,
   ⟨"ATTN_EMPTY_ROWS", 0x60018, [], 8, [⟨63, 0, .rc, 0x0⟩]⟩]

/-- Register tables 30 to 44, in the order of the spec. -/
def regFamilies2 : List RegFamily :=
  [
   ⟨"TABLE_PROBE_SEL", 0x60020, [], 4, [⟨15, 0, .rw, 0x0⟩]⟩,
   ⟨"TABLE_PROBE", 0x60028, [], 8, [⟨63, 32, .ro, 0x0⟩, ⟨31, 30, .ro, 0x0⟩, ⟨29, 29, .ro, 0x0⟩, ⟨28, 28, .ro, 0x0⟩, ⟨27, 14, .ro, 0x0⟩, ⟨13, 0, .ro, 0x0⟩]⟩,
   ⟨"TABLE_PROBE_LEN", 0x60030, [], 8, [⟨63, 32, .ro, 0x0⟩, ⟨31, 0, .ro, 0x0⟩]⟩,
   ⟨"GALLEY_WAITERS", 0x60038, [], 4, [⟨12, 0, .ro, 0x0⟩]⟩,
   ⟨"SCHED_CFG", 0x70000, [], 4, [⟨23, 8, .rw, 0x80⟩, ⟨7, 0, .rw, 0x0⟩]⟩,
   ⟨"WGRAD_STATE", 0x70008, [], 8, [⟨49, 32, .ro, 0x0⟩, ⟨31, 16, .ro, 0x0⟩, ⟨15, 0, .ro, 0x0⟩]⟩,
   ⟨"DEFER_STATE", 0x70010, [], 4, [⟨24, 16, .ro, 0x0⟩, ⟨7, 0, .rc, 0x0⟩]⟩,
   ⟨"DEFER_FILLED", 0x70018, [], 8, [⟨63, 0, .rc, 0x0⟩]⟩,
   ⟨"RESIDENCY_TRAFFIC", 0x70020, [], 8, [⟨63, 32, .rc, 0x0⟩, ⟨31, 0, .rc, 0x0⟩]⟩,
   ⟨"OFFLOAD_EVENTS", 0x70028, [], 4, [⟨31, 16, .rc, 0x0⟩, ⟨15, 0, .rc, 0x0⟩]⟩,
   ⟨"SAVE_RECORDS", 0x70030, [], 4, [⟨16, 0, .ro, 0x0⟩]⟩,
   ⟨"STALE_CONTRIB", 0x70038, [], 4, [⟨31, 0, .rc, 0x0⟩]⟩,
   ⟨"STEP_LR_n", 0x71000, [(0x20, 16)], 8, [⟨63, 32, .ro, 0x0⟩, ⟨31, 0, .ro, 0x0⟩]⟩,
   ⟨"STEP_BC_n", 0x71008, [(0x20, 16)], 8, [⟨63, 32, .ro, 0x0⟩, ⟨31, 0, .ro, 0x0⟩]⟩,
   ⟨"STEP_STAMP_n", 0x71010, [(0x20, 16)], 4, [⟨31, 0, .ro, 0x0⟩]⟩]

/-- Register tables 45 to 59, in the order of the spec. -/
def regFamilies3 : List RegFamily :=
  [
   ⟨"UPDATE_EVENTS", 0x71200, [], 8, [⟨63, 48, .rc, 0x0⟩, ⟨47, 32, .rc, 0x0⟩, ⟨31, 16, .rc, 0x0⟩, ⟨15, 0, .rc, 0x0⟩]⟩,
   ⟨"EDITIONS_RETIRED", 0x71208, [], 4, [⟨31, 0, .rc, 0x0⟩]⟩,
   ⟨"EDITION_PROBE_SEL", 0x71210, [], 4, [⟨31, 0, .rw, 0x0⟩]⟩,
   ⟨"EDITION_PROBE", 0x71218, [], 8, [⟨63, 32, .ro, 0x0⟩, ⟨31, 30, .ro, 0x0⟩, ⟨29, 28, .ro, 0x0⟩, ⟨27, 27, .ro, 0x0⟩, ⟨26, 26, .ro, 0x0⟩, ⟨15, 0, .ro, 0x0⟩]⟩,
   ⟨"IMPOSER_STATE", 0x90000, [], 8, [⟨63, 32, .ro, 0x0⟩, ⟨31, 31, .ro, 0x0⟩, ⟨30, 30, .ro, 0x0⟩, ⟨29, 29, .ro, 0x0⟩, ⟨12, 0, .ro, 0x0⟩]⟩,
   ⟨"IMPOSER_CAPACITY", 0x90008, [], 8, [⟨63, 48, .ro, 0x0⟩, ⟨47, 32, .ro, 0x0⟩, ⟨31, 16, .ro, 0x1000⟩, ⟨15, 0, .ro, 0x100⟩]⟩,
   ⟨"FORWARD_STATE", 0x90010, [], 8, [⟨63, 32, .rc, 0x0⟩, ⟨12, 0, .ro, 0x0⟩]⟩,
   ⟨"SWEEP_STATE", 0x90018, [], 8, [⟨63, 32, .rc, 0x0⟩, ⟨31, 31, .ro, 0x0⟩, ⟨30, 26, .ro, 0x0⟩, ⟨23, 16, .rc, 0x0⟩, ⟨15, 0, .ro, 0x0⟩]⟩,
   ⟨"TEST_PENDING", 0x90020, [], 4, [⟨2, 2, .ro, 0x0⟩, ⟨1, 1, .ro, 0x0⟩, ⟨0, 0, .ro, 0x0⟩]⟩,
   ⟨"IDLE_SUM_c", 0x90100, [(0x8, 8)], 8, [⟨63, 0, .ro, 0x0⟩]⟩,
   ⟨"BUSY_SUM", 0x90140, [], 8, [⟨63, 0, .ro, 0x0⟩]⟩,
   ⟨"IDLE_s_c", 0x1000A0, [(0x100, 4096), (0x8, 8)], 8, [⟨63, 0, .ro, 0x0⟩]⟩,
   ⟨"BUSY_s", 0x1000E0, [(0x100, 4096)], 8, [⟨63, 0, .ro, 0x0⟩]⟩,
   ⟨"HBM_CAPS", 0xA0000, [], 4, [⟨31, 24, .ro, 0x10⟩, ⟨23, 12, .ro, 0x100⟩, ⟨11, 4, .ro, 0x60⟩]⟩,
   ⟨"HBM_CALENDAR", 0xA0008, [], 8, [⟨63, 32, .ro, 0x0⟩, ⟨31, 30, .ro, 0x0⟩, ⟨26, 16, .ro, 0x540⟩, ⟨15, 10, .ro, 0x2A⟩]⟩]

/-- Register tables 60 to 74, in the order of the spec. -/
def regFamilies4 : List RegFamily :=
  [
   ⟨"HBM_THERMAL", 0xA0200, [], 4, [⟨31, 16, .ro, 0x0⟩, ⟨15, 0, .ro, 0x0⟩]⟩,
   ⟨"HBM_ERR_ADDR", 0xA0208, [], 8, [⟨47, 0, .ro, 0x0⟩]⟩,
   ⟨"HBM_STATUS", 0xA0210, [], 4, [⟨31, 16, .rc, 0x0⟩, ⟨1, 1, .w1c, 0x0⟩, ⟨0, 0, .w1c, 0x0⟩]⟩,
   ⟨"STACK_TEMP_k", 0xA0100, [(0x8, 16)], 4, [⟨31, 31, .ro, 0x0⟩, ⟨30, 28, .ro, 0x0⟩, ⟨23, 16, .rc, 0x0⟩, ⟨7, 0, .ro, 0x0⟩]⟩,
   ⟨"HBM_CE_LIMIT", 0xA0218, [], 4, [⟨31, 0, .rw, 0x400⟩]⟩,
   ⟨"HBM_MAP_OUT", 0xA0220, [], 4, [⟨31, 31, .wo, 0x0⟩, ⟨7, 0, .wo, 0x0⟩]⟩,
   ⟨"CHANNEL_STATE_n", 0xA1000, [(0x8, 256)], 8, [⟨63, 62, .ro, 0x0⟩, ⟨61, 59, .ro, 0x0⟩, ⟨47, 32, .rc, 0x0⟩, ⟨31, 0, .ro, 0x0⟩]⟩,
   ⟨"LINK_CAPS", 0xB0000, [], 4, [⟨31, 24, .ro, 0x40⟩, ⟨23, 20, .ro, 0x4⟩, ⟨19, 16, .ro, 0x7⟩]⟩,
   ⟨"IFP_CFG", 0xB0010, [], 8, [⟨63, 48, .rw, 0x1A2F⟩, ⟨47, 42, .rw, 0x22⟩, ⟨41, 36, .rw, 0x30⟩, ⟨35, 30, .rw, 0x1A⟩, ⟨23, 16, .rw, 0x8⟩, ⟨15, 0, .rw, 0x14⟩]⟩,
   ⟨"NODE_MAP_BASE", 0xB0018, [], 8, [⟨63, 12, .rw, 0x0⟩, ⟨0, 0, .rw, 0x0⟩]⟩,
   ⟨"ROUTE_k", 0x240000, [(0x8, 8192)], 8, [⟨63, 60, .rw, 0xF⟩, ⟨55, 52, .rw, 0xF⟩, ⟨47, 44, .rw, 0xF⟩, ⟨39, 36, .rw, 0xF⟩, ⟨31, 28, .rw, 0xF⟩, ⟨23, 20, .rw, 0xF⟩, ⟨15, 12, .rw, 0xF⟩, ⟨7, 4, .rw, 0xF⟩, ⟨59, 56, .rw, 0xF⟩, ⟨51, 48, .rw, 0xF⟩, ⟨43, 40, .rw, 0xF⟩, ⟨35, 32, .rw, 0xF⟩, ⟨27, 24, .rw, 0xF⟩, ⟨19, 16, .rw, 0xF⟩, ⟨11, 8, .rw, 0xF⟩, ⟨3, 0, .rw, 0xF⟩]⟩,
   ⟨"FABRIC_ERR", 0xB0020, [], 4, [⟨31, 24, .ro, 0x0⟩, ⟨23, 8, .ro, 0x0⟩, ⟨0, 0, .w1c, 0x0⟩]⟩,
   ⟨"FABRIC_ERR_ADDR", 0xB0028, [], 8, [⟨47, 0, .ro, 0x0⟩]⟩,
   ⟨"IFP_COUNTERS", 0xB0030, [], 8, [⟨63, 32, .rc, 0x0⟩, ⟨31, 16, .rc, 0x0⟩, ⟨15, 0, .rc, 0x0⟩]⟩,
   ⟨"IFP_LOST_NODE", 0xB0038, [], 4, [⟨31, 16, .rc, 0x0⟩, ⟨15, 0, .ro, 0x0⟩]⟩]

/-- Register tables 75 to 89, in the order of the spec. -/
def regFamilies5 : List RegFamily :=
  [
   ⟨"LINK_EVENT_CFG", 0xB0040, [], 4, [⟨31, 31, .rw, 0x0⟩, ⟨15, 0, .rw, 0x0⟩]⟩,
   ⟨"ROCE_CFG", 0xB0050, [], 8, [⟨63, 12, .rw, 0x0⟩, ⟨8, 0, .rw, 0x0⟩]⟩,
   ⟨"ROCE_WIN", 0xB0058, [], 8, [⟨63, 12, .rw, 0x0⟩, ⟨8, 0, .rw, 0x0⟩]⟩,
   ⟨"PTP_CFG", 0xB0060, [], 4, [⟨31, 31, .rw, 0x0⟩, ⟨30, 29, .rw, 0x0⟩, ⟨13, 8, .rw, 0x0⟩, ⟨7, 0, .rw, 0x0⟩]⟩,
   ⟨"PTP_NOW", 0xB0068, [], 8, [⟨63, 30, .ro, 0x0⟩, ⟨29, 0, .ro, 0x0⟩]⟩,
   ⟨"PTP_STATUS", 0xB0070, [], 4, [⟨31, 31, .ro, 0x0⟩, ⟨30, 30, .w1c, 0x0⟩, ⟨29, 0, .ro, 0x0⟩]⟩,
   ⟨"LINK_GROUP_g", 0xB0100, [(0x8, 9)], 4, [⟨31, 24, .ro, 0x0⟩, ⟨23, 16, .ro, 0x0⟩]⟩,
   ⟨"LINK_CFG_n", 0xB1000, [(0x40, 64)], 4, [⟨31, 30, .ro, 0x0⟩, ⟨27, 24, .ro, 0x0⟩, ⟨23, 23, .rw, 0x0⟩]⟩,
   ⟨"LINK_STATE_n", 0xB1008, [(0x40, 64)], 4, [⟨31, 29, .ro, 0x0⟩, ⟨28, 24, .ro, 0x0⟩, ⟨23, 20, .ro, 0x0⟩, ⟨19, 19, .ro, 0x0⟩]⟩,
   ⟨"LINK_LAT_n", 0xB1010, [(0x40, 64)], 4, [⟨31, 16, .ro, 0x0⟩, ⟨15, 0, .ro, 0x0⟩]⟩,
   ⟨"LINK_ERR_n", 0xB1018, [(0x40, 64)], 8, [⟨63, 32, .rc, 0x0⟩, ⟨31, 16, .rc, 0x0⟩, ⟨15, 0, .rc, 0x0⟩]⟩,
   ⟨"LINK_TRAFFIC_n", 0xB1020, [(0x40, 64)], 8, [⟨63, 32, .rc, 0x0⟩, ⟨31, 0, .rc, 0x0⟩]⟩,
   ⟨"ETH_MAC_n", 0xB1028, [(0x40, 64)], 8, [⟨47, 0, .rw, 0x0⟩]⟩,
   ⟨"ETH_NEXTHOP_n", 0xB1030, [(0x40, 64)], 8, [⟨47, 0, .rw, 0x0⟩]⟩,
   ⟨"ETH_DROPS_n", 0xB1038, [(0x40, 64)], 4, [⟨31, 16, .rc, 0x0⟩, ⟨15, 0, .rc, 0x0⟩]⟩]

/-- Register tables 90 to 104, in the order of the spec. -/
def regFamilies6 : List RegFamily :=
  [
   ⟨"COLL_CAPS", 0xC0000, [], 4, [⟨31, 24, .ro, 0x10⟩, ⟨23, 16, .ro, 0x40⟩, ⟨15, 10, .ro, 0x10⟩, ⟨9, 5, .ro, 0x14⟩, ⟨4, 0, .ro, 0xC⟩]⟩,
   ⟨"COLL_STATE", 0xC0008, [], 8, [⟨47, 32, .ro, 0x4000⟩, ⟨20, 16, .ro, 0x0⟩, ⟨4, 0, .ro, 0x0⟩]⟩,
   ⟨"COLL_TIMEOUT", 0xC0010, [], 4, [⟨31, 0, .rw, 0x186A0⟩]⟩,
   ⟨"COLL_ABORT", 0xC0018, [], 4, [⟨31, 0, .wo, 0x0⟩]⟩,
   ⟨"COLL_ABORTED_STEP", 0xC0020, [], 8, [⟨63, 32, .rc, 0x0⟩, ⟨31, 0, .ro, 0x0⟩]⟩,
   ⟨"COLL_EVENTS", 0xC0028, [], 8, [⟨63, 48, .rc, 0x0⟩, ⟨47, 32, .rc, 0x0⟩, ⟨31, 16, .rc, 0x0⟩, ⟨15, 0, .rc, 0x0⟩]⟩,
   ⟨"COLL_COMMITS", 0xC0030, [], 8, [⟨63, 0, .rc, 0x0⟩]⟩,
   ⟨"COLL_LAST_FLAGS", 0xC0038, [], 4, [⟨2, 0, .ro, 0x0⟩]⟩,
   ⟨"COLL_SEQ_a", 0xC0108, [(0x8, 4)], 4, [⟨31, 0, .ro, 0x0⟩]⟩,
   ⟨"COLL_SLOT_i", 0xC0200, [(0x8, 16)], 8, [⟨63, 32, .ro, 0x0⟩, ⟨31, 29, .ro, 0x0⟩, ⟨28, 26, .ro, 0x0⟩, ⟨11, 0, .ro, 0x0⟩]⟩,
   ⟨"FEED_CAPS", 0xD0000, [], 4, [⟨31, 24, .ro, 0x4⟩, ⟨23, 16, .ro, 0x40⟩, ⟨15, 8, .ro, 0x4⟩, ⟨7, 0, .ro, 0x40⟩]⟩,
   ⟨"FEED_DEADLINE", 0xD0010, [], 4, [⟨31, 0, .rw, 0x3E8⟩]⟩,
   ⟨"FEED_WORKERS_g", 0xD0020, [(0x8, 4)], 8, [⟨63, 0, .rw, 0x0⟩]⟩,
   ⟨"FEED_FAULTS_g", 0xD0040, [(0x8, 4)], 8, [⟨63, 0, .ro, 0x0⟩]⟩,
   ⟨"FEED_EVENTS", 0xD0060, [], 8, [⟨63, 32, .rc, 0x0⟩, ⟨31, 16, .rc, 0x0⟩, ⟨15, 0, .rc, 0x0⟩]⟩]

/-- Register tables 105 to 119, in the order of the spec. -/
def regFamilies7 : List RegFamily :=
  [
   ⟨"FEED_STREAM_s", 0xD0100, [(0x40, 4)], 8, [⟨63, 32, .ro, 0x0⟩, ⟨31, 30, .ro, 0x0⟩, ⟨29, 29, .ro, 0x0⟩, ⟨28, 28, .ro, 0x0⟩, ⟨23, 0, .ro, 0x0⟩]⟩,
   ⟨"FEED_EPOCH_s", 0xD0108, [(0x40, 4)], 4, [⟨31, 0, .ro, 0x0⟩]⟩,
   ⟨"FEED_ENTRIES_s", 0xD0110, [(0x40, 4)], 4, [⟨31, 0, .rw, 0x0⟩]⟩,
   ⟨"FEED_SKIPS_s", 0xD0118, [(0x40, 4)], 8, [⟨63, 32, .rc, 0x0⟩, ⟨31, 16, .rc, 0x0⟩, ⟨12, 0, .ro, 0x0⟩]⟩,
   ⟨"FEED_CACHE_s", 0xD0120, [(0x40, 4)], 8, [⟨63, 32, .ro, 0x0⟩, ⟨31, 0, .ro, 0x0⟩]⟩,
   ⟨"CONV_CAPS", 0xE0000, [], 4, [⟨31, 28, .ro, 0x7⟩, ⟨27, 24, .ro, 0x7⟩, ⟨23, 20, .ro, 0x4⟩, ⟨19, 16, .ro, 0x8⟩, ⟨15, 8, .ro, 0x10⟩, ⟨7, 0, .ro, 0x40⟩]⟩,
   ⟨"MARGIN_STATE", 0xE0008, [], 4, [⟨11, 8, .ro, 0x0⟩, ⟨7, 4, .ro, 0x0⟩, ⟨3, 0, .rw, 0x0⟩]⟩,
   ⟨"MARGIN_COUNT", 0xE0010, [], 8, [⟨63, 32, .rc, 0x0⟩, ⟨31, 0, .rc, 0x0⟩]⟩,
   ⟨"GCL_CAPS", 0xF0000, [], 4, [⟨31, 24, .ro, 0x10⟩, ⟨23, 16, .ro, 0x11⟩, ⟨15, 8, .ro, 0x40⟩]⟩,
   ⟨"GCL_STATE", 0xF0008, [], 4, [⟨31, 29, .ro, 0x0⟩, ⟨28, 27, .ro, 0x0⟩, ⟨26, 26, .ro, 0x0⟩, ⟨25, 10, .ro, 0x0⟩, ⟨9, 0, .ro, 0x0⟩]⟩,
   ⟨"GCL_ERR", 0xF0010, [], 8, [⟨63, 32, .rc, 0x0⟩, ⟨31, 16, .rc, 0x0⟩, ⟨15, 8, .ro, 0x0⟩, ⟨3, 3, .w1c, 0x0⟩, ⟨2, 2, .w1c, 0x0⟩, ⟨1, 1, .w1c, 0x0⟩, ⟨0, 0, .w1c, 0x0⟩]⟩,
   ⟨"GCL_COH_BASE", 0xF0018, [], 8, [⟨47, 26, .rw, 0x0⟩]⟩,
   ⟨"GCL_COH_SIZE", 0xF0020, [], 4, [⟨6, 0, .rw, 0x0⟩]⟩,
   ⟨"GCL_IRQ_ADDR_v", 0xF0100, [(0x10, 17)], 8, [⟨63, 2, .rw, 0x0⟩, ⟨0, 0, .rw, 0x0⟩]⟩,
   ⟨"GCL_IRQ_DATA_v", 0xF0108, [(0x10, 17)], 4, [⟨31, 0, .rw, 0x0⟩]⟩]

/-- Register tables 120 to 134, in the order of the spec. -/
def regFamilies8 : List RegFamily :=
  [
   ⟨"GCL_IRQ_ACK", 0xF0030, [], 4, [⟨16, 0, .w1c, 0x0⟩]⟩,
   ⟨"BOOT_STATUS", 0x80000, [], 4, [⟨31, 28, .ro, 0x0⟩, ⟨27, 24, .ro, 0x0⟩, ⟨23, 16, .ro, 0x0⟩, ⟨7, 7, .ro, 0x0⟩, ⟨6, 6, .ro, 0x0⟩, ⟨5, 5, .ro, 0x0⟩, ⟨4, 4, .ro, 0x0⟩, ⟨3, 3, .ro, 0x0⟩]⟩,
   ⟨"SEC_STATE", 0x80010, [], 4, [⟨1, 1, .ro, 0x0⟩, ⟨0, 0, .ro, 0x0⟩]⟩,
   ⟨"SEC_FLOORS", 0x80018, [], 8, [⟨63, 48, .ro, 0x0⟩, ⟨47, 32, .ro, 0x0⟩, ⟨31, 16, .ro, 0x0⟩, ⟨15, 0, .ro, 0x0⟩]⟩,
   ⟨"DEVICE_ID", 0x80020, [], 8, [⟨63, 0, .ro, 0x0⟩]⟩,
   ⟨"OWNER_ID", 0x80028, [], 8, [⟨63, 0, .ro, 0x0⟩]⟩,
   ⟨"UNLOCK_NONCE", 0x80030, [], 8, [⟨63, 0, .ro, 0x0⟩]⟩,
   ⟨"BOOT_TIME_k", 0x80044, [(0x4, 9)], 4, [⟨31, 0, .ro, 0x0⟩]⟩,
   ⟨"CLK_STATE", 0x200000, [], 8, [⟨63, 32, .rc, 0x0⟩, ⟨31, 30, .ro, 0x0⟩, ⟨29, 28, .ro, 0x0⟩, ⟨27, 27, .ro, 0x0⟩, ⟨26, 26, .ro, 0x0⟩, ⟨25, 25, .ro, 0x0⟩, ⟨24, 24, .ro, 0x0⟩]⟩,
   ⟨"ACLK_CAP", 0x200008, [], 4, [⟨1, 0, .rw, 0x0⟩]⟩,
   ⟨"POWER_LIMIT", 0x200010, [], 4, [⟨31, 16, .ro, 0x0⟩, ⟨15, 0, .rw, 0xC80⟩]⟩,
   ⟨"GATE_CFG", 0x200018, [], 4, [⟨31, 31, .rw, 0x1⟩, ⟨27, 16, .rw, 0x64⟩, ⟨15, 0, .rw, 0x10⟩]⟩,
   ⟨"GATE_STATE", 0x200020, [], 8, [⟨40, 32, .ro, 0x0⟩, ⟨24, 16, .ro, 0x0⟩, ⟨8, 0, .ro, 0x100⟩]⟩,
   ⟨"CDC_RSTMODE", 0x200030, [], 4, [⟨3, 3, .rw, 0x1⟩, ⟨2, 2, .rw, 0x1⟩, ⟨1, 1, .rw, 0x0⟩, ⟨0, 0, .rw, 0x0⟩]⟩,
   ⟨"RESET_CAUSE", 0x200038, [], 8, [⟨63, 32, .ro, 0x0⟩, ⟨31, 28, .ro, 0x1⟩, ⟨8, 1, .ro, 0x1⟩]⟩]

/-- Register tables 135 to 148, in the order of the spec. -/
def regFamilies9 : List RegFamily :=
  [
   ⟨"RESET_CTRL", 0x200040, [], 4, [⟨31, 16, .wo, 0x0⟩]⟩,
   ⟨"WATCHDOG", 0x200048, [], 4, [⟨31, 31, .rw, 0x1⟩, ⟨15, 0, .rw, 0x3E8⟩]⟩,
   ⟨"JUNCTION_g", 0x200100, [(0x8, 4)], 4, [⟨31, 31, .ro, 0x0⟩, ⟨30, 29, .ro, 0x0⟩, ⟨23, 16, .rc, 0x0⟩, ⟨7, 0, .ro, 0x0⟩]⟩,
   ⟨"PROOF_CFG", 0x210000, [], 4, [⟨31, 31, .rw, 0x0⟩, ⟨30, 30, .rw, 0x0⟩, ⟨3, 0, .rw, 0x0⟩]⟩,
   ⟨"PROOF_STATE", 0x210008, [], 8, [⟨63, 32, .ro, 0x0⟩, ⟨31, 31, .w1c, 0x0⟩, ⟨30, 30, .ro, 0x0⟩, ⟨23, 16, .rc, 0x0⟩, ⟨4, 0, .ro, 0x0⟩]⟩,
   ⟨"PROOF_STAMP_TIME", 0x210010, [], 8, [⟨63, 0, .ro, 0x0⟩]⟩,
   ⟨"PROOF_STAMP_PTP", 0x210018, [], 8, [⟨63, 0, .ro, 0x0⟩]⟩,
   ⟨"PROOF_STAMP_CAL", 0x210020, [], 8, [⟨63, 32, .ro, 0x0⟩, ⟨31, 0, .ro, 0x0⟩]⟩,
   ⟨"TEST_RESULT_k", 0x210100, [(0x8, 3)], 8, [⟨63, 48, .ro, 0x0⟩, ⟨47, 32, .ro, 0x0⟩, ⟨31, 0, .ro, 0x0⟩]⟩,
   ⟨"ALARM_STATE", 0x210200, [], 4, [⟨31, 31, .ro, 0x0⟩, ⟨30, 30, .ro, 0x0⟩, ⟨5, 5, .ro, 0x0⟩, ⟨4, 4, .ro, 0x0⟩, ⟨3, 3, .ro, 0x0⟩, ⟨2, 2, .ro, 0x0⟩, ⟨1, 1, .ro, 0x0⟩, ⟨0, 0, .ro, 0x0⟩]⟩,
   ⟨"SLOT_TEST_p", 0x220000, [(0x8, 4352)], 8, [⟨63, 32, .ro, 0x0⟩, ⟨31, 16, .ro, 0x0⟩, ⟨9, 8, .ro, 0x0⟩, ⟨0, 0, .ro, 0x0⟩]⟩,
   ⟨"MODULE_INPUT", 0x230000, [], 8, [⟨63, 48, .ro, 0x0⟩, ⟨47, 32, .ro, 0x0⟩, ⟨31, 16, .rc, 0x0⟩, ⟨0, 0, .ro, 0x0⟩]⟩,
   ⟨"COLD_PLATE", 0x230008, [], 4, [⟨31, 31, .ro, 0x0⟩, ⟨23, 16, .ro, 0x0⟩, ⟨7, 0, .ro, 0x0⟩]⟩,
   ⟨"MODULE_STRAPS", 0x230010, [], 4, [⟨7, 0, .ro, 0x5F⟩]⟩]

/-- Every register table of the spec. -/
def regFamilies : List RegFamily :=
  regFamilies0 ++ regFamilies1 ++ regFamilies2 ++ regFamilies3 ++ regFamilies4 ++ regFamilies5 ++ regFamilies6 ++ regFamilies7 ++ regFamilies8 ++ regFamilies9

/-- The table of the register that starts at an offset of the register region. -/
def regFamily (off : Nat) : Option RegFamily := regFamilies.find? fun f => f.hit off

/-- The reset word of the register at an offset (0 where no register starts). -/
def regReset (off : Nat) : Nat :=
  match regFamily off with
  | some f => f.resetWord
  | none => 0

end Sys2Proof.Machine
end

