-- ==== Sys2Proof/Machine/Rs.lean ====
section
/-! DEFINITION. Reed–Solomon codes over GF(2^8) with field polynomial 0x11D and generator roots α^0 to
α^(r − 1): the granule code (10_memory.md R274), the D128 block code RS(136, 130) (11_links.md R290) and the
GCL flit code RS(128, 124) (15_host_link.md R367). A word is the list of its symbols, the data first. -/

namespace Sys2Proof.Machine

/-- Multiplication by α in GF(2^8). -/
def gfDouble (a : Nat) : Nat := if a < 128 then 2 * a else (2 * a % 256) ^^^ 0x1D

/-- Multiplication in GF(2^8), bit by bit of the second factor. -/
def gfMulBits : Nat → Nat → Nat → Nat
  | 0, _, _ => 0
  | n + 1, a, b => (if b % 2 = 1 then a else 0) ^^^ gfMulBits n (gfDouble a) (b / 2)

/-- Multiplication in GF(2^8). -/
def gfMul (a b : Nat) : Nat := gfMulBits 8 a b

/-- A power in GF(2^8). -/
def gfPow (a : Nat) : Nat → Nat
  | 0 => 1
  | n + 1 => gfMul a (gfPow a n)

/-- The inverse of a non-zero element, a^254. -/
def gfInv (a : Nat) : Nat :=
  let a2 := gfMul a a
  let a4 := gfMul a2 a2
  let a8 := gfMul a4 a4
  let a16 := gfMul a8 a8
  let a32 := gfMul a16 a16
  let a64 := gfMul a32 a32
  gfMul (gfMul (gfMul a64 a64) (gfMul a64 a32)) (gfMul (gfMul a16 a8) (gfMul a4 a2))

/-- The coefficients of the generator, highest first: the product of (x − α^i) for i below `r`. -/
def rsGenerator (r : Nat) : List Nat :=
  (List.range r).foldl (fun g i =>
    List.zipWith (fun a b => a ^^^ b) (g ++ [0]) (0 :: g.map (gfMul (gfPow 2 i)))) [1]

/-- The `r` check symbols of a word of data symbols: the remainder of its polynomial times x^r by the generator. -/
def rsParity (r : Nat) (d : List Nat) : List Nat :=
  let g := (rsGenerator r).tail
  d.foldl (fun rem c =>
    let f := c ^^^ rem.headD 0
    List.zipWith (fun a b => a ^^^ gfMul f b) (rem.tail ++ [0]) g) (List.replicate r 0)

/-- The value of a word, as a polynomial with its first symbol highest, at a point. -/
def gfEval (x : Nat) (w : List Nat) : Nat := w.foldl (fun s c => gfMul s x ^^^ c) 0

/-- The `r` syndromes of a word. -/
def syndromes (r : Nat) (w : List Nat) : List Nat := (List.range r).map fun i => gfEval (gfPow 2 i) w

/-- One row reduced by a pivot row at column `j`. -/
def gfElim (j : Nat) (p row : List Nat) : List Nat :=
  let f := gfMul (row.getD j 0) (gfInv (p.getD j 0))
  List.zipWith (fun a b => a ^^^ gfMul f b) row p

/-- Gauss–Jordan elimination of an augmented matrix, column by column from `j`; none when it is singular. -/
def gfSolve : Nat → Nat → List (List Nat) → List (List Nat) → Option (List (List Nat))
  | 0, _, done, _ => some done
  | n + 1, j, done, rows =>
    match rows.find? fun r => r.getD j 0 ≠ 0 with
    | none => none
    | some p =>
      let rest := rows.erase p
      gfSolve n (j + 1) (done.map (gfElim j p) ++ [p]) (rest.map (gfElim j p))

/-- The solution of an `n` by `n` system given as augmented rows. -/
def gfLinear (n : Nat) (rows : List (List Nat)) : Option (List Nat) :=
  (gfSolve n 0 [] rows).map fun done =>
    (List.range n).map fun i =>
      let r := done.getD i []
      gfMul (r.getD n 0) (gfInv (r.getD i 0))

/-- The error positions and values for exactly `v` errors, from the syndromes of a word of length `n`. -/
def rsErrors (n v : Nat) (syn : List Nat) : Option (List (Nat × Nat)) :=
  let rows := (List.range v).map fun i =>
    (List.range v).map (fun j => syn.getD (i + j) 0) ++ [syn.getD (i + v) 0]
  match gfLinear v rows with
  | none => none
  | some c =>
    -- c holds the locator coefficients, highest degree first: Λ(x) = 1 + c_(v-1) x + … + c_0 x^v
    let root := fun k =>
      let xi := gfInv (gfPow 2 k)
      (List.range v).foldl (fun s j => s ^^^ gfMul (c.getD j 0) (gfPow xi (v - j))) 1 = 0
    let pos := (List.range n).filter fun k => root k
    if pos.length ≠ v then none
    else
      let eqs := (List.range v).map fun i => pos.map (fun k => gfPow (gfPow 2 k) i) ++ [syn.getD i 0]
      (gfLinear v eqs).map fun vals => pos.zip vals

/-- A word with errors added at powers `k` (the last symbol is power 0). -/
def rsPatch (w : List Nat) (es : List (Nat × Nat)) : List Nat :=
  es.foldl (fun w e => w.set (w.length - 1 - e.1) (w.getD (w.length - 1 - e.1) 0 ^^^ e.2)) w

/-- The decoder: the corrected word and the number of symbols corrected, at most `t`; none when the word is
uncorrectable. Fewer errors are tried first. -/
def rsTry (r : Nat) (w : List Nat) (syn : List Nat) : List Nat → Option (List Nat × Nat)
  | [] => none
  | v :: vs =>
    match rsErrors w.length v syn with
    | some es =>
      let w' := rsPatch w es
      if (syndromes r w').all (· = 0) then some (w', v) else rsTry r w syn vs
    | none => rsTry r w syn vs

/-- Decode a word of a code with `r` parity symbols that corrects up to `t` symbols. -/
def rsDecode (r t : Nat) (w : List Nat) : Option (List Nat × Nat) :=
  let syn := syndromes r w
  if syn.all (· = 0) then some (w, 0) else rsTry r w syn ((List.range t).map (· + 1))

end Sys2Proof.Machine
end

