-- ==== Sys2Proof/Machine/Sparse.lean ====
section
/-! DEFINITION. Sparse maps in one canonical form: keys strictly rising, and no entry equal to what an
unlisted key reads as. Memory, tallies, register contents and tensor contents are held so, so that equal
contents are equal data. `d k` is what key `k` reads as when it is not listed. -/

namespace Sys2Proof.Machine

/-- What key `k` reads as. -/
def Sparse.get {α : Type} (d : Nat → α) : List (Nat × α) → Nat → α
  | [], k => d k
  | (j, v) :: l, k => if j = k then v else Sparse.get d l k

/-- The list without key `k`. -/
def Sparse.drop {α : Type} (k : Nat) : List (Nat × α) → List (Nat × α)
  | [] => []
  | (j, v) :: l => if j = k then l else (j, v) :: Sparse.drop k l

/-- The list with key `k` at `v`, in its place. -/
def Sparse.put {α : Type} (k : Nat) (v : α) : List (Nat × α) → List (Nat × α)
  | [] => [(k, v)]
  | (j, u) :: l =>
    if k < j then (k, v) :: (j, u) :: l
    else if k = j then (k, v) :: l
    else (j, u) :: Sparse.put k v l

/-- The map with key `k` reading as `v`: an entry equal to the default is removed. -/
def Sparse.set {α : Type} [DecidableEq α] (d : Nat → α) (l : List (Nat × α)) (k : Nat) (v : α) :
    List (Nat × α) :=
  if v = d k then Sparse.drop k l else Sparse.put k v l

/-- Consecutive keys from `k` set to the values of a list. -/
def Sparse.setMany {α : Type} [DecidableEq α] (d : Nat → α) : List (Nat × α) → Nat → List α → List (Nat × α)
  | l, _, [] => l
  | l, k, v :: vs => Sparse.setMany d (Sparse.set d l k v) (k + 1) vs

/-- What `n` consecutive keys from `k` read as. -/
def Sparse.getMany {α : Type} (d : Nat → α) (l : List (Nat × α)) (k : Nat) : Nat → List α
  | 0 => []
  | n + 1 => Sparse.get d l k :: Sparse.getMany d l (k + 1) n

/-- The canonical form. -/
def Sparse.wf {α : Type} [DecidableEq α] (d : Nat → α) (l : List (Nat × α)) : Bool :=
  decide (l.Pairwise fun a b => a.1 < b.1) && l.all fun e => decide (e.2 ≠ d e.1)

end Sys2Proof.Machine
end

