-- ==== Sys2Proof/Machine/State.lean ====
section
/-! DEFINITION. The state of the device: every register, buffer, table and engine state the spec gives it, as
plain data. Register contents are held by offset (the views of registers that report other state are computed
where they are read, Machine/Views.lean). -/

namespace Sys2Proof.Machine

/-- Why a run stops with a fault. No command of this device stops the machine (its errors are status codes,
error registers and reset causes, which are state); the constructor is for the interface and no meaning raises
it. Safe: a run that stops proves nothing. -/
inductive Fault where
  | stopped
  deriving DecidableEq, Repr

/-- Why a command has no meaning. `notModelled` is raised by an arm of exec that has no meaning yet, and by
nothing else. Safe: a run that stops proves nothing. -/
inductive Refusal where
  | notModelled (mnemonic : String)
  deriving DecidableEq, Repr

/-! ### Commands, rings and tallies (02_commands_and_tallies.md) -/

/-- Where a command stands between its validation and the freeing of its tag (R40, R51, R55). -/
inductive Phase where
  /-- validated; not yet at the head of its ring's dispatch -/
  | validated
  /-- at the head: its waits are attached (R51) -/
  | attached
  /-- the master holds notice of its last wait -/
  | eligible
  /-- dispatched to its function, its work not begun -/
  | dispatched
  /-- its work has begun and waits for an event of its chapter -/
  | waiting
  /-- its effects are made; its completion report is on its way -/
  | done
  /-- its completion is applied; its reply waits for a free entry or for the reply before it (R35) -/
  | held
  /-- bytes 31:8 of its reply are being written (R377) -/
  | replyFirst
  /-- bytes 7:0 of its reply are being written (R377) -/
  | replyLast
  deriving DecidableEq, Repr

/-- What a command latches in the ACLK of its dispatch: ARITH_MODE (R87), the seed bank (R131), the imposition
in force (R248), the editions of the weights it names (R213), and what else its chapter says it latches. -/
structure Latch where
  mode : Nat
  seedBank : Nat
  imposition : Nat
  editions : List (Nat × Nat)
  extra : List Nat
  deriving DecidableEq, Repr

/-- One command in flight (R40). -/
structure Cmd where
  /-- its number in order of validation; the operand of the rows that act on it -/
  id : Nat
  ring : Nat
  pkt : List (BitVec 8)
  /-- whether it holds its tag: false for a command rejected under R39 -/
  tagHeld : Bool
  phase : Phase
  /-- header waits met at their homes (0 first, 1 second; R46, R52) -/
  met : List Nat
  /-- header waits whose notice the master holds (R51) -/
  noticed : List Nat
  /-- when it became eligible, was dispatched or was held, in the order of the device's own events -/
  stamp : Nat
  latch : Latch
  status : Nat
  detail : Nat
  /-- RESULT, reply bytes 31:16 -/
  result : Nat
  /-- TIME, bytes 47:0 of the device time counter at completion (R41) -/
  time : Nat
  /-- progress of its work while it waits: numbers whose meaning its opcode gives -/
  aux : List Nat
  /-- bytes gathered while it waits -/
  buf : List (BitVec 8)
  deriving DecidableEq, Repr

/-- The machinery of one ring beside its registers (R29 to R35, R42). -/
structure RingSt where
  /-- the next slot for which a fetch is to be issued -/
  fetchPtr : Nat
  /-- slots fetched and not yet validated -/
  slots : List (Nat × List (BitVec 8))
  /-- the reply phase bit, R42 -/
  replyPhase : Bool
  /-- fetching stopped as if ENABLE were cleared (R379) -/
  stopped : Bool
  deriving DecidableEq, Repr

/-- Rings and commands. -/
structure CmdSt where
  rings : List RingSt
  cmds : List Cmd
  nextId : Nat
  /-- the device's own event order: which command became eligible, was dispatched or was held first -/
  tick : Nat
  /-- the ring last served by the fetch (R32) and the ring whose command was last dispatched (R51) -/
  lastServed : Nat
  lastDispatch : Nat
  /-- FULL_RESET (R416): 0 none, 1 dispatched (fetching stops), 2 its reply is written -/
  resetPhase : Nat
  deriving DecidableEq, Repr

/-- Who waits on a tally (R46): header wait `i` of a command, a TALLY_WAIT command, or a watch lodged by another
node under its own number (R50, R66). -/
inductive WaitOwner where
  | header (cmd i : Nat)
  | command (cmd : Nat)
  | watch (node num : Nat)
  deriving DecidableEq, Repr

/-- A wait attached to a tally at its home (R46). -/
structure Waiter where
  tally : Nat
  isEq : Bool
  value : Nat
  owner : WaitOwner
  deriving DecidableEq, Repr

/-- The tallies (R45) and the waits attached to them, in order of attachment. -/
structure TallySt where
  values : List (Nat × BitVec 64)
  waiters : List Waiter
  deriving DecidableEq, Repr

/-! ### The GCL (15_host_link.md) -/

/-- A message the device sends over the GCL (Table 15.5). -/
inductive GclMsg where
  | rdNc (tag addr size : Nat)
  | wrNc (tag addr : Nat) (data : List (BitVec 8))
  | wrPosted (addr : Nat) (data : List (BitVec 8))
  | snpInv (tag addr : Nat)
  | snpShare (tag addr : Nat)
  | cmp (tag : Nat)
  | cmpData (tag code addr : Nat) (data : List (BitVec 8))
  | err (tag code : Nat)
  deriving DecidableEq, Repr

/-- What a non-posted request of the device is for: the fetch of a slot of a ring, or a half of the reply of a
command (R376, R377). -/
inductive GclPurpose where
  | fetch (ring slot : Nat)
  | reply (cmd : Nat) (last : Bool)
  /-- the snoop of a window line (R374) -/
  | snoop (line : Nat)
  deriving DecidableEq, Repr

/-- An access to this node's memory that waits: for a snoop of a window line (R374), or for memory that admits no access
(10 R273, R283). -/
inductive LineWork where
  /-- a load or a store that arrived over the fabric -/
  | load (node cls num addr size : Nat)
  | store (node cls num addr : Nat) (data : List (BitVec 8))
  /-- RD_NC of the companion -/
  | read (tag addr size : Nat)
  /-- WR_NC of the companion, with its tag, or WR_POSTED -/
  | write (tag : Option Nat) (addr : Nat) (data : List (BitVec 8))
  /-- RD_SHARED or RD_OWN of the companion -/
  | request (own : Bool) (tag addr : Nat)
  /-- a frame of a connection behind an access that waits (11 R297) -/
  | frame (f : IfpFrame)
  /-- a command that reads or writes the line -/
  | command (cmd : Nat)
  deriving DecidableEq, Repr

/-- A window line with a snoop pending, and what waits for it in order of arrival (R374, R375). -/
structure Snoop where
  line : Nat
  inval : Bool
  work : List LineWork
  deriving DecidableEq, Repr

/-- Directory states (R374). -/
inductive DirState where
  | inv
  | shared
  | excl
  deriving DecidableEq, Repr

/-- The GCL: sequence numbers, replay buffer, credits, requests in flight, directory and snoops. -/
structure GclSt where
  /-- messages sent, oldest first (the record of what the companion saw) -/
  out : List GclMsg
  /-- messages that wait for credits or for the link -/
  queued : List GclMsg
  /-- credits held per class of Table 15.3, in slots -/
  credits : List Nat
  seqTx : Nat
  seqRx : Nat
  /-- flits sent and not acknowledged, by SEQ, oldest first (R369) -/
  unacked : List (Nat × GclMsg)
  /-- the flits sent, 256 bytes each, oldest first, those sent again with them (R367) -/
  sent : List (List (BitVec 8))
  /-- slots freed per class of Table 15.3 and not yet returned as credit (R370) -/
  creditDue : List Nat
  /-- SEQ numbers of the flits sent again, oldest first (R369) -/
  resent : List Nat
  /-- the NACKs sent, by the SEQ they name -/
  nacks : List Nat
  /-- a NACK has been sent and the named flit has not come again (R369) -/
  awaiting : Bool
  /-- data slots of a message that continues in the next flit (R368) -/
  partials : List (BitVec 8)
  /-- requests of the device in flight, by tag -/
  reqs : List (Nat × GclPurpose)
  /-- requests of the device that wait for a free tag, oldest first -/
  waiting : List (GclPurpose × GclMsg)
  dir : List (Nat × DirState)
  snoops : List Snoop
  /-- vectors with a cause that arose after the send (R378) -/
  irqMore : List Nat
  /-- the current flit's replay count (R380) -/
  replayCount : Nat
  deriving DecidableEq, Repr

/-! ### Memory (10_memory.md, 01 R17) -/

/-- HBM, core windows and the map of pages. -/
structure MemSt where
  /-- HBM and core-window bytes by node-local address; an unlisted byte reads 0 -/
  bytes : List Host.Cell
  /-- poisoned granules, by granule number (address divided by 64, R275) -/
  poison : List Nat
  /-- words of core memories and granules whose stored code is uncorrectable and has not been read yet, by node-local
  address (R92, R275) -/
  flaws : List Nat
  /-- reports of the on-die ECC read so far (R266) -/
  onDie : Nat
  /-- best-effort accesses that wait: their stack admits none, or their page is being moved, in order of arrival (R273,
  R283) -/
  stalled : List LineWork
  /-- channels mapped out, in the order of their evacuation (R247, R277) -/
  outChannels : List Nat
  /-- channels vacated by MIGRATE: in service, holding no page (R253) -/
  vacated : List Nat
  /-- the remap of moved pages: a page that was placed on a channel mapped out, and the page whose physical
  place it took (that page is unbacked, R277) -/
  remap : List (Nat × Nat)
  /-- pages placed by the Imposer -/
  usedPages : List Nat
  /-- the channel that took the last page placed (R247); 255 before the first, so that channel 0 is next -/
  lastChannel : Nat
  /-- refreshes made so far in the calendar, and the sub-slot in progress (R269) -/
  subslot : Nat
  refreshes : Nat
  /-- HBM training has ended: the calendar runs (R269) -/
  trained : Bool
  /-- channels whose controller resets alone (R413) -/
  resetting : List Nat
  deriving DecidableEq, Repr

/-! ### Links, IFP, RoCEv2 and PTP (11_links.md) -/

/-- What a frame the device sent, or a read it requested, is for: a command, or an access of the companion that
reached another node through the fabric (Table 15.4), by its GCL tag. -/
inductive IfpPurpose where
  | plain
  /-- a WR_POSTED of the companion -/
  | posted
  | cmd (id : Nat)
  | gclRead (tag : Nat)
  | gclWrite (tag : Nat)
  /-- frames of a collective (12 R322, R324) -/
  | coll (id : Nat)
  /-- the report of a deferred self-test (18 R429), by its number -/
  | report (k : Nat)
  deriving DecidableEq, Repr

/-- A frame sent and not acknowledged (R298). -/
structure Unacked where
  frame : IfpFrame
  retries : Nat
  purpose : IfpPurpose
  /-- whether it has left on a link; a frame without a route waits (R300) -/
  sent : Bool
  deriving DecidableEq, Repr

/-- The sending side of a connection: one class to one node (R296, R298, R303). -/
structure ConnTx where
  node : Nat
  cls : Nat
  epoch : Nat
  seq : Nat
  msgId : Nat
  unacked : List Unacked
  /-- permitted rate in units of 1/8 Gb/s, and the microsecond of its last cut (R303) -/
  rate : Nat
  lastCut : Nat
  cutYet : Bool
  deriving DecidableEq, Repr

/-- The receiving side of a connection. -/
structure ConnRx where
  node : Nat
  cls : Nat
  epoch : Nat
  expected : Nat
  held : List IfpFrame
  /-- frames received since the last acknowledgement (R298) -/
  sinceAck : Nat
  /-- frames applied whose effect waits for a snoop: not acknowledged yet (R297) -/
  waiting : List Nat
  eceDue : Bool
  lastCnp : Nat
  cnpYet : Bool
  deriving DecidableEq, Repr

/-- A read requested of another node (READ_REQ), until its last response. -/
structure FabricRead where
  node : Nat
  msgId : Nat
  /-- the fabric address asked for -/
  addr : Nat
  total : Nat
  data : List (BitVec 8)
  purpose : IfpPurpose
  deriving DecidableEq, Repr

/-- A DATA block of a D128 link (R290): its SEQ, the START of its header, its 256 payload bytes, and the frames that end
in it. -/
structure LinkBlock where
  seq : Nat
  start : Nat
  payload : List (BitVec 8)
  ends : List IfpFrame
  deriving DecidableEq, Repr

/-- The D128 layer of one link (R290 to R293, R302). -/
structure LinkSt where
  seqTx : Nat
  seqRx : Nat
  /-- blocks sent and not acknowledged, oldest first -/
  unacked : List LinkBlock
  /-- blocks sent, 272 bytes each, oldest first -/
  sent : List (List (BitVec 8))
  /-- bytes of the best-effort receive buffer that are free again and not yet returned (R302) -/
  creditDue : Nat
  /-- SEQ numbers of blocks sent again -/
  resent : List Nat
  /-- blocks named by the NACKs sent -/
  nacks : List Nat
  awaiting : Bool
  replayCount : Nat
  /-- device times of the uncorrectable blocks of the last second (R293) -/
  badBlocks : List Nat
  /-- best-effort credit held, in bytes (R302) -/
  credit : Nat
  /-- frames waiting for credit, for room, or for the end of a pause -/
  queued : List IfpFrame
  /-- payload bytes of a frame that continues in the next block -/
  partials : List (BitVec 8)
  /-- the LINK_RETRAIN_ONE command that removed it, if one did (R312) -/
  retraining : Option Nat
  /-- payload bytes sent and received beyond the whole KiB that LINK_TRAFFIC_n counts -/
  txRest : Nat
  rxRest : Nat
  deriving DecidableEq, Repr

/-- A RoCEv2 message the device sends (Table 11.9); `kind` is its place in its message: 0 First, 1 Middle, 2 Last,
3 Only. A write carries address, R_Key and length in its First or Only packet. -/
inductive RoceMsg where
  | send (qp psn kind : Nat) (data : List (BitVec 8))
  | write (qp psn kind vaddr rkey len : Nat) (data : List (BitVec 8))
  | readReq (qp psn vaddr rkey len : Nat)
  | readResp (qp psn kind : Nat) (data : List (BitVec 8))
  | ack (qp psn : Nat)
  | nakAccess (qp psn : Nat)
  | nakInvalid (qp psn : Nat)
  | nakSeq (qp psn : Nat)
  | rnrNak (qp psn : Nat)
  | cnp (qp : Nat)
  deriving DecidableEq, Repr

/-- The standard headers of a frame that leaves by an Ethernet port (R294, R295, R300): the port, MAC addresses and VLAN
tag; IPv4 with DF set, or IPv6 with a flow label; DSCP, ECN and TTL or hop limit; addresses of 16 bytes, IPv4 in the mapped
form; and UDP ports. `plain` is IEEE 802.3 without IP (PTP_CFG.TRANSPORT 2). -/
structure EthHeader where
  port : Nat
  srcMac : Nat
  dstMac : Nat
  vlan : Option Nat
  plain : Bool
  v6 : Bool
  dscp : Nat
  ecn : Nat
  ttl : Nat
  flow : Nat
  srcIp : List (BitVec 8)
  dstIp : List (BitVec 8)
  udpSrc : Nat
  udpDst : Nat
  deriving DecidableEq, Repr

/-- What a frame on an Ethernet port carries. -/
inductive EthBody where
  | ifp (f : IfpFrame)
  | roce (m : RoceMsg)
  /-- a PTP Delay_Req, by its sequence id -/
  | delayReq (seq : Nat)
  deriving DecidableEq, Repr

/-- A queue pair (R305, R306): the context latched at STATE 1, its state and its sequence numbers. -/
structure QueuePair where
  index : Nat
  ctx : List (BitVec 8)
  state : Nat
  sqPsn : Nat
  rqPsn : Nat
  /-- requests sent and not acknowledged: PSN, message, command -/
  unacked : List (Nat × RoceMsg × Nat)
  retries : Nat
  rnrRetries : Nat
  /-- next descriptor of the receive ring, and bytes of the SEND being received -/
  recvIdx : Nat
  recvLen : Nat
  /-- where the next packet of an RDMA WRITE being received goes, and the bytes still to come -/
  recvWrite : Option (Nat × Nat)
  /-- a NAK Sequence Error has been sent and the packet it names has not come -/
  nakSent : Bool
  rate : Nat
  lastCut : Nat
  cutYet : Bool
  deriving DecidableEq, Repr

/-- PTP (R309): the servo's state beside PTP_NOW and PTP_STATUS. -/
structure PtpSt where
  /-- time in picoseconds since the epoch; PTP_NOW shows its whole nanoseconds -/
  now : Nat
  goodSyncs : Nat
  pathDelay : Int
  /-- receive time less origin time of the last Sync, in nanoseconds -/
  lastDiff : Int
  /-- a two-step Sync whose Follow_Up has not come: its sequence id, receive timestamp and correction -/
  pendingSync : Option (Nat × Nat × Int)
  /-- the Delay_Req not answered yet: its sequence id and send timestamp; and the next sequence id -/
  delayReq : Option (Nat × Nat)
  delaySeq : Nat
  /-- slew not yet applied, in picoseconds -/
  slew : Int
  deriving DecidableEq, Repr

/-- Links and fabric. -/
structure FabSt where
  links : List LinkSt
  tx : List ConnTx
  rx : List ConnRx
  reads : List FabricRead
  /-- frames sent, with the link each left on, oldest first -/
  out : List (Nat × IfpFrame)
  qps : List QueuePair
  roceOut : List RoceMsg
  /-- frames put on Ethernet ports, with their standard headers, oldest first -/
  ether : List (EthHeader × EthBody)
  /-- the EPOCH each connection had when the last full reset began: the next one is new (R311) -/
  epochs : List (Nat × Nat × Nat)
  /-- ports whose controlled priority is paused (Table 11.4) -/
  pfcPaused : List Nat
  ptp : PtpSt
  deriving DecidableEq, Repr

/-! ### Tensors, editions, saves (07 R195 to R206, 08 R212 to R229, 09 R238 to R242, 12 R325) -/

/-- Sparse element codes by logical index; an unlisted index holds code 0. -/
abbrev Codes := List (Nat × BitVec 32)

/-- One edition of a weight (R212): its data and scales, the host holds on it (R215), and the tally raised when
it retires (R214). -/
structure Edition where
  number : Nat
  data : Codes
  scales : Codes
  holds : Nat
  retTally : Option Nat
  deriving DecidableEq, Repr

/-- States of a save (Table 7.2). -/
inductive SaveState where
  | free
  | inSram
  | offloading
  | offloaded
  | prefetching
  deriving DecidableEq, Repr

/-- The image of an off-loaded save (R200): the node and address it is at, or the pages of this node's HBM it takes,
and its bytes with the CRCs counted. -/
structure Image where
  remote : Bool
  node : Nat
  addr : Nat
  pages : List Nat
  size : Nat
  deriving DecidableEq, Repr

/-- The optimizer state of a weight on its owner (Table 8.1): the bank in force. Moments are element codes with
their scale bytes by block of 32 of the flattened tensor; the other parts are FP32 codes. -/
structure OptState where
  /-- the rule whose state is held, if any: 0 elementwise, 1 matrix -/
  rule : Option Nat
  hasMaster : Bool
  isLazy : Bool
  /-- R226 -/
  invalid : Bool
  m : Codes
  mScale : Codes
  v : Codes
  vScale : Codes
  master : Codes
  /-- row step counts of a lazily updated table; an unlisted row's is 0 -/
  rows : List (Nat × Nat)
  left : Codes
  right : Codes
  rootLeft : Codes
  rootRight : Codes
  rootsValid : Bool
  /-- the last UPDATE fell back (R229) -/
  fellBack : Bool
  deriving DecidableEq, Repr

/-- No optimizer state. -/
def OptState.none : OptState :=
  { rule := Option.none, hasMaster := false, isLazy := false, invalid := false, m := [], mScale := [], v := [],
    vScale := [], master := [], rows := [], left := [], right := [], rootLeft := [], rootRight := [],
    rootsValid := false, fellBack := false }

/-- What a running UPDATE has written beside the edition and the state in force (R230): its command, the new edition,
and on the owner the new state. -/
structure NextEdition where
  cmd : Nat
  data : Codes
  scales : Codes
  opt : Option OptState
  deriving DecidableEq, Repr

/-- One declared tensor. -/
structure Tensor where
  handle : Nat
  fmt : Nat
  role : Nat
  dims : List Nat
  blockAxis : Nat
  /-- CUT: tensor axis and torus axis -/
  cutAxis : Nat
  cutTorus : Nat
  slots : Nat
  layer : Nat
  microbatch : Nat
  /-- the companion scale tensor of an element tensor, and the element tensor of a scale tensor (R240) -/
  scaleOf : Option Nat
  elemOf : Option Nat
  placed : Bool
  pages : List Nat
  /-- whether a weight-gradient tensor is spilled to HBM (R196) -/
  spilled : Bool
  data : Codes
  /-- editions kept, oldest first; the last is current (R212) -/
  editions : List Edition
  updates : Nat
  /-- ORD of a weight (R216) -/
  ord : Nat
  opt : OptState
  next : Option NextEdition
  /-- collectives whose commit the data waits for (R325) -/
  marks : List Nat
  save : SaveState
  image : Option Image
  /-- save record: (weight handle, edition), oldest first (R205) -/
  record : List (Nat × Nat)
  /-- contribution count and base edition of a weight-gradient tensor (R195, R207) -/
  wgCount : Nat
  wgBase : Nat
  /-- a RELEASE_TENSOR, or a FREE_SAVED, that waits for the commands dispatched before its stamp (R203, R242) -/
  releasing : Option Nat
  freeing : Option Nat
  deriving DecidableEq, Repr

/-! ### The Imposer (09_imposer.md) -/

/-- A change that waits for a publication (R249, R252, R253). -/
inductive Change where
  | retire (copse : Nat)
  | evacuate (channel : Nat)
  | vacate (copse : Nat)
  | vacateChannel (channel : Nat)
  | restore (copse : Nat)
  deriving DecidableEq, Repr

/-- A declared operation (R241). -/
structure DeclOp where
  opcode : Nat
  repeats : Nat
  handles : List Nat
  kParts : Nat
  deriving DecidableEq, Repr

/-- An imposition (R243, R248): its number, T, L, Λ, f, the job shape, and the operations of its plan. -/
structure Imposition where
  number : Nat
  tokens : Nat
  cores : Nat
  sliver : Nat
  spread : Nat
  axisSize : List Nat
  axisRank : List Nat
  ops : List DeclOp
  deriving DecidableEq, Repr

/-- A superseded imposition that commands still hold (R248): its carriers, and the tallies to raise when it has
drained. -/
structure Superseded where
  imp : Imposition
  carriers : List (Nat × Nat)
  tallies : List Nat
  deriving DecidableEq, Repr

/-- A move scheduled by a publication; a forwarding entry stays until the superseded imposition has drained
(R250, R251). -/
structure Move where
  kind : MoveKind
  /-- the imposition whose publication scheduled it -/
  number : Nat
  /-- service core, or physical page, where it was and where it goes -/
  src : Nat
  dst : Nat
  begun : Bool
  ended : Bool
  /-- what a unit carries: the bytes of its window, by offset, and its per-core registers, by offset -/
  cells : List Host.Cell
  regs : List (Nat × BitVec 64)
  /-- which memories of a unit were lost with its old slot: bit 0 core SRAM, bit 1 accumulator buffer (R250) -/
  lost : Nat
  /-- scheduled deliveries held until the move ends, by connection node and SEQ -/
  heldDeliveries : List IfpFrame
  deriving DecidableEq, Repr

/-- What the sweep does with one copse (R255). -/
inductive SweepPhase where
  /-- a position moves to slot 16 -/
  | movingOut (pos : Nat)
  /-- a slot is under test -/
  | testing (slot : Nat)
  /-- the position moves back -/
  | movingBack (pos : Nat)
  deriving DecidableEq, Repr

/-- A copse out of the base placement (R246): the place in the order of pending changes of its retirement and of its
vacating, if applied. -/
structure OutCopse where
  copse : Nat
  retired : Option Nat
  vacated : Option Nat
  deriving DecidableEq, Repr

/-- The Imposer's state. -/
structure ImpSt where
  cur : Option Imposition
  /-- the DRAINING imposition, with its carriers and the tallies to raise when it has drained (R251, R253) -/
  draining : Option Superseded
  nextNumber : Nat
  capTally : Option Nat
  out : List OutCopse
  /-- changes pending, each with its place in the order in which they became pending -/
  changes : List (Nat × Change)
  nextChange : Nat
  /-- drain tallies of MIGRATEs with NOW = 0, raised with those of the IMPOSE that applies their requests (R253), each
  with the place of its request in the order of changes -/
  migrateTallies : List (Nat × Nat)
  /-- staged re-shard: handle and new CUT byte (R254) -/
  reshard : Option (List (Nat × Nat))
  ops : List DeclOp
  nextHandle : Nat
  moves : List Move
  /-- base copses carried elsewhere, with their carrier (R246) -/
  carriers : List (Nat × Nat)
  /-- copses in the sweep, and what happens to them -/
  sweep : List (Nat × SweepPhase)
  /-- positions queued for the sweep under R92: copse, slot -/
  queuedSlots : List (Nat × Nat)
  /-- pages reserved as second half-buffers -/
  halfBuffers : List (Nat × List Nat)
  /-- SCHED_CFG as applied at the last IMPOSE (R186) -/
  schedApplied : Nat
  /-- WEIGHT tensors declared so far: the ordinal of the next (08 R216) -/
  weights : Nat
  deriving DecidableEq, Repr

/-! ### Arrays, seed tables, generators (04_matrix_arrays.md, 05_vector_engine.md) -/

/-- The weight registers of one array (Table 4.1), cell row after cell row of 32 cells, and the bytes of the tile that
waits in its landing buffer; an unlisted array holds zeros and an empty buffer. `index` is 4 × service core + array. -/
structure ArraySt where
  index : Nat
  active : List (BitVec 16)
  shadow : List (BitVec 16)
  landing : List (BitVec 8)
  /-- rows of the ripple front written so far (R105) -/
  front : Nat
  deriving DecidableEq, Repr

/-- One seeding of the generators (R141): logical cores 0 to `cores` − 1, job seed and step. -/
structure Seeding where
  cores : Nat
  job : Nat
  step : Nat
  deriving DecidableEq, Repr

/-- The command whose program a vector engine last ran: its number, its slots, the seed bank and the editions it
latched (R123, R131, R213). -/
structure VecJob where
  cmd : Nat
  slots : List Nat
  bank : Nat
  editions : List (Nat × Nat)
  deriving DecidableEq, Repr

/-- Arrays, vector engines, seed banks and generators. -/
structure CoreSt where
  arrays : List ArraySt
  /-- the block each transpose unit emitted last, by service core: 32 rows of 32 bytes (R104) -/
  turned : List (Nat × List (BitVec 8))
  /-- the last matrix command: its number, its tag and its LOADMODE (Table 4.17) -/
  lastCmd : Option (Nat × Nat × Nat)
  /-- tables of banks 0 and 1 that hold an image other than the factory one (R131, R133): table number and
  entries -/
  bank0 : List (Nat × List Nat)
  bank1 : List (Nat × List Nat)
  /-- seedings, newest first; the generators of a logical core start from the first that covers it (R141) -/
  seedings : List Seeding
  /-- generator states that have been stepped, by 64 × logical core + lane: s0 lowest -/
  gens : List (Nat × BitVec 128)
  /-- vector registers V0 to V31, by 2048 × logical core + 64 × register + lane (R123) -/
  vregs : List (Nat × BitVec 32)
  vjob : Option VecJob
  deriving DecidableEq, Repr

/-! ### Galleys (06_attention_galleys.md) -/

/-- One galley that a table holds (R148): K and V element codes and their E8M0 scales by layout index of Table
6.1, and the segment marks. Unlisted entries read 0 (log 2). -/
structure Galley where
  number : Nat
  elems : Codes
  scales : Codes
  marks : Codes
  deriving DecidableEq, Repr

/-- One bank of a table (R151): its length in tokens, and galley numbers by 32 × block + head; an unlisted entry
is 0xFF_FFFF, none. -/
structure Bank where
  length : Nat
  entries : List (Nat × Nat)
  deriving DecidableEq, Repr

/-- A live galley table (R151, R152). -/
structure GTable where
  number : Nat
  kvHeads : Nat
  maxBlocks : Nat
  generation : Nat
  published : Bank
  /-- the second bank: SHADOW, or DRAINING while `draining` -/
  second : Bank
  draining : Bool
  /-- whether the shadow has been changed since the last publication (R152) -/
  changed : Bool
  /-- DESTROY has been carried out (Table 6.2) -/
  destroying : Bool
  /-- walks in flight on the published and on the DRAINING bank, by command number -/
  walks : List Nat
  drainWalks : List Nat
  deriving DecidableEq, Repr

/-- The galley store (R149) and its tables; a galley is listed while a table holds it. -/
structure AttnSt where
  /-- D and the number of galleys, when the store exists -/
  store : Option (Nat × Nat)
  /-- pages of HBM the store takes (R247) -/
  storePages : List Nat
  galleys : List Galley
  tables : List GTable
  /-- the steps of RING_ATTENTION that have landed, by the number of the command, in order of step (R176) -/
  ring : List (Nat × RingStep)
  deriving DecidableEq, Repr

/-! ### The Collator (12_collectives.md) -/

/-- A chunk in transit (Table 12.3): its phase (0 a partial, 1 a result or data), shard or origin, index, and for
ALL_TO_ALL and PERMUTE the rank it is for (0 for the others). -/
structure ChunkKey where
  phase : Nat
  shard : Nat
  chunk : Nat
  dest : Nat
  deriving DecidableEq, Repr

/-- What the Collator and the update engine send to the members of a group: chunks in the scheduled class (copies
re-sent in the best-effort class), or the control messages of R217, R323, R324 and R327. -/
inductive CollMsg where
  | chunk (dest : Nat) (bytes : List (BitVec 8))
  | checked (axis seq : Nat) (key : ChunkKey)
  | reRequest (axis seq : Nat) (key : ChunkKey)
  | done (axis seq flags : Nat)
  | commit (axis seq flags : Nat)
  | fail (axis seq detail : Nat)
  | verdict (status detail : Nat)
  /-- the new edition that the owner multicasts (R217): its report, and the bytes of data and scales -/
  | edition (report : Nat) (bytes : List (BitVec 8))
  /-- a piece of the new edition of a weight, from a byte on, is asked for again, and sent again (R217, R323) -/
  | again (weight first len : Nat)
  | piece (first : Nat) (bytes : List (BitVec 8))
  /-- the galleys of one step of RING_ATTENTION as they are forwarded, elements, scales and marks by (block, KV head, place
  in the galley), with the running sums they carry (R176, R178) -/
  | ring (cmd step : Nat) (galleys : List (Nat × Nat)) (dk dv : List (Nat × BitVec 32)) (bytes : List (BitVec 8))
  deriving DecidableEq, Repr

/-- A collective on this member from its dispatch to its commit or failure (R314 to R327). Its number is that of
its command, and names its mark (R325). -/
structure Coll where
  id : Nat
  /-- the order of its dispatch -/
  stamp : Nat
  opcode : Nat
  tag : Nat
  axis : Nat
  seq : Nat
  /-- its slot and its share of the store in bytes, once it has started (R317) -/
  slot : Option Nat
  share : Nat
  members : Nat
  rank : Nat
  pkt : List (BitVec 8)
  descCheck : Nat
  /-- IN's bytes as read when it started -/
  input : List (BitVec 8)
  /-- partials sent and kept until their check is reported (R320) -/
  retained : List (ChunkKey × List (BitVec 8))
  /-- chunks of a later round, held until the store of the round before last is released (R317) -/
  queued : List (ChunkKey × List (BitVec 8))
  /-- the CRC-64 of every chunk sent whose retained copy is this member's (R323, R324) -/
  crcs : List (ChunkKey × Nat)
  /-- chunks still to arrive, still to be written to OUT, sent but not reported checked, and asked for again -/
  expect : List ChunkKey
  toWrite : List ChunkKey
  unchecked : List ChunkKey
  asked : List ChunkKey
  written : Nat
  reRequests : Nat
  flags : Nat
  localDone : Bool
  deriving DecidableEq, Repr

/-- A verdict of another member of the D group on an UPDATE (R217). -/
structure Verdict where
  cmd : Nat
  rank : Nat
  status : Nat
  deriving DecidableEq, Repr

/-- A DONE message that rank 0 holds (R324). -/
structure DoneMsg where
  axis : Nat
  seq : Nat
  rank : Nat
  flags : Nat
  deriving DecidableEq, Repr

/-- The Collator: collectives uncommitted, in dispatch order; messages sent, with rank and axis they go to; the
marks of collectives that failed (R327); the step aborted last (R329); DONEs and verdicts held. -/
structure CollSt where
  colls : List Coll
  out : List (Nat × Nat × CollMsg)
  failed : List Nat
  aborted : Option Nat
  dones : List DoneMsg
  verdicts : List Verdict
  deriving DecidableEq, Repr

/-! ### The Feeder (13_feeder.md) -/

/-- What decoding a sample gave (R338 to R345): tokens, an image's bytes, a reason to skip it, or a source that could
not be read, with the DETAIL of that. -/
inductive Sample where
  | tokens (l : List Nat)
  | image (bytes : List (BitVec 8))
  | skip (reason : Nat)
  | bad (detail : Nat)
  deriving DecidableEq, Repr

/-- An open stream (R336): what FEED_OPEN gave it, its epoch (R341, R342), its place in the order, the samples
decoded ahead by order position (R348), its skip log (R344), and its sheet cache by manifest index (R349). -/
structure FeedStream where
  number : Nat
  imgC : Nat
  imgH : Nat
  imgW : Nat
  manifest : Nat
  vocab : Nat
  cacheGib : Nat
  cachePages : List Nat
  /-- whether an epoch has been started, and its fields -/
  started : Bool
  shuffled : Bool
  deadline : Bool
  pad : Bool
  epoch : Nat
  seed : Nat
  entries : Nat
  shardCount : Nat
  shardIndex : Nat
  nextPos : Nat
  nextOffset : Nat
  decoded : List (Nat × Sample)
  /-- skip log, oldest first: epoch, position, index and reason -/
  log : List (Nat × Nat × Nat × Nat)
  cache : List (Nat × Sample)
  deriving DecidableEq, Repr

/-- The Feeder. -/
structure FeedSt where
  streams : List FeedStream
  deriving DecidableEq, Repr

/-! ### Start-up and security (16_startup_security.md) -/

/-- Start-up: the stage that begins next, 1 to 9, 10 once start-up is complete, 0 after a stop under R390; the flash
bytes written since manufacture; the certificate and fields of the profile in force, and the measurements taken at
stage 3 (Table 16.5). -/
structure BootSt where
  next : Nat
  flash : List (Nat × BitVec 8)
  /-- the flash device's volatile block protection is set (R384) -/
  locked : Bool
  ownerCert : List (BitVec 8)
  profile : List (BitVec 8)
  mFw : List (BitVec 8)
  mProfile : List (BitVec 8)
  mOwner : List (BitVec 8)
  deriving DecidableEq, Repr

/-! ### Power, reset and the module's pins (17_clocks_power_reset.md, 19_module.md, 18 R435) -/

/-- The JTAG port (R435): its instruction register, what SAMPLE/PRELOAD took from the pins and put in the cells. -/
structure TapSt where
  ir : Nat
  sampled : Nat
  cells : Nat
  deriving DecidableEq, Repr

/-- Power and reset: whether the understory has power, whether a full reset is in progress or held (R415), the input
in range, RESET_N asserted, the last reading of each grove, the power level and the checks below its limits in
sequence (R403), the copses in GATED (1) and RETAIN (2) and those that wake (R406), the stacks in self refresh, the
time of the last watchdog restart, the seam ports that retrain (R413), and the SMBus replies sent, status and value,
oldest first. -/
structure PwrSt where
  powered : Bool
  held : Bool
  inRange : Bool
  pinLow : Bool
  temps : List Nat
  powerLevel : Nat
  calm : Nat
  gates : List (Nat × Nat)
  waking : List Nat
  selfRefresh : Bool
  watchdogFed : Nat
  seams : List Nat
  smb : List (Nat × Nat)
  tap : TapSt
  deriving DecidableEq, Repr

/-! ### Tests and observability (18_observability.md) -/

/-- A kind of deferred test work: 0 ARRAY_SELF_TEST, 1 HBM_RECAL_ALL, 2 LINK_RETRAIN_ALL; the packets of the
requests that joined it, and whether it runs (R259). -/
structure TestWork where
  kind : Nat
  requests : List (List (BitVec 8))
  running : Bool
  deriving DecidableEq, Repr

/-- The proof image (R421): the stored registers, and the values of those that report other state. -/
structure ProofImage where
  number : Nat
  regs : List (Nat × BitVec 64)
  views : List (Nat × Nat)
  deriving DecidableEq, Repr

/-- A reply line of the Colophon monitor (R432, R433): OK with numbers, OK with bytes, or ERR with a code. -/
inductive UartReply where
  | ok (fields : List Nat)
  | data (bytes : List (BitVec 8))
  | err (code : Nat)
  deriving DecidableEq, Repr

/-- Observability: test work; proof triggers on their way, by source (R422); the image held; whether the device pulls
the PROOF pin, and the device time until which its edges are not taken after a pull (R424); the monitor's replies, oldest first. -/
structure ObsSt where
  tests : List TestWork
  due : List Nat
  image : Option ProofImage
  pull : Bool
  deaf : Nat
  uart : List UartReply
  /-- deferred requests whose report is on its way to another node: its number, and their packet (02 R54) -/
  reports : List (Nat × List (BitVec 8))
  deriving DecidableEq, Repr

/-! ### The whole state -/

/-- The state of the device and its queue of waiting commands. -/
structure State where
  /-- the commands waiting, first in first out -/
  pending : List Instr
  /-- the model's own counter: free values of Config are functions of it -/
  freeCtr : Nat
  /-- register contents by offset; an unlisted register holds its reset word -/
  regs : List (Nat × BitVec 64)
  /-- the device time counter, in UCLK (R41, R389) -/
  time : Nat
  /-- this module's node number (R388, R281) -/
  node : Nat
  mem : MemSt
  cmd : CmdSt
  tally : TallySt
  gcl : GclSt
  fab : FabSt
  /-- tensors declared and not released, in order of declaration -/
  tens : List Tensor
  imp : ImpSt
  core : CoreSt
  attn : AttnSt
  coll : CollSt
  feed : FeedSt
  boot : BootSt
  pwr : PwrSt
  obs : ObsSt
  deriving DecidableEq, Repr

/-! ### Reset -/

/-- A ring after reset. -/
def RingSt.reset : RingSt := ⟨0, [], true, false⟩

/-- Commands after reset; the first turn of both round robins goes to ring 0 (log 5). -/
def CmdSt.reset : CmdSt :=
  { rings := List.replicate 16 RingSt.reset, cmds := [], nextId := 0, tick := 0, lastServed := 15,
    lastDispatch := 15, resetPhase := 0 }

/-- Tallies after reset: every value zero (R45), no wait attached. -/
def TallySt.reset : TallySt := ⟨[], []⟩

/-- The GCL after reset: down, with no credit (R381). -/
def GclSt.reset : GclSt :=
  { out := [], queued := [], credits := [0, 0, 0, 0], seqTx := 0, seqRx := 0, unacked := [], sent := [],
    creditDue := [0, 0, 0, 0], resent := [], nacks := [], awaiting := false, partials := [], reqs := [], waiting := [], dir := [], snoops := [], irqMore := [],
    replayCount := 0 }

/-- Memory after reset: nothing listed (log 2), every page on its own channel. -/
def MemSt.reset : MemSt :=
  { bytes := [], poison := [], flaws := [], onDie := 0, stalled := [], outChannels := [], vacated := [], remap := [],
    usedPages := [], lastChannel := 255, subslot := 0, refreshes := 0, trained := false, resetting := [] }

/-- A link after reset: down, no credit until training (R302). -/
def LinkSt.reset : LinkSt :=
  { seqTx := 0, seqRx := 0, unacked := [], sent := [], creditDue := 0, resent := [], nacks := [], awaiting := false,
    replayCount := 0, badBlocks := [], credit := 0, queued := [], partials := [], retraining := none, txRest := 0, rxRest := 0 }

/-- Links and fabric after reset (R419: connections, queue pairs, credits and PTP lock are lost). -/
def FabSt.reset : FabSt :=
  { links := List.replicate 64 LinkSt.reset, tx := [], rx := [], reads := [], out := [], qps := [],
    roceOut := [], ether := [], epochs := [], pfcPaused := [], ptp := ⟨0, 0, 0, 0, none, none, 0, 0⟩ }

/-- The Imposer after reset: no imposition (number 0, R248), handles from 1 (R239). -/
def ImpSt.reset : ImpSt :=
  { cur := none, draining := none, nextNumber := 1, capTally := none, out := [], changes := [], nextChange := 0,
    migrateTallies := [], reshard := none, ops := [], nextHandle := 1, moves := [],
    carriers := [], sweep := [], queuedSlots := [], halfBuffers := [],
    schedApplied := 0x8000, weights := 0 }

/-- Arrays, seed banks and generators after reset: factory tables in both banks' places, every lane seeded with
J = 0 and step 0 (R133, R141). -/
def CoreSt.reset : CoreSt :=
  { arrays := [], turned := [], lastCmd := none, bank0 := [], bank1 := [], seedings := [], gens := [],
    vregs := [], vjob := none }

/-- The galley store after reset: none (R149). -/
def AttnSt.reset : AttnSt := { store := none, storePages := [], galleys := [], tables := [], ring := [] }

/-- The Collator after reset (Table 12.5). -/
def CollSt.reset : CollSt := { colls := [], out := [], failed := [], aborted := none, dones := [], verdicts := [] }

/-- The Feeder after reset: every stream closed. -/
def FeedSt.reset : FeedSt := { streams := [] }

/-- Start-up after reset: stage 1 is next; the flash as it was manufactured (log 8). -/
def BootSt.reset : BootSt :=
  { next := 1, flash := [], locked := false, ownerCert := [], profile := [], mFw := [], mProfile := [], mOwner := [] }

/-- Power in a power-on reset: the understory runs, the reset is held with the input not yet in range and RESET_N
asserted; every copse in RUN; IDCODE selected in the TAP. -/
def PwrSt.reset : PwrSt :=
  { powered := true, held := true, inRange := false, pinLow := true, temps := [0, 0, 0, 0], powerLevel := 0, calm := 0,
    gates := [], waking := [], selfRefresh := false, watchdogFed := 0, seams := [], smb := [],
    tap := ⟨2, 0, 0⟩ }

/-- Observability after reset. -/
def ObsSt.reset : ObsSt :=
  { tests := [], due := [], image := none, pull := false, deaf := 0, uart := [], reports := [] }

/-- The device in a power-on reset (R415, R420, R444): every register at the reset value of its table, nothing in
flight, the reset held until the input is in range and RESET_N is released; start-up then begins with stage 1 (R389,
log 4). -/
def State.reset : State :=
  { pending := [], freeCtr := 0, regs := [], time := 0, node := 0, mem := MemSt.reset, cmd := CmdSt.reset,
    tally := TallySt.reset, gcl := GclSt.reset, fab := FabSt.reset, tens := [],
    imp := ImpSt.reset, core := CoreSt.reset, attn := AttnSt.reset, coll := CollSt.reset, feed := FeedSt.reset, boot := BootSt.reset, pwr := PwrSt.reset, obs := ObsSt.reset }

end Sys2Proof.Machine
end

