-- ==== Sys2Proof/Machine/Ops.lean ====
section
/-! DEFINITION. The operations that meanings share: register fields, free values, tallies (02 R46), messages of
the GCL and of IFP, interrupts, alarms, memory bytes, and the completion of a command. -/

namespace Sys2Proof.Machine

/-! ### Registers as stored -/

/-- The stored word of the register at an offset; an unlisted register holds its reset word. -/
def State.reg (s : State) (off : Nat) : Nat :=
  (Sparse.get (fun k => BitVec.ofNat 64 (regReset k)) s.regs off).toNat

/-- The register at an offset set to a word. -/
def State.setReg (s : State) (off v : Nat) : State :=
  { s with regs := Sparse.set (fun k => BitVec.ofNat 64 (regReset k)) s.regs off (BitVec.ofNat 64 v) }

/-- A field of a stored register. -/
def State.fld (s : State) (off hi lo : Nat) : Nat := bits (s.reg off) hi lo

/-- A field of a stored register set. -/
def State.setFld (s : State) (off hi lo x : Nat) : State := s.setReg off (putBits (s.reg off) hi lo x)

/-- A counter field that saturates at its width, raised by `n`. -/
def State.addSat (s : State) (off hi lo n : Nat) : State :=
  s.setFld off hi lo (saturate (2 ^ (hi + 1 - lo) - 1) (s.fld off hi lo + n))

/-- A counter field that wraps, raised by `n`. -/
def State.addWrap (s : State) (off hi lo n : Nat) : State := s.setFld off hi lo (s.fld off hi lo + n)

/-! ### Free values -/

/-- A fresh free number, and the state whose counter has passed it. -/
def State.free (s : State) : Nat × State := (Config.freeNat s.freeCtr, { s with freeCtr := s.freeCtr + 1 })

/-- Time passes, in UCLK of 10 ns: the device time counter counts it (R41), and PTP time goes on, with what remains of a
slew applied at 100 ppm at most (11 R309). -/
def State.elapse (s : State) (d : Nat) : State :=
  let p := s.fab.ptp
  let x := max (-(d : Int)) (min (d : Int) p.slew)
  { s with
    time := s.time + d
    fab := { s.fab with ptp := { p with now := ((p.now + 10000 * d : Nat) + x).toNat, slew := p.slew - x } } }

/-- A register write has an effect only while the device has power and no full reset is in progress or held; the
understory's registers are apart (R415, R446). -/
def State.whenUp (s : State) (f : State → State) : State := if s.pwr.powered && ! s.pwr.held then f s else s

/-! ### Commands -/

/-- The command with a number. -/
def State.cmdOf (s : State) (n : Nat) : Option Cmd := s.cmd.cmds.find? fun c => c.id = n

/-- The command with a number changed. -/
def State.updCmd (s : State) (n : Nat) (f : Cmd → Cmd) : State :=
  { s with cmd := { s.cmd with cmds := s.cmd.cmds.map fun c => if c.id = n then f c else c } }

/-- The device's next event order. -/
def State.nextTick (s : State) : State := { s with cmd := { s.cmd with tick := s.cmd.tick + 1 } }

/-- A ring's machinery. -/
def State.ring (s : State) (n : Nat) : RingSt := s.cmd.rings.getD n RingSt.reset

/-- A ring's machinery changed. -/
def State.updRing (s : State) (n : Nat) (f : RingSt → RingSt) : State :=
  { s with cmd := { s.cmd with rings := s.cmd.rings.modify n f } }

/-- The opcode of a packet (Table 2.6). -/
def Cmd.opcode (c : Cmd) : Nat := fieldAt c.pkt 0 2

/-- FLAGS of a packet (Table 2.7). -/
def Cmd.flags (c : Cmd) : Nat := fieldAt c.pkt 2 2

/-- The tag of a packet. -/
def Cmd.tag (c : Cmd) : Nat := fieldAt c.pkt 6 2 % 4096

/-- A parameter field of a packet: `n` bytes from byte `i`. -/
def Cmd.par (c : Cmd) (i n : Nat) : Nat := fieldAt c.pkt i n

/-- The function number of an opcode's group (Table 2.13). -/
def functionOf (opcode : Nat) : Nat :=
  match opcode / 256 with
  | 2 => 0
  | 4 => 1
  | 5 => 2
  | 6 => 3
  | 7 => 4
  | 8 => 5
  | 9 => 6
  | 10 => 7
  | 12 => 8
  | 13 => 9
  | 1 => 10
  | 3 => 11
  | 11 => 12
  | _ => 13

/-- Status codes (Table 2.9). -/
def stOK : Nat := 0x0000
def stDeferred : Nat := 0x0001
def stDisabled : Nat := 0x0002
def stStampMismatch : Nat := 0x0003
def stCheckFail : Nat := 0x0004
def stNoSpace : Nat := 0x0005
def stBadParam : Nat := 0x0006
def stTimeout : Nat := 0x0007
def stAborted : Nat := 0x0008
def stFatal : Nat := 0x00FF

/-- How a command ends: its status, its DETAIL and its RESULT (R41, bytes 31:16 as one number). -/
structure Outcome where
  status : Nat
  detail : Nat
  result : Nat
  deriving DecidableEq, Repr

/-- OK with a RESULT. -/
def Outcome.ok (result : Nat) : Outcome := ⟨stOK, 0, result⟩

/-- BAD_PARAM with a DETAIL. -/
def Outcome.bad (detail : Nat) : Outcome := ⟨stBadParam, detail, 0⟩

/-- ABORTED with a DETAIL. -/
def Outcome.aborted (detail : Nat) : Outcome := ⟨stAborted, detail, 0⟩

/-- NO_SPACE with a DETAIL. -/
def Outcome.noSpace (detail : Nat) : Outcome := ⟨stNoSpace, detail, 0⟩

/-- The command's effects are made: its outcome is fixed and its completion report is on its way (R55). -/
def State.finish (s : State) (n : Nat) (o : Outcome) : State :=
  s.updCmd n fun c =>
    { c with phase := .done, status := o.status, detail := o.detail, result := o.result % 2 ^ 128, time := s.time % 2 ^ 48 }

/-- A command waits for an event of its chapter; `aux` says for what. -/
def State.park (s : State) (n : Nat) (aux : List Nat) : State :=
  s.updCmd n fun c => { c with phase := .waiting, aux := aux }

/-- Whether a command is dispatched and its work has not begun. -/
def State.dispatched (s : State) (n opcode : Nat) : Option Cmd :=
  match s.cmdOf n with
  | some c => if c.phase = .dispatched ∧ c.opcode = opcode then some c else none
  | none => none

/-- Whether every command of the same ring and function dispatched earlier has begun (R55: they start in
dispatch order). A command whose row has run and that waits before its work counts as begun (log 126, DESIGN
CHOICE). -/
def State.mayStart (s : State) (c : Cmd) : Bool :=
  s.cmd.cmds.all fun d =>
    ! (decide (d.ring = c.ring) && decide (functionOf d.opcode = functionOf c.opcode) &&
       decide (d.phase = .dispatched) && decide (d.stamp < c.stamp))

/-- Work of a command done in the imposition it latched (R248): one that holds the DRAINING imposition finds that one's
units and carriers. -/
def State.onImposition (s : State) (c : Cmd) (f : State → State) : State :=
  match s.imp.draining with
  | none => f s
  | some d =>
    if functionOf c.opcode < 10 ∧ c.latch.imposition = d.imp.number then
      let t := f { s with imp := { s.imp with cur := some d.imp, carriers := d.carriers } }
      { t with imp := { t.imp with cur := s.imp.cur, carriers := s.imp.carriers } }
    else f s

/-- The work of a dispatched command with a given opcode: `f` when the command is there and may start;
otherwise the event does not take place and nothing changes (log 1). -/
def State.runCmd (s : State) (n opcode : Nat) (f : Cmd → State → State) : State :=
  match s.dispatched n opcode with
  | some c => if s.mayStart c then s.onImposition c (f c) else s
  | none => s

/-- A waiting command with a given opcode: `f` when it is there; otherwise nothing changes (log 1). -/
def State.resumeCmd (s : State) (n : Nat) (f : Cmd → State → State) : State :=
  match s.cmdOf n with
  | some c => if c.phase = .waiting then s.onImposition c (f c) else s
  | none => s

/-! ### Interrupts and messages over the GCL (15_host_link.md R370, R378) -/

/-- The class of a message (Table 15.5): 0 REQ, 1 SNP, 2 RSP, 3 DATA. -/
def GclMsg.cls : GclMsg → Nat
  | .rdNc _ _ _ => 0
  | .wrNc _ _ _ => 0
  | .wrPosted _ _ => 0
  | .snpInv _ _ => 1
  | .snpShare _ _ => 1
  | .cmp _ => 2
  | .err _ _ => 2
  | .cmpData _ _ _ _ => 3

/-- The 16-byte blocks that a byte range touches (R368). -/
def dataSlots (addr n : Nat) : Nat := if n = 0 then 0 else (addr + n - 1) / 16 - addr / 16 + 1

/-- The slots of a message: its header slot and its data slots (R368). -/
def GclMsg.slots : GclMsg → Nat
  | .wrNc _ a d => 1 + dataSlots a d.length
  | .wrPosted a d => 1 + dataSlots a d.length
  | .cmpData _ _ a d => 1 + dataSlots a d.length
  | _ => 1

/-- Whether the GCL is up (Table 15.10). -/
def State.gclUp (s : State) : Bool := s.fld Reg.gclState 31 29 = 2

/-- The header slot of a message (Table 15.4). -/
def gclHeader (opcode size tag code addr : Nat) : List Byte :=
  leBytes 1 opcode ++ leBytes 1 size ++ leBytes 2 (code % 16 * 4096 + tag % 4096) ++ leBytes 8 addr ++ leBytes 4 0

/-- Data slots: the 16-byte blocks that the range of the data touches, zero around the range (R368). -/
def gclDataSlots (addr : Nat) (d : List Byte) : List Byte :=
  let b := List.replicate (addr % 16) 0 ++ d
  b ++ List.replicate (16 * dataSlots addr d.length - b.length) 0

/-- The slots of a message as bytes (R368, Tables 15.4 and 15.5); SIZE and ADDR of a completion without data are zero
(log 18, DESIGN CHOICE). -/
def GclMsg.bytes : GclMsg → List Byte
  | .rdNc t a n => gclHeader 0x01 n t 0 a
  | .wrNc t a d => gclHeader 0x04 d.length t 0 a ++ gclDataSlots a d
  | .wrPosted a d => gclHeader 0x05 d.length 0 0 a ++ gclDataSlots a d
  | .snpInv t a => gclHeader 0x20 64 t 0 a
  | .snpShare t a => gclHeader 0x21 64 t 0 a
  | .cmp t => gclHeader 0x40 0 t 0 0
  | .cmpData t c a d => gclHeader 0x60 d.length t c a ++ gclDataSlots a d
  | .err t c => gclHeader 0x42 0 t c 0

/-- The 256 bytes of a flit (R367, Tables 15.1 and 15.2): header, 15 slots, those left over unused (R368), CRC-32, and the
parity of its two codewords. -/
def gclFlit (count cls typ ack seq : Nat) (slots : List Byte) : List Byte :=
  let d := leBytes 4 (count % 256 * 2 ^ 24 + cls % 4 * 2 ^ 22 + typ % 4 * 2 ^ 20 + ack % 1024 * 2 ^ 10 + seq % 1024) ++
    slots ++ List.replicate (240 - slots.length) 0
  let d := d ++ leBytes 4 (crc32 d)
  let half := fun k => (d.zipIdx.filter fun x => x.2 % 2 = k).map fun x => x.1.toNat
  d ++ (((rsParity 4 (half 0)).zip (rsParity 4 (half 1))).map fun p => [BitVec.ofNat 8 p.1, BitVec.ofNat 8 p.2]).flatten

/-- A flit sent: it carries the acknowledgement, or in a NACK the first flit to replay, and returns the credit due of one
class (R367, R370). -/
def State.flitSend (s : State) (seq typ : Nat) (slots : List Byte) : State :=
  let c := (s.gcl.creditDue.findIdx? (0 < ·)).getD 0
  let n := min 255 (s.gcl.creditDue.getD c 0)
  { s with gcl := { s.gcl with
      creditDue := s.gcl.creditDue.modify c (· - n)
      sent := s.gcl.sent ++ [gclFlit n c typ s.gcl.seqRx seq slots] } }

/-- IDLE flits: they acknowledge what has been received and return all the credit due (R367, R370). -/
def State.flitIdle (s : State) : State :=
  (List.range 3).foldl (fun s _ => if s.gcl.creditDue.all (· = 0) then s else s.flitSend s.gcl.seqTx 1 [])
    (s.flitSend s.gcl.seqTx 1 [])

/-- A message put on the link: the credits of its class are used and the flit is kept until acknowledged
(R369, R370). Each message leaves in a flit of its own (log 18, DESIGN CHOICE). -/
def State.gclPut (s : State) (m : GclMsg) : State :=
  let q := s.gcl.seqTx
  ({ s with gcl := { s.gcl with
      out := s.gcl.out ++ [m]
      credits := s.gcl.credits.modify m.cls (· - m.slots)
      unacked := s.gcl.unacked ++ [(q, m)]
      seqTx := (q + 1) % 1024 } }).flitSend q 0 m.bytes

/-- Whether a message may leave now: the link is up and it has credits for all its slots (R370). -/
def State.gclMay (s : State) (m : GclMsg) : Bool :=
  s.gclUp && decide (m.slots ≤ s.gcl.credits.getD m.cls 0) && decide (s.gcl.unacked.length < 256)

/-- The waiting messages that may leave now, in order within their class (R370, R376). -/
def State.gclFlushList (blocked : List Nat) : List GclMsg → State → State
  | [], s => s
  | m :: ms, s =>
    if m.cls ∈ blocked then
      State.gclFlushList blocked ms { s with gcl := { s.gcl with queued := s.gcl.queued ++ [m] } }
    else if s.gclMay m then State.gclFlushList blocked ms (s.gclPut m)
    else State.gclFlushList (m.cls :: blocked) ms { s with gcl := { s.gcl with queued := s.gcl.queued ++ [m] } }

/-- Send what waits, as far as credits and the link allow. -/
def State.gclFlush (s : State) : State :=
  State.gclFlushList [] s.gcl.queued { s with gcl := { s.gcl with queued := [] } }

/-- Send a message: at once when it may leave and nothing of its class waits, else in its turn. -/
def State.gclSend (s : State) (m : GclMsg) : State :=
  if s.gclMay m && ! (s.gcl.queued.any fun q => q.cls = m.cls) then s.gclPut m
  else { s with gcl := { s.gcl with queued := s.gcl.queued ++ [m] } }

/-- Send the interrupt of a vector: a WR_POSTED of its DATA to its ADDR; the vector is then pending (R378). -/
def State.irqSend (s : State) (v : Nat) : State :=
  let a := s.reg (Reg.gclIrqAddr v)
  let s := s.setReg Reg.gclIrqAck (putBits (s.reg Reg.gclIrqAck) v v 1)
  s.gclSend (.wrPosted (bits a 63 2 * 4) (leBytes 4 (s.reg (Reg.gclIrqData v))))

/-- A cause of a vector arises (R378): an enabled vector that is not pending is sent; a cause that finds it
pending is remembered and sends nothing. -/
def State.irq (s : State) (v : Nat) : State :=
  if bit (s.reg (Reg.gclIrqAddr v)) 0 = 0 then s
  else if bit (s.reg Reg.gclIrqAck) v = 1 then
    { s with gcl := { s.gcl with irqMore := v :: s.gcl.irqMore.erase v } }
  else s.irqSend v

/-- Set a bit of GCL_ERR; vector 16 reports a bit that becomes set (R378). -/
def State.gclErrSet (s : State) (i : Nat) : State :=
  if s.fld Reg.gclErr i i = 1 then s else (s.setFld Reg.gclErr i i 1).irq 16

/-! ### Fatal faults (R59) -/

/-- The phases of a command whose work is not finished. -/
def Phase.unfinished : Phase → Bool
  | .validated => true
  | .attached => true
  | .eligible => true
  | .dispatched => true
  | .waiting => true
  | _ => false

/-- An event that may trigger a proof (R422): 0 FATAL, 1 a step abort, 2 an alarm, 3 NV. -/
def State.proofEvent (s : State) (i : Nat) : State :=
  if bit (s.fld Reg.proofCfg 3 0) i = 1 then { s with obs := { s.obs with due := s.obs.due ++ [3] } } else s

/-- A fatal fault: CMD_STATUS.FATAL is set, vector 16 is raised, every command in flight that has not completed
completes FATAL, and no wait stays attached (R59). -/
def State.fatal (s : State) : State :=
  let t := if s.fld Reg.cmdStatus 30 30 = 1 then s
    else (((s.setFld Reg.cmdStatus 30 30 1).irq 16).proofEvent 0).proofEvent 2
  { t with
    cmd := { t.cmd with cmds := t.cmd.cmds.map fun c =>
      if c.phase.unfinished ∨ (c.phase = .done ∧ c.tagHeld = true) then
        { c with phase := .done, status := stFatal, detail := 0, result := 0, time := t.time % 2 ^ 48 }
      else c }
    tally := { t.tally with waiters := t.tally.waiters.filter fun w => match w.owner with
      | .watch _ _ => true
      | _ => false } }

/-- Whether CMD_STATUS.FATAL is set. -/
def State.isFatal (s : State) : Bool := s.fld Reg.cmdStatus 30 30 = 1

/-! ### Sending IFP frames (11_links.md R295, R300) -/

/-- The 32 header bytes of a frame (Table 11.5). -/
def ifpHeader (f : IfpFrame) : List Byte :=
  [BitVec.ofNat 8 (f.version % 16 + f.hops * 16), BitVec.ofNat 8 f.typ,
   BitVec.ofNat 8 (f.cls % 4 + 4 * ofBool f.ece + 8 * ofBool f.last + 16 * ofBool f.retx),
   BitVec.ofNat 8 f.epoch] ++ leBytes 2 f.payload.length ++ leBytes 2 f.src ++ leBytes 2 f.dst ++
  leBytes 2 f.msgId ++ leBytes 4 f.seq ++ leBytes 4 f.ack ++ leBytes 8 f.addr ++ leBytes 4 f.aux

/-- The frame with its ICRC, the CRC-32 over header and payload (R295). -/
def ifpSealed (f : IfpFrame) : IfpFrame := { f with icrc := crc32 (ifpHeader f ++ f.payload) }

/-- The links of a group, ascending (LINK_CFG_n.GROUP; unused links belong to none). -/
def State.groupLinks (s : State) (g : Nat) : List Nat :=
  (List.range 64).filter fun n =>
    decide (s.fld (Reg.linkCfg n) 31 30 ≠ 0) && decide (s.fld (Reg.linkCfg n) 27 24 = g)

/-- The link whose block serves a port: the lower one of a ganged pair (Table 11.22). -/
def State.ethPort (s : State) (n : Nat) : Nat := if s.fld (Reg.linkCfg n) 31 30 = 3 then n - n % 2 else n

/-- The links of a group that are up; a ganged pair is one port, and counts by its lower link (R301, Table 11.22). -/
def State.groupUp (s : State) (g : Nat) : List Nat :=
  (s.groupLinks g).filter fun n => decide (s.fld (Reg.linkState n) 31 29 = 2) && decide (s.ethPort n = n)

/-- The rate of a port, in units of 1/8 Gb/s (R303, Table 11.1). -/
def State.linkRate (s : State) (n : Nat) : Nat := if s.fld (Reg.linkCfg n) 31 30 = 3 then 6400 else 3200

/-- The group a frame for a node takes (R300): the primary while it has a link up, else the alternate, else
none. Group 8 has no route without a node map (Table 11.14). -/
def State.routeGroup (s : State) (node : Nat) : Option Nat :=
  let w := s.reg (Reg.route (node / 8))
  let i := node % 8
  let ok := fun g => decide (g ≤ 8) && ! (s.groupUp g).isEmpty && (decide (g ≠ 8) || bit (s.reg Reg.nodeMapBase) 0 = 1)
  let p := bits w (8 * i + 3) (8 * i)
  let a := bits w (8 * i + 7) (8 * i + 4)
  if ok p then some p else if ok a then some a else none

/-- The hash of a connection (R300): CRC-32 over SRC_NODE, DST_NODE and CLASS, taken in their header widths. -/
def routeHash (src dst cls : Nat) : Nat := crc32 (leBytes 2 src ++ leBytes 2 dst ++ leBytes 1 cls)

/-- The link a frame leaves on (R300, R301); none without a route. -/
def State.routeLink (s : State) (src dst cls : Nat) : Option Nat :=
  match s.routeGroup dst with
  | none => none
  | some g => let l := s.groupUp g; l[routeHash src dst cls % l.length]?

/-- The link layer of a link. -/
def State.link (s : State) (n : Nat) : LinkSt := s.fab.links.getD n LinkSt.reset

/-- The link layer of a link changed. -/
def State.updLink (s : State) (n : Nat) (f : LinkSt → LinkSt) : State :=
  { s with fab := { s.fab with links := s.fab.links.modify n f } }

/-- The rate of the port of a connection, in units of 1/8 Gb/s. -/
def State.portRate (s : State) (node cls : Nat) : Nat := ((s.routeLink s.node node cls).map s.linkRate).getD 3200

/-- Bytes a frame takes on a link, padded to 4 (R290). -/
def ifpSize (f : IfpFrame) : Nat := (36 + f.payload.length + 3) / 4 * 4

/-- The bytes of a frame on a D128 link: header, payload, ICRC and padding (R290, R295). -/
def ifpBytes (f : IfpFrame) : List Byte :=
  let b := ifpHeader f ++ f.payload ++ leBytes 4 f.icrc
  b ++ List.replicate (ifpSize f - b.length) 0

/-- Payload bytes counted by LINK_TRAFFIC_n (Table 11.22), in the block that serves the port: `sent` says which way. -/
def State.countTraffic (s : State) (link bytes : Nat) (sent : Bool) : State :=
  let n := s.ethPort link
  let t := (if sent then (s.link n).txRest else (s.link n).rxRest) + bytes
  let s := s.updLink n fun l => if sent then { l with txRest := t % 1024 } else { l with rxRest := t % 1024 }
  if sent then s.addSat (Reg.linkTraffic n) 63 32 (t / 1024) else s.addSat (Reg.linkTraffic n) 31 0 (t / 1024)

/-- Whether a frame may leave on a D128 link with others picked to leave before it: a best-effort frame needs credit, at
most 16 KiB of control frames stay unacknowledged, and at most 512 blocks are kept (R292, R302). -/
def LinkSt.admits (l : LinkSt) (picked : List IfpFrame) (f : IfpFrame) : Bool :=
  let size := fun (cls : Nat) => (((picked ++ [f]).filter fun g => g.cls = cls).map ifpSize).sum
  decide (l.unacked.length + ceilDiv (((picked ++ [f]).map ifpSize).sum) 256 ≤ 512) &&
  (match f.cls with
  | 0 => true
  | 1 => decide ((((l.unacked.map fun b => b.ends).flatten.filter fun g => g.cls = 1).map ifpSize).sum + size 1 ≤ 16384)
  | _ => decide (size 2 ≤ l.credit))

/-- Whether a frame may leave on a link now, after others picked; on E100 its priority must not be paused (R294). -/
def State.linkMay (s : State) (n : Nat) (picked : List IfpFrame) (f : IfpFrame) : Bool :=
  if s.fld (Reg.linkCfg n) 31 30 = 1 then (s.link n).admits picked f
  else ! (s.fab.pfcPaused.contains n && decide (Config.pfcClass n = some f.cls))

/-- Frames packed back to back into payloads of 256 bytes, zeros after the last (R290): for each block the START of its
header, its payload, and the frames that end in it. -/
def packBlocks (fs : List IfpFrame) : List (Nat × List Byte × List IfpFrame) :=
  let stream := (fs.map ifpBytes).flatten
  let ends := (List.range fs.length).map fun i => ((fs.take (i + 1)).map ifpSize).sum
  let starts := (List.range fs.length).map fun i => ((fs.take i).map ifpSize).sum
  (List.range (ceilDiv stream.length 256)).map fun i =>
    let d := (stream.drop (256 * i)).take 256
    (match starts.find? fun o => 256 * i ≤ o ∧ o < 256 * (i + 1) with
      | some o => (o - 256 * i) / 4
      | none => 127,
     d ++ List.replicate (256 - d.length) 0,
     ((fs.zip ends).filter fun p => 256 * i < p.2 ∧ p.2 ≤ 256 * (i + 1)).map (·.1))

/-- The 272 bytes of a D128 block (R290, Table 11.3): header, payload, and the parity of its two codewords. -/
def d128Block (credit start typ ack seq : Nat) (payload : List Byte) : List Byte :=
  let d := leBytes 4 (credit % 8 * 2 ^ 29 + start % 128 * 2 ^ 22 + typ % 4 * 2 ^ 20 + ack % 1024 * 2 ^ 10 + seq % 1024) ++ payload
  let half := fun k => (d.zipIdx.filter fun x => x.2 % 2 = k).map fun x => x.1.toNat
  d ++ (((rsParity 6 (half 0)).zip (rsParity 6 (half 1))).map fun p => [BitVec.ofNat 8 p.1, BitVec.ofNat 8 p.2]).flatten

/-- A block sent on a D128 link: it carries the acknowledgement, or in a NACK the first block to replay, and returns what
credit is due (R290, R302). -/
def State.blockSend (s : State) (n seq start typ : Nat) (payload : List Byte) : State :=
  s.updLink n fun l =>
    let c := min 7 (l.creditDue / 512)
    { l with creditDue := l.creditDue - 512 * c, sent := l.sent ++ [d128Block c start typ l.seqRx seq payload] }

/-- Frames put on a D128 link in new blocks, which are kept until acknowledged (R292). -/
def State.blocksOut (s : State) (n : Nat) (fs : List IfpFrame) : State :=
  (packBlocks fs).foldl (fun s b =>
    let seq := (s.link n).seqTx
    (s.updLink n fun l => { l with
      unacked := l.unacked ++ [⟨seq, b.1, b.2.1, b.2.2⟩], seqTx := (seq + 1) % 1024 }).blockSend n seq b.1 0 b.2.1)
    (s.updLink n fun l => { l with credit := l.credit - ((fs.filter fun f => f.cls = 2).map ifpSize).sum })

/-- The IPv6 address of a node, IPv4 in the mapped form, from the node map (R301). -/
def State.nodeAddress (s : State) (node : Nat) : List Byte :=
  Sparse.getMany (fun _ => (0 : Byte)) s.mem.bytes (s.fld Reg.nodeMapBase 63 12 * 4096 + 16 * node) 16

/-- Whether an address has the IPv4-mapped form. -/
def isMapped (a : List Byte) : Bool := decide (a.take 12 = List.replicate 10 0 ++ [0xFF, 0xFF])

/-- The standard headers of a frame from an Ethernet port (R294). -/
def State.ethHeader (s : State) (n dscp flow : Nat) (src dst : List Byte) (udpSrc udpDst : Nat) : EthHeader :=
  let p := s.ethPort n
  { port := p, srcMac := s.fld (Reg.ethMac p) 47 0, dstMac := s.fld (Reg.ethNexthop p) 47 0, vlan := Config.vlanTag p,
    plain := false, v6 := ! isMapped dst, dscp := dscp, ecn := 2, ttl := 64, flow := if isMapped dst then 0 else flow,
    srcIp := src, dstIp := dst, udpSrc := udpSrc, udpDst := udpDst }

/-- The headers of an IFP frame (R295, R300 to R302): UDP to IFP_CFG.UDP_PORT from the port the hash gives, with the DSCP
of its class. -/
def State.ifpEther (s : State) (n : Nat) (f : IfpFrame) : EthHeader :=
  let h := routeHash f.src f.dst f.cls
  let dscp := match f.cls with
    | 0 => s.fld Reg.ifpCfg 47 42
    | 1 => s.fld Reg.ifpCfg 41 36
    | _ => s.fld Reg.ifpCfg 35 30
  s.ethHeader n dscp (h % 2 ^ 20) (s.nodeAddress s.node) (s.nodeAddress f.dst) (h % 65536 ||| 0xC000) (s.fld Reg.ifpCfg 63 48)

/-- Frames put on a link: in blocks on D128, each in Ethernet, IP and UDP on E100. -/
def State.linkPut (s : State) (n : Nat) (fs : List IfpFrame) : State :=
  let s := if s.fld (Reg.linkCfg n) 31 30 = 1 then s.blocksOut n fs
    else { s with fab := { s.fab with ether := s.fab.ether ++ fs.map fun f => (s.ifpEther n f, EthBody.ifp f) } }
  fs.foldl (fun s f => ({ s with fab := { s.fab with out := s.fab.out ++ [(n, f)] } }).countTraffic n f.payload.length true) s

/-- A frame leaves on a link, or waits behind those of its class that wait (R302). -/
def State.linkSend (s : State) (n : Nat) (f : IfpFrame) : State :=
  let g := ifpSealed f
  if s.linkMay n [] g && ! ((s.link n).queued.any fun q => q.cls = g.cls) then s.linkPut n [g]
  else s.updLink n fun l => { l with queued := l.queued ++ [g] }

/-- The frames that wait on a link, scheduled first, then control, then best-effort (R302). -/
def State.linkQueue (s : State) (n : Nat) : List IfpFrame :=
  let q := (s.link n).queued
  (q.filter fun f => f.cls = 0) ++ (q.filter fun f => f.cls = 1) ++ (q.filter fun f => 1 < f.cls)

/-- Of the frames that wait on a link, those that leave now, packed together, and those that wait on, none overtaking one
of its class. -/
def State.linkPick (s : State) (n : Nat) : List IfpFrame × List IfpFrame :=
  (s.linkQueue n).foldl (fun r f =>
    if s.linkMay n r.1 f && ! (r.2.any fun g => g.cls = f.cls) then (r.1 ++ [f], r.2) else (r.1, r.2 ++ [f])) ([], [])

/-- Waiting frames leave a link while they may. -/
def State.linkFlush (s : State) (n : Nat) : State :=
  let r := s.linkPick n
  (s.updLink n fun l => { l with queued := r.2 }).linkPut n r.1

/-- The EPOCH a connection begins with: 0 at first, and after a full reset one it did not have before it (R296, R311). -/
def State.firstEpoch (s : State) (node cls : Nat) : Nat :=
  match s.fab.epochs.find? fun e => e.1 = node ∧ e.2.1 = cls with
  | some e => (e.2.2 + 1) % 256
  | none => 0

/-- The sending side of a connection, a fresh one when there is none. A connection starts at the port rate
(R303); the rate is kept in units of 1/8 Gb/s. -/
def State.connTx (s : State) (node cls : Nat) : ConnTx :=
  (s.fab.tx.find? fun c => c.node = node ∧ c.cls = cls).getD
    { node := node, cls := cls, epoch := s.firstEpoch node cls, seq := 0, msgId := 0, unacked := [],
      rate := s.portRate node cls, lastCut := 0, cutYet := false }

/-- The sending side of a connection put back. -/
def State.setConnTx (s : State) (c : ConnTx) : State :=
  { s with fab := { s.fab with tx :=
      (s.fab.tx.filter fun d => ! (decide (d.node = c.node) && decide (d.cls = c.cls))) ++ [c] } }

/-- The receiving side of a connection, if a frame has arrived on it. -/
def State.connRx (s : State) (node cls : Nat) : Option ConnRx :=
  s.fab.rx.find? fun c => c.node = node ∧ c.cls = cls

/-- The receiving side of a connection put back. -/
def State.setConnRx (s : State) (c : ConnRx) : State :=
  { s with fab := { s.fab with rx :=
      (s.fab.rx.filter fun d => ! (decide (d.node = c.node) && decide (d.cls = c.cls))) ++ [c] } }

/-- The number below which every frame of a connection has been received and is visible (R297, R298). -/
def ConnRx.ackSeq (c : ConnRx) : Nat := c.waiting.foldl min c.expected

/-- A frame of this node to another: its header fields that the connection fixes. -/
def State.frameTo (s : State) (node cls typ seq msgId : Nat) (last : Bool) (addr aux : Nat) (data : List Byte) :
    IfpFrame :=
  let rx := s.connRx node cls
  { version := 1, hops := 15, typ := typ, cls := cls,
    ece := match rx with
      | some r => r.eceDue
      | none => false,
    last := last, retx := false, epoch := (s.connTx node cls).epoch, src := s.node, dst := node,
    msgId := msgId % 65536, seq := seq,
    ack := match rx with
      | some r => r.ackSeq
      | none => 0,
    addr := addr, aux := aux, payload := data, icrc := 0 }

/-- A frame leaves by the route of its destination, if there is one; true when it left. -/
def State.launch (s : State) (f : IfpFrame) : State × Bool :=
  match s.routeLink f.src f.dst f.cls with
  | some n => (s.linkSend n f, true)
  | none => (s, false)

/-- An acknowledgement travels in any frame of the reverse connection: the count of unacknowledged frames
starts again and a due ECE has been carried (R298, R303). -/
def State.ackCarried (s : State) (node cls : Nat) : State :=
  match s.connRx node cls with
  | some r => s.setConnRx { r with sinceAck := 0, eceDue := false }
  | none => s

/-- Frames that have waited for a route leave, where there is one now (R300). -/
def State.launchWaiting (s : State) : State :=
  s.fab.tx.foldl (fun s c =>
    if c.unacked.all fun u => u.sent then s
    else
      let r := c.unacked.foldl (fun (p : State × List Unacked) u =>
        if u.sent then (p.1, p.2 ++ [u])
        else let l := p.1.launch u.frame; (l.1, p.2 ++ [{ u with sent := l.2 }])) (s, [])
      r.1.setConnTx { c with unacked := r.2 }) s

/-- Send one numbered frame on a connection (R296), on a given link, or, with none given, by its route; it is kept until
acknowledged, and waits while its destination has no route. -/
def State.ifpSendVia (via : Option Nat) (s : State) (node cls typ msgId : Nat) (last : Bool) (addr aux : Nat)
    (data : List Byte) (p : IfpPurpose) : State :=
  let c := s.connTx node cls
  let f := s.frameTo node cls typ c.seq msgId last addr aux data
  let r := match via with
    | some n => (s.linkSend n f, true)
    | none => s.launch f
  let t := r.1.setConnTx { c with
    seq := (c.seq + 1) % 2 ^ 32
    unacked := c.unacked ++ [⟨ifpSealed f, 0, p, r.2⟩] }
  t.ackCarried node cls

/-- Send one numbered frame on a connection by its route. -/
def State.ifpSend (s : State) (node cls typ msgId : Nat) (last : Bool) (addr aux : Nat) (data : List Byte)
    (p : IfpPurpose) : State :=
  State.ifpSendVia none s node cls typ msgId last addr aux data p

/-- The next message number of a connection. -/
def State.newMsg (s : State) (node cls : Nat) : Nat × State :=
  let c := s.connTx node cls
  (c.msgId, s.setConnTx { c with msgId := (c.msgId + 1) % 65536 })

/-- Send a message of one frame on a connection. -/
def State.ifpMessage (s : State) (node cls typ addr aux : Nat) (data : List Byte) (p : IfpPurpose) : State :=
  let m := s.newMsg node cls
  m.2.ifpSend node cls typ m.1 true addr aux data p

/-- Send the frames of a message longer than one frame: 4,096 bytes each, the last with LAST set (R295). -/
def State.ifpFrames (node cls typ msgId : Nat) (p : IfpPurpose) : Nat → State → Nat → List Byte → State
  | 0, s, _, _ => s
  | fuel + 1, s, addr, d =>
    if d.length ≤ 4096 then s.ifpSend node cls typ msgId true addr 0 d p
    else State.ifpFrames node cls typ msgId p fuel (s.ifpSend node cls typ msgId false addr 0 (d.take 4096) p)
      (addr + 4096) (d.drop 4096)

/-- Send a WRITE of bytes to a fabric address. -/
def State.ifpWrite (s : State) (node addr : Nat) (d : List Byte) (p : IfpPurpose) : State :=
  let m := s.newMsg node 2
  State.ifpFrames node 2 1 m.1 p (d.length / 4096 + 1) m.2 addr d

/-- Request a read of another node; the data goes to `p`. -/
def State.ifpRead (s : State) (node addr n : Nat) (p : IfpPurpose) : State :=
  let m := s.newMsg node 2
  let t := m.2.ifpSend node 2 2 m.1 true addr n [] p
  { t with fab := { t.fab with reads := t.fab.reads ++ [⟨node, m.1, addr, n, [], p⟩] } }

/-- Send an unnumbered frame: a standalone ACK, NACK or CNP. -/
def State.ifpBare (s : State) (node cls typ ack : Nat) : State :=
  let f := { s.frameTo node cls typ (s.connTx node cls).seq 0 true 0 0 [] with ack := ack }
  ((s.launch f).1).ackCarried node cls

/-! ### Tallies (02_commands_and_tallies.md R45 to R50) -/

/-- The value of a tally. -/
def State.tallyVal (s : State) (i : Nat) : Nat := (Sparse.get (fun _ => 0) s.tally.values i).toNat

/-- Whether a value meets a wait (R46). -/
def Waiter.metBy (w : Waiter) (t : Nat) : Bool := if w.isEq then decide (t = w.value) else decide (w.value ≤ t)

/-- Notify the owner of a met wait (R46, R47, R50, R64): a header wait is latched at its home; a TALLY_WAIT
completes with the value that met it; a watch sends WATCH_NOTIFY. -/
def State.notify (s : State) (w : Waiter) (t : Nat) : State :=
  match w.owner with
  | .header n i => s.updCmd n fun c => { c with met := i :: c.met }
  | .command n => s.finish n (Outcome.ok t)
  | .watch node num => s.ifpMessage node 1 6 0 0 (leBytes 2 num) .plain

/-- Present a value to the attached waiters, in order of attachment; met ones are detached (R46). -/
def State.present (i t : Nat) : List Waiter → State → State
  | [], s => s
  | w :: ws, s =>
    if w.tally = i ∧ w.metBy t = true then
      State.present i t ws ({ s with tally := { s.tally with waiters := s.tally.waiters.erase w } }.notify w t)
    else State.present i t ws s

/-- A tally takes a value, which is presented to its waiters (R46). -/
def State.tallyTakes (s : State) (i t : Nat) : State :=
  let s := { s with tally := { s.tally with
    values := Sparse.set (fun _ => 0) s.tally.values i (BitVec.ofNat 64 t) } }
  State.present i t s.tally.waiters s

/-- add(v) at the home of a tally (R46): modulo 2^64; an add that wraps sets CMD_STATUS.TALLY_WRAP. -/
def State.tallyAdd (s : State) (i v : Nat) : State :=
  let t := (s.tallyVal i + v) % 2 ^ 64
  let s := if t < v % 2 ^ 64 then s.setFld Reg.cmdStatus 31 31 1 else s
  s.tallyTakes i t

/-- set(v) at the home of a tally (R46). -/
def State.tallySet (s : State) (i v : Nat) : State := s.tallyTakes i (v % 2 ^ 64)

/-- wait(kind, v, w) at the home of a tally (R46): met at once when the present value meets it, else attached. -/
def State.tallyWait (s : State) (w : Waiter) : State :=
  if w.metBy (s.tallyVal w.tally) then s.notify w (s.tallyVal w.tally)
  else { s with tally := { s.tally with waiters := s.tally.waiters ++ [w] } }

/-- Detach every wait of an owner. -/
def State.detach (s : State) (p : WaitOwner → Bool) : State :=
  { s with tally := { s.tally with waiters := s.tally.waiters.filter fun w => ! p w.owner } }

/-- The tally a fabric address names on its node (R45, R63): none outside the tally region or misaligned. -/
def tallyIndex (addr : Nat) : Option Nat :=
  let a := addr % 2 ^ 48
  if 0x210000000000 ≤ a ∧ a < 0x210000080000 ∧ a % 8 = 0 then some ((a - 0x210000000000) / 8) else none

/-! ### The end of a collective (12_collectives.md R327, R329) -/

/-- A parameter field of a collective's packet. -/
def Coll.par (x : Coll) (i n : Nat) : Nat := fieldAt x.pkt i n

/-- The ranks of a collective's group but this one. -/
def Coll.peers (x : Coll) : List Nat := (List.range x.members).filter (· ≠ x.rank)

/-- The node of the member of this module's group with a rank on an axis. -/
def State.memberNode (s : State) (axis rank : Nat) : Nat :=
  Config.memberNode ((s.imp.cur.map (·.axisRank)).getD []) axis rank

/-- What a control message says, as numbers. -/
def CollMsg.words : CollMsg → List Nat
  | .checked axis seq k => [1, axis, seq, k.phase, k.shard, k.chunk, k.dest]
  | .reRequest axis seq k => [2, axis, seq, k.phase, k.shard, k.chunk, k.dest]
  | .done axis seq flags => [3, axis, seq, flags]
  | .commit axis seq flags => [4, axis, seq, flags]
  | .fail axis seq detail => [5, axis, seq, detail]
  | .verdict status detail => [6, status, detail]
  | .again h first n => [7, h, first, n]
  | .piece _ _ => []
  | .chunk _ _ => []
  | .edition _ _ => []
  | .ring _ _ _ _ _ _ => []

/-- The bytes that a message sent in SCHED frames carries. -/
def CollMsg.bytes : CollMsg → List Byte
  | .chunk _ b => b
  | .edition _ b => b
  | .piece _ b => b ++ leBytes 8 (crc64 b)
  | .ring _ _ _ _ _ b => b
  | .verdict status detail => Config.controlBytes [6, status, detail]
  | _ => []

/-- Whether a message travels in SCHED frames: in the scheduled class, or, sent again, in the best-effort class. -/
def CollMsg.scheduled : CollMsg → Bool
  | .chunk _ _ => true
  | .edition _ _ => true
  | .piece _ _ => true
  | .verdict _ _ => true
  | .ring _ _ _ _ _ _ => true
  | _ => false

/-- The collective, or the RING_ATTENTION, a message is about, as the purpose of its frames. -/
def State.collPurpose (s : State) (axis : Nat) (m : CollMsg) : IfpPurpose :=
  let seq := match m with
    | .checked _ q _ => some q
    | .reRequest _ q _ => some q
    | .done _ q _ => some q
    | .commit _ q _ => some q
    | .chunk _ b => some (fieldAt b 0 4)
    | _ => none
  match m, seq.bind fun q => s.coll.colls.find? fun x => x.axis = axis ∧ x.seq = q with
  | .ring n _ _ _ _ _, _ => .cmd n
  | _, some x => .coll x.id
  | _, none => .plain

/-- The SCHED frames of one message (R295, 12 R322), on a given link or by the route. -/
def State.schedFrames (via : Option Nat) (node cls msgId addr aux : Nat) (p : IfpPurpose) : Nat → State → List Byte → State
  | 0, s, _ => s
  | fuel + 1, s, d =>
    if d.length ≤ 4096 then State.ifpSendVia via s node cls 8 msgId true addr aux d p
    else State.schedFrames via node cls msgId addr aux p fuel
      (State.ifpSendVia via s node cls 8 msgId false addr aux (d.take 4096) p) (d.drop 4096)

/-- The link a chunk takes (12 R320): at index j div 2 among those of the group toward its neighbour that are up. -/
def State.chunkLink (s : State) (axis : Nat) (up : Bool) (j : Nat) : Option Nat :=
  let l := s.groupUp (2 * (axis - 1) + ofBool (! up))
  l[j / 2 % l.length]?

/-- A message to a member of a group: recorded, and sent as SCHED frames of a class on a link or by the route, or as one
CONTROL frame (Table 11.6). -/
def State.collSendVia (s : State) (via : Option Nat) (cls axis rank : Nat) (m : CollMsg) : State :=
  let p := s.collPurpose axis m
  let node := s.memberNode axis rank
  let s := { s with coll := { s.coll with out := s.coll.out ++ [(rank, axis, m)] } }
  if m.scheduled then
    let x := s.newMsg node cls
    let d := m.bytes
    State.schedFrames via node cls x.1 (Config.schedAddr axis (fieldAt d 0 4) (fieldAt d 8 4))
      ((s.imp.cur.map (·.number)).getD 0) p (d.length / 4096 + 1) x.2 d
  else s.ifpMessage node 1 13 0 0 (Config.controlBytes m.words) p

/-- A message to a member of a group, by the route of its node. -/
def State.collSend (s : State) (axis rank : Nat) (m : CollMsg) : State := s.collSendVia none 0 axis rank m

/-- A collective ends by failure: its slot and share are free, its command completes ABORTED unless it has completed
locally, FAIL_TALLY is raised, and its mark stays where it is. The member that finds the failure tells the others. -/
def State.collEnd (s : State) (x : Coll) (detail : Nat) (tell : Bool) : State :=
  let s := { s with coll := { s.coll with
    colls := s.coll.colls.filter fun y => y.id ≠ x.id
    failed := s.coll.failed ++ [x.id]
    dones := s.coll.dones.filter fun d => ! (decide (d.axis = x.axis) && decide (d.seq = x.seq)) } }
  let s := s.addSat Reg.collEvents 31 16 1
  let s := if detail = 0x0106 then s.addSat Reg.collEvents 15 0 1 else s
  let s := if tell then x.peers.foldl (fun s r => s.collSend x.axis r (.fail x.axis x.seq detail)) s else s
  let s := match s.cmdOf x.id with
    | some c => if c.phase.unfinished && ! x.localDone then s.finish x.id (Outcome.aborted detail) else s
    | none => s
  if bit (x.par 43 1) 1 = 1 then s.tallyAdd (x.par 48 2) 1 else s

/-- A step is aborted (R329): COLL_ABORTED_STEP records it, and every collective of the step that waits or is in
flight fails. -/
def State.abortStep (s : State) (step : Nat) : State :=
  let s := if s.coll.aborted = some step then s
    else
      let s := (s.addSat Reg.collAbortedStep 63 32 1).setFld Reg.collAbortedStep 31 0 step
      ({ s with coll := { s.coll with aborted := some step } }).proofEvent 1
  (s.coll.colls.filter fun x => x.par 56 4 = step).foldl (fun s x => s.collEnd x 0x010A true) s

/-- The step in progress is aborted (R257, R413): that of every collective that waits or is in flight. -/
def State.abortSteps (s : State) : State :=
  ((s.coll.colls.map fun x => x.par 56 4).eraseDups).foldl State.abortStep s

/-! ### Memory (10_memory.md, 01 R17, R18) -/

/-- First address and size of the coherent window (15 Table 15.12); size 0 when there is none. -/
def State.window (s : State) : Nat × Nat :=
  (s.fld Reg.gclCohBase 47 26 * 2 ^ 26, min (s.fld Reg.gclCohSize 6 0) 64 * 2 ^ 26)

/-- Whether an address lies in the window. -/
def State.inWindow (s : State) (a : Nat) : Bool := decide (s.window.1 ≤ a) && decide (a < s.window.1 + s.window.2)

/-- The regions of the node-local address map (Table 10.5). -/
inductive Region where
  | hbm
  | window
  | regs
  | tallies
  | outside
  deriving DecidableEq, Repr

/-- The region of a node-local address. -/
def regionOf (a : Nat) : Region :=
  if a < 0x6000000000 then .hbm
  else if 0x100000000000 ≤ a ∧ a < 0x100100000000 then .window
  else if 0x200000000000 ≤ a ∧ a < 0x200001000000 then .regs
  else if 0x210000000000 ≤ a ∧ a < 0x210000080000 then .tallies
  else .outside

/-- Whether a range lies wholly in one region. -/
def rangeIn (r : Region) (a n : Nat) : Bool := decide (regionOf a = r) && decide (regionOf (a + n - 1) = r)

/-- What an unlisted byte of HBM or of a core window reads as (log 2). -/
def memDefault (_ : Nat) : Byte := 0

/-- The canonical form of memory. -/
def Memory.wf (m : MemSt) : Bool := Sparse.wf memDefault m.bytes

/-- One byte of HBM or of a core window, as held. -/
def State.byteAt (s : State) (a : Nat) : Byte := Sparse.get memDefault s.mem.bytes a

/-- `n` bytes as held. -/
def State.bytesAt (s : State) (a n : Nat) : List Byte := Sparse.getMany memDefault s.mem.bytes a n

/-- Bytes put into memory, as held. -/
def State.putBytes (s : State) (a : Nat) (d : List Byte) : State :=
  { s with mem := { s.mem with bytes := Sparse.setMany memDefault s.mem.bytes a d } }

/-- Global copse number of a core-window address (R17). -/
def copseOfWindow (a : Nat) : Nat := (a - 0x100000000000) / 0x100000 / 16

/-- Whether a copse is retired (COPSE_STATE_n.STATE, Table 1.3): it has left a clearing. -/
def State.isRetired (s : State) (c : Nat) : Bool := s.fld (Reg.copseState c) 31 28 = 3

/-- Whether a core-window address lies in a clearing (R18). -/
def State.inClearing (s : State) (a : Nat) : Bool := decide (regionOf a = .window) && s.isRetired (copseOfWindow a)

/-- Whether an HBM page's addresses are unbacked (R277): its channel is mapped out and it was not placed there,
or its physical place was taken by a moved page. -/
def State.unbackedPage (s : State) (p : Nat) : Bool :=
  (s.mem.outChannels.contains (p % 256) && ! s.mem.remap.any fun r => r.1 = p) || s.mem.remap.any fun r => r.2 = p

/-- Whether an HBM address is unbacked. -/
def State.unbacked (s : State) (a : Nat) : Bool := decide (regionOf a = .hbm) && s.unbackedPage (a / 4096)

/-- The channel that serves an HBM address, through the remap of moved pages (R277). -/
def State.channelOf (s : State) (a : Nat) : Nat :=
  match s.mem.remap.find? fun r => r.1 = a / 4096 with
  | some r => r.2 % 256
  | none => a / 4096 % 256

/-- The granules that a range of HBM touches (R267). -/
def granules (a n : Nat) : List Nat := if n = 0 then [] else (List.range ((a + n - 1) / 64 - a / 64 + 1)).map (a / 64 + ·)

/-- Whether a granule reads as uncorrectable (R275): it is poisoned, or its stored code is. -/
def State.badGranule (s : State) (g : Nat) : Bool :=
  s.mem.poison.contains g || s.mem.flaws.any fun w => decide (regionOf w = .hbm) && decide (w / 64 = g)

/-- Bytes of a word of a core memory (R92): 8 in core SRAM, 4 in the accumulator buffer. -/
def wordBytes (a : Nat) : Nat := if (a - 0x100000000000) % 0x100000 < 0xC0000 then 8 else 4

/-- First byte of the word of a core memory that holds a byte of a window. -/
def wordStart (a : Nat) : Nat := a - a % wordBytes a

/-- Whether a word of a core memory is uncorrectable (R92). -/
def State.badWord (s : State) (w : Nat) : Bool := ! s.inClearing w && s.mem.flaws.any fun a => wordStart a = w

/-- What a read of HBM or of a core window meets (R92, R275): nothing, an uncorrectable granule, or an uncorrectable word
of a core memory, by its first address. -/
inductive ReadStop where
  | none
  | granule (g : Nat)
  | word (a : Nat)
  deriving DecidableEq, Repr

/-- First address of what a read meets. -/
def ReadStop.start : ReadStop → Nat
  | .none => 0
  | .granule g => 64 * g
  | .word a => a

/-- What reading a local range meets first, in address order. -/
def State.readStop (s : State) (a n : Nat) : ReadStop :=
  if regionOf a = .hbm then
    match (granules a n).find? s.badGranule with
    | some g => .granule g
    | Option.none => .none
  else if regionOf a = .window then
    match ((s.mem.flaws.map wordStart).filter fun w =>
        s.badWord w && decide (w < a + n) && decide (a < w + wordBytes w)).min? with
    | some w => .word w
    | Option.none => .none
  else .none

/-- A capacity change becomes pending (R252): it joins the list of changes, and the capacity tally in force is
raised by 1. IMPOSER_STATE.PENDING reads 1 while the list is not empty. -/
def State.capacityChange (s : State) (c : Change) : State :=
  let s := { s with imp := { s.imp with
    changes := s.imp.changes ++ [(s.imp.nextChange, c)], nextChange := s.imp.nextChange + 1 } }
  match s.imp.capTally with
  | some t => s.tallyAdd t 1
  | none => s

/-- A channel in service is queued for mapping out with a cause (R276); a queued or mapped-out one is left as it
is (Table 10.6). -/
def State.queueChannel (s : State) (ch cause : Nat) : State :=
  if s.fld (Reg.channelState ch) 63 62 = 0 then
    ((s.setFld (Reg.channelState ch) 63 62 1).setFld (Reg.channelState ch) 61 59 cause).capacityChange (.evacuate ch)
  else s

/-- Whether a stack admits no granule: it is at level 4 (R273). -/
def State.stackStopped (s : State) (k : Nat) : Bool := decide (s.fld (Reg.stackTemp k) 30 28 = 4)

/-- An uncorrectable read of a granule (R275): it is poisoned, counted, recorded, and its channel is queued. -/
def State.hbmUncorrectable (s : State) (a : Nat) : State :=
  let ch := s.channelOf a
  let was := s.mem.poison.contains (a / 64)
  let s := if was then s.setFld Reg.hbmStatus 1 1 1
    else { s with mem := { s.mem with
      poison := s.mem.poison ++ [a / 64]
      flaws := s.mem.flaws.filter fun w => ! (decide (regionOf w = .hbm) && decide (w / 64 = a / 64)) } }
  let s := s.addSat (Reg.channelState ch) 47 32 1
  let s := s.setReg Reg.hbmErrAddr (a / 64 * 64)
  s.queueChannel ch 2

/-- An access to an unbacked address is counted (R278). -/
def State.unbackedHit (s : State) : State := (s.setFld Reg.hbmStatus 0 0 1).addSat Reg.hbmStatus 31 16 1

/-- The copses whose windows a range touches. -/
def copsesIn (a n : Nat) : List Nat :=
  if regionOf a = .window ∧ 0 < n then
    (List.range (copseOfWindow (a + n - 1) - copseOfWindow a + 1)).map (copseOfWindow a + ·)
  else []

/-- An access that touches windows of a clearing is counted in the grove of each (R18). -/
def State.clearingHit (s : State) (a n : Nat) : State :=
  (((copsesIn a n).filter s.isRetired).map (· / 64)).eraseDups.foldl (fun s g =>
    (s.setFld (Reg.groveStatus g) 0 0 1).addSat (Reg.groveStatus g) 31 16 1) s

/-- The pages a range touches. -/
def pages (a n : Nat) : List Nat := if n = 0 then [] else (List.range ((a + n - 1) / 4096 - a / 4096 + 1)).map (a / 4096 + ·)

/-- Whether some byte of a range is unbacked or in a clearing. -/
def State.holeIn (s : State) (a n : Nat) : Bool :=
  if regionOf a = .hbm then (pages a n).any s.unbackedPage else (copsesIn a n).any s.isRetired

/-- A store of bytes with the effects of R18, R275 and R278: unbacked bytes and bytes of a clearing are
discarded; a granule written whole loses its poison. -/
def State.storeByte (s : State) (a : Nat) (b : Byte) : State :=
  if s.unbacked a || s.inClearing a then s else s.putBytes a [b]

/-- Store bytes one after another in ascending address order. -/
def State.storeBytes : List Byte → Nat → State → State
  | [], _, s => s
  | b :: bs, a, s => State.storeBytes bs (a + 1) (s.storeByte a b)

/-- The granules that a range covers whole (R282). -/
def wholeGranules (a n : Nat) : List Nat := (granules a n).filter fun g => decide (a ≤ 64 * g ∧ 64 * g + 64 ≤ a + n)

/-- Whether a range covers a word of a core memory whole. -/
def coversWord (w a n : Nat) : Bool := decide (a ≤ w) && decide (w + wordBytes w ≤ a + n)

/-- A range written: granules and words written whole hold a new code, and lose their poison (R92, R275). -/
def State.clearPoison (s : State) (a n : Nat) : State :=
  { s with mem := { s.mem with
    poison := s.mem.poison.filter fun g => ! (wholeGranules a n).contains g
    flaws := s.mem.flaws.filter fun w =>
      if regionOf w = .hbm then ! (wholeGranules a n).contains (w / 64) else ! coversWord (wordStart w) a n } }

/-- The granules, or the words of a core memory, of which a write covers only a part: each is merged with what is read
(R92, R282). -/
def partWritten (a n : Nat) : List ReadStop :=
  if n = 0 then []
  else if regionOf a = .hbm then
    ((granules a n).filter fun g => ! (wholeGranules a n).contains g).map ReadStop.granule
  else if regionOf a = .window then
    ((([wordStart a, wordStart (a + n - 1)].eraseDups).filter fun w => ! coversWord w a n)).map ReadStop.word
  else []

/-- Whether what a merge reads is uncorrectable. -/
def State.badStop (s : State) : ReadStop → Bool
  | .none => false
  | .granule g => s.badGranule g
  | .word w => s.badWord w

/-- The granules and words that a write merges and whose read is uncorrectable (R92, R282), in address order. -/
def State.mergeStops (s : State) (a n : Nat) : List ReadStop := (partWritten a n).filter s.badStop

/-- The fabric fault codes (Table 11.8). -/
def faultAddrRange : Nat := 1
def faultAccessKind : Nat := 2
def faultPoison : Nat := 3
def faultUnreachable : Nat := 4
def faultFunctionDown : Nat := 5
def faultRemoteAccess : Nat := 6

/-- A fabric fault is recorded until cleared: the first one stands (R304). -/
def State.fabricErr (s : State) (code node addr : Nat) : State :=
  if s.fld Reg.fabricErr 0 0 = 1 then s
  else (s.setReg Reg.fabricErr (code * 2 ^ 24 + node * 2 ^ 8 + 1)).setReg Reg.fabricErrAddr (addr % 2 ^ 48)

/-- Bytes as a load shows them: unbacked ones and those of a clearing are zero (R278, R18). -/
def State.shownBytes (s : State) (a n : Nat) : List Byte :=
  (List.range n).map fun i => if s.unbacked (a + i) || s.inClearing (a + i) then 0 else s.byteAt (a + i)

/-! ### Queue-pair contexts (11_links.md R306) -/

/-- Node-local address of a queue-pair context. -/
def State.qpContext (s : State) (i : Nat) : Nat := s.fld Reg.roceCfg 63 12 * 4096 + 64 * i

/-- Queue pairs that ROCE_CFG counts. -/
def State.qpCount (s : State) : Nat := min 256 (s.fld Reg.roceCfg 8 0)

/-- Whether a queue pair is in STATE 1. -/
def State.qpIsReady (s : State) (i : Nat) : Bool := s.fab.qps.any fun q => q.index = i ∧ q.state = 1

/-- The queue pair whose context a byte belongs to. -/
def State.qpAt (s : State) (a : Nat) : Option Nat :=
  let b := s.qpContext 0
  if b ≤ a ∧ a < b + 64 * s.qpCount then some ((a - b) / 64) else none

/-- The whole context is read in the ACLK of the write of STATE 1; the queue pair starts at the PSNs it gives and the
port rate. -/
def State.qpReady (s : State) (i : Nat) : State :=
  let d := s.bytesAt (s.qpContext i) 64
  let q : QueuePair :=
    { index := i, ctx := d, state := 1, sqPsn := fieldAt d 12 3, rqPsn := fieldAt d 56 3, unacked := [], retries := 0,
      rnrRetries := 0, recvIdx := 0, recvLen := 0, recvWrite := none, nakSent := false, rate := s.linkRate (fieldAt d 7 1),
      lastCut := 0, cutYet := false }
  { s with fab := { s.fab with qps := (s.fab.qps.filter fun x => x.index ≠ i) ++ [q] } }

/-- A write has covered the STATE byte of a context: 1 makes the device read it, 0 resets the queue pair. -/
def State.qpWritten (s : State) (a n : Nat) : State :=
  (List.range s.qpCount).foldl (fun s i =>
    let p := s.qpContext i + 2
    if p < a ∨ a + n ≤ p ∨ s.qpIsReady i then s
    else if s.byteAt p = 1 then s.qpReady i
    else if s.byteAt p = 0 then { s with fab := { s.fab with qps := s.fab.qps.filter fun x => x.index ≠ i } }
    else s) s

/-- A store of bytes at an address; bytes of a context in STATE 1 are ignored (Table 11.11). -/
def State.storeOpen : List Byte → Nat → State → State
  | [], _, s => s
  | b :: bs, a, s =>
    State.storeOpen bs (a + 1) (match s.qpAt a with
      | some i => if s.qpIsReady i then s else s.storeByte a b
      | none => s.storeByte a b)

/-! ### Placement of logical cores (09 R243, R246) -/

/-- Copse at an index of the snake order (R246). -/
def snake (q : Nat) : Nat :=
  let y := q / 16
  let i := q % 16
  let x := if y % 2 = 1 then 15 - i else i
  64 * (2 * (y / 8) + x / 8) + 8 * (y % 8) + x % 8

/-- The copse that carries a base copse. -/
def State.carrier (s : State) (b : Nat) : Nat := ((s.imp.carriers.find? fun x => x.1 = b).map (·.2)).getD b

/-- The service core that carries part `p` of logical core `k`. -/
def State.coreOf (s : State) (k p : Nat) : Nat :=
  let f := (s.imp.cur.map (·.spread)).getD 1
  let b := f * k + p
  16 * s.carrier (snake (b / 16)) + b % 16

/-- The service cores that carry a logical core. -/
def State.coresOf (s : State) (k : Nat) : List Nat :=
  (List.range ((s.imp.cur.map (·.spread)).getD 1)).map (s.coreOf k)

/-- The service cores that carry a unit. -/
def State.busyCores (s : State) : List Nat :=
  ((List.range ((s.imp.cur.map (·.cores)).getD 0)).map s.coresOf).flatten

/-- Whether a copse carries a unit of the imposition in force. -/
def State.carriesUnit (s : State) (c : Nat) : Bool := s.busyCores.any fun k => k / 16 = c

/-- The copses that carry units are in RUN: the wake of each has begun early enough for the work that comes (17 R407). -/
def State.wakeUnits (s : State) : State :=
  { s with pwr := { s.pwr with
    gates := s.pwr.gates.filter fun g => ! s.carriesUnit g.1
    waking := s.pwr.waking.filter fun c => ! s.carriesUnit c } }

/-! ### What a failed copse ends (R257) -/

/-- Whether a command holds the imposition it latched (R248): every group but admin, Imposer, tally and
security. -/
def Cmd.holds (c : Cmd) : Bool := decide (functionOf c.opcode < 10)

/-- The state as a command finds the placement: one that holds the DRAINING imposition finds that one's units and
carriers (R248). -/
def State.placedFor (s : State) (c : Cmd) : State :=
  match s.imp.draining with
  | none => s
  | some d =>
    if c.holds ∧ c.latch.imposition = d.imp.number then
      { s with imp := { s.imp with cur := some d.imp, carriers := d.carriers } }
    else s

/-- Whether a field of a packet names a tensor whose data lie in the core memories (Table 9.3, 07 R196). -/
def State.inCores (s : State) (c : Cmd) (i : Nat) : Bool :=
  s.tens.any fun t => decide (t.handle = c.par i 4) &&
    (decide (t.role = 0 ∨ t.role = 3 ∨ t.role = 5) || (decide (t.role = 4) && ! t.spilled))

/-- Whether a command works in the cores that carry units: it runs on arrays or vector engines, or reads or writes what
their memories hold. Every tensor by token has a row in each unit (R243). -/
def State.usesUnits (s : State) (c : Cmd) : Bool :=
  match c.opcode / 256 with
  | 4 => decide (c.opcode ≠ 0x0404)
  | 5 => decide (c.opcode ≠ 0x0504)
  | 6 => decide (c.opcode ≠ 0x0604 ∧ c.opcode ≠ 0x0605)
  | 7 => decide (c.opcode ≠ 0x0705 ∧ c.opcode ≠ 0x0707)
  | 8 => s.inCores c 32 || s.inCores c 36
  | 9 => decide (c.opcode = 0x0903)
  | 10 => true
  | _ => false

/-- The fabric ranges that a command of the memory and copy group reads (Table 10.7). -/
def memReads (c : Cmd) : List (Nat × Nat) :=
  match c.opcode with
  | 0x0201 => [(c.par 32 8, c.par 48 8)]
  | 0x0203 => (List.range (c.par 68 4)).map fun i => ((c.par 32 8 + i * c.par 48 8) % 2 ^ 64, c.par 64 4)
  | 0x0204 => [(c.par 32 8, c.par 40 8)]
  | _ => []

/-- The fabric ranges that a command of the memory and copy group writes (Table 10.7). -/
def memWrites (c : Cmd) : List (Nat × Nat) :=
  match c.opcode with
  | 0x0201 => [(c.par 40 8, c.par 48 8)]
  | 0x0202 => [(c.par 32 8, c.par 40 8)]
  | 0x0203 => (List.range (c.par 68 4)).map fun i => ((c.par 40 8 + i * c.par 56 8) % 2 ^ 64, c.par 64 4)
  | _ => []

/-- The node a fabric address names (R281). -/
def nodeOf (a : Nat) : Nat := a / 2 ^ 48 % 65536

/-- The node-local part of a fabric address. -/
def localOf (a : Nat) : Nat := a % 2 ^ 48

/-- The ranges of this node's memory that a command of the memory and copy group names. -/
def State.localRanges (s : State) (c : Cmd) : List (Nat × Nat) :=
  ((memReads c ++ memWrites c).filter fun r => nodeOf r.1 = s.node ∧ 0 < r.2).map fun r => (localOf r.1, r.2)

/-- Whether a command uses a service core: its unit, or its window. -/
def State.usesCore (s : State) (c : Cmd) (k : Nat) : Bool :=
  (s.usesUnits c && s.busyCores.contains k) || (s.localRanges c).any fun r =>
    decide (regionOf r.1 = .window) && decide (0x100000000000 + 0x100000 * k < r.1 + r.2) &&
    decide (r.1 < 0x100000000000 + 0x100000 * (k + 1))

/-- Whether a command uses a core of a copse, in the placement it latched. -/
def State.usesCopse (s : State) (c : Cmd) (copse : Nat) : Bool :=
  (List.range 16).any fun l => (s.placedFor c).usesCore c (16 * copse + l)

/-- Commands of the imposition that use a copse complete ABORTED, when it has failed (R257). -/
def State.abortHolders (s : State) (copse : Nat) : State :=
  { s with cmd := { s.cmd with cmds := s.cmd.cmds.map fun c =>
      if (c.phase = .dispatched ∨ c.phase = .waiting) ∧ c.holds ∧ c.latch.imposition ≠ 0 ∧ s.usesCopse c copse then
        { c with phase := .done, status := stAborted, detail := 0, result := 0, time := s.time % 2 ^ 48 }
      else c } }

/-- A copse joins the retired ones (R246). -/
def State.retireCopse (s : State) (k c : Nat) : State :=
  let rest := s.imp.out.filter fun x => x.copse ≠ c
  let v := ((s.imp.out.find? fun x => x.copse = c).bind fun x => x.vacated)
  { s with imp := { s.imp with out := rest ++ [⟨c, some k, v⟩], nextChange := s.imp.nextChange + 1 } }

/-- A copse is found with fewer than 16 good slots (R16, R252): RETIRING, its retirement pending, while an
imposition is in force; RETIRED at once otherwise, with 16 cores fewer in service at once (log 127, DESIGN CHOICE:
02 R44 lets the count change only when an imposition publishes). -/
def State.copseShort (s : State) (c : Nat) : State :=
  if s.imp.cur.isSome then (s.setFld (Reg.copseState c) 31 28 4).capacityChange (.retire c)
  else
    let s := s.setFld (Reg.copseState c) 31 28 3
    let s := s.setFld Reg.imposerCapacity 31 16 (s.fld Reg.imposerCapacity 31 16 - 16)
    s.retireCopse s.imp.nextChange c

/-- The slot that carries a position of a copse (R15). -/
def State.slotOf (s : State) (copse pos : Nat) : Nat :=
  if s.fld (Reg.copseState copse) 21 17 = pos then 16 else pos

/-- An uncorrectable word read from the core SRAM, or the accumulator buffer, of a service core (R92): CORE_MEM_s
records it and the position is queued for the next pass of the sweep. In an UNSPARED copse the slot is lost with
it, and the copse is left with fewer than 16 (R257). -/
def State.sramUncorrectable (s : State) (core : Nat) (acc : Bool) : State :=
  let c := core / 16
  let s := if acc then s.setFld (Reg.coreMem core) 1 1 1 else s.setFld (Reg.coreMem core) 0 0 1
  let s := { s with imp := { s.imp with queuedSlots := s.imp.queuedSlots ++ [(c, core % 16)] } }
  if s.fld (Reg.copseState c) 31 28 = 2 then
    let slot := s.slotOf c (core % 16)
    let s := s.setReg (Reg.copseState c) (putBits (s.reg (Reg.copseState c)) slot slot 0)
    ((s.copseShort c).abortHolders c).abortSteps
  else s

/-- Whether the slot that carries a service core has failed while its copse waits for its retirement (R16, R28). -/
def State.slotFailed (s : State) (k : Nat) : Bool :=
  decide (s.fld (Reg.copseState (k / 16)) 31 28 = 4) &&
  decide (bit (s.reg (Reg.copseState (k / 16))) (s.slotOf (k / 16) (k % 16)) = 0)

/-- Whether a command uses a slot that has failed (R16, R28): it completes ABORTED. -/
def State.usesFailed (s : State) (c : Cmd) : Bool :=
  c.holds && (List.range 4096).any fun k => s.slotFailed k && s.usesCore c k

/-- The effect of meeting an uncorrectable read (R92, R275). -/
def State.stopEffect (s : State) : ReadStop → State
  | .none => s
  | .granule g => s.hbmUncorrectable (64 * g)
  | .word a => s.sramUncorrectable ((a - 0x100000000000) / 0x100000) (decide (wordBytes a = 4))

/-- A best-effort load of HBM or core-window bytes (R275, R278, R18): the state after it, and the data or a
fabric fault; an uncorrectable word of a core memory gives POISON too (log 128). Unbacked bytes and bytes of a clearing
read as zero. -/
def State.loadBytes (s : State) (a n : Nat) : State × Except Nat (List Byte) :=
  match s.readStop a n with
  | .none =>
    let s := if (pages a n).any s.unbackedPage && decide (regionOf a = .hbm) then s.unbackedHit else s
    let s := s.clearingHit a n
    (s, .ok (s.shownBytes a n))
  | x => (s.stopEffect x, .error faultPoison)

/-- The merge of a part-written granule or word meets an uncorrectable read (R92, R282): the write is not applied, and
POISON_READ is set for a granule. -/
def State.mergeMet (s : State) (x : ReadStop) : State :=
  match x with
  | .granule _ => (s.stopEffect x).setFld Reg.hbmStatus 1 1 1
  | _ => s.stopEffect x

/-- Whether a byte lies in one of a list of granules and words. -/
def inStops (l : List ReadStop) (a : Nat) : Bool := l.any fun x => match x with
  | .none => false
  | .granule g => decide (a / 64 = g)
  | .word w => decide (w ≤ a ∧ a < w + wordBytes w)

/-- A best-effort store of HBM or core-window bytes: the state after it, and a fabric fault if the merge of a part-written
granule or word is uncorrectable; granules and words are written apart, so the others hold what was stored (R282). -/
def State.saveBytes (s : State) (a : Nat) (d : List Byte) : State × Option Nat :=
  let n := d.length
  let bad := s.mergeStops a n
  let s := bad.foldl State.mergeMet s
  let s := if (pages a n).any s.unbackedPage && decide (regionOf a = .hbm) then s.unbackedHit else s
  let s := s.clearingHit a n
  let s := if bad.isEmpty then State.storeOpen d a s
    else d.zipIdx.foldl (fun s p => if inStops bad (a + p.2) then s else State.storeOpen [p.1] (a + p.2) s) s
  ((s.clearPoison a n).qpWritten a n, if bad.isEmpty then none else some faultPoison)

end Sys2Proof.Machine
end

