-- ==== Sys2Proof/Machine/Tensors.lean ====
section
/-! DEFINITION. Declared tensors: shape, elements with their block scales (03 R72, R73), editions and their
references (08 R212 to R215). A handle of 0xFFFF_FFFF names no tensor. -/

namespace Sys2Proof.Machine

/-- No tensor, or "current" in an edition field. -/
def noHandle : Nat := 0xFFFFFFFF

/-- The live tensor with a handle, placed or not. -/
def State.declared (s : State) (h : Nat) : Option Tensor := s.tens.find? fun t => t.handle = h

/-- The tensor a command may name: declared and placed (R239). A command dispatched after the tensor's release has
its handle fields changed at its dispatch (R242). -/
def State.tensor (s : State) (h : Nat) : Option Tensor :=
  match s.declared h with
  | some t => if t.placed then some t else none
  | none => none

/-- A tensor changed. -/
def State.updTensor (s : State) (h : Nat) (f : Tensor → Tensor) : State :=
  { s with tens := s.tens.map fun t => if t.handle = h then f t else t }

/-- The product of a list of lengths. -/
def product (l : List Nat) : Nat := l.foldl (· * ·) 1

/-- Number of elements. -/
def Tensor.size (t : Tensor) : Nat := product t.dims

/-- The row width: a row is one index of axis 0, at the full width of the axes after it (R27, R243). -/
def Tensor.width (t : Tensor) : Nat := product t.dims.tail

/-- Number of rows, the length of axis 0. -/
def Tensor.rows (t : Tensor) : Nat := t.dims.headD 1

/-- The coordinates of a logical index, outermost first. -/
def coords : List Nat → Nat → List Nat
  | [], _ => []
  | _ :: ds, i => let r := product ds; i / max r 1 :: coords ds (i % max r 1)

/-- The logical index of coordinates. -/
def indexOf (dims cs : List Nat) : Nat := (dims.zip cs).foldl (fun i p => i * p.1 + p.2) 0

/-- The shape of a companion scale tensor (R240): axis BLOCK_AXIS has length ⌈n ÷ 32⌉. -/
def scaleDims (dims : List Nat) (axis : Nat) : List Nat := dims.modify axis fun n => ceilDiv n 32

/-- The index of the scale byte of an element (R72). -/
def scaleIndex (dims : List Nat) (axis i : Nat) : Nat :=
  indexOf (scaleDims dims axis) ((coords dims i).modify axis (· / 32))

/-- What an unlisted element reads as (log 2). -/
def codeDefault (_ : Nat) : Word32 := 0

/-- An element code. -/
def codeAt (d : Codes) (i : Nat) : Nat := (Sparse.get codeDefault d i).toNat

/-- Element codes set. -/
def setCode (d : Codes) (i c : Nat) : Codes := Sparse.set codeDefault d i (BitVec.ofNat 32 c)

/-- Consecutive element codes set. -/
def setCodes (d : Codes) (i : Nat) (cs : List Nat) : Codes :=
  Sparse.setMany codeDefault d i (cs.map (BitVec.ofNat 32))

/-- The edition a weight reads as current (R212). -/
def Tensor.currentEdition (t : Tensor) : Nat := t.updates + 1

/-- A kept edition of a weight. -/
def Tensor.edition (t : Tensor) (e : Nat) : Option Edition := t.editions.find? fun x => x.number = e

/-- The data and scale codes a tensor reads as, for a weight those of edition `e`. -/
def State.contents (s : State) (t : Tensor) (e : Nat) : Codes × Codes :=
  if t.role = 1 then
    match t.edition e with
    | some x => (x.data, x.scales)
    | none => ([], [])
  else
    (t.data, match t.scaleOf with
      | some h => (match s.tens.find? fun u => u.handle = h with
        | some u => u.data
        | none => [])
      | none => [])

/-- One element as an operand: its value, its scale byte and its pattern (R73). -/
def elemAt (t : Tensor) (c : Codes × Codes) (i : Nat) : Elem :=
  let code := codeAt c.1 i
  ⟨decodeElem t.fmt code, if isMX t.fmt then codeAt c.2 (scaleIndex t.dims t.blockAxis i) else 127, code⟩

/-- The value an element stands for, its scale applied (R72). -/
def Elem.value (e : Elem) : Val :=
  if e.x = 255 then .nan
  else match e.v with
    | .fin n m => .fin n (m * pow2 ((e.x : Int) - 127))
    | v => v

/-- The real value an element of a tensor stands for. -/
def elemVal (t : Tensor) (c : Codes × Codes) (i : Nat) : Val := (elemAt t c i).value

/-- Write element codes, and scale codes, of a tensor that is not a weight. -/
def State.writeData (s : State) (h : Nat) (f : Codes → Codes) : State := s.updTensor h fun t => { t with data := f t.data }

/-- Write the scale codes of a tensor's companion. -/
def State.writeScales (s : State) (t : Tensor) (f : Codes → Codes) : State :=
  match t.scaleOf with
  | some h => s.writeData h f
  | none => s

/-- References on an edition (R214): 1 while current, its host holds, the save-record entries that name it, and
the commands in flight that latched it. -/
def State.references (s : State) (t : Tensor) (e : Edition) : Nat :=
  ofBool (decide (e.number = t.currentEdition)) + e.holds +
  (s.tens.map fun u => u.record.countP fun r => decide (r = (t.handle, e.number))).sum +
  s.cmd.cmds.countP fun c => c.latch.editions.contains (t.handle, e.number)

/-- Raise a list of tallies by 1 each, in order. -/
def State.raiseAll (s : State) (l : List Nat) : State := l.foldl (fun s t => s.tallyAdd t 1) s

/-- Retire the editions of one weight whose reference count is zero (R214). -/
def State.retireOf (s : State) (t : Tensor) : State :=
  let gone := t.editions.filter fun e => s.references t e = 0
  if gone.isEmpty then s
  else
    let s := s.updTensor t.handle fun u => { u with editions := u.editions.filter fun e => ! gone.contains e }
    let s := s.addSat Reg.editionsRetired 31 0 gone.length
    s.raiseAll (gone.filterMap fun e => e.retTally)

/-- Retire every edition whose reference count is zero (R214). -/
def State.retire (s : State) : State :=
  s.tens.foldl (fun s t => if t.role = 1 then s.retireOf t else s) s

/-- Whether a command in flight names a handle in one of its first-class handle fields. -/
def Cmd.names (fields : List Nat) (c : Cmd) (h : Nat) : Bool := fields.any fun i => decide (c.par i 4 = h)

/-- The byte positions of the handle fields of each opcode's parameter block, in order of appearance
(R241; the parameter tables). -/
def handleFields : Nat → List Nat
  | 0x0302 => [32]
  | 0x0401 => [32, 36, 40]
  | 0x0402 => [32, 36, 40]
  | 0x0403 => [32, 36, 40]
  | 0x0501 => [44, 48, 52, 56, 60, 64]
  | 0x0502 => [32, 36]
  | 0x0503 => [32, 36, 40]
  | 0x0601 => [32, 40, 44, 68, 72, 76, 80, 84, 92, 96]
  | 0x0602 => [32, 40, 44, 68, 72, 76, 80, 84, 92, 96, 144, 148, 152, 156]
  | 0x0603 => [36, 40, 44, 48, 52]
  | 0x0606 => [40, 44, 48]
  | 0x0607 => [32, 40, 44, 68, 72, 76, 80, 84, 92, 96, 144, 148, 152, 156]
  | 0x0701 => [32, 36, 40, 44, 48]
  | 0x0702 => [32, 36, 40, 44]
  | 0x0703 => [32]
  | 0x0704 => [32]
  | 0x0706 => [32, 36, 40]
  | 0x0707 => [32]
  | 0x0801 => [32, 36]
  | 0x0802 => [32, 36]
  | 0x0803 => [32, 36]
  | 0x0804 => [32, 36]
  | 0x0805 => [32, 36]
  | 0x0806 => [32, 36]
  | 0x0903 => [36, 40, 44]
  | 0x0A01 => [32, 36, 40]
  | 0x0A02 => [32, 36, 40]
  | 0x0A03 => [32, 36]
  | 0x0A04 => [32, 36, 40]
  | _ => []

/-- The handle fields through which an opcode reads a weight, each with the byte of the edition field that names
the edition (none: always the current one). -/
def weightReads : Nat → List (Nat × Option Nat)
  | 0x0401 => [(32, none), (36, some 64)]
  | 0x0402 => [(32, none), (36, some 64)]
  | 0x0403 => [(32, none), (36, none)]
  | 0x0501 => [(44, none), (48, none), (52, none), (56, none), (60, none), (64, none)]
  | 0x0502 => [(32, none)]
  | 0x0503 => [(32, none), (36, none)]
  | 0x0706 => [(32, none)]
  | 0x0801 => [(32, none)]
  | 0x0802 => [(32, none)]
  | 0x0803 => [(32, none)]
  | 0x0804 => [(32, none)]
  | 0x0805 => [(32, none)]
  | 0x0806 => [(32, none)]
  | 0x0A01 => [(32, none), (36, some 64)]
  | 0x0A02 => [(32, none), (36, some 64)]
  | 0x0A04 => [(32, none), (36, some 64)]
  | _ => []

/-- The editions a command latches at dispatch (R213): the current edition of each weight it reads as current,
or the edition it names, where that is kept. The backward commands take theirs from a save record (R206). -/
def State.latchEditions (s : State) (c : Cmd) : List (Nat × Nat) :=
  (weightReads c.opcode).filterMap fun f =>
    match s.tensor (c.par f.1 4) with
    | none => none
    | some t =>
      if t.role ≠ 1 then none
      else
        let e := match f.2 with
          | some i => if c.par i 4 = noHandle then t.currentEdition else c.par i 4
          | none => t.currentEdition
        if (t.edition e).isSome then some (t.handle, e) else none

/-- The edition of a weight a command latched; for a frozen tensor its one edition. -/
def Cmd.latched (c : Cmd) (t : Tensor) : Option Nat :=
  if t.role = 1 then (c.latch.editions.find? fun p => p.1 = t.handle).map (·.2) else some 1

/-- Whether a tensor is an FP32 accumulator tensor of the accumulator buffer: one of role ACCUM, or a weight gradient, the
usual user (04 R113, Table 9.3). -/
def accumulator (t : Tensor) : Bool := decide (t.role = 5 ∨ t.role = 4)

/-- The first fault of a list of checks, in the order of the DETAIL table they come from. -/
def firstFault (l : List (Bool × Nat)) : Option Nat := (l.find? fun x => x.1).map (·.2)

/-- The size and rank of this module on an axis of the imposition in force: 1 D, 2 P, 3 S, 4 T. -/
def State.axis (s : State) (a : Nat) : Option (Nat × Nat) :=
  match s.imp.cur with
  | some i => if 1 ≤ a ∧ a ≤ 4 then some (i.axisSize.getD (a - 1) 1, i.axisRank.getD (a - 1) 0) else none
  | none => none

/-- Bits of one row of the innermost axis, padded as R71 says. -/
def rowBits (fmt n : Nat) : Nat :=
  match elemBits fmt with
  | 6 => (n + 3) / 4 * 24
  | 4 => (n + 1) / 2 * 8
  | b => b * n

/-- Bytes of a tensor's data in logical order (R71, R316). -/
def Tensor.byteLen (t : Tensor) : Nat := product t.dims.dropLast * (rowBits t.fmt (t.dims.getLastD 1) / 8)

end Sys2Proof.Machine
end

