-- ==== Sys2Proof/Machine/Bytes.lean ====
section
/-! DEFINITION. The bytes of a tensor in logical order (03 R71, 12 R316), and pages of HBM (09 R247). -/

namespace Sys2Proof.Machine

/-- Bytes of one row of the innermost axis (R71). -/
def Tensor.rowBytes (t : Tensor) : Nat := max 1 (rowBits t.fmt (t.dims.getLastD 1) / 8)

/-- Byte `i` of a tensor whose element codes are `c`: padding elements read as zero (R71). -/
def tensorByte (t : Tensor) (c : Codes) (i : Nat) : Nat :=
  let n := t.dims.getLastD 1
  let row := i / t.rowBytes
  let off := i % t.rowBytes
  let code := fun j => if j < n then codeAt c (row * n + j) else 0
  match elemBits t.fmt with
  | 4 => code (2 * off) % 16 + 16 * (code (2 * off + 1) % 16)
  | 6 =>
    let m := off / 3
    let w := ((List.range 4).map fun k => code (4 * m + k) % 64 * 2 ^ (6 * k)).sum
    w / 2 ^ (8 * (off % 3)) % 256
  | b => let k := b / 8; code (off / k) / 2 ^ (8 * (off % k)) % 256

/-- `n` bytes from byte `i`. -/
def tensorBytes (t : Tensor) (c : Codes) (i n : Nat) : List Byte :=
  (List.range n).map fun k => BitVec.ofNat 8 (tensorByte t c (i + k))

/-- `n` bytes from byte `i` as a little-endian number. -/
def tensorNat (t : Tensor) (c : Codes) (i n : Nat) : Nat := leNat (tensorBytes t c i n)

/-- The element codes with byte `i` of the tensor replaced. -/
def setTensorByte (t : Tensor) (c : Codes) (i v : Nat) : Codes :=
  let n := t.dims.getLastD 1
  let row := i / t.rowBytes
  let off := i % t.rowBytes
  let put := fun (c : Codes) j x => if j < n then setCode c (row * n + j) x else c
  match elemBits t.fmt with
  | 4 => put (put c (2 * off) (v % 16)) (2 * off + 1) (v / 16 % 16)
  | 6 =>
    let m := off / 3
    let code := fun j => if j < n then codeAt c (row * n + j) else 0
    let w := ((List.range 4).map fun k => code (4 * m + k) % 64 * 2 ^ (6 * k)).sum
    let w := putBits w (8 * (off % 3) + 7) (8 * (off % 3)) v
    (List.range 4).foldl (fun c k => put c (4 * m + k) (w / 2 ^ (6 * k) % 64)) c
  | b =>
    let k := b / 8
    let j := off / k
    put c j (putBits (codeAt c (row * n + j)) (8 * (off % k) + 7) (8 * (off % k)) v)

/-- The element codes with bytes from byte `i` replaced. -/
def setTensorBytes (t : Tensor) : List Byte → Nat → Codes → Codes
  | [], _, c => c
  | b :: bs, i, c => setTensorBytes t bs (i + 1) (setTensorByte t c i b.toNat)

/-! ### Named tensors -/

/-- A named tensor: none when its field names none. -/
def State.named (s : State) (h : Nat) : Option (Tensor × (Codes × Codes)) :=
  if h = noHandle then none else (s.tensor h).map fun t => (t, s.contents t t.currentEdition)

/-- The 32-bit word of a tensor at an index, or a default when no tensor is named. -/
def wordAt (x : Option (Tensor × (Codes × Codes))) (i d : Nat) : Nat :=
  match x with
  | none => d
  | some (t, c) => tensorNat t c.1 (4 * i) 4

/-- Whether a handle names a tensor that is not there. -/
def State.unnamed (s : State) (h : Nat) : Bool := decide (h ≠ noHandle) && (s.tensor h).isNone

/-- Whether a named tensor holds fewer bytes than a command reads of it. -/
def State.tooShort (s : State) (h n : Nat) : Bool := (s.named h).any fun x => x.1.byteLen < n

/-! ### Pages of HBM (R247) -/

/-- Pages of one channel: 384 GiB in pages of 4 KiB over 256 channels. -/
def channelPages : Nat := 393216

/-- Whether a channel takes pages: it is in service and not vacated (R253). -/
def State.channelUp (s : State) (ch : Nat) : Bool := ! s.mem.outChannels.contains ch && ! s.mem.vacated.contains ch

/-- Pages of a channel that lie in the coherent window, where the Imposer places nothing (15 R373). -/
def State.windowPages (s : State) : Nat := s.window.2 / 2 ^ 20

/-- Pages of a channel that are taken, whether by their own address or by a moved page. -/
def State.channelUsed (s : State) (ch : Nat) : Nat :=
  (s.mem.usedPages.countP fun p => decide (p % 256 = ch) && ! s.mem.remap.any fun r => r.1 = p) +
  (s.mem.remap.countP fun r => r.2 % 256 = ch) + s.windowPages

/-- Pages free in the channels that take pages. -/
def State.freePages (s : State) : Nat :=
  ((List.range 256).map fun ch => if s.channelUp ch then channelPages - s.channelUsed ch else 0).sum

/-- The channel that the next page goes to: with a free page, after the one that took the last. -/
def State.nextChannel (s : State) : Option Nat :=
  ((List.range 256).map fun i => (s.mem.lastChannel + 1 + i) % 256).find? fun ch =>
    s.channelUp ch && decide (s.channelUsed ch < channelPages)

/-- A free page of a channel: which one, a free number says. -/
def State.pickPage (s : State) (ch : Nat) : Nat × State :=
  let f := s.free
  let page := fun k => ch + 256 * ((f.1 + k) % channelPages)
  let taken := fun p => s.mem.usedPages.contains p || (s.mem.remap.any fun r => r.2 = p) || s.inWindow (4096 * p)
  let k := ((List.range (s.mem.usedPages.length + s.mem.remap.length + s.windowPages + 1)).find? fun k =>
    ! taken (page k)).getD 0
  (page k, f.2)

/-- Take `n` pages, striped over the channels (R247). -/
def State.takePages : Nat → State → List Nat → List Nat × State
  | 0, s, l => (l, s)
  | n + 1, s, l =>
    match s.nextChannel with
    | none => (l, s)
    | some ch =>
      let p := s.pickPage ch
      let t := { p.2 with mem := { p.2.mem with usedPages := p.2.mem.usedPages ++ [p.1], lastChannel := ch } }
      State.takePages n t (l ++ [p.1])

/-- Pages are given back. -/
def State.givePages (s : State) (l : List Nat) : State :=
  { s with mem := { s.mem with
    usedPages := s.mem.usedPages.filter fun p => ! l.contains p
    remap := s.mem.remap.filter fun r => ! l.contains r.1 } }

/-- Pages that a number of bytes takes. -/
def pagesFor (n : Nat) : Nat := ceilDiv n 4096

end Sys2Proof.Machine
end

