-- ==== Sys2Proof/Machine/Sfu.lean ====
section
/-! DEFINITION. The special functions and the factory seed tables (05_vector_engine.md R126 to R130). Real constants
are held as integers scaled by 2^240; the entries of Table 5.6 are computed in fixed point with 2^−240 steps, or
exactly, which decides their rounding since no entry falls on a tie. -/

namespace Sys2Proof.Machine

/-! ### Fixed-point constants and functions -/

/-- The scale of the fixed-point constants. -/
def fxOne : Int := 2 ^ 240

/-- π, ln 2, log2 e, 2/√π and 512/π, times 2^240, rounded down. -/
def fxPi : Int := 5550713758724461735233077129787137796835226094488409880962709825408003150
def fxLn2 : Int := 1224685061431752149387114016819916847747660333428801675508466606222838698
def fxLog2e : Int := 2549021498364996158492822670917473327442576334123703768170874065315799874
def fxTwoOverSqrtPi : Int := 1993673419339784460258911580658175606905582979199981906769926743717419468
def fx512OverPi : Int := 287951302704011335554047259319371775809757677061514401192297906038181379013

/-- A constant as a rational. -/
def fxRat (x : Int) : Rat := mkRat x (2 ^ 240)

/-- Product of two fixed-point numbers. -/
def fxMul (a b : Int) : Int := a * b / fxOne

/-- Σ of a series whose next term is made from the last: `next k term`. -/
def fxSeries (next : Nat → Int → Int) : Nat → Nat → Int → Int → Int
  | 0, _, _, sum => sum
  | fuel + 1, k, term, sum => let t := next (k + 1) term; fxSeries next fuel (k + 1) t (sum + t)

/-- e to a fixed-point power. -/
def fxExp (x : Int) : Int := fxSeries (fun k t => fxMul t x / k) 120 0 fxOne fxOne

/-- sin and cos of a fixed-point number. -/
def fxSin (x : Int) : Int := fxSeries (fun k t => -(fxMul (fxMul t x) x) / (2 * k * (2 * k + 1))) 40 0 x x
def fxCos (x : Int) : Int := fxSeries (fun k t => -(fxMul (fxMul t x) x) / (2 * k * (2 * k - 1))) 40 0 fxOne fxOne

/-- The terms of ∫ e^(−t²) dt: (−1)^k x^(2k+1) ÷ (k! (2k+1)). -/
def fxErfSum (x : Int) : Nat → Nat → Int → Int → Int
  | 0, _, _, sum => sum
  | fuel + 1, k, p, sum => fxErfSum x fuel (k + 1) (-(fxMul (fxMul p x) x) / (k + 1)) (sum + p / (2 * k + 1))

/-- erf of a fixed-point number. -/
def fxErf (x : Int) : Int := fxMul fxTwoOverSqrtPi (fxErfSum x 120 0 x 0)

/-- tanh of a fixed-point number. -/
def fxTanh (x : Int) : Int := let e := fxExp (2 * x); (e - fxOne) * fxOne / (e + fxOne)

/-- The terms of artanh: z^(2k+1) ÷ (2k+1). -/
def fxArtanhSum (z : Int) : Nat → Nat → Int → Int → Int
  | 0, _, _, sum => sum
  | fuel + 1, k, p, sum => fxArtanhSum z fuel (k + 1) (fxMul (fxMul p z) z) (sum + p / (2 * k + 1))

/-- log2 of a fixed-point number in [1, 2]. -/
def fxLog2 (x : Int) : Int :=
  let z := (x - fxOne) * fxOne / (x + fxOne)
  fxMul fxLog2e (2 * fxArtanhSum z 90 0 z 0)

/-- The nearest integer to 2^b times a fixed-point number. -/
def fxRound (b : Nat) (x : Int) : Nat := ((x * 2 ^ b + fxOne / 2) / fxOne).toNat

/-- A rational as a fixed-point number. -/
def fxOf (q : Rat) : Int := (q * (2 ^ 240 : Nat)).floor

/-- The square root of a fixed-point number. -/
def fxSqrt (x : Int) : Int := (Nat.sqrt ((x * fxOne).toNat) : Int)

/-! ### Factory seed tables (Table 5.6) -/

/-- c of RSQRT and SQRT. -/
def rootCentre (i : Nat) : Rat := if i < 128 then 1 + mkRat (2 * i + 1) 256 else 2 + mkRat (2 * (i - 128) + 1) 128

/-- Entry `i` of factory table `t`. -/
def factorySeed (t i : Nat) : Nat :=
  match t with
  | 0 => ((2 ^ 24 * 512 : Nat) * 2 + (512 + 2 * i + 1)) / (2 * (512 + 2 * i + 1))
  | 1 => fxRound 24 (fxOne * fxOne / fxSqrt (fxOf (rootCentre i)))
  | 2 => fxRound 23 (fxSqrt (fxOf (rootCentre i)))
  | 3 => fxRound 23 (fxExp (fxLn2 * i / 256))
  | 4 => if i = 0 then 0 else fxRound 24 (fxLog2 (fxOf (1 + mkRat (2 * i + 1) 512)))
  | 5 => min (fxRound 24 (fxTanh (fxOf (mkRat (2 * i + 1) 32)))) (2 ^ 24 - 1)
  | 6 => fxRound 24 (fxExp (-(fxLn2 * (2 * i + 1)) / 512))
  | 7 => min (fxRound 24 (fxErf (fxOf (mkRat (2 * i + 1) 128)))) (2 ^ 24 - 1)
  | 8 => fxRound 23 (fxSin (fxPi * i / 512))
  | _ => fxRound 23 (fxCos (fxPi * i / 512))

/-! ### Refinement arithmetic (R126) -/

/-- tr40. -/
def tr40 (y : Rat) : Rat :=
  if y = 0 then 0
  else
    let a := if y < 0 then -y else y
    let e := flog2 a
    let q := ((a * pow2 (39 - e)).floor : Rat) * pow2 (e - 39)
    if y < 0 then -q else q

/-- Truncated operations. -/
def tmul (a b : Rat) : Rat := tr40 (a * b)
def tadd (a b : Rat) : Rat := tr40 (a + b)
def tsub (a b : Rat) : Rat := tr40 (a - b)

/-- Horner's rule from the highest coefficient; each coefficient is tr40 of its exact value. -/
def horner (x : Rat) : List Rat → Rat
  | [] => 0
  | c :: cs => cs.foldl (fun p c => tadd (tmul p x) (tr40 c)) (tr40 c)

/-- Named constants (R126). -/
def cLn2 : Rat := tr40 (fxRat fxLn2)
def cL2e : Rat := tr40 (fxRat fxLog2e)
def cK : Rat := tr40 (fxRat fxTwoOverSqrtPi)
def cC1 : Rat := tr40 (fxRat fx512OverPi)

/-- A value truncated to `n` significant bits. -/
def truncBits (n : Nat) (y : Rat) : Rat :=
  let e := flog2 y
  ((y * pow2 ((n : Int) - 1 - e)).floor : Rat) * pow2 (e - n + 1)

/-- π/512 and its three parts P1, P2, P3 (R126). -/
def piOver512 : Rat := fxRat fxPi / 512
def cP1 : Rat := truncBits 24 piOver512
def cP2 : Rat := truncBits 24 (piOver512 - cP1)
def cP3 : Rat := tr40 (piOver512 - cP1 - cP2)

/-- The nearest integer, ties to even. -/
def rnint (y : Rat) : Int :=
  let m := y.floor
  let f := y - m
  if mkRat 1 2 < f ∨ (f = mkRat 1 2 ∧ m % 2 = 1) then m + 1 else m

/-- The seed tables a command latched: entry by table and index. -/
abbrev Seeds := Nat → Nat → Nat

/-- The reciprocal row on a positive value, without final rounding. -/
def recip (sd : Seeds) (q : Rat) : Rat :=
  let n := flog2 q
  let m := q * pow2 (-n)
  let i := (256 * (m - 1)).floor.toNat
  let step := fun (y : Rat) => tmul y (tsub 2 (tmul m y))
  step (step (tr40 (sd 0 i * pow2 (-24)))) * pow2 (-n)

/-- n, m and the index of rsqrt and sqrt for a positive value. -/
def rootReduce (x : Rat) : Int × Rat × Nat :=
  let n := (flog2 x) / 2
  let m := x * pow2 (-2 * n)
  (n, m, if m < 2 then (128 * (m - 1)).floor.toNat else 128 + (64 * (m - 2)).floor.toNat)

/-- y of rsqrt after both steps. -/
def rsqrtCore (sd : Seeds) (m : Rat) (i : Nat) : Rat :=
  let step := fun (y : Rat) => tmul (tmul y (tsub 3 (tmul (tmul m y) y))) (mkRat 1 2)
  step (step (tr40 (sd 1 i * pow2 (-24))))

/-- The exp2 row, without final rounding. -/
def exp2i (sd : Seeds) (x : Rat) : Rat :=
  let n := x.floor
  let f := x - n
  let i := (256 * f).floor.toNat
  let r := f - mkRat i 256
  let t := tmul r cLn2
  let p := horner t [mkRat 1 24, mkRat 1 6, mkRat 1 2, 1, 1]
  tmul (sd 3 i * pow2 (-23)) p * pow2 n

/-- a·P(a²) (R126). -/
def oddSeries (a : Rat) (p : List Rat) : Rat := tmul a (horner (tmul a a) p)

/-- tanh of a positive value (Table 5.3 row 5). -/
def tanhCore (sd : Seeds) (a : Rat) : Rat :=
  let p := [mkRat (-17) 315, mkRat 2 15, mkRat (-1) 3, 1]
  if a < mkRat 1 16 then oddSeries a p
  else if 16 ≤ a then 1
  else
    let i := (16 * a).floor.toNat
    let d := a - mkRat (2 * i + 1) 32
    let tt := tr40 (sd 5 i * pow2 (-24))
    let t := oddSeries d p
    let z := recip sd (tadd 1 (tmul tt t))
    tmul (tadd tt t) z

/-- sigmoid of a finite non-zero value (row 6). -/
def sigmoidCore (sd : Seeds) (x : Rat) : Rat :=
  let w := |x| * cL2e
  let z := if 160 ≤ w then 0 else
    let k := w.floor
    let f := w - k
    let i := (256 * f).floor.toNat
    let r := f - mkRat (2 * i + 1) 512
    let t := tmul (-r) cLn2
    tmul (sd 6 i * pow2 (-24)) (horner t [mkRat 1 24, mkRat 1 6, mkRat 1 2, 1, 1]) * pow2 (-k)
  let y := recip sd (tadd 1 z)
  if 0 < x then y else tmul z y

/-- erf of a positive value (row 7). -/
def erfCore (sd : Seeds) (a : Rat) : Rat :=
  if a < mkRat 1 64 then tmul cK (oddSeries a [mkRat (-1) 42, mkRat 1 10, mkRat (-1) 3, 1])
  else if 4 ≤ a then 1
  else
    let i := (64 * a).floor.toNat
    let c := mkRat (2 * i + 1) 128
    let d := a - c
    let dd := tmul cK (exp2i sd (tmul (-(tmul c c)) cL2e))
    let c2 := tr40 ((2 * c * c - 1) / 3)
    let c3 := tr40 ((3 * c - 2 * c * c * c) / 6)
    let q := tmul d (tadd 1 (tmul d (tadd (tr40 (-c)) (tmul d (tadd c2 (tmul d c3))))))
    tadd (sd 7 i * pow2 (-24)) (tmul dd q)

/-- sin, with the index advanced by `off` (rows 8 and 9). -/
def sinCore (sd : Seeds) (x : Rat) (off : Nat) : Rat :=
  let k := rnint (x * cC1)
  let d := ((x - k * cP1) - k * cP2) - k * cP3
  let j := ((k % 1024).toNat + off) % 1024
  let sj := tr40 (sd 8 (j % 256) * pow2 (-23))
  let cj := tr40 (sd 9 (j % 256) * pow2 (-23))
  let sdv := oddSeries d [mkRat 1 120, mkRat (-1) 6, 1]
  let cd := horner (tmul d d) [mkRat 1 24, mkRat (-1) 2, 1]
  let a := tadd (tmul sj cd) (tmul cj sdv)
  let b := tsub (tmul cj cd) (tmul sj sdv)
  match j / 256 with
  | 0 => a
  | 1 => b
  | 2 => -a
  | _ => -b

/-- log2 of a positive value (row 4). -/
def log2Core (sd : Seeds) (x : Rat) : Rat :=
  let n := flog2 x
  let m := x * pow2 (-n)
  let i := (256 * (m - 1)).floor.toNat
  let c := if i = 0 then (1 : Rat) else 1 + mkRat (2 * i + 1) 512
  let u := if i = 0 then tsub m 1 else tr40 (tmul (tsub m c) (sd 0 i) * pow2 (-24))
  let l := horner u [mkRat 1 5, mkRat (-1) 4, mkRat 1 3, mkRat (-1) 2, 1, 0]
  tadd (tadd n (sd 4 i * pow2 (-24))) (tmul cL2e l)

/-- A final value rounded once (R126), with OF where a finite argument gives an infinity (R128). -/
def sfuRound (q : Rat) : Val × Flags := rne32 q

/-- The special inputs of Table 5.4; none where the rule of Table 5.3 applies. -/
def sfuSpecial (fn : Nat) (x : Val) : Option (Val × Flags) :=
  let plus := fun (v : Val) => some (v, Flags.none)
  let bad : Option (Val × Flags) := some (.nan, Flags.onlyNV)
  let one : Val := .fin false 1
  match x with
  | .nan => bad
  | .inf neg => (match fn with
    | 0 => plus (.fin neg 0)
    | 1 => if neg then bad else plus (.fin false 0)
    | 2 => if neg then bad else plus (.inf false)
    | 3 => plus (if neg then .fin false 0 else .inf false)
    | 4 => if neg then bad else plus (.inf false)
    | 5 => plus (.fin neg 1)
    | 6 => plus (if neg then .fin false 0 else one)
    | 7 => plus (.fin neg 1)
    | _ => bad)
  | .fin neg m =>
    if m = 0 then (match fn with
      | 0 => some (.inf neg, Flags.onlyOF)
      | 1 => some (.inf neg, Flags.onlyOF)
      | 3 => plus one
      | 4 => some (.inf true, Flags.onlyOF)
      | 6 => plus (.fin false (mkRat 1 2))
      | 9 => plus one
      | _ => plus x)
    else match fn with
    | 1 => if neg then bad else none
    | 2 => if neg then bad else none
    | 4 => if neg then bad else if m = 1 then plus (.fin false 0) else none
    | 3 =>
      if ¬ neg ∧ 128 ≤ m then some (.inf false, Flags.onlyOF)
      else if neg ∧ 152 ≤ m then some (.fin false 0, Flags.onlyUF)
      else none
    | _ => none

/-- The rule of Table 5.3 on a finite non-zero value. -/
def sfuRule (sd : Seeds) (fn : Nat) (neg : Bool) (m : Rat) : Rat :=
  let x := if neg then -m else m
  let sgn := fun (q : Rat) => if neg then -q else q
  match fn with
  | 0 => sgn (recip sd m)
  | 1 => let r := rootReduce m; rsqrtCore sd r.2.1 r.2.2 * pow2 (-r.1)
  | 2 =>
    let r := rootReduce m
    let y := rsqrtCore sd r.2.1 r.2.2
    let step := fun (g : Rat) => tadd g (tmul (tmul (tsub r.2.1 (tmul g g)) y) (mkRat 1 2))
    step (step (tr40 (sd 2 r.2.2 * pow2 (-23)))) * pow2 r.1
  | 3 => exp2i sd x
  | 4 => log2Core sd m
  | 5 => sgn (tanhCore sd m)
  | 6 => sigmoidCore sd x
  | 7 => sgn (erfCore sd m)
  | 8 => sinCore sd x 0
  | _ => sinCore sd x 256

/-- One evaluation of a special function (R127, R128). -/
def sfu (sd : Seeds) (fn : Nat) (x : Val) : Val × Flags :=
  match sfuSpecial fn x with
  | some r => r
  | none => match x with
    | .fin neg m => sfuRound (sfuRule sd fn neg m)
    | v => (v, Flags.none)

end Sys2Proof.Machine
end

