-- ==== Sys2Proof/Machine/Lanes.lean ====
section
/-! DEFINITION. FP32 lane arithmetic (05_vector_engine.md R121, R124), row statistics (R135 to R137), the fused
activations (R134) and the merge of softmax statistics (R139), on values. Each operation adds the flags it raises
to those it is given. -/

namespace Sys2Proof.Machine

/-- A value with the flags raised so far. -/
abbrev VF := Val × Flags

/-- Raise a rounded result's flags. -/
def roundF (q : Rat) (f : Flags) : VF := let r := rne32 q; (r.1, f.or r.2)

/-- a + b (R79, R121). -/
def vadd (a b : Val) (f : Flags) : VF :=
  match a, b with
  | .nan, _ => (.nan, f.or Flags.onlyNV)
  | _, .nan => (.nan, f.or Flags.onlyNV)
  | .inf s, .inf t => if s = t then (.inf s, f) else (.nan, f.or Flags.onlyNV)
  | .inf s, _ => (.inf s, f)
  | _, .inf s => (.inf s, f)
  | _, _ => roundF (a.real + b.real) f

/-- The sign inverted. -/
def vneg : Val → Val
  | .nan => .nan
  | .inf s => .inf (! s)
  | .fin s m => .fin (! s) m

/-- a − b. -/
def vsub (a b : Val) (f : Flags) : VF := vadd a (vneg b) f

/-- a × b, unrounded: a special value, or the exact product. -/
def vprod (a b : Val) : Except (Val × Flags) Rat :=
  if a.isNan || b.isNan then .error (.nan, Flags.onlyNV)
  else if (a.isInf && b.isZero) || (b.isInf && a.isZero) then .error (.nan, Flags.onlyNV)
  else if a.isInf || b.isInf then .error (.inf (Bool.xor a.neg b.neg), Flags.none)
  else .ok (a.real * b.real)

/-- a × b. -/
def vmul (a b : Val) (f : Flags) : VF :=
  match vprod a b with
  | .error r => (r.1, f.or r.2)
  | .ok q => roundF q f

/-- a × b + c, rounded once (R121). -/
def vfma (a b c : Val) (f : Flags) : VF :=
  match vprod a b with
  | .error r => vadd r.1 c (f.or r.2)
  | .ok q => match c with
    | .nan => (.nan, f.or Flags.onlyNV)
    | .inf s => (.inf s, f)
    | .fin _ _ => roundF (q + c.real) f

/-- a < b on values that are not NaN. -/
def vlt (a b : Val) : Bool :=
  match a, b with
  | .nan, _ => false
  | _, .nan => false
  | .inf true, .inf true => false
  | .inf true, _ => true
  | _, .inf true => false
  | .inf false, _ => false
  | _, .inf false => true
  | _, _ => decide (a.real < b.real)

/-- Whether two values are the same real number or infinity. -/
def veq (a b : Val) : Bool := ! a.isNan && ! b.isNan && ! vlt a b && ! vlt b a

/-- Lesser (Table 5.2). -/
def vmin (a b : Val) (f : Flags) : VF :=
  if a.isNan || b.isNan then (.nan, f.or Flags.onlyNV)
  else if vlt a b then (a, f) else if vlt b a then (b, f)
  else (if a.neg then a else b, f)

/-- Greater (Table 5.2). -/
def vmax (a b : Val) (f : Flags) : VF :=
  if a.isNan || b.isNan then (.nan, f.or Flags.onlyNV)
  else if vlt a b then (b, f) else if vlt b a then (a, f)
  else (if a.neg then b else a, f)

/-- The sign cleared. -/
def vabs : Val → Val
  | .nan => .nan
  | .inf _ => .inf false
  | .fin _ m => .fin false m

/-- A special function with its flags. -/
def vsfu (sd : Seeds) (fn : Nat) (x : Val) (f : Flags) : VF := let r := sfu sd fn x; (r.1, f.or r.2)

/-- Whether a value is finite. -/
def Val.isFin : Val → Bool
  | .fin _ _ => true
  | _ => false

/-- +0, 1 and the constants of R134 and R135. -/
def vzero : Val := .fin false 0
def vone : Val := .fin false 1
def vL2E : Val := fp32.decode 0x3FB8AA3B
def vLN2 : Val := fp32.decode 0x3F317218
def vInvSqrt2 : Val := fp32.decode 0x3F3504F3

/-! ### Compensated sums (R135) -/

/-- A running sum: s and c. -/
structure Sum2 where
  s : Val
  c : Val
  deriving DecidableEq, Repr

/-- Nothing summed. -/
def Sum2.zero : Sum2 := ⟨vzero, vzero⟩

/-- nadd: the update of c is skipped, and raises no flag, when s, x or t is not finite. -/
def nadd (p : Sum2) (x : Val) (f : Flags) : Sum2 × Flags :=
  let t := vadd p.s x f
  if p.s.isFin && x.isFin && t.1.isFin then
    let big := ! vlt (vabs p.s) (vabs x)
    let a := if big then p.s else x
    let b := if big then x else p.s
    let d := vsub a t.1 t.2
    let e := vadd d.1 b d.2
    let c := vadd p.c e.1 e.2
    (⟨t.1, c.1⟩, c.2)
  else (⟨t.1, p.c⟩, t.2)

/-- combine of two lanes. -/
def combine (p q : Sum2) (f : Flags) : Sum2 × Flags :=
  let r := nadd p q.s f
  let c := vadd r.1.c q.c r.2
  (⟨r.1.s, c.1⟩, c.2)

/-- Neighbouring pairs combined. -/
def combinePairs : List Sum2 → Flags → List Sum2 × Flags
  | p :: q :: l, f =>
    let r := combine p q f
    let t := combinePairs l r.2
    (r.1 :: t.1, t.2)
  | l, f => (l, f)

/-- tree over 64 lanes, in the fixed order of lane numbers: six rounds of pairs. -/
def treeSum2 (l : List Sum2) (f : Flags) : Sum2 × Flags :=
  let r := (List.range 6).foldl (fun a _ => combinePairs a.1 a.2) (l, f)
  (r.1.headD Sum2.zero, r.2)

/-- One lane over its elements in ascending order. -/
def laneSum (l : List Val) (f : Flags) : Sum2 × Flags := l.foldl (fun a x => nadd a.1 x a.2) (Sum2.zero, f)

/-- The elements of lane `l` of a row: l, l + 64, … (R135). -/
def laneOf (row : List Val) (l : Nat) : List Val :=
  (row.zipIdx.filter fun p => p.2 % 64 = l).map (·.1)

/-- The sum of a row over lanes and tree. -/
def rowSum (row : List Val) (f : Flags) : Sum2 × Flags :=
  let r := (List.range 64).foldl (fun a l =>
    let x := laneSum (laneOf row l) a.2
    (a.1 ++ [x.1], x.2)) (([] : List Sum2), f)
  treeSum2 r.1 r.2

/-- The exact quotient of a sum, rounded once; an infinity or NaN of s stands for itself. -/
def quotient (a : Sum2) (w : Nat) (f : Flags) : VF :=
  match a.s with
  | .fin _ _ => roundF ((a.s.real + a.c.real) / w) f
  | .nan => (.nan, f.or Flags.onlyNV)
  | .inf s => (.inf s, f)

/-- A sum rounded once: rne32(s + c). -/
def Sum2.total (a : Sum2) (f : Flags) : VF := quotient a 1 f

/-! ### Row statistics (R135 to R137) -/

/-- The four values of a row and whether R136 applied. -/
structure RowStat where
  mean : Val
  var : Val
  max : Val
  lse : Val
  equal : Bool
  deriving DecidableEq, Repr

/-- lse of a row whose maximum is finite. -/
def rowLse (sd : Seeds) (row : List Val) (hi : Val) (f : Flags) : VF :=
  let terms := row.foldl (fun a x =>
    let d := vsub x hi a.2
    let m := vmul d.1 vL2E d.2
    let e := vsfu sd 3 m.1 m.2
    (a.1 ++ [e.1], e.2)) (([] : List Val), f)
  let s := rowSum terms.1 terms.2
  let t := s.1.total s.2
  let l := vsfu sd 4 t.1 t.2
  let p := vmul l.1 vLN2 l.2
  vadd hi p.1 p.2

/-- var of a row of finite elements. -/
def rowVar (row : List Val) (mean : Val) (div : Nat) (f : Flags) : VF :=
  let sq := row.foldl (fun a x =>
    let d := vsub x mean a.2
    let m := vmul d.1 d.1 d.2
    (a.1 ++ [m.1], m.2)) (([] : List Val), f)
  let v := rowSum sq.1 sq.2
  let q := quotient v.1 div v.2
  (if vlt vzero q.1 then q.1 else vzero, q.2)

/-- The statistics of one row. -/
def rowStats (sd : Seeds) (row : List Val) (ddof : Nat) (f : Flags) : RowStat × Flags :=
  if row.any Val.isNan then (⟨.nan, .nan, .nan, .nan, false⟩, f.or Flags.onlyNV)
  else
    let lo := row.foldl (fun a x => (vmin a x Flags.none).1) (.inf false)
    let hi := row.foldl (fun a x => (vmax a x Flags.none).1) (.inf true)
    let a := rowSum row f
    let mean := quotient a.1 row.length a.2
    if row.any Val.isInf then
      let lse : VF := match hi with
        | .inf s => (Val.inf s, mean.2)
        | _ => rowLse sd row hi mean.2
      (⟨mean.1, .nan, hi, lse.1, false⟩, lse.2.or Flags.onlyNV)
    else
      let eq := veq lo hi
      let v := if eq then (vzero, mean.2) else rowVar row mean.1 (row.length - ddof) mean.2
      let l := rowLse sd row hi v.2
      (⟨if eq then hi else mean.1, v.1, hi, l.1, eq⟩, l.2)

/-! ### Fused activations (R134) -/

/-- act(g) × u; `act` is 0 SiLU, 1 GELU-erf, 2 sigmoid. -/
def gatedAct (sd : Seeds) (act : Nat) (g u : Val) (f : Flags) : VF :=
  let a := match act with
    | 0 => let h := vsfu sd 6 g f; vmul g h.1 h.2
    | 1 =>
      let x := vmul g vInvSqrt2 f
      let e := vsfu sd 7 x.1 x.2
      let w := vadd vone e.1 e.2
      let h := match w.1 with
        | .fin s m => Val.fin s (m / 2)
        | v => v
      vmul g h w.2
    | _ => vsfu sd 6 g f
  vmul a.1 u a.2

/-! ### Softmax statistics (R139) -/

/-- The factor h_exp2(rne32(rne32(x − m) × L2E32)). -/
def expDiff (sd : Seeds) (x m : Val) (f : Flags) : VF :=
  let d := vsub x m f
  let p := vmul d.1 vL2E d.2
  vsfu sd 3 p.1 p.2

/-- lse_of of R139. -/
def lseOf (sd : Seeds) (m e : Val) (f : Flags) : VF :=
  if e.isZero then (.inf true, f)
  else
    let l := vsfu sd 4 e f
    let p := vmul l.1 vLN2 l.2
    vadd m p.1 p.2

/-- merge of R139. -/
def mergeStats (sd : Seeds) (m1 e1 m2 e2 : Val) (f : Flags) : Val × VF :=
  let m := (vmax m1 m2 f)
  if m.1 = .inf true then (.inf true, (vzero, m.2))
  else
    let a := expDiff sd m1 m.1 m.2
    let b := expDiff sd m2 m.1 a.2
    let x := vmul e1 a.1 b.2
    let y := vmul e2 b.1 x.2
    (m.1, vadd x.1 y.1 y.2)

end Sys2Proof.Machine
end

