-- ==== Sys2Proof/Machine/Identity.lean ====
section
/-! DEFINITION. The flash, signed objects, rollback floors and the attestation report (16_startup_security.md R383 to
R397). Cryptographic functions are opaque constants of Config. -/

namespace Sys2Proof.Machine

/-! ### The flash (R383) -/

/-- What the flash holds at an offset that has not been written since manufacture: beyond the regions, erased. -/
def flashDefault (o : Nat) : Byte := if o < 0x02040000 then Config.flashByte o else 0xFF

/-- `n` bytes of the flash. -/
def State.flashBytes (s : State) (o n : Nat) : List Byte := Sparse.getMany flashDefault s.boot.flash o n

/-- A number of `n` bytes in the flash. -/
def State.flashNat (s : State) (o n : Nat) : Nat := leNat (s.flashBytes o n)

/-- Whether a range meets a region that is locked from stage 3 on: the floors, the PUF helper data and the certificates
(R384, Table 16.1). -/
def State.flashLocked (s : State) (o n : Nat) : Bool := s.boot.locked && decide (o < 0x10000) && decide (0x1000 < o + n)

/-- Bytes of the flash replaced; a region under block protection, or reserved, keeps what it holds (R383, R384). -/
def State.flashPut (s : State) (o : Nat) (d : List Byte) : State :=
  if s.flashLocked o d.length || decide (0x2040000 < o + d.length) then s
  else { s with boot := { s.boot with flash := Sparse.setMany flashDefault s.boot.flash o d } }

/-- A range of the flash erased. -/
def State.flashErase (s : State) (o n : Nat) : State := s.flashPut o (List.replicate n 0xFF)

/-! ### The boot selector (R385) -/

/-- A copy of the boot selector that holds: sequence number, primary firmware slot, primary profile slot. -/
def State.selectorCopy (s : State) (i : Nat) : Option (Nat × Nat × Nat) :=
  let d := s.flashBytes (2048 * i) 12
  if crc32 (d.take 8) = fieldAt d 8 4 then some (fieldAt d 0 4, fieldAt d 4 1 % 2, fieldAt d 5 1 % 2) else none

/-- The copy in use: its number, sequence number and primary slots. When neither holds, slot 0 is primary for both, and
copy 0 is the one written next. -/
def State.selector (s : State) : Nat × Nat × Nat × Nat :=
  match s.selectorCopy 0, s.selectorCopy 1 with
  | some a, some b => if a.1 < b.1 then (1, b) else (0, a)
  | some a, none => (0, a)
  | none, some b => (1, b)
  | none, none => (1, 0, 0, 0)

/-- The primary slot of a kind: 1 firmware, 2 profile. -/
def State.primary (s : State) (kind : Nat) : Nat := if kind = 1 then s.selector.2.2.1 else s.selector.2.2.2

/-- A boot selector copy that makes a slot of a kind primary is written in place of the copy not in use (R385). -/
def State.writeSelector (s : State) (kind slot : Nat) : State :=
  let x := s.selector
  let head := leBytes 4 (x.2.1 + 1) ++
    leBytes 1 (if kind = 1 then slot else x.2.2.1) ++ leBytes 1 (if kind = 2 then slot else x.2.2.2) ++ [0, 0]
  s.flashPut (2048 * (1 - x.1)) (head ++ leBytes 4 (crc32 head))

/-- Offset and size of a slot of a kind (Table 16.1). -/
def slotOffset (kind slot : Nat) : Nat := if kind = 1 then 0x40000 + slot * 0x1000000 else 0x20000 + slot * 0x10000
def slotSize (kind : Nat) : Nat := if kind = 1 then 0x1000000 else 0x10000

/-! ### Signed objects (R386, R387) -/

/-- The longest body of a kind (Table 16.2). -/
def bodyLimit : Nat → Nat
  | 1 => 0x800000
  | 2 => 61440
  | 3 => 24
  | _ => 2000

/-- Whether a body length suits a kind: tokens and certificates have one length. -/
def bodyLenOk (kind n : Nat) : Bool := if kind = 3 ∨ kind = 4 then decide (n = bodyLimit kind) else decide (n ≤ bodyLimit kind)

/-- BODY_LEN and SVN of a header. -/
def bodyLen (h : List Byte) : Nat := fieldAt h 12 4
def objectSvn (h : List Byte) : Nat := fieldAt h 8 4

/-- Length of an object. -/
def objectLen (h : List Byte) : Nat := 32 + bodyLen h + 64 + 3309

/-- Whether a header names a kind: its magic, its kind, and zeros where Table 16.2 has them. -/
def headerIs (h : List Byte) (kind : Nat) : Bool :=
  decide (fieldAt h 0 4 = 0x47534C43) && decide (fieldAt h 4 1 = kind) && decide (fieldAt h 5 1 < 2) &&
  decide (fieldAt h 6 2 = 0) && decide (fieldAt h 16 16 = 0)

/-- A key pair's public keys: Ed25519 and ML-DSA-65. -/
abbrev Keys := List Byte × List Byte

/-- The Colgegal root's keys. -/
def rootKeys : Keys := (Config.rootEd, Config.rootMldsa)

/-- Whether both signatures of an object verify over the SHA-384 digest of its header and body (R386). -/
def signedBy (k : Keys) (o : List Byte) : Bool :=
  let n := 32 + bodyLen o
  let m := Config.sha384 (o.take n)
  Config.edVerify k.1 m ((o.drop n).take 64) && Config.mldsaVerify k.2 m ((o.drop (n + 64)).take 3309)

/-- The body of an object. -/
def bodyOf (o : List Byte) : List Byte := (o.drop 32).take (bodyLen o)

/-- The public keys that a certificate carries (R387). -/
def certKeys (o : List Byte) : Keys := (((bodyOf o).drop 16).take 32, ((bodyOf o).drop 48).take 1952)

/-- Length of a certificate. -/
def certLen : Nat := 5405

/-- Whether a certificate is valid under the root's keys. -/
def certOk (o : List Byte) : Bool := headerIs o 4 && bodyLenOk 4 (bodyLen o) && signedBy rootKeys o

/-- The object in a slot: as many bytes as its header says. -/
def State.objectAt (s : State) (o : Nat) : List Byte := s.flashBytes o (objectLen (s.flashBytes o 32))

/-! ### Board profiles (R388) -/

/-- Two bytes of the LINKS field for a link. -/
def linkWord (f : List Byte) (n : Nat) : Nat := fieldAt f (4 + 2 * n) 2

/-- Mode and group of a link (Table 16.3). -/
def profileMode (f : List Byte) (n : Nat) : Nat := bits (linkWord f n) 1 0
def profileGroup (f : List Byte) (n : Nat) : Nat := bits (linkWord f n) 7 4

/-- Whether a link's word is in range (R288, R388): D128 in a torus group, E100 in any, a ganged pair in group 8 with the
same word for both links. -/
def linkWordOk (f : List Byte) (n : Nat) : Bool :=
  decide (linkWord f n < 256) &&
  (match profileMode f n with
  | 0 => true
  | 1 => decide (profileGroup f n < 8)
  | 2 => decide (profileGroup f n ≤ 8)
  | _ => decide (profileGroup f n = 8) &&
      (let m := if n % 2 = 0 then n + 1 else n - 1
       decide (profileMode f m = 3) && decide (profileGroup f m = 8)))

/-- Whether the fields after the owner certificate are in range (Table 16.3). -/
def profileFieldsOk (f : List Byte) : Bool :=
  decide (900 ≤ f.length) && decide (fieldAt f 2 1 < 2) && decide (fieldAt f 3 1 = 0) &&
  (List.range 64).all (fun n => linkWordOk f n && decide (fieldAt f (132 + 12 * n + 6) 6 = 0))

/-- The owner certificate and the fields of a profile. -/
def profileCert (o : List Byte) : List Byte := (bodyOf o).take certLen
def profileFields (o : List Byte) : List Byte := (bodyOf o).drop certLen

/-- Whether a profile is valid (R387, R388): its owner certificate under the root, itself under the owner, and every
field in range. -/
def profileOk (o : List Byte) : Bool :=
  certOk (profileCert o) && signedBy (certKeys (profileCert o)) o && profileFieldsOk (profileFields o)

/-! ### Rollback floors (R394) -/

/-- Offset of a kind's floor region. -/
def floorOffset (kind : Nat) : Nat := if kind = 1 then 0x1000 else 0x2000

/-- The length of the run of zero bits that begins a floor region. -/
def State.floorOf (s : State) (kind : Nat) : Nat :=
  let d := s.flashNat (floorOffset kind) 4096
  ((List.range 32768).takeWhile fun i => ! d.testBit i).length

/-- A floor raised to an SVN: its bits are programmed to zero. -/
def State.raiseFloor (s : State) (kind svn : Nat) : State :=
  let old := s.floorOf kind
  (List.range (svn - old)).foldl (fun s i =>
    let b := old + i
    let o := floorOffset kind + b / 8
    s.flashPut o [BitVec.ofNat 8 (putBits (s.flashNat o 1) (b % 8) (b % 8) 0)]) s

/-- Why an object of a kind in a slot does not verify, as a DETAIL of Table 16.8: no object of the kind, a body too
long, a signature, or its SVN. -/
def State.verifyFault (s : State) (kind : Nat) (o : List Byte) : Option Nat :=
  if ! headerIs o kind then some 0x0106
  else if ! bodyLenOk kind (bodyLen o) then some 0x0101
  else if ! (if kind = 1 then signedBy rootKeys o else profileOk o) then some 0x0102
  else if objectSvn o < s.floorOf kind ∨ 0x7FFF < objectSvn o then some 0x0103
  else none

/-- The object in a slot of a kind, when it verifies (R390, R395). -/
def State.verified (s : State) (kind slot : Nat) : Except Nat (List Byte) :=
  let o := s.objectAt (slotOffset kind slot)
  match s.verifyFault kind o with
  | some d => .error d
  | none => .ok o

/-! ### The repair record (R279, R385) -/

/-- Offset of the repair record, and its entries. -/
def repairOffset : Nat := 0x10000

/-- The entries of the repair record from one on, up to the first erased one: channel, cause and time. -/
def State.repairEntries (s : State) : Nat → Nat → List (Nat × Nat × Nat)
  | 0, _ => []
  | fuel + 1, i =>
    let v := s.flashNat (repairOffset + 8 * i) 8
    if v = 2 ^ 64 - 1 then [] else (bits v 7 0, bits v 15 8, bits v 63 16) :: s.repairEntries fuel (i + 1)

/-- The whole repair record. -/
def State.repairs (s : State) : List (Nat × Nat × Nat) := s.repairEntries 8192 0

/-- A channel appended to the repair record: byte 0 the channel, byte 1 the cause, bytes 7:2 the device time. -/
def State.addRepair (s : State) (ch cause : Nat) : State :=
  let n := s.repairs.length
  if 8192 ≤ n then s else s.flashPut (repairOffset + 8 * n) (leBytes 1 ch ++ leBytes 1 cause ++ leBytes 6 s.time)

/-! ### Identity (R392, R393) -/

/-- The ASCII bytes of a string. -/
def ascii (t : String) : List Byte := t.toList.map fun c => BitVec.ofNat 8 c.toNat

/-- A byte string cut or padded to a length. -/
def sized (n : Nat) (d : List Byte) : List Byte := (d ++ List.replicate n 0).take n

/-- The Ed25519 seed and the ML-DSA-65 key-generation seed of the device. -/
def deviceSeeds : Keys :=
  ((Config.sha384 (ascii "IRK-ED" ++ Config.deviceSecret)).take 32,
   (Config.sha384 (ascii "IRK-MLDSA" ++ Config.deviceSecret)).take 32)

/-- The device's public keys. -/
def deviceKeys : Keys := (Config.edPublic deviceSeeds.1, Config.mldsaPublic deviceSeeds.2)

/-- DEVICE_ID. -/
def deviceId : Nat := fieldAt (Config.sha384 (deviceKeys.1 ++ deviceKeys.2)) 0 8

/-- The manufacturing and the device certificate in the flash. -/
def State.makerCert (s : State) : List Byte := s.flashBytes 0x4000 certLen
def State.deviceCert (s : State) : List Byte := s.flashBytes (0x4000 + certLen) certLen

/-- Whether the device certificate matches the derived keys (R393). -/
def State.identityOk (s : State) : Bool :=
  decide (fieldAt (bodyOf s.deviceCert) 0 8 = deviceId) && decide (certKeys s.deviceCert = deviceKeys)

/-! ### Seed-table images (05 R130, R131) -/

/-- The tables of a bank that hold an image other than the factory one. -/
def State.customTables (s : State) (bank : Nat) : List (Nat × List Nat) := if bank = 0 then s.core.bank0 else s.core.bank1

/-- The 256 entries of a factory table. -/
def factoryTable (t : Nat) : List Nat := (List.range 256).map (factorySeed t)

/-- The 768 bytes of an image. -/
def imageBytes (l : List Nat) : List Byte := (l.map (leBytes 3)).flatten

/-- The images of the ten tables of a bank, in table order. -/
def State.seedImages (s : State) (bank : Nat) : List Byte :=
  ((List.range 10).map fun t =>
    imageBytes (((s.customTables bank).find? fun x => x.1 = t).map (·.2) |>.getD (factoryTable t))).flatten

/-! ### The attestation report (R397) -/

/-- Bytes 367:0 of the report for a nonce (Table 16.5). -/
def State.attestation (s : State) (nonce : List Byte) : List Byte :=
  leBytes 4 0x54525441 ++ leBytes 1 1 ++ leBytes 1 (s.fld Reg.secState 1 0) ++ leBytes 2 0 ++
  leBytes 8 (s.reg Reg.deviceId) ++ leBytes 2 0x9400 ++ leBytes 2 0x00B0 ++
  leBytes 1 2 ++ leBytes 1 Config.fwMinor ++ leBytes 2 Config.fwPatch ++
  leBytes 4 (s.fld Reg.secFloors 63 48) ++ leBytes 4 (s.fld Reg.secFloors 47 32) ++
  leBytes 4 (s.fld Reg.secFloors 31 16) ++ leBytes 4 (s.fld Reg.secFloors 15 0) ++
  leBytes 8 s.time ++ sized 32 nonce ++
  sized 48 (Config.sha384 Config.bootRom) ++ sized 48 s.boot.mFw ++ sized 48 s.boot.mProfile ++ sized 48 s.boot.mOwner ++
  sized 48 (Config.sha384 (s.flashBytes repairOffset (8 * s.repairs.length))) ++
  sized 48 (Config.sha384 (s.seedImages (s.fld Reg.seedBankState 31 31)))

/-- A report signed with the device keys: 3,741 bytes. -/
def signedReport (body : List Byte) : List Byte :=
  let m := Config.sha384 body
  body ++ sized 64 (Config.edSign deviceSeeds.1 m) ++ sized 3309 (Config.mldsaSign deviceSeeds.2 m)

end Sys2Proof.Machine
end

