-- ==== Sys2Proof/Machine/Latching.lean ====
section
/-! DEFINITION. What takes place in the ACLK of a command's dispatch besides the latching of R87, R131, R213 and
R248: contribution counts and save-record entries of the backward commands (07 R195, R206), the step-size slot of
an UPDATE (08 R219), collective numbers (12 R314), holds on galley tables (06 R153), and the
attestation report (16 R397). -/

namespace Sys2Proof.Machine

/-! ### Which commands were dispatched earlier -/

/-- Whether a command has been dispatched and its completion is not yet reported. -/
def Cmd.active (c : Cmd) : Bool :=
  c.tagHeld && (decide (c.phase = .dispatched) || decide (c.phase = .waiting) || decide (c.phase = .done))

/-- Whether some command dispatched before `c` and still in flight has a property. -/
def State.earlier (s : State) (c : Cmd) (p : Cmd → Bool) : Bool :=
  s.cmd.cmds.any fun d => d.active && decide (d.stamp < c.stamp) && p d

/-! ### Seed banks (05 R131, R132) -/

/-- The instruction words of a string of bytes. -/
def programWords (d : List Byte) : List Nat := (List.range (d.length / 8)).map fun i => fieldAt d (8 * i) 8

/-- The words of a vector program as memory shows them (R123, Table 5.7). -/
def State.program (s : State) (c : Cmd) : List Nat := programWords (s.shownBytes (c.par 32 8 % 2 ^ 48) (8 * c.par 40 2))

/-- Whether a command evaluates a special function (R131): a program with SFU, row statistics, a fused activation, attention,
an append that rotates, or an UPDATE. -/
def State.evaluates (s : State) (c : Cmd) : Bool :=
  match c.opcode with
  | 0x0501 => (s.program c).any fun w => bits w 63 56 = 0x20
  | 0x0502 => true
  | 0x0503 => true
  | 0x0601 => true
  | 0x0602 => true
  | 0x0607 => true
  | 0x0603 => decide (c.par 52 4 ≠ noHandle)
  | 0x0706 => true
  | _ => false

/-- Commands in flight that latched a bank (R131, R132): those that evaluate a special function. -/
def State.bankUsers (s : State) (bank : Nat) : Nat :=
  s.cmd.cmds.countP fun c => c.active && decide (c.latch.seedBank = bank) && s.evaluates c

/-! ### Saves (07 R198 to R203) -/

/-- Whether a save's data are in core SRAM. -/
def Tensor.inSram (t : Tensor) : Bool := decide (t.save = .inSram) || decide (t.save = .offloading)

/-- The tensor a command may read (R202): a save must be in core SRAM, or be on its way back by an earlier
PREFETCH, for which the command then waits. -/
def State.readable (s : State) (c : Cmd) (h : Nat) : Option Tensor :=
  match s.tensor h with
  | none => none
  | some t =>
    if t.role = 3 ∧ t.inSram = false ∧ ! s.earlier c (fun d => d.opcode = 0x0704 ∧ d.par 32 4 = h) then none
    else some t

/-- Whether a handle names a tensor that a command may not read. -/
def State.unreadable (s : State) (c : Cmd) (h : Nat) : Bool := decide (h ≠ noHandle) && (s.readable c h).isNone

/-! ### The transit pool (R198, R199) -/

/-- The layers declared on the module, highest first, without repetition. -/
def State.layers (s : State) : List Nat :=
  sortBy (fun a b => decide (b ≤ a)) ((s.tens.filter fun t => t.role = 3).map fun t => t.layer).eraseDups

/-- Whether a save is resident (R198), by the RESIDENT_LAYERS applied at the last IMPOSE (log 7). -/
def State.resident (s : State) (t : Tensor) : Bool := (s.layers.take (s.imp.schedApplied % 256)).contains t.layer

/-- Bytes of core SRAM that a tensor's sliver takes in each core, its scale bytes included (R451). -/
def State.sliverBytes (s : State) (t : Tensor) : Nat :=
  let l := ((s.imp.cur.map (·.sliver)).getD 0)
  let dims := l :: t.dims.tail
  let data := product dims.dropLast * (rowBits t.fmt (dims.getLastD 1)) / 8
  data + if isMX t.fmt then product (scaleDims dims t.blockAxis) else 0

/-- Whether a save holds pool space (R199, Table 7.2). -/
def Tensor.inPool (t : Tensor) : Bool :=
  decide (t.save = .inSram) || decide (t.save = .offloading) || decide (t.save = .prefetching)

/-- Whether a save holds space: by its state, or by a PREFETCH dispatched that found room for it (R199). -/
def State.holdsPool (s : State) (t : Tensor) : Bool :=
  t.inPool || s.cmd.cmds.any fun d =>
    d.active && decide (d.opcode = 0x0704 ∧ d.par 32 4 = t.handle ∧ d.latch.extra = [0])

/-- Pool bytes held in each core by transit saves. -/
def State.poolUsed (s : State) : Nat :=
  ((s.tens.filter fun t => t.role = 3 ∧ s.holdsPool t ∧ ! s.resident t).map s.sliverBytes).sum

/-- Bytes of each core's transit pool. -/
def State.poolSize (s : State) : Nat := 1024 * (s.imp.schedApplied / 256 % 65536)

/-- Whether a save may take its space: a resident save has it reserved; a transit save needs it free. -/
def State.saveFits (s : State) (t : Tensor) : Bool :=
  s.resident t || s.holdsPool t || decide (s.poolUsed + s.sliverBytes t ≤ s.poolSize)

/-- PREFETCH at dispatch (R199): it takes the space of its save, which it finds free or already held. `extra` is [0], or [1]
when there is no room. -/
def State.prefetchDispatch (s : State) (c : Cmd) : State :=
  let ok := (s.tensor (c.par 32 4)).all fun t => s.saveFits t
  s.updCmd c.id fun c => { c with latch := { c.latch with extra := [ofBool (! ok)] } }

/-! ### The backward commands (07 R190 to R208) -/

/-- The oldest entry of a save's record for a weight (R206). -/
def recordEntry (save : Tensor) (w : Nat) : Option Nat := (save.record.find? fun e => e.1 = w).map (·.2)

/-- The edition a backward command reads (R204, R206): 1 for a frozen weight, the record's oldest entry, or the
edition named; a DETAIL when there is none. -/
def State.backwardEdition (s : State) (w : Tensor) (saved edition : Nat) : Except Nat Nat :=
  if w.role = 2 then .ok 1
  else if edition = noHandle then
    match s.tensor saved with
    | none => .error 0x0100
    | some t => match recordEntry t w.handle with
      | some e => if (w.edition e).isSome then .ok e else .error 0x0107
      | none => .error 0x0107
  else if (w.edition edition).isSome then .ok edition else .error 0x0108

/-- A shape of rows by width. -/
def Tensor.shape (t : Tensor) : Nat × Nat := (t.rows, t.width)

/-- The checks of BACKWARD_INPUT (R190, R191, Table 7.4). -/
def State.biFault (s : State) (c : Cmd) : Option Nat :=
  let f := c.par 54 1
  let accIn := decide (bit f 0 = 1)
  let accOut := decide (bit f 1 = 1)
  let wf := c.par 53 1
  match s.readable c (c.par 32 4), s.tensor (c.par 36 4) with
  | some dy, some w =>
    let dx := s.tensor (c.par 44 4)
    let acc := s.tensor (c.par 48 4)
    let saved := s.tensor (c.par 40 4)
    let needSaved := decide (w.role = 1) && decide (c.par 56 4 = noHandle)
    let ed := s.backwardEdition w (c.par 40 4) (c.par 56 4)
    firstFault [
      ((! accOut && dx.isNone) || (accOut && ! accIn && acc.isNone) || (accIn && s.unnamed (c.par 48 4)) ||
        (needSaved && saved.isNone), 0x0100),
      (decide (wf ≠ w.fmt) || (decide (c.par 52 1 = 1) && decide (dy.fmt ≠ 1)), 0x0101),
      (decide (w.role ≠ 1 ∧ w.role ≠ 2) || (needSaved && saved.any fun t => t.role ≠ 3), 0x0102),
      (decide (c.par 52 1 ≠ 1) || (! accOut && dx.any fun t => t.fmt ≠ 1) ||
        ((accIn || accOut) && (acc.isNone || acc.any fun t => ! accumulator t)), 0x0103),
      (! pairOk 1 wf, 0x0104),
      (match ed with
        | .error 0x0107 => true
        | _ => false, 0x0107),
      (match ed with
        | .error 0x0108 => true
        | _ => false, 0x0108),
      (decide (dy.width ≠ w.width) ||
        (if accOut then acc.any fun t => t.shape ≠ (dy.rows, w.rows) else dx.any fun t => t.shape ≠ (dy.rows, w.rows)) ||
        (accIn && acc.any fun t => t.shape ≠ (dy.rows, w.rows)), 0x0110)]
  | _, _ => some 0x0100

/-- The checks of BACKWARD_WEIGHT (R190, R192, R195, R204, Table 7.5). -/
def State.bwFault (s : State) (c : Cmd) : Option Nat :=
  let xf := c.par 49 1
  match s.readable c (c.par 32 4), s.readable c (c.par 36 4), s.tensor (c.par 40 4) with
  | some dy, some x, some w =>
    let g := s.tensor (c.par 44 4)
    let ed := s.backwardEdition w (c.par 36 4) (c.par 56 4)
    let seq := c.par 52 2 % 4096
    let narrow := decide (xf % 16 = 5 ∨ xf % 16 = 6 ∨ xf % 16 = 7)
    firstFault [
      (decide (w.role ≠ 2) && g.isNone, 0x0100),
      (decide (xf ≠ x.fmt) || (decide (c.par 48 1 = 1) && decide (dy.fmt ≠ 1)), 0x0101),
      (decide (x.role ≠ 3) || decide (w.role ≠ 1 ∧ w.role ≠ 2) || (decide (w.role ≠ 2) && g.any fun g => g.role ≠ 4), 0x0102),
      (decide (c.par 48 1 ≠ 1), 0x0103),
      (! narrow && ! pairOk xf 1, 0x0104),
      (narrow, 0x0105),
      (decide (w.role = 2), 0x0106),
      (match ed with
        | .error 0x0107 => true
        | _ => false, 0x0107),
      (match ed with
        | .error 0x0108 => true
        | _ => false, 0x0108),
      (g.any fun g => seq ≠ 0 ∧ seq ≠ g.wgCount, 0x0109),
      (decide (x.rows ≠ dy.rows) || decide ((x.width, dy.width) ≠ w.shape) || (g.any fun g => g.size ≠ w.size), 0x0110)]
  | _, _, _ => some 0x0100

/-- The removal of the oldest entry for a weight from a save's record. -/
def State.dropEntry (s : State) (saved w : Nat) : State :=
  s.updTensor saved fun t => { t with record := match recordEntry t w with
    | some e => t.record.erase (w, e)
    | none => t.record }

/-- BACKWARD_INPUT at dispatch (R206): the edition it reads; the entry stays. `extra` is [0, edition], or
[1, DETAIL]. -/
def State.biDispatch (s : State) (c : Cmd) : State :=
  let x := match s.biFault c with
    | some d => ([1, d], [])
    | none => match s.tensor (c.par 36 4) with
      | none => ([1, 0x0100], [])
      | some w => match s.backwardEdition w (c.par 40 4) (c.par 56 4) with
        | .error d => ([1, d], [])
        | .ok e => ([0, e], if w.role = 1 then [(w.handle, e)] else [])
  s.updCmd c.id fun c => { c with latch := { c.latch with extra := x.1, editions := x.2 } }

/-- BACKWARD_WEIGHT at dispatch (R195, R206, R207): the entry is removed, the contribution count set or raised,
and the first contribution fixes the base edition. `extra` is [0, edition, count, stale], or [1, DETAIL]. -/
def State.bwDispatch (s : State) (c : Cmd) : State :=
  let set := fun (s : State) (x : List Nat) (e : List (Nat × Nat)) =>
    s.updCmd c.id fun c => { c with latch := { c.latch with extra := x, editions := e } }
  match s.bwFault c with
  | some d => set s [1, d] []
  | none => match s.tensor (c.par 40 4), s.tensor (c.par 44 4) with
    | some w, some g => match s.backwardEdition w (c.par 36 4) (c.par 56 4) with
      | .error d => set s [1, d] []
      | .ok e =>
        let first := decide (c.par 52 2 % 4096 = 0)
        let count := if first then 1 else g.wgCount + 1
        let base := if first then e else g.wgBase
        let s := if c.par 56 4 = noHandle then s.dropEntry (c.par 36 4) w.handle else s
        let s := s.updTensor g.handle fun t => { t with wgCount := count, wgBase := base }
        let s := if e ≠ base then s.addSat Reg.staleContrib 31 0 1 else s
        set s [0, e, count, ofBool (decide (e ≠ base))] [(w.handle, e)]
    | _, _ => set s [1, 0x0100] []

/-! ### The check of an UPDATE (08 R216, R217, R219) -/

/-- UFLAGS (Table 8.4). -/
def Cmd.uInit (c : Cmd) : Bool := bit (c.par 45 1) 0 = 1
def Cmd.uMaster (c : Cmd) : Bool := bit (c.par 45 1) 1 = 1
def Cmd.uLazy (c : Cmd) : Bool := bit (c.par 45 1) 2 = 1
def Cmd.uHoldOld (c : Cmd) : Bool := bit (c.par 45 1) 3 = 1
def Cmd.uSkip (c : Cmd) : Bool := bit (c.par 45 1) 4 = 1
def Cmd.uStochastic (c : Cmd) : Bool := bit (c.par 45 1) 5 = 1

/-- An FP32 parameter. -/
def Cmd.real32 (c : Cmd) (i : Nat) : Val := fp32.decode (c.par i 4)

/-- LR, WD, BC1 and BC2 as latched at dispatch (R219). -/
def Cmd.step32 (c : Cmd) (i : Nat) : Val := fp32.decode (c.latch.extra.getD (1 + i) 0)

/-- The stamp latched at dispatch. -/
def Cmd.stamp32 (c : Cmd) : Nat := c.latch.extra.getD 0 0

/-- N_D and the D rank of this module. -/
def State.dGroup (s : State) : Nat × Nat := (s.axis 1).getD (1, 0)

/-- Whether this module owns a weight (R216). -/
def State.owns (s : State) (w : Tensor) : Bool := decide (w.ord % max s.dGroup.1 1 = s.dGroup.2)

/-- The touched rows that ROWS_TENSOR lists (R225). -/
def State.touchedRows (s : State) (c : Cmd) : List Nat :=
  match s.named (c.par 40 4) with
  | none => []
  | some (t, x) => (List.range (t.byteLen / 4)).map fun i => tensorNat t x.1 (4 * i) 4

/-- Whether a list is strictly increasing and below a bound. -/
def increasing (bound : Nat) (l : List Nat) : Bool :=
  (l.zip l.tail).all (fun p => decide (p.1 < p.2)) && l.all fun x => decide (x < bound)

/-- Whether a save record or a host hold names an edition. -/
def State.editionHeld (s : State) (w : Tensor) (e : Nat) : Bool :=
  (s.tens.any fun t => t.record.contains (w.handle, e)) || (w.edition e).any fun x => 0 < x.holds

/-- The checks of an UPDATE in the order of Tables 7.9 and 8.7, the stamp before the slot. -/
def State.updateFault (s : State) (c : Cmd) : Option Outcome :=
  match s.tensor (c.par 32 4), s.tensor (c.par 36 4) with
  | some w, some g =>
    let isMatrix := decide (c.par 44 1 = 1)
    let own := s.owns w
    let rows := s.touchedRows c
    let cur := w.currentEdition
    let o := w.opt
    let bad := firstFault [
      (c.uLazy && (s.named (c.par 40 4)).isNone, 0x0100),
      (decide (w.role ≠ 1), 0x0102),
      (decide (g.fmt ≠ 0), 0x0103),
      (if c.uLazy then decide (w.dims.length ≠ 2 ∨ g.rows ≠ rows.length ∨ g.width ≠ w.width)
        else decide (g.dims ≠ w.dims), 0x0110),
      (decide (15 < c.par 46 1), 0x0180),
      (own && ! c.uInit && (decide (o.rule ≠ some (c.par 44 1)) || decide (o.hasMaster ≠ c.uMaster) ||
        decide (o.isLazy ≠ c.uLazy)), 0x0181),
      (c.uLazy && (c.uHoldOld || s.editionHeld w cur || decide (1 < w.editions.length)), 0x0183),
      (isMatrix && (decide (w.dims.length ≠ 2) || c.uLazy || decide (w.rows = 0 ∨ 8192 < w.rows ∨ w.width = 0 ∨ 8192 < w.width) ||
        decide (c.par 47 1 = 0 ∨ 32 < c.par 47 1 ∨ c.par 76 2 = 0)), 0x0184),
      (decide (cur + 1 = noHandle) || (c.uHoldOld && (w.edition cur).any fun x => 65535 ≤ x.holds), 0x0189),
      (own && ! c.uInit && o.invalid, 0x018A),
      (own && c.uLazy && ! increasing w.rows rows, 0x018B)]
    match bad with
    | some d => some (Outcome.bad d)
    | none =>
      if 1 < c.par 44 1 then some (Outcome.bad 0)
      else if c.stamp32 = 0 ∨ c.stamp32 ≠ c.par 48 4 then some ⟨stStampMismatch, 0, 0⟩
      else if ! c.uLazy ∧ w.slots ≤ w.editions.length then some (Outcome.noSpace 0x0182)
      else none
  | _, _ => some (Outcome.bad 0x0100)

/-- UPDATE at dispatch (R217, R219): it latches its slot's stamp and values, and is checked, unless an earlier UPDATE of the
same weight is in flight, behind which it waits and is checked then (Table 8.2). `extra` is [STAMP, LR, WD, BC1, BC2], and
after it the verdict: [0], or [1, status, DETAIL]. -/
def State.updateDispatch (s : State) (c : Cmd) : State :=
  let n := c.par 46 1 % 16
  let l := [s.reg (Reg.stepStamp n), s.fld (Reg.stepLr n) 31 0, s.fld (Reg.stepLr n) 63 32, s.fld (Reg.stepBc n) 31 0,
    s.fld (Reg.stepBc n) 63 32]
  let verdict :=
    if s.earlier c fun d => d.opcode = 0x0706 ∧ d.par 32 4 = c.par 32 4 then []
    else match s.updateFault { c with latch := { c.latch with extra := l } } with
      | none => [0]
      | some o => [1, o.status, o.detail]
  s.updCmd c.id fun c => { c with latch := { c.latch with extra := l ++ verdict } }

/-- The verdict of a member's own check: what its dispatch latched, or, after its wait for an earlier UPDATE, the check
made now. -/
def State.ownVerdict (s : State) (c : Cmd) : Option Outcome :=
  match c.latch.extra.drop 5 with
  | [1, st, d] => some ⟨st, d, 0⟩
  | [0] => none
  | _ => s.updateFault c

/-! ### Collectives (12 R314, R316, R317, R332) -/

/-- CHUNK of a collective in bytes, and the chunks of a round (R316, R317). -/
def collChunk (c : Cmd) : Nat := 2 ^ c.par 42 1
def collRound (c : Cmd) : Nat := if c.par 60 4 = 0 then 2 ^ 22 / collChunk c else c.par 60 4

/-- The share of the store a collective takes. -/
def collShare (c : Cmd) : Nat := 4 * collChunk c * collRound c

/-- The checks of a collective (R316, R317, R318, R332, Table 12.1). -/
def State.collFault (s : State) (c : Cmd) : Option Nat :=
  match s.readable c (c.par 32 4), s.tensor (c.par 36 4) with
  | some i, some o =>
    let op := c.opcode
    let reducing := decide (op = 0x0801 ∨ op = 0x0802)
    let n := ((s.axis (c.par 40 1)).map (·.1)).getD 1
    let b := i.byteLen
    let sizes := match op with
      | 0x0801 => decide (o.byteLen = b ∧ b % 4 = 0)
      | 0x0802 => decide (b % (4 * n) = 0 ∧ o.byteLen = b / n)
      | 0x0803 => decide (o.byteLen = n * b)
      | 0x0805 => decide (b % n = 0 ∧ o.byteLen = b)
      | _ => decide (o.byteLen = b)
    firstFault [
      (reducing && (decide (i.fmt ≠ 0) || decide (o.fmt ≠ 0)), 0x0101),
      ((s.axis (c.par 40 1)).isSome && ! sizes, 0x0102),
      ((s.axis (c.par 40 1)).isNone || (decide (op = 0x0804) && decide (n ≤ c.par 46 2)) ||
        (decide (op = 0x0806) && (decide (n ≤ c.par 52 2) || decide (n ≤ c.par 54 2))), 0x0103),
      (decide (c.par 42 1 < 12 ∨ 20 < c.par 42 1) || decide (2 ^ 26 < collShare c), 0x0104),
      (reducing && decide (2 < c.par 41 1), 0x0105)]
  | _, _ => some 0x0100

/-- DESC_CHECK (R315): the CRC-32 of the opcode, bytes 40 to 43, 46, 47 and 56 to 63, and the byte length of IN. -/
def descCheck (c : Cmd) (len : Nat) : Nat :=
  crc32 (leBytes 2 c.opcode ++ leBytes 4 (c.par 40 4) ++ leBytes 2 (c.par 46 2) ++ leBytes 8 (c.par 56 8) ++ leBytes 8 len)

/-- A mark put on a tensor. -/
def State.mark (s : State) (h id : Nat) : State := s.updTensor h fun t => { t with marks := (t.marks ++ [id]).eraseDups }

/-- A collective at dispatch (R314, R325, R329): its number on its axis and the mark on OUT; one of the step aborted
last takes its number and goes no further. `extra` is [0], [1, DETAIL], or [2] for an aborted step. -/
def State.collDispatch (s : State) (c : Cmd) : State :=
  let set := fun (s : State) (x : List Nat) => s.updCmd c.id fun c => { c with latch := { c.latch with extra := x } }
  match s.collFault c with
  | some d => set s [1, d]
  | none =>
    let a := c.par 40 1
    let seq := s.fld (Reg.collSeq (a - 1)) 31 0
    let s := s.addWrap (Reg.collSeq (a - 1)) 31 0 1
    if s.coll.aborted = some (c.par 56 4) then set s [2]
    else
      let g := (s.axis a).getD (1, 0)
      let len := ((s.tensor (c.par 32 4)).map Tensor.byteLen).getD 0
      let x : Coll :=
        { id := c.id, stamp := c.stamp, opcode := c.opcode, tag := c.tag, axis := a, seq := seq, slot := none,
          share := 0, members := g.1, rank := g.2, pkt := c.pkt, descCheck := descCheck c len, input := [],
          retained := [], queued := [], crcs := [], expect := [], toWrite := [], unchecked := [], asked := [], written := 0,
          reRequests := 0, flags := 0, localDone := false }
      set ({ s with coll := { s.coll with colls := s.coll.colls ++ [x] } }.mark (c.par 36 4) c.id) [0]

/-- MATMUL_GATHER at dispatch (R330): the ALL_GATHER in flight whose tag it names. `extra` is [0, its number], or [1]
when there is none, or when its OUT is not the operand named as gathered (log 139, DESIGN CHOICE). -/
def State.gatherDispatch (s : State) (c : Cmd) : State :=
  let x := match s.coll.colls.find? fun x => x.opcode = 0x0803 ∧ x.tag = c.par 68 4 % 4096 ∧
      fieldAt x.pkt 36 4 = if bit (c.par 47 1) 4 = 1 then c.par 36 4 else c.par 32 4 with
    | some x => [0, x.id]
    | none => [1]
  s.updCmd c.id fun c => { c with latch := { c.latch with extra := x } }

/-! ### Galley tables (06 R153) -/

/-- A live table. -/
def State.gtable (s : State) (n : Nat) : Option GTable := s.attn.tables.find? fun t => t.number = n

/-- A table changed. -/
def State.updTable (s : State) (n : Nat) (f : GTable → GTable) : State :=
  { s with attn := { s.attn with tables := s.attn.tables.map fun t => if t.number = n then f t else t } }

/-- The query blocks of a tensor of so many rows (R159): at most 128 rows each, within one sliver. -/
def State.queryBlockCount (s : State) (rows : Nat) : Nat :=
  let l := max 1 ((s.imp.cur.map (·.sliver)).getD rows)
  rows / l * ceilDiv l 128 + ceilDiv (rows % l) 128

/-- An attention command at dispatch: its hold on the generation published now, one walk for each of its query blocks; a table
being destroyed is not live. -/
def State.attnDispatch (s : State) (c : Cmd) : State :=
  let n := max 1 (s.queryBlockCount (((s.tensor (c.par 32 4)).map Tensor.rows).getD 0))
  s.updTable (c.par 36 2) fun t => if t.destroying then t else { t with walks := t.walks ++ List.replicate n c.id }

/-! ### Released tensors (09 R242) -/

/-- A handle that no tensor has (R239). -/
def unusedHandle : Nat := 0xFFFFFFFE

/-- The bytes of a packet with a 4-byte field replaced. -/
def withField (p : List Byte) (i v : Nat) : List Byte := p.take i ++ leBytes 4 v ++ p.drop (i + 4)

/-- The handle fields of a command that name a tensor whose release was dispatched before name none declared. -/
def State.forget (s : State) (c : Cmd) : State :=
  let gone := (handleFields c.opcode).filter fun i =>
    s.tens.any fun t => decide (t.handle = c.par i 4) && t.releasing.isSome
  if gone.isEmpty then s
  else s.updCmd c.id fun c => { c with pkt := gone.foldl (fun p i => withField p i unusedHandle) c.pkt }

/-- The check of RELEASE_TENSOR: no placed tensor, or a companion scale tensor. -/
def State.releaseFault (s : State) (c : Cmd) : Option Nat :=
  match s.tensor (c.par 32 4) with
  | none => some 0x0100
  | some t => if t.role = 7 then some 0x0101 else none

/-- RELEASE_TENSOR at dispatch: the tensor and its companion are being released. `extra` is [0], or [1, DETAIL]. -/
def State.releaseDispatch (s : State) (c : Cmd) : State :=
  match s.releaseFault c with
  | some d => s.updCmd c.id fun c => { c with latch := { c.latch with extra := [1, d] } }
  | none =>
    let h := c.par 32 4
    let s := { s with tens := s.tens.map fun (t : Tensor) =>
      if t.handle = h ∨ t.elemOf = some h then { t with releasing := some c.stamp } else t }
    s.updCmd c.id fun c => { c with latch := { c.latch with extra := [0] } }

/-- FEED_EPOCH and FEED_ROWS at dispatch: the stream's entry count is latched (13 R341, R343). `extra` is [count]. -/
def State.feedDispatch (s : State) (c : Cmd) : State :=
  let n := s.fld (Reg.feedEntries (c.par 32 1 % 4)) 31 0
  s.updCmd c.id fun c => { c with latch := { c.latch with extra := [n] } }

/-- What takes place at the dispatch of a command by its opcode. -/
def State.opDispatch (s : State) (c : Cmd) : State :=
  match c.opcode with
  | 0x0302 => s.releaseDispatch c
  | 0x0402 => s.gatherDispatch c
  | 0x0601 => s.attnDispatch c
  | 0x0602 => s.attnDispatch c
  | 0x0607 => s.attnDispatch c
  | 0x0701 => s.biDispatch c
  | 0x0702 => s.bwDispatch c
  | 0x0704 => s.prefetchDispatch c
  | 0x0706 => s.updateDispatch c
  | 0x0A04 =>
    let st := s.reg Reg.marginState
    s.updCmd c.id fun c => { c with latch := { c.latch with extra := [st] } }
  | 0x0902 => s.feedDispatch c
  | 0x0903 => s.feedDispatch c
  | 0x0E01 => let d := s.attestation (c.pkt.drop 32 |>.take 32); s.updCmd c.id fun c => { c with buf := d }
  | _ => if c.opcode / 256 = 8 then s.collDispatch c else s

/-- Everything that takes place at the dispatch of a command. -/
def State.onDispatch (s : State) (c : Cmd) : State :=
  let s := s.forget c
  match s.cmdOf c.id with
  | some c => s.opDispatch c
  | none => s

/-- Commands in the deferral queue (R188). -/
def State.deferred (s : State) : Nat :=
  s.cmd.cmds.countP fun c =>
    decide (c.opcode = 0x0702) && decide (bit (c.par 50 1) 0 = 1) && c.active

end Sys2Proof.Machine
end

