-- ==== Sys2Proof/Machine/Views.lean ====
section
/-! DEFINITION. Registers that report other state: the value of each, computed from the state where it is read. -/

namespace Sys2Proof.Machine

/-- Whether an offset is an instance of a family of registers with one stride. -/
def inFamily (off base stride n : Nat) : Bool :=
  decide (base ≤ off) && decide ((off - base) % stride = 0) && decide ((off - base) / stride < n)

/-- Commands of a ring that hold a tag (RING_STATUS_n.IN_FLIGHT). -/
def State.ringInFlight (s : State) (n : Nat) : Nat := s.cmd.cmds.countP fun c => c.tagHeld && decide (c.ring = n)

/-- Whether the reply ring has no free entry (R35). -/
def State.replyFull (s : State) (n : Nat) : Bool :=
  let p := s.reg (Reg.replyPtr n)
  decide ((bits p 31 16 + 1) % 2 ^ bits (s.reg (Reg.replyCfg n)) 7 4 = bits p 15 0)

/-- RING_STATUS_n: IN_FLIGHT, REPLY_FULL and BUSY are live (Table 2.5). -/
def State.viewRingStatus (s : State) (n raw : Nat) : Nat :=
  let busy := s.cmd.cmds.any fun c => c.ring = n
  let full := (s.cmd.cmds.any fun c => c.ring = n ∧ c.phase = .held) && s.replyFull n
  putBits (putBits (putBits raw 28 16 (s.ringInFlight n)) 3 3 (ofBool full)) 0 0 (ofBool busy)

/-- The OR of the flags of every array (R88, R119). -/
def State.flagsSummary (s : State) : Nat :=
  s.regs.foldl (fun a e =>
    if 0x100000 ≤ e.1 ∧ e.1 < 0x200000 ∧ e.1 % 0x100 < 0x80 ∧ e.1 % 0x20 = 0 then a ||| e.2.toNat % 16 else a) 0

/-- Commands in flight that hold an imposition (R248). -/
def State.holders (s : State) (number : Nat) : Nat :=
  s.cmd.cmds.countP fun c =>
    c.holds && decide (c.latch.imposition = number) && (decide (c.phase = .dispatched) || decide (c.phase = .waiting) || decide (c.phase = .done))

/-- IMPOSER_STATE (Table 9.10). -/
def State.viewImposerState (s : State) : Nat :=
  let number := match s.imp.cur with
    | some i => i.number
    | none => 0
  let pendingBit := ofBool (! s.imp.changes.isEmpty || s.cmd.cmds.any fun c => c.phase = .waiting ∧ c.aux.head? = some 25)
  let drain := match s.imp.draining with
    | some d => s.holders d.imp.number
    | none => 0
  number * 2 ^ 32 + pendingBit * 2 ^ 31 + ofBool s.imp.draining.isSome * 2 ^ 30 +
    ofBool s.imp.reshard.isSome * 2 ^ 29 + drain % 2 ^ 13

/-- IMPOSER_CAPACITY: L and Λ of the imposition in force (Table 9.11). -/
def State.viewImposerCapacity (s : State) (raw : Nat) : Nat :=
  match s.imp.cur with
  | some i => putBits (putBits raw 63 48 i.cores) 47 32 i.sliver
  | none => putBits (putBits raw 63 48 0) 47 32 0

/-- FORWARD_STATE.ENTRIES: the units moved, and the channels that pages moved from (R251, Table 9.12). -/
def State.forwardEntries (s : State) : Nat :=
  (s.imp.moves.countP fun m => match m.kind with
    | .unit _ _ => true
    | .page _ => false) +
  ((s.imp.moves.filterMap fun m => match m.kind with
    | .unit _ _ => none
    | .page _ => some (m.src % 256)).eraseDups).length

/-- HBM_THERMAL: the stacks at level 4 and at level 1 or above (Table 10.12). -/
def State.viewThermal (s : State) : Nat :=
  (List.range 16).foldl (fun a k =>
    let l := s.fld (Reg.stackTemp k) 30 28
    a + ofBool (decide (l = 4)) * 2 ^ (16 + k) + ofBool (decide (1 ≤ l)) * 2 ^ k) 0

/-- Whether start-up has stopped under R390 (ALARM_STATE.BOOT_STOP, stored). -/
def State.bootStopped (s : State) : Bool := s.fld Reg.alarmState 5 5 = 1

/-- ALARM_STATE: each cause live; the outputs are released in a full reset (R431, Tables 18.5, 18.11). -/
def State.viewAlarm (s : State) : Nat :=
  let st4 := (List.range 16).any fun k => s.fld (Reg.stackTemp k) 30 28 = 4
  let stf := (List.range 16).any fun k => s.fld (Reg.stackTemp k) 31 31 = 1
  let j2 := (List.range 4).any fun g => 2 ≤ s.fld (Reg.junction g) 30 29
  let jf := (List.range 4).any fun g => s.fld (Reg.junction g) 31 31 = 1
  let thermal := st4 || stf || j2 || jf
  ofBool st4 + 2 * ofBool j2 + 4 * ofBool stf + 8 * ofBool jf + 16 * ofBool s.isFatal +
    32 * ofBool s.bootStopped + 2 ^ 30 * ofBool (thermal && ! s.pwr.held) + 2 ^ 31 * ofBool ((s.isFatal || s.bootStopped) && ! s.pwr.held)

/-- An alarm that was not asserted before and is now may trigger a proof (18 R422). -/
def State.alarmRose (s was : State) : State :=
  if bit was.viewAlarm 30 = 0 ∧ bit s.viewAlarm 30 = 1 then s.proofEvent 2 else s

/-- LINK_GROUP_g: links up and links assigned (Table 11.21). -/
def State.viewLinkGroup (s : State) (g : Nat) : Nat :=
  (s.groupUp g).length * 2 ^ 24 + (s.groupLinks g).length * 2 ^ 16

/-! ### Views of the engines -/

/-- SEED_BANK_STATE: LOAD_BUSY and OLD_BANK_USERS are live (Table 5.14). -/
def State.viewSeedBank (s : State) (raw : Nat) : Nat :=
  let users := s.bankUsers (1 - bits raw 31 31)
  let busy := s.cmd.cmds.any fun c => c.active && decide (c.opcode = 0x0504)
  putBits (putBits raw 12 0 users) 30 30 (ofBool busy)

/-- TABLE_PROBE: the table that TABLE_PROBE_SEL names (Table 6.19). -/
def State.viewTableProbe (s : State) : Nat :=
  match s.gtable (s.fld Reg.tableProbeSel 15 0) with
  | none => 0
  | some t =>
    t.generation % 2 ^ 32 * 2 ^ 32 + (if t.destroying then 2 else 1) * 2 ^ 30 + ofBool (! t.draining) * 2 ^ 29 +
      ofBool t.draining * 2 ^ 28 + t.walks.length % 2 ^ 14 * 2 ^ 14 + t.drainWalks.length % 2 ^ 14

/-- TABLE_PROBE_LEN: shadow and published length of that table (R184). -/
def State.viewTableLen (s : State) : Nat :=
  match s.gtable (s.fld Reg.tableProbeSel 15 0) with
  | none => 0
  | some t => t.second.length % 2 ^ 32 * 2 ^ 32 + t.published.length % 2 ^ 32

/-- Bytes of accumulator buffer that a weight-gradient tensor takes in each core (R196). -/
def State.wgradBytes (s : State) (t : Tensor) : Nat :=
  ceilDiv (4 * t.size) (128 * max 1 (s.fld Reg.imposerCapacity 31 16)) * 128

/-- Weight-gradient tensors in the accumulator buffer. -/
def State.wgradResident (s : State) : List Tensor := s.tens.filter fun t => t.role = 4 ∧ t.placed = true ∧ t.spilled = false

/-- WGRAD_STATE (Table 7.11). -/
def State.viewWgrad (s : State) : Nat :=
  let out := s.tens.countP fun t => decide (t.role = 4) && t.placed && t.spilled
  (s.wgradResident.map s.wgradBytes).sum % 2 ^ 18 * 2 ^ 32 + out % 2 ^ 16 * 2 ^ 16 + s.wgradResident.length % 2 ^ 16

/-- EDITION_PROBE: the weight that EDITION_PROBE_SEL names (Table 8.14). -/
def State.viewEdition (s : State) : Nat :=
  match s.declared (s.reg Reg.editionProbeSel) with
  | none => 0
  | some t =>
    if t.role ≠ 1 then 0
    else
      let d := (s.axis 1).getD (1, 0)
      let st := if t.opt.invalid then 3 else match t.opt.rule with
        | none => 0
        | some r => r + 1
      t.currentEdition % 2 ^ 32 * 2 ^ 32 + st * 2 ^ 30 + (t.editions.length - 1) % 4 * 2 ^ 28 +
        ofBool (decide (t.ord % max d.1 1 = d.2)) * 2 ^ 27 + ofBool t.opt.rootsValid * 2 ^ 26 +
        ((t.editions.head?.map (·.holds)).getD 0) % 2 ^ 16

/-- Collectives that hold a slot. -/
def State.inFlight (s : State) : List Coll := s.coll.colls.filter fun x => x.slot.isSome

/-- COLL_STATE: free store, slots held, and collectives that wait (Table 12.9). -/
def State.viewColl (s : State) : Nat :=
  (2 ^ 26 - (s.inFlight.map (·.share)).sum) / 4096 * 2 ^ 32 + s.inFlight.length * 2 ^ 16 +
    (s.coll.colls.countP fun x => x.slot.isNone) % 32

/-- COLL_SLOT_i (Table 12.16). -/
def State.viewSlot (s : State) (i : Nat) : Nat :=
  match s.coll.colls.find? fun x => x.slot = some i with
  | none => 0
  | some x => x.seq % 2 ^ 32 * 2 ^ 32 + (if x.localDone then 3 else 2) * 2 ^ 29 + x.axis % 8 * 2 ^ 26 + x.tag % 4096

/-- TEST_PENDING: the kinds of test work deferred and not yet begun; an array self-test begins when the moves of the
sweep have ended (Tables 9.14, 18.4). -/
def State.viewTests (s : State) : Nat :=
  ((List.range 3).map fun k => 2 ^ k * ofBool (s.obs.tests.any fun t =>
    decide (t.kind = k) && (! t.running || (decide (k = 0) && ! s.imp.sweep.isEmpty)))).sum

/-- GATE_STATE: copses in RETAIN, GATED and RUN; a retired copse is OFF (Tables 17.4, 17.15). -/
def State.viewGates (s : State) : Nat :=
  let off := (List.range 256).countP s.isRetired
  let retained := s.pwr.gates.countP fun g => g.2 = 2
  let gated := s.pwr.gates.countP fun g => g.2 = 1
  retained * 2 ^ 32 + gated * 2 ^ 16 + (256 - off - retained - gated)

/-- PTP_NOW: seconds and nanoseconds (Table 11.20). -/
def State.viewPtp (s : State) : Nat := s.fab.ptp.now / 1000000000000 % 2 ^ 34 * 2 ^ 30 + s.fab.ptp.now / 1000 % 1000000000

/-- ARRAY_STATE_s_a: the last matrix command of a core that carries a unit, its LOADMODE, and whether it is in flight
(Table 4.17). -/
def State.viewArray (s : State) (core raw : Nat) : Nat :=
  match s.core.lastCmd with
  | none => raw
  | some (n, tag, lm) =>
    if (s.busyCores).contains core then
      let live := s.cmd.cmds.any fun c => decide (c.id = n) && c.tagHeld
      putBits (putBits (putBits raw 28 28 lm) 27 27 (ofBool live)) 11 0 tag
    else raw

/-- Whether a per-core register belongs to a position of a clearing (Tables 4.16 to 4.20): it reads zero and
ignores writes. -/
def State.coreRegGone (s : State) (off : Nat) : Bool :=
  decide (0x100000 ≤ off) && decide (off < 0x200000) && s.isRetired ((off - 0x100000) / 0x100 / 16)

/-- The registers, but for those of the arrays, whose value reports other state. -/
def viewOffsets : List Nat :=
  (List.range 16).map Reg.ringStatus ++ (List.range 9).map Reg.linkGroup ++ (List.range 16).map Reg.collSlot ++
  [Reg.cmdStatus, Reg.arithFlagsSummary, Reg.imposerState, Reg.imposerCapacity, Reg.forwardState, Reg.hbmThermal,
   Reg.alarmState, Reg.seedBankState, Reg.galleyFree, Reg.galleyWaiters, Reg.tableProbe, Reg.tableProbeLen,
   Reg.wgradState, Reg.deferState, Reg.saveRecords, Reg.editionProbe, Reg.collState, Reg.testPending, Reg.gateState,
   Reg.moduleInput, Reg.ptpNow, Reg.proofState]

/-- The current value of the register that starts at an offset. -/
def State.regView (s : State) (off : Nat) : Nat :=
  let raw := s.reg off
  if s.coreRegGone off then 0
  else if 0x100000 ≤ off ∧ off < 0x200000 then
    if off % 0x100 < 0x80 ∧ off % 0x20 = 4 then s.viewArray ((off - 0x100000) / 0x100) raw else raw
  else if inFamily off 0x10018 0x40 16 then s.viewRingStatus ((off - 0x10018) / 0x40) raw
  else if off = Reg.cmdStatus then putBits raw 12 0 (s.cmd.cmds.countP fun c => c.tagHeld)
  else if off = Reg.arithFlagsSummary then s.flagsSummary
  else if off = Reg.imposerState then s.viewImposerState
  else if off = Reg.imposerCapacity then s.viewImposerCapacity raw
  else if off = Reg.forwardState then putBits raw 12 0 s.forwardEntries
  else if off = Reg.hbmThermal then s.viewThermal
  else if off = Reg.alarmState then s.viewAlarm
  else if inFamily off 0xB0100 8 9 then s.viewLinkGroup ((off - 0xB0100) / 8)
  else if off = Reg.seedBankState then s.viewSeedBank raw
  else if off = Reg.galleyFree then (s.attn.store.map (·.2)).getD 0 - s.attn.galleys.length
  else if off = Reg.galleyWaiters then s.cmd.cmds.countP fun c => c.phase = .waiting ∧ c.aux = [11]
  else if off = Reg.tableProbe then s.viewTableProbe
  else if off = Reg.tableProbeLen then s.viewTableLen
  else if off = Reg.wgradState then s.viewWgrad
  else if off = Reg.deferState then putBits raw 24 16 s.deferred
  else if off = Reg.saveRecords then (s.tens.map fun t => t.record.length).sum
  else if off = Reg.editionProbe then s.viewEdition
  else if off = Reg.collState then s.viewColl
  else if inFamily off 0xC0200 8 16 then s.viewSlot ((off - 0xC0200) / 8)
  else if off = Reg.testPending then s.viewTests
  else if off = Reg.gateState then s.viewGates
  else if off = Reg.moduleInput then putBits raw 0 0 (ofBool s.pwr.inRange)
  else if off = Reg.ptpNow then s.viewPtp
  else if off = Reg.proofState then
    putBits raw 30 30 (ofBool (s.cmd.cmds.any fun c => decide (c.phase = .waiting) && decide (c.aux.head? = some 24)))
  else raw

end Sys2Proof.Machine
end

