-- ==== Sys2Proof/Machine/Access.lean ====
section
/-! DEFINITION. Reading and writing registers by offset (00_scope.md R9, R10; 10_memory.md R280): the access
types of Table 0.10 over the bytes an access covers. -/

namespace Sys2Proof.Machine

/-- The registers an access of `n` bytes at `o` covers: offset, first byte of the register covered, number of
bytes (R62, R280). -/
def regSpans (o n : Nat) : List (Nat × Nat × Nat) :=
  ([o - 4, o, o + 4].eraseDups).filterMap fun r =>
    if r % 4 ≠ 0 then none
    else match regFamily r with
    | none => none
    | some f =>
      let a := max r o
      let b := min (r + f.bytes) (o + n)
      if a < b then some (r, a - r, b - a) else none

/-- Whether an access covers some byte of a register. -/
def coversRegister (o n : Nat) : Bool := ! (regSpans o n).isEmpty

/-- The value an access returns: each covered register's bytes in their places, zero elsewhere (R280). -/
def State.peekReg (s : State) (o n : Nat) : Nat :=
  (regSpans o n).foldl (fun v x =>
    v + bits (s.regView x.1) (8 * (x.2.1 + x.2.2) - 1) (8 * x.2.1) * 2 ^ (8 * (x.1 + x.2.1 - o))) 0

/-- The RC fields that lie within the bytes returned are cleared (R9). -/
def State.clearRC (s : State) (x : Nat × Nat × Nat) : State :=
  match regFamily x.1 with
  | none => s
  | some f => f.fields.foldl (fun s fd =>
      if fd.acc = .rc ∧ 8 * x.2.1 ≤ fd.lo ∧ fd.hi < 8 * (x.2.1 + x.2.2) ∧ ! s.coreRegGone x.1
      then s.setFld x.1 fd.hi fd.lo 0 else s) s

/-- A register read: its value and the state after it (R9). -/
def State.readReg (s : State) (o n : Nat) : Nat × State := (s.peekReg o n, (regSpans o n).foldl State.clearRC s)

/-- A field after a write of `v` to bits `hi:lo` of its register (Table 0.10). -/
def writeField (old v hi lo : Nat) (fd : RegField) : Nat :=
  let a := max fd.lo lo
  let b := min fd.hi hi
  if b < a then old
  else match fd.acc with
    | .rw => putBits old b a (bits v b a)
    | .w1c => putBits old b a (bits old b a - (bits old b a &&& bits v b a))
    | _ => old

/-- A write of `v`, placed at the register's bit 0, to its bytes `first` to `first + count − 1`. -/
def State.writeSpan (s : State) (off first count v : Nat) : State :=
  match regFamily off with
  | none => s
  | some f =>
    if s.coreRegGone off then s
    else s.setReg off (f.fields.foldl (fun w fd => writeField w v (8 * (first + count) - 1) (8 * first) fd) (s.reg off))

end Sys2Proof.Machine
end

