-- ==== Sys2Proof/Machine/Packets.lean ====
section
/-! DEFINITION. Command packets: the opcodes of Table 2.10, the LENGTH each requires, and the reserved bytes and
bits of its header and parameter block (02 R11, R36 to R39, and the parameter table of each group). -/

namespace Sys2Proof.Machine

/-- One opcode: its LENGTH, its reserved byte ranges (first, last) and its reserved bits (byte, mask). -/
structure OpRow where
  opcode : Nat
  length : Nat
  bytes : List (Nat × Nat)
  masks : List (Nat × Nat)
  deriving DecidableEq, Repr

/-- Admin, memory and Imposer groups (Tables 2.17, 10.7, 9.2, 9.4; R241, R242, R253, R254, R262, R263). Parameter
bytes that a rule given in prose leaves unnamed, as RELEASE_TENSOR bytes 63:36, QUERY_IMPOSITION bytes 63:41 and
MIGRATE byte 39, are taken as reserved (log 23, DESIGN CHOICE). -/
def opRows1 : List OpRow :=
  [⟨0x0100, 1, [], []⟩, ⟨0x0101, 1, [], []⟩,
   ⟨0x0102, 2, [(37, 63)], []⟩,
   ⟨0x0103, 2, [(37, 39), (48, 63)], []⟩,
   ⟨0x0104, 2, [(33, 35), (40, 63)], []⟩,
   ⟨0x0105, 2, [(33, 63)], []⟩,
   ⟨0x0106, 1, [], []⟩,
   ⟨0x0201, 2, [(56, 63)], []⟩,
   ⟨0x0202, 2, [(56, 63)], []⟩,
   ⟨0x0203, 3, [(72, 95)], []⟩,
   ⟨0x0204, 2, [(48, 63)], []⟩,
   ⟨0x0301, 3, [(42, 47), (64, 95)], [(34, 0xF8), (36, 0xE0)]⟩,
   ⟨0x0302, 2, [(36, 63)], []⟩,
   ⟨0x0303, 2, [(53, 63)], []⟩,
   ⟨0x0304, 2, [], [(33, 0xFC)]⟩,
   ⟨0x0305, 2, [(41, 63)], []⟩,
   ⟨0x0306, 2, [(39, 39), (58, 63)], []⟩,
   ⟨0x0307, 2, [(48, 63)], []⟩,
   ⟨0x0308, 2, [(41, 63)], []⟩]

/-- Matrix, vector and attention groups (Tables 4.8 to 4.10, 5.7 to 5.11, 6.6 to 6.10). -/
def opRows2 : List OpRow :=
  [⟨0x0401, 3, [(68, 95)], [(47, 0xE0)]⟩,
   ⟨0x0402, 3, [(70, 95)], [(47, 0xE0), (69, 0xF0)]⟩,
   ⟨0x0403, 3, [(60, 95)], [(47, 0xC0)]⟩,
   ⟨0x0404, 2, [(36, 63)], []⟩,
   ⟨0x0501, 3, [(42, 43), (68, 95)], []⟩,
   ⟨0x0502, 2, [(41, 63)], [(40, 0xFE)]⟩,
   ⟨0x0503, 2, [(46, 63)], []⟩,
   ⟨0x0504, 2, [(42, 43), (48, 63)], [(41, 0xFE)]⟩,
   ⟨0x0505, 2, [(48, 63)], []⟩,
   ⟨0x0601, 4, [(38, 39), (105, 127)], [(51, 0xE0), (53, 0xFC)]⟩,
   ⟨0x0602, 5, [(38, 39), (105, 143)], [(51, 0xE0), (53, 0xFC)]⟩,
   ⟨0x0603, 2, [(58, 63)], [(56, 0xFE)]⟩,
   ⟨0x0604, 2, [(52, 63)], []⟩,
   ⟨0x0605, 2, [(32, 32), (52, 63)], []⟩,
   ⟨0x0606, 3, [(54, 95)], [(53, 0xFE)]⟩,
   ⟨0x0607, 5, [(38, 39), (105, 127), (137, 143)], [(51, 0xE0), (53, 0xFC)]⟩]

/-- Training, update and collective groups (Tables 7.4 to 7.7, 8.3 to 8.5, 12.6). -/
def opRows3 : List OpRow :=
  [⟨0x0701, 2, [(55, 55), (60, 63)], [(54, 0xF0)]⟩,
   ⟨0x0702, 2, [(51, 51), (54, 55), (60, 63)], [(50, 0xFC), (53, 0xF0)]⟩,
   ⟨0x0703, 2, [(39, 39), (48, 63)], [(38, 0xFE)]⟩,
   ⟨0x0704, 2, [(36, 63)], []⟩,
   ⟨0x0705, 2, [(33, 35), (52, 63)], []⟩,
   ⟨0x0706, 3, [(81, 95)], [(45, 0xC0), (80, 0xFE)]⟩,
   ⟨0x0707, 2, [(43, 63)], [(42, 0xFE)]⟩,
   ⟨0x0801, 3, [(46, 47), (50, 51), (52, 55), (64, 95)], [(43, 0xFC)]⟩,
   ⟨0x0802, 3, [(46, 47), (50, 51), (52, 55), (64, 95)], [(43, 0xFC)]⟩,
   ⟨0x0803, 3, [(41, 41), (46, 47), (50, 51), (52, 55), (64, 95)], [(43, 0xFC)]⟩,
   ⟨0x0804, 3, [(41, 41), (50, 51), (52, 55), (64, 95)], [(43, 0xFC)]⟩,
   ⟨0x0805, 3, [(41, 41), (46, 47), (50, 51), (52, 55), (64, 95)], [(43, 0xFC)]⟩,
   ⟨0x0806, 3, [(41, 41), (46, 47), (50, 51), (64, 95)], [(43, 0xFC)]⟩]

/-- Feeder, convolution, tally, proof, test and security groups (Tables 13.5 to 13.8, 14.4, 14.5, 2.19, 18.3,
16.7; R351, R436). -/
def opRows4 : List OpRow :=
  [⟨0x0901, 2, [(56, 63)], [(33, 0xFE)]⟩,
   ⟨0x0902, 2, [(35, 35), (63, 63)], [(34, 0xFC)]⟩,
   ⟨0x0903, 2, [(33, 35), (56, 63)], []⟩,
   ⟨0x0904, 2, [(34, 39), (52, 63)], [(33, 0xFE)]⟩,
   ⟨0x0905, 2, [(33, 63)], []⟩,
   ⟨0x0A01, 3, [(72, 95)], [(47, 0xFC)]⟩,
   ⟨0x0A02, 3, [(72, 95)], [(47, 0xFC)]⟩,
   ⟨0x0A03, 2, [(48, 63)], []⟩,
   ⟨0x0A04, 3, [(72, 95)], [(47, 0xFC)]⟩,
   ⟨0x0B01, 2, [(48, 63)], []⟩,
   ⟨0x0B02, 2, [(48, 63)], []⟩,
   ⟨0x0B03, 2, [(52, 63)], []⟩,
   ⟨0x0B04, 2, [(52, 63)], []⟩,
   ⟨0x0B05, 2, [(40, 63)], []⟩,
   ⟨0x0C01, 1, [], []⟩,
   ⟨0x0C02, 2, [(40, 63)], []⟩,
   ⟨0x0C03, 2, [(49, 63)], []⟩,
   ⟨0x0C04, 2, [(49, 63)], []⟩,
   ⟨0x0D01, 2, [(40, 63)], []⟩,
   ⟨0x0D02, 1, [], []⟩,
   ⟨0x0D03, 2, [(33, 63)], []⟩,
   ⟨0x0D04, 1, [], []⟩,
   ⟨0x0D05, 2, [(33, 63)], []⟩,
   ⟨0x0D06, 2, [(33, 33), (36, 63)], []⟩,
   ⟨0x0E01, 3, [(72, 95)], []⟩,
   ⟨0x0E02, 2, [(33, 39), (48, 63)], []⟩,
   ⟨0x0E03, 2, [(44, 63)], []⟩,
   ⟨0x0E04, 2, [(45, 63)], []⟩,
   ⟨0x0E05, 2, [(33, 63)], []⟩]

/-- Every opcode of Table 2.10. -/
def opRows : List OpRow := opRows1 ++ opRows2 ++ opRows3 ++ opRows4

/-- The row of an opcode; none when Table 2.10 does not hold it. -/
def opRow (opcode : Nat) : Option OpRow := opRows.find? fun r => r.opcode = opcode

/-- Whether every byte of a range is zero. -/
def zeroBytes (p : List Byte) (lo hi : Nat) : Bool := decide (fieldAt p lo (hi + 1 - lo) = 0)

/-- Whether a reserved field of the header is non-zero (R37, Tables 2.6, 2.7): FLAGS bits 15:10, TAG bits 15:12,
and the index, value and EQ bit of an absent wait or signal. -/
def headerReserved (p : List Byte) : Bool :=
  let f := fieldAt p 2 2
  decide (f / 1024 ≠ 0) || decide (fieldAt p 6 2 / 4096 ≠ 0) ||
  (decide (bit f 0 = 0) && (decide (bit f 1 = 1) || ! zeroBytes p 8 9 || ! zeroBytes p 16 23)) ||
  (decide (bit f 2 = 0) && (decide (bit f 3 = 1) || ! zeroBytes p 10 11 || ! zeroBytes p 24 31)) ||
  (decide (bit f 4 = 0) && ! zeroBytes p 12 13) ||
  (decide (bit f 5 = 0) && ! zeroBytes p 14 15)

/-- The fields that are reserved under a condition of the packet itself. -/
def conditionalReserved (p : List Byte) : Bool :=
  let b := fun i => fieldAt p i 1
  match fieldAt p 0 2 with
  | 0x0103 => decide (b 36 = 4) && ! zeroBytes p 44 47
  | 0x0301 =>
    -- BLOCK_AXIS without MX; EDITION_SLOTS without WEIGHT; LAYER and MICROBATCH without ACT_SAVED; lengths
    -- beyond AXES
    (decide (bit (b 32) 4 = 0) && decide (b 35 ≠ 0)) ||
    (decide (b 33 ≠ 1) && decide (b 37 ≠ 0)) ||
    (decide (b 33 ≠ 3) && ! zeroBytes p 38 41) ||
    ((List.range 4).any fun i => decide (b 34 % 8 ≤ i) && decide (fieldAt p (48 + 4 * i) 4 ≠ 0))
  | 0x0304 =>
    if b 32 = 0 then ! zeroBytes p 60 63
    else decide (b 32 = 1) && ! zeroBytes p 38 59
  | 0x0306 => (List.range 8).any fun i => decide (b 38 ≤ i) && decide (fieldAt p (40 + 2 * i) 2 ≠ 0)
  | 0x0403 => decide (b 47 % 4 = 3)
  | 0x0602 => ! zeroBytes p 128 143
  | 0x0703 => decide (bit (b 38) 0 = 0) && ! zeroBytes p 40 47
  | 0x0706 => decide (b 44 ≠ 1) && (decide (b 47 ≠ 0) || ! zeroBytes p 68 77)
  | 0x0901 => decide (bit (b 33) 0 = 0) && decide (b 34 ≠ 0)
  | 0x0902 => decide (b 33 ≠ 1) && ! zeroBytes p 40 47
  | _ => false

/-- The format bytes of a packet (Tables 4.8, 4.9, 5.11, 6.6, 7.5, 7.6, 9.2, 14.3), whose bits 7:5 are reserved (R68). -/
def formatBytes : Nat → List Nat
  | 0x0301 => [32]
  | 0x0401 => [44, 45, 46]
  | 0x0402 => [44, 45, 46]
  | 0x0403 => [44, 45, 46]
  | 0x0503 => [45]
  | 0x0601 => [48, 49, 50]
  | 0x0602 => [48, 49, 50]
  | 0x0607 => [48, 49, 50]
  | 0x0701 => [52, 53]
  | 0x0702 => [48, 49]
  | 0x0A01 => [44, 45, 46]
  | 0x0A02 => [44, 45, 46]
  | 0x0A04 => [44, 45, 46]
  | _ => []

/-- Whether a reserved field of the packet is non-zero (R11). -/
def packetReserved (r : OpRow) (p : List Byte) : Bool :=
  headerReserved p || r.bytes.any (fun x => ! zeroBytes p x.1 x.2) ||
  r.masks.any (fun x => decide (fieldAt p x.1 1 &&& x.2 ≠ 0)) || conditionalReserved p ||
  (formatBytes (fieldAt p 0 2)).any fun i => decide (32 ≤ fieldAt p i 1)

/-- The first cause for which a packet is rejected (R39, in the order of its list), given whether its tag is in
flight: BAD_OPCODE, BAD_LENGTH, RESERVED_NONZERO, TAG_IN_USE. -/
def packetFault (p : List Byte) (tagInUse : Bool) : Option Nat :=
  match opRow (fieldAt p 0 2) with
  | none => some 0x0001
  | some r =>
    if fieldAt p 4 2 ≠ r.length then some 0x0002
    else if packetReserved r p then some 0x0004
    else if tagInUse then some 0x0003
    else none

/-- The number of slots a packet takes: its LENGTH where that is 1 to 128; a packet with a LENGTH out of range
is taken as its header alone. -/
def packetSlots (header : List Byte) : Nat :=
  let n := fieldAt header 4 2
  if 1 ≤ n ∧ n ≤ 128 then n else 1

end Sys2Proof.Machine
end

