-- ==== Sys2Proof/Machine/Rings.lean ====
section
/-! DEFINITION. Rings, validation, waits, dispatch and replies (02_commands_and_tallies.md R29 to R55, R59; the
GCL's part in them, 15 R376 to R379). -/

namespace Sys2Proof.Machine

/-! ### Rings and fetching -/

/-- Whether a ring is enabled. -/
def State.ringOn (s : State) (n : Nat) : Bool := s.fld (Reg.ringCfg n) 0 0 = 1

/-- Slots of a ring. -/
def State.ringSize (s : State) (n : Nat) : Nat := 2 ^ s.fld (Reg.ringCfg n) 7 4

/-- Entries of a reply ring. -/
def State.replySize (s : State) (n : Nat) : Nat := 2 ^ s.fld (Reg.replyCfg n) 7 4

/-- HEAD and TAIL of a ring. -/
def State.head (s : State) (n : Nat) : Nat := s.fld (Reg.ringPtr n) 31 16
def State.tail (s : State) (n : Nat) : Nat := s.fld (Reg.ringPtr n) 15 0

/-- Commands in flight, all rings (R40). -/
def State.tagsInFlight (s : State) : Nat := s.cmd.cmds.countP fun c => c.tagHeld

/-- Whether the device fetches packets of a ring now (R31, R34, R40, R59, R379, R380, R416). -/
def State.mayFetch (s : State) (n : Nat) : Bool :=
  s.ringOn n && ! (s.ring n).stopped && ! s.isFatal && s.gclUp && decide (s.tagsInFlight < 4096) &&
  decide (s.cmd.resetPhase = 0)

/-- A free GCL tag, if one of the 4,096 is (R371). -/
def State.gclTag (s : State) : Option Nat := (List.range 4096).find? fun t => ! s.gcl.reqs.any fun r => r.1 = t

/-- A message of the device with its tag. -/
def GclMsg.tagged (t : Nat) : GclMsg → GclMsg
  | .rdNc _ a n => .rdNc t a n
  | .wrNc _ a d => .wrNc t a d
  | .snpInv _ a => .snpInv t a
  | .snpShare _ a => .snpShare t a
  | m => m

/-- A non-posted request of the device (R371), given without its tag, and what it is for; without a free tag it waits. -/
def State.gclRequest (s : State) (p : GclPurpose) (m : GclMsg) : State :=
  match s.gclTag with
  | none => { s with gcl := { s.gcl with waiting := s.gcl.waiting ++ [(p, m)] } }
  | some t => ({ s with gcl := { s.gcl with reqs := s.gcl.reqs ++ [(t, p)] } }).gclSend (m.tagged t)

/-- A tag has become free: the request that has waited longest takes it. -/
def State.gclTagFreed (s : State) : State :=
  match s.gcl.waiting with
  | [] => s
  | x :: rest => ({ s with gcl := { s.gcl with waiting := rest } }).gclRequest x.1 x.2

/-- Companion-memory address of a slot. -/
def State.slotAddr (s : State) (n slot : Nat) : Nat := s.fld (Reg.ringCfg n) 63 12 * 4096 + 32 * slot

/-- Issue the RD_NC fetches of a ring from where they stand up to TAIL (R31, R376), one per slot; `fuel` bounds
them by the ring's size. -/
def State.fetchLoop (n : Nat) : Nat → State → State
  | 0, s => s
  | fuel + 1, s =>
    let r := s.ring n
    if r.fetchPtr = s.tail n ∨ s.gclTag = none ∨ s.gcl.waiting ≠ [] then s
    else
      let s := s.gclRequest (.fetch n r.fetchPtr) (.rdNc 0 (s.slotAddr n r.fetchPtr) 32)
      State.fetchLoop n fuel (s.updRing n fun r => { r with fetchPtr := (r.fetchPtr + 1) % s.ringSize n })

/-- Issue the fetches of one ring, if it may fetch. -/
def State.fetchRing (s : State) (n : Nat) : State := if s.mayFetch n then State.fetchLoop n (s.ringSize n) s else s

/-- Issue the fetches of every ring. -/
def State.fetchAll (s : State) : State := (List.range 16).foldl State.fetchRing s

/-- The doorbell (R31): ignored while the ring is disabled; a TAIL not below the ring size sets BAD_TAIL. -/
def State.doorbell (s : State) (n tail : Nat) : State :=
  if ! s.ringOn n then s
  else if s.ringSize n ≤ tail then s.setFld (Reg.ringStatus n) 2 2 1
  else (s.setFld (Reg.ringPtr n) 15 0 tail).fetchRing n

/-- Whether both size fields of a ring are in range (R33). -/
def State.sizesOk (s : State) (n : Nat) : Bool :=
  let a := s.fld (Reg.ringCfg n) 7 4
  let b := s.fld (Reg.replyCfg n) 7 4
  decide (6 ≤ a) && decide (6 ≤ b)

/-- A write of RING_CFG_n, `v` placed at the register's bit 0, over bytes `first` on (R33, R34): BASE and
LOG2_SLOTS are ignored while ENABLE is 1; setting ENABLE zeroes the pointers and sets the reply phase, or sets
CFG_ERR when a size field is out of range; clearing it stops fetching. -/
def State.writeRingCfg (s : State) (n first count v : Nat) : State :=
  let old := s.reg (Reg.ringCfg n)
  let t := s.writeSpan (Reg.ringCfg n) first count v
  if bit old 0 = 1 then t.setReg (Reg.ringCfg n) (putBits old 0 0 (t.fld (Reg.ringCfg n) 0 0))
  else if t.fld (Reg.ringCfg n) 0 0 = 0 then t
  else if t.sizesOk n then
    let t := (t.setReg (Reg.ringPtr n) 0).setReg (Reg.replyPtr n) 0
    t.updRing n fun _ => { RingSt.reset with replyPhase := true }
  else (t.setFld (Reg.ringCfg n) 0 0 0).setFld (Reg.ringStatus n) 1 1 1

/-- A write of REPLY_CFG_n: ignored in BASE and LOG2_ENTRIES while ENABLE is 1 (R33). -/
def State.writeReplyCfg (s : State) (n first count v : Nat) : State :=
  if s.ringOn n then s else s.writeSpan (Reg.replyCfg n) first count v

/-! ### Replies (R35, R41, R42, R377) -/

/-- The 32 bytes of a command's status reply (Table 2.8). -/
def replyBytes (c : Cmd) (phase : Bool) : List Byte :=
  leBytes 2 c.opcode ++ leBytes 2 c.status ++ leBytes 2 (c.tag + 2 ^ 15 * ofBool phase) ++ leBytes 1 c.ring ++ [0] ++
  leBytes 2 c.detail ++ leBytes 6 c.time ++ leBytes 16 c.result

/-- Companion-memory address of the reply entry the device writes next. -/
def State.entryAddr (s : State) (n : Nat) : Nat :=
  s.fld (Reg.replyCfg n) 63 12 * 4096 + 32 * s.fld (Reg.replyPtr n) 31 16

/-- The held completion of a ring that comes first (R35). -/
def firstOf : List Cmd → Option Cmd
  | [] => none
  | c :: cs => match firstOf cs with
    | none => some c
    | some d => if d.stamp < c.stamp then some d else some c

/-- Start the next reply of a ring when none is being written and an entry is free (R35, R377): bytes 31:8
first. -/
def State.replyPump (s : State) (n : Nat) : State :=
  let mine := s.cmd.cmds.filter fun c => c.ring = n
  if mine.any (fun c => c.phase = .replyFirst ∨ c.phase = .replyLast) || s.replyFull n then s
  else match firstOf (mine.filter fun c => c.phase = .held) with
  | none => s
  | some c =>
    let a := s.entryAddr n
    let d := (replyBytes c (s.ring n).replyPhase).drop 8
    (s.updCmd c.id fun c => { c with phase := .replyFirst }).gclRequest (.reply c.id false) (.wrNc 0 (a + 8) d)

/-- A write of REPLY_PTR_n.HEAD (R31, R35): taken while ENABLE or BUSY is 1; a HEAD not below the size sets
BAD_HEAD; a freed entry lets the held completions be written. -/
def State.replyHead (s : State) (n head : Nat) : State :=
  if ! (s.ringOn n || s.cmd.cmds.any fun c => c.ring = n) then s
  else if s.replySize n ≤ head then s.setFld (Reg.ringStatus n) 4 4 1
  else (s.setFld (Reg.replyPtr n) 15 0 head).replyPump n

/-- A command leaves flight: its tag is freed (R40), and fetching may go on. -/
def State.freeTag (s : State) (c : Cmd) : State :=
  let s := { s with cmd := { s.cmd with
    cmds := s.cmd.cmds.filter fun d => d.id ≠ c.id
    resetPhase := if c.opcode = 0x0106 ∧ s.cmd.resetPhase = 1 then 2 else s.cmd.resetPhase } }
  s.retire.fetchAll

/-- The second write of a reply completes (R42, R377, R378): the reply TAIL advances, the phase turns at the
wrap, the tag is freed, the ring's vector is raised, and the next held completion is written. -/
def State.replyWritten (s : State) (c : Cmd) : State :=
  let n := c.ring
  let t := (s.fld (Reg.replyPtr n) 31 16 + 1) % s.replySize n
  let s := s.setFld (Reg.replyPtr n) 31 16 t
  let s := if t = 0 then s.updRing n fun r => { r with replyPhase := ! r.replyPhase } else s
  ((s.freeTag c).irq n).replyPump n

/-- A completed write of the device (CMP): the first half of a reply is followed by the second. -/
def State.writeCompleted (s : State) (n : Nat) (last : Bool) : State :=
  match s.cmdOf n with
  | none => s
  | some c =>
    if last then s.replyWritten c
    else
      let a := s.entryAddr c.ring
      let d := (replyBytes c (s.ring c.ring).replyPhase).take 8
      (s.updCmd n fun c => { c with phase := .replyLast }).gclRequest (.reply n true) (.wrNc 0 a d)

/-- An ERR answer to a fetch or a reply write (R379): HOST_FAULT, the ring recorded, its fetching stopped; a
reply that could not be written is lost and its tag freed. -/
def State.hostFault (s : State) (ring : Nat) : State :=
  ((s.gclErrSet 1).setFld Reg.gclErr 15 8 ring).updRing ring fun r => { r with stopped := true }

/-! ### Validation (R32, R39, R40) -/

/-- The packet at the head of a ring, when every slot of it has been fetched. A packet whose LENGTH is 1 to 128 and
reaches past TAIL, or past what the ring holds, waits for its missing slots and is not validated before they come
(log 25, DESIGN CHOICE). -/
def State.packetAt (s : State) (n : Nat) : Option (List Byte) :=
  let h := s.head n
  let slot := fun i => (s.ring n).slots.find? fun x => x.1 = (h + i) % s.ringSize n
  match slot 0 with
  | none => none
  | some x =>
    let l := (List.range (packetSlots x.2)).map slot
    if l.all Option.isSome then some (l.filterMap (·.map (·.2))).flatten else none

/-- The rings in round-robin order after the one last served (R32). -/
def ringOrder (last : Nat) : List Nat := (List.range 16).map fun i => (last + 1 + i) % 16

/-- The ring whose packet is validated next (R32): enabled, with a packet pending that has arrived. -/
def State.nextRing (s : State) : Option Nat :=
  (ringOrder s.cmd.lastServed).find? fun n =>
    s.mayFetch n && decide (s.head n ≠ s.tail n) && (s.packetAt n).isSome

/-- A command as it is validated: rejected with a DETAIL, or accepted. -/
def newCmd (id ring : Nat) (p : List Byte) (fault : Option Nat) (time : Nat) : Cmd :=
  { id := id, ring := ring, pkt := p, tagHeld := fault.isNone,
    phase := if fault.isNone then .validated else .done,
    met := [], noticed := [], stamp := 0, latch := ⟨0, 0, 0, [], []⟩,
    status := if fault.isNone then 0 else stBadParam, detail := fault.getD 0, result := 0, time := time % 2 ^ 48,
    aux := [], buf := [] }

/-! ### Waits (R51, R52) -/

/-- The header waits present in a packet. -/
def Cmd.waits (c : Cmd) : List Nat :=
  (if bit c.flags 0 = 1 then [0] else []) ++ (if bit c.flags 2 = 1 then [1] else [])

/-- A header wait of a packet (Table 2.6, Table 2.7). -/
def Cmd.waiter (c : Cmd) (i : Nat) : Waiter :=
  { tally := c.par (8 + 2 * i) 2, isEq := bit c.flags (2 * i + 1) = 1, value := c.par (16 + 8 * i) 8,
    owner := .header c.id i }

/-- The command at the head of a ring's dispatch: the earliest validated one not dispatched (R51). -/
def State.dispatchHead (s : State) (n : Nat) : Option Cmd :=
  s.cmd.cmds.find? fun c =>
    decide (c.ring = n) && (decide (c.phase = .validated) || decide (c.phase = .attached) || decide (c.phase = .eligible))

/-- Make the command at the head of a ring's dispatch attach its waits (R51); one without waits is eligible. -/
def State.attachHead (s : State) (n : Nat) : State :=
  match s.dispatchHead n with
  | none => s
  | some c =>
    if c.phase ≠ .validated then s
    else if c.waits.isEmpty then
      s.updCmd c.id fun c => { c with phase := .eligible, stamp := s.cmd.tick }
    else
      let s := s.updCmd c.id fun c => { c with phase := .attached }
      c.waits.foldl (fun s i => s.tallyWait (c.waiter i)) s

/-- Whether a notice, by command and wait, is one the master does not hold yet of a wait that is met. -/
def State.noticeNew (s : State) (x : Nat × Nat) : Bool :=
  match s.cmdOf x.1 with
  | none => false
  | some c => decide (c.phase = .attached ∧ x.2 ∈ c.met ∧ x.2 ∉ c.noticed)

/-- Notice of one met wait reaches the master (R51): once notice of the last present wait is held, the command
is eligible. -/
def State.noticeOne (s : State) (x : Nat × Nat) : State :=
  match s.cmdOf x.1 with
  | none => s
  | some c =>
    if c.phase = .attached ∧ x.2 ∈ c.met ∧ x.2 ∉ c.noticed then
      let got := x.2 :: c.noticed
      s.updCmd x.1 fun c =>
        { c with noticed := got
                 phase := if c.waits.all (· ∈ got) then .eligible else .attached
                 stamp := s.cmd.tick }
    else s

/-! ### Dispatch (R51, R55, R56, R259) -/

/-- Whether a command with FENCE may be dispatched: every earlier command of its ring has left flight (R55). -/
def State.fenceOk (s : State) (c : Cmd) : Bool :=
  decide (bit c.flags 7 = 0) || ! s.cmd.cmds.any fun d => d.ring = c.ring ∧ d.id < c.id

/-- Whether deferred test work holds a command back (R259): only admin, tally and security commands are
dispatched while it runs. -/
def State.testsHold (s : State) (c : Cmd) : Bool :=
  (s.obs.tests.any fun t => t.running) &&
  ! (decide (functionOf c.opcode = 10) || decide (functionOf c.opcode = 12) || decide (functionOf c.opcode = 13))

/-- Whether an eligible command may be dispatched now; a DEFER command waits while the deferral queue is full
(07 R188). -/
def State.dispatchable (s : State) (c : Cmd) : Bool :=
  decide (c.phase = .eligible) && s.fenceOk c && ! s.testsHold c &&
  ! (decide (c.opcode = 0x0702) && decide (bit (c.par 50 1) 0 = 1) && decide (256 ≤ s.deferred))

/-- The place of a ring in the turn after the ring last dispatched from (R51). -/
def turn (last ring : Nat) : Nat := (ring + 16 - (last + 1) % 16) % 16

/-- Whether `c` goes before `d` (R51): eligible first, then by the turn of the rings. -/
def State.goesBefore (s : State) (c d : Cmd) : Bool :=
  decide (c.stamp < d.stamp) ||
  (decide (c.stamp = d.stamp) && decide (turn s.cmd.lastDispatch c.ring < turn s.cmd.lastDispatch d.ring))

/-- The command dispatched next. -/
def State.pickDispatch (s : State) : Option Cmd :=
  (s.cmd.cmds.filter s.dispatchable).foldl (fun best c => match best with
    | none => some c
    | some b => if s.goesBefore c b then some c else some b) none

/-- Whether a function is disabled (FUNC_STATE.DISABLED). -/
def State.isDisabled (s : State) (f : Nat) : Bool := decide (f < 10) && decide (bit (s.reg Reg.funcState) f = 1)

/-- Whether a function is wedged (FUNC_STATE.WEDGED). -/
def State.isWedged (s : State) (f : Nat) : Bool := decide (f < 10) && decide (bit (s.reg Reg.funcState) (16 + f) = 1)

/-- The DISABLE_FUNCTION commands whose drain of a function is in progress (R56): the drain begins at the dispatch. -/
def State.drainers (s : State) (f : Nat) : List Cmd :=
  s.cmd.cmds.filter fun c =>
    c.opcode = 0x0104 ∧ (c.phase = .dispatched ∨ c.phase = .waiting) ∧ c.par 32 1 = f

/-- What a command latches at dispatch (R87, R131, R213, R248). -/
def State.latchFor (s : State) (c : Cmd) : Latch :=
  { mode := s.reg Reg.arithModeNow
    seedBank := s.fld Reg.seedBankState 31 31
    imposition := match s.imp.cur with
      | some i => i.number
      | none => 0
    editions := s.latchEditions c
    extra := [] }

/-- Dispatch one command: it latches what its chapter says; one whose function is disabled or draining completes
DISABLED (R56, R57); work to come wakes the copses that carry units (17 R407); the next command of its ring reaches the
head (R51). -/
def State.dispatchCmd (s : State) (c : Cmd) : State :=
  let f := functionOf c.opcode
  let s := { s with cmd := { s.cmd with lastDispatch := c.ring } }.nextTick
  let s :=
    if s.isDisabled f ∨ (f < 10 ∧ s.drainers f ≠ []) then
      s.finish c.id ⟨stDisabled, if s.isWedged f then 0x0006 else 0, 0⟩
    else
      let l := s.latchFor c
      let s := s.updCmd c.id fun c => { c with phase := .dispatched, stamp := s.cmd.tick, latch := l }
      let s := if c.holds then s.wakeUnits else s
      match s.cmdOf c.id with
      | some c => s.onDispatch c
      | none => s
  s.attachHead c.ring

/-! ### Completion (R38, R53, R55) -/

/-- Whether the signals of a completed command are applied at its completion (R53). -/
def Cmd.signalled (c : Cmd) : Bool :=
  c.tagHeld && decide (c.status ≠ stFatal) && decide (c.status ≠ stDeferred) &&
  (decide (c.status = stOK) || decide (bit c.flags 6 = 1))

/-- The signals of a packet applied, SIG0 before SIG1 (R53). -/
def State.applySignals (s : State) (pkt : List Byte) : State :=
  let f := fieldAt pkt 2 2
  let s := if bit f 4 = 1 then s.tallyAdd (fieldAt pkt 12 2) 1 else s
  if bit f 5 = 1 then s.tallyAdd (fieldAt pkt 14 2) 1 else s

/-- A completed command is reported (R38, R40, R55): with QUIET and OK its tag is freed without a reply;
otherwise its reply is written in turn. -/
def State.report (s : State) (c : Cmd) : State :=
  if bit c.flags 9 = 1 ∧ c.status = stOK ∧ c.tagHeld then s.freeTag c
  else
    let s := (s.updCmd c.id fun c => { c with phase := .held, stamp := s.cmd.tick }).nextTick
    s.replyPump c.ring

end Sys2Proof.Machine
end

