-- ==== Sys2Proof/Machine/Tallies.lean ====
section
/-! DEFINITION. The tally group (02_commands_and_tallies.md R63 to R66). A command that acts on another node's
tally waits: `aux` is [1, RESULT] while frames of it are unacknowledged, [2] while a read is outstanding, and
[3, node, number] while a watch it lodged is held. -/

namespace Sys2Proof.Machine

/-- Whether a node number is the ALIAS_NODE of a ready queue pair (R307). -/
def State.aliasQp (s : State) (node : Nat) : Option QueuePair :=
  s.fab.qps.find? fun q => q.state = 1 ∧ fieldAt q.ctx 0 2 = node

/-- A tally command: the check of its TALLY (R63), then its effect at home or through the fabric. A tally named
through an alias node is faulted, since only memory and copy commands may use one (R307). -/
def State.tallyCmd (s : State) (c : Cmd) (home : Nat → State → State) (away : Nat → State → State) : State :=
  let a := c.par 32 8
  match tallyIndex a with
  | none => s.finish c.id (Outcome.bad 0x0100)
  | some i =>
    let node := a / 2 ^ 48
    if node = s.node then home i s
    else if (s.aliasQp node).isSome then (s.fabricErr faultAccessKind s.node a).finish c.id (Outcome.aborted 0)
    else away node s

/-- TALLY_ADD (R64): at home at once; away as an IFP TALLY_ADD frame, complete when it is acknowledged. -/
def execTallyAdd (n : Nat) (s : State) : Host.Outcome State Fault Refusal :=
  .next (s.runCmd n 0x0B01 fun c s => s.tallyCmd c
    (fun i s => (s.tallyAdd i (c.par 40 8)).finish c.id (Outcome.ok 0))
    (fun node s => (s.park c.id [1, 0]).ifpMessage node 1 4 (c.par 32 8) 0 (leBytes 8 (c.par 40 8)) (.cmd c.id)))

/-- TALLY_SET (R64): away as an 8-byte IFP WRITE. -/
def execTallySet (n : Nat) (s : State) : Host.Outcome State Fault Refusal :=
  .next (s.runCmd n 0x0B02 fun c s => s.tallyCmd c
    (fun i s => (s.tallySet i (c.par 40 8)).finish c.id (Outcome.ok 0))
    (fun node s => (s.park c.id [1, 0]).ifpWrite node (c.par 32 8) (leBytes 8 (c.par 40 8)) (.cmd c.id)))

/-- The least watch number this node has not in flight at a home (R66). -/
def State.watchNumber (s : State) (node : Nat) : Nat :=
  ((List.range 65536).find? fun k => ! s.cmd.cmds.any fun c => c.aux = [3, node, k]).getD 0

/-- A tally wait (R64): attached at the home of a local tally; a watch lodged at a remote one (R50). -/
def State.tallyWaitCmd (s : State) (c : Cmd) (isEq : Bool) : State := s.tallyCmd c
  (fun i s => (s.park c.id []).tallyWait
    { tally := i, isEq := isEq, value := c.par 40 8, owner := .command c.id })
  (fun node s =>
    let k := s.watchNumber node
    (s.park c.id [3, node, k]).ifpMessage node 1 5 (c.par 32 8) 0
      (leBytes 8 (c.par 40 8) ++ [if isEq then 1 else 0, 0] ++ leBytes 2 k) (.cmd c.id))

/-- TALLY_WAIT_GE (R64). -/
def execTallyWaitGe (n : Nat) (s : State) : Host.Outcome State Fault Refusal :=
  .next (s.runCmd n 0x0B03 fun c s => s.tallyWaitCmd c false)

/-- TALLY_WAIT_EQ (R64). -/
def execTallyWaitEq (n : Nat) (s : State) : Host.Outcome State Fault Refusal :=
  .next (s.runCmd n 0x0B04 fun c s => s.tallyWaitCmd c true)

/-- Cancel the watch a command lodged, if it holds one (R66). -/
def State.cancelWatch (s : State) (c : Cmd) : State :=
  match c.aux with
  | [3, node, k] => (s.updCmd c.id fun c => { c with aux := [] }).ifpMessage node 1 7 0 0 (leBytes 2 k) .plain
  | _ => s

/-- TALLY_LIMIT (R64): the limit of a tally wait expires before it is met: TIMEOUT, its wait detached or its
watch cancelled, and no other effect. -/
def execTallyLimit (n : Nat) (s : State) : Host.Outcome State Fault Refusal :=
  .next (s.resumeCmd n fun c s =>
    if (c.opcode = 0x0B03 ∨ c.opcode = 0x0B04) ∧ c.par 48 4 ≠ 0 then
      let s := s.detach fun o => decide (o = .command n)
      (s.cancelWatch c).finish n ⟨stTimeout, 0x0102, 0⟩
    else s)

/-- TALLY_READ (R64): the value in RESULT bytes 23:16. -/
def execTallyRead (n : Nat) (s : State) : Host.Outcome State Fault Refusal :=
  .next (s.runCmd n 0x0B05 fun c s => s.tallyCmd c
    (fun i s => s.finish c.id (Outcome.ok (s.tallyVal i)))
    (fun node s => (s.park c.id [2]).ifpRead node (c.par 32 8) 8 (.cmd c.id)))

end Sys2Proof.Machine
end

