-- ==== Sys2Proof/Machine/RoceOps.lean ====
section
/-! DEFINITION. Sending through a RoCEv2 queue pair (11_links.md R305 to R307): operations cut into packets of
the path MTU, each kept until acknowledged. -/

namespace Sys2Proof.Machine

/-- The path MTU of a queue-pair context (Table 11.10). -/
def mtuOf (q : QueuePair) : Nat :=
  match fieldAt q.ctx 3 1 with
  | 3 => 1024
  | 4 => 2048
  | _ => 4096

/-- A queue pair changed. -/
def State.updQp (s : State) (i : Nat) (f : QueuePair → QueuePair) : State :=
  { s with fab := { s.fab with qps := s.fab.qps.map fun q => if q.index = i then f q else q } }

/-- Whether a link is an Ethernet port that is up. -/
def State.portUp (s : State) (n : Nat) : Bool :=
  decide (2 ≤ s.fld (Reg.linkCfg n) 31 30) && decide (s.fld (Reg.linkState n) 31 29 = 2)

/-- The headers of a RoCEv2 packet of a queue pair (R305): UDP to port 4791, the peer's address of its context. -/
def State.roceEther (s : State) (q : QueuePair) : EthHeader :=
  let m := Config.roceMarks q.index
  s.ethHeader (fieldAt q.ctx 7 1) m.1 m.2.1 (s.nodeAddress s.node) ((q.ctx.drop 16).take 16) m.2.2 4791

/-- A RoCEv2 packet leaves by the port of its queue pair, when that is up (R305). -/
def State.roceEmit (s : State) (q : QueuePair) (m : RoceMsg) : State :=
  if s.portUp (fieldAt q.ctx 7 1) then
    { s with fab := { s.fab with
      roceOut := s.fab.roceOut ++ [m], ether := s.fab.ether ++ [(s.roceEther q, EthBody.roce m)] } }
  else s

/-- Send one request packet of a command on a queue pair; it is kept until acknowledged. -/
def State.rocePut (s : State) (q : QueuePair) (cmd : Nat) (m : Nat → RoceMsg) : State :=
  match s.fab.qps.find? fun x => x.index = q.index with
  | none => s
  | some q =>
    (s.updQp q.index fun q =>
      { q with sqPsn := (q.sqPsn + 1) % 2 ^ 24, unacked := q.unacked ++ [(q.sqPsn, m q.sqPsn, cmd)] }).roceEmit q (m q.sqPsn)

/-- The pieces of `n` bytes that a list is cut into, with their offsets. -/
def pieces (n : Nat) (d : List Byte) : List (Nat × List Byte) :=
  (chunks (max n 1) d.length d).zipIdx.map fun p => (p.2 * n, p.1)

/-- The place of packet `i` of `n` in its message: First, Middle, Last or Only. -/
def packetKind (i n : Nat) : Nat := if n = 1 then 3 else if i = 0 then 0 else if i + 1 = n then 2 else 1

/-- The packets of a message, each with its place in the message, its offset and its bytes. -/
def packets (q : QueuePair) (d : List Byte) : List (Nat × Nat × List Byte) :=
  let l := pieces (mtuOf q) d
  l.zipIdx.map fun p => (packetKind p.2 l.length, p.1)

/-- An RDMA WRITE of bytes to an offset of the peer (R307). -/
def State.roceWrite (s : State) (q : QueuePair) (cmd off : Nat) (d : List Byte) : State :=
  let base := fieldAt q.ctx 36 8 + off
  (packets q d).foldl (fun s p =>
    s.rocePut q cmd fun psn => .write q.index psn p.1 ((base + p.2.1) % 2 ^ 64) (fieldAt q.ctx 32 4) d.length p.2.2) s

/-- A SEND of bytes (R307). -/
def State.roceSend (s : State) (q : QueuePair) (cmd : Nat) (d : List Byte) : State :=
  (packets q d).foldl (fun s p => s.rocePut q cmd fun psn => .send q.index psn p.1 p.2.2) s

/-- An RDMA READ of an offset of the peer (R307); it takes a PSN for each response of the path MTU. -/
def State.roceRead (s : State) (q : QueuePair) (cmd off n : Nat) : State :=
  (s.rocePut q cmd fun psn => .readReq q.index psn ((fieldAt q.ctx 36 8 + off) % 2 ^ 64) (fieldAt q.ctx 32 4) n).updQp
    q.index fun x => { x with sqPsn := (x.sqPsn + ceilDiv n (mtuOf q) - 1) % 2 ^ 24 }

end Sys2Proof.Machine
end

