-- ==== Sys2Proof/Machine/Coherence.lean ====
section
/-! DEFINITION. The coherent window and its directory (15_host_link.md R372 to R375): which lines an access must
snoop first, and the start of a snoop. -/

namespace Sys2Proof.Machine

/-- Whether an address lies in the directory, the last 1/256 of the window, which is not addressable (R373). -/
def State.inDirectory (s : State) (a : Nat) : Bool :=
  decide (s.window.1 + s.window.2 - s.window.2 / 256 ≤ a) && decide (a < s.window.1 + s.window.2)

/-- The directory state of a line, by line number (R374). -/
def State.dirOf (s : State) (line : Nat) : DirState :=
  ((s.gcl.dir.find? fun e => e.1 = line).map (·.2)).getD .inv

/-- The directory state of a line set; lines in I are not listed. -/
def State.setDir (s : State) (line : Nat) (d : DirState) : State :=
  let rest := s.gcl.dir.filter fun e => e.1 ≠ line
  { s with gcl := { s.gcl with dir := if d = .inv then rest else rest ++ [(line, d)] } }

/-- The 64-byte lines of the window that a range touches. -/
def State.windowLines (s : State) (a n : Nat) : List Nat := (granules a n).filter fun l => s.inWindow (64 * l)

/-- The snoop pending on a line, if there is one. -/
def State.snoopOf (s : State) (line : Nat) : Option Snoop := s.gcl.snoops.find? fun x => x.line = line

/-- Work joins the snoop pending on a line, or starts one (Table 15.6): SNP_INV before a store, SNP_SHARE before
a load. -/
def State.snoopFor (s : State) (line : Nat) (inval : Bool) (w : LineWork) : State :=
  match s.snoopOf line with
  | some _ =>
    { s with gcl := { s.gcl with snoops := s.gcl.snoops.map fun x =>
        if x.line = line then { x with work := x.work ++ [w] } else x } }
  | none =>
    let s := { s with gcl := { s.gcl with snoops := s.gcl.snoops ++ [Snoop.mk line inval [w]] } }
    let a := s.node * 2 ^ 48 + 64 * line
    s.gclRequest (.snoop line) (if inval then .snpInv 0 a else .snpShare 0 a)

/-- The lines a device load must wait for: those in directory E or with a snoop pending. -/
def State.loadBlocks (s : State) (a n : Nat) : List Nat :=
  (s.windowLines a n).filter fun l => s.dirOf l = .excl ∨ (s.snoopOf l).isSome

/-- The lines a device store must wait for: those in directory S or E or with a snoop pending. -/
def State.storeBlocks (s : State) (a n : Nat) : List Nat :=
  (s.windowLines a n).filter fun l => s.dirOf l ≠ .inv ∨ (s.snoopOf l).isSome

/-- The class of the requests of the companion, which are applied in the order sent (15 R376); 0 to 3 are the classes of
11_links.md Table 11.4 and 4 is RoCEv2's. -/
def gclClass : Nat := 5

/-- The connection an access came on: its node, or queue pair, and its class; the companion is one sender. -/
def LineWork.conn : LineWork → Option (Nat × Nat)
  | .load node cls _ _ _ => some (node, cls)
  | .store node cls _ _ _ => some (node, cls)
  | .frame f => some (f.src, f.cls)
  | .read _ _ _ => some (0, gclClass)
  | .write _ _ _ => some (0, gclClass)
  | .request _ _ _ => some (0, gclClass)
  | .command _ => none

/-- Whether an access of a connection waits: those behind it on the connection wait too (11 R297). -/
def State.connBusy (s : State) (node cls : Nat) : Bool :=
  (s.mem.stalled.any fun w => w.conn = some (node, cls)) ||
  s.gcl.snoops.any fun x => x.work.any fun w => w.conn = some (node, cls)

/-- An access joins those that wait for memory or behind others of their connection. -/
def State.stall (s : State) (w : LineWork) : State := { s with mem := { s.mem with stalled := s.mem.stalled ++ [w] } }

/-- A command waits for the lines it reads and writes, when some of them must be snooped first; `aux` is [4]
while it waits, and its own row runs it once the lines are free. -/
def State.lineGate (s : State) (c : Cmd) (loads stores : List (Nat × Nat)) : Option State :=
  let st := (stores.map fun r => s.storeBlocks r.1 r.2).flatten
  let ld := (loads.map fun r => s.loadBlocks r.1 r.2).flatten.filter fun l => ! st.contains l
  if st.isEmpty && ld.isEmpty then none
  else
    let s := st.foldl (fun s l => s.snoopFor l true (.command c.id)) s
    let s := ld.foldl (fun s l => s.snoopFor l false (.command c.id)) s
    some (s.park c.id [4])

/-- A command that waited for lines may be run again. -/
def State.lineWake (s : State) (n : Nat) : State :=
  s.updCmd n fun c => if c.phase = .waiting ∧ c.aux = [4] then { c with phase := .dispatched, aux := [] } else c

end Sys2Proof.Machine
end

