-- ==== Sys2Proof/Machine/Work.lean ====
section
/-! DEFINITION. What the commands that work on tensors share: which tensors they read and write, why one must wait
before its work begins (07 R188 to R202, 08 R218, 09 R250, 12 R325, R326, 05 R142), the writing of outputs with
the marks and saves that follow from it, generator draws (03 R85, 05 R140 to R142), and results. -/

namespace Sys2Proof.Machine

/-! ### Tensors a command reads and writes -/

/-- The slot handles that instructions of one OP name (LD 1, ST 2). -/
def State.programSlots (s : State) (c : Cmd) (op : Nat) : List Nat :=
  ((s.program c).filter fun w => bits w 63 56 = op).map fun w => c.par (44 + 4 * bits w 35 33) 4

/-- Handle fields read by an attention command in its forward form. -/
def attnReads (c : Cmd) : List Nat := [32, 68, 72, 76, 80, 84, 92, 96].map fun i => c.par i 4

/-- The tensors a command reads, by handle. -/
def State.reads (s : State) (c : Cmd) : List Nat :=
  let h := fun (l : List Nat) => l.map fun i => c.par i 4
  let f := c.par 47 1
  (match c.opcode with
  | 0x0401 => h [32, 36] ++ if bit f 2 = 1 then h [40] else []
  | 0x0402 => h [32, 36] ++ if bit f 2 = 1 then h [40] else []
  | 0x0403 => h [32, 36] ++ if bit f 4 = 1 then h [40] else []
  | 0x0501 => s.programSlots c 1
  | 0x0502 => h [32]
  | 0x0503 => h [32, 36]
  | 0x0601 => attnReads c
  | 0x0602 => attnReads c ++ h [40, 44, 144]
  | 0x0607 => attnReads c ++ if c.par 136 1 = 1 then h [40, 44, 144] else []
  | 0x0603 => h [36, 40, 44, 48, 52]
  | 0x0606 => h [40, 44, 48]
  | 0x0701 => h [32, 36] ++ if bit (c.par 54 1) 0 = 1 then h [48] else []
  | 0x0702 => h [32, 36] ++ if c.par 52 2 % 4096 = 0 then [] else h [44]
  | 0x0703 => h [32]
  | 0x0706 => h [32, 36, 40]
  | 0x0801 => h [32]
  | 0x0802 => h [32]
  | 0x0803 => h [32]
  | 0x0804 => h [32]
  | 0x0805 => h [32]
  | 0x0806 => h [32]
  | 0x0A01 => h [32, 36] ++ if bit f 0 = 1 then h [40] else []
  | 0x0A02 => h [32, 36] ++ if bit f 0 = 1 then h [40] else []
  | 0x0A03 => h [32]
  | 0x0A04 => h [32, 36] ++ if bit f 0 = 1 then h [40] else []
  | _ => []).filter (· ≠ noHandle)

/-- The tensors a command writes, by handle. -/
def State.writes (s : State) (c : Cmd) : List Nat :=
  let h := fun (l : List Nat) => l.map fun i => c.par i 4
  (match c.opcode with
  | 0x0401 => h [40]
  | 0x0402 => h [40]
  | 0x0403 => h [40]
  | 0x0501 => s.programSlots c 2
  | 0x0502 => h [36]
  | 0x0503 => h [40]
  | 0x0601 => h [40, 44]
  | 0x0602 => h [148, 152, 156]
  | 0x0607 => if c.par 136 1 = 1 then h [148, 152, 156] else h [40, 44]
  | 0x0701 => if bit (c.par 54 1) 1 = 1 then h [48] else h [44]
  | 0x0702 => h [44]
  | 0x0801 => h [36]
  | 0x0802 => h [36]
  | 0x0803 => h [36]
  | 0x0804 => h [36]
  | 0x0805 => h [36]
  | 0x0806 => h [36]
  | 0x0903 => h [36, 40, 44]
  | 0x0A01 => h [40]
  | 0x0A02 => h [40]
  | 0x0A03 => h [36]
  | 0x0A04 => h [40]
  | _ => []).filter (· ≠ noHandle)

/-- Whether a tensor has a page in a range of this node's memory. -/
def State.tensorIn (s : State) (t : Tensor) (r : Nat × Nat) : Bool :=
  decide (nodeOf r.1 = s.node) && decide (0 < r.2) &&
  t.pages.any fun p => decide (localOf r.1 < 4096 * (p + 1)) && decide (4096 * p < localOf r.1 + r.2)

/-- Every tensor a command reads, those of the memory group by the pages they lie in. -/
def State.readTensors (s : State) (c : Cmd) : List Tensor :=
  if c.opcode / 256 = 2 then s.tens.filter fun t => (memReads c).any (s.tensorIn t)
  else s.tens.filter fun t => (s.reads c).contains t.handle

/-- Every tensor whose data a command writes: its outputs, the weight of an UPDATE, the save of a PREFETCH, and those of
which a command of the memory group writes a page (R325, R326). -/
def State.writesAny (s : State) (c : Cmd) : List Nat :=
  s.writes c ++
  (if c.opcode = 0x0706 ∨ c.opcode = 0x0704 then [c.par 32 4] else []) ++
  if c.opcode / 256 = 2 then (s.tens.filter fun t => (memWrites c).any (s.tensorIn t)).map (·.handle) else []

/-- The marks on what a command reads (R325), but for those of collectives dispatched after it. -/
def State.readMarks (s : State) (c : Cmd) : List Nat :=
  (((s.readTensors c).map fun t => t.marks).flatten.eraseDups).filter fun m =>
    ! s.coll.colls.any fun x => x.id = m ∧ c.stamp ≤ x.stamp

/-- The marks a command's outputs will carry: the union of those it reads, and the mark of the ALL_GATHER that
feeds it (R325, R330). -/
def State.outMarks (s : State) (c : Cmd) : List Nat :=
  (s.readMarks c ++
    (if c.opcode = 0x0402 then
      (s.coll.colls.filter fun x => c.latch.extra = [0, x.id]).map (·.id) else []) ++
    (if c.opcode / 256 = 8 then [c.id] else [])).eraseDups

/-! ### Draws -/

/-- Whether a command takes generator draws (R85, R140): a program with RAND, RANDU or a stochastic ST, a
conversion under stochastic ORND, or SEED_GENERATORS, which orders itself with them (R142). -/
def State.draws (s : State) (c : Cmd) : Bool :=
  let sr := bit c.latch.mode 3 = 1
  match c.opcode with
  | 0x0501 => (s.program c).any fun w =>
      bits w 63 56 = 0x30 ∨ bits w 63 56 = 0x31 ∨ (bits w 63 56 = 2 ∧ bit w 32 = 1)
  | 0x0505 => true
  | 0x0401 => sr
  | 0x0402 => sr
  | 0x0403 => sr
  | 0x0503 => sr
  | 0x0601 => sr
  | 0x0602 => sr
  | 0x0607 => sr
  | 0x0701 => sr
  | 0x0A01 => sr
  | 0x0A02 => sr
  | 0x0A03 => sr
  | 0x0A04 => sr
  | _ => false

/-! ### Waits before the work begins -/

/-- The pages of HBM that a command uses (R250): those of the tensors it reads and writes, of the image a PREFETCH
fetches, of the galley store, of the sheet cache of its stream, and those a command of the memory and copy group names. -/
def State.pagesOf (s : State) (c : Cmd) : List Nat :=
  ((s.tens.filter fun t => (s.reads c).contains t.handle || (s.writes c).contains t.handle).map (·.pages)).flatten ++
  ((s.localRanges c).map fun r => if regionOf r.1 = .hbm then pages r.1 r.2 else []).flatten ++
  (if c.opcode = 0x0704 then
    (((s.tens.filter fun t => t.handle = c.par 32 4).filterMap (·.image)).map (·.pages)).flatten else []) ++
  (if c.opcode / 256 = 6 then s.attn.storePages else []) ++
  (if c.opcode = 0x0903 then
    ((s.feed.streams.filter fun x => x.number = c.par 32 1).map (·.cachePages)).flatten else [])

/-- Whether a command uses what a move takes from its old place (R250). -/
def State.usesMoved (s : State) (c : Cmd) (m : Move) : Bool :=
  match m.kind with
  | .unit _ _ => s.usesCore c m.src
  | .page p => (s.pagesOf c).contains p

/-- Whether a move that has not ended holds a command of the imposition it made (R250): a unit's move holds every
command that works in the cores, a page's move those that use that page. A re-shard that has begun holds the commands
after its boundary that name one of its tensors (R254). -/
def State.moveHolds (s : State) (c : Cmd) : Bool :=
  c.holds &&
  ((s.imp.moves.any fun m => ! m.ended && decide (m.number ≤ c.latch.imposition) && (match m.kind with
    | .unit _ _ => s.usesUnits c
    | .page p => (s.pagesOf c).contains p)) ||
   (s.cmd.cmds.any fun d => decide (d.phase = .waiting) && decide (d.aux.head? = some 27) && decide (d.stamp < c.stamp) &&
      ((s.imp.reshard.getD []).any fun x => (s.reads c).contains x.1 || (s.writes c).contains x.1)))

/-- Whether a page lies on a stack that admits no granule: one at level 4 (R273). -/
def State.pageStopped (s : State) (p : Nat) : Bool := s.stackStopped (s.channelOf (4096 * p) / 16)

/-- Whether a command uses a page of a stack that admits no granule (R273): it waits, and is not aborted. -/
def State.stackHolds (s : State) (c : Cmd) : Bool :=
  ((List.range 16).any s.stackStopped) && (s.pagesOf c).any s.pageStopped

/-- Whether a command writes a save whose OFFLOAD or PREFETCH is in flight (R200, R201). -/
def State.saveWriteHeld (s : State) (c : Cmd) : Bool :=
  (s.writes c).any fun h => s.earlier c fun d => (d.opcode = 0x0703 ∨ d.opcode = 0x0704) ∧ d.par 32 4 = h

/-- Whether a command reads a save whose PREFETCH is in flight, or is a PREFETCH of a save with an OFFLOAD or a
PREFETCH in flight (R201). -/
def State.saveReadHeld (s : State) (c : Cmd) : Bool :=
  ((s.reads c).any fun h => s.earlier c fun d => d.opcode = 0x0704 ∧ d.par 32 4 = h) ||
  (decide (c.opcode = 0x0704) &&
    s.earlier c fun d => (d.opcode = 0x0703 ∨ d.opcode = 0x0704) ∧ d.par 32 4 = c.par 32 4)

/-- Whether a command reads a weight-gradient tensor that an earlier BACKWARD_WEIGHT still writes (R189). -/
def State.wgradHeld (s : State) (c : Cmd) : Bool :=
  decide (c.opcode ≠ 0x0702) &&
  (s.readTensors c).any fun t =>
    decide (t.role = 4) && s.earlier c fun d => d.opcode = 0x0702 ∧ d.par 44 4 = t.handle

/-- Whether a LAZY UPDATE waits for a command in flight that latched the current edition (R226): one that is no UPDATE of that
weight, and does not itself wait for this one to write its gradient. -/
def State.lazyHeld (s : State) (c : Cmd) : Bool :=
  decide (c.opcode = 0x0706) && decide (bit (c.par 45 1) 2 = 1) && s.cmd.cmds.any fun d =>
    d.active && decide (d.id ≠ c.id) && ! (decide (d.opcode = 0x0706) && decide (d.par 32 4 = c.par 32 4)) &&
    ! (decide (c.stamp < d.stamp) && (s.writes d).contains (c.par 36 4)) &&
    (s.tensor (c.par 32 4)).any fun w => d.latch.editions.contains (w.handle, w.currentEdition)

/-- Whether an earlier UPDATE holds the command (R218, Table 8.2): it writes the gradient that the UPDATE reads,
is an UPDATE of the same weight, or is a LAZY UPDATE of an edition that a command in flight, no UPDATE of that weight,
latched (R226). -/
def State.updateHeld (s : State) (c : Cmd) : Bool :=
  ((s.writes c).any fun h => s.earlier c fun d => d.opcode = 0x0706 ∧ d.par 36 4 = h) ||
  (decide (c.opcode = 0x0706) && s.earlier c fun d => d.opcode = 0x0706 ∧ d.par 32 4 = c.par 32 4) ||
  s.lazyHeld c

/-- Whether a command writes the IN or OUT of a collective dispatched before it and still in flight (R326). -/
def State.collHeld (s : State) (c : Cmd) : Bool :=
  (s.writesAny c).any fun h => s.coll.colls.any fun x =>
    x.stamp < c.stamp ∧ (fieldAt x.pkt 32 4 = h ∨ fieldAt x.pkt 36 4 = h)

/-- Whether uncommitted marks hold a command (R325): an UPDATE or a command of the memory group that reads one, or a
command whose outputs would carry more than four. -/
def State.markHeld (s : State) (c : Cmd) : Bool :=
  ((decide (c.opcode / 256 = 2) || decide (c.opcode = 0x0706)) && ! (s.readMarks c).isEmpty) ||
  (! (s.writes c).isEmpty && decide (4 < (s.outMarks c).length))

/-- Whether an earlier drawing command holds the command (R142). -/
def State.drawHeld (s : State) (c : Cmd) : Bool := s.draws c && s.earlier c s.draws

/-- Why a command's work may not begin yet, as the `aux` it waits with: 8 a moving place, 30 a stopped stack, 6 a save it
writes, 9 a save it reads, 7 a weight gradient, 10 an UPDATE, 20 a collective in flight, 5 uncommitted marks, 12 earlier
draws. -/
def State.holdReason (s : State) (c : Cmd) : Option Nat :=
  if s.moveHolds c then some 8
  else if s.stackHolds c then some 30
  else if s.saveWriteHeld c then some 6
  else if s.saveReadHeld c then some 9
  else if s.wgradHeld c then some 7
  else if s.updateHeld c then some 10
  else if s.collHeld c then some 20
  else if s.markHeld c then some 5
  else if s.drawHeld c then some 12
  else none

/-- The work of a dispatched command that may have to wait first; one that uses a failed slot completes ABORTED (R16,
R28). -/
def State.work (s : State) (n opcode : Nat) (f : Cmd → State → State) : State :=
  s.runCmd n opcode fun c s => match s.holdReason c with
    | some r => s.park c.id [r]
    | none => if s.usesFailed c then s.finish c.id (Outcome.aborted 0) else f c s

/-- A command that waits for a reason goes back to the start of its work when the reason has passed. -/
def State.wake (s : State) (reason : Nat) (c : Cmd) : State :=
  if c.phase = .waiting ∧ c.aux = [reason] ∧ (functionOf c.opcode < 10 ∨ reason = 30) ∧ s.holdReason c ≠ some reason then
    s.updCmd c.id fun c => { c with phase := .dispatched, aux := [] }
  else s

/-- Every command that waits for one of some reasons is reconsidered. -/
def State.wakeAll (s : State) (reasons : List Nat) : State :=
  s.cmd.cmds.foldl (fun s c => reasons.foldl (fun s r => s.wake r c) s) s

/-! ### The transit pool and the first write of a save (R198, R199, R202) -/

/-- The handles of the saves a command writes that must take space first. -/
def State.savesToTake (s : State) (c : Cmd) : List Tensor :=
  s.tens.filter fun t => decide (t.role = 3) && (s.writes c).contains t.handle && ! t.inPool

/-- The image of a save is discarded: its pages are given back. -/
def State.dropImage (s : State) (h : Nat) : State :=
  match (s.declared h).bind fun t => t.image with
  | none => s
  | some i => (s.updTensor h fun t => { t with image := none }).givePages i.pages

/-- A save takes space and is in core SRAM, any image discarded (R202). -/
def State.takeSave (s : State) (h : Nat) : State := (s.dropImage h).updTensor h fun t => { t with save := .inSram }

/-- The saves a command writes take their space, one after another; none when one finds no room (R199). -/
def State.takeSaves (s : State) (c : Cmd) : Option State :=
  (s.savesToTake c).foldl (fun o t => match o with
    | none => none
    | some s => if s.saveFits t then some (s.takeSave t.handle) else none) (some s)

/-- DETAIL of a full pool (R199): TRANSIT_FULL in the training group, NONE in others. -/
def poolDetail (c : Cmd) : Nat := if c.opcode / 256 = 7 then 0x010A else 0

/-- The rest of a command's work once its saves have their space. -/
def State.withSaves (s : State) (c : Cmd) (f : State → State) : State :=
  match s.takeSaves c with
  | none => s.finish c.id (Outcome.noSpace (poolDetail c))
  | some s => f s

/-! ### Outputs -/

/-- One element to be written: tensor, whether its companion's scale, index, code. -/
structure Write where
  handle : Nat
  scale : Bool
  index : Nat
  code : Nat
  deriving DecidableEq, Repr

/-- One element written. -/
def State.write (s : State) (w : Write) : State :=
  if w.scale then
    match s.declared w.handle with
    | some t => s.writeScales t fun d => setCode d w.index w.code
    | none => s
  else s.writeData w.handle fun d => setCode d w.index w.code

/-- Elements written in order. -/
def State.writeAll (s : State) (l : List Write) : State := l.foldl State.write s

/-- A command that stops has written some of its outputs: which ones, the bits of a free number say (R92, R275). -/
def State.writeSome (s : State) (l : List Write) : State :=
  let f := s.free
  l.zipIdx.foldl (fun s p => if f.1.testBit p.2 then s.write p.1 else s) f.2

/-- The tensors a command wrote carry the union of the marks it read (R325). -/
def State.markOutputs (s : State) (c : Cmd) (marks : List Nat) : State :=
  (s.writes c).foldl (fun s h => s.updTensor h fun t => { t with marks := marks }) s

/-! ### What the surroundings report (03 R92, 10 R266, R274, R275) -/

/-- The symbols of a granule as the code of R274 covers them: its 64 data bytes, six bytes of its address bits 47:6 that
are not stored, lowest first, and its 8 check bytes. -/
def granuleWord (a : Nat) (d : List Byte) : List Nat :=
  let l := (d ++ leBytes 6 (a / 64)).map BitVec.toNat
  l ++ rsParity 8 l

/-- What the decoder makes of a granule whose 72 stored bytes have errors (R274): the number of bytes corrected; none when
it is uncorrectable, a correction in an address byte among that. More than five byte errors that lead to another word of
the code count as uncorrectable (log 129, DESIGN CHOICE). -/
def State.granuleErrors (s : State) (a : Nat) (p : List Nat) : Option Nat :=
  let w := granuleWord a (s.bytesAt (a / 64 * 64) 64)
  let e := (List.range 64).map (fun i => p.getD i 0 % 256) ++ List.replicate 6 0 ++
    (List.range 8).map fun i => p.getD (64 + i) 0 % 256
  match rsDecode 8 3 (List.zipWith (fun x y => x ^^^ y) w e) with
  | some (w', k) => if w' = w then some k else none
  | none => none

/-- A granule read with errors in its stored bytes (R274, R276): a corrected one is counted, and a channel whose count
passes HBM_CE_LIMIT is queued for mapping out with cause 1; an uncorrectable one is left for its reader. -/
def State.granuleError (s : State) (x : Nat × List Nat) : State :=
  let a := x.1 % 0x6000000000
  match s.granuleErrors a x.2 with
  | some 0 => s
  | some _ =>
    let ch := s.channelOf a
    let s := s.addSat (Reg.channelState ch) 31 0 1
    if s.reg Reg.hbmCeLimit < s.fld (Reg.channelState ch) 31 0 then s.queueChannel ch 1 else s
  | none => { s with mem := { s.mem with flaws := s.mem.flaws ++ [a] } }

/-- What the surroundings bring while a command runs (R92, R266, R274): errors corrected are counted, reports of the on-die
ECC too; what is uncorrectable stays so until it is read and dealt with, or written whole. -/
def State.corrections (s : State) (env : Env) : State :=
  let s := env.sramFixed.foldl (fun s x =>
    if x.2 then s.addSat (Reg.coreMem x.1) 15 8 1 else s.addSat (Reg.coreMem x.1) 31 16 1) s
  let s := env.hbm.foldl State.granuleError s
  let l := (env.parity.toList.map (· % 0x6000000000)) ++ env.sramBad.toList.map fun o => 0x100000000000 + o % 2 ^ 32
  { s with mem := { s.mem with onDie := s.mem.onDie + env.onDie, flaws := s.mem.flaws ++ l } }

/-- Bytes of a tensor's data and of its scales. -/
def Tensor.storeBytes (t : Tensor) : Nat := t.byteLen + if isMX t.fmt then product (scaleDims t.dims t.blockAxis) else 0

/-- The pages that hold a tensor, for a WEIGHT those of one edition: the slots are taken to be used in turn (log 130, DESIGN
CHOICE). -/
def Tensor.editionPages (t : Tensor) (e : Nat) : List Nat :=
  if t.role = 1 then (t.pages.drop ((e - 1) % max 1 t.slots * pagesFor t.storeBytes)).take (pagesFor t.storeBytes)
  else t.pages

/-- The pages of the tensors a command reads. -/
def State.readPages (s : State) (c : Cmd) : List Nat :=
  ((s.tens.filter fun t => (s.reads c).contains t.handle).map fun t =>
    t.editionPages ((c.latched t).getD t.currentEdition)).flatten

/-- The first granule on a page of what a command reads that is poisoned or uncorrectable (R275); for an attention command
also one of the galley store that the surroundings report. -/
def State.badGranuleOf (s : State) (env : Env) (c : Cmd) : Option Nat :=
  let l := s.readPages c
  let bad := s.mem.poison ++ (s.mem.flaws.filter fun w => decide (regionOf w = Region.hbm)).map fun w => w / 64
  let new := (env.parity.toList ++ env.hbm.map fun x => x.1).map fun a => a % 0x6000000000 / 64
  match bad.find? fun g => l.contains (g / 64) with
  | some g => some g
  | none =>
    if c.opcode / 256 = 6 then new.find? fun g => s.badGranule g && s.attn.storePages.contains (g / 64) else none

/-- Whether an uncorrectable word or granule stops a command, with the state after it and the DETAIL: of core memories
that the surroundings report in a core with a unit the group's own, of HBM NONE (R92, R275). -/
def State.envStop (s : State) (env : Env) (c : Cmd) (sramDetail : Nat) : Option (State × Nat) :=
  let word := match env.sramBad with
    | some o => if s.busyCores.contains (o % 2 ^ 32 / 2 ^ 20) then some (0x100000000000 + o % 2 ^ 32) else none
    | none => none
  match word, s.badGranuleOf env c with
  | some a, _ => some (s.stopEffect (.word (wordStart a)), sramDetail)
  | none, some g => some (s.stopEffect (.granule g), 0)
  | none, none => none

/-- Tensors written whole lose the poison of their pages (R275). -/
def State.rewritten (s : State) (l : List Write) : State :=
  let full := s.tens.filter fun t => ! t.pages.isEmpty && decide (t.role ≠ 1) &&
    decide (t.size ≤ l.countP fun w => decide (w.handle = t.handle) && ! w.scale)
  full.foldl (fun s t => t.pages.foldl (fun s p => s.clearPoison (4096 * p) 4096) s) s

/-- Finish a command that writes elements: all of them and its outcome, or, stopped by the surroundings, some of
them and ABORTED, with the RESULT of the work it did (R83, R145). -/
def State.complete (s : State) (env : Env) (c : Cmd) (sramDetail : Nat) (l : List Write) (o : Outcome) : State :=
  let marks := s.outMarks c
  let s := s.corrections env
  match s.envStop env c sramDetail with
  | some (s, d) => ((s.writeSome l).markOutputs c marks).finish c.id { o with status := stAborted, detail := d }
  | none => (((s.writeAll l).rewritten l).markOutputs c marks).finish c.id o

/-! ### RESULT -/

/-- RESULT from its fields: byte 16, byte 17, bytes 19:18, 23:20, 27:24 and 31:28. -/
def resultOf (b16 b17 h18 w20 w24 w28 : Nat) : Nat :=
  b16 % 256 + b17 % 256 * 2 ^ 8 + h18 % 2 ^ 16 * 2 ^ 16 + w20 % 2 ^ 32 * 2 ^ 32 + w24 % 2 ^ 32 * 2 ^ 64 +
    w28 % 2 ^ 32 * 2 ^ 96

/-- RESULT from four 32-bit words, bytes 19:16 first. -/
def resultWords (a b c d : Nat) : Nat :=
  a % 2 ^ 32 + b % 2 ^ 32 * 2 ^ 32 + c % 2 ^ 32 * 2 ^ 64 + d % 2 ^ 32 * 2 ^ 96

/-! ### Generators (05 R140, R141) -/

/-- The logical core that holds a token (R243). -/
def State.coreOfToken (s : State) (t : Nat) : Nat := t / max 1 ((s.imp.cur.map (·.sliver)).getD 1)

/-- sm64 of R141. -/
def sm64 (z : Nat) : Nat :=
  let z := (z + 0x9E3779B97F4A7C15) % 2 ^ 64
  let z := (z ^^^ (z >>> 30)) * 0xBF58476D1CE4E5B9 % 2 ^ 64
  let z := (z ^^^ (z >>> 27)) * 0x94D049BB133111EB % 2 ^ 64
  z ^^^ (z >>> 31)

/-- seed_lane of R141: the 128 bits of a lane's state, s0 lowest. -/
def seedLane (job step lcore lane : Nat) : Nat :=
  let key := (step * 2 ^ 18 + lcore * 2 ^ 6 + lane) % 2 ^ 64
  let z := sm64 (job ^^^ sm64 key)
  let w := sm64 z
  let v := z + w * 2 ^ 64
  if v = 0 then 1 else v

/-- Rotate 32 bits left. -/
def rotl32 (x n : Nat) : Nat := (x * 2 ^ n % 2 ^ 32) + x / 2 ^ (32 - n)

/-- draw of R140: the 32 bits drawn, and the next state. -/
def genStep (v : Nat) : Nat × Nat :=
  let s0 := v % 2 ^ 32
  let s1 := v / 2 ^ 32 % 2 ^ 32
  let s2 := v / 2 ^ 64 % 2 ^ 32
  let s3 := v / 2 ^ 96 % 2 ^ 32
  let r := rotl32 (s1 * 5 % 2 ^ 32) 7 * 9 % 2 ^ 32
  let t := s1 * 2 ^ 9 % 2 ^ 32
  let s2 := s2 ^^^ s0
  let s3 := s3 ^^^ s1
  let s1 := s1 ^^^ s2
  let s0 := s0 ^^^ s3
  let s2 := s2 ^^^ t
  let s3 := rotl32 s3 11
  (r, s0 + s1 * 2 ^ 32 + s2 * 2 ^ 64 + s3 * 2 ^ 96)

/-- Where a lane starts from: the newest seeding that covers its logical core (R141). -/
def State.genStart (s : State) (k : Nat) : Nat :=
  let x := (s.core.seedings.find? fun x => k / 64 < x.cores).getD ⟨0, 0, 0⟩
  seedLane x.job x.step (k / 64) (k % 64)

/-- One draw of a lane of a logical core (R140). Lane 0's draws are counted in GEN_DRAWS of every position that
carries the core (R147). -/
def State.draw (s : State) (core lane : Nat) : Nat × State :=
  let k := 64 * core + lane
  let d := fun j => BitVec.ofNat 128 (s.genStart j)
  let r := genStep (Sparse.get d s.core.gens k).toNat
  let t := { s with core := { s.core with gens := Sparse.set d s.core.gens k (BitVec.ofNat 128 r.2) } }
  (r.1, if lane = 0 then (s.coresOf core).foldl (fun t p => t.addWrap (Reg.genDraws p) 63 0 1) t else t)

/-- The rounding of one converted element under a latched mode (R85): a stochastic one takes bits 31:16 of a draw
of lane n mod 64 of the logical core of its token. -/
def State.rounding (s : State) (sr : Bool) (token n : Nat) : Rounding × State :=
  if sr then
    let r := s.draw (s.coreOfToken token) (n % 64)
    (.sr (r.1 / 65536), r.2)
  else (.rne, s)

/-- The flag registers of some positions: of their vector engines, or of their first `arrays` arrays each. -/
def flagPlaces (cores : List Nat) (vector : Bool) (arrays : Nat) : List Nat :=
  if vector then cores.map Reg.vectorFlags
  else (cores.map fun k => (List.range (min 4 arrays)).map (Reg.arrayFlags k)).flatten

/-- One flag raised at some of a list of places: at the one that a free number picks, and at those of the others that a
second free number marks. -/
def State.raiseFlag (s : State) (places : List Nat) (i : Nat) : State :=
  let r := s.free
  let q := r.2.free
  places.zipIdx.foldl (fun t p =>
    if (p.2 = r.1 % places.length ∨ bit q.1 p.2 = 1) ∧ t.coreRegGone p.1 = false then
      t.setReg p.1 (putBits (t.reg p.1) i i 1)
    else t) q.2

/-- The flags that a command raises in some flag registers (R83, R119): each flag is set in at least one of them; which, the
spec leaves to the placement of the work. A rise of NV in the summary may trigger a proof (18 R422). -/
def State.raiseIn (s : State) (places : List Nat) (f : Flags) (vector : Bool) : State :=
  let t := (List.range 4).foldl (fun s i =>
    if bit f.code i = 0 ∨ (vector = true ∧ i = 3) then s else s.raiseFlag places i) s
  if bit s.flagsSummary 0 = 0 ∧ bit t.flagsSummary 0 = 1 then t.proofEvent 3 else t

/-- The flags that a command raises in the four arrays or the vector engines of some positions. -/
def State.raiseAt (s : State) (cores : List Nat) (f : Flags) (vector : Bool) : State :=
  s.raiseIn (flagPlaces cores vector 4) f vector

/-- The flags of a command whose work is spread over every position that carries work. -/
def State.raiseFlags (s : State) (f : Flags) (vector : Bool) : State := s.raiseAt s.busyCores f vector

/-- The logical cores that hold the first rows of the token axis (R243). -/
def State.sharedBy (s : State) (rows : Nat) : List Nat :=
  List.range (min ((s.imp.cur.map (·.cores)).getD 0) (ceilDiv rows (max 1 ((s.imp.cur.map (·.sliver)).getD 1))))

/-- Rows of the token axis that a logical core holds, of the first `rows`. -/
def State.rowsIn (s : State) (rows k : Nat) : Nat :=
  let l := max 1 ((s.imp.cur.map (·.sliver)).getD 1)
  min l (rows - k * l)

/-- The groves that hold rows of the token axis, of the first `rows`: those that run part of a command over them. -/
def State.shareGroves (s : State) (rows : Nat) : List Nat :=
  ((((s.sharedBy rows).map s.coresOf).flatten).map (· / 1024)).eraseDups

/-- A set of groves as bits. -/
def groveBits (l : List Nat) : Nat := (List.range 4).foldl (fun a g => a + if l.contains g then 2 ^ g else 0) 0

/-- The flags raised in the vector engines of the logical core that has a token row. -/
def State.raiseRow (s : State) (row : Nat) (f : Flags) : State := s.raiseAt (s.coresOf (s.coreOfToken row)) f true

/-- K_PARTS of the declared operation of the imposition in force that a command matches, else 1 (R241). -/
def State.kParts (s : State) (c : Cmd) : Nat :=
  let hs := (List.range 4).map fun i => match (handleFields c.opcode)[i]? with
    | some b => c.par b 4
    | none => noHandle
  match s.imp.cur with
  | none => 1
  | some i => ((i.ops.find? fun o => o.opcode = c.opcode ∧ o.handles = hs).map (·.kParts)).getD 1

end Sys2Proof.Machine
end

