-- ==== Sys2Proof/Machine/Memory.lean ====
section
/-! DEFINITION. The memory and copy group and the memory's own events (10_memory.md R269 to R285). A command
whose source is on another node gathers it in `buf` while it waits with `aux` [2]; one whose destination is away
waits with `aux` [1, RESULT] until its frames are acknowledged. -/

namespace Sys2Proof.Machine

/-- A piece of a copy: source and destination fabric addresses, and a length. -/
abbrev Segment := Nat × Nat × Nat

/-- The pieces of a memory command: COPY one, COPY_2D one per row (Table 10.7). -/
def segments (c : Cmd) : List Segment :=
  if c.opcode = 0x0203 then
    (List.range (c.par 68 4)).map fun i =>
      ((c.par 32 8 + i * c.par 48 8) % 2 ^ 64, (c.par 40 8 + i * c.par 56 8) % 2 ^ 64, c.par 64 4)
  else [(c.par 32 8, c.par 40 8, c.par 48 8)]

/-- Whether a range of a fabric address lies in HBM or the core windows (R284), the window's directory apart
(15 R373). An alias address is judged by its peer (R307). -/
def State.copyRange (s : State) (a n : Nat) : Bool :=
  if (s.aliasQp (nodeOf a)).isSome ∧ nodeOf a ≠ s.node then true
  else
    (rangeIn .hbm (localOf a) n || rangeIn .window (localOf a) n) &&
    ! (decide (nodeOf a = s.node) && (s.inDirectory (localOf a) || s.inDirectory (localOf a + n - 1)))

/-- Whether a range on this node has an unbacked byte or a byte in a clearing. -/
def State.copyHole (s : State) (a n : Nat) : Bool := decide (nodeOf a = s.node) && s.holeIn (localOf a) n

/-- Whether two ranges share a byte. -/
def overlap (a n b m : Nat) : Bool := decide (a < b + m) && decide (b < a + n)

/-- The checks of COPY and COPY_2D, made before any byte moves (R284): lengths, then addresses, then holes, then
overlap. -/
def State.copyFault (s : State) (c : Cmd) : Option Nat :=
  let segs := segments c
  if (if c.opcode = 0x0203 then c.par 64 4 = 0 ∨ c.par 68 4 = 0 else c.par 48 8 = 0 ∨ 2 ^ 40 < c.par 48 8) then some 0x0106
  else if segs.any (fun x => ! s.copyRange x.1 x.2.2 || ! s.copyRange x.2.1 x.2.2) then some 0x0100
  else if segs.any (fun x => s.copyHole x.1 x.2.2 || s.copyHole x.2.1 x.2.2) then some 0x0101
  else if segs.any (fun x => segs.any fun y => overlap x.1 x.2.2 y.2.1 y.2.2) then some 0x0102
  else none

/-- The fabric fault of an address outside HBM and the core windows (Table 11.8). -/
def addressFault (a : Nat) : Nat :=
  match regionOf (localOf a) with
  | .regs => faultAccessKind
  | .tallies => faultAccessKind
  | _ => faultAddrRange

/-- A command of the memory and copy group is refused with a DETAIL; an address outside HBM and the core windows is also
a fabric fault found locally, which is recorded (11 R304). -/
def State.copyRefused (s : State) (c : Cmd) (d : Nat) (ranges : List (Nat × Nat)) : State :=
  let s := match if d = 0x0100 then ranges.find? fun x => ! s.copyRange x.1 x.2 else none with
    | some x => s.fabricErr (addressFault x.1) (nodeOf x.1) x.1
    | none => s
  s.finish c.id (Outcome.bad d)

/-- How a command of the memory and copy group ends that meets an uncorrectable read (Table 10.8). -/
def ReadStop.outcome : ReadStop → Outcome
  | .none => Outcome.ok 0
  | .granule _ => Outcome.aborted 0x0103
  | .word _ => Outcome.aborted 0x0105

/-- A fabric fault POISON that a granule of this node gives is recorded (11 R304). -/
def State.poisonErr (s : State) (x : ReadStop) : State :=
  match x with
  | .granule g => s.fabricErr faultPoison s.node (64 * g)
  | _ => s

/-- Bytes whose writing is open (R284): each destination byte holds its old value or the copied one, as the bits
of a free number say. -/
def State.openWrite (s : State) (a : Nat) (d : List Byte) : State :=
  let f := s.free
  d.zipIdx.foldl (fun s p => if f.1.testBit p.2 then s.storeByte (a + p.2) p.1 else s) f.2

/-- A tensor of which a command of the memory and copy group writes a page carries no mark any more: such a command reads
no marked data (12 R325). -/
def State.unmark (s : State) (a n : Nat) : State :=
  if regionOf a = .hbm then
    { s with tens := s.tens.map fun t => if t.pages.any (pages a n).contains then { t with marks := [] } else t }
  else s

/-- A store of a command, in ascending address order: none when it succeeds, or the outcome when the merge of a
part-written granule or word is uncorrectable (R92, R282); what comes after it is not written. -/
def State.cmdStore (s : State) (a : Nat) (d : List Byte) : State × Option Outcome :=
  match s.mergeStops a d.length with
  | [] => ((s.saveBytes a d).1.unmark a d.length, none)
  | x :: _ => ((((s.saveBytes a (d.take (x.start - a))).1.mergeMet x).poisonErr x), some x.outcome)

/-- Bytes moved by a command whose copy completes (R285). -/
def copyBytes (c : Cmd) : Nat := ((segments c).map fun x => x.2.2).sum

/-- A piece of bytes sent to its destination on another node: WRITE frames, or RDMA WRITE or SEND through an
alias (R307). -/
def State.sendOut (s : State) (c : Cmd) (b : Nat) (d : List Byte) : State :=
  match s.aliasQp (nodeOf b) with
  | some q => if bit b 47 = 0 then s.roceWrite q c.id (localOf b % 2 ^ 47) d else s.roceSend q c.id d
  | none => s.ifpWrite (nodeOf b) b d (.cmd c.id)

/-- Gathered bytes go to their destinations, in order: stored where they are of this node, else sent. -/
def State.putOut (s : State) (c : Cmd) : List Segment → List Byte → State × Option Outcome
  | [], _ => (s, none)
  | (_, b, n) :: rest, d =>
    if nodeOf b = s.node then
      match s.cmdStore (localOf b) (d.take n) with
      | (s, none) => s.putOut c rest (d.drop n)
      | (s, some o) => (s, some o)
    else (s.sendOut c b (d.take n)).putOut c rest (d.drop n)

/-- A copy stopped in its source (R284): destination bytes whose source comes before the stop are open. -/
def State.openOut (s : State) : List Segment → List Byte → State
  | [], _ => s
  | (_, b, n) :: rest, d =>
    let s := if nodeOf b = s.node then s.openWrite (localOf b) (d.take n) else s
    s.openOut rest (d.drop n)

/-- Whether a copy's destination is one SEND (R307): every row goes through the alias of one queue pair with bit 47 set. -/
def State.oneSend (s : State) (segs : List Segment) : Option QueuePair :=
  match segs with
  | [] => none
  | x :: _ =>
    if segs.all fun y => nodeOf y.2.1 = nodeOf x.2.1 ∧ bit y.2.1 47 = 1 ∧ nodeOf y.2.1 ≠ s.node then
      s.aliasQp (nodeOf x.2.1)
    else none

/-- A copy whose source bytes are all at hand: they go to their destinations. One with bytes for another node completes
when what it sent has been acknowledged. -/
def State.copyOut (s : State) (c : Cmd) (d : List Byte) : State :=
  let segs := segments c
  match s.oneSend segs with
  | some q => (s.park c.id [1, copyBytes c]).roceSend q c.id d
  | none =>
    let here := segs.all fun x => nodeOf x.2.1 = s.node
    match (if here then s else s.park c.id [1, copyBytes c]).putOut c segs d with
    | (s, none) => if here then s.finish c.id (Outcome.ok (copyBytes c)) else s
    | (s, some o) => s.finish c.id o

/-- Request bytes of another node: READ_REQ, or RDMA READ through an alias (R307). -/
def State.fetchSource (s : State) (c : Cmd) (a n : Nat) : State :=
  match s.aliasQp (nodeOf a) with
  | some q => (s.park c.id [2]).roceRead q c.id (localOf a % 2 ^ 47) n
  | none => (s.park c.id [2]).ifpRead (nodeOf a) a n (.cmd c.id)

/-- What a command does with its source bytes when all are at hand: CHECKSUM gives their CRC-64 and number (R285), a copy
writes them. -/
def State.gathered (s : State) (c : Cmd) (d : List Byte) : State :=
  if c.opcode = 0x0204 then s.finish c.id (Outcome.ok (crc64 d + d.length * 2 ^ 64)) else s.copyOut c d

/-- The source of a command is read piece after piece, `d` being what it has read (R284): pieces of this node at once, the
next one of another node when the bytes before it are at hand. -/
def State.gather (s : State) (c : Cmd) : List Segment → List Byte → State
  | [], d => s.gathered c d
  | (a, _, n) :: rest, d =>
    if nodeOf a ≠ s.node then (s.updCmd c.id fun c => { c with buf := d }).fetchSource c a n
    else match s.readStop (localOf a) n with
      | .none => s.gather c rest (d ++ s.bytesAt (localOf a) n)
      | x =>
        let d := d ++ s.bytesAt (localOf a) (x.start - localOf a)
        let s := if c.opcode = 0x0204 then s else s.openOut (segments c) d
        ((s.stopEffect x).poisonErr x).finish c.id x.outcome

/-- The pieces still to read when a number of bytes has been read; none in the middle of a piece. -/
def piecesFrom : List Segment → Nat → Option (List Segment)
  | l, 0 => some l
  | [], _ + 1 => none
  | x :: xs, k => if x.2.2 ≤ k then piecesFrom xs (k - x.2.2) else none

/-- The source pieces of a command of the memory and copy group. -/
def sources (c : Cmd) : List Segment := if c.opcode = 0x0204 then [(c.par 32 8, 0, c.par 40 8)] else segments c

/-- Data of another node has come for a memory command: with a whole piece it goes on. -/
def State.memoryData (s : State) (c : Cmd) : State :=
  match piecesFrom (sources c) c.buf.length with
  | some l => s.gather c l c.buf
  | none => s

/-- Whether an HBM range touches a page that admits no access now: of a stack at level 4, or of a page whose move is in
progress (R273, R283). -/
def State.stalledRange (s : State) (a n : Nat) : Bool :=
  decide (regionOf a = .hbm) && (pages a n).any fun p =>
    s.pageStopped p || s.imp.moves.any fun m => decide (m.kind = MoveKind.page p) && m.begun && ! m.ended

/-- A command waits before it touches ranges of this node: for memory that admits no access, with `aux` [30], or for window
lines that must be snooped first. -/
def State.rangeGate (s : State) (c : Cmd) (loads stores : List (Nat × Nat)) : Option State :=
  if (loads ++ stores).any fun r => s.stalledRange r.1 r.2 then some (s.park c.id [30]) else s.lineGate c loads stores

/-- The ranges of this node among fabric ranges. -/
def State.rangesHere (s : State) (l : List (Nat × Nat)) : List (Nat × Nat) :=
  (l.filter fun r => nodeOf r.1 = s.node).map fun r => (localOf r.1, r.2)

/-- The body of COPY and COPY_2D. -/
def State.copyCmd (s : State) (env : Env) (c : Cmd) : State :=
  match s.copyFault c with
  | some d => s.copyRefused c d (memReads c ++ memWrites c)
  | none =>
    let s := s.corrections env
    match s.rangeGate c (s.rangesHere (memReads c)) (s.rangesHere (memWrites c)) with
    | some s => s
    | none => s.gather c (sources c) []

/-- COPY (R284, R285). -/
def execCopy (n : Nat) (env : Env) (s : State) : Host.Outcome State Fault Refusal :=
  .next (s.work n 0x0201 fun c s => s.copyCmd env c)

/-- COPY_2D (R284, R285). -/
def execCopy2d (n : Nat) (env : Env) (s : State) : Host.Outcome State Fault Refusal :=
  .next (s.work n 0x0203 fun c s => s.copyCmd env c)

/-- The bytes of a pattern repeated over a region (R284). -/
def patternBytes (n p : Nat) : List Byte := (List.range n).map fun i => BitVec.ofNat 8 (p / 2 ^ (8 * (i % 8)))

/-- FILL (R284, R285): a region filled with a 64-bit pattern. -/
def execFill (n : Nat) (env : Env) (s : State) : Host.Outcome State Fault Refusal :=
  .next (s.work n 0x0202 fun c s =>
    let s := s.corrections env
    let a := c.par 32 8
    let len := c.par 40 8
    if len % 8 ≠ 0 ∨ 2 ^ 40 < len then s.finish c.id (Outcome.bad 0x0106)
    else if a % 8 ≠ 0 ∨ s.copyRange a (max len 1) = false then s.copyRefused c 0x0100 [(a, max len 1)]
    else if len = 0 then s.finish c.id (Outcome.ok 0)
    else if s.copyHole a len then s.finish c.id (Outcome.bad 0x0101)
    else if nodeOf a ≠ s.node then
      (s.park c.id [1, len]).sendOut c a (patternBytes len (c.par 48 8))
    else match s.rangeGate c [] [(localOf a, len)] with
      | some s => s
      | none => match s.cmdStore (localOf a) (patternBytes len (c.par 48 8)) with
        | (s, none) => s.finish c.id (Outcome.ok len)
        | (s, some o) => s.finish c.id o)

/-- CHECKSUM (R284, R285): the CRC-64 of a region in address order. -/
def execChecksum (n : Nat) (env : Env) (s : State) : Host.Outcome State Fault Refusal :=
  .next (s.work n 0x0204 fun c s =>
    let a := c.par 32 8
    let len := c.par 40 8
    if 2 ^ 40 < len then s.finish c.id (Outcome.bad 0x0106)
    else if s.copyRange a (max len 1) = false then s.copyRefused c 0x0100 [(a, max len 1)]
    else if len = 0 then s.finish c.id (Outcome.ok 0)
    else if s.copyHole a len then s.finish c.id (Outcome.bad 0x0101)
    else
      let s := s.corrections env
      match s.rangeGate c (s.rangesHere [(a, len)]) [] with
      | some s => s
      | none => s.gather c (sources c) [])

/-! ### Bytes that commands of other groups read and write (11 R304) -/

/-- The fabric fault that a range of this node meets before its bytes are touched, for a command outside the memory and
copy group: neither HBM nor a core window, in the directory, or the memory function down (R280, Table 11.8). -/
def State.rangeFault (s : State) (a n : Nat) : Option Nat :=
  let b := localOf a
  if rangeIn .hbm b n || rangeIn .window b n then
    if s.inDirectory b || s.inDirectory (b + n - 1) then some faultAddrRange
    else if s.isDisabled 0 then some faultFunctionDown
    else none
  else some (addressFault a)

/-- Such a command meets a fabric fault on this node: the fault is recorded, and the command completes ABORTED with the
RESULT given. -/
def State.faulted (s : State) (c : Cmd) (fault a result : Nat) : State :=
  (s.fabricErr fault s.node a).finish c.id { Outcome.aborted 0 with result := result }

/-- Whether a command outside the memory and copy group names an alias address, which only that group may use (R307). -/
def State.aliasFault (s : State) (a : Nat) : Bool := decide (nodeOf a ≠ s.node) && (s.aliasQp (nodeOf a)).isSome

/-- Bytes of this node that such a command reads, given to what it does with them. Unbacked bytes and those of a clearing
read as zero (R278, 01 R18). `detail` is the DETAIL of its group for an uncorrectable word of a core memory (R92). -/
def State.fetch (s : State) (env : Env) (c : Cmd) (a n detail : Nat) (f : List Byte → State → State) : State :=
  match s.rangeFault a n with
  | some x => s.faulted c x a 0
  | none =>
    let s := s.corrections env
    match s.rangeGate c [(localOf a, n)] [] with
    | some s => s
    | none => match s.readStop (localOf a) n with
      | .word w => (s.stopEffect (.word w)).finish c.id (Outcome.aborted detail)
      | .granule g => (s.stopEffect (.granule g)).faulted c faultPoison a 0
      | .none => match s.loadBytes (localOf a) n with
        | (s, .ok d) => f d s
        | (s, .error x) => s.faulted c x a 0

/-- Bytes that such a command writes to a fabric address before it completes; one aborted has the RESULT `ended`. -/
def State.deliver (s : State) (c : Cmd) (a : Nat) (d : List Byte) (result ended : Nat) : State :=
  if d.isEmpty then s.finish c.id (Outcome.ok result)
  else if s.aliasFault a then s.faulted c faultAccessKind a ended
  else if nodeOf a ≠ s.node then (s.park c.id [1, result]).sendOut c a d
  else match s.rangeFault a d.length with
    | some x => s.faulted c x a ended
    | none => match s.rangeGate c [] [(localOf a, d.length)] with
      | some s => s
      | none => match s.saveBytes (localOf a) d with
        | (s, none) => s.finish c.id (Outcome.ok result)
        | (s, some x) => s.faulted c x a ended

/-! ### The memory's own events -/

/-- MAP_OUT_REQUEST (R276, Table 10.15): a write of HBM_MAP_OUT; with GO it queues the channel with cause 4, and
a mapped-out channel is ignored. -/
def State.mapOut (s : State) (v : Nat) : State := if bit v 31 = 1 then s.queueChannel (bits v 7 0) 4 else s

/-- MAP_OUT_REQUEST (R276). -/
def execMapOutRequest (channel : Nat) (s : State) : Host.Outcome State Fault Refusal :=
  .next (s.whenUp fun s => s.mapOut (2 ^ 31 + channel % 256))

/-- Period and sub-slot of the calendar in ACLK at a rate (Table 10.3). -/
def calendarOf : Nat → Nat × Nat
  | 0 => (1344, 42)
  | 1 => (992, 31)
  | _ => (672, 21)

/-- A pending change of the ACLK rate takes effect at a period boundary, and the calendar counter restarts (R271, 17
R404). -/
def State.applyRate (s : State) : State :=
  if s.fld Reg.clkState 27 27 = 0 then s
  else
    let r := s.fld Reg.clkState 29 28
    let s := ((s.setFld Reg.clkState 31 30 r).setFld Reg.clkState 27 27 0).addSat Reg.clkState 63 32 1
    let s := ((s.setFld Reg.hbmCalendar 31 30 r).setFld Reg.hbmCalendar 26 16 (calendarOf r).1).setFld
      Reg.hbmCalendar 15 10 (calendarOf r).2
    { s with mem := { s.mem with refreshes := 0 } }

/-- The sub-slot in progress ends; after the last of 32 a period has passed, and a pending rate takes effect. -/
def State.subslotEnd (s : State) : State :=
  let t := { s with mem := { s.mem with subslot := (s.mem.subslot + 1) % 32, refreshes := s.mem.refreshes + 1 } }
  if s.mem.subslot = 31 then (t.addWrap Reg.hbmCalendar 63 32 1).applyRate else t

/-- REFRESH_SUBSLOT (R269): the banks of the sub-slot in progress have been refreshed in every channel, and the next
sub-slot begins. The calendar runs from the end of HBM training on. -/
def execRefreshSubslot (s : State) : Host.Outcome State Fault Refusal :=
  .next (s.whenUp fun s => if s.mem.trained then s.subslotEnd else s)

/-- ACLK_RATE_CHANGE (R271, 17 R404): the period boundary, the first after the request, at which the pending rate takes
effect: the end of the last sub-slot of a period. -/
def execAclkRateChange (s : State) : Host.Outcome State Fault Refusal :=
  .next (s.whenUp fun s =>
    if s.mem.trained && decide (s.fld Reg.clkState 27 27 = 1) && decide (s.mem.subslot = 31) then s.subslotEnd else s)

/-- The bank of a pseudo-channel that sub-slot `q` refreshes (R269): the banks b with (b + 16 p) mod 32 = q. -/
def refreshedBank (q p : Nat) : Nat := (q + 32 - 16 * (p % 2)) % 32

/-- Where a byte of a channel lies (Table 10.2). -/
structure ChannelPlace where
  pseudo : Nat
  bank : Nat
  column : Nat
  row : Nat
  byte : Nat
  deriving DecidableEq, Repr

/-- The decode of a channel offset (R267, Table 10.2). -/
def channelPlace (o : Nat) : ChannelPlace :=
  { pseudo := bits o 6 6, bank := bits o 11 7, column := bits o 15 12, row := bits o 30 16, byte := bits o 5 0 }

/-- The channel and the place in it of an HBM address, through the remap of moved pages (R277). -/
def State.hbmPlace (s : State) (a : Nat) : Nat × ChannelPlace :=
  let p := ((s.mem.remap.find? fun r => r.1 = a / 4096).map (·.2)).getD (a / 4096)
  (p % 256, channelPlace (p / 256 * 4096 + a % 4096))

/-- Latency in ACLK of a granule access issued in the sub-slot in progress (R270): 136 inside the sub-slot of its bank, 96
outside. The model keeps no clock of accesses; the number is what the schedule counts on. -/
def State.granuleLatency (s : State) (a : Nat) : Nat :=
  let p := (s.hbmPlace a).2
  if p.bank = refreshedBank s.mem.subslot p.pseudo then 136 else 96

/-- Places admitted per frame of 16 ACLK at a throttle level (R268, Table 10.4). -/
def placesAdmitted (level : Nat) : Nat := 28 - 7 * min 4 level

/-- The threshold of a stack throttle level (Table 10.4). -/
def stackThreshold : Nat → Nat
  | 1 => 85
  | 2 => 90
  | 3 => 95
  | _ => 100

/-- The throttle level after a reading (R272): it rises to the highest level whose threshold is reached, and
falls by one step when the reading is below that step's threshold less 3 °C. -/
def stackLevel (old t : Nat) : Nat :=
  let up := if 100 ≤ t then 4 else if 95 ≤ t then 3 else if 90 ≤ t then 2 else if 85 ≤ t then 1 else 0
  if old ≤ up then up else if t + 3 < stackThreshold old then old - 1 else old

end Sys2Proof.Machine
end

