-- ==== Sys2Proof/Machine/Output.lean ====
section
/-! DEFINITION. Writing FP32 results into tensors of any format: conversions of 03_number_formats.md R84 to R86 and
05_vector_engine.md R121, R122, with the draws of R85. -/

namespace Sys2Proof.Machine

/-- convert_int8 of R122. -/
def convertInt8 (r : Rounding) (x : Val) : Int × Flags :=
  match x with
  | .nan => (0, Flags.onlyNV)
  | .inf s => (if s then -128 else 127, Flags.onlyOF)
  | .fin s y =>
    let m : Int := roundUnits r y
    let v := if s then -m else m
    if 127 < v then (127, Flags.onlyOF) else if v < -128 then (-128, Flags.onlyOF) else (v, Flags.none)

/-- A store to MXINT8 (R122): the scale byte, the element bytes and the flags of one block. -/
def convertBlock8 (l : List (Val × Rounding)) : Nat × List Nat × Flags :=
  let vs := l.map (·.1)
  if vs.any (fun v => v.isNan || v.isInf) then
    (255, vs.map fun _ => 0, if vs.any Val.isInf then Flags.onlyNV else Flags.none)
  else
    let x0 : Int := if blockMax vs = 0 then -127 else flog2 (blockMax vs)
    let x := max (-127) (min 127 x0)
    let conv := l.map fun p => match p.1 with
      | .fin s m => (max (-127) (min 127 (convertInt8 p.2 (.fin s (m * pow2 (6 - x)))).1), m)
      | _ => (0, 0)
    let lost := decide (x0 < -127) && conv.any fun p => decide (p.1 = 0) && decide (p.2 ≠ 0)
    ((x + 127).toNat, conv.map fun p => unsigned 8 p.1, if lost then Flags.onlyUF else Flags.none)

/-- One block in the format of a tensor. -/
def blockIn (fmt : Nat) (l : List (Val × Rounding)) : Nat × List Nat × Flags :=
  match Format.ofCode (fmt % 16) with
  | some f => convertBlock f l
  | none => convertBlock8 l

/-- One element in an unscaled format. -/
def elemIn (fmt : Nat) (r : Rounding) (v : Val) : Nat × Flags :=
  match Format.ofCode (fmt % 16) with
  | some f => convertElem f r v
  | none => let c := convertInt8 r v; (unsigned 8 c.1, c.2)

/-- An output element: FP32 unchanged and without a draw, else converted (R84, R85, R122). `token` says whose
logical core draws. -/
def State.convertOut (s : State) (sr : Bool) (fmt token n : Nat) (v : Val) : (Nat × Flags) × State :=
  if fmt = 0 then ((fp32.encode v, Flags.none), s)
  else
    let r := s.rounding sr token n
    (elemIn fmt r.1 v, r.2)

/-- Elements of one row of a tensor, unscaled: the generators after them, the writes, the flags. `row` is the row
of axis 0 written, `token` the row whose logical core draws. -/
def State.rowOut (sr : Bool) (t : Tensor) (row token : Nat) :
    List (Nat × Val) → State × List Write × Flags → State × List Write × Flags
  | [], a => a
  | (n, v) :: vs, (s, ws, fl) =>
    let r := s.convertOut sr t.fmt token n v
    State.rowOut sr t row token vs (r.2, ws ++ [⟨t.handle, false, row * t.width + n, r.1.1⟩], fl.or r.1.2)

/-- The rounding of each of a list of columns, in order (R85). -/
def State.roundings (sr : Bool) (token : Nat) : List Nat → State → List Rounding × State
  | [], s => ([], s)
  | n :: ns, s =>
    let r := s.rounding sr token n
    let q := State.roundings sr token ns r.2
    (r.1 :: q.1, q.2)

/-- Columns of a row grouped by the block of the tensor they lie in (R86). -/
def blocksOf (t : Tensor) (row : Nat) (l : List (Nat × Val)) : List (List (Nat × Val)) :=
  let k := fun n => scaleIndex t.dims t.blockAxis (row * t.width + n)
  l.splitBy fun a b => k a.1 = k b.1

/-- Blocks of one row of a block-scaled tensor (R86). -/
def State.rowScaled (sr : Bool) (t : Tensor) (row token : Nat) :
    List (List (Nat × Val)) → State × List Write × Flags → State × List Write × Flags
  | [], a => a
  | b :: bs, (s, ws, fl) =>
    let r := State.roundings sr token (b.map (·.1)) s
    let c := blockIn t.fmt ((b.map (·.2)).zip r.1)
    let first := (b.headD (0, .nan)).1
    let sc : Write := ⟨t.handle, true, scaleIndex t.dims t.blockAxis (row * t.width + first), c.1⟩
    let es := (b.zip c.2.1).map fun x => (⟨t.handle, false, row * t.width + x.1.1, x.2⟩ : Write)
    State.rowScaled sr t row token bs (r.2, ws ++ sc :: es, fl.or c.2.2)

/-- Elements of one row converted to a tensor's format. -/
def State.outputRow (sr : Bool) (t : Tensor) (row token : Nat) (l : List (Nat × Val))
    (a : State × List Write × Flags) : State × List Write × Flags :=
  if isMX t.fmt then State.rowScaled sr t row token (blocksOf t row l) a else State.rowOut sr t row token l a

/-- Whether a tensor may be stored to by the vector engine (R121, R122): no E8M0 format, and block scales only
along the row. -/
def storable (t : Tensor) : Bool :=
  decide (t.fmt % 16 ≠ 9) && (! isMX t.fmt || decide (t.blockAxis + 1 = t.dims.length))

end Sys2Proof.Machine
end

