-- ==== Sys2Proof/Machine/Vector.lean ====
section
/-! DEFINITION. The vector group (05_vector_engine.md R120 to R147). -/

namespace Sys2Proof.Machine

/-! ### Seed banks (R130 to R133) -/

/-- The seed tables of a bank. -/
def State.seeds (s : State) (bank : Nat) : Seeds := fun t i =>
  match (s.customTables bank).find? fun x => x.1 = t with
  | some x => x.2.getD i 0
  | none => factorySeed t i

/-- The seed tables a command latched (R131). -/
def State.seedsOf (s : State) (c : Cmd) : Seeds := s.seeds c.latch.seedBank

/-! ### Reading elements (R121) -/

/-- An element widened to FP32 (R72, R121); a scaled value beyond binary32 is rounded by rne32. -/
def widen (t : Tensor) (c : Codes × Codes) (i : Nat) : Val :=
  match elemVal t c i with
  | .fin n m => if m = 0 then .fin n 0 else (convertVal fp32 .rne (.fin n m)).1
  | v => v

/-- The 32 bits of an element widened: an FP32 element keeps its pattern unless it is a NaN (R70). -/
def widenCode (t : Tensor) (c : Codes × Codes) (i : Nat) : Nat := fp32.encode (widen t c i)

/-- A row of a tensor as a command reads it. -/
def State.rowVals (s : State) (t : Tensor) (e row : Nat) : List Val :=
  let c := s.contents t e
  (List.range t.width).map fun n => widen t c (row * t.width + n)

/-! ### Vector instructions (R123, R124) -/

/-- The fields an operation uses, as a mask of the instruction word; none for an unknown OP. -/
def vecMask (op : Nat) : Option Nat :=
  let vd := 0x1F * 2 ^ 51
  let va := 0x1F * 2 ^ 46
  let vb := 0x1F * 2 ^ 41
  let vc := 0x1F * 2 ^ 36
  let slot := 7 * 2 ^ 33
  let imm := 2 ^ 32 - 1
  match op with
  | 0x01 => some (vd + slot)
  | 0x02 => some (va + slot + 2 ^ 32)
  | 0x03 => some (vd + imm)
  | 0x10 => some (vd + va + vb)
  | 0x11 => some (vd + va + vb)
  | 0x12 => some (vd + va + vb)
  | 0x13 => some (vd + va + vb + vc)
  | 0x14 => some (vd + va + vb)
  | 0x15 => some (vd + va + vb)
  | 0x16 => some (vd + va)
  | 0x17 => some (vd + va)
  | 0x18 => some (vd + va + vb)
  | 0x19 => some (vd + va + vb + vc)
  | 0x20 => some (vd + va + imm)
  | 0x30 => some vd
  | 0x31 => some vd
  | 0x3F => some 0
  | _ => none

/-- OP of an instruction word. -/
def vecOp (w : Nat) : Nat := bits w 63 56

/-- Whether an instruction word is one R125 admits: a known OP, its unused fields zero, a slot of 0 to 5, a
function of 0 to 9. -/
def vecOk (w : Nat) : Bool :=
  match vecMask (vecOp w) with
  | none => false
  | some m =>
    decide ((w % 2 ^ 56) &&& (2 ^ 56 - 1 - m) = 0) &&
    (! decide (vecOp w = 1 ∨ vecOp w = 2) || decide (bits w 35 33 < 6)) &&
    (decide (vecOp w ≠ 0x20) || decide (bits w 31 0 < 10))

/-- The 64 lanes of a vector register of a logical core. -/
def State.vreg (s : State) (core r : Nat) : List Nat :=
  (Sparse.getMany (fun _ => (0 : BitVec 32)) s.core.vregs (2048 * core + 64 * r) 64).map BitVec.toNat

/-- The lanes of a vector register set. -/
def State.setVreg (s : State) (core r : Nat) (l : List Nat) : State :=
  { s with core := { s.core with
    vregs := Sparse.setMany (fun _ => (0 : BitVec 32)) s.core.vregs (2048 * core + 64 * r) (l.map (BitVec.ofNat 32)) } }

/-- The tensor in a slot, with the contents the command latched. -/
def State.slotTensor (s : State) (i : Nat) : Option (Tensor × Nat) :=
  match s.core.vjob with
  | none => none
  | some j => match s.tensor (j.slots.getD i noHandle) with
    | none => none
    | some t =>
      some (t, ((j.editions.find? fun p => p.1 = t.handle).map (·.2)).getD t.currentEdition)

/-- LD: the lanes of row `t`, group `g` of a slot, +0 beyond the row. -/
def State.ldLanes (s : State) (slot t g : Nat) : List Nat :=
  match s.slotTensor slot with
  | none => List.replicate 64 0
  | some (x, e) =>
    let c := s.contents x e
    (List.range 64).map fun l => if 64 * g + l < x.width ∧ t < x.rows then widenCode x c (t * x.width + 64 * g + l) else 0

/-- The lanes of a column group that lie in a row of a slot. -/
def State.lanesIn (s : State) (slot t g : Nat) : List Nat :=
  match s.slotTensor slot with
  | none => []
  | some (x, _) => if x.rows ≤ t then [] else (List.range 64).filter fun i => 64 * g + i < x.width

/-- ST: the lanes within the row converted and stored (R121, R122); a ST to an FP32 tensor writes the register
unchanged. -/
def State.stLanes (s : State) (slot t g : Nat) (sr : Bool) (l : List Nat) (f : Flags) : State × Flags :=
  match s.slotTensor slot with
  | none => (s, f)
  | some (x, _) =>
    let cols := s.lanesIn slot t g
    if x.fmt = 0 then
      (cols.foldl (fun s i => s.write ⟨x.handle, false, t * x.width + 64 * g + i, l.getD i 0⟩) s, f)
    else
      let r := State.outputRow sr x t t (cols.map fun i => (64 * g + i, fp32.decode (l.getD i 0))) (s, [], f)
      (r.1.writeAll r.2.1, r.2.2)

/-- A lane operation on two or three values. -/
def laneOp (sd : Seeds) (op fn : Nat) (a b c : Nat) (f : Flags) : Nat × Flags :=
  let va := fp32.decode a
  let vb := fp32.decode b
  let vc := fp32.decode c
  let nv := fun (l : List Val) => if l.any Val.isNan then f.or Flags.onlyNV else f
  let out := fun (r : VF) => (fp32.encode r.1, r.2)
  match op with
  | 0x10 => out (vadd va vb f)
  | 0x11 => out (vsub va vb f)
  | 0x12 => out (vmul va vb f)
  | 0x13 => out (vfma va vb vc f)
  | 0x14 => out (vmin va vb f)
  | 0x15 => out (vmax va vb f)
  | 0x16 => out (vabs va, nv [va])
  | 0x17 => out (vneg va, nv [va])
  | 0x18 => out (if vlt va vb then vone else vzero, nv [va, vb])
  | 0x19 =>
    let r := if vc.isZero then vb else va
    (if r.isNan then 0x7FC00000 else if vc.isZero then b else a, nv [va, vb, vc])
  | _ => out (vsfu sd fn va f)

/-- The draws of 64 lanes of a logical core, in lane order. -/
def State.drawLanes (core : Nat) : List Nat → State → List Nat × State
  | [], s => ([], s)
  | l :: ls, s =>
    let r := s.draw core l
    let q := State.drawLanes core ls r.2
    (r.1 :: q.1, q.2)

/-- One instruction in the vector engine of a logical core, at token row `t` and column group `g` (R124). -/
def State.vstep (core t g w : Nat) (x : State × Flags) : State × Flags :=
  let s := x.1
  let op := vecOp w
  let vd := bits w 55 51
  let sd := s.seeds ((s.core.vjob.map (·.bank)).getD 0)
  let nans := fun (l : List Nat) => if l.any (fun c => (fp32.decode c).isNan) then x.2.or Flags.onlyNV else x.2
  if op = 0x01 then
    let l := s.ldLanes (bits w 35 33) t g
    (s.setVreg core vd l, nans l)
  else if op = 0x02 then
    let l := s.vreg core (bits w 50 46)
    let slot := bits w 35 33
    s.stLanes slot t g (decide (bit w 32 = 1)) l (nans ((s.lanesIn slot t g).map fun i => l.getD i 0))
  else if op = 0x03 then (s.setVreg core vd (List.replicate 64 (bits w 31 0)), x.2)
  else if op = 0x30 then
    let r := State.drawLanes core (List.range 64) s
    (r.2.setVreg core vd r.1, x.2)
  else if op = 0x31 then
    let r := State.drawLanes core (List.range 64) s
    (r.2.setVreg core vd (r.1.map fun d => fp32.encode (Val.ofReal (mkRat (d / 256 : Nat) (2 ^ 24)))), x.2)
  else if op = 0x3F then x
  else
    let a := s.vreg core (bits w 50 46)
    let b := s.vreg core (bits w 45 41)
    let c := s.vreg core (bits w 40 36)
    let r := (List.range 64).foldl (fun acc l =>
      let y := laneOp sd op (bits w 3 0) (a.getD l 0) (b.getD l 0) (c.getD l 0) acc.2
      (acc.1 ++ [y.1], y.2)) (([] : List Nat), x.2)
    (s.setVreg core vd r.1, r.2)

/-- A row of the opcode table for one vector operation: the instruction runs in the engine of a logical core whose
command has begun (log 12), when the word is one R125 admits and its OP is the row's. -/
def State.vectorRow (s : State) (op core t g : Nat) (w : Word64) : State :=
  if s.core.vjob.isSome ∧ vecOp w.toNat = op ∧ vecOk w.toNat = true ∧ core < 4096 then
    let r := State.vstep core t g w.toNat (s, Flags.none)
    r.1.raiseAt (s.coresOf core) r.2 true
  else s

/-- LD (R124). -/
def execLd (core t g : Nat) (w : Word64) (s : State) : Host.Outcome State Fault Refusal := .next (s.vectorRow 0x01 core t g w)
/-- ST (R121, R124). -/
def execSt (core t g : Nat) (w : Word64) (s : State) : Host.Outcome State Fault Refusal := .next (s.vectorRow 0x02 core t g w)
/-- LDI (R124). -/
def execLdi (core t g : Nat) (w : Word64) (s : State) : Host.Outcome State Fault Refusal := .next (s.vectorRow 0x03 core t g w)
/-- ADD (R124). -/
def execAdd (core t g : Nat) (w : Word64) (s : State) : Host.Outcome State Fault Refusal := .next (s.vectorRow 0x10 core t g w)
/-- SUB (R124). -/
def execSub (core t g : Nat) (w : Word64) (s : State) : Host.Outcome State Fault Refusal := .next (s.vectorRow 0x11 core t g w)
/-- MUL (R124). -/
def execMul (core t g : Nat) (w : Word64) (s : State) : Host.Outcome State Fault Refusal := .next (s.vectorRow 0x12 core t g w)
/-- FMA (R124). -/
def execFma (core t g : Nat) (w : Word64) (s : State) : Host.Outcome State Fault Refusal := .next (s.vectorRow 0x13 core t g w)
/-- MIN (R124). -/
def execMin (core t g : Nat) (w : Word64) (s : State) : Host.Outcome State Fault Refusal := .next (s.vectorRow 0x14 core t g w)
/-- MAX (R124). -/
def execMax (core t g : Nat) (w : Word64) (s : State) : Host.Outcome State Fault Refusal := .next (s.vectorRow 0x15 core t g w)
/-- ABS (R124). -/
def execAbs (core t g : Nat) (w : Word64) (s : State) : Host.Outcome State Fault Refusal := .next (s.vectorRow 0x16 core t g w)
/-- NEG (R124). -/
def execNeg (core t g : Nat) (w : Word64) (s : State) : Host.Outcome State Fault Refusal := .next (s.vectorRow 0x17 core t g w)
/-- CMPLT (R124). -/
def execCmplt (core t g : Nat) (w : Word64) (s : State) : Host.Outcome State Fault Refusal := .next (s.vectorRow 0x18 core t g w)
/-- SEL (R124). -/
def execSel (core t g : Nat) (w : Word64) (s : State) : Host.Outcome State Fault Refusal := .next (s.vectorRow 0x19 core t g w)
/-- SFU (R124, R126 to R129). -/
def execSfu (core t g : Nat) (w : Word64) (s : State) : Host.Outcome State Fault Refusal := .next (s.vectorRow 0x20 core t g w)
/-- RAND (R124, R140). -/
def execRand (core t g : Nat) (w : Word64) (s : State) : Host.Outcome State Fault Refusal := .next (s.vectorRow 0x30 core t g w)
/-- RANDU (R124, R140). -/
def execRandu (core t g : Nat) (w : Word64) (s : State) : Host.Outcome State Fault Refusal := .next (s.vectorRow 0x31 core t g w)
/-- VECTOR_NOP (R124). -/
def execVectorNop (core t g : Nat) (w : Word64) (s : State) : Host.Outcome State Fault Refusal := .next (s.vectorRow 0x3F core t g w)

/-! ### VECTOR_PROGRAM (R123, R125) -/

/-- The slots a VECTOR_PROGRAM has in use. -/
def usedSlots (c : Cmd) : List Nat := ((List.range 6).map fun i => c.par (44 + 4 * i) 4).filter (· ≠ noHandle)

/-- The checks of VECTOR_PROGRAM before its program is read (R125, Table 5.12): its length; a misaligned PROG_ADDR has
DETAIL NONE. -/
def programRange (c : Cmd) : Option Nat :=
  if c.par 40 2 = 0 ∨ 256 < c.par 40 2 then some 0x0103 else if c.par 32 8 % 8 ≠ 0 then some 0 else none

/-- The checks of VECTOR_PROGRAM on its program, made before any core runs (R121, R125, Table 5.12). -/
def State.programFault (s : State) (c : Cmd) (prog : List Nat) : Option Nat :=
  let slots := usedSlots c
  let named := prog.filter fun w => vecOp w = 1 ∨ vecOp w = 2
  let bad := fun (h : Nat) => (s.tensor h).isNone
  firstFault [
    (bad (c.par 44 4) || slots.any bad ||
      (named.any fun w => decide (bits w 35 33 < 6) && decide (c.par (44 + 4 * bits w 35 33) 4 = noHandle)) ||
      (prog.any fun w => decide (vecOp w = 1) && (s.readable c (c.par (44 + 4 * bits w 35 33) 4)).isNone &&
        decide (bits w 35 33 < 6)), 0x0100),
    (prog.any fun w => decide (vecOp w = 2) &&
      (s.tensor (c.par (44 + 4 * bits w 35 33) 4)).any (fun t => ! storable t || decide (t.role = 1)), 0x0101),
    (prog.any fun w => ! vecOk w, 0x0102),
    (match s.tensor (c.par 44 4) with
      | none => false
      | some t => slots.any fun h => (s.tensor h).any fun u => u.shape ≠ t.shape, 0x0107)]

/-- Every instruction of a program in every iteration, in order: token rows ascending and column groups ascending
within a row (R123). -/
def programSteps (rows groups : Nat) (prog : List Nat) : List (Nat × Nat × Nat) :=
  ((List.range rows).map fun t => ((List.range groups).map fun g => prog.map fun w => (t, g, w)).flatten).flatten

/-- Steps of a program run in order; the flags of each are raised in the engine of its logical core. -/
def State.runSteps (s : State) (steps : List (Nat × Nat × Nat)) (x : State × Flags) : State × Flags :=
  steps.foldl (fun x y =>
    let r := State.vstep (s.coreOfToken y.1) y.1 y.2.1 y.2.2 (x.1, Flags.none)
    (r.1.raiseRow y.1 r.2, x.2.or r.2)) x

/-- The body of VECTOR_PROGRAM once its program has been read: registers zero at the start; stopped by an uncorrectable
word, it has run some number of its steps, which a free number gives. -/
def State.vectorProgram (s : State) (env : Env) (c : Cmd) (prog : List Nat) : State :=
  match s.programFault c prog, s.tensor (c.par 44 4) with
  | some d, _ => s.finish c.id (Outcome.bad d)
  | none, none => s.finish c.id (Outcome.bad 0x0100)
  | none, some t => s.withSaves c fun s =>
    let steps := programSteps t.rows (ceilDiv t.width 64) prog
    let marks := s.outMarks c
    let job : VecJob := ⟨c.id, (List.range 6).map fun i => c.par (44 + 4 * i) 4, c.latch.seedBank, c.latch.editions⟩
    let s := { s with core := { s.core with vjob := some job, vregs := [] } }
    match s.envStop env c 0x0108 with
    | some (s, d) =>
      let f := s.free
      let r := f.2.runSteps (steps.take (f.1 % (steps.length + 1))) (f.2, Flags.none)
      (r.1.markOutputs c marks).finish c.id ⟨stAborted, d, r.2.code % 8⟩
    | none =>
      let r := s.runSteps steps (s, Flags.none)
      (r.1.markOutputs c marks).finish c.id (Outcome.ok (r.2.code % 8))

/-- VECTOR_PROGRAM (R123, R125): the program is read from node-local memory, and run. -/
def execVectorProgram (n : Nat) (env : Env) (s : State) : Host.Outcome State Fault Refusal :=
  .next (s.work n 0x0501 fun c s => match programRange c with
    | some d => s.finish c.id (Outcome.bad d)
    | none => s.fetch env c (c.par 32 8 % 2 ^ 48) (8 * c.par 40 2) 0x0108 fun d s =>
      s.vectorProgram env c (programWords d))

/-! ### ROW_STATS and GATED_ACT -/

/-- The edition of a tensor a command reads. -/
def State.readEdition (c : Cmd) (t : Tensor) : Nat := (c.latched t).getD t.currentEdition

/-- ROW_STATS (R135 to R137, R145): mean, var, max and lse of each row. One stopped by an uncorrectable word has raised the
flags, and counted the equal rows, of every row (log 141, DESIGN CHOICE). -/
def execRowStats (n : Nat) (env : Env) (s : State) : Host.Outcome State Fault Refusal :=
  .next (s.work n 0x0502 fun c s => match s.readable c (c.par 32 4), s.tensor (c.par 36 4) with
    | some i, some o =>
      match firstFault [(decide (o.fmt ≠ 0 ∨ o.role = 1), 0x0101), (decide (o.shape ≠ (i.rows, 4)), 0x0107)] with
      | some d => s.finish c.id (Outcome.bad d)
      | none => s.withSaves c fun s =>
        let sd := s.seedsOf c
        let r := (List.range i.rows).foldl (fun a t =>
          let x := rowStats sd (s.rowVals i (State.readEdition c i) t) (c.par 40 1 % 2) Flags.none
          let w := [x.1.mean, x.1.var, x.1.max, x.1.lse].zipIdx.map fun p =>
            (⟨o.handle, false, 4 * t + p.2, fp32.encode p.1⟩ : Write)
          (a.1 ++ w, a.2.1 + ofBool x.1.equal, a.2.2.1.or x.2, a.2.2.2.raiseRow t x.2)) (([] : List Write), 0, Flags.none, s)
        r.2.2.2.complete env c 0x0108 r.1 (Outcome.ok (resultOf (r.2.2.1.code % 8) 0 0 r.2.1 0 0))
    | _, _ => s.finish c.id (Outcome.bad 0x0100))

/-- The rows of GATED_ACT; the flags of each are raised in the engine of its logical core. -/
def State.gatedRows (s : State) (c : Cmd) (g u o : Tensor) : State × List Write × Flags :=
  let sd := s.seedsOf c
  let act := c.par 44 1
  let sr := decide (bit c.latch.mode 3 = 1)
  (List.range g.rows).foldl (fun a t =>
    let gs := s.rowVals g (State.readEdition c g) t
    let us := s.rowVals u (State.readEdition c u) t
    let r := (gs.zip us).foldl (fun (b : List Val × Flags) p =>
      let x := gatedAct sd act p.1 p.2 b.2
      (b.1 ++ [x.1], x.2)) (([] : List Val), Flags.none)
    let y := State.outputRow sr o t t (r.1.zipIdx.map fun p => (p.2, p.1)) (a.1, a.2.1, r.2)
    (y.1.raiseRow t y.2.2, y.2.1, a.2.2.or y.2.2)) (s, [], Flags.none)

/-- GATED_ACT (R134, R145). One stopped by an uncorrectable word has raised the flags and taken the draws of every row
(log 141, DESIGN CHOICE). -/
def execGatedAct (n : Nat) (env : Env) (s : State) : Host.Outcome State Fault Refusal :=
  .next (s.work n 0x0503 fun c s =>
    match s.readable c (c.par 32 4), s.readable c (c.par 36 4), s.tensor (c.par 40 4) with
    | some g, some u, some o =>
      match firstFault [
        (decide (c.par 45 1 ≠ o.fmt ∨ o.role = 1) || ! storable o, 0x0101),
        (decide (2 < c.par 44 1), 0x0104),
        (decide (u.shape ≠ g.shape ∨ o.shape ≠ g.shape), 0x0107)] with
      | some d => s.finish c.id (Outcome.bad d)
      | none => s.withSaves c fun s =>
        let r := s.gatedRows c g u o
        r.1.complete env c 0x0108 r.2.1 (Outcome.ok (r.2.2.code % 8))
    | _, _, _ => s.finish c.id (Outcome.bad 0x0100))

/-! ### LOAD_SEED_TABLE and SEED_GENERATORS -/


/-- The bank not active. -/
def State.inactiveBank (s : State) : Nat := 1 - s.fld Reg.seedBankState 31 31

/-- LOAD_SEED_TABLE (R132): after its checks it waits for the inactive bank (`aux` 15); an image on another node is
read first (`aux` 2). -/
def execLoadSeedTable (n : Nat) (s : State) : Host.Outcome State Fault Refusal :=
  .next (s.work n 0x0504 fun c s =>
    let a := c.par 32 8
    if 9 < c.par 40 1 then s.finish c.id (Outcome.bad 0x0104)
    else if bit (c.par 41 1) 0 = 0 ∧ nodeOf a ≠ s.node then
      if s.aliasFault a then s.faulted c faultAccessKind a 0 else s.fetchSource c a 768
    else s.park c.id [15])

/-- The 256 entries of a table image (R130). -/
def imageEntries (b : List Byte) : List Nat := (List.range 256).map fun i => fieldAt b (3 * i) 3

/-- A list of custom tables with one table set. -/
def withTable (l : List (Nat × List Nat)) (t : Nat) (e : List Nat) : List (Nat × List Nat) :=
  let rest := l.filter fun x => x.1 ≠ t
  if e = factoryTable t then rest else rest ++ [(t, e)]

/-- The other bank becomes active, one of its tables with a new check value (R132). -/
def State.switchBank (s : State) (t check : Nat) : State :=
  let new := s.customTables s.inactiveBank
  let s := s.setFld Reg.seedBankState 31 31 s.inactiveBank
  let s := s.setFld Reg.seedBankState 25 16 ((new.map fun x => 2 ^ x.1).sum)
  s.setReg (Reg.seedCheck t) check

/-- The inactive bank takes the tables of the active one, with one replaced (R132). -/
def State.fillBank (s : State) (t : Nat) (e : List Nat) : State :=
  let new := withTable (s.customTables (s.fld Reg.seedBankState 31 31)) t e
  if s.inactiveBank = 1 then { s with core := { s.core with bank1 := new } } else { s with core := { s.core with bank0 := new } }

/-- The image of a load at hand: the inactive bank is written, the image checked, and the bank made active (R132). -/
def State.seedLoad (s : State) (c : Cmd) (e : List Nat) : State :=
  let check := crc32 (imageBytes e)
  let s := s.fillBank (c.par 40 1) e
  if check ≠ c.par 44 4 then s.finish c.id ⟨stCheckFail, 0x0105, resultOf 0 0 0 check 0 0⟩
  else (s.switchBank (c.par 40 1) check).finish c.id (Outcome.ok (resultOf 0 0 0 check 0 0))

/-- SEED_BANK_SWITCH (R132): once no command holds the inactive bank and no earlier load is in progress, the image
is written there, checked, and the bank made active. -/
def execSeedBankSwitch (n : Nat) (s : State) : Host.Outcome State Fault Refusal :=
  .next (s.resumeCmd n fun c s =>
    if c.opcode = 0x0504 ∧ c.aux = [15] ∧ s.bankUsers s.inactiveBank = 0 ∧
        ¬ s.earlier c (fun d => d.opcode = 0x0504) = true then
      if bit (c.par 41 1) 0 = 1 then s.seedLoad c (factoryTable (c.par 40 1))
      else if c.buf ≠ [] then s.seedLoad c (imageEntries c.buf)
      else s.fetch Env.good c (c.par 32 8) 768 0x0108 fun d s => s.seedLoad c (imageEntries d)
    else s)

/-- SEED_GENERATORS (R141, R142): every lane of every logical core of the imposition in force. -/
def State.seedGenerators (s : State) (job step : Nat) : State :=
  let l := (s.imp.cur.map (·.cores)).getD 0
  let s := { s with core := { s.core with
    seedings := ⟨l, job, step⟩ :: s.core.seedings.filter fun x => l < x.cores
    gens := s.core.gens.filter fun g => 64 * l ≤ g.1 } }
  s.busyCores.foldl (fun s k => (s.setReg (Reg.genState k) (step * 2 ^ 18 + 1)).setReg (Reg.genDraws k) 0) s

/-- SEED_GENERATORS (R141). -/
def execSeedGenerators (n : Nat) (s : State) : Host.Outcome State Fault Refusal :=
  .next (s.work n 0x0505 fun c s =>
    if 2 ^ 46 ≤ c.par 40 8 then s.finish c.id (Outcome.bad 0x0106)
    else (s.seedGenerators (c.par 32 8) (c.par 40 8)).finish c.id (Outcome.ok 0))

end Sys2Proof.Machine
end

