-- ==== Sys2Proof/Machine/Galleys.lean ====
section
/-! DEFINITION. The galley store and its tables (06_attention_galleys.md R148 to R158, R172 to R174). A command
that waits for a shadow (R154) waits with `aux` [11]. -/

namespace Sys2Proof.Machine

/-! ### Banks and galleys -/

/-- The entry that names no galley (R149). -/
def noGalley : Nat := 0xFFFFFF

/-- The galley of a block and KV head. -/
def Bank.entry (b : Bank) (blk h : Nat) : Nat := Sparse.get (fun _ => noGalley) b.entries (32 * blk + h)

/-- A bank with one entry set. -/
def Bank.withEntry (b : Bank) (blk h g : Nat) : Bank :=
  { b with entries := Sparse.set (fun _ => noGalley) b.entries (32 * blk + h) g }

/-- Whether a bank has a galley. -/
def Bank.has (b : Bank) (g : Nat) : Bool := b.entries.any fun e => e.2 = g

/-- A bank cut to a length (R151): the entries of blocks beyond it name none. -/
def Bank.cut (b : Bank) (n : Nat) : Bank := ⟨n, b.entries.filter fun e => e.1 / 32 < ceilDiv n 128⟩

/-- The reference count of a galley (R155). -/
def State.galleyCount (s : State) (g : Nat) : Nat :=
  s.attn.tables.countP fun t => t.published.has g || t.second.has g

/-- A galley held by a table. -/
def State.galley (s : State) (g : Nat) : Galley := (s.attn.galleys.find? fun x => x.number = g).getD ⟨g, [], [], []⟩

/-- A galley changed. -/
def State.updGalley (s : State) (g : Nat) (f : Galley → Galley) : State :=
  { s with attn := { s.attn with galleys := s.attn.galleys.map fun x => if x.number = g then f x else x } }

/-- Galleys whose count is zero return to the free list and are counted (R155): how many, and the state after. -/
def State.reclaim (s : State) : Nat × State :=
  let gone := s.attn.galleys.filter fun x => s.galleyCount x.number = 0
  let t := { s with attn := { s.attn with galleys := s.attn.galleys.filter fun x => s.galleyCount x.number ≠ 0 } }
  (gone.length, t.addSat Reg.galleyEvents 31 0 gone.length)

/-- Galleys on the free list (Table 6.15). -/
def State.freeGalleys (s : State) : Nat := (s.attn.store.map (·.2)).getD 0 - s.attn.galleys.length

/-- A free galley taken from the store; which one, a free number says. None when the free list is empty (R157). -/
def State.allocGalley (s : State) : Option (Nat × State) :=
  match s.attn.store with
  | none => none
  | some (_, n) =>
    let f := s.free
    let k := (List.range (s.attn.galleys.length + 1)).find? fun k =>
      ! s.attn.galleys.any fun x => x.number = (f.1 + k) % max n 1
    match k with
    | none => none
    | some k =>
      if s.freeGalleys = 0 then none
      else
        let g := (f.1 + k) % n
        some (g, { f.2 with attn := { f.2.attn with galleys := f.2.attn.galleys ++ [⟨g, [], [], []⟩] } })

/-- What an edit does to the store as it goes: galleys allocated and copied. -/
structure EditSt where
  s : State
  alloc : Nat
  copies : Nat

/-- The galley through which token index `p` of a head of a table is written (R156): in place, a free galley for
an entry that names none, or a copy of a galley shared or still to be read. -/
def EditSt.writable (e : EditSt) (n h p : Nat) : Option (Nat × EditSt) :=
  match e.s.gtable n with
  | none => none
  | some t =>
    let blk := p / 128
    let g := t.second.entry blk h
    if g = noGalley then
      match e.s.allocGalley with
      | none => none
      | some (g, s) =>
        some (g, ⟨s.updTable n fun t => { t with second := t.second.withEntry blk h g }, e.alloc + 1, e.copies⟩)
    else if e.s.galleyCount g = 1 ∧ (t.published.has g = false ∨ t.published.length ≤ p) then some (g, e)
    else
      match e.s.allocGalley with
      | none => none
      | some (k, s) =>
        let old := s.galley g
        let s := s.updGalley k fun x => { x with elems := old.elems, scales := old.scales, marks := old.marks }
        let s := s.updTable n fun t => { t with second := t.second.withEntry blk h k }
        some (k, ⟨s.addSat Reg.galleyEvents 63 32 1, e.alloc + 1, e.copies + 1⟩)

/-! ### Publication and refresh (R152, R153) -/

/-- A bank is refreshed: the second bank takes the published entries and length and is SHADOW; a destroyed table
leaves the live set. -/
def State.refreshTable (s : State) (n : Nat) : Nat × State :=
  let gone := (s.gtable n).any fun t => t.destroying
  let s :=
    if gone then { s with attn := { s.attn with tables := s.attn.tables.filter fun t => t.number ≠ n } }
    else s.updTable n fun t =>
      { t with second := t.published, draining := false, changed := false, drainWalks := [] }
  s.reclaim

/-- A changed shadow becomes PUBLISHED; the bank it replaces drains, or is refreshed at once: the number of galleys
freed, and the state after. -/
def State.publishTable (s : State) (n : Nat) : Nat × State :=
  match s.gtable n with
  | none => (0, s)
  | some t =>
    if t.draining || ! t.changed then (0, s)
    else
      let s := s.updTable n fun t =>
        { t with generation := (t.generation + 1) % 2 ^ 32, published := t.second, second := t.published,
                 draining := true, changed := false, walks := [], drainWalks := t.walks }
      if t.walks.isEmpty then s.refreshTable n else (0, s)

/-- A walk of a command ends on each table it is on; the last on a DRAINING bank refreshes it (R153). -/
def State.endWalk (s : State) (n : Nat) : State :=
  s.attn.tables.foldl (fun s t =>
    if t.walks.contains n then s.updTable t.number fun t => { t with walks := t.walks.erase n }
    else if t.drainWalks.contains n then
      let s := s.updTable t.number fun t => { t with drainWalks := t.drainWalks.erase n }
      if t.drainWalks.length = 1 then (s.refreshTable t.number).2 else s
    else s) s

/-- Walks of a command in flight. -/
def State.walksOf (s : State) (n : Nat) : Nat :=
  (s.attn.tables.map fun t => t.walks.count n + t.drainWalks.count n).sum

/-- Every walk of a command ends: its hold is over, and what came for it around a ring is forgotten. -/
def State.endWalks (s : State) (n : Nat) : State :=
  let s := (List.range (s.walksOf n)).foldl (fun s _ => s.endWalk n) s
  { s with attn := { s.attn with ring := s.attn.ring.filter fun x => x.1 ≠ n } }

/-- Whether a walk of a command may have run to its end: its results are made, or its work is under way and other walks of
it go on. The results are made at once with the last walk (log 52). -/
def State.walkMayEnd (s : State) (c : Cmd) : Bool :=
  decide (c.phase = .done) ||
  (decide (c.opcode ∈ [0x0601, 0x0602, 0x0607]) && decide (1 < s.walksOf c.id) &&
    ((decide (c.phase = .waiting) && decide (c.aux.head? = some 22)) ||
     (decide (c.phase = .dispatched) && s.mayStart c && (s.holdReason c).isNone)))

/-- WALK_END (R153): a walk of an attention command ends. -/
def execWalkEnd (n : Nat) (s : State) : Host.Outcome State Fault Refusal :=
  .next (match s.cmdOf n with
    | some c => if s.walkMayEnd c then s.endWalk n else s
    | none => s)

/-- The bank and generation that a command holds on a table (R153). -/
def State.heldBank (s : State) (c : Cmd) (n : Nat) : Option (GTable × Bank × Nat) :=
  match s.gtable n with
  | none => none
  | some t =>
    if t.walks.contains c.id then some (t, t.published, t.generation)
    else if t.drainWalks.contains c.id then some (t, t.second, (t.generation + 2 ^ 32 - 1) % 2 ^ 32)
    else none

/-- A live table that may be edited. -/
def State.liveTable (s : State) (n : Nat) : Option GTable := (s.gtable n).filter fun t => ! t.destroying

/-- D of the store. -/
def State.headDim (s : State) : Nat := (s.attn.store.map (·.1)).getD 0

/-! ### Waiting for a shadow (R154) -/

/-- The tables whose shadow a command works on. -/
def shadowTables (c : Cmd) : List Nat :=
  match c.opcode with
  | 0x0603 => [c.par 32 2]
  | 0x0604 => if 2 ≤ c.par 32 1 ∧ c.par 32 1 ≤ 4 then [c.par 36 4] else []
  | 0x0606 => (List.range (c.par 36 4 % 65537)).map (c.par 32 4 + ·)
  | _ => []

/-- Whether a command finds no shadow: a bank of a live table is DRAINING, or an earlier command waits for it. -/
def State.noShadow (s : State) (c : Cmd) : Bool :=
  (shadowTables c).any fun n =>
    ((s.liveTable n).any fun t => t.draining) ||
    s.earlier c fun d => d.phase = .waiting ∧ d.aux = [11] ∧ n ∈ shadowTables d

/-- The commands that wait for a shadow (GALLEY_WAITERS, R184). -/
def State.galleyWaiters (s : State) : Nat := s.cmd.cmds.countP fun c => c.phase = .waiting ∧ c.aux = [11]

/-- An edit of shadows: it waits for them; then `check` gives a DETAIL that refuses it, or `f` does it (R154, Table 6.3). -/
def State.shadowEdit (s : State) (c : Cmd) (check : Option Nat) (f : State → State) : State :=
  if s.noShadow c then s.park c.id [11]
  else match check with
    | some d => s.finish c.id (Outcome.bad d)
    | none => f s

/-- The shadow of a table changed by an edit, with what the edit leaves noted (R152). -/
def State.setShadow (s : State) (n : Nat) (b : Bank) : State :=
  s.updTable n fun t => { t with second := b, changed := t.changed || decide (b ≠ t.second) }

/-! ### Rotary positions (R168) -/

/-- A pair rotated: y0 and y1. -/
def ropePair (sd : Seeds) (pos : Nat) (freq : Val) (inverse : Bool) (x0 x1 : Val) (f : Flags) : Val × Val × Flags :=
  let a := vmul (Val.ofReal pos) freq f
  let cs := vsfu sd 9 a.1 a.2
  let sn := vsfu sd 8 a.1 cs.2
  let n := if inverse then vneg sn.1 else sn.1
  let p := vmul x0 cs.1 sn.2
  let q := vmul x1 n p.2
  let y0 := vsub p.1 q.1 q.2
  let r := vmul x0 n y0.2
  let t := vmul x1 cs.1 r.2
  let y1 := vadd r.1 t.1 t.2
  (y0.1, y1.1, y1.2)

/-- One head rotated: `half` pairs, in the order of ROPE_PAIR. -/
def ropeHead (sd : Seeds) (split : Bool) (half pos : Nat) (freq : Nat → Val) (inverse : Bool) (x : List Val)
    (f : Flags) : List Val × Flags :=
  (List.range half).foldl (fun a q =>
    let i := if split then q else 2 * q
    let j := if split then q + half else 2 * q + 1
    let y := ropePair sd pos (freq q) inverse (a.1.getD i vzero) (a.1.getD j vzero) a.2
    ((a.1.set i y.1).set j y.2.1, y.2.2)) (x, f)

/-- The 16-bit mark of a tensor at an index, or a default. -/
def markAt (x : Option (Tensor × (Codes × Codes))) (i d : Nat) : Nat :=
  match x with
  | none => d
  | some (t, c) => tensorNat t c.1 (2 * i) 2

/-- An inverse frequency. -/
def freqAt (x : Option (Tensor × (Codes × Codes))) (q : Nat) : Val :=
  match x with
  | none => vzero
  | some (t, c) => widen t c q

/-! ### GALLEY_APPEND (R150) -/

/-- The checks of GALLEY_APPEND (R157, R168, Table 6.12), the space of the store apart. -/
def State.appendFault (s : State) (c : Cmd) : Option Nat :=
  match s.readable c (c.par 36 4), s.readable c (c.par 40 4) with
  | some k, some v =>
    let t := s.liveTable (c.par 32 2)
    let d := s.headDim
    let rope := decide (c.par 52 4 ≠ noHandle)
    let n := k.rows
    firstFault [
      ([44, 48, 52].any fun i => s.unreadable c (c.par i 4), 0x0100),
      ((s.named (c.par 52 4)).any fun x => x.1.fmt ≠ 0, 0x0101),
      (s.attn.store.isNone, 0x0102),
      (t.isNone, 0x0104),
      (decide (v.shape ≠ k.shape) || (t.any fun t => k.width ≠ t.kvHeads * d) ||
        (rope && (decide (d < 2 * c.par 57 1) || s.tooShort (c.par 52 4) (4 * c.par 57 1) ||
          s.tooShort (c.par 48 4) (4 * n))) || s.tooShort (c.par 44 4) (2 * n), 0x0105),
      (t.any fun t => t.maxBlocks * 128 < t.second.length + n, 0x0106),
      (rope && (List.range n).any fun i => 2 ^ 24 ≤ wordAt (s.named (c.par 48 4)) i 0, 0x010F)]
  | _, _ => some 0x0100

/-- The scale bytes and codes of a head's elements, 32 to a block, to nearest even (R150). -/
def galleyBlocks (x : List Val) (f : Flags) : List Nat × List Nat × Flags :=
  (chunks 32 x.length x).foldl (fun a b =>
    let r := blockIn 0x13 (b.map fun v => (v, Rounding.rne))
    (a.1 ++ [r.1], a.2.1 ++ r.2.1, a.2.2.or r.2.2)) ([], [], f)

/-- Codes placed at consecutive keys. -/
def placeCodes (d : Codes) (i : Nat) (l : List Nat) : Codes := setCodes d i l

/-- One token of one head written into a galley (Table 6.1): K, V, their scales and the mark. -/
def Galley.writeToken (g : Galley) (d t : Nat) (k v : List Nat × List Nat) (mark : Nat) : Galley :=
  { g with
    elems := placeCodes (placeCodes g.elems (d * t) k.2) (128 * d + d * t) v.2
    scales := placeCodes (placeCodes g.scales (d / 32 * t) k.1) (4 * d + d / 32 * t) v.1
    marks := setCode g.marks t mark }

/-- One head of one appended token. -/
def appendHead (c : Cmd) (n d p i h : Nat) (krow vrow : List Val) (a : EditSt × Flags) : Option (EditSt × Flags) :=
  match a.1.writable n h p with
  | none => none
  | some (g, e) =>
    let s := e.s
    let sd := s.seedsOf c
    let rope := c.par 52 4 ≠ noHandle
    let pos := wordAt (s.named (c.par 48 4)) i p
    let kx := krow.drop (d * h) |>.take d
    let kr := if rope then
        ropeHead sd (bit (c.par 56 1) 0 = 1) (c.par 57 1) pos (freqAt (s.named (c.par 52 4))) false kx a.2
      else (kx, a.2)
    let kb := galleyBlocks kr.1 kr.2
    let vb := galleyBlocks (vrow.drop (d * h) |>.take d) kb.2.2
    let mark := markAt (s.named (c.par 44 4)) i 1
    some (⟨s.updGalley g fun x => x.writeToken d (p % 128) (kb.1, kb.2.1) (vb.1, vb.2.1) mark, e.alloc, e.copies⟩,
      vb.2.2)

/-- The tokens appended, in row order; none when the store runs out (R157). -/
def State.appendTokens (s : State) (c : Cmd) (t : GTable) (k v : Tensor) : Option (EditSt × Flags) :=
  let d := s.headDim
  (List.range k.rows).foldl (fun a i =>
    let krow := s.rowVals k (State.readEdition c k) i
    let vrow := s.rowVals v (State.readEdition c v) i
    (List.range t.kvHeads).foldl (fun a h => a.bind
      (appendHead c t.number d (t.second.length + i) i h krow vrow)) a) (some (⟨s, 0, 0⟩, Flags.none))

/-- The work of a GALLEY_APPEND that has its shadow; stopped by the surroundings, it leaves the shadow as it was (R158, R182). -/
def State.append (s : State) (env : Env) (c : Cmd) : State :=
  match s.readable c (c.par 36 4), s.readable c (c.par 40 4), s.liveTable (c.par 32 2) with
  | some k, some v, some t =>
    let s := s.corrections env
    match s.appendTokens c t k v, s.envStop env c 0x010D with
    | none, _ => s.finish c.id (Outcome.noSpace 0x0107)
    | some (_, f), some (s, d) => (s.raiseFlags f true).finish c.id ⟨stAborted, d, resultOf (f.code % 8) 0 0 0 0 0⟩
    | some (e, f), none =>
      let n := t.second.length + k.rows
      let b := ((e.s.gtable t.number).map (·.second)).getD t.second
      let s := e.s.updTable t.number fun t =>
        { t with second := { b with length := n }, changed := t.changed || decide (0 < k.rows) }
      (s.raiseFlags f true).finish c.id (Outcome.ok (resultOf (f.code % 8) 0 0 n e.alloc e.copies))
  | _, _, _ => s.finish c.id (Outcome.bad 0x0104)

/-- GALLEY_APPEND (R150, R154, R156, R157, R168). -/
def execGalleyAppend (n : Nat) (env : Env) (s : State) : Host.Outcome State Fault Refusal :=
  .next (s.work n 0x0603 fun c s => s.shadowEdit c (s.appendFault c) fun s => s.append env c)

/-! ### GALLEY_EDIT (R149, R151, R155, R157, R158) -/

/-- The head dimensions and their codes in GALLEY_STORE (Table 6.14); 0 for any other number. -/
def headDimCode (d : Nat) : Nat :=
  match d with
  | 64 => 1
  | 96 => 2
  | 128 => 3
  | 192 => 4
  | 256 => 5
  | _ => 0

/-- Bytes of a galley (R148). -/
def galleyBytes (d : Nat) : Nat := 264 * d + 256

/-- Galleys that a FORK would share beyond the limit of a count (R155). -/
def State.shareLimit (s : State) (t : GTable) (b : Bank) : Bool :=
  b.entries.any fun e => ! t.published.has e.2 && ! t.second.has e.2 && decide (65535 ≤ s.galleyCount e.2)

/-- The first LENGTH tokens of a fork's source (Table 6.2). -/
def State.forkBank (s : State) (c : Cmd) : Bank := (((s.gtable (c.par 40 4)).map GTable.published).getD ⟨0, []⟩).cut (c.par 44 4)

/-- The checks of GALLEY_EDIT (Table 6.12). A LENGTH beyond the tokens there are, an EDIT_OP above 0x04 and a count
out of range are refused with DETAIL NONE. -/
def State.editFault (s : State) (c : Cmd) : Option Nat :=
  let op := c.par 32 1
  let t := s.gtable (c.par 36 4)
  let src := s.liveTable (c.par 40 4)
  let dead := t.isNone || t.any fun t => t.destroying
  if op = 0 then firstFault [
    (! s.attn.tables.isEmpty, 0x0103),
    (decide (headDimCode (c.par 34 2) = 0), 0x0105),
    (decide (c.par 48 4 = 0 ∨ 0xFFFFFE < c.par 48 4), 0)]
  else if op = 1 then firstFault [
    (s.attn.store.isNone, 0x0102), (t.isSome || decide (65535 < c.par 36 4), 0x0104),
    (decide (c.par 33 1 = 0 ∨ 32 < c.par 33 1), 0x0105),
    (decide (c.par 48 4 = 0 ∨ 8192 < c.par 48 4), 0)]
  else if op = 2 then firstFault [
    (s.attn.store.isNone, 0x0102), (dead || src.isNone, 0x0104),
    (t.any fun t => src.any fun u => u.kvHeads ≠ t.kvHeads, 0x0105),
    (t.any fun t => t.maxBlocks * 128 < c.par 44 4, 0x0106),
    (src.any fun u => u.published.length < c.par 44 4, 0)]
  else if op = 3 then firstFault [
    (s.attn.store.isNone, 0x0102), (dead, 0x0104), (t.any fun t => t.second.length < c.par 44 4, 0)]
  else if op = 4 then firstFault [(s.attn.store.isNone, 0x0102), (dead, 0x0104)]
  else some 0

/-- An edit of a table completes: shadow length, generation in force and galleys freed (Table 6.11). -/
def State.editDone (s : State) (c : Cmd) (len gen freed : Nat) : State :=
  s.finish c.id (Outcome.ok (resultOf 0 0 0 len gen freed))

/-- STORE_INIT (R149): NO_SPACE, with no effect, when the store does not fit. -/
def State.storeInit (s : State) (c : Cmd) : State :=
  let d := c.par 34 2
  let n := c.par 48 4
  let need := pagesFor (n * galleyBytes d)
  let t := s.givePages s.attn.storePages
  if t.freePages < need then s.finish c.id (Outcome.noSpace 0)
  else
    let p := State.takePages need t []
    let s := { p.2 with attn := { p.2.attn with store := some (d, n), storePages := p.1, galleys := [] } }
    (s.setReg Reg.galleyStore (headDimCode d * 2 ^ 29 + n)).editDone c 0 0 0

/-- The work of a GALLEY_EDIT that has its shadow. -/
def State.edit (s : State) (c : Cmd) : State :=
  let op := c.par 32 1
  let n := c.par 36 4
  match op with
  | 0 => s.storeInit c
  | 1 =>
    let t : GTable := {
      number := n, kvHeads := c.par 33 1, maxBlocks := c.par 48 4, generation := 1,
      published := ⟨0, []⟩, second := ⟨0, []⟩, draining := false, changed := false, destroying := false,
      walks := [], drainWalks := [] }
    let s := { s with attn := { s.attn with tables := s.attn.tables ++ [t] } }
    s.editDone c 0 1 0
  | _ =>
    match s.gtable n with
    | none => s.finish c.id (Outcome.bad 0x0104)
    | some t =>
      if op = 2 then
        let b := s.forkBank c
        if s.shareLimit t b then s.finish c.id (Outcome.noSpace 0x0108)
        else
          let r := (s.setShadow n b).reclaim
          r.2.editDone c b.length t.generation r.1
      else if op = 3 then
        let b := t.second.cut (c.par 44 4)
        let r := (s.setShadow n b).reclaim
        r.2.editDone c b.length t.generation r.1
      else
        let s := s.updTable n fun t => { t with second := ⟨0, []⟩, changed := true, destroying := true }
        let q := s.reclaim
        let r := q.2.publishTable n
        r.2.editDone c 0 ((t.generation + 1) % 2 ^ 32) (q.1 + r.1)

/-- GALLEY_EDIT (R158). -/
def execGalleyEdit (n : Nat) (s : State) : Host.Outcome State Fault Refusal :=
  .next (s.work n 0x0604 fun c s => s.shadowEdit c (s.editFault c) fun s => s.edit c)

/-! ### GALLEY_PUBLISH (R152) -/

/-- Tables published together in one ACLK: how many took a new generation, and the state after. -/
def State.publishTables (s : State) (l : List Nat) : Nat × State :=
  l.foldl (fun a n =>
    let g := fun (s : State) => (s.gtable n).map (·.generation)
    let will := (a.2.gtable n).any fun t => ! t.draining && t.changed
    let r := a.2.publishTable n
    (a.1 + ofBool (will || decide (g r.2 ≠ g a.2)), r.2)) (0, s)

/-- GALLEY_PUBLISH (R152): every table of the range is to be live. -/
def execGalleyPublish (n : Nat) (s : State) : Host.Outcome State Fault Refusal :=
  .next (s.work n 0x0605 fun c s =>
    let first := c.par 36 4
    let count := c.par 40 4
    let l := (List.range (count % 65537)).map (first + ·)
    if s.attn.store.isNone then s.finish c.id (Outcome.bad 0x0102)
    else if count = 0 ∨ 65536 < first + count ∨ l.any (fun n => (s.liveTable n).isNone) then
      s.finish c.id (Outcome.bad 0x0104)
    else
      let r := s.publishTables l
      let gen := ((r.2.gtable first).map (·.generation)).getD 0
      r.2.finish c.id (Outcome.ok (resultOf 0 0 0 gen r.1 0)))

/-! ### VERIFY_TREE (R167, R172 to R174) -/

/-- The parent of a candidate from its ancestor mask (R167): none for a child of the root. -/
def treeParent (mask i : Nat) : Option Nat :=
  if mask % 2 ^ i = 0 then none else some (Nat.log2 (mask % 2 ^ i))

/-- Whether the ancestor masks are valid (R167). -/
def treeOk (masks : List Nat) : Bool :=
  masks.zipIdx.all fun p =>
    decide (p.1 / 2 ^ p.2 = 1) &&
    match treeParent p.1 p.2 with
    | none => true
    | some q => decide (p.1 = masks.getD q 0 + 2 ^ p.2)

/-- The ancestor masks of a tensor. -/
def State.treeMasks (s : State) (h n : Nat) : List Nat :=
  match s.named h with
  | none => []
  | some (t, c) => (List.range n).map fun i => tensorNat t c.1 (8 * i) 8

/-- The accepted path of R173, from the current candidate on; `fuel` bounds its length. -/
def acceptPath (masks cand tgt : List Nat) : Nat → Option Nat → List Nat → List Nat
  | 0, _, path => path
  | fuel + 1, cur, path =>
    let want := tgt.getD (match cur with
      | none => 0
      | some k => 1 + k) 0
    match (List.range cand.length).find? fun i =>
        decide (treeParent (masks.getD i 0) i = cur) && decide (cand.getD i 0 = want) with
    | none => path
    | some i => acceptPath masks cand tgt fuel (some i) (path ++ [i])

/-- The checks of VERIFY_TREE (R172, Table 6.12). -/
def State.treeFault (s : State) (c : Cmd) : Option Nat :=
  let n := c.par 52 1
  let tabs := shadowTables c
  let lens := tabs.map fun t => ((s.gtable t).map fun t => t.second.length).getD 0
  firstFault [
    ([40, 44, 48].any fun i => (s.readable c (c.par i 4)).isNone, 0x0100),
    (s.attn.store.isNone, 0x0102),
    (tabs.isEmpty || decide (65536 < c.par 32 4 + c.par 36 4) || tabs.any fun t => (s.liveTable t).isNone, 0x0104),
    (s.tooShort (c.par 40 4) (8 * n) || s.tooShort (c.par 44 4) (4 * n) || s.tooShort (c.par 48 4) (4 * n + 4), 0x0105),
    (decide (n = 0 ∨ 64 < n) || ! treeOk (s.treeMasks (c.par 40 4) n), 0x010A),
    (lens.any fun l => l < n ∨ l ≠ lens.headD 0, 0x010B)]

/-- One token of one head moved to another index of the table (R174). -/
def moveToken (n d h src dst : Nat) (e : EditSt) : Option EditSt :=
  match e.s.gtable n with
  | none => none
  | some t =>
    let g := e.s.galley (t.second.entry (src / 128) h)
    let a := src % 128
    let el := fun i k => (List.range k).map fun j => codeAt g.elems (i + j)
    let sc := fun i k => (List.range k).map fun j => codeAt g.scales (i + j)
    match e.writable n h dst with
    | none => none
    | some (x, e) =>
      let k := (sc (d / 32 * a) (d / 32), el (d * a) d)
      let v := (sc (4 * d + d / 32 * a) (d / 32), el (128 * d + d * a) d)
      let s := e.s.updGalley x fun y => y.writeToken d (dst % 128) k v (codeAt g.marks a)
      some ⟨s, e.alloc, e.copies⟩

/-- The accepted tokens of one table moved into place, head by head. -/
def verifyTable (d base : Nat) (path : List Nat) (e : EditSt) (n : Nat) : Option EditSt :=
  match e.s.gtable n with
  | none => none
  | some t =>
    (List.range t.kvHeads).foldl (fun e h =>
      path.zipIdx.foldl (fun e p => if p.1 = p.2 then e else e.bind (moveToken n d h (base + p.1) (base + p.2))) e)
      (some e)

/-- The work of a VERIFY_TREE that has its shadows; stopped by the surroundings, it leaves them as they were. -/
def State.verify (s : State) (env : Env) (c : Cmd) : State :=
  let s := s.corrections env
  match s.envStop env c 0x010D with
  | some (s, d) => s.finish c.id (Outcome.aborted d)
  | none =>
  let n := c.par 52 1
  let tabs := shadowTables c
  let base := ((s.gtable (c.par 32 4)).map fun t => t.second.length - n).getD 0
  let masks := s.treeMasks (c.par 40 4) n
  let cand := (List.range n).map fun i => wordAt (s.named (c.par 44 4)) i 0
  let tgt := (List.range (n + 1)).map fun i => wordAt (s.named (c.par 48 4)) i 0
  let path := acceptPath masks cand tgt n none []
  let bonus := tgt.getD (match path.getLast? with
    | none => 0
    | some k => 1 + k) 0
  match tabs.foldl (fun e t => e.bind fun e => verifyTable s.headDim base path e t) (some (⟨s, 0, 0⟩ : EditSt)) with
  | none => s.finish c.id (Outcome.noSpace 0x0107)
  | some e =>
    let moved := path.zipIdx.countP fun p => p.1 ≠ p.2
    let len := base + path.length
    let s := tabs.foldl (fun (s : State) t =>
      s.updTable t fun x =>
        { x with second := x.second.cut len, changed := x.changed || decide (x.second.length ≠ len) }) e.s
    let s := s.reclaim.2
    let s := if bit (c.par 53 1) 0 = 1 then (s.publishTables tabs).2 else s
    s.finish c.id (Outcome.ok
      (resultOf 0 0 0 (path.length + 2 ^ 8 * moved + 2 ^ 16 * (e.copies % 65536)) bonus len))

/-- VERIFY_TREE (R172 to R174). -/
def execVerifyTree (n : Nat) (env : Env) (s : State) : Host.Outcome State Fault Refusal :=
  .next (s.work n 0x0606 fun c s => s.shadowEdit c (s.treeFault c) fun s => s.verify env c)

/-- GALLEY_WAITER_RESUME (R154): a command that waited for a shadow proceeds once the bank has been refreshed. -/
def execGalleyWaiterResume (n : Nat) (env : Env) (s : State) : Host.Outcome State Fault Refusal :=
  .next (s.resumeCmd n fun c s =>
    if c.aux ≠ [11] ∨ s.noShadow c = true then s
    else match c.opcode with
      | 0x0603 => s.shadowEdit c (s.appendFault c) fun s => s.append env c
      | 0x0604 => s.shadowEdit c (s.editFault c) fun s => s.edit c
      | 0x0606 => s.shadowEdit c (s.treeFault c) fun s => s.verify env c
      | _ => s)

end Sys2Proof.Machine
end

