-- ==== Sys2Proof/Machine/Matrix.lean ====
section
/-! DEFINITION. The matrix group and the arrays (04_matrix_arrays.md R93 to R119; arithmetic in
03_number_formats.md). -/

namespace Sys2Proof.Machine

/-- Whether a tensor's format is one an array output may have (R84): FP32, BF16, FP16 or FP8 unscaled, or FP8, FP6
or FP4 block-scaled along the output row. -/
def outputOk (t : Tensor) : Bool :=
  let c := t.fmt % 16
  if isMX t.fmt then decide (3 ≤ c ∧ c ≤ 7) && decide (t.blockAxis + 1 = t.dims.length)
  else decide (c ≤ 4)

/-! ### MATMUL (R112 to R116) -/

/-- Extents of a product: rows M, reduction indices, output columns. -/
structure Product where
  rows : Nat
  kBegin : Nat
  kCount : Nat
  nBegin : Nat
  nCount : Nat
  deriving DecidableEq, Repr

/-- MFLAGS bits (Table 4.8). -/
def Cmd.turnB (c : Cmd) : Bool := bit (c.par 47 1) 0 = 1
def Cmd.transA (c : Cmd) : Bool := bit (c.par 47 1) 1 = 1
def Cmd.accIn (c : Cmd) : Bool := bit (c.par 47 1) 2 = 1
def Cmd.accOut (c : Cmd) : Bool := bit (c.par 47 1) 3 = 1

/-- Rows and reduction extent of A, reduction extent and columns of B, as the flags turn them (R103, R104). -/
def aShape (turned : Bool) (t : Tensor) : Nat × Nat := if turned then (t.width, t.rows) else (t.rows, t.width)
def bShape (turned : Bool) (t : Tensor) : Nat × Nat := if turned then (t.width, t.rows) else (t.rows, t.width)

/-- The ranges of a MATMUL (Table 4.8): a count of 0 runs to the end of the declared extent. -/
def productOf (c : Cmd) (a b : Tensor) : Product :=
  let sa := aShape c.transA a
  let sb := bShape c.turnB b
  let k0 := c.par 48 4
  let n0 := c.par 56 4
  { rows := sa.1, kBegin := k0, kCount := if c.par 52 4 = 0 then sa.2 - k0 else c.par 52 4,
    nBegin := n0, nCount := if c.par 60 4 = 0 then sb.2 - n0 else c.par 60 4 }

/-- Whether LOADMODE is RIPPLE in a latched mode (Table 4.11). -/
def ripple (mode : Nat) : Bool := bit mode 16 = 1

/-- The pairs RIPPLE supports (R106). -/
def ripplePair (a b : Nat) : Bool :=
  let fp8 := fun x => decide (x % 16 = 3 ∨ x % 16 = 4)
  (fp8 a && fp8 b) || decide (a % 16 = b % 16 ∧ (a % 16 = 8 ∨ a % 16 = 1 ∨ a % 16 = 2))

/-- Whether the edition of B (or W) that a command names explicitly is not kept (R113, R213): for a FROZEN tensor, any
but its one edition, number 1. -/
def Cmd.editionGone (c : Cmd) (b : Tensor) : Bool :=
  (decide (b.role = 1) && (c.latched b).isNone) ||
  decide (b.role = 2 ∧ c.par 64 4 ≠ noHandle ∧ c.par 64 4 ≠ 1)

/-- The checks of MATMUL and MATMUL_GATHER (R113, R104, R106, Table 4.13). -/
def State.matmulFault (s : State) (c : Cmd) : Option Nat :=
  match s.readable c (c.par 32 4), s.readable c (c.par 36 4), s.tensor (c.par 40 4) with
  | some a, some b, some o =>
    let p := productOf c a b
    let sa := aShape c.transA a
    let sb := bShape c.turnB b
    let narrow := decide (a.fmt % 16 = 5 ∨ a.fmt % 16 = 6 ∨ a.fmt % 16 = 7)
    firstFault [
      (decide (c.par 44 1 ≠ a.fmt ∨ c.par 45 1 ≠ b.fmt ∨ c.par 46 1 ≠ o.fmt), 0x0101),
      (! pairOk a.fmt b.fmt || (! c.accOut && ! outputOk o) || decide (o.role = 1), 0x0102),
      (decide (sa.2 < p.kBegin + p.kCount ∨ sb.1 < p.kBegin + p.kCount ∨ p.kCount = 0) ||
        decide (sb.2 < p.nBegin + p.nCount ∨ p.nCount = 0) || decide (o.shape ≠ (sa.1, sb.2)), 0x0103),
      ((c.accIn && ! c.accOut) || (c.accOut && ! accumulator o), 0x0104),
      (c.transA && narrow, 0x0105),
      (ripple c.latch.mode && (! ripplePair a.fmt b.fmt || c.turnB || c.transA), 0x0106),
      (c.editionGone b, 0x010A)]
  | _, _, _ => some 0x0100

/-- The contents of an operand as a command reads it: for a weight, the edition it latched. -/
def State.operand (s : State) (c : Cmd) (t : Tensor) : Codes × Codes :=
  s.contents t ((c.latched t).getD t.currentEdition)

/-- The products of one output element, in logical reduction order (R76, R81). -/
def terms2 (ta tb : Bool) (a b : Tensor) (ca cb : Codes × Codes) (m n : Nat) (ks : List Nat) : List (Elem × Elem) :=
  ks.map fun k =>
    (elemAt a ca (if ta then k * a.width + m else m * a.width + k),
     elemAt b cb (if tb then n * b.width + k else k * b.width + n))

/-- The initial accumulator (R113). -/
def accInit (accIn : Bool) (o : Codes) (i : Nat) : Val := if accIn then fp32.decode (codeAt o i) else .fin false 0

/-- The values and flags of one output row. -/
def productRow (mode : ArithMode) (kp : Nat) (ta tb accIn : Bool) (a b o : Tensor) (ca cb : Codes × Codes)
    (p : Product) (m : Nat) : List (Nat × Val) × Flags :=
  let ks := (List.range p.kCount).map (p.kBegin + ·)
  let cols := (List.range p.nCount).map fun j =>
    let n := p.nBegin + j
    let r := dotParts mode a.fmt b.fmt kp (terms2 ta tb a b ca cb m n ks)
      (accInit accIn o.data (m * o.width + n))
    (n, r)
  (cols.map fun x => (x.1, x.2.1), cols.foldl (fun f x => f.or x.2.2) Flags.none)

/-- The rows of a product written out: to an accumulator tensor in FP32, else converted. -/
def State.productRows (s : State) (c : Cmd) (accIn accOut ta tb : Bool) (a b o : Tensor) (p : Product) :
    State × List Write × Flags :=
  let mode := ArithMode.ofWord c.latch.mode
  let ca := s.operand c a
  let cb := s.operand c b
  (List.range p.rows).foldl (fun acc m =>
    let r := productRow mode (s.kParts c) ta tb accIn a b o ca cb p m
    let acc := (acc.1, acc.2.1, acc.2.2.or r.2)
    if accOut then
      (acc.1, acc.2.1 ++ r.1.map fun x => (⟨o.handle, false, m * o.width + x.1, fp32.encode x.2⟩ : Write), acc.2.2)
    else State.outputRow mode.stochastic o m m r.1 acc) (s, [], Flags.none)

/-- The reports of a product's RESULT that placement decides (R116): GROVES, those with rows of the command, and SPAN_ACLK
and LOAD_STALL_ACLK, free numbers. -/
def State.productResult (s : State) (f : Flags) (rows : Nat) : Nat × State :=
  let p := s.free
  let l := p.2.free
  (resultOf f.code (groveBits (s.shareGroves rows)) 0 p.1 l.1 0, l.2)

/-- The last matrix command of the arrays and its LOADMODE (Table 4.17). -/
def State.arraysTake (s : State) (c : Cmd) : State :=
  { s with core := { s.core with lastCmd := some (c.id, c.tag, ofBool (ripple c.latch.mode)) } }

/-- ACLK that a row of a product occupies the arrays: one for each FP32 term (R96). -/
def termCount (c : Cmd) (fa fb : Nat) : Nat :=
  if fa % 16 = 0 ∧ fb % 16 = 0 then (passTerms (ArithMode.ofWord c.latch.mode).passes).length else 1

/-- Rows entered and swaps made are counted in an array (Table 4.18). -/
def State.countRows (s : State) (core a rows swaps : Nat) : State :=
  (s.addWrap (Reg.arrayCount core a) 31 0 rows).addWrap (Reg.arrayCount core a) 63 32 swaps

/-- The rows and swaps of a product on the arrays of the positions that `keep` picks (R94, R95). One pass of a core forms 128
output columns from one tile of each array, and every position takes every row of its core's sliver in each of its passes
(log 134, DESIGN CHOICE; R358 states it for convolutions). `swaps` says whether the swaps of the passes are counted here, not
by SWAP. -/
def State.countPasses (s : State) (keep : Nat → Bool) (rows cols steps terms : Nat) (swaps : Bool) : State :=
  (s.sharedBy rows).foldl (fun s k => ((s.coresOf k).filter keep).foldl (fun s p =>
    (List.range (min 4 (ceilDiv cols 32))).foldl (fun s a =>
      let passes := ceilDiv (cols - 32 * a) 128 * steps
      s.countRows p a (passes * s.rowsIn rows k * terms) (if swaps then passes else 0)) s) s) s

/-- What a product leaves in the arrays of the cores that hold its rows: the last command, its flags, raised in arrays that
carry a tile of its columns, and the rows that entered. -/
def State.arraysRan (s : State) (c : Cmd) (f : Flags) (rows cols steps terms : Nat) (swaps : Bool) : State :=
  let s := (s.arraysTake c).raiseIn (flagPlaces ((s.sharedBy rows).map s.coresOf).flatten false (ceilDiv cols 32)) f false
  s.countPasses (fun _ => true) rows cols steps terms swaps

/-- What a command of another group leaves in the arrays of the cores that carry units: the last command, its flags, and
rows entered and swaps made of which the spec gives no number: free ones. -/
def State.arraysUsed (s : State) (c : Cmd) (f : Flags) : State :=
  let s := (s.arraysTake c).raiseFlags f false
  s.busyCores.foldl (fun s p => (List.range 4).foldl (fun s a =>
    let r := s.free
    let w := r.2.free
    w.2.countRows p a r.1 w.1) s) s

/-! ### The transpose unit (R104) -/

/-- A block as the transpose unit emits it: of 32 stored rows of 32 bytes, one row for each element column of `w` bytes, with
the elements of that column in the order of the stored rows. -/
def transposeBlock (w : Nat) (rows : List (List Byte)) : List Byte :=
  ((List.range (32 / w)).map fun j => (rows.map fun r => (r.drop (w * j)).take w).flatten).flatten

/-- Bytes of elements packed from bit 0 up. -/
def packBits (w : Nat) (codes : List Nat) : List Byte :=
  leBytes ((w * codes.length + 7) / 8) (codes.zipIdx.foldl (fun a x => a + x.1 % 2 ^ w * 2 ^ (w * x.2)) 0)

/-- The transpose units of the cores that stream an operand hold the last block that each emitted; which block of its rows
that is, a free number says. -/
def State.turnBlocks (s : State) (a : Tensor) (codes : Codes) : State :=
  let w := elemBits a.fmt / 8
  (s.sharedBy a.rows).foldl (fun s k =>
    let f := s.free
    let r0 := k * max 1 ((f.2.imp.cur.map (·.sliver)).getD 1) + 32 * (f.1 % max 1 (ceilDiv (f.2.rowsIn a.rows k) 32))
    let q := f.2.free
    let c0 := 32 / w * (q.1 % max 1 (ceilDiv a.width (32 / w)))
    let rows := (List.range 32).map fun i => packBits (8 * w) ((List.range (32 / w)).map fun j =>
      if r0 + i < a.rows ∧ c0 + j < a.width then codeAt codes ((r0 + i) * a.width + c0 + j) else 0)
    let d := transposeBlock w rows
    (q.2.coresOf k).foldl (fun s p => { s with core := { s.core with
      turned := (s.core.turned.filter fun x => x.1 ≠ p) ++ [(p, d)] } }) q.2) s

/-- An entry (W, e) joins the record of a save (R205); none when a limit would be exceeded: 4 entries per weight,
65,536 in all. -/
def State.addEntry (s : State) (saved : Tensor) (w e : Nat) : Option State :=
  if 4 ≤ saved.record.countP (fun x => x.1 = w) ∨ 65536 ≤ (s.tens.map fun t => t.record.length).sum then none
  else some (s.updTensor saved.handle fun t => { t with record := t.record ++ [(w, e)] })

/-- The save-record entry of a MATMUL (R205): from an ACT_SAVED operand A read plainly and a WEIGHT operand B read
plainly. -/
def State.matmulRecord (s : State) (c : Cmd) (a b : Tensor) : Option State :=
  if a.role = 3 ∧ b.role = 1 ∧ c.transA = false ∧ c.turnB = false ∧ c.opcode = 0x0401 then
    s.addEntry a b.handle ((c.latched b).getD b.currentEdition)
  else some s

/-- The body of MATMUL and MATMUL_GATHER once it may run. -/
def State.matmul (s : State) (env : Env) (c : Cmd) : State :=
  match s.readable c (c.par 32 4), s.readable c (c.par 36 4), s.tensor (c.par 40 4) with
  | some a, some b, some o =>
    match s.matmulRecord c a b with
    | none => s.finish c.id (Outcome.noSpace 0)
    | some t => if (t.takeSaves c).isNone then s.finish c.id (Outcome.noSpace 0) else t.withSaves c fun s =>
      let p := productOf c a b
      let r := s.productRows c c.accIn c.accOut c.transA c.turnB a b o p
      let s := if c.transA then r.1.turnBlocks a (s.operand c a).1 else r.1
      let s := s.arraysRan c r.2.2 a.rows p.nCount (ceilDiv p.kCount (stepWidth a.fmt b.fmt)) (termCount c a.fmt b.fmt) false
      let q := s.productResult r.2.2 a.rows
      q.2.complete env c 0x0109 r.2.1 (Outcome.ok q.1)
  | _, _, _ => s.finish c.id (Outcome.bad 0x0100)

/-- MATMUL (R113). -/
def execMatmul (n : Nat) (env : Env) (s : State) : Host.Outcome State Fault Refusal :=
  .next (s.work n 0x0401 fun c s => match s.matmulFault c with
    | some d => s.finish c.id (Outcome.bad d)
    | none => s.matmul env c)

/-- A MATMUL_GATHER that waited for an ALL_GATHER which has ended may run. -/
def State.gatherReady (s : State) (n : Nat) : State :=
  s.updCmd n fun c => match c.aux with
    | [14, x] => if c.phase = .waiting ∧ ! s.coll.colls.any (fun y => y.id = x) then { c with phase := .dispatched, aux := [] } else c
    | _ => c

/-- MATMUL_GATHER (R114, R330): GATHER_FAILED when no ALL_GATHER fed it at its dispatch, or the one that did has
failed (R328); it runs once every chunk of the gathered operand has been checked and written, and its result is that
of MATMUL after the ALL_GATHER. -/
def execMatmulGather (n : Nat) (env : Env) (s : State) : Host.Outcome State Fault Refusal :=
  .next ((s.gatherReady n).work n 0x0402 fun c s => match s.matmulFault c with
    | some d => s.finish c.id (Outcome.bad d)
    | none => match c.latch.extra with
      | [0, x] =>
        if s.coll.failed.contains x then s.finish c.id (Outcome.aborted 0x010B)
        else if s.coll.colls.any fun y => y.id = x ∧ (y.slot = none ∨ y.toWrite ≠ []) then s.park c.id [14, x]
        else s.matmul env c
      | _ => s.finish c.id (Outcome.aborted 0x010B))

/-! ### MATMUL_PACKED (R108 to R110) -/

/-- PFLAGS (Table 4.9). -/
def Cmd.pack (c : Cmd) : Nat := c.par 47 1 % 4
def Cmd.sharedA (c : Cmd) : Bool := bit (c.par 47 1) 2 = 1
def Cmd.packTurn (c : Cmd) : Bool := bit (c.par 47 1) 3 = 1
def Cmd.packIn (c : Cmd) : Bool := bit (c.par 47 1) 4 = 1
def Cmd.packOut (c : Cmd) : Bool := bit (c.par 47 1) 5 = 1

/-- Side of a sub-array, and its depth for an operand pair (Table 4.6). -/
def packSide (pack : Nat) : Nat := 32 / 2 ^ pack
def packDepth (pack fa fb : Nat) : Nat := stepWidth fa fb / 2 ^ pack

/-- The length of the axes after a tensor's leading one, as rows by width. -/
def innerShape (t : Tensor) : Nat × Nat := (t.dims.getD 1 1, product (t.dims.drop 2))

/-- The checks of MATMUL_PACKED (R106, R108 to R110). PACK_LIMIT comes before the shapes, as R110 gives it without
condition. Tensors of other than three axes are a mismatch of shapes: problem, row and column (log 137, DESIGN CHOICE). -/
def State.packFault (s : State) (c : Cmd) : Option Nat :=
  match s.readable c (c.par 32 4), s.readable c (c.par 36 4), s.tensor (c.par 40 4) with
  | some a, some b, some o =>
    let p := c.par 48 4
    let k := c.par 52 4
    let n := c.par 56 4
    let groups := 32 / packSide c.pack
    let sb := if c.packTurn then (n, k) else (k, n)
    firstFault [
      (decide (c.par 44 1 ≠ a.fmt ∨ c.par 45 1 ≠ b.fmt ∨ c.par 46 1 ≠ o.fmt), 0x0101),
      (! pairOk a.fmt b.fmt || (! c.packOut && ! outputOk o) ||
        decide (o.role = 1), 0x0102),
      (decide (packDepth c.pack a.fmt b.fmt < k ∨ packSide c.pack < n) || decide (a.fmt % 16 = 0) ||
        (c.sharedA && decide (p % groups ≠ 0)), 0x0107),
      (decide (p = 0 ∨ k = 0 ∨ n = 0) || decide (a.dims.length ≠ 3 ∨ b.dims.length ≠ 3 ∨ o.dims.length ≠ 3) ||
        decide (a.rows ≠ if c.sharedA then p / groups else p) || decide (b.rows ≠ p ∨ o.rows ≠ p) ||
        decide ((innerShape a).2 ≠ k) || decide (innerShape b ≠ sb) || decide (innerShape o ≠ ((innerShape a).1, n)),
        0x0103),
      ((c.packIn && ! c.packOut) || (c.packOut && ! accumulator o), 0x0104),
      (ripple c.latch.mode, 0x0106)]
  | _, _, _ => some 0x0100

/-- One row of one packed problem: each element one tree step into its accumulator (R108), or one for each part that the
operation's K_PARTS cuts the reduction into (09 R241). -/
def packedRow (mode : ArithMode) (kp : Nat) (c : Cmd) (a b o : Tensor) (ca cb : Codes × Codes) (prob set m : Nat) :
    List (Nat × Val) × Flags :=
  let k := c.par 52 4
  let n := c.par 56 4
  let rows := (innerShape a).1
  let cols := (List.range n).map fun j =>
    let l := (List.range k).map fun i =>
      (elemAt a ca ((set * rows + m) * k + i),
       elemAt b cb (prob * (k * n) + if c.packTurn then j * k + i else i * n + j))
    (j, dotParts mode a.fmt b.fmt kp l (accInit c.packIn o.data ((prob * rows + m) * n + j)))
  (cols.map fun x => (x.1, x.2.1), cols.foldl (fun f x => f.or x.2.2) Flags.none)

/-- What packed problems leave in the arrays (R108, R109): a pass of M rows takes M entries, or with independent A one for
each column group; the cores of the output's rows share the problems, packed 4 to 16 to an array (log 134). -/
def State.packRan (s : State) (c : Cmd) (f : Flags) (m problems : Nat) : State :=
  let groups := 32 / packSide c.pack
  let cores := s.sharedBy problems
  let s := (s.arraysTake c).raiseIn (flagPlaces (cores.map s.coresOf).flatten false 4) f false
  let rows := if c.sharedA then m else m * groups
  cores.foldl (fun s k => (s.coresOf k).foldl (fun s p => (List.range 4).foldl (fun s a =>
    s.countRows p a (ceilDiv (ceilDiv (s.rowsIn problems k) (groups * groups) - a) 4 * rows) 0) s) s) s

/-- The rows of every packed problem. C's token row is its axis 0 (09 R243): every element of a problem draws from the logical
core of token row `prob`, as column m × N + n of it (03 R85). -/
def State.packedRows (s : State) (c : Cmd) (a b o : Tensor) : State × List Write × Flags :=
  let mode := ArithMode.ofWord c.latch.mode
  let ca := s.operand c a
  let cb := s.operand c b
  let groups := 32 / packSide c.pack
  let rows := (innerShape a).1
  let n := c.par 56 4
  (List.range (c.par 48 4)).foldl (fun acc prob =>
    (List.range rows).foldl (fun acc m =>
      let r := packedRow mode (s.kParts c) c a b o ca cb prob (if c.sharedA then prob / groups else prob) m
      let acc := (acc.1, acc.2.1, acc.2.2.or r.2)
      let row := r.1.map fun x => (m * n + x.1, x.2)
      if c.packOut then
        (acc.1, acc.2.1 ++ row.map fun x => (⟨o.handle, false, prob * o.width + x.1, fp32.encode x.2⟩ : Write), acc.2.2)
      else State.outputRow mode.stochastic o prob prob row acc) acc) (s, [], Flags.none)

/-- MATMUL_PACKED (R108). -/
def execMatmulPacked (n : Nat) (env : Env) (s : State) : Host.Outcome State Fault Refusal :=
  .next (s.work n 0x0403 fun c s => match s.packFault c with
    | some d => s.finish c.id (Outcome.bad d)
    | none => match s.readable c (c.par 32 4), s.readable c (c.par 36 4), s.tensor (c.par 40 4) with
      | some a, some b, some o => s.withSaves c fun s =>
        let r := s.packedRows c a b o
        let s := r.1.packRan c r.2.2 (innerShape a).1 (c.par 48 4)
        let q := s.productResult r.2.2 o.rows
        q.2.complete env c 0x0109 r.2.1 (Outcome.ok q.1)
      | _, _, _ => s.finish c.id (Outcome.bad 0x0100))

/-- SET_MATRIX_MODE (R87, R115, R116): the word takes effect at its completion, and bytes 23:20 return the word it replaces
then (Machine/Completion.lean). -/
def execSetMatrixMode (n : Nat) (s : State) : Host.Outcome State Fault Refusal :=
  .next (s.work n 0x0404 fun c s =>
    let w := c.par 32 4
    if w % 4 = 0 ∨ bits w 15 4 ≠ 0 ∨ bits w 31 17 ≠ 0 then s.finish c.id (Outcome.bad 0x0108)
    else s.finish c.id (Outcome.ok 0))

/-! ### The arrays' own events (R99 to R106) -/

/-- The weight registers of an array (Table 4.1); an array not listed holds zeros. -/
def State.arraySt (s : State) (i : Nat) : ArraySt :=
  (s.core.arrays.find? fun a => a.index = i).getD ⟨i, List.replicate 1024 0, List.replicate 1024 0, [], 0⟩

/-- The weight registers of an array put back. -/
def State.setArraySt (s : State) (a : ArraySt) : State :=
  { s with core := { s.core with arrays := (s.core.arrays.filter fun b => b.index ≠ a.index) ++ [a] } }

/-- Whether an array exists: its core in service. -/
def State.hasArray (s : State) (core a : Nat) : Bool :=
  decide (core < 4096) && decide (a < 4) && ! s.isRetired (core / 16)

/-- The operands of a matrix command of which tiles are loaded, and whether B is turned (Tables 4.8, 4.9). -/
def State.tileOperands (s : State) (c : Cmd) : Option (Tensor × Tensor × Bool) :=
  match s.tensor (c.par 32 4), s.tensor (c.par 36 4) with
  | some a, some b =>
    if c.opcode = 0x0401 ∨ c.opcode = 0x0402 then some (a, b, c.turnB)
    else if c.opcode = 0x0403 then some (a, b, c.packTurn) else none
  | _, _ => none

/-- The code of element (k, n) of the tile of B that begins at reduction index `k0` and column `n0`; 0 beyond the command's
ranges (R94). In a pack, `k0` is the first problem: cell column and index name a problem and an element of it (R108). -/
def State.tileCode (s : State) (c : Cmd) (a b : Tensor) (turned : Bool) (k0 n0 k n : Nat) : Nat :=
  let at_ := fun (i : Nat) => codeAt (s.operand c b).1 i
  if c.opcode = 0x0403 then
    let depth := packDepth c.pack a.fmt b.fmt
    let side := packSide c.pack
    let prob := k0 + k / depth * (32 / side) + n / side
    let kk := c.par 52 4
    let nn := c.par 56 4
    let i := k % depth
    let j := n % side
    if prob < c.par 48 4 ∧ i < kk ∧ j < nn then at_ (prob * (kk * nn) + if turned then j * kk + i else i * nn + j) else 0
  else
    let p := productOf c a b
    if k0 + k < p.kBegin + p.kCount ∧ n0 + n < p.nBegin + p.nCount then
      at_ (if turned then (n0 + n) * b.width + (k0 + k) else (k0 + k) * b.width + (n0 + n)) else 0

/-- The 1,024 cells of a tile by operand pair (Table 4.2), from the codes of its elements (k, n): two FP4 elements a cell, the
lower index in the low bits; the two bytes of a 16-bit element, or what an 8-bit one has in their place, in a pair of cells,
the low one first (log 138, DESIGN CHOICE); the two parts of an FP32 element in a pair of cells (R81). -/
def tileCells (fa fb : Nat) (code : Nat → Nat → Nat) : List (BitVec 16) :=
  (List.range 1024).map fun i =>
    let r := i / 32
    let n := i % 32
    BitVec.ofNat 16 (
      if fa % 16 = 7 ∧ fb % 16 = 7 then code (2 * r) n % 16 + code (2 * r + 1) n % 16 * 16
      else if fa % 16 = 0 then (let p := split32 (code (r / 2) n); if r % 2 = 0 then p.1 else p.2)
      else if stepWidth fa fb = 16 then code (r / 2) n / 256 ^ (r % 2) % 256
      else code r n)

/-- The bytes of a tile as they arrive, its stored rows one after another (R103, Table 4.2): rows of the reduction index, or,
turned, of the output column. -/
def tileBytes (fa fb : Nat) (turned : Bool) (code : Nat → Nat → Nat) : List Byte :=
  let g := stepWidth fa fb
  packBits (elemBits fb) (if turned then ((List.range 32).map fun n => (List.range g).map fun k => code k n).flatten
    else ((List.range g).map fun k => (List.range 32).map fun n => code k n).flatten)

/-- The matrix command in flight with a number, when it latched the LOADMODE given. -/
def State.loader (s : State) (n : Nat) (rip : Bool) : Option (Cmd × Tensor × Tensor × Bool) :=
  match s.cmdOf n with
  | some c =>
    if ripple c.latch.mode = rip ∧ (c.phase = .dispatched ∨ c.phase = .waiting ∨ c.phase = .done) then
      (s.tileOperands c).map fun x => (c, x)
    else none
  | none => none

/-- SHADOW_LOAD (R99, R103): with LOADMODE SHADOW and the shadow registers free, the tile of a command that begins at
reduction index `k0` and column `n0`, the one in the landing buffer if one is there, is written into them; `behind` names
the tile that then waits in the landing buffer. -/
def execShadowLoad (core a n k0 n0 : Nat) (behind : Option (Nat × Nat)) (s : State) :
    Host.Outcome State Fault Refusal :=
  .next (
    let off := Reg.arrayState core a
    match s.loader n false with
    | none => s
    | some (c, ta, tb, turned) =>
      let code := fun (x : Nat × Nat) => s.tileCode c ta tb turned x.1 x.2
      let x := s.arraySt (4 * core + a)
      if s.hasArray core a = true ∧ s.fld off 30 30 = 0 ∧
          (s.fld off 29 29 = 0 ∨ x.landing = tileBytes ta.fmt tb.fmt turned (code (k0, n0))) then
        let s := s.setArraySt { x with
          shadow := tileCells ta.fmt tb.fmt (code (k0, n0))
          landing := (behind.map fun y => tileBytes ta.fmt tb.fmt turned (code y)).getD [] }
        (s.setFld off 30 30 1).setFld off 29 29 (ofBool behind.isSome)
      else s)

/-- One array's part in a swap: its shadow registers become the active ones and are free, and SWAPS counts. -/
def State.swapArray (s : State) (core a : Nat) : State :=
  let x := s.arraySt (4 * core + a)
  let s := s.setArraySt { x with active := x.shadow }
  (s.setFld (Reg.arrayState core a) 30 30 0).addWrap (Reg.arrayCount core a) 63 32 1

/-- SWAP (R95, R98, R100, R101): the arrays of a core swap in one ACLK, once the shadow load of every array that has a tile
is complete; `tiles` lists the arrays to which the imposition gives a tile. `hazard` is the idle ACLK put before the swap,
at most 10, counted in those arrays; `waited` the ACLK for which all four arrays waited for a load that a link had made
late, counted as stalls and as link idle. -/
def execSwap (core : Nat) (tiles : List Nat) (hazard waited : Nat) (s : State) : Host.Outcome State Fault Refusal :=
  .next (
    if tiles ≠ [] ∧ tiles.all (fun a => s.hasArray core a && decide (s.fld (Reg.arrayState core a) 30 30 = 1)) then
      let s := (List.range 4).foldl (fun s a => s.addSat (Reg.arrayStalls core a) 31 0 waited) s
      let s := s.addWrap (Reg.idle core 2) 63 0 waited
      tiles.eraseDups.foldl (fun s a => (s.addSat (Reg.arrayStalls core a) 63 32 (min 10 hazard)).swapArray core a) s
    else s)

/-- RIPPLE_FRONT (R105, R106): with LOADMODE RIPPLE, the front of an array writes the next cell row of a tile into the
active registers, or halts for an ACLK when the row of weights has not landed; the last row ends the front. -/
def execRippleFront (core a n k0 n0 : Nat) (landed : Bool) (s : State) : Host.Outcome State Fault Refusal :=
  .next (match s.loader n true with
    | none => s
    | some (c, ta, tb, turned) =>
      if ! s.hasArray core a then s
      else if ! landed then s.addSat (Reg.arrayStalls core a) 31 0 1
      else
        let x := s.arraySt (4 * core + a)
        let cells := ((tileCells ta.fmt tb.fmt (s.tileCode c ta tb turned k0 n0)).drop (32 * x.front)).take 32
        let act := x.active.take (32 * x.front) ++ cells ++ x.active.drop (32 * x.front + 32)
        let s := s.setArraySt { x with active := act, front := (x.front + 1) % 32 }
        if x.front = 31 then s.addWrap (Reg.arrayCount core a) 63 32 1 else s)

/-- Bank and line of a byte of a core window (R90): of the 16 banks of core SRAM, or the 8 of the accumulator buffer. -/
def coreBank (o : Nat) : Nat × Nat :=
  if o < 0xC0000 then (o / 64 % 16, o / 1024) else ((o - 0xC0000) / 128 % 8, (o - 0xC0000) / 1024)

/-- ARITH_FLAGS_CLEAR (R88, R119): a write of 1 to bits of ARITH_FLAGS_SUMMARY clears them in every array. -/
def State.clearArrayFlags (s : State) (v : Nat) : State :=
  (s.regs.map (·.1)).foldl (fun s off =>
    if 0x100000 ≤ off ∧ off < 0x200000 ∧ off % 0x100 < 0x80 ∧ off % 0x20 = 0 then
      s.setReg off (s.reg off - (s.reg off &&& (v % 16)))
    else s) s

/-- ARITH_FLAGS_CLEAR (R88). -/
def execArithFlagsClear (v : Nat) (s : State) : Host.Outcome State Fault Refusal :=
  .next (s.whenUp fun s => s.clearArrayFlags v)

end Sys2Proof.Machine
end

