-- ==== Sys2Proof/Machine/Attention.lean ====
section
/-! DEFINITION. Attention forward, backward and around the ring (06_attention_galleys.md R159 to R170, R175 to
R182). -/

namespace Sys2Proof.Machine

/-! ### Parameters and positions -/

/-- Whether MASK enables a kind (Table 6.4). -/
def Cmd.masks (c : Cmd) (i : Nat) : Bool := bit (c.par 51 1) i = 1

/-- Whether rotary positions are enabled, and ROPE_PAIR. -/
def Cmd.rope (c : Cmd) : Bool := bit (c.par 53 1) 0 = 1
def Cmd.ropeSplit (c : Cmd) : Bool := bit (c.par 53 1) 1 = 1

/-- Whether a command runs the backward pass. -/
def Cmd.backward (c : Cmd) : Bool := decide (c.opcode = 0x0602) || (decide (c.opcode = 0x0607) && decide (c.par 136 1 = 1))

/-- This module's rank on the S axis, and N (R175). -/
def State.ringRank (s : State) : Nat := ((s.axis 3).map (·.2)).getD 0
def Cmd.ringSize (c : Cmd) : Nat := if c.opcode = 0x0607 then c.par 128 4 else 1

/-- The sequence index of local index `x` of the module of rank `o` (R175). -/
def Cmd.ringSeq (c : Cmd) (o x : Nat) : Nat :=
  let seg := c.par 132 4
  (if x < seg then o else 2 * c.ringSize - 1 - o) * seg + x % max seg 1

/-- The sequence index of a query row (R165, R175). -/
def State.querySeq (s : State) (c : Cmd) (t : Nat) : Nat :=
  if c.opcode = 0x0607 then c.ringSeq s.ringRank t else c.par 60 4 + t

/-- The rotary position of a query row (R168). -/
def State.queryPos (s : State) (c : Cmd) (t : Nat) : Nat := wordAt (s.named (c.par 68 4)) t (s.querySeq c t)

/-! ### Masks (R165 to R167) -/

/-- The entries of PARTIAL_LIST: query block, key block, offset of the element bitmap (R166). -/
def State.partials (s : State) (c : Cmd) : List (Nat × Nat × Nat) :=
  match s.named (c.par 84 4) with
  | none => []
  | some (t, x) => (List.range (c.par 88 4)).map fun i =>
      (tensorNat t x.1 (16 * i) 4, tensorNat t x.1 (16 * i + 4) 4, tensorNat t x.1 (16 * i + 8) 8)

/-- A bit of a bitmap tensor. -/
def State.bitmapBit (s : State) (h byte i : Nat) : Bool :=
  match s.named h with
  | none => false
  | some (t, x) => bit (tensorByte t x.1 (byte + i / 8)) (i % 8) = 1

/-- The block bit of a pair of blocks; `nkb` is MAX_BLOCKS of the table. -/
def State.blockBit (s : State) (c : Cmd) (nkb qb kb : Nat) : Bool := s.bitmapBit (c.par 80 4) 0 (qb * nkb + kb)

/-- Whether BITMAP permits a pair. -/
def State.bitmapSees (s : State) (c : Cmd) (nkb i k : Nat) : Bool :=
  s.blockBit c nkb (i / 128) (k / 128) &&
  match (s.partials c).find? fun e => e.1 = i / 128 ∧ e.2.1 = k / 128 with
  | none => true
  | some e => s.bitmapBit (c.par 92 4) (e.2.2 + 16 * (i % 128)) (k % 128)

/-- Whether TREE permits a pair. -/
def State.treeSees (s : State) (c : Cmd) (i k : Nat) : Bool :=
  let b := c.par 100 4
  let n := c.par 104 1
  decide (k < b) ||
  (decide (b ≤ k) && decide (k < b + n) && decide (b ≤ i) && decide (i < b + n) &&
    ((s.treeMasks (c.par 96 4) n).getD (i - b) 0).testBit (k - b))

/-- Whether a pair is visible (R165): sequence indices, and segment marks. -/
def State.visible (s : State) (c : Cmd) (nkb i k mi mk : Nat) : Bool :=
  (! c.masks 0 || decide (k ≤ i)) && (! c.masks 1 || decide (i < k + c.par 64 4)) &&
  (! c.masks 2 || (decide (mi = mk) && decide (mi ≠ 0))) && (! c.masks 3 || s.bitmapSees c nkb i k) &&
  (! c.masks 4 || s.treeSees c i k)

/-! ### Key blocks -/

/-- One key block as a walk reads it: where its keys stand in the sequence (none at or beyond the latched length),
and by KV head and key its mark and its K and V elements. -/
structure KeyBlock where
  /-- local index of its first key, in the source it comes from -/
  base : Nat
  seq : Nat → Option Nat
  mark : Nat → Nat → Nat
  k : Nat → Nat → Nat → Elem
  v : Nat → Nat → Nat → Elem

/-- An MXFP8 E4M3 element from its code and scale byte. -/
def galleyElem (code scale : Nat) : Elem := ⟨decodeElem 0x13 code, scale, code⟩

/-- A zero element. -/
def zeroElem : Elem := ⟨.fin false 0, 127, 0⟩

/-- Key block `j` of a bank (R148, Table 6.1). -/
def State.tableBlock (s : State) (d : Nat) (b : Bank) (seq : Nat → Nat) (j : Nat) : KeyBlock :=
  let there := fun c => decide (128 * j + c < b.length)
  let g := fun h => s.galley (b.entry j h)
  { base := 128 * j
    seq := fun c => if there c then some (seq (128 * j + c)) else none
    mark := fun h c => codeAt (g h).marks c
    k := fun h c e => if there c then
        galleyElem (codeAt (g h).elems (d * c + e)) (codeAt (g h).scales (d / 32 * c + e / 32)) else zeroElem
    v := fun h c e => if there c then
        galleyElem (codeAt (g h).elems (128 * d + d * c + e)) (codeAt (g h).scales (4 * d + d / 32 * c + e / 32))
      else zeroElem }

/-- What a list of codes holds at a key; 0 when it is not listed. -/
def lookup (l : List (Nat × Nat)) (k : Nat) : Nat := ((l.find? fun e => e.1 = k).map (·.2)).getD 0

/-- Key block `j` of the galleys that arrive of one step: codes by 256 D × (32 j + head) + element, scales by
8 D × (32 j + head) + block, marks by 128 × (32 j + head) + token, as Table 6.1 counts them. -/
def ringBlock (d : Nat) (r : RingStep) (seq : Nat → Nat) (j : Nat) : KeyBlock :=
  let el := fun h i => lookup r.elems (256 * d * (32 * j + h) + i)
  let sc := fun h i => lookup r.scales (8 * d * (32 * j + h) + i)
  { base := 128 * j
    seq := fun c => some (seq (128 * j + c))
    mark := fun h c => lookup r.marks (128 * (32 * j + h) + c)
    k := fun h c e => galleyElem (el h (d * c + e)) (sc h (d / 32 * c + e / 32))
    v := fun h c e => galleyElem (el h (128 * d + d * c + e)) (sc h (4 * d + d / 32 * c + e / 32)) }

/-- The key blocks of a walk in its order, by step: one step for a command on its own table (R161); for the ring,
the origin of each step, its segments and their blocks (R177). -/
def State.walkSteps (s : State) (c : Cmd) (d : Nat) (b : Bank) (ring : List RingStep) : List (List KeyBlock) :=
  let n := ceilDiv b.length 128
  if c.opcode ≠ 0x0607 then [(List.range n).map (s.tableBlock d b id)]
  else
    let rank := s.ringRank
    let size := c.ringSize
    let own := (List.range n).map (s.tableBlock d b (c.ringSeq rank))
    let others := (ring.take (size - 1)).zipIdx.map fun p =>
      let o := (rank + size - (p.2 + 1) % max size 1) % max size 1
      (List.range n).map (ringBlock d p.1 (c.ringSeq o))
    own :: others

/-! ### Query rows -/

/-- A row of values in a format, to nearest even, as elements (cvt_rne of R160). -/
def cvtRne (fmt : Nat) (x : List Val) (f : Flags) : List Elem × Flags :=
  if isMX fmt then
    (chunks 32 x.length x).foldl (fun a b =>
      let r := blockIn fmt (b.map fun v => (v, Rounding.rne))
      (a.1 ++ r.2.1.map fun code => (⟨decodeElem fmt code, r.1, code⟩ : Elem), a.2.or r.2.2)) ([], f)
  else
    x.foldl (fun a v =>
      let r := elemIn fmt .rne v
      (a.1 ++ [⟨decodeElem fmt r.1, 127, r.1⟩], a.2.or r.2)) ([], f)

/-- One query row of one head, rotated and in Q_FMT (R160, R168). -/
def State.queryElems (s : State) (c : Cmd) (q : Tensor) (d t h : Nat) (f : Flags) : List Elem × Flags :=
  let x := s.operand c q
  let i := t * q.width + h * d
  if c.rope then
    let r := ropeHead (s.seedsOf c) c.ropeSplit (c.par 54 2 / 2) (s.queryPos c t) (freqAt (s.named (c.par 72 4))) false
      ((List.range d).map fun e => widen q x (i + e)) f
    cvtRne q.fmt r.1 r.2
  else ((List.range d).map fun e => elemAt q x (i + e), f)

/-- The rows of the query block that a row belongs to: at most 128 consecutive rows of one sliver (R159). -/
def State.queryBlock (s : State) (rows t : Nat) : List Nat :=
  let l := max 1 ((s.imp.cur.map (·.sliver)).getD rows)
  let first := t / l * l + t % l / 128 * 128
  (List.range (min 128 (min (t / l * l + l) rows - first))).map (first + ·)

/-- The query blocks of a tensor in logical order. -/
def State.queryBlocks (s : State) (rows : Nat) : List (List Nat) :=
  ((List.range rows).map (s.queryBlock rows)).eraseDups

/-- Whether row `t` sees key `k` of a block, for a KV head. -/
def State.sees (s : State) (c : Cmd) (nkb t h : Nat) (b : KeyBlock) (k : Nat) : Bool :=
  match b.seq k with
  | none => false
  | some i => s.visible c nkb (s.querySeq c t) i (markAt (s.named (c.par 76 4)) t 0) (b.mark h k)

/-- Whether some pair of a query block and a key block is visible. -/
def State.blockSeen (s : State) (c : Cmd) (nkb h : Nat) (rows : List Nat) (b : KeyBlock) : Bool :=
  rows.any fun t => (List.range 128).any fun k => s.sees c nkb t h b k

/-! ### Forward (R160 to R164) -/

/-- What a row carries from block to block: m, e, o, whether it met a NaN or +∞ score (R163), and the flags of the
arrays and of the vector engine. -/
structure RowAcc where
  m : Val
  e : Val
  o : List Val
  bad : Bool
  fa : Flags
  fv : Flags

/-- Scores of a row against a block, −∞ where not visible. `kp` is K_PARTS of the operation, into which each product of
attention is cut (09 R241). -/
def scores (mode : ArithMode) (kp qf d : Nat) (scale : Val) (q : List Elem) (seen : List Bool) (k : Nat → Nat → Elem)
    (fa fv : Flags) : List Val × Flags × Flags :=
  seen.zipIdx.foldl (fun a p =>
    if p.1 then
      let r := dotParts mode qf 0x13 kp (q.zip ((List.range d).map (k p.2))) vzero
      let x := vmul r.1 scale a.2.2
      (a.1 ++ [x.1], a.2.1.or r.2, x.2)
    else (a.1 ++ [.inf true], a.2)) ([], fa, fv)

/-- One block of the loop of attn_row. A NaN or +∞ score makes the row NaN at its end (R163); the loop goes on. -/
def attnBlock (mode : ArithMode) (kp : Nat) (sd : Seeds) (c : Cmd) (d h : Nat) (q : List Elem) (seen : List Bool) (b : KeyBlock)
    (a : RowAcc) : RowAcc :=
  let sc := scores mode kp (c.par 48 1) d (fp32.decode (c.par 56 4)) q seen (b.k h) a.fa a.fv
  let worse := sc.1.any fun x => x.isNan || decide (x = .inf false)
  let mn := sc.1.foldl (fun m x => vmax m.1 x m.2) (a.m, if worse then sc.2.2.or Flags.onlyNV else sc.2.2)
  if mn.1 = .inf true then { a with fa := sc.2.1, fv := mn.2 }
  else
      let al : VF := if a.m = .inf true then (vzero, mn.2) else expDiff sd a.m mn.1 mn.2
      let p := sc.1.foldl (fun (x : List Val × Flags) y =>
        if y = .inf true then (x.1 ++ [vzero], x.2)
        else let r := expDiff sd y mn.1 x.2; (x.1 ++ [r.1], r.2)) ([], al.2)
      let pq := cvtRne (c.par 49 1) p.1 p.2
      let sum := rowSum (pq.1.map Elem.value) pq.2
      let tot := sum.1.total sum.2
      let ea := vmul a.e al.1 tot.2
      let e := vadd ea.1 tot.1 ea.2
      let o := a.o.zipIdx.foldl (fun (x : List Val × Flags × Flags) y =>
        let w := vmul y.1 al.1 x.2.2
        let r := dotParts mode (c.par 49 1) 0x13 kp (pq.1.zipIdx.map fun z => (z.1, b.v h z.2 y.2)) w.1
        (x.1 ++ [r.1], x.2.1.or r.2, w.2)) ([], sc.2.1, e.2)
      { m := mn.1, e := e.1, o := o.1, bad := a.bad || worse, fa := o.2.1, fv := o.2.2 }

/-- One query row of one head: its output values, m, lse, whether it was empty, and its flags. -/
def State.attnRow (s : State) (c : Cmd) (q : Tensor) (d nkb r t hq : Nat) (blocks : List KeyBlock) :
    List Val × Val × Val × Bool × Flags × Flags :=
  let mode := ArithMode.ofWord c.latch.mode
  let sd := s.seedsOf c
  let h := hq / max r 1
  let rows := s.queryBlock q.rows t
  let qe := s.queryElems c q d t hq Flags.none
  let a := blocks.foldl (fun (a : RowAcc) b =>
    if ! s.blockSeen c nkb h rows b then a
    else attnBlock mode (s.kParts c) sd c d h qe.1 ((List.range 128).map (s.sees c nkb t h b)) b a)
    ⟨.inf true, vzero, List.replicate d vzero, false, Flags.none, qe.2⟩
  if a.bad then (List.replicate d .nan, .nan, .nan, false, a.fa, a.fv)
  else if a.e.isZero then (List.replicate d vzero, a.m, .inf true, true, a.fa, a.fv)
  else
    let z := vsfu sd 0 a.e a.fv
    let o := a.o.foldl (fun (x : List Val × Flags) y => let w := vmul y z.1 x.2; (x.1 ++ [w.1], w.2)) ([], z.2)
    let l := lseOf sd a.m a.e o.2
    (o.1, a.m, l.1, false, a.fa, l.2)

/-- Everything a forward pass writes: outputs and statistics (R162), the empty rows, and the flags. -/
def State.attnForward (s : State) (c : Cmd) (q o st : Tensor) (d nkb : Nat) (blocks : List KeyBlock) :
    State × List Write × Nat × Flags × Flags :=
  let r := c.par 52 1
  let hq := q.width / max d 1
  let sr := decide (bit c.latch.mode 3 = 1)
  (List.range q.rows).foldl (fun a t =>
    let rows := (List.range hq).map fun h => s.attnRow c q d nkb r t h blocks
    let out := (rows.map (·.1)).flatten
    let stats := (rows.zipIdx.map fun p =>
      [(⟨st.handle, false, 2 * (t * hq + p.2), fp32.encode p.1.2.1⟩ : Write),
       ⟨st.handle, false, 2 * (t * hq + p.2) + 1, fp32.encode p.1.2.2.1⟩]).flatten
    let fa := rows.foldl (fun f x => f.or x.2.2.2.2.1) a.2.2.2.1
    let fv := rows.foldl (fun f x => f.or x.2.2.2.2.2) a.2.2.2.2
    let w := State.outputRow sr o t t (out.zipIdx.map fun p => (p.2, p.1)) (a.1, a.2.1, fv)
    (w.1, w.2.1 ++ stats, a.2.2.1 + rows.countP (fun x => x.2.2.2.1), fa, w.2.2)) (s, [], 0, Flags.none, Flags.none)

/-! ### Backward (R169, R170) -/

/-- One row of one head in the backward pass: its query and dO elements, Dr, lse, and dq so far. -/
structure BackRow where
  t : Nat
  hq : Nat
  q : List Elem
  g : List Elem
  dr : Val
  lse : Val
  dq : List Val

/-- A backward row before its walk. -/
def State.backRow (s : State) (c : Cmd) (q o st g : Tensor) (d t hq : Nat) (f : Flags) : BackRow × Flags :=
  let qe := s.queryElems c q d t hq f
  let i := t * q.width + hq * d
  let go := s.operand c g
  let oo := s.operand c o
  let prods := (List.range d).foldl (fun (a : List Val × Flags) e =>
    let m := vmul (widen g go (i + e)) (widen o oo (i + e)) a.2
    (a.1 ++ [m.1], m.2)) ([], qe.2)
  let sum := rowSum prods.1 prods.2
  let dr := sum.1.total sum.2
  let lse := widen st (s.operand c st) (2 * (t * (q.width / max d 1) + hq) + 1)
  (⟨t, hq, qe.1, (List.range d).map fun e => elemAt g go (i + e), dr.1, lse, List.replicate d vzero⟩, dr.2)

/-- One row against one key block: its row with dq carried on, and its pq and ds elements. -/
def State.backStep (s : State) (c : Cmd) (d nkb r : Nat) (b : KeyBlock) (x : BackRow) (fa fv : Flags) :
    BackRow × List Elem × List Elem × Flags × Flags :=
  let mode := ArithMode.ofWord c.latch.mode
  let sd := s.seedsOf c
  let h := x.hq / max r 1
  let seen := (List.range 128).map (s.sees c nkb x.t h b)
  let kp := s.kParts c
  let sc := scores mode kp (c.par 48 1) d (fp32.decode (c.par 56 4)) x.q seen (b.k h) fa fv
  let p := (seen.zip sc.1).foldl (fun (a : List Val × Flags) y =>
    if ! y.1 || decide (x.lse = .inf true) then (a.1 ++ [vzero], a.2)
    else let e := expDiff sd y.2 x.lse a.2; (a.1 ++ [e.1], e.2)) ([], sc.2.2)
  let pq := cvtRne (c.par 49 1) p.1 p.2
  let ds := p.1.zipIdx.foldl (fun (a : List Val × Flags × Flags) y =>
    let dp := dotParts mode 1 0x13 kp (x.g.zip ((List.range d).map (b.v h y.2))) vzero
    let u := vsub dp.1 x.dr a.2.2
    let w := vmul y.1 u.1 u.2
    (a.1 ++ [w.1], a.2.1.or dp.2, w.2)) ([], sc.2.1, pq.2)
  let de := cvtRne 1 ds.1 ds.2.2
  let dq := x.dq.zipIdx.foldl (fun (a : List Val × Flags) y =>
    let r := dotParts mode 1 0x13 kp (de.1.zipIdx.map fun z => (z.1, b.k h z.2 y.2)) y.1
    (a.1 ++ [r.1], a.2.or r.2)) ([], ds.2.1)
  ({ x with dq := dq.1 }, pq.1, de.1, dq.2, de.2)

/-- A partial sum of dK and dV: KV head, step, first key of the block, and by key the sums over D. -/
structure Partial where
  h : Nat
  step : Nat
  base : Nat
  k : List (List Val)
  v : List (List Val)

/-- The products over ρ = h′ × 128 + t of one key and element (R170): a row that the block lacks adds zero. -/
def overRho (r : Nat) (rows : List (BackRow × List Elem × List Elem)) (left : List Elem × List Elem → List Elem)
    (right : BackRow → List Elem) (hg first c e : Nat) : List (Elem × Elem) :=
  ((List.range r).map fun h => (List.range 128).map fun t =>
    match rows.find? fun x => x.1.hq = hg * r + h ∧ x.1.t = first + t with
    | none => (zeroElem, zeroElem)
    | some x => ((left x.2).getD c zeroElem, (right x.1).getD e zeroElem)).flatten

/-- The walk of one query block and one KV head over the key blocks: its rows with their dq, and its partials. -/
def State.backBlock (s : State) (c : Cmd) (d nkb r hg : Nat) (qrows : List Nat) (steps : List (List KeyBlock))
    (rows : List BackRow) (fa fv : Flags) : List BackRow × List Partial × Flags × Flags :=
  let mode := ArithMode.ofWord c.latch.mode
  let first := qrows.headD 0
  let flat := (steps.zipIdx.map fun p => p.1.map fun b => (p.2, b)).flatten
  flat.foldl (fun a sb =>
    if ! s.blockSeen c nkb hg qrows sb.2 then a
    else
      let w := a.1.foldl (fun (x : List (BackRow × List Elem × List Elem) × Flags × Flags) row =>
        let y := s.backStep c d nkb r sb.2 row x.2.1 x.2.2
        (x.1 ++ [(y.1, y.2.1, y.2.2.1)], y.2.2.2.1, y.2.2.2.2)) ([], a.2.2.1, a.2.2.2)
      let grid := fun (f : Nat → Nat → Val × Flags) =>
        (List.range 128).foldl (fun (x : List (List Val) × Flags) k =>
          let line := (List.range d).map (f k)
          (x.1 ++ [line.map (·.1)], line.foldl (fun f y => f.or y.2) x.2)) (([] : List (List Val)), Flags.none)
      let kp := grid fun k e => dotParts mode 1 (c.par 48 1) (s.kParts c) (overRho r w.1 (·.2) (·.q) hg first k e) vzero
      let vp := grid fun k e => dotParts mode (c.par 49 1) 1 (s.kParts c) (overRho r w.1 (·.1) (·.g) hg first k e) vzero
      (w.1.map (·.1), a.2.1 ++ [⟨hg, sb.1, sb.2.base, kp.1, vp.1⟩], (w.2.1.or kp.2).or vp.2, w.2.2))
    (rows, [], fa, fv)

/-- Every query block and KV head of a backward pass, in logical order: the finished rows and the partials. -/
def State.backAll (s : State) (c : Cmd) (q o st g : Tensor) (d nkb kv : Nat) (steps : List (List KeyBlock)) :
    List BackRow × List Partial × Flags × Flags :=
  let r := c.par 52 1
  (s.queryBlocks q.rows).foldl (fun a qrows =>
    (List.range kv).foldl (fun a hg =>
      let rows := ((List.range r).map fun h => qrows.map fun t => (t, hg * r + h)).flatten
      let br := rows.foldl (fun (x : List BackRow × Flags) p =>
        let y := s.backRow c q o st g d p.1 p.2 x.2
        (x.1 ++ [y.1], y.2)) ([], a.2.2.2)
      let w := s.backBlock c d nkb r hg qrows steps br.1 a.2.2.1 br.2
      (a.1 ++ w.1, a.2.1 ++ w.2.1, w.2.2.1, w.2.2.2)) a) ([], [], Flags.none, Flags.none)

/-- The sum of the partials of one key of one step, from a start (R170, R178): acc = rne32(acc + partial). -/
def keySum (ps : List Partial) (isK : Bool) (step h x e : Nat) (start : Val) (f : Flags) : VF :=
  (ps.filter fun p => p.step = step ∧ p.h = h ∧ p.base ≤ x ∧ x < p.base + 128).foldl
    (fun a p => vadd a.1 (((if isK then p.k else p.v).getD (x - p.base) []).getD e vzero) a.2) (start, f)

/-- A gradient row finished (R169): scaled, converted with the ORND latched, and rotated back. -/
def State.gradRow (s : State) (c : Cmd) (t : Tensor) (row token d heads pos : Nat) (scaled rotate : Bool) (x : List Val)
    (a : State × List Write × Flags) : State × List Write × Flags :=
  let scale := fp32.decode (c.par 56 4)
  let y := x.foldl (fun (b : List Val × Flags) v =>
    if scaled then let m := vmul v scale b.2; (b.1 ++ [m.1], m.2) else (b.1 ++ [v], b.2)) ([], a.2.2)
  let sr := decide (bit c.latch.mode 3 = 1)
  let w := State.outputRow sr t row token (y.1.zipIdx.map fun p => (p.2, p.1)) (a.1, [], y.2)
  if ! rotate then (w.1, a.2.1 ++ w.2.1, w.2.2)
  else
    let vals := w.2.1.map fun z => decodeElem 1 z.code
    let rot := (List.range heads).foldl (fun (b : List Val × Flags) h =>
      let r := ropeHead (s.seedsOf c) c.ropeSplit (c.par 54 2 / 2) pos (freqAt (s.named (c.par 72 4))) true
        ((vals.drop (h * d)).take d) b.2
      (b.1 ++ r.1, r.2)) ([], w.2.2)
    let v := State.outputRow false t row token (rot.1.zipIdx.map fun p => (p.2, p.1)) (w.1, [], rot.2)
    (v.1, a.2.1 ++ v.2.1, v.2.2)

/-- The rotary position of a key by its local index: that of the query row of the same token, where there is one
(R168, R169). -/
def State.keyPos (s : State) (c : Cmd) (rows x : Nat) : Nat :=
  let i := if c.opcode = 0x0607 then c.ringSeq s.ringRank x else x
  match (List.range rows).find? fun t => s.querySeq c t = i with
  | some t => s.queryPos c t
  | none => i

/-- Everything a backward pass writes: dQ from the rows, dK and dV from the sums of this module's keys. The rows of the three
outputs are converted token by token, so that a lane's draws run in ascending t (03 R85); within a token dQ comes first,
then dK, then dV (log 142, DESIGN CHOICE). -/
def State.backWrites (s : State) (c : Cmd) (q dq dk dv : Tensor) (d kv len : Nat) (rows : List BackRow)
    (ksum vsum : Nat → Nat → Nat → Flags → VF) (f : Flags) : State × List Write × Flags :=
  let hq := q.width / max d 1
  let line := fun (g : Nat → Nat → Nat → Flags → VF) x f => (List.range (kv * d)).foldl (fun (b : List Val × Flags) i =>
    let y := g (i / d) x (i % d) b.2
    (b.1 ++ [y.1], y.2)) (([] : List Val), f)
  (List.range (max q.rows len)).foldl (fun a t =>
    let a := if q.rows ≤ t then a
      else
        let x := ((List.range hq).map fun h => ((rows.find? fun r => r.t = t ∧ r.hq = h).map (·.dq)).getD []).flatten
        s.gradRow c dq t t d hq (s.queryPos c t) true c.rope x a
    if len ≤ t then a
    else
      let k := line ksum t a.2.2
      let a := s.gradRow c dk t t d kv (s.keyPos c q.rows t) true c.rope k.1 (a.1, a.2.1, k.2)
      let v := line vsum t a.2.2
      s.gradRow c dv t t d kv 0 false false v.1 (a.1, a.2.1, v.2)) (s, [], f)

/-! ### Checks and the three commands -/

/-- Whether PARTIAL_LIST is strictly increasing and each entry names a block whose bit is 1 and a bitmap that is
there (R166). -/
def State.partialsOk (s : State) (c : Cmd) (nkb : Nat) : Bool :=
  let l := s.partials c
  (l.zip l.tail).all (fun p => decide (p.1.1 < p.2.1) || (decide (p.1.1 = p.2.1) && decide (p.1.2.1 < p.2.2.1))) &&
  l.all fun e => s.blockBit c nkb e.1 e.2.1 && ! s.tooShort (c.par 92 4) (e.2.2 + 2048)

/-- The checks of the three attention commands (Tables 6.6, 6.7, 6.12). -/
def State.attnFault (s : State) (c : Cmd) : Option Nat :=
  let back := c.backward
  let held := s.heldBank c (c.par 36 2)
  let d := s.headDim
  let kv := (held.map (·.1.kvHeads)).getD 0
  let nkb := (held.map (·.1.maxBlocks)).getD 0
  let len := (held.map (·.2.1.length)).getD 0
  let r := c.par 52 1
  let there := fun i => (s.tensor (c.par i 4)).isSome
  match s.readable c (c.par 32 4), s.tensor (c.par 40 4), s.tensor (c.par 44 4) with
  | some q, some o, some st =>
    let fmtOf := fun i => ((s.tensor (c.par i 4)).map Tensor.fmt).getD 1
    let widthOf := fun i => ((s.tensor (c.par i 4)).map Tensor.width).getD 0
    let rowsOf := fun i => ((s.tensor (c.par i 4)).map Tensor.rows).getD 0
    let qf := c.par 48 1
    let hq := q.width / max d 1
    let seg := c.par 132 4
    firstFault [
      ([68, 72, 76, 80, 84, 92, 96].any (fun i => s.unreadable c (c.par i 4)) || (c.rope && ! there 72) || (c.masks 2 && ! there 76) ||
        (c.masks 3 && (! there 80 || (decide (c.par 88 4 ≠ 0) && (! there 84 || ! there 92)))) ||
        (c.masks 4 && ! there 96) || (back && [144, 148, 152, 156].any fun i => ! there i) ||
        (back && [40, 44, 144].any fun i => (s.readable c (c.par i 4)).isNone), 0x0100),
      (decide (qf ≠ q.fmt ∨ (qf % 16 ≠ 1 ∧ qf % 16 ≠ 2 ∧ qf % 16 ≠ 3 ∧ qf % 16 ≠ 4)) ||
        decide (c.par 49 1 ≠ 1 ∧ c.par 49 1 ≠ 0x13) || decide (c.par 50 1 ≠ o.fmt) || decide (st.fmt ≠ 0) ||
        (! back && (! outputOk o || decide (o.role = 1 ∨ st.role = 1))) || (c.rope && decide (fmtOf 72 ≠ 0)) ||
        (back && [144, 148, 152, 156].any fun i => fmtOf i ≠ 1), 0x0101),
      (s.attn.store.isNone, 0x0102),
      (held.isNone, 0x0104),
      (decide (r = 0 ∨ 16 < r ∨ q.width ≠ r * kv * d ∨ o.shape ≠ q.shape ∨ st.size ≠ q.rows * hq * 2) ||
        (c.rope && (decide (c.par 54 2 % 2 = 1 ∨ d < c.par 54 2) || s.tooShort (c.par 72 4) (2 * c.par 54 2))) ||
        s.tooShort (c.par 68 4) (4 * q.rows) || (c.masks 2 && s.tooShort (c.par 76 4) (2 * q.rows)) ||
        (back && (decide (widthOf 144 ≠ q.width ∨ rowsOf 144 ≠ q.rows ∨ widthOf 148 ≠ q.width ∨ rowsOf 148 ≠ q.rows) ||
          [152, 156].any fun i => widthOf i ≠ kv * d ∨ rowsOf i < len)), 0x0105),
      ((c.masks 1 && decide (c.par 64 4 = 0 ∨ 2 ^ 24 < c.par 64 4)) ||
        (c.masks 3 && (s.tooShort (c.par 84 4) (16 * c.par 88 4) || ! s.partialsOk c nkb)) ||
        (c.masks 4 && decide (c.par 104 1 = 0 ∨ 64 < c.par 104 1)), 0x0109),
      (c.masks 4 && ! treeOk (s.treeMasks (c.par 96 4) (c.par 104 1)), 0x010A),
      (decide (c.opcode = 0x0607) &&
        (decide (c.ringSize = 0 ∨ 1024 < c.ringSize ∨ ((s.axis 3).map (·.1)) ≠ some c.ringSize) ||
          decide (seg % 128 ≠ 0 ∨ seg < 128 ∨ 32768 < seg ∨ 2 ^ 24 < 2 * c.ringSize * seg) ||
          c.masks 3 || c.masks 4 || decide (len ≠ 2 * seg ∨ q.rows ≠ 2 * seg)), 0x010C),
      (c.rope && (List.range q.rows).any fun t => 2 ^ 24 ≤ s.queryPos c t, 0x010F)]
  | _, _, _ => some 0x0100

/-- What a pass leaves in the arrays, and its flags in them and in the vector engines. -/
def State.attnFlags (s : State) (c : Cmd) (fa fv : Flags) : State := (s.arraysUsed c fa).raiseFlags fv true

/-- The forward pass of a command that may run: `ring` is what arrived (R160, R177). -/
def State.attnForwardCmd (s : State) (env : Env) (c : Cmd) (ring : List RingStep) : State :=
  match s.readable c (c.par 32 4), s.tensor (c.par 40 4), s.tensor (c.par 44 4), s.heldBank c (c.par 36 2) with
  | some q, some o, some st, some (t, b, gen) => s.withSaves c fun s =>
    let d := s.headDim
    let r := s.attnForward c q o st d t.maxBlocks (s.walkSteps c d b ring).flatten
    let s := (r.1.attnFlags c r.2.2.2.1 r.2.2.2.2).addWrap Reg.attnEmptyRows 63 0 r.2.2.1
    s.complete env c 0x010D r.2.1
      (Outcome.ok (resultOf (r.2.2.2.1.or r.2.2.2.2).code 0 0 r.2.2.1 gen b.length))
  | _, _, _, _ => s.finish c.id (Outcome.bad 0x0100)

/-- The running sums that leave with a step (R178): those that arrived, each key's raised by this module's
partial. -/
def ringSums (ps : List Partial) (isK : Bool) (kv d len step : Nat) (came : List (Nat × Nat)) (f : Flags) : Codes × Flags :=
  (List.range (len * (kv * d))).foldl (fun a i =>
    let x := i / (kv * d)
    let e := i % (kv * d)
    let own := keySum ps isK step (e / d) x (e % d) vzero a.2
    let sum := if step = 0 then own else vadd (fp32.decode (lookup came i)) own.1 own.2
    (setCode a.1 i (fp32.encode sum.1), sum.2)) ([], f)

/-- What came with the sums that arrived at a step. -/
def cameAt (ring : List RingStep) (k : Nat) : RingStep := ring.getD (k - 1) ⟨[], [], [], [], []⟩

/-- The sums of dK and dV that leave with a step. -/
def stepSums (ps : List Partial) (kv d len : Nat) (ring : List RingStep) (k : Nat) (f : Flags) : Codes × Codes × Flags :=
  let a := ringSums ps true kv d len k (cameAt ring k).dk f
  let b := ringSums ps false kv d len k (cameAt ring k).dv a.2
  (a.1, b.1, b.2)

/-- The bytes of a galley (Table 6.1). -/
def galleyImage (d : Nat) (elem scale mark : Nat → Nat) : List Byte :=
  ((List.range (256 * d)).map fun i => BitVec.ofNat 8 (elem i)) ++ ((List.range (8 * d)).map fun i => BitVec.ofNat 8 (scale i)) ++
  ((List.range 128).map fun i => leBytes 2 (mark i)).flatten

/-- The galley of a block and KV head at a ring step: of the bank held at step 0, of what has landed at the others. -/
def State.ringGalley (s : State) (d : Nat) (b : Bank) (ring : List RingStep) (k : Nat) (p : Nat × Nat) : List Byte :=
  if k = 0 then
    let g := s.galley (b.entry p.1 p.2)
    galleyImage d (codeAt g.elems) (codeAt g.scales) (codeAt g.marks)
  else
    let r := cameAt ring k
    let i := 32 * p.1 + p.2
    galleyImage d (fun j => lookup r.elems (256 * d * i + j)) (fun j => lookup r.scales (8 * d * i + j))
      (fun j => lookup r.marks (128 * i + j))

/-- FP32 codes as bytes. -/
def sumBytes (n : Nat) (l : Codes) : List Byte := ((List.range n).map fun i => leBytes 4 (codeAt l i)).flatten

/-- What this module forwards of a ring step (R176, R178): its galleys, but at the last step, and in the backward pass the
running sums. -/
def State.ringForward (s : State) (c : Cmd) (d kv : Nat) (b : Bank) (ring : List RingStep) (ps : List Partial) (k : Nat) : State :=
  let n := c.ringSize
  let pairs := if k + 1 < n then
      ((List.range (ceilDiv b.length 128)).map fun j => (List.range kv).map fun h => (j, h)).flatten else []
  let sums := if c.backward then stepSums ps kv d b.length ring k Flags.none else ([], [], Flags.none)
  let size := if c.backward then b.length * (kv * d) else 0
  s.collSend 3 ((s.ringRank + 1) % max n 1) (.ring c.id k pairs sums.1 sums.2.1
    ((pairs.map (s.ringGalley d b ring k)).flatten ++ sumBytes size sums.1 ++ sumBytes size sums.2.1))

/-- The partials of dK and dV of the ring steps that have landed. -/
def State.ringPartials (s : State) (c : Cmd) (ring : List RingStep) : List Partial :=
  match s.readable c (c.par 32 4), s.readable c (c.par 40 4), s.readable c (c.par 44 4), s.heldBank c (c.par 36 2),
      s.readable c (c.par 144 4) with
  | some q, some o, some st, some (t, b, _), some g =>
    (s.backAll c q o st g s.headDim t.maxBlocks t.kvHeads (s.walkSteps c s.headDim b ring)).2.1
  | _, _, _, _, _ => []

/-- The backward pass of a command that may run (R169, R170, R178). -/
def State.attnBackwardCmd (s : State) (env : Env) (c : Cmd) (ring : List RingStep) : State :=
  match s.readable c (c.par 32 4), s.readable c (c.par 40 4), s.readable c (c.par 44 4), s.heldBank c (c.par 36 2),
      s.readable c (c.par 144 4), s.tensor (c.par 148 4), s.tensor (c.par 152 4), s.tensor (c.par 156 4) with
  | some q, some o, some st, some (t, b, gen), some g, some dq, some dk, some dv => s.withSaves c fun s =>
    let d := s.headDim
    let kv := t.kvHeads
    let n := c.ringSize
    let w := s.backAll c q o st g d t.maxBlocks kv (s.walkSteps c d b ring)
    let fs := if n ≤ 1 then w.2.2.2
      else (List.range n).foldl (fun f k => (stepSums w.2.1 kv d b.length ring k f).2.2) w.2.2.2
    let home := fun (isK : Bool) h x e (f : Flags) =>
      if n ≤ 1 then keySum w.2.1 isK 0 h x e vzero f
      else (fp32.decode (lookup (if isK then (cameAt ring n).dk else (cameAt ring n).dv) (x * (kv * d) + h * d + e)), f)
    let r := s.backWrites c q dq dk dv d kv b.length w.1 (home true) (home false) fs
    let empty := w.1.countP fun x => x.lse = .inf true
    (r.1.attnFlags c w.2.2.1 r.2.2).complete env c 0x010D r.2.1
      (Outcome.ok (resultOf (w.2.2.1.or r.2.2).code 0 0 empty gen b.length))
  | _, _, _, _, _, _, _, _ => s.finish c.id (Outcome.bad 0x0100)

/-- ATTN_FORWARD (R160). -/
def execAttnForward (n : Nat) (env : Env) (s : State) : Host.Outcome State Fault Refusal :=
  .next (s.work n 0x0601 fun c s => match s.attnFault c with
    | some d => s.finish c.id (Outcome.bad d)
    | none => s.attnForwardCmd env c [])

/-- ATTN_BACKWARD (R169). -/
def execAttnBackward (n : Nat) (env : Env) (s : State) : Host.Outcome State Fault Refusal :=
  .next (s.work n 0x0602 fun c s => match s.attnFault c with
    | some d => s.finish c.id (Outcome.bad d)
    | none => s.attnBackwardCmd env c [])

/-- The steps that have landed for a command. -/
def State.ringSteps (s : State) (n : Nat) : List RingStep := (s.attn.ring.filter fun x => x.1 = n).map (·.2)

/-- The steps that a RING_ATTENTION receives: N − 1, and with PASS = 1 the sums of its own keys after them. -/
def Cmd.ringNeeds (c : Cmd) : Nat := if c.backward ∧ 1 < c.ringSize then c.ringSize else c.ringSize - 1

/-- RING_ATTENTION goes on as steps land (R176): each is kept and forwarded; with the last the pass is made. It waits with
`aux` [22, steps forwarded]. -/
def State.ringGoesOn (s : State) (env : Env) (c : Cmd) (landed : List RingStep) : State :=
  if env.lost ∧ 1 < c.ringSize then s.finish c.id (Outcome.aborted 0x010E)
  else
    let steps := (s.ringSteps c.id ++ landed).take c.ringNeeds
    let s := { s with attn := { s.attn with
      ring := (s.attn.ring.filter fun (x : Nat × RingStep) => x.1 ≠ c.id) ++ steps.map fun r => (c.id, r) } }
    let sent := if c.phase = .waiting then c.aux.getD 1 0 else 0
    let last := if c.ringSize ≤ 1 then 0 else min (if c.backward then c.ringSize else c.ringSize - 1) (steps.length + 1)
    let s := match s.heldBank c (c.par 36 2) with
      | none => s
      | some (t, b, _) =>
        let ps := if c.backward then s.ringPartials c steps else []
        (List.range (last - sent)).foldl (fun s i => s.ringForward c s.headDim t.kvHeads b steps ps (sent + i)) s
    if steps.length < c.ringNeeds then s.park c.id [22, last]
    else if c.backward then s.attnBackwardCmd env c steps
    else s.attnForwardCmd env c steps

/-- RING_ATTENTION (R175 to R179): it begins, or goes on with what has landed since: the galleys of steps 1 to N − 1, and
with PASS = 1 their sums, the last with those of this module's own keys. A route lost completes it ABORTED, RING_LOST. -/
def execRingAttention (n : Nat) (env : Env) (landed : List RingStep) (s : State) : Host.Outcome State Fault Refusal :=
  .next (match s.cmdOf n with
    | none => s
    | some c =>
      if c.phase = .waiting ∧ c.opcode = 0x0607 ∧ c.aux.head? = some 22 then
        s.resumeCmd n fun c s => s.ringGoesOn env c landed
      else s.work n 0x0607 fun c s => match s.attnFault c with
        | some d => s.finish c.id (Outcome.bad d)
        | none => s.ringGoesOn env c landed)

end Sys2Proof.Machine
end

