-- ==== Sys2Proof/Machine/Backward.lean ====
section
/-! DEFINITION. The training group's backward and residency commands (07_backward_and_schedule.md R185 to R211). A
deferred BACKWARD_WEIGHT waits in the deferral queue with `aux` [13]. -/

namespace Sys2Proof.Machine

/-! ### BACKWARD_INPUT (R191, R206) -/

/-- The values and flags of one row of dX: dot() over the columns of dY and W turned (R191). -/
def inputRow (mode : ArithMode) (kp : Nat) (accIn : Bool) (dy w : Tensor) (cy cw : Codes × Codes) (acc : Codes) (t : Nat) :
    List (Nat × Val) × Flags :=
  let ns := List.range w.width
  let cols := (List.range w.rows).map fun k =>
    (k, dotParts mode 1 w.fmt kp (terms2 false true dy w cy cw t k ns) (accInit accIn acc (t * w.rows + k)))
  (cols.map fun x => (x.1, x.2.1), cols.foldl (fun f x => f.or x.2.2) Flags.none)

/-- Whether an earlier command that adds to the same accumulator tensor has not finished: contributions are applied
in dispatch order (R191). -/
def State.accTurn (s : State) (c : Cmd) : Bool :=
  ! s.earlier c fun d => d.opcode = 0x0701 ∧ d.par 48 4 = c.par 48 4 ∧ d.par 48 4 ≠ noHandle ∧ d.phase ≠ .done

/-- The body of BACKWARD_INPUT. -/
def State.backwardInput (s : State) (env : Env) (c : Cmd) : State :=
  let f := c.par 54 1
  let accIn := decide (bit f 0 = 1)
  let accOut := decide (bit f 1 = 1)
  let e := c.latch.extra.getD 1 0
  match s.readable c (c.par 32 4), s.tensor (c.par 36 4), s.tensor (if accOut then c.par 48 4 else c.par 44 4) with
  | some dy, some w, some o => s.withSaves c fun s =>
    let mode := ArithMode.ofWord c.latch.mode
    let acc := ((s.tensor (c.par 48 4)).map (·.data)).getD []
    let cy := s.operand c dy
    let cw := s.contents w e
    let r := (List.range dy.rows).foldl (fun (a : State × List Write × Flags) t =>
      let row := inputRow mode (s.kParts c) accIn dy w cy cw acc t
      let a := (a.1, a.2.1, a.2.2.or row.2)
      if accOut then
        (a.1, a.2.1 ++ row.1.map fun x => (⟨o.handle, false, t * o.width + x.1, fp32.encode x.2⟩ : Write), a.2.2)
      else State.outputRow mode.stochastic o t t row.1 a) (s, [], Flags.none)
    (r.1.arraysUsed c r.2.2).complete env c 0x010F r.2.1 (Outcome.ok (resultOf r.2.2.code 0 0 e 0 0))
  | _, _, _ => s.finish c.id (Outcome.bad 0x0100)

/-- A body that runs on what the dispatch latched: [1, DETAIL] refuses it. -/
def State.latched (s : State) (c : Cmd) (f : State → State) : State :=
  match c.latch.extra with
  | [1, d] => s.finish c.id (Outcome.bad d)
  | _ => f s

/-- BACKWARD_INPUT (R191). -/
def execBackwardInput (n : Nat) (env : Env) (s : State) : Host.Outcome State Fault Refusal :=
  .next (s.work n 0x0701 fun c s => if s.accTurn c then s.latched c fun s => s.backwardInput env c else s)

/-! ### BACKWARD_WEIGHT (R188, R194 to R197) -/

/-- The partial of one group of 64 tokens of one element, of `count` tokens from the first (R194). -/
def groupPartial (mode : ArithMode) (x dy : Tensor) (cx cy : Codes × Codes) (k n first count g : Nat) : Val × Flags :=
  let l := (List.range 64).map fun i =>
    let t := first + 64 * g + i
    if 64 * g + i < count then (elemAt x cx (t * x.width + k), elemAt dy cy (t * dy.width + n))
    else ((⟨.fin false 0, 127, 0⟩ : Elem), (⟨.fin false 0, 127, 0⟩ : Elem))
  dot mode x.fmt 1 l (.fin false 0)

/-- One round of the fixed pairing: neighbours combined by acc_step. -/
def pairRound : List Val → Flags → List Val × Flags
  | a :: b :: l, f =>
    let r := accStep a b
    let q := pairRound l (f.or r.2)
    (r.1 :: q.1, q.2)
  | l, f => (l, f)

/-- The partials of all groups combined by group index (R194). -/
def pairAll (l : List Val) (f : Flags) : Val × Flags :=
  let r := (List.range (Nat.log2 l.length + 1)).foldl (fun a _ => pairRound a.1 a.2) (l, f)
  (r.1.headD (.fin false 0), r.2)

/-- A contribution's sum over some tokens (R194): those from `first` on in groups of 64, the partials paired. -/
def tokenSum (mode : ArithMode) (x dy : Tensor) (cx cy : Codes × Codes) (k n first count : Nat) : Val × Flags :=
  let ps := (List.range (ceilDiv count 64)).map (groupPartial mode x dy cx cy k n first count)
  pairAll (ps.map (·.1)) (ps.foldl (fun f y => f.or y.2) Flags.none)

/-- The sum of the parts into which K_PARTS cuts the tokens, each summed by R194 from its own first token, and combined in
increasing logical rank (09 R241; log 140, DESIGN CHOICE). -/
def tokenParts (mode : ArithMode) (kp : Nat) (x dy : Tensor) (cx cy : Codes × Codes) (k n : Nat) : Val × Flags :=
  let size := max 1 (ceilDiv dy.rows kp)
  let part := fun p => tokenSum mode x dy cx cy k n (size * p) (min size (dy.rows - size * p))
  (List.range (ceilDiv dy.rows size - 1)).foldl (fun a p =>
    let d := part (p + 1)
    let r := accStep a.1 d.1
    (r.1, (a.2.or d.2).or r.2)) (part 0)

/-- One element of the weight gradient after the contribution (R194). -/
def gradElement (mode : ArithMode) (kp : Nat) (first : Bool) (x dy : Tensor) (cx cy : Codes × Codes) (old : Codes) (width k n : Nat) :
    Val × Flags :=
  let p := tokenParts mode kp x dy cx cy k n
  let acc := if first then .fin false 0 else fp32.decode (codeAt old (k * width + n))
  let r := accStep acc p.1
  (r.1, p.2.or r.2)

/-- Whether every earlier contribution to the same weight-gradient tensor has been made (R195). -/
def State.gradTurn (s : State) (c : Cmd) : Bool :=
  ! s.earlier c fun d => d.opcode = 0x0702 ∧ d.par 44 4 = c.par 44 4 ∧ d.phase ≠ .done

/-- The passes of a BACKWARD_WEIGHT, all of them. -/
def State.backwardWeight (s : State) (env : Env) (c : Cmd) : State :=
  let e := c.latch.extra.getD 1 0
  let count := c.latch.extra.getD 2 0
  let stale := c.latch.extra.getD 3 0
  match s.readable c (c.par 32 4), s.readable c (c.par 36 4), s.tensor (c.par 40 4), s.tensor (c.par 44 4) with
  | some dy, some x, some w, some g =>
    let mode := ArithMode.ofWord c.latch.mode
    let cx := s.operand c x
    let cy := s.operand c dy
    let first := decide (c.par 52 2 % 4096 = 0)
    let r := (List.range w.rows).foldl (fun (a : List Write × Flags) k =>
      (List.range w.width).foldl (fun a n =>
        let v := gradElement mode (s.kParts c) first x dy cx cy g.data w.width k n
        (a.1 ++ [⟨g.handle, false, k * w.width + n, fp32.encode v.1⟩], a.2.or v.2)) a) ([], Flags.none)
    (s.arraysUsed c r.2).complete env c 0x010F r.1
      (Outcome.ok (resultOf r.2.code 0 0 e count (ofBool g.spilled + 2 * stale)))
  | _, _, _, _ => s.finish c.id (Outcome.bad 0x0100)

/-- WFLAGS.DEFER. -/
def Cmd.deferBit (c : Cmd) : Bool := bit (c.par 50 1) 0 = 1

/-- BACKWARD_WEIGHT (R188, R194): with DEFER it joins the deferral queue, else it runs in its turn. -/
def execBackwardWeight (n : Nat) (env : Env) (s : State) : Host.Outcome State Fault Refusal :=
  .next (s.runCmd n 0x0702 fun c s => s.latched c fun s =>
    if c.deferBit then s.park c.id [13]
    else match s.holdReason c with
      | some r => s.park c.id [r]
      | none =>
        if s.usesFailed c then s.finish c.id (Outcome.aborted 0)
        else if s.gradTurn c then s.backwardWeight env c else s)

/-- The deferral queue's first command (R188): queued commands run in dispatch order. -/
def State.firstDeferred (s : State) : Option Cmd :=
  (s.cmd.cmds.filter fun c => c.phase = .waiting ∧ c.aux = [13]).foldl (fun b c => match b with
    | none => some c
    | some d => if c.stamp < d.stamp then some c else some d) none

/-- Whether a command makes passes of the arrays: a product, attention, a backward command, a convolution that no Margin
engine runs, or an UPDATE by the matrix rule (08 R227). -/
def Cmd.usesArrays (c : Cmd) : Bool :=
  decide (c.opcode ∈ [0x0401, 0x0402, 0x0403, 0x0601, 0x0602, 0x0607, 0x0701, 0x0702, 0x0A01, 0x0A02, 0x0A04]) ||
  (decide (c.opcode = 0x0706) && decide (c.par 44 1 = 1))

/-- Whether a pass of a command without DEFER is ready: a command that makes passes is dispatched, may start, and waits for
nothing, an earlier contribution to its accumulator or weight gradient among that. -/
def State.passReady (s : State) : Bool :=
  s.cmd.cmds.any fun c =>
    decide (c.phase = .dispatched) && c.usesArrays && ! (decide (c.opcode = 0x0702) && c.deferBit) && s.mayStart c &&
    (s.holdReason c).isNone && (decide (c.opcode ≠ 0x0701) || s.accTurn c) && (decide (c.opcode ≠ 0x0702) || s.gradTurn c)

/-- DEFERRED_PASS (R188): at a pass boundary at which no pass without DEFER is ready, the passes of the first queued
command run. -/
def execDeferredPass (env : Env) (s : State) : Host.Outcome State Fault Refusal :=
  .next (match s.firstDeferred with
    | none => s
    | some c =>
      if s.passReady || (s.holdReason c).isSome || ! s.gradTurn c then s
      else if s.usesFailed c then s.finish c.id (Outcome.aborted 0)
      else s.onImposition c fun s => s.backwardWeight env c)

/-- WGRAD_READER_RESUME (R189): a reader of a weight-gradient tensor proceeds. -/
def execWgradReaderResume (n : Nat) (s : State) : Host.Outcome State Fault Refusal :=
  .next (s.resumeCmd n fun c s => s.wake 7 c)

/-- SAVE_WRITE_RESUME (R200, R201): a write of a save that waited proceeds, in place or in new space. -/
def execSaveWriteResume (n : Nat) (s : State) : Host.Outcome State Fault Refusal :=
  .next (s.resumeCmd n fun c s => s.wake 6 c)

/-! ### Images (R200, R209) -/

/-- The scale tensor of an element tensor, when it has one. -/
def State.scaleTensor (s : State) (t : Tensor) : Option Tensor := t.scaleOf.bind s.declared

/-- A save's data in logical order, followed by its scale bytes. -/
def State.saveData (s : State) (t : Tensor) : List Byte :=
  tensorBytes t t.data 0 t.byteLen ++
  match s.scaleTensor t with
  | some u => tensorBytes u u.data 0 u.byteLen
  | none => []

/-- Data padded to whole blocks of 4 KiB. -/
def padBlocks (d : List Byte) : List Byte := d ++ List.replicate (4096 * ceilDiv d.length 4096 - d.length) 0

/-- The image: the padded data and one CRC-64 for each block. -/
def imageOf (d : List Byte) : List Byte :=
  let p := padBlocks d
  p ++ ((chunks 4096 p.length p).map fun b => leBytes 8 (crc64 b)).flatten

/-- Bytes of the image of `n` bytes of data. -/
def imageSize (n : Nat) : Nat := 4104 * ceilDiv n 4096

/-- Whether every block of an image of `n` bytes of data meets its CRC. -/
def imageOk (n : Nat) (b : List Byte) : Bool :=
  let k := ceilDiv n 4096
  (List.range k).all fun i => decide (crc64 ((b.drop (4096 * i)).take 4096) = fieldAt b (4096 * k + 8 * i) 8)

/-- Bytes placed in pages of HBM, page after page, in whole granules. -/
def State.putPaged (s : State) (pages : List Nat) (d : List Byte) : State :=
  (pages.zip (chunks 4096 d.length d)).foldl (fun s p =>
    (State.storeBytes p.2 (4096 * p.1) s).clearPoison (4096 * p.1) (64 * ceilDiv p.2.length 64)) s

/-- Bytes read from pages of HBM. -/
def State.getPaged (s : State) (pages : List Nat) (n : Nat) : List Byte :=
  (pages.map fun p => s.bytesAt (4096 * p) 4096).flatten.take n

/-- An uncorrectable granule in pages of HBM (R275). -/
def State.pagedPoison (s : State) (pages : List Nat) : Option Nat :=
  pages.findSome? fun p => (granules (4096 * p) 4096).find? s.badGranule

/-- RESULT of OFFLOAD and PREFETCH (Table 7.8). -/
def saveResult (d : List Byte) : Nat :=
  let crc := crc64 d
  resultOf 0 0 0 (ceilDiv d.length 1024) (crc % 2 ^ 32) (crc / 2 ^ 32)

/-! ### OFFLOAD and PREFETCH (R200 to R202) -/

/-- The checks of OFFLOAD (Table 7.9). -/
def State.offloadFault (s : State) (c : Cmd) : Option Nat :=
  match s.tensor (c.par 32 4) with
  | none => some 0x0100
  | some t => firstFault [
      (decide (t.role = 3 ∧ t.save = .free), 0x0100),
      (decide (t.role ≠ 3), 0x0102),
      (decide (t.save ≠ .inSram), 0x010B),
      (decide (bit (c.par 38 1) 0 = 1 ∧ c.par 40 8 % 4096 ≠ 0), 0x0110)]

/-- A save changes state under a command, which is noted in its `extra`. -/
def State.saveBegins (s : State) (c : Cmd) (st : SaveState) (i : Image) : State :=
  (s.updTensor (c.par 32 4) fun t => { t with save := st, image := some i }).updCmd c.id fun c =>
    { c with latch := { c.latch with extra := [20] } }

/-- OFFLOAD (R200): the image is written to pages of this node, or sent to its place on another. -/
def execOffload (n : Nat) (env : Env) (s : State) : Host.Outcome State Fault Refusal :=
  .next (s.work n 0x0703 fun c s => match s.offloadFault c, s.tensor (c.par 32 4) with
    | some d, _ => s.finish c.id (Outcome.bad d)
    | none, none => s.finish c.id (Outcome.bad 0x0100)
    | none, some t =>
      let d := s.saveData t
      let size := imageSize d.length
      let res := saveResult d
      let node := c.par 36 2
      let addr := c.par 40 8 % 2 ^ 48
      let s := s.corrections env
      match s.envStop env c 0x010F with
      | some (s, x) => s.finish c.id (Outcome.aborted x)
      | none =>
        if bit (c.par 38 1) 0 = 0 then
          if s.freePages < pagesFor size then s.finish c.id (Outcome.noSpace 0x0111)
          else
            let p := State.takePages (pagesFor size) s []
            ((p.2.saveBegins c .offloading ⟨false, s.node, 0, p.1, size⟩).putPaged p.1 (imageOf d)).finish c.id
              (Outcome.ok res)
        else
          let s := s.saveBegins c .offloading ⟨true, node, addr, [], size⟩
          if env.lost then s.finish c.id (Outcome.aborted 0x010E)
          else (s.park c.id [1, res]).ifpWrite node (node * 2 ^ 48 + addr) (imageOf d) (.cmd c.id))

/-- The checks of PREFETCH (Table 7.9). -/
def State.prefetchFault (s : State) (c : Cmd) : Option Outcome :=
  match s.tensor (c.par 32 4) with
  | none => some (Outcome.bad 0x0100)
  | some t =>
    if t.role = 3 ∧ t.save = .free then some (Outcome.bad 0x0100)
    else if t.role ≠ 3 then some (Outcome.bad 0x0102)
    else if t.save ≠ .offloaded then some (Outcome.bad 0x010C)
    else if c.latch.extra = [1] then some (Outcome.noSpace 0x010A)
    else none

/-- The bytes of an image are at hand: each block's CRC is checked, and the data take their place (R201). -/
def State.prefetchData (s : State) (c : Cmd) (b : List Byte) : State :=
  match s.tensor (c.par 32 4) with
  | none => s.finish c.id (Outcome.bad 0x0100)
  | some t =>
    let scale := s.scaleTensor t
    let n := t.byteLen + (scale.map Tensor.byteLen).getD 0
    if imageOk n b = false then s.finish c.id ⟨stCheckFail, 0x010D, 0⟩
    else
      let d := b.take n
      let s := s.updTensor t.handle fun t => { t with data := setTensorBytes t (d.take t.byteLen) 0 [] }
      let s := match scale with
        | some u => s.updTensor u.handle fun u => { u with data := setTensorBytes u (d.drop t.byteLen) 0 [] }
        | none => s
      s.finish c.id (Outcome.ok (saveResult d))

/-- PREFETCH (R201): a local image is read at once, a remote one requested. -/
def execPrefetch (n : Nat) (env : Env) (s : State) : Host.Outcome State Fault Refusal :=
  .next (s.work n 0x0704 fun c s => match s.prefetchFault c, (s.tensor (c.par 32 4)).bind fun t => t.image with
    | some o, _ => s.finish c.id o
    | none, none => s.finish c.id (Outcome.bad 0x0100)
    | none, some i =>
      let s := (s.corrections env).saveBegins c .prefetching i
      if i.remote then
        if env.lost then s.finish c.id (Outcome.aborted 0x010E)
        else (s.park c.id [2]).ifpRead i.node (i.node * 2 ^ 48 + i.addr) i.size (.cmd c.id)
      else match s.envStop env c 0x010F, s.pagedPoison i.pages with
        | some (s, x), _ => s.finish c.id (Outcome.aborted x)
        | none, some g => (s.stopEffect (.granule g)).finish c.id (Outcome.aborted 0)
        | none, none => s.prefetchData c (s.getPaged i.pages i.size))

/-- The data of a save, and of its scales, leave core SRAM. -/
def State.clearSave (s : State) (h : Nat) : State :=
  { s with tens := s.tens.map fun (t : Tensor) => if t.handle = h ∨ t.elemOf = some h then { t with data := [] } else t }

/-- An OFFLOAD or a PREFETCH that began completes (Table 7.2), with its counts (Tables 7.14, 7.15). -/
def State.saveCompletes (s : State) (c : Cmd) : State :=
  let h := c.par 32 4
  let kib := c.result / 2 ^ 32 % 2 ^ 32
  let set := fun (s : State) st => s.updTensor h fun t => { t with save := st }
  if c.latch.extra ≠ [20] then s
  else if c.opcode = 0x0703 then
    if c.status = stOK then ((set s .offloaded).clearSave h).addSat Reg.residencyTraffic 63 32 kib
    else
      let s := set (s.dropImage h) .inSram
      if c.detail = 0x010E then s.addSat Reg.offloadEvents 15 0 1 else s
  else
    if c.status = stOK then (set (s.dropImage h) .inSram).addSat Reg.residencyTraffic 31 0 kib
    else
      let s := set s .offloaded
      if c.detail = 0x010D then s.addSat Reg.offloadEvents 31 16 1
      else if c.detail = 0x010E then s.addSat Reg.offloadEvents 15 0 1
      else s

/-! ### Freeing saves and records (R203, R206) -/

/-- The saved tensor that a backward command names to be freed. -/
def freedBy (c : Cmd) : Option Nat :=
  if c.opcode = 0x0701 ∧ bit (c.par 54 1) 3 = 1 then some (c.par 40 4)
  else if c.opcode = 0x0702 ∧ bit (c.par 50 1) 1 = 1 then some (c.par 36 4)
  else none

/-- A backward command completes: RELEASE removes the entry it read (R206), and FREE_SAVED marks its save. A BACKWARD_INPUT
through a frozen weight ignores SAVED_TENSOR (R204). -/
def State.backwardCompletes (s : State) (c : Cmd) : State :=
  let w := c.par 36 4
  if c.status ≠ stOK ∨ (c.opcode = 0x0701 ∧ (s.declared w).any (fun t => decide (t.role = 2))) then s
  else
    let s := if c.opcode = 0x0701 ∧ bit (c.par 54 1) 2 = 1 ∧ c.par 56 4 = noHandle then s.updTensor (c.par 40 4) fun t => { t with record := t.record.erase (w, c.latch.extra.getD 1 0) } else s
    match freedBy c with
    | some h => s.updTensor h fun t => if t.role = 3 ∧ t.freeing.isNone then { t with freeing := some c.stamp } else t
    | none => s

/-- A save is freed: its space, image, data and record are released. -/
def State.freeSave (s : State) (h : Nat) : State :=
  ((s.dropImage h).clearSave h).updTensor h fun t => { t with save := .free, record := [], freeing := none }

/-- Whether a command dispatched before a stamp and still in flight names a tensor. -/
def State.namedBefore (s : State) (h stamp : Nat) : Bool :=
  s.cmd.cmds.any fun d => d.active && decide (d.stamp < stamp) && d.names (handleFields d.opcode) h

/-- The frees that wait for no command any more take effect (R203). -/
def State.applyFrees (s : State) : State :=
  s.tens.foldl (fun s t => match t.freeing with
    | some k => if s.namedBefore t.handle k then s else s.freeSave t.handle
    | none => s) s

end Sys2Proof.Machine
end

