-- ==== Sys2Proof/Machine/Update.lean ====
section
/-! DEFINITION. Parameter update and editions (08_parameter_update.md R212 to R233). A member that waits for the
verdicts of its D group waits with `aux` [16]; one that waits for the owner's new edition with `aux` [17]. -/

namespace Sys2Proof.Machine

/-! ### SET_STEP_SIZE (R219) -/

/-- SET_STEP_SIZE; the slot is written, and its stamp given, at completion. -/
def execSetStepSize (n : Nat) (s : State) : Host.Outcome State Fault Refusal :=
  .next (s.work n 0x0705 fun c s =>
    if 15 < c.par 32 1 then s.finish c.id (Outcome.bad 0x0180) else s.finish c.id (Outcome.ok 0))

/-- SET_STEP_SIZE completes: the values, and the stamp advanced by 1, from 0xFFFF_FFFF to 1. -/
def State.stepSizeCompletes (s : State) (c : Cmd) : State :=
  if c.status ≠ stOK then s
  else
    let k := c.par 32 1
    let old := s.reg (Reg.stepStamp k)
    let stamp := if old = 0xFFFFFFFF then 1 else old + 1
    let s := s.setReg (Reg.stepLr k) (c.par 36 4 + c.par 40 4 * 2 ^ 32)
    let s := s.setReg (Reg.stepBc k) (c.par 44 4 + c.par 48 4 * 2 ^ 32)
    (s.setReg (Reg.stepStamp k) stamp).updCmd c.id fun c => { c with result := resultOf 0 0 0 stamp 0 0 }

/-! ### The elementwise rule (R221, R222, R225) -/

/-- m1 and v1 of elem_moments, with gs. -/
def elemMoments (c : Cmd) (g m v : Val) (f : Flags) : Val × Val × Val × Flags :=
  let b1 := c.real32 52
  let b2 := c.real32 56
  let gs := vmul g (c.real32 64) f
  let a := vmul b1 m gs.2
  let k := vsub vone b1 a.2
  let p := vmul k.1 gs.1 k.2
  let m1 := vadd a.1 p.1 p.2
  let d := vmul b2 v m1.2
  let l := vsub vone b2 d.2
  let q := vmul gs.1 gs.1 l.2
  let r := vmul l.1 q.1 q.2
  let v1 := vadd d.1 r.1 r.2
  (m1.1, v1.1, gs.1, v1.2)

/-- w − LR × (u + WD × w), each step rounded. -/
def applyStep (c : Cmd) (w u : Val) (f : Flags) : VF :=
  let d := vmul (c.step32 1) w f
  let x := vadd u d.1 d.2
  let y := vmul (c.step32 0) x.1 x.2
  vsub w y.1 y.2

/-- elem_step. -/
def elemStep (sd : Seeds) (c : Cmd) (w m1 v1 : Val) (f : Flags) : VF :=
  let mh := vmul m1 (c.step32 2) f
  let vh := vmul v1 (c.step32 3) mh.2
  let r := vsfu sd 2 vh.1 vh.2
  let d := vadd r.1 (c.real32 60) r.2
  let i := vsfu sd 0 d.1 d.2
  let u := vmul mh.1 i.1 i.2
  applyStep c w u.1 u.2

/-- pow32 of R225. -/
def pow32 (b : Val) (k : Nat) (f : Flags) : VF :=
  (List.range 32).foldl (fun (r : VF) i =>
    let q := vmul r.1 r.1 r.2
    if k.testBit (31 - i) then vmul q.1 b q.2 else q) (vone, f)

/-- The steps a row has missed (R225). -/
def missed (t step : Nat) : Nat := (t + 2 ^ 33 - step - 1) % 2 ^ 32

/-- catch_up of R225 on one element. -/
def catchUp (c : Cmd) (k : Nat) (w m v : Val) (f : Flags) : Val × Val × Val × Flags :=
  if k = 0 then (w, m, v, f)
  else
    let p := pow32 (c.real32 52) k f
    let m := vmul m p.1 p.2
    let q := pow32 (c.real32 56) k m.2
    let v := vmul v q.1 q.2
    let d := vmul (c.step32 0) (c.step32 1) v.2
    let b := vsub vone d.1 d.2
    let r := pow32 b.1 k b.2
    let w := vmul w r.1 r.2
    (w.1, m.1, v.1, w.2)

/-- A moment as held: its code in FP8 and the scale of its block of 32 (Table 8.1). -/
def momentAt (fmt : Nat) (codes scales : Codes) (e : Nat) : Val :=
  Elem.value ⟨decodeElem fmt (codeAt codes e), codeAt scales (e / 32), 0⟩

/-- draw16 of an element (R222). -/
def State.updateDraw (s : State) (w : Tensor) (t e : Nat) : Nat :=
  let j := (s.core.seedings.head?.map (·.job)).getD 0
  let key := sm64 (j ^^^ sm64 ((w.ord * 2 ^ 32 + e / 64) % 2 ^ 64))
  (genStep (seedLane key t 0 (e % 64))).1 / 65536

/-- The flattened elements of a block of a block-scaled tensor, by the index of its scale byte (R72). -/
def blockElems (dims : List Nat) (axis b : Nat) : List Nat :=
  let cs := coords (scaleDims dims axis) b
  let n := dims.getD axis 1
  let first := 32 * cs.getD axis 0
  (List.range (min 32 (n - first))).map fun j => indexOf dims (cs.set axis (first + j))

/-- What an update writes, by flattened element: the new weight, m1 and v1 of each element it touches. -/
abbrev Touched := List (Nat × Val × Val × Val)

/-- The value a map of touched elements gives, or another. -/
def touchedOr (l : Touched) (e : Nat) (f : Val × Val × Val → Val) (d : Val) : Val :=
  match l.find? fun x => x.1 = e with
  | some x => f x.2
  | none => d

/-- Moments written by R86: every block of 32 that holds a touched element is converted whole. -/
def writeMoments (fmt size : Nat) (codes scales : Codes) (l : Touched) (f : Val × Val × Val → Val) (fl : Flags) :
    Codes × Codes × Flags :=
  ((l.map fun x => x.1 / 32).eraseDups).foldl (fun a b =>
    let es := (List.range (min 32 (size - 32 * b))).map (32 * b + ·)
    let r := blockIn fmt (es.map fun e => (touchedOr l e f (momentAt fmt codes scales e), Rounding.rne))
    (setCodes a.1 (32 * b) r.2.1, setCode a.2.1 b r.1, a.2.2.or r.2.2)) (codes, scales, fl)

/-- The new edition's codes: convert(w′) in the weight's format, with its rounding (R221, R222). -/
def State.writeEdition (s : State) (c : Cmd) (w : Tensor) (t : Nat) (old : Codes × Codes) (l : Touched) (fl : Flags) :
    Codes × Codes × Flags :=
  let rnd := fun e => if c.uStochastic then Rounding.sr (s.updateDraw w t e) else Rounding.rne
  if isMX w.fmt then
    ((l.map fun x => scaleIndex w.dims w.blockAxis x.1).eraseDups).foldl (fun a b =>
      let es := blockElems w.dims w.blockAxis b
      let r := blockIn w.fmt (es.map fun e => (touchedOr l e (·.1) (widen w old e), rnd e))
      ((es.zip r.2.1).foldl (fun d p => setCode d p.1 p.2) a.1, setCode a.2.1 b r.1, a.2.2.or r.2.2))
      (old.1, old.2, fl)
  else
    l.foldl (fun a x =>
      let r := if w.fmt = 0 then (fp32.encode x.2.1, Flags.none) else elemIn w.fmt (rnd x.1) x.2.1
      (setCode a.1 x.1 r.1, a.2.1, a.2.2.or r.2)) (old.1, old.2, fl)

/-- The state an UPDATE starts from: INIT gives the initial one (R220). -/
def State.startState (s : State) (c : Cmd) (w : Tensor) : OptState :=
  if c.uInit then
    let x := s.contents w w.currentEdition
    { OptState.none with
        rule := some (c.par 44 1), hasMaster := c.uMaster, isLazy := c.uLazy
        master := if c.uMaster then setCodes [] 0 ((List.range w.size).map fun e => widenCode w x e) else [] }
  else w.opt

/-- The master value of an element, or the current edition widened. -/
def State.weightAt (s : State) (w : Tensor) (o : OptState) (e : Nat) : Val :=
  if o.hasMaster then fp32.decode (codeAt o.master e) else widen w (s.contents w w.currentEdition) e

/-- What the owner's rule gives: the touched elements, the state but for moments and master, the rule applied, the
attempts of the two roots, whether roots were recomputed, and the flags of the arrays and of the vector engines. -/
structure RuleOut where
  touched : Touched
  opt : OptState
  rule : Nat
  left : Nat
  right : Nat
  recomputed : Bool
  arrayFlags : Flags
  flags : Flags

/-- The elementwise rule over the elements of all rows, or of the touched rows (R221, R225). -/
def State.elementwise (s : State) (c : Cmd) (w g : Tensor) (o : OptState) (t : Nat) : RuleOut :=
  let sd := s.seedsOf c
  let x := s.contents g g.currentEdition
  let es := if c.uLazy then
      ((s.touchedRows c).zipIdx.map fun p => (List.range w.width).map fun j =>
        (p.1 * w.width + j, p.2 * w.width + j, missed t (((o.rows.find? fun r => r.1 = p.1).map (·.2)).getD 0))).flatten
    else (List.range w.size).map fun e => (e, e, 0)
  let r := es.foldl (fun (a : Touched × Flags) p =>
    let e := p.1
    let k := catchUp c p.2.2 (s.weightAt w o e) (momentAt 0x13 o.m o.mScale e) (momentAt 0x14 o.v o.vScale e) a.2
    let m := elemMoments c (widen g x p.2.1) k.2.1 k.2.2.1 k.2.2.2
    let y := elemStep sd c k.1 m.1 m.2.1 m.2.2.2
    (a.1 ++ [(e, y.1, m.1, m.2.1)], y.2)) ([], Flags.none)
  let rows := if c.uLazy then
      (s.touchedRows c).foldl (fun l row => l.filter (fun p => p.1 ≠ row) ++ [(row, t)]) o.rows
    else o.rows
  ⟨r.1, { o with rows := rows }, 0, 0, 0, false, Flags.none, r.2⟩

/-! ### The matrix rule (R227 to R229) -/

/-- A matrix as rows of values. -/
abbrev Mat := List (List Val)

/-- An element of a matrix. -/
def mAt (a : Mat) (i j : Nat) : Val := (a.getD i []).getD j vzero

/-- An FP32 element of an operand. -/
def elem32 (v : Val) : Elem := ⟨v, 127, fp32.encode v⟩

/-- A matrix product on the arrays, FP32 × FP32 with PASSES = 3, from stated accumulators: of product(X, Y), X is taken as
the streamed operand A and Y as the stationary B (log 143, DESIGN CHOICE). `kp` is K_PARTS of the operation (09 R241); `f`
are the flags of the arrays. -/
def mProd (scsat : Bool) (kp : Nat) (a b : Mat) (acc : Nat → Nat → Val) (cols : Nat) (f : Flags) : Mat × Flags :=
  a.zipIdx.foldl (fun (x : Mat × Flags) row =>
    let line := (List.range cols).map fun j =>
      dotParts ⟨3, scsat, false⟩ 0 0 kp (row.1.zipIdx.map fun p => (elem32 p.1, elem32 (mAt b p.2 j))) (acc row.2 j)
    (x.1 ++ [line.map (·.1)], line.foldl (fun f y => f.or y.2) x.2)) ([], f)

/-- The transpose of an m × n matrix. -/
def mTrans (n : Nat) (a : Mat) : Mat := (List.range n).map fun j => a.map fun r => r.getD j vzero

/-- A matrix made element by element. -/
def mMake (m n : Nat) (g : Nat → Nat → Flags → VF) (f : Flags) : Mat × Flags :=
  (List.range m).foldl (fun (x : Mat × Flags) i =>
    let line := (List.range n).foldl (fun (y : List Val × Flags) j => let r := g i j y.2; (y.1 ++ [r.1], r.2)) ([], x.2)
    (x.1 ++ [line.1], line.2)) ([], f)

/-- The exact quotient of two values, rounded once; the divisor is positive and finite. -/
def vquot (a b : Val) (f : Flags) : VF :=
  match a, b with
  | .fin s m, .fin _ d => let r := rne32 ((if s then -m else m) / d); (r.1, f.or r.2)
  | v, _ => (v, f)

/-- Whether an attempt has converged. -/
def rootOk (x mx : Mat) : Bool :=
  (x.all fun r => r.all Val.isFin) &&
  mx.zipIdx.all fun r => r.1.zipIdx.all fun e =>
    e.1.isFin &&
    let d := e.1.real - (if r.2 = e.2 then 1 else 0)
    decide ((if d < 0 then -d else d) ≤ pow2 (-10))

/-- One attempt of root4: the root if it succeeds, and the flags of the arrays and of the vector engines. -/
def rootAttempt (sd : Seeds) (scsat : Bool) (kp iters n : Nat) (a : Mat) (eps : Val) (fa fv : Flags) : Option Mat × Flags × Flags :=
  let a1 := mMake n n (fun i j f => if i = j then vadd (mAt a i j) eps f else (mAt a i j, f)) fv
  let sum := laneSum ((List.range n).map fun i => mAt a1.1 i i) a1.2
  let c := sum.1.total sum.2
  if ! vlt vzero c.1 || c.1.isInf then (none, fa, c.2)
  else
    let q := vsfu sd 2 c.1 c.2
    let r := vsfu sd 1 q.1 q.2
    let x0 := mMake n n (fun i j f => (if i = j then r.1 else vzero, f)) r.2
    let m0 := mMake n n (fun i j f => vquot (mAt a1.1 i j) c.1 f) x0.2
    let z := fun (_ _ : Nat) => vzero
    let out := (List.range iters).foldl (fun (y : Mat × Mat × Flags × Flags) _ =>
      let t := mMake n n (fun i j f =>
        let d := vsub (.fin false (if i = j then 5 else 0)) (mAt y.2.1 i j) f
        vmul d.1 (.fin false (mkRat 1 4)) d.2) y.2.2.2
      let x := mProd scsat kp y.1 t.1 z n y.2.2.1
      let t2 := mProd scsat kp t.1 t.1 z n x.2
      let t4 := mProd scsat kp t2.1 t2.1 z n t2.2
      let m := mProd scsat kp t4.1 y.2.1 z n t4.2
      (x.1, m.1, m.2, t.2)) (x0.1, m0.1, fa, m0.2)
    (if rootOk out.1 out.2.1 then some out.1 else none, out.2.2)

/-- root4: the root, if one of four attempts gives it, and the attempts made; each attempt after the first has ten times the
damping. -/
def root4 (sd : Seeds) (scsat : Bool) (kp iters n : Nat) (a : Mat) : Nat → Nat → Val → Flags → Flags →
    Option Mat × Nat × Flags × Flags
  | 0, k, _, fa, fv => (none, k, fa, fv)
  | fuel + 1, k, eps, fa, fv =>
    match rootAttempt sd scsat kp iters n a eps fa fv with
    | (some x, f) => (some x, k + 1, f)
    | (none, f) =>
      let e := if fuel = 0 then (eps, f.2) else vmul (.fin false 10) eps f.2
      root4 sd scsat kp iters n a fuel (k + 1) e.1 f.1 e.2

/-- A matrix held as FP32 codes, and the codes of one. -/
def matOf (m n : Nat) (c : Codes) : Mat := (List.range m).map fun i => (List.range n).map fun j => fp32.decode (codeAt c (i * n + j))
def codesOf (a : Mat) : Codes := setCodes [] 0 (a.flatten.map fp32.encode)

/-- matrix_update of R227. -/
def State.matrixRule (s : State) (c : Cmd) (w g : Tensor) (o : OptState) (t : Nat) : RuleOut :=
  let sd := s.seedsOf c
  let scsat := (ArithMode.ofWord c.latch.mode).scsat
  let kp := s.kParts c
  let m := w.rows
  let n := w.width
  let x := s.contents g g.currentEdition
  let em := (List.range w.size).foldl (fun (a : List (Val × Val × Val) × Flags) e =>
    let r := elemMoments c (widen g x e) (momentAt 0x13 o.m o.mScale e) (momentAt 0x14 o.v o.vScale e) a.2
    (a.1 ++ [(r.1, r.2.1, r.2.2.1)], r.2.2.2)) ([], Flags.none)
  let at3 := fun i j => em.1.getD (i * n + j) (vzero, vzero, vzero)
  let gm := (List.range m).map fun i => (List.range n).map fun j => (at3 i j).2.2
  let gt := mTrans n gm
  let decay := c.real32 72
  let l0 := mMake m m (fun i j f => vmul decay (mAt (matOf m m o.left) i j) f) em.2
  let l := mProd scsat kp gm gt (mAt l0.1) m Flags.none
  let r0 := mMake n n (fun i j f => vmul decay (mAt (matOf n n o.right) i j) f) l0.2
  let r := mProd scsat kp gt gm (mAt r0.1) n l.2
  let o := { o with left := codesOf l.1, right := codesOf r.1 }
  let due := ! o.rootsValid || decide ((t - 1) % max (c.par 76 2) 1 = 0) || o.fellBack
  let eps := c.real32 68
  let a := if due then root4 sd scsat kp (c.par 47 1) m l.1 4 0 eps r.2 r0.2 else (none, 0, r.2, r0.2)
  let b := if due then root4 sd scsat kp (c.par 47 1) n r.1 4 0 eps a.2.2.1 a.2.2.2 else (none, 0, a.2.2)
  let both := a.1.isSome && b.1.isSome
  let o := match a.1, b.1 with
    | some p, some q =>
      { o with rootLeft := codesOf p, rootRight := codesOf q, rootsValid := true, fellBack := false }
    | _, _ => { o with fellBack := due }
  let mh := mMake m n (fun i j f => vmul (at3 i j).1 (c.step32 2) f) b.2.2.2
  let z := fun (_ _ : Nat) => vzero
  let p := mProd scsat kp (matOf m m o.rootLeft) mh.1 z n b.2.2.1
  let d := mProd scsat kp p.1 (matOf n n o.rootRight) z n p.2
  let fell := due && ! both
  let out := (List.range w.size).foldl (fun (y : Touched × Flags) e =>
    let k := em.1.getD e (vzero, vzero, vzero)
    let wv := s.weightAt w o e
    let v := if fell then elemStep sd c wv k.1 k.2.1 y.2 else applyStep c wv (mAt d.1 (e / n) (e % n)) y.2
    (y.1 ++ [(e, v.1, k.1, k.2.1)], v.2)) ([], if fell then b.2.2.2 else mh.2)
  ⟨out.1, o, if fell then 2 else 1, a.2.1, b.2.1, due && both, if fell then b.2.2.1 else d.2, out.2⟩

/-! ### Running the update on its owner (R217, R224, R230) -/

/-- The members of the D group other than this one. -/
def State.dPeers (s : State) : List Nat := (List.range s.dGroup.1).filter (· ≠ s.dGroup.2)

/-- A message to every other member of the D group. -/
def State.toPeers (s : State) (m : CollMsg) : State :=
  s.dPeers.foldl (fun s r => s.collSend 1 r m) s

/-- The update report (Table 8.6). -/
def updateReport (c : Cmd) (flags rule left right edition : Nat) (owner recomputed fell skipped : Bool) (rows : Nat) : Nat :=
  resultOf flags rule (left + 256 * right) edition c.stamp32
    (ofBool owner + 2 * ofBool recomputed + 4 * ofBool fell + 8 * ofBool skipped + 16 * rows)

/-- Whether the gradient holds a NaN or an infinity. -/
def State.gradBad (s : State) (g : Tensor) : Bool :=
  let x := s.contents g g.currentEdition
  (List.range g.size).any fun e => ! (widen g x e).isFin

/-- The bytes of an edition, data then scales. -/
def State.editionBytes (s : State) (w : Tensor) (x : Codes × Codes) : List Byte :=
  tensorBytes w x.1 0 w.byteLen ++
  match s.scaleTensor w with
  | some u => tensorBytes u x.2 0 u.byteLen
  | none => []

/-- The owner's rule, its outputs written beside what is in force. -/
def State.runRule (s : State) (c : Cmd) (w g : Tensor) : State × Nat :=
  let o := s.startState c w
  let t := w.updates + 1
  let r := if c.par 44 1 = 1 then s.matrixRule c w g o t else s.elementwise c w g o t
  let m := writeMoments 0x13 w.size r.opt.m r.opt.mScale r.touched (·.2.1) r.flags
  let v := writeMoments 0x14 w.size r.opt.v r.opt.vScale r.touched (·.2.2) m.2.2
  let master := if r.opt.hasMaster then
      r.touched.foldl (fun d x => setCode d x.1 (fp32.encode x.2.1)) r.opt.master else r.opt.master
  let old := if c.uLazy then s.contents w w.currentEdition else ([], [])
  let e := s.writeEdition c w t old r.touched v.2.2
  let opt := { r.opt with m := m.1, mScale := m.2.1, v := v.1, vScale := v.2.1, master := master, invalid := false }
  let s := s.updTensor w.handle fun u => { u with next := some ⟨c.id, e.1, e.2.1, some opt⟩ }
  let s := if r.rule = 2 then s.addSat Reg.updateEvents 63 48 1 else s
  let s := s.addSat Reg.updateEvents 47 32 ((r.left - 1) + (r.right - 1))
  let s := (if c.usesArrays then s.arraysUsed c r.arrayFlags else s).raiseFlags e.2.2 true
  (s, updateReport c ((r.arrayFlags.or e.2.2).code % 8) r.rule r.left r.right (w.currentEdition + 1) true r.recomputed (decide (r.rule = 2))
    false (if c.uLazy then (s.touchedRows c).length else 0))

/-- An uncorrectable read stops the owner's update: before its writes take effect, or in the copy of a LAZY table,
which leaves some rows written and the state INVALID (R226); a free number says which. -/
def State.updateStopped (s : State) (c : Cmd) (w : Tensor) (d : Nat) : State :=
  let f := s.free
  let s := f.2
  if c.uLazy ∧ f.1 % 2 = 1 then
    let g := s.free
    let s := g.2
    let new := w.next.getD ⟨c.id, [], [], none⟩
    let s := s.updTensor w.handle fun u =>
      { u with
          opt := { u.opt with invalid := true }
          editions := u.editions.map fun e =>
            if e.number = u.currentEdition then
              { e with
                  data := ((List.range w.size).filter g.1.testBit).foldl (fun d i => setCode d i (codeAt new.data i)) e.data
                  scales := (((List.range w.size).filter g.1.testBit).map (scaleIndex w.dims w.blockAxis)).eraseDups.foldl
                    (fun d i => setCode d i (codeAt new.scales i)) e.scales }
            else e
          next := none }
    (s.toPeers (.verdict stAborted d)).finish c.id (Outcome.aborted d)
  else ((s.updTensor w.handle fun u => { u with next := none }).toPeers (.verdict stAborted d)).finish c.id (Outcome.aborted d)

/-- A member that is not the owner waits for the new edition, piece by piece (R217): `buf` holds its bytes, and `aux` is
[17, bytes that have come] with, for each piece by its first byte f, 2 f once it has come and 2 f + 1 once it has been asked
for again. -/
def State.awaitEdition (s : State) (c : Cmd) (w : Tensor) : State :=
  let old := if c.uLazy then s.editionBytes w (s.contents w w.currentEdition) else s.editionBytes w ([], [])
  (s.park c.id [17, 0]).updCmd c.id fun c => { c with buf := old }

/-- Every verdict is a pass: the owner runs the rule and multicasts; another member waits for the edition. -/
def State.updateProceed (s : State) (env : Env) (c : Cmd) : State :=
  match s.tensor (c.par 32 4), s.tensor (c.par 36 4) with
  | some w, some g =>
    if ! s.owns w then s.awaitEdition c w
    else if c.uSkip && s.gradBad g then
      let rep := updateReport c 0 (c.par 44 1) 0 0 w.currentEdition true false false true 0
      ((s.addSat Reg.updateEvents 15 0 1).toPeers (.edition rep [])).finish c.id (Outcome.ok rep)
    else
      let r := (s.corrections env).runRule c w g
      let w' := (r.1.tensor w.handle).getD w
      match r.1.envStop env c 0x010F with
      | some (s, d) => s.updateStopped c w' d
      | none =>
        let n := w'.next.getD ⟨c.id, [], [], none⟩
        if env.lost ∧ 1 < s.dGroup.1 then
          ((r.1.updTensor w.handle fun u => { u with next := none }).toPeers (.verdict stAborted 0x0187)).finish c.id
            (Outcome.aborted 0x0187)
        else (r.1.toPeers (.edition r.2 (r.1.editionBytes w (n.data, n.scales)))).finish c.id (Outcome.ok r.2)
  | _, _ => s.finish c.id (Outcome.bad 0x0100)

/-- What a failing verdict of another member does (R217, R218). -/
def peerFailure (status : Nat) : Outcome := ⟨status, if status = stAborted then 0x0187 else 0x0185, 0⟩

/-- The verdicts heard on a command. -/
def State.verdictsOn (s : State) (n : Nat) : List Verdict := s.coll.verdicts.filter fun v => v.cmd = n

/-- A member that has passed its own check looks at what it has heard: a failure ends it, all passes let it
proceed, else it waits. -/
def State.weighVerdicts (s : State) (env : Env) (c : Cmd) : State :=
  let l := s.verdictsOn c.id
  match l.find? fun v => v.status ≠ stOK with
  | some v => s.finish c.id (peerFailure v.status)
  | none =>
    if s.dPeers.all fun r => l.any fun v => v.rank = r then s.updateProceed env c else s.park c.id [16]

/-- UPDATE (R217 to R222): its own verdict, sent to the rest of the D group, and with N_D = 1 the rule at once. -/
def execUpdate (n : Nat) (env : Env) (s : State) : Host.Outcome State Fault Refusal :=
  .next (s.work n 0x0706 fun c s => match s.ownVerdict c with
    | some o =>
      let s := if o.status = stStampMismatch then s.addSat Reg.updateEvents 31 16 1 else s
      (s.toPeers (.verdict o.status o.detail)).finish c.id o
    | none => (s.toPeers (.verdict stOK 0)).weighVerdicts env c)

/-- VERDICT (R217): the verdict of a member of the D group on the UPDATE with a number arrives. The UPDATE goes on in the
imposition it latched (Table 8.2). -/
def execVerdict (n rank status : Nat) (env : Env) (s : State) : Host.Outcome State Fault Refusal :=
  .next (match s.cmdOf n with
    | none => s
    | some c =>
      if c.opcode ≠ 0x0706 ∨ c.phase.unfinished = false then s
      else
        let s := { s with coll := { s.coll with verdicts := s.coll.verdicts ++ [⟨n, rank, status⟩] } }
        if c.phase = .waiting ∧ c.aux = [16] then s.onImposition c fun s => s.weighVerdicts env c
        else if c.phase = .waiting ∧ c.aux.head? = some 17 ∧ status ≠ stOK then s.finish n (peerFailure status)
        else s)

/-- PEER_LIMIT (R217): a member has waited for verdicts as long as its ring's limit. -/
def execPeerLimit (n : Nat) (s : State) : Host.Outcome State Fault Refusal :=
  .next (s.resumeCmd n fun c s =>
    if c.aux = [16] ∧ s.reg (Reg.ringTimeout c.ring) ≠ 0 then
      (s.toPeers (.verdict stTimeout 0x0186)).finish n ⟨stTimeout, 0x0186, 0⟩
    else s)

/-- The report of a member that is not the owner: without flags and OWNER (Table 8.6). -/
def memberReport (report : Nat) : Nat := report / 256 * 256 - report / 2 ^ 96 % 2 * 2 ^ 96

/-- All bytes of the owner's new edition have come. -/
def State.editionWhole (s : State) (c : Cmd) (w : Tensor) (buf : List Byte) (report : Nat) : State :=
  let data := setTensorBytes w (buf.take w.byteLen) 0 []
  let scales := match s.scaleTensor w with
    | some u => setTensorBytes u (buf.drop w.byteLen) 0 []
    | none => []
  (s.updTensor w.handle fun u => { u with next := some ⟨c.id, data, scales, none⟩ }).finish c.id (Outcome.ok (memberReport report))

/-- A piece has failed its check (12 R323): it is asked for again once, of the owner; a copy sent again that fails ends the
UPDATE on every member as a lost multicast does (log 144, DESIGN CHOICE). -/
def State.pieceBad (s : State) (c : Cmd) (w : Tensor) (first n : Nat) : State :=
  let s := s.addSat Reg.collEvents 63 48 1
  if c.aux.contains (2 * first + 1) then (s.toPeers (.verdict stAborted 0x0187)).finish c.id (Outcome.aborted 0x0187)
  else
    ((s.addSat Reg.collEvents 47 32 1).park c.id (c.aux ++ [2 * first + 1])).collSend 1 (w.ord % max s.dGroup.1 1)
      (.again w.handle first n)

/-- A piece of the owner's new edition, from a byte on, with its CRC-64. -/
def State.pieceArrives (s : State) (c : Cmd) (w : Tensor) (first report : Nat) (bytes : List Byte) : State :=
  let d := bytes.take (bytes.length - 8)
  if crc64 d ≠ fieldAt bytes d.length 8 then s.pieceBad c w first d.length
  else if (c.aux.drop 2).contains (2 * first) then s
  else
    let buf := c.buf.take first ++ d ++ c.buf.drop (first + d.length)
    let have_ := c.aux.getD 1 0 + d.length
    let s := (s.park c.id (17 :: have_ :: (c.aux.drop 2 ++ [2 * first]))).updCmd c.id fun c => { c with buf := buf }
    if have_ < c.buf.length then s else s.editionWhole c w buf report

/-- A piece of the owner's new edition arrives at another member (R217), which then knows that every verdict was a pass: its
CRC is checked, and with the last one the UPDATE ends. -/
def State.editionPiece (s : State) (c : Cmd) (first : Nat) (skipped : Bool) (report : Nat) (bytes : List Byte) : State :=
  match s.tensor (c.par 32 4) with
  | none => s
  | some w =>
    if c.opcode ≠ 0x0706 ∨ c.phase ≠ .waiting ∨ (c.aux ≠ [16] ∧ c.aux.head? ≠ some 17) ∨ s.owns w then s
    else if skipped then (s.addSat Reg.updateEvents 15 0 1).finish c.id (Outcome.ok (memberReport report))
    else
      let s := if c.aux = [16] then s.awaitEdition c w else s
      match s.cmdOf c.id with
      | none => s
      | some c => s.pieceArrives c w first report bytes

/-- A member asks its owner for a piece of a new edition again (12 R323): the owner sends it in the best-effort class, or,
when its copy is bad, ends the UPDATE of every member. -/
def State.pieceAgain (s : State) (h first n rank : Nat) (bad : Bool) : State :=
  match s.tensor h with
  | none => s
  | some w =>
    if ! s.owns w then s
    else if bad then s.collSend 1 rank (.verdict stAborted 0x0187)
    else
      let x := match w.next with
        | some e => (e.data, e.scales)
        | none => s.contents w w.currentEdition
      s.collSendVia none 2 1 rank (.piece first (((s.editionBytes w x).drop first).take n))

/-! ### Completion and retirement (R212 to R215, R226) -/

/-- An UPDATE completes: the edition it wrote becomes current, with the hold and the retirement tally of the one it
supersedes; over a LAZY table the old edition is retired at once. -/
def State.updateCompletes (s : State) (c : Cmd) : State :=
  let s := { s with coll := { s.coll with verdicts := s.coll.verdicts.filter fun v => v.cmd ≠ c.id } }
  match s.declared (c.par 32 4) with
  | none => s
  | some w => match w.next with
    | none => s
    | some n =>
      if n.cmd ≠ c.id then s
      else if c.status ≠ stOK then s.updTensor w.handle fun u => { u with next := none }
      else
        let ret := if bit (c.par 80 1) 0 = 1 then some (c.par 78 2) else none
        let new : Edition := ⟨w.currentEdition + 1, n.data, n.scales, 0, none⟩
        let s := s.updTensor w.handle fun u =>
          { u with
              next := none, updates := u.updates + 1, opt := n.opt.getD u.opt
              editions := if c.uLazy then [new] else
                (u.editions.map fun e => if e.number = u.currentEdition then
                  { e with holds := e.holds + ofBool c.uHoldOld, retTally := ret } else e) ++ [new] }
        if c.uLazy then
          let s := s.addSat Reg.editionsRetired 31 0 1
          match ret with
          | some t => s.tallyAdd t 1
          | none => s
        else s

/-- RETIRE_EDITION (R215). -/
def execRetireEdition (n : Nat) (s : State) : Host.Outcome State Fault Refusal :=
  .next (s.work n 0x0707 fun c s =>
    match s.tensor (c.par 32 4) with
    | none => s.finish c.id (Outcome.bad 0x0100)
    | some w =>
      let e := if c.par 36 4 = noHandle then w.currentEdition else c.par 36 4
      let k := c.par 40 2
      let take := decide (bit (c.par 42 1) 0 = 1)
      if w.role ≠ 1 then s.finish c.id (Outcome.bad 0x0102)
      else match w.edition e with
        | none => s.finish c.id (Outcome.bad 0x0188)
        | some x =>
          if k = 0 ∨ (take = false ∧ x.holds < k) then s.finish c.id (Outcome.bad 0x0188)
          else if take = true ∧ 65535 < x.holds + k then s.finish c.id (Outcome.bad 0x0189)
          else
            let holds := if take then x.holds + k else x.holds - k
            let s := (s.updTensor w.handle fun u =>
              { u with editions := u.editions.map fun y => if y.number = e then { y with holds := holds } else y }).retire
            let gone := (s.tensor w.handle).any fun u => (u.edition e).isNone
            s.finish c.id (Outcome.ok (resultOf 0 0 0 holds (ofBool gone) 0)))

end Sys2Proof.Machine
end

