-- ==== Sys2Proof/Machine/Collective.lean ====
section
/-! DEFINITION. Collective operations (12_collectives.md): shards, chunks and their paths, the reduction in rank order,
rounds, re-requests, local completion, commit, failure, and the abort of a step. The slice that carries a chunk affects
time alone (R317). -/

namespace Sys2Proof.Machine

/-! ### A collective's shape (Table 12.1, Table 12.2) -/

/-- CHUNK in bytes (R316). -/
def Coll.chunk (x : Coll) : Nat := 2 ^ x.par 42 1

/-- Chunks of a round (R317). -/
def Coll.roundLen (x : Coll) : Nat := max 1 (if x.par 60 4 = 0 then 2 ^ 22 / x.chunk else x.par 60 4)

/-- The round of a chunk, by its index in its shard (log 145, DEDUCED). -/
def Coll.round (x : Coll) (k : ChunkKey) : Nat := k.chunk / x.roundLen

/-- Bytes of one shard or block (Table 12.1). -/
def Coll.shardLen (x : Coll) : Nat :=
  if x.opcode = 0x0802 ∨ x.opcode = 0x0805 then x.input.length / max 1 x.members else x.input.length

/-- Whether chunks of the collective are for one rank and pass through those between (ALL_TO_ALL, PERMUTE). -/
def Coll.addressed (x : Coll) : Bool := decide (x.opcode = 0x0805 ∨ x.opcode = 0x0806)

/-- Whether a chunk travels toward the next higher rank (R318, Table 12.2). -/
def Coll.up (x : Coll) (k : ChunkKey) : Bool :=
  if x.addressed then decide ((k.dest + x.members - k.shard) % x.members ≤ x.members / 2) else decide (k.chunk % 2 = 0)

/-- The neighbour of a rank in a direction. -/
def Coll.neighbour (x : Coll) (up : Bool) (r : Nat) : Nat :=
  if up then (r + 1) % x.members else (r + x.members - 1) % x.members

/-- The member a chunk goes to next, and the one it came from. -/
def Coll.next (x : Coll) (k : ChunkKey) : Nat := x.neighbour (x.up k) x.rank
def Coll.prev (x : Coll) (k : ChunkKey) : Nat := x.neighbour (! x.up k) x.rank

/-- The reducer ρ of a chunk (R318). -/
def Coll.rho (x : Coll) (k : ChunkKey) : Nat :=
  if x.opcode = 0x0802 then k.shard else if k.chunk % 2 = 0 then x.members - 1 else 0

/-- The first member of the chain to ρ (R318). -/
def Coll.first (x : Coll) (k : ChunkKey) : Nat := x.neighbour (x.up k) (x.rho k)

/-- The member a result or data starts from, which holds its retained copy (Table 12.2). -/
def Coll.origin (x : Coll) (k : ChunkKey) : Nat :=
  match x.opcode with
  | 0x0801 => x.rho k
  | 0x0802 => x.rho k
  | 0x0804 => x.par 46 2
  | _ => k.shard

/-- The holder of the retained copy of a chunk: of a partial, the member that sent it (R320). -/
def Coll.holder (x : Coll) (k : ChunkKey) : Nat := if k.phase = 0 then x.prev k else x.origin k

/-- Bytes of a chunk: the last of a shard is short. -/
def Coll.len (x : Coll) (k : ChunkKey) : Nat := min x.chunk (x.shardLen - k.chunk * x.chunk)

/-- Where a chunk lies in this member's IN, and in its OUT. -/
def Coll.inOffset (x : Coll) (k : ChunkKey) : Nat :=
  (match x.opcode with
  | 0x0802 => k.shard * x.shardLen
  | 0x0805 => k.dest * x.shardLen
  | _ => 0) + k.chunk * x.chunk
def Coll.outOffset (x : Coll) (k : ChunkKey) : Nat :=
  (match x.opcode with
  | 0x0803 => k.shard * x.shardLen
  | 0x0805 => k.shard * x.shardLen
  | _ => 0) + k.chunk * x.chunk

/-- This member's own bytes for a chunk. -/
def Coll.own (x : Coll) (k : ChunkKey) : List Byte := (x.input.drop (x.inOffset k)).take (x.len k)

/-- The chunks of one shard. -/
def Coll.chunkKeys (x : Coll) (phase shard dest : Nat) : List ChunkKey :=
  (List.range (ceilDiv x.shardLen x.chunk)).map fun j => ⟨phase, shard, j, dest⟩

/-- The partials of a reducing collective in which this member takes its step. -/
def Coll.partials (x : Coll) : List ChunkKey :=
  match x.opcode with
  | 0x0801 => x.chunkKeys 0 0 0
  | 0x0802 => ((List.range x.members).map fun k => x.chunkKeys 0 k 0).flatten
  | _ => []

/-- The chunks this member writes to OUT (Table 12.2). -/
def Coll.writesOut (x : Coll) : List ChunkKey :=
  match x.opcode with
  | 0x0801 => x.chunkKeys 1 0 0
  | 0x0802 => x.chunkKeys 1 x.rank 0
  | 0x0803 => ((List.range x.members).map fun k => x.chunkKeys 1 k 0).flatten
  | 0x0804 => x.chunkKeys 1 0 0
  | 0x0805 => ((List.range x.members).map fun k => x.chunkKeys 1 k x.rank).flatten
  | _ => x.chunkKeys 1 (x.par 54 2) x.rank

/-- The chunks of an ALL_TO_ALL that this member forwards: those between other ranks on whose path it lies (Table 12.2).
Which chunks of a PERMUTE it forwards, its own parameters do not tell (log 146, DEDUCED). -/
def Coll.forwards (x : Coll) : List ChunkKey :=
  if x.opcode ≠ 0x0805 then []
  else ((List.range x.members).map fun k => ((List.range x.members).map fun d =>
    (x.chunkKeys 1 k d).filter fun key =>
      let dist := fun r => if x.up key then (r + x.members - k) % x.members else (k + x.members - r) % x.members
      decide (0 < dist x.rank) && decide (dist x.rank < dist d)).flatten).flatten

/-- The chunks this member waits for: the partials it does not begin, what it writes and does not form itself, and what it
forwards. -/
def Coll.awaits (x : Coll) : List ChunkKey :=
  (x.partials.filter fun k => x.rank ≠ x.first k) ++
    (x.writesOut.filter fun k => x.opcode ≠ 0x0802 ∧ x.rank ≠ x.origin k) ++ x.forwards

/-- The data this member sends of its own accord (Table 12.2). -/
def Coll.sources (x : Coll) : List ChunkKey :=
  match x.opcode with
  | 0x0803 => x.chunkKeys 1 x.rank 0
  | 0x0804 => if x.rank = x.par 46 2 then x.chunkKeys 1 0 0 else []
  | 0x0805 => ((List.range x.members).map fun d => x.chunkKeys 1 x.rank d).flatten
  | 0x0806 => x.chunkKeys 1 x.rank (x.par 52 2)
  | _ => []

/-- Whether a result or data goes on from this member round the ring: until the next member is its origin; an addressed one
until it is where it is for (R320). -/
def Coll.goesOn (x : Coll) (k : ChunkKey) : Bool :=
  if x.addressed then decide (k.dest ≠ x.rank) else decide (x.opcode ≠ 0x0802) && decide (x.next k ≠ x.origin k)

/-- Everything this member sends in the course of the collective. -/
def Coll.sends (x : Coll) : List ChunkKey :=
  (x.partials.filter fun k => x.rank ≠ x.rho k) ++ ((x.writesOut ++ x.sources ++ x.forwards).filter x.goesOn)

/-- Whether a chunk may be sent: the store of the round before last is released, every chunk of that round and of earlier
ones having been used here and reported checked (R317). -/
def Coll.mayGo (x : Coll) (k : ChunkKey) : Bool :=
  (x.expect ++ x.unchecked ++ x.queued.map (·.1)).all fun a => decide (x.round k < x.round a + 2)

/-! ### The reduction (R318) -/

/-- One step of the chain on an element: the first member's, or one that combines the partial with its own. -/
def reduceElem (op : Nat) (acc : Option Nat) (x : Nat) : Nat × Flags :=
  let enc := fun (r : Val × Flags) => (fp32.encode r.1, r.2)
  match acc with
  | none => if op = 0 then enc (accStep vzero (fp32.decode x)) else (x, Flags.none)
  | some a =>
    if op = 0 then enc (accStep (fp32.decode a) (fp32.decode x))
    else if op = 1 then enc (vmax (fp32.decode a) (fp32.decode x) Flags.none)
    else enc (vmin (fp32.decode a) (fp32.decode x) Flags.none)

/-- One member's step on the bytes of a chunk. -/
def reduceBytes (op : Nat) (acc : Option (List Byte)) (own : List Byte) : List Byte × Flags :=
  (List.range (own.length / 4)).foldl (fun r i =>
    let e := reduceElem op (acc.map fun a => fieldAt a (4 * i) 4) (fieldAt own (4 * i) 4)
    (r.1 ++ leBytes 4 e.1, r.2.or e.2)) ([], Flags.none)

/-! ### Operations on the Collator -/

/-- The collective of a command. -/
def State.collOf (s : State) (id : Nat) : Option Coll := s.coll.colls.find? fun x => x.id = id

/-- The collective with a number on an axis. -/
def State.collBySeq (s : State) (axis seq : Nat) : Option Coll := s.coll.colls.find? fun x => x.axis = axis ∧ x.seq = seq

/-- A collective changed. -/
def State.updColl (s : State) (id : Nat) (f : Coll → Coll) : State :=
  { s with coll := { s.coll with colls := s.coll.colls.map fun x => if x.id = id then f x else x } }

/-- The bytes of a chunk message (Table 12.3, R322). -/
def Coll.message (x : Coll) (phase : Nat) (k : ChunkKey) (d : List Byte) : List Byte :=
  leBytes 4 x.seq ++ leBytes 4 x.descCheck ++ leBytes 4 k.chunk ++ leBytes 2 k.shard ++ leBytes 1 phase ++
    leBytes 1 x.axis ++ leBytes 4 d.length ++ leBytes 4 (x.par 56 4) ++ leBytes 8 0 ++ d ++ leBytes 8 (crc64 d)

/-- A chunk goes to the next member, on the link of its index: it is unchecked until that member reports it, a partial is
kept, and the holder of the retained copy keeps its CRC (R320, R323). -/
def State.transmit (s : State) (x : Coll) (k : ChunkKey) (d : List Byte) : State :=
  (s.updColl x.id fun y => { y with
    unchecked := y.unchecked ++ [k]
    retained := if k.phase = 0 then y.retained ++ [(k, d)] else y.retained
    crcs := if k.phase = 0 ∨ x.origin k = x.rank then y.crcs ++ [(k, crc64 d)] else y.crcs }).collSendVia
    (s.chunkLink x.axis (x.up k) k.chunk) 0 x.axis (x.next k) (.chunk k.dest (x.message k.phase k d))

/-- A chunk to send: of a round that may not begin yet, it is held (R317). -/
def State.sendChunk (s : State) (x : Coll) (k : ChunkKey) (d : List Byte) : State :=
  if (s.collOf x.id).all fun y => y.mayGo k then s.transmit x k d
  else s.updColl x.id fun y => { y with queued := y.queued ++ [(k, d)] }

/-- The chunks held whose round may now begin are sent (R317). -/
def State.nextRound (s : State) (id : Nat) : State :=
  match s.collOf id with
  | none => s
  | some x =>
    (x.queued.filter fun q => x.mayGo q.1).foldl (fun s q => s.transmit x q.1 q.2)
      (s.updColl id fun y => { y with queued := y.queued.filter fun q => ! x.mayGo q.1 })

/-- A chunk is written to OUT. -/
def State.writeChunk (s : State) (x : Coll) (k : ChunkKey) (d : List Byte) : State :=
  let h := x.par 36 4
  let s := match s.declared h with
    | some t => s.writeData h fun c => setTensorBytes t d (x.outOffset k) c
    | none => s
  s.updColl x.id fun y => { y with toWrite := y.toWrite.erase k, written := y.written + 1 }

/-- A result or data is on its way round the ring. -/
def State.passOn (s : State) (x : Coll) (k : ChunkKey) (d : List Byte) : State :=
  if x.goesOn k then s.sendChunk x k d else s

/-- A result or data is used by this member: written where it writes it, and passed on. -/
def State.useData (s : State) (x : Coll) (k : ChunkKey) (d : List Byte) : State :=
  let s := if x.writesOut.contains k then s.writeChunk x k d else s
  s.passOn x k d

/-- This member's step in the chain of a chunk: the reducer's gives the result, another's a partial (R318). -/
def State.reduceChunk (s : State) (x : Coll) (k : ChunkKey) (acc : Option (List Byte)) : State :=
  let r := reduceBytes (x.par 41 1) acc (x.own k)
  let s := s.updColl x.id fun y => { y with flags := y.flags ||| r.2.code % 8 }
  if x.rank = x.rho k then s.useData x { k with phase := 1 } r.1 else s.sendChunk x k r.1

/-! ### Waiters -/

/-- Every MATMUL_GATHER whose operand is complete, or whose ALL_GATHER has ended, goes on (R330). -/
def State.wakeGathers (s : State) : State :=
  { s with cmd := { s.cmd with cmds := s.cmd.cmds.map fun c => match c.aux with
    | [14, x] =>
      if c.phase = .waiting ∧ ! s.coll.colls.any fun y => y.id = x ∧ (y.slot = none ∨ y.toWrite ≠ [])
      then { c with phase := .dispatched, aux := [] } else c
    | _ => c } }

/-! ### Failure and abort (R327 to R329) -/

/-- What waited for collectives that have ended goes on. -/
def State.collWake (s : State) : State := (s.wakeGathers).wakeAll [20]

/-- A collective fails (R327). -/
def State.collFail (s : State) (x : Coll) (detail : Nat) (tell : Bool) : State :=
  ((s.collEnd x detail tell).abortStep (x.par 56 4)).collWake

/-- Whether a collective that runs needs a connection to a node (R327, log 70, DEDUCED): of the scheduled class to a member
it sends chunks to, of the control class to one it reports or asks chunks of, to rank 0, and from rank 0 to every member. -/
def State.collNeeds (s : State) (x : Coll) (node cls : Nat) : Bool :=
  let isAt := fun r => decide (r ≠ x.rank) && decide (s.memberNode x.axis r = node)
  if cls = 0 then ! x.localDone && x.sends.any fun k => isAt (x.next k)
  else if cls = 1 then
    (! x.localDone && (x.awaits.any fun k => isAt (x.prev k) || isAt (x.holder k))) ||
      (if x.rank = 0 then x.peers.any isAt else ! x.localDone && isAt 0)
  else false

/-- A connection of a class to a node has become LOST (R299, R327): the collectives that need it fail. -/
def State.collLost (s : State) (node cls : Nat) : State :=
  (s.coll.colls.filter fun x => x.slot.isSome ∧ s.collNeeds x node cls).foldl
    (fun s x => match s.collOf x.id with
      | some x => s.collFail x 0x0108 true
      | none => s) s

/-! ### Completion and commit (R324) -/

/-- COMMIT reaches this member: COMMIT_TALLY, the marks cleared, the slot released, the counts. -/
def State.collCommit (s : State) (x : Coll) (flags : Nat) : State :=
  let s := { s with
    tens := s.tens.map fun (t : Tensor) => { t with marks := t.marks.filter (· ≠ x.id) }
    coll := { s.coll with
      colls := s.coll.colls.filter fun y => y.id ≠ x.id
      dones := s.coll.dones.filter fun d => ! (decide (d.axis = x.axis) && decide (d.seq = x.seq)) } }
  let s := s.addSat Reg.collCommits 63 0 1
  let s := s.setFld Reg.collLastFlags 2 0 flags
  let s := if bit (x.par 43 1) 0 = 1 then s.tallyAdd (x.par 44 2) 1 else s
  s.collWake

/-- Rank 0 sends COMMIT once it holds a DONE of every member, its own among them. -/
def State.tryCommit (s : State) (x : Coll) : State :=
  let l := s.coll.dones.filter fun d => d.axis = x.axis ∧ d.seq = x.seq
  if x.rank = 0 ∧ x.localDone ∧ l.length = x.members then
    let flags := l.foldl (fun a d => a ||| d.flags) 0
    (x.peers.foldl (fun s r => s.collSend x.axis r (.commit x.axis x.seq flags)) s).collCommit x flags
  else s

/-- A DONE message held at rank 0. -/
def State.holdDone (s : State) (d : DoneMsg) : State :=
  if s.coll.dones.any fun e => e.axis = d.axis ∧ e.seq = d.seq ∧ e.rank = d.rank then s
  else { s with coll := { s.coll with dones := s.coll.dones ++ [d] } }

/-- What a collective may do once a chunk has been used or reported checked: the next round begins, and it completes locally
when every chunk this member writes is written and every one it sends has been checked: the share is released, the command
completes, and DONE goes to rank 0 (R317, R324, R333). -/
def State.collSettle (s : State) (id : Nat) : State :=
  let s := s.nextRound id
  match s.collOf id with
  | none => s
  | some x =>
    if x.slot.isNone || x.localDone || ! x.expect.isEmpty || ! x.toWrite.isEmpty || ! x.unchecked.isEmpty ||
        ! x.queued.isEmpty then s
    else
      let y := { x with localDone := true, share := 0 }
      let s := s.updColl id fun _ => y
      let s := match s.cmdOf id with
        | some c => if c.phase.unfinished then
            s.finish id (Outcome.ok (resultOf x.flags 0 0 x.seq x.written x.reRequests)) else s
        | none => s
      if x.rank = 0 then (s.holdDone ⟨x.axis, x.seq, 0, x.flags⟩).tryCommit y
      else s.collSend x.axis 0 (.done x.axis x.seq x.flags)

/-! ### Starting (R317) -/

/-- Bytes of the store that are free. -/
def State.storeFree (s : State) : Nat := 2 ^ 26 - (s.coll.colls.map fun x => x.share).sum

/-- A free slot, the lowest. -/
def State.freeSlot (s : State) : Option Nat :=
  (List.range 16).find? fun i => ! s.coll.colls.any fun x => x.slot = some i

/-- Whether a collective dispatched earlier waits for a slot or its share. -/
def State.earlierWaits (s : State) (c : Cmd) : Bool :=
  s.cmd.cmds.any fun d => d.phase = .waiting ∧ d.aux = [21] ∧ d.stamp < c.stamp

/-- This member's first steps once a collective has started. -/
def State.collBegin (s : State) (x : Coll) : State :=
  let s := (x.partials.filter fun k => x.rank = x.first k).foldl (fun s k => s.reduceChunk x k none) s
  let s := x.sources.foldl (fun s k => s.useData x k (x.own k)) s
  (s.collSettle x.id).wakeGathers

/-- A collective takes its slot and share, reads IN, and begins; an uncorrectable read of IN fails it (R317, R327). -/
def State.collTake (s : State) (env : Env) (c : Cmd) (x : Coll) (slot : Nat) : State :=
  match s.takeSaves c with
  | none =>
    let s := { s with
      tens := s.tens.map fun (t : Tensor) => { t with marks := t.marks.filter (· ≠ x.id) }
      coll := { s.coll with colls := s.coll.colls.filter fun y => y.id ≠ x.id } }
    s.finish c.id (Outcome.noSpace 0)
  | some s =>
    let input := match s.tensor (x.par 32 4) with
      | some t => tensorBytes t (s.operand c t).1 0 t.byteLen
      | none => []
    let x := { x with slot := some slot, share := collShare c, input := input }
    let x := { x with expect := x.awaits, toWrite := x.writesOut }
    let s := s.corrections env
    match s.envStop env c 0x010B with
    | some (s, _) => s.collFail x 0x010B true
    | none =>
      let s := (s.markOutputs c (s.outMarks c)).updColl x.id fun _ => x
      (s.updCmd c.id fun c => { c with phase := .waiting, aux := [22] }).collBegin x

/-- A collective starts when a slot and its share are free and none before it waits; else it waits (R317). -/
def State.collTry (s : State) (env : Env) (c : Cmd) : State :=
  match s.collOf c.id, s.freeSlot with
  | some x, some i =>
    if collShare c ≤ s.storeFree ∧ ! s.earlierWaits c then s.collTake env c x i else s.park c.id [21]
  | some _, none => s.park c.id [21]
  | none, _ => s

/-- The work of a collective from its dispatch (R314 to R317, R329). -/
def State.collective (s : State) (n opcode : Nat) (env : Env) : State :=
  s.work n opcode fun c s => match c.latch.extra with
    | [1, d] => s.finish c.id (Outcome.bad d)
    | [2] => s.finish c.id (Outcome.aborted 0x010A)
    | _ => s.collTry env c

/-! ### The commands -/

/-- ALL_REDUCE (R318): every member's OUT holds the reduction of every member's IN. -/
def execAllReduce (n : Nat) (env : Env) (s : State) : Host.Outcome State Fault Refusal := .next (s.collective n 0x0801 env)

/-- REDUCE_SCATTER (R318): rank k's OUT holds the reduction of shard k. -/
def execReduceScatter (n : Nat) (env : Env) (s : State) : Host.Outcome State Fault Refusal := .next (s.collective n 0x0802 env)

/-- ALL_GATHER (R320): every member's OUT holds every member's IN, by rank. -/
def execAllGather (n : Nat) (env : Env) (s : State) : Host.Outcome State Fault Refusal := .next (s.collective n 0x0803 env)

/-- BROADCAST (R320): every member's OUT holds ROOT's IN. -/
def execBroadcast (n : Nat) (env : Env) (s : State) : Host.Outcome State Fault Refusal := .next (s.collective n 0x0804 env)

/-- ALL_TO_ALL (R320): block k of OUT holds what rank k sent here. -/
def execAllToAll (n : Nat) (env : Env) (s : State) : Host.Outcome State Fault Refusal := .next (s.collective n 0x0805 env)

/-- PERMUTE (R321): OUT holds the IN of rank FROM. -/
def execPermute (n : Nat) (env : Env) (s : State) : Host.Outcome State Fault Refusal := .next (s.collective n 0x0806 env)

/-- COLLECTIVE_START (R317): a collective that waited takes a free slot and its share. -/
def execCollectiveStart (n : Nat) (env : Env) (s : State) : Host.Outcome State Fault Refusal :=
  .next (s.resumeCmd n fun c s => if c.aux = [21] then s.collTry env c else s)

/-! ### Chunks (R315, R321 to R323) -/

/-- The chunk an arriving message carries, as this member waits for it: a re-sent copy answers the chunk asked for
again. -/
def Coll.arriving (x : Coll) (phase : Nat) (k : ChunkKey) : Option ChunkKey :=
  if phase = 2 then x.asked.find? fun a => a.shard = k.shard ∧ a.chunk = k.chunk ∧ a.dest = k.dest
  else if x.asked.contains k then none
  else if x.expect.contains k ∨ (x.opcode = 0x0806 ∧ k.phase = 1 ∧ k.dest ≠ x.rank) then some k
  else none

/-- A chunk has passed its check: its sender is told, and it is reduced, written or forwarded. -/
def State.chunkPassed (s : State) (x : Coll) (k : ChunkKey) (d : List Byte) : State :=
  let s := s.updColl x.id fun y => { y with expect := y.expect.erase k, asked := y.asked.erase k }
  let s := s.collSend x.axis (x.prev k) (.checked x.axis x.seq k)
  let s := if k.phase = 0 then s.reduceChunk x k (some d) else s.useData x k d
  (s.collSettle x.id).wakeGathers

/-- A copy has failed its check: it is asked for again once, and a re-sent copy that fails ends the collective. -/
def State.chunkBad (s : State) (x : Coll) (phase : Nat) (k : ChunkKey) : State :=
  let s := s.addSat Reg.collEvents 63 48 1
  if phase = 2 then s.collFail x 0x0107 true
  else
    let s := s.addSat Reg.collEvents 47 32 1
    (s.updColl x.id fun y => { y with asked := y.asked ++ [k], reRequests := y.reRequests + 1 }).collSend x.axis
      (x.holder k) (.reRequest x.axis x.seq k)

/-- The last frame of a chunk of a collective arrives (R315, R321, R323). -/
def State.collChunkArrives (s : State) (dest : Nat) (m : List Byte) : State :=
  match s.collBySeq (fieldAt m 15 1) (fieldAt m 0 4) with
  | none => s
  | some x =>
    let phase := fieldAt m 14 1
    let k : ChunkKey := ⟨phase, fieldAt m 12 2, fieldAt m 8 4, if x.addressed then dest else 0⟩
    let n := fieldAt m 16 4
    let d := (m.drop 32).take n
    if fieldAt m 4 4 ≠ x.descCheck then s.collFail x 0x0106 true
    else if x.slot.isNone then s
    else if x.opcode = 0x0806 ∧ dest = x.rank ∧ k.shard ≠ x.par 54 2 then s.collFail x 0x0106 true
    else match x.arriving phase k with
    | none => s
    | some k =>
      if n ≠ x.len k ∨ d.length ≠ n then s
      else if crc64 d ≠ fieldAt m (32 + n) 8 then s.chunkBad x phase k
      else s.chunkPassed x k d

/-- CHUNK (R323): the last frame of a chunk message arrives, of a collective or of an UPDATE's edition (R217). -/
def execChunk (m : ChunkMsg) (s : State) : Host.Outcome State Fault Refusal :=
  .next (match m with
    | .coll dest b => s.collChunkArrives dest b
    | .edition cmd first skipped report b =>
      match s.cmdOf cmd with
      | some c => s.onImposition c fun s => s.editionPiece c first skipped report b
      | none => s)

/-- The report that a chunk this member sent has passed its check (R324). -/
def State.collChecked (s : State) (axis seq : Nat) (k : ChunkKey) : State :=
  match s.collBySeq axis seq with
  | none => s
  | some x => (s.updColl x.id fun y => { y with
      unchecked := y.unchecked.erase k
      retained := y.retained.filter fun r => r.1 ≠ k }).collSettle x.id

/-- The tensor that a retained copy of data or of a result lies in: the holder's OUT or its IN (Table 12.2). -/
def Coll.keeps (x : Coll) : Nat := if x.opcode = 0x0801 ∨ x.opcode = 0x0802 then x.par 36 4 else x.par 32 4

/-- The retained copy of a chunk, when this member holds it (Table 12.2): of a WEIGHT, of the edition that the collective
read. -/
def State.retainedCopy (s : State) (x : Coll) (k : ChunkKey) : Option (List Byte) :=
  if k.phase = 0 then (x.retained.find? fun r => r.1 = k).map (·.2)
  else if x.origin k ≠ x.rank then none
  else if x.opcode = 0x0801 ∨ x.opcode = 0x0802 then
    if x.toWrite.contains k then none
    else (s.declared x.keeps).map fun t => tensorBytes t t.data (x.outOffset k) (x.len k)
  else match s.declared x.keeps with
    | some t => if t.role = 1 then some (x.own k) else some (tensorBytes t t.data (x.inOffset k) (x.len k))
    | none => some (x.own k)

/-- An uncorrectable granule on the pages that a retained copy lies on, or an uncorrectable word that the surroundings report
of a core's memory while the holder reads it: the read is dealt with as its place asks (R92, R275). -/
def State.retainedStop (s : State) (env : Env) (x : Coll) (k : ChunkKey) : Option State :=
  let pages := if k.phase = 0 then [] else ((s.declared x.keeps).map (·.pages)).getD []
  let g := (s.mem.poison ++ (s.mem.flaws.filter fun w => decide (regionOf w = Region.hbm)).map fun w => w / 64).find? fun g =>
    pages.contains (g / 64)
  match env.sramBad, g with
  | some o, _ => some (s.stopEffect (.word (wordStart (0x100000000000 + o % 2 ^ 32))))
  | none, some g => some (s.stopEffect (.granule g))
  | none, none => none

/-- RE_REQUEST (R323): the holder reads its retained copy, checks it against the CRC it keeps, and re-sends it in the
best-effort class to the member that asked; a bad copy, or one read as uncorrectable, fails the collective. PHASE 3 stands for
a piece of an UPDATE's edition, named by weight, first byte and bytes (R217, log 144). -/
def execReRequest (axis seq phase shard chunk dest rank : Nat) (bad : Bool) (env : Env) (s : State) :
    Host.Outcome State Fault Refusal :=
  .next (
    let s := s.corrections env
    if phase = 3 then s.pieceAgain seq chunk shard rank bad
    else match s.collBySeq axis seq with
    | none => s
    | some x =>
      let k : ChunkKey := ⟨phase, shard, chunk, dest⟩
      match s.retainedCopy x k with
      | none => s
      | some d =>
        if x.slot.isNone then s
        else match s.retainedStop env x k with
        | some s => s.collFail x 0x0107 true
        | none =>
          if bad ∨ (x.crcs.any fun r => r.1 = k ∧ r.2 ≠ crc64 d) then s.collFail x 0x0107 true
          else s.collSendVia none 2 axis rank (.chunk dest (x.message 2 k d)))

/-- DONE (R324): rank 0 holds a member's DONE, and sends COMMIT once it holds one of every member. -/
def execDone (axis seq rank flags : Nat) (s : State) : Host.Outcome State Fault Refusal :=
  .next (if (s.axis axis).any fun g => g.2 = 0 ∧ rank < g.1 then
      let s := s.holdDone ⟨axis, seq, rank, flags % 8⟩
      match s.collBySeq axis seq with
      | some x => s.tryCommit x
      | none => s
    else s)

/-- COMMIT (R324). -/
def execCommit (axis seq flags : Nat) (s : State) : Host.Outcome State Fault Refusal :=
  .next (match s.collBySeq axis seq with
    | some x => s.collCommit x flags
    | none => s)

/-- FAIL (R327): the collective ends with the DETAIL the message gives, and its step is aborted. -/
def execFail (axis seq detail : Nat) (s : State) : Host.Outcome State Fault Refusal :=
  .next (match s.collBySeq axis seq with
    | some x => s.collFail x (detail % 65536) false
    | none => s)

/-- PEER_SILENT (R327): nothing has reached the member for SILENT_US; a limit of 0 never passes. -/
def execPeerSilent (n : Nat) (s : State) : Host.Outcome State Fault Refusal :=
  .next (match s.collOf n with
    | some x => if x.slot.isSome ∧ s.fld Reg.collTimeout 31 0 ≠ 0 then s.collFail x 0x0109 true else s
    | none => s)

/-- COLL_ABORT (R329): a step number is written. -/
def execCollAbort (v : Nat) (s : State) : Host.Outcome State Fault Refusal :=
  .next (s.whenUp fun s => (s.abortStep (v % 2 ^ 32)).collWake)

/-- MARK_WAIT_END (R325, R328): a command that waited for uncommitted marks proceeds when they have cleared, and
completes ABORTED when a collective it waited for has failed: an UPDATE on every member of its D group (R218), a collective
by failing itself. -/
def execMarkWaitEnd (n : Nat) (s : State) : Host.Outcome State Fault Refusal :=
  .next (s.resumeCmd n fun c s =>
    if c.aux = [20] then s.wake 20 c
    else if c.aux ≠ [5] then s
    else if (s.readMarks c).any s.coll.failed.contains then
      if c.opcode = 0x0706 then
        s.onImposition c fun s => (s.toPeers (.verdict stAborted 0x0187)).finish c.id (Outcome.aborted 0x0187)
      else match s.collOf c.id with
        | some x => s.collFail x 0 true
        | none => s.finish c.id (Outcome.aborted 0)
    else s.wake 5 c)

end Sys2Proof.Machine
end

