-- ==== Sys2Proof/Machine/Commands.lean ====
section
/-! DEFINITION. The rows of rings, validation, dispatch and the admin group (02_commands_and_tallies.md R31 to
R62). Rows that write registers with effects of other chapters are in Machine/Writes.lean; COMPLETION_REPORT is
in Machine/Completion.lean. -/

namespace Sys2Proof.Machine

/-- A register write of a ring: nothing changes for a number that names no ring, or while a reset is held (log 1). -/
def State.onRing (s : State) (n : Nat) (f : State → State) : State := s.whenUp fun s => if n < 16 then f s else s

/-- DOORBELL (R31). -/
def execDoorbell (ring tail : Nat) (s : State) : Host.Outcome State Fault Refusal :=
  .next (s.onRing ring fun s => s.doorbell ring (tail % 65536))

/-- RING_ENABLE (R33): a write of a value with ENABLE set to RING_CFG_n. -/
def execRingEnable (ring : Nat) (cfg : Word64) (s : State) : Host.Outcome State Fault Refusal :=
  .next (s.onRing ring fun s => s.writeRingCfg ring 0 8 (putBits cfg.toNat 0 0 1))

/-- RING_DISABLE (R34): a write of a value with ENABLE clear to RING_CFG_n. -/
def execRingDisable (ring : Nat) (cfg : Word64) (s : State) : Host.Outcome State Fault Refusal :=
  .next (s.onRing ring fun s => s.writeRingCfg ring 0 8 (putBits cfg.toNat 0 0 0))

/-- REPLY_HEAD_WRITE (R35). -/
def execReplyHeadWrite (ring head : Nat) (s : State) : Host.Outcome State Fault Refusal :=
  .next (s.onRing ring fun s => s.replyHead ring (head % 65536))

/-- The effect of validating the packet of one ring (R39, R40): HEAD moves past it, and the command joins those
in flight. -/
def State.validate (s : State) (n : Nat) (p : List Byte) : State :=
  let tagUsed := s.cmd.cmds.any fun c => c.tagHeld ∧ c.tag = fieldAt p 6 2 % 4096
  let slots := p.length / 32
  let h := s.head n
  let size := s.ringSize n
  let s := s.updRing n fun r =>
    { r with slots := r.slots.filter fun x => ! ((List.range slots).any fun i => decide ((h + i) % size = x.1)) }
  let s := s.setFld (Reg.ringPtr n) 31 16 ((h + slots) % size)
  let s := { s with cmd := { s.cmd with
    cmds := s.cmd.cmds ++ [newCmd s.cmd.nextId n p (packetFault p tagUsed) s.time]
    nextId := s.cmd.nextId + 1
    lastServed := n } }
  s.nextTick.attachHead n

/-- HEADER_VALIDATION (R32, R39, R51): the next packet in round-robin ring order is validated; with no packet
that has arrived the event does not take place. -/
def execHeaderValidation (s : State) : Host.Outcome State Fault Refusal :=
  .next (match s.nextRing with
    | none => s
    | some n => match s.packetAt n with
      | none => s
      | some p => s.validate n p)

/-- WAIT_NOTICE (R51): notices of met header waits, given as command number and wait number, reach the master in
one ACLK. -/
def execWaitNotice (notices : List (Nat × Nat)) (s : State) : Host.Outcome State Fault Refusal :=
  .next (if notices.any s.noticeNew then notices.foldl State.noticeOne s.nextTick else s)

/-- Whether every present wait of a command is met at its home (R52). -/
def Cmd.allMet (c : Cmd) : Bool := c.waits.all (· ∈ c.met)

/-- WAIT_LIMIT (R52): a command whose waits are not all met at their homes completes TIMEOUT, its waits are
detached, and the next command of its ring reaches the head. -/
def execWaitLimit (n : Nat) (s : State) : Host.Outcome State Fault Refusal :=
  .next (match s.cmdOf n with
    | none => s
    | some c =>
      if c.phase = .attached ∧ c.allMet = false ∧ s.reg (Reg.ringTimeout c.ring) ≠ 0 then
        let s := s.detach fun o => match o with
          | .header m _ => decide (m = n)
          | _ => false
        (s.nextTick.finish n ⟨stTimeout, 0x0005, 0⟩).attachHead c.ring
      else s)

/-- NOP (Table 2.10): no action. -/
def execNop (n : Nat) (s : State) : Host.Outcome State Fault Refusal :=
  .next (s.runCmd n 0x0100 fun c s => s.finish c.id (Outcome.ok 0))

/-- RESULT of IDENTIFY (Table 2.11) as a number, byte 16 of the reply lowest. -/
def State.identity (s : State) : Nat :=
  0x9400 + 0x00B0 * 2 ^ 16 + 0x02 * 2 ^ 32 + (Config.fwMinor % 256) * 2 ^ 40 + (Config.fwPatch % 65536) * 2 ^ 48 +
  s.node % 65536 * 2 ^ 64 + s.fld Reg.imposerCapacity 31 16 * 2 ^ 80 + s.fld Reg.imposerCapacity 15 0 * 2 ^ 96

/-- IDENTIFY (R44, Table 2.11). -/
def execIdentify (n : Nat) (s : State) : Host.Outcome State Fault Refusal :=
  .next (s.runCmd n 0x0101 fun c s => s.finish c.id (Outcome.ok s.identity))

/-- The check of OFFSET and SIZE that READ_REG and WRITE_REG share (R62): a DETAIL when they are refused. SIZE
is checked first, since the alignment of OFFSET is judged by it. -/
def regOperandFault (off size : Nat) : Option Nat :=
  if size ≠ 4 ∧ size ≠ 8 then some 0x0101
  else if off % size ≠ 0 ∨ 0x01000000 ≤ off ∨ coversRegister off size = false then some 0x0100
  else none

/-- READ_REG (R62): the value read at its dispatch, in RESULT bytes 23:16. -/
def execReadReg (n : Nat) (s : State) : Host.Outcome State Fault Refusal :=
  .next (s.runCmd n 0x0102 fun c s => s.finish c.id (match regOperandFault (c.par 32 4) (c.par 36 1) with
    | some d => Outcome.bad d
    | none => Outcome.ok (c.latch.extra.headD 0)))

/-- WRITE_REG (R62): the write was made at its dispatch. -/
def execWriteReg (n : Nat) (s : State) : Host.Outcome State Fault Refusal :=
  .next (s.runCmd n 0x0103 fun c s => s.finish c.id (match regOperandFault (c.par 32 4) (c.par 36 1) with
    | some d => Outcome.bad d
    | none => Outcome.ok 0))

/-- The check of a function number that DISABLE_FUNCTION and ENABLE_FUNCTION share (R58). -/
def functionFault (f : Nat) : Option Nat := if 13 < f then some 0x0102 else if 10 ≤ f then some 0x0007 else none

/-- Commands of a function that a drain waits for (R56): dispatched, with effects to make or a report to come. -/
def State.draining (s : State) (f : Nat) : Bool :=
  s.cmd.cmds.any fun c =>
    decide (functionOf c.opcode = f) && (decide (c.phase = .dispatched) || decide (c.phase = .waiting) ||
      (decide (c.phase = .done) && decide (c.status ≠ stDisabled) && c.tagHeld))

/-- Set bit `f` of FUNC_STATE.DISABLED, or clear it. -/
def State.setDisabled (s : State) (f v : Nat) : State := s.setReg Reg.funcState (putBits (s.reg Reg.funcState) f f v)

/-- The ENABLE_FUNCTION commands that wait for a drain (R57). -/
def State.enablers (s : State) (f : Nat) : List Cmd :=
  s.cmd.cmds.filter fun c => c.opcode = 0x0105 ∧ c.phase = .waiting ∧ c.par 32 1 = f

/-- The end of a drain (R56, R57): every DISABLE_FUNCTION that joined it completes, and every ENABLE_FUNCTION
that waited for it. -/
def State.endDrain (s : State) (f : Nat) (forDisable forEnable : Outcome) : State :=
  let d := s.drainers f
  let e := s.enablers f
  e.foldl (fun s c => s.finish c.id forEnable) (d.foldl (fun s c => s.finish c.id forDisable) s)

/-- DISABLE_FUNCTION (R56, R58): completes OK at once when the function is already disabled; otherwise it waits for
the drain, which ends at once when there is nothing to drain. -/
def execDisableFunction (n : Nat) (s : State) : Host.Outcome State Fault Refusal :=
  .next (s.runCmd n 0x0104 fun c s =>
    let f := c.par 32 1
    match functionFault f with
    | some d => s.finish c.id (Outcome.bad d)
    | none =>
      if s.isDisabled f then s.finish c.id (Outcome.ok 0)
      else if s.draining f then s.park c.id [f]
      else (s.setDisabled f 1).endDrain f (Outcome.ok 0) (Outcome.ok 0))

/-- A drain whose last command has completed (R56). -/
def State.drainCheck (s : State) (f : Nat) : State :=
  if f < 10 ∧ s.drainers f ≠ [] ∧ s.draining f = false then
    (s.setDisabled f 1).endDrain f (Outcome.ok 0) (Outcome.ok 0)
  else s

/-- DRAIN_LIMIT (R56, R57): the drain of a DISABLE_FUNCTION has not finished within its limit, which counts from the
command's dispatch: the function is wedged. -/
def execDrainLimit (n : Nat) (s : State) : Host.Outcome State Fault Refusal :=
  .next (match s.cmdOf n with
  | none => s
  | some c =>
    let f := c.par 32 1
    if c ∈ s.drainers f ∧ f < 10 ∧ s.draining f = true then
      let s := (s.setDisabled f 1).setReg Reg.funcState (putBits ((s.setDisabled f 1).reg Reg.funcState) (16 + f) (16 + f) 1)
      s.endDrain f ⟨stTimeout, 0x0008, 0⟩ (Outcome.bad 0x0006)
    else s)

/-- ENABLE_FUNCTION (R57, R58, R62); the DISABLED bit is cleared at its completion, where `aux` names the function.
One that finds the function neither disabled nor draining has no effect, then or later. -/
def execEnableFunction (n : Nat) (s : State) : Host.Outcome State Fault Refusal :=
  .next (s.runCmd n 0x0105 fun c s =>
    let f := c.par 32 1
    match functionFault f with
    | some d => s.finish c.id (Outcome.bad d)
    | none =>
      if s.isWedged f then s.finish c.id (Outcome.bad 0x0006)
      else if s.drainers f ≠ [] then s.park c.id [f]
      else if s.isDisabled f then (s.park c.id [f]).finish c.id (Outcome.ok 0)
      else s.finish c.id (Outcome.ok 0))

/-- FULL_RESET (R416): fetching stops; RESULT bytes 19:16 hold RESET_CAUSE.COUNT before the reset. -/
def execFullReset (n : Nat) (s : State) : Host.Outcome State Fault Refusal :=
  .next (s.runCmd n 0x0106 fun c s =>
    let s := { s with cmd := { s.cmd with resetPhase := 1 } }
    s.finish c.id (Outcome.ok (s.fld Reg.resetCause 63 32)))

end Sys2Proof.Machine
end

