-- ==== Sys2Proof/Machine/Power.lean ====
section
/-! DEFINITION. Full and partial resets, the ACLK rate, copse power states and the input (17_clocks_power_reset.md R402
to R420, 19_module.md R443, R444). A row stands for its event: that its time has come is not checked (log 1). -/

namespace Sys2Proof.Machine

/-- An event of the understory: it takes place while the understory has power. -/
def State.whenPowered (s : State) (f : State → State) : State := if s.pwr.powered then f s else s

/-! ### Full reset (R414, R415, R419) -/

/-- HBM contents are unspecified across a full reset (R398, R419): each listed byte of HBM becomes a free one; the core
windows are lost. -/
def State.hbmAfterReset (s : State) : List Host.Cell × Nat :=
  let f := s.free
  ((s.mem.bytes.filter fun b => b.1 < 0x6000000000).zipIdx.foldl
    (fun l b => Sparse.set memDefault l b.1.1 (BitVec.ofNat 8 (f.1 / 2 ^ (8 * b.2)))) [], f.2.freeCtr)

/-- RESET_CAUSE after a full reset with a first cause begins (Table 17.17): COUNT is raised, SOURCES starts again; a
FULL_RESET whose 10 µs run is a second source (Table 17.10). -/
def State.resetCauseAfter (s : State) (cause : Nat) : Nat :=
  let count := saturate (2 ^ 32 - 1) (s.fld Reg.resetCause 63 32 + 1)
  let w := count * 2 ^ 32 + cause % 16 * 2 ^ 28 + 2 ^ cause
  if s.cmd.resetPhase = 2 then putBits w 4 4 1 else w

/-- The EPOCH of every connection so far, so that the next one is new (11 R311; log 132, DESIGN CHOICE). -/
def State.lastEpochs (s : State) : List (Nat × Nat × Nat) :=
  (s.fab.tx.map fun c => (c.node, c.cls, c.epoch)) ++ s.fab.epochs.map fun e => (e.1, e.2.1, s.firstEpoch e.1 e.2.1)

/-- A full reset begins (R414, R415): its cause is latched and everything that Table 17.9 does not keep is lost; the
reset is then held. A cause during a full reset is recorded. Kept: the flash, RESET_CAUSE, and what lies outside the
reset (the pins, the sensors, the TAP, the understory's SMBus). -/
def State.beginReset (s : State) (cause : Nat) : State :=
  if ! s.pwr.powered then s
  else if s.pwr.held then s.setReg Reg.resetCause (putBits (s.reg Reg.resetCause) cause cause 1)
  else
    let h := s.hbmAfterReset
    let t := { State.reset with
      pending := s.pending
      freeCtr := h.2
      time := s.time
      mem := { MemSt.reset with bytes := h.1 }
      fab := { FabSt.reset with epochs := s.lastEpochs }
      boot := { BootSt.reset with flash := s.boot.flash }
      pwr := { PwrSt.reset with
        inRange := s.pwr.inRange
        pinLow := s.pwr.pinLow
        temps := s.pwr.temps
        selfRefresh := decide (2 < cause)
        smb := s.pwr.smb
        tap := s.pwr.tap } }
    t.setReg Reg.resetCause (s.resetCauseAfter cause)

/-- FULL_RESET_BEGIN (R415): a full reset with a cause of Table 17.7. -/
def execFullResetBegin (cause : Nat) (s : State) : Host.Outcome State Fault Refusal :=
  .next (if 1 ≤ cause ∧ cause ≤ 8 then s.beginReset cause else s)

/-- Whether the conditions for the release of a held reset hold (R415). -/
def State.mayRelease (s : State) : Bool :=
  s.pwr.powered && s.pwr.held && ! s.pwr.pinLow && s.pwr.inRange && s.pwr.temps.all (· < 100)

/-- RESET_RELEASE (R415): the release conditions having held, the reset ends and start-up begins with stage 1. -/
def execResetRelease (s : State) : Host.Outcome State Fault Refusal :=
  .next (if s.mayRelease then { s with pwr := { s.pwr with held := false }, boot := { s.boot with next := 1 } } else s)

/-- COMMAND_RESET_DELAY (R416): 10 µs after the reply of FULL_RESET is written, its reset begins. -/
def execCommandResetDelay (s : State) : Host.Outcome State Fault Refusal :=
  .next (if s.cmd.resetPhase = 2 then s.beginReset 4 else s)

/-- A write of RESET_CTRL: with its key a full reset begins; any other value is ignored (R417). -/
def State.writeResetCtrl (s : State) (v : Nat) : State := if bits v 31 16 = 0x5253 then s.beginReset 5 else s

/-- RESET_CTRL (R417). -/
def execResetCtrl (v : Nat) (s : State) : Host.Outcome State Fault Refusal := .next (s.writeResetCtrl v)

/-- RESET_N_ASSERT (R414). -/
def execResetNAssert (s : State) : Host.Outcome State Fault Refusal :=
  .next ({ s with pwr := { s.pwr with pinLow := true } }.beginReset 3)

/-- RESET_N_DEASSERT (R415): the pin no longer keeps a held reset from its release. -/
def execResetNDeassert (s : State) : Host.Outcome State Fault Refusal :=
  .next { s with pwr := { s.pwr with pinLow := false } }

/-! ### The input (R443, R444) -/

/-- INPUT (R443): the input leaves its range. -/
def execInput (s : State) : Host.Outcome State Fault Refusal :=
  .next (s.whenPowered fun s => { s with pwr := { s.pwr with inRange := false } }.beginReset 2)

/-- INPUT_IN_RANGE (R444): the input rises to 40 V, and IN_RANGE is set. -/
def execInputInRange (s : State) : Host.Outcome State Fault Refusal :=
  .next (s.whenPowered fun s => { s with pwr := { s.pwr with inRange := true } })

/-- POWER_ON (R444): the understory starts; RESET_CAUSE reads POWER_ON. Only the flash keeps its contents. -/
def execPowerOn (s : State) : Host.Outcome State Fault Refusal :=
  .next (if s.pwr.powered then s else
    { State.reset with
      pending := s.pending
      freeCtr := s.freeCtr
      boot := { BootSt.reset with flash := s.boot.flash }
      pwr := { PwrSt.reset with pinLow := s.pwr.pinLow } })

/-- POWER_LOSS (R444): the understory loses its supply, and every pin is as unpowered. -/
def execPowerLoss (s : State) : Host.Outcome State Fault Refusal :=
  .next { State.reset with
    pending := s.pending
    freeCtr := s.freeCtr
    boot := { BootSt.reset with flash := s.boot.flash }
    pwr := { PwrSt.reset with powered := false, pinLow := s.pwr.pinLow } }

/-! ### The watchdog (R418) -/

/-- Whether the watchdog runs: it is held during start-up until stage 4 has ended, and while the boot ROM has stopped. -/
def State.watchdogRuns (s : State) : Bool := s.pwr.powered && ! s.pwr.held && decide (4 < s.boot.next)

/-- WATCHDOG_RESTART (R418): Falosteo restarts the watchdog. -/
def execWatchdogRestart (s : State) : Host.Outcome State Fault Refusal :=
  .next (if s.watchdogRuns then { s with pwr := { s.pwr with watchdogFed := s.time } } else s)

/-- Whether the watchdog has run TIMEOUT_MS, at least 0x0032, without a restart, in UCLK of the device time counter. -/
def State.watchdogOut (s : State) : Bool :=
  decide (max 0x32 (s.fld Reg.watchdog 15 0) * 100000 ≤ s.time - s.pwr.watchdogFed)

/-- WATCHDOG (R418): with EN set, a watchdog that has run its time without a restart begins a full reset. -/
def execWatchdog (s : State) : Host.Outcome State Fault Refusal :=
  .next (if s.watchdogRuns && decide (s.fld Reg.watchdog 31 31 = 1) && s.watchdogOut then s.beginReset 8 else s)

/-! ### The ACLK rate (R403, R404) -/

/-- The thermal level: the highest of any grove. -/
def State.thermalLevel (s : State) : Nat := (List.range 4).foldl (fun a g => max a (s.fld (Reg.junction g) 30 29)) 0

/-- The code of the rate ACLK_CAP allows: 3 is taken as 2. -/
def State.capCode (s : State) : Nat := min 2 (s.fld Reg.aclkCap 1 0)

/-- The lowest rate allowed by any source, as its code. -/
def State.rateWanted (s : State) : Nat := max (max (min 2 s.thermalLevel) s.pwr.powerLevel) s.capCode

/-- The rate requested follows the levels and the cap (R403, R404): a request replaces an earlier one that waits; a
source's bit is set while the rate it allows is below 700 MHz and is the lowest. -/
def State.requestRate (s : State) : State :=
  let w := s.rateWanted
  let by_ := fun (c : Nat) => ofBool (decide (0 < c) && decide (c = w))
  let s := s.setFld Reg.clkState 29 28 w
  let s := s.setFld Reg.clkState 27 27 (ofBool (decide (w ≠ s.fld Reg.clkState 31 30)))
  ((s.setFld Reg.clkState 26 26 (by_ s.capCode)).setFld Reg.clkState 25 25 (by_ s.pwr.powerLevel)).setFld
    Reg.clkState 24 24 (by_ (min 2 s.thermalLevel))

/-- A write of ACLK_CAP changes the rate requested (R403). -/
def State.writeAclkCap (s : State) (v : Nat) : State := (s.setFld Reg.aclkCap 1 0 v).requestRate

/-- ACLK_CAP_WRITE (R403). -/
def execAclkCapWrite (v : Nat) (s : State) : Host.Outcome State Fault Refusal :=
  .next (s.whenUp fun s => s.writeAclkCap v)

/-- The threshold of a thermal level (Table 17.2). -/
def junctionThreshold : Nat → Nat
  | 1 => 98
  | 2 => 103
  | _ => 110

/-- The thermal level of a grove after a reading (R403): it rises to the highest level whose threshold is reached, and
falls by one step when the reading is below that step's threshold less 5 °C. -/
def junctionLevel (old t : Nat) : Nat :=
  let up := if 110 ≤ t then 3 else if 103 ≤ t then 2 else if 98 ≤ t then 1 else 0
  if old ≤ up then up else if t + 5 < junctionThreshold old then old - 1 else old

/-- A grove's reading: the highest of its sensors, a failed one taken as 110 °C. -/
def groveReading (l : List Reading) : Nat :=
  l.foldl (fun a r => max a (match r with
    | .value c => c % 256
    | .failed => 110)) 0

/-- JUNCTION_READ (R403): the sensors of a grove set its reading and level, and the rate requested; level 2 and a failed
sensor are alarm causes of vector 16 (R431), and level 3 begins a full reset. -/
def execJunctionRead (grove : Nat) (l : List Reading) (s : State) : Host.Outcome State Fault Refusal :=
  .next (if grove < 4 ∧ l ≠ [] ∧ s.pwr.powered = true then
    let was := s
    let off := Reg.junction grove
    let failed := decide (Reading.failed ∈ l)
    let t := groveReading l
    let old := s.fld off 30 29
    let new := junctionLevel old t
    let wasFail := s.fld off 31 31
    let s := (s.setFld off 31 31 (ofBool failed)).setFld off 30 29 new
    let s := (s.setFld off 23 16 (max (s.fld off 23 16) t)).setFld off 7 0 t
    let s := { s with pwr := { s.pwr with temps := s.pwr.temps.set grove t } }
    let s := if 2 ≤ new ∧ old < 2 then s.irq 16 else s
    let s := if failed ∧ wasFail = 0 then s.irq 16 else s
    let s := s.requestRate.alarmRose was
    if new = 3 then s.beginReset 6 else s
  else s)

/-- The 100 ms limit in force (Table 17.13). -/
def State.powerLimit (s : State) : Nat := min 0xC80 (s.fld Reg.powerLimit 15 0)

/-- POWER_CHECK (R403): the averages over 1 ms and 100 ms raise the power level, or lower it after 100 checks in
sequence below 95 % of both limits. -/
def execPowerCheck (avg1 avg100 : Nat) (s : State) : Host.Outcome State Fault Refusal :=
  .next (s.whenPowered fun s =>
    let w := min avg1 0xFFFF
    let s := (s.setFld Reg.powerLimit 31 16 w).setFld Reg.moduleInput 31 16 (max (s.fld Reg.moduleInput 31 16) w)
    let above := decide (4000 < avg1) || decide (s.powerLimit < avg100)
    let under := decide (100 * avg1 < 95 * 4000) && decide (100 * avg100 < 95 * s.powerLimit)
    let calm := if under then s.pwr.calm + 1 else 0
    let p := if above then { s.pwr with powerLevel := min 2 (s.pwr.powerLevel + 1), calm := 0 }
      else if calm = 100 then { s.pwr with powerLevel := s.pwr.powerLevel - 1, calm := 0 }
      else { s.pwr with calm := calm }
    { s with pwr := p }.requestRate)

/-! ### Copse power states (R406, R407) -/

/-- Every command that holds the imposition it latched completes ABORTED (R413). -/
def State.abortImposition (s : State) : State :=
  { s with cmd := { s.cmd with cmds := s.cmd.cmds.map fun c =>
      if (c.phase = .dispatched ∨ c.phase = .waiting) ∧ c.holds ∧ c.latch.imposition ≠ 0 then
        { c with phase := .done, status := stAborted, detail := 0, result := 0, time := s.time % 2 ^ 48 }
      else c } }

/-- Whether a copse is in GATED or RETAIN. -/
def State.isGated (s : State) (c : Nat) : Bool := s.pwr.gates.any fun g => g.1 = c

/-- Whether command work of a copse's positions is in flight: it carries a unit, and a command holds the imposition. -/
def State.copseWorks (s : State) (c : Nat) : Bool :=
  s.carriesUnit c && s.cmd.cmds.any fun d => d.holds && (decide (d.phase = .dispatched) || decide (d.phase = .waiting))

/-- A copse is in RUN again. -/
def State.wakeCopse (s : State) (c : Nat) : State :=
  { s with pwr := { s.pwr with
    gates := s.pwr.gates.filter fun g => g.1 ≠ c
    waking := s.pwr.waking.filter fun d => d ≠ c } }

/-- GATE_ENTRY (R406): a copse in RUN without work in flight stops its ACLK; a copse in SWEEP does not leave RUN. -/
def execGateEntry (c : Nat) (s : State) : Host.Outcome State Fault Refusal :=
  .next (if c < 256 ∧ s.pwr.held = false ∧ s.fld Reg.gateCfg 15 0 ≠ 0 ∧ s.isRetired c = false ∧ s.isGated c = false ∧
      s.copseWorks c = false ∧ (s.imp.sweep.any fun x => x.1 = c) = false then
    { s with pwr := { s.pwr with gates := s.pwr.gates ++ [(c, 1)] } }
  else s)

/-- RETAIN_ENTRY (R406): a copse GATED that carries no unit enters retention, when RETAIN_EN permits it. -/
def execRetainEntry (c : Nat) (s : State) : Host.Outcome State Fault Refusal :=
  .next (if (c, 1) ∈ s.pwr.gates ∧ c ∉ s.pwr.waking ∧ s.fld Reg.gateCfg 31 31 = 1 ∧ s.carriesUnit c = false then
    { s with pwr := { s.pwr with gates := s.pwr.gates.map fun g => if g.1 = c then (c, 2) else g } }
  else s)

/-- WAKE (R407): the wake of a copse in GATED or RETAIN begins. -/
def execWake (c : Nat) (s : State) : Host.Outcome State Fault Refusal :=
  .next (if s.isGated c ∧ c ∉ s.pwr.waking then { s with pwr := { s.pwr with waking := s.pwr.waking ++ [c] } } else s)

/-- WAKE_COMPLETE (R406): the copse reaches RUN. -/
def execWakeComplete (c : Nat) (s : State) : Host.Outcome State Fault Refusal :=
  .next (if c ∈ s.pwr.waking then s.wakeCopse c else s)

/-! ### Partial resets (R412, R413) -/

/-- MEMORY_CONTROLLER_RESET (R413): under JOINT a full reset; under SIGNALLED the controller resets alone, its channel
is queued for mapping out with cause 3, and the reads in flight to it, whose addresses are given, complete as
uncorrectable ones. -/
def execMemoryControllerReset (ch : Nat) (reads : List Nat) (s : State) : Host.Outcome State Fault Refusal :=
  .next (s.whenUp fun s => if 256 ≤ ch then s
    else if s.fld Reg.cdcRstmode 0 0 = 0 then s.beginReset 7
    else
      let s := s.queueChannel ch 3
      let s := { s with mem := { s.mem with resetting := (s.mem.resetting ++ [ch]).eraseDups } }
      (reads.filter fun a => a < 0x6000000000 ∧ s.channelOf a = ch).foldl State.hbmUncorrectable s)

/-- MEMORY_CONTROLLER_RETRAINED (R413): the channel leaves self refresh. -/
def execMemoryControllerRetrained (ch : Nat) (s : State) : Host.Outcome State Fault Refusal :=
  .next { s with mem := { s.mem with resetting := s.mem.resetting.filter (· ≠ ch) } }

/-- SEAM_RESET (R413): under JOINT a full reset; under SIGNALLED the port retrains, the commands in flight that latched
the imposition complete ABORTED, and the step is aborted. -/
def execSeamReset (port : Nat) (s : State) : Host.Outcome State Fault Refusal :=
  .next (s.whenUp fun s => if s.fld Reg.cdcRstmode 1 1 = 0 then s.beginReset 7
    else
      let s := { s with pwr := { s.pwr with seams := (s.pwr.seams ++ [port]).eraseDups } }
      s.abortImposition.abortSteps)

/-- SEAM_PORT_RETRAINED (R413): the port carries traffic again. -/
def execSeamPortRetrained (port : Nat) (s : State) : Host.Outcome State Fault Refusal :=
  .next { s with pwr := { s.pwr with seams := s.pwr.seams.filter (· ≠ port) } }

/-! ### Time -/

/-- A step with no command waiting: one UCLK passes from start-up stage 1 on, which starts the device time counter (16
R389), while the device has power and no full reset is in progress or held (log 10). -/
def State.passTime (s : State) : State := s.whenUp fun s => if s.boot.next = 1 then s else s.elapse 1

end Sys2Proof.Machine
end

