-- ==== Sys2Proof/Machine/Declare.lean ====
section
/-! DEFINITION. Declarations (09_imposer.md R238 to R242) and the accounting of the memories (R196, R247, R451). -/

namespace Sys2Proof.Machine

/-! ### DETAIL values of the Imposer group (Table 9.9) -/

def dNotDeclared : Nat := 0x0100
def dBadRole : Nat := 0x0101
def dBadShape : Nat := 0x0102
def dBadAxes : Nat := 0x0103
def dStale : Nat := 0x0104
def dNoImposition : Nat := 0x0105
def dSliverRange : Nat := 0x0106
def dSramFit : Nat := 0x0107
def dHbmFit : Nat := 0x0108
def dCapacity : Nat := 0x0109
def dTableLimit : Nat := 0x010A
def dBadUnit : Nat := 0x010B
def dBadFormat : Nat := 0x010C
def dBadField : Nat := 0x010D

/-! ### The memories of each core (R451) -/

/-- Bytes of core SRAM, and of accumulator buffer without the Imposer's scratch. -/
def sramBytes : Nat := 786432
def accumBytes : Nat := 229376

/-- The declared operations of the imposition in force and their shapes, as numbers. -/
def State.opShapes (s : State) : List Nat :=
  (((s.imp.cur.map (·.ops)).getD []).map fun o =>
    [o.opcode, o.repeats, o.kParts] ++ (o.handles.map fun h => match s.declared h with
      | some t => t.fmt :: t.dims.length :: t.dims
      | none => [0, 0]).flatten).flatten

/-- Core SRAM that the working data of an imposition take in each core: ACTIVATION slivers, resident saves, the
transit pool, and the working space of the declared operations. -/
def State.sramUsed (s : State) : Nat :=
  ((s.tens.filter fun t => t.role = 0 ∨ (t.role = 3 ∧ s.resident t)).map s.sliverBytes).sum + s.poolSize +
    Config.workSpace s.opShapes

/-- Accumulator buffer that the ACCUM slivers take in each core. -/
def State.accumUsed (s : State) : Nat := ((s.tens.filter fun t => t.role = 5).map s.sliverBytes).sum

/-- Pages of HBM that a tensor takes at its placement: each edition slot of a WEIGHT its own (R247). -/
def Tensor.pagesNeeded (t : Tensor) : Nat :=
  match t.role with
  | 1 => t.slots * pagesFor t.storeBytes
  | 2 => pagesFor t.storeBytes
  | 6 => pagesFor t.storeBytes
  | _ => 0

/-- A tensor placed; none when its pages do not fit. -/
def State.placeTensor (s : State) (t : Tensor) : Option State :=
  let p := State.takePages t.pagesNeeded s []
  if p.1.length < t.pagesNeeded then none
  else some (p.2.updTensor t.handle fun t => { t with placed := true, pages := p.1 })

/-- Every tensor declared and not placed is placed, in order of declaration. -/
def State.placeAll (s : State) : Option State :=
  s.tens.foldl (fun o t => o.bind fun s => if t.placed then some s else s.placeTensor t) (some s)

/-- A weight-gradient tensor is resident: pages it took are given back (R196). -/
def State.wgradIn (s : State) (t : Tensor) : State :=
  if t.spilled then (s.givePages t.pages).updTensor t.handle fun t => { t with spilled := false, pages := [] } else s

/-- A weight-gradient tensor is spilled: it takes pages as a BUFFER does (R196, R247). -/
def State.wgradOut (s : State) (t : Tensor) : Option State :=
  if t.spilled then some s
  else
    let n := pagesFor (4 * t.size)
    let p := State.takePages n s []
    if p.1.length < n then none
    else some (p.2.updTensor t.handle fun t => { t with spilled := true, pages := p.1 })

/-- Weight-gradient tensors take what is left of the accumulator buffer in order of declaration (R196). -/
def State.wgradSplit : List Tensor → Nat → State → Option State
  | [], _, s => some s
  | t :: ts, left, s =>
    let n := s.wgradBytes t
    if n ≤ left then State.wgradSplit ts (left - n) (s.wgradIn t)
    else (s.wgradOut t).bind fun s => State.wgradSplit ts left s

/-- The accounting of an IMPOSE, or of a declaration placed within an imposition in force (R451): every tensor is
placed, or a DETAIL says what does not fit. -/
def State.account (s : State) : Except Nat State :=
  if sramBytes < s.sramUsed ∨ accumBytes < s.accumUsed then .error dSramFit
  else match s.placeAll.bind fun s => State.wgradSplit (s.tens.filter fun t => t.role = 4) (accumBytes - s.accumUsed) s with
    | some s => .ok s
    | none => .error dHbmFit

/-! ### DECLARE_TENSOR (R238 to R240) -/

/-- Whether a role permits a valid format (Table 9.3). -/
def roleFormat (role fmt : Nat) : Bool :=
  match role with
  | 4 => decide (fmt = 0)
  | 5 => decide (fmt = 0)
  | 6 => true
  | _ => decide (fmt % 16 ≠ 9)

/-- Whether axis 0 of a role's tensors holds the tokens (Table 9.3). -/
def tokenRole (role : Nat) : Bool := decide (role = 0 ∨ role = 3 ∨ role = 5)

/-- The lengths of a DECLARE_TENSOR. -/
def Cmd.dims (c : Cmd) : List Nat := (List.range (min 4 (c.par 34 1 % 8))).map fun i => c.par (48 + 4 * i) 4

/-- The checks of DECLARE_TENSOR (R238, R239). -/
def State.declareFault (s : State) (c : Cmd) : Option Nat :=
  let fmt := c.par 32 1
  let role := c.par 33 1
  let axes := c.par 34 1 % 8
  let cut := c.par 36 1
  firstFault [
    (decide (6 < role) || (fmtOk fmt && ! roleFormat role fmt), dBadRole),
    (decide (axes < 1 ∨ 4 < axes) || c.dims.contains 0 || (isMX fmt && decide (axes ≤ c.par 35 1)) ||
      decide (axes ≤ cut % 4) || decide (4 < cut / 4 % 8) ||
      (tokenRole role && s.imp.cur.any fun i => c.dims.headD 0 ≠ i.tokens), dBadShape),
    (! fmtOk fmt, dBadFormat),
    (decide (role = 1 ∧ (c.par 37 1 < 2 ∨ 4 < c.par 37 1)), dBadField)]

/-- A tensor as DECLARE_TENSOR gives it. -/
def Cmd.newTensor (c : Cmd) (h ord : Nat) : Tensor :=
  let fmt := c.par 32 1
  let role := c.par 33 1
  { handle := h, fmt := fmt, role := role, dims := c.dims, blockAxis := c.par 35 1, cutAxis := c.par 36 1 % 4,
    cutTorus := c.par 36 1 / 4 % 8, slots := c.par 37 1, layer := c.par 38 2, microbatch := c.par 40 2,
    scaleOf := if isMX fmt then some (h + 1) else none, elemOf := none, placed := false, pages := [], spilled := false,
    data := [],
    editions := if role = 1 then [{ number := 1, data := [], scales := [], holds := 0, retTally := none }] else [],
    updates := 0, ord := ord, opt := OptState.none, next := none, marks := [], save := .free, image := none,
    record := [], wgCount := 0, wgBase := 0, releasing := none, freeing := none }

/-- The companion scale tensor of an element tensor (R240). -/
def Tensor.companion (t : Tensor) : Tensor :=
  { t with
    handle := t.handle + 1, fmt := 9, role := 7, dims := scaleDims t.dims t.blockAxis, slots := 0, scaleOf := none,
    elemOf := some t.handle, editions := [] }

/-- The tensors a DECLARE_TENSOR declares join those live. -/
def State.addTensor (s : State) (c : Cmd) : State :=
  let t := c.newTensor s.imp.nextHandle s.imp.weights
  let l := if isMX t.fmt then [t, t.companion] else [t]
  { s with
    tens := s.tens ++ l
    imp := { s.imp with
      nextHandle := s.imp.nextHandle + l.length
      weights := s.imp.weights + ofBool (decide (t.role = 1)) } }

/-- RESULT of a DECLARE_TENSOR (Table 9.8). -/
def State.declareResult (s : State) (h : Nat) : Nat :=
  match s.declared h with
  | none => 0
  | some t =>
    let perCore :=
      if t.placed = false then 0
      else if t.role = 0 ∨ t.role = 5 ∨ (t.role = 3 ∧ s.resident t) then s.sliverBytes t
      else if t.role = 4 ∧ t.spilled = false then s.wgradBytes t
      else 0
    resultWords h (t.scaleOf.getD noHandle) perCore t.pages.length

/-- DECLARE_TENSOR (R238, R239, R240). -/
def execDeclareTensor (n : Nat) (s : State) : Host.Outcome State Fault Refusal :=
  .next (s.runCmd n 0x0301 fun c s =>
    match s.declareFault c with
    | some d => s.finish c.id (Outcome.bad d)
    | none =>
      let h := s.imp.nextHandle
      let k := if isMX (c.par 32 1) then 2 else 1
      if 65536 < s.tens.length + k ∨ noHandle < h + k then s.finish c.id (Outcome.noSpace dTableLimit)
      else
        let t := s.addTensor c
        if t.imp.cur.isNone then t.finish c.id (Outcome.ok (t.declareResult h))
        else match t.account with
          | .error d => s.finish c.id (Outcome.noSpace d)
          | .ok t => t.finish c.id (Outcome.ok (t.declareResult h)))

/-! ### RELEASE_TENSOR (R242) -/

/-- RELEASE_TENSOR (R242): what its dispatch found; the release takes effect once the commands before it that name the
tensor have completed. -/
def execReleaseTensor (n : Nat) (s : State) : Host.Outcome State Fault Refusal :=
  .next (s.runCmd n 0x0302 fun c s => match c.latch.extra with
    | [1, d] => s.finish c.id (Outcome.bad d)
    | _ => s.finish c.id (Outcome.ok 0))

/-- What a staged re-shard keeps for a tensor is given back: its second half-buffer and its entry in the list (R254). -/
def State.unstageTensor (s : State) (h : Nat) : State :=
  let s := s.givePages (((s.imp.halfBuffers.filter fun x => x.1 = h).map (·.2)).flatten)
  let l := (s.imp.reshard.getD []).filter fun x => x.1 ≠ h
  { s with imp := { s.imp with
    halfBuffers := s.imp.halfBuffers.filter fun x => x.1 ≠ h
    reshard := if l.isEmpty then none else some l } }

/-- A released tensor and its companion are gone: their pages, editions and image with them. -/
def State.dropTensor (s : State) (t : Tensor) : State :=
  let s := ((s.unstageTensor t.handle).dropImage t.handle).givePages t.pages
  { s with tens := s.tens.filter fun u => ! (decide (u.handle = t.handle) || decide (u.elemOf = some t.handle)) }

/-- The releases that no command holds back any more take effect. -/
def State.applyReleases (s : State) : State :=
  s.tens.foldl (fun s t => match t.elemOf, t.releasing with
    | none, some k =>
      if s.namedBefore t.handle k || (t.scaleOf.any fun h => s.namedBefore h k) then s else s.dropTensor t
    | _, _ => s) s

/-! ### DECLARE_OP (R241) -/

/-- The handles of a DECLARE_OP. -/
def Cmd.opHandles (c : Cmd) : List Nat := (List.range 4).map fun i => c.par (36 + 4 * i) 4

/-- A live tensor that a declaration may name: placed or not, and not released. -/
def State.live (s : State) (h : Nat) : Bool := (s.declared h).any fun t => t.releasing.isNone

/-- The checks of DECLARE_OP. -/
def State.declareOpFault (s : State) (c : Cmd) : Option Nat :=
  firstFault [
    (c.opHandles.any fun h => decide (h ≠ noHandle) && ! s.live h, dNotDeclared),
    ((opRow (c.par 32 2)).isNone || decide (c.par 34 2 = 0) || decide (c.par 52 1 < 1 ∨ 64 < c.par 52 1), dBadField)]

/-- DECLARE_OP (R239, R241): the operation enters the plan at the next IMPOSE. -/
def execDeclareOp (n : Nat) (s : State) : Host.Outcome State Fault Refusal :=
  .next (s.runCmd n 0x0303 fun c s =>
    match s.declareOpFault c with
    | some d => s.finish c.id (Outcome.bad d)
    | none =>
      let i := s.imp.ops.length
      if 4096 ≤ i then s.finish c.id (Outcome.noSpace dTableLimit)
      else
        let o : DeclOp := { opcode := c.par 32 2, repeats := c.par 34 2, handles := c.opHandles, kParts := c.par 52 1 }
        ({ s with imp := { s.imp with ops := s.imp.ops ++ [o] } }).finish c.id (Outcome.ok i))

end Sys2Proof.Machine
end

