-- ==== Sys2Proof/Machine/Proofs.lean ====
section
/-! DEFINITION. Proofs and counters (18_observability.md R421 to R426, R436). A PROOF_NOW waits for its proof with
`aux` [23], a PROOF_AT_TIME with `aux` [24, time, 1 when it was scheduled while PTP was not LOCKED]. -/

namespace Sys2Proof.Machine

/-! ### The image (R421) -/

/-- The value of the register at an offset in an image: PROOF_CFG and PROOF_STATE read as zero. -/
def ProofImage.reg (p : ProofImage) (off : Nat) : Nat :=
  if off = Reg.proofCfg ∨ off = Reg.proofState then 0
  else match p.views.find? fun v => v.1 = off with
    | some v => v.2
    | none => (Sparse.get (fun k => BitVec.ofNat 64 (regReset k)) p.regs off).toNat

/-- ARRAY_STATE_s_a of the cores that carry a unit. -/
def State.arrayOffsets (s : State) : List Nat :=
  (s.busyCores.map fun k => (List.range 4).map fun a => Reg.arrayState k a).flatten

/-- The image of this ACLK: every register as a read would return it, those of a clearing zero. -/
def State.imageNow (s : State) (number : Nat) : ProofImage :=
  { number := number
    regs := s.regs.filter fun r => ! s.coreRegGone r.1
    views := (viewOffsets ++ s.arrayOffsets).map fun o => (o, s.regView o) }

/-- Eight bytes of the register region at an offset, by the values that `view` gives. -/
def wordOf (view : Nat → Nat) (o : Nat) : Nat :=
  (regSpans o 8).foldl (fun v x =>
    v + bits (view x.1) (8 * (x.2.1 + x.2.2) - 1) (8 * x.2.1) * 2 ^ (8 * (x.1 + x.2.1 - o))) 0

/-- `n` bytes of the register region from an offset, both multiples of 8. -/
def regionBytes (view : Nat → Nat) (o n : Nat) : List Byte :=
  ((List.range (n / 8)).map fun i => leBytes 8 (wordOf view (o + 8 * i))).flatten

/-- The image held is released (R423). -/
def State.releaseImage (s : State) : State :=
  { s.setFld Reg.proofState 31 31 0 with obs := { s.obs with image := none } }

/-! ### Firing (R422 to R425) -/

/-- The command that waits for its proof with a number at the head of its `aux`, the earliest first. -/
def State.proofWaiter (s : State) (k : Nat) : Option Cmd :=
  s.cmd.cmds.find? fun c => c.phase = .waiting ∧ c.aux.head? = some k ∧ c.opcode / 256 = 0x0C

/-- Whether a trigger is on its way: 0 PROOF_NOW, 1 PROOF_AT_TIME, once PTP_NOW is at or after its time (11 R310), 2 the
pin, 3 an event, 4 Colophon. -/
def State.triggerDue (s : State) : Nat → Bool
  | 0 => (s.proofWaiter 23).isSome
  | 1 => (s.proofWaiter 24).any fun c => c.aux.getD 1 0 ≤ s.fab.ptp.now / 1000
  | k => s.obs.due.contains k

/-- The calendar counter: whole sub-slots passed, and a free place in the one in progress. -/
def State.calendarCounter (s : State) : Nat × State :=
  let q := s.fld Reg.hbmCalendar 15 10
  let f := s.free
  ((s.mem.refreshes * q + f.1 % max 1 q) % 2 ^ 32, f.2)

/-- PROOF_STAMP of this ACLK (Table 18.10). -/
def State.stampProof (s : State) : State :=
  let x := s.calendarCounter
  let s := (x.2.setReg Reg.proofStampTime x.2.time).setReg Reg.proofStampPtp x.2.viewPtp
  s.setReg Reg.proofStampCal (s.fld Reg.hbmCalendar 63 32 * 2 ^ 32 + x.1)

/-- A command of the proof group that waited for its trigger ends. -/
def State.proofEnds (s : State) (k : Nat) (o : Outcome) : State :=
  match s.proofWaiter k with
  | some c => s.finish c.id o
  | none => s

/-- A reply of the Colophon monitor. -/
def State.reply (s : State) (r : UartReply) : State := { s with obs := { s.obs with uart := s.obs.uart ++ [r] } }

/-- Triggers that reach the master in one ACLK make one proof (R422), or, with an image held, are missed (R423). The
monitor's line is answered with the number of the proof; with what, when it was missed, the spec does not say. -/
def State.fire (s : State) (l : List Nat) : State :=
  let s := { s with obs := { s.obs with due := l.foldl (fun d k => d.erase k) s.obs.due } }
  if s.fld Reg.proofState 31 31 = 1 then
    let s := s.addSat Reg.proofState 23 16 l.length
    let s := if l.contains 0 then s.proofEnds 23 (Outcome.aborted 0x0100) else s
    let s := if l.contains 1 then s.proofEnds 24 (Outcome.aborted 0x0100) else s
    if l.contains 4 then let f := s.free; f.2.reply (.err (f.1 % 256)) else s
  else
    let n := (s.fld Reg.proofState 63 32 + 1) % 2 ^ 32
    let s := if l.contains 1 ∧ (s.proofWaiter 24).any (fun c => c.aux.getD 2 0 = 1) = true
      then s.setFld Reg.ptpStatus 30 30 1 else s
    let s := s.stampProof
    let img := s.imageNow n
    let s := (s.setFld Reg.proofState 63 32 n).setFld Reg.proofState 31 31 1
    let s := s.setFld Reg.proofState 4 0 ((l.map (2 ^ ·)).sum)
    let s := { s with obs := { s.obs with
      image := some img
      pull := s.obs.pull || decide (s.fld Reg.proofCfg 30 30 = 1) } }
    let s := if l.contains 0 then s.proofEnds 23 (Outcome.ok (n * 2 ^ 32)) else s
    let s := if l.contains 1 then s.proofEnds 24 (Outcome.ok (n * 2 ^ 32)) else s
    if l.contains 4 then s.reply (.ok [n]) else s

/-- A step with no command waiting: time passes, and a scheduled proof whose time PTP_NOW has reached fires (11 R310). -/
def State.idleStep (s : State) : State :=
  s.passTime.whenUp fun s => if s.triggerDue 1 then s.fire [1] else s

/-- PROOF_FIRE (R421 to R424): the triggers named that are on their way reach the master control sequencer in one
ACLK. -/
def execProofFire (sources : List Nat) (s : State) : Host.Outcome State Fault Refusal :=
  .next (
    let l := (sources.filter fun k => k < 5 ∧ s.triggerDue k).eraseDups
    if l.isEmpty then s else s.fire l)

/-- PROOF_NOW (R422): its trigger fires 16 ACLK after its dispatch. -/
def execProofNow (n : Nat) (s : State) : Host.Outcome State Fault Refusal :=
  .next (s.runCmd n 0x0C01 fun c s => s.park c.id [23])

/-- PROOF_AT_TIME (R425). -/
def execProofAtTime (n : Nat) (s : State) : Host.Outcome State Fault Refusal :=
  .next (s.runCmd n 0x0C02 fun c s =>
    if (s.proofWaiter 24).isSome then s.finish c.id (Outcome.bad 0x0101)
    else if s.fld Reg.ptpCfg 31 31 = 0 then s.finish c.id (Outcome.bad 0x0102)
    else
      let t := c.par 32 8
      s.park c.id [24, bits t 63 30 * 1000000000 + bits t 29 0, 1 - s.fld Reg.ptpStatus 31 31])

/-- PROOF_PIN_EDGE (R422, R424): with IN_EN set, a falling edge is a trigger, but for the device's own pull and the
100 UCLK after it. -/
def execProofPinEdge (s : State) : Host.Outcome State Fault Refusal :=
  .next (if s.fld Reg.proofCfg 31 31 = 1 ∧ s.obs.pull = false ∧ s.obs.deaf ≤ s.time ∧ s.pwr.held = false then
    { s with obs := { s.obs with due := s.obs.due ++ [2] } } else s)

/-- PROOF_PULL_END (R424): the device releases the pin. -/
def execProofPullEnd (s : State) : Host.Outcome State Fault Refusal :=
  .next (if s.obs.pull then { s with obs := { s.obs with pull := false, deaf := s.time + 100 } } else s)

/-- PROOF_RELEASE (R423): a write of 1 to HELD. -/
def execProofRelease (s : State) : Host.Outcome State Fault Refusal := .next (s.whenUp State.releaseImage)

/-! ### PROOF_READ and COUNTERS_READ (R426, R436) -/

/-- OFFSET and BYTES of a read. -/
def Cmd.readOffset (c : Cmd) : Nat := c.par 40 4 % 2 ^ 24
def Cmd.readBytes (c : Cmd) : Nat := c.par 44 4

/-- Whether OFFSET, BYTES and DEST are valid (Table 18.7). -/
def State.rangeOk (s : State) (c : Cmd) : Bool :=
  decide (c.readOffset % 8 = 0) && decide (c.readBytes % 8 = 0) && decide (c.readOffset + c.readBytes ≤ 0x1000000) &&
  decide (c.par 32 8 % 8 = 0) &&
  (decide (c.readBytes = 0) || s.copyRange (c.par 32 8) c.readBytes)

/-- A command that writes a snapshot waits for its destination first, so that the snapshot is one ACLK's. -/
def State.snapshot (s : State) (c : Cmd) (f : State → State) : State :=
  if nodeOf (c.par 32 8) = s.node ∧ c.readBytes ≠ 0 then
    match s.rangeGate c [] [(localOf (c.par 32 8), c.readBytes)] with
    | some s => s
    | none => f s
  else f s

/-- PROOF_READ (R423, R436); with RELEASE the image is released at its completion. -/
def execProofRead (n : Nat) (s : State) : Host.Outcome State Fault Refusal :=
  .next (s.runCmd n 0x0C03 fun c s =>
    match s.obs.image with
    | none => s.finish c.id (Outcome.bad 0x0103)
    | some p =>
      if ! s.rangeOk c then s.finish c.id (Outcome.bad 0x0104)
      else s.deliver c (c.par 32 8) (regionBytes p.reg c.readOffset c.readBytes) (c.readBytes + p.number * 2 ^ 32) 0)

/-- COUNTERS_READ (R426): a snapshot of the live registers; CLEAR clears the RC fields in its range. -/
def execCountersRead (n : Nat) (s : State) : Host.Outcome State Fault Refusal :=
  .next (s.runCmd n 0x0C04 fun c s =>
    if ! s.rangeOk c then s.finish c.id (Outcome.bad 0x0104)
    else s.snapshot c fun s =>
      let d := regionBytes s.regView c.readOffset c.readBytes
      let s := if bit (c.par 48 1) 0 = 1 then
          (List.range (c.readBytes / 8)).foldl (fun s i => (regSpans (c.readOffset + 8 * i) 8).foldl State.clearRC s) s
        else s
      s.deliver c (c.par 32 8) d c.readBytes 0)

end Sys2Proof.Machine
end

