-- ==== Sys2Proof/Machine/Completion.lean ====
section
/-! DEFINITION. COMPLETION_REPORT (02_commands_and_tallies.md R53, R55): what takes place in the ACLK of a command's
completion besides its signals and its reply. -/

namespace Sys2Proof.Machine

/-- What an opcode's chapter gives to the ACLK of its completion: the mode that SET_MATRIX_MODE sets (03 R87), the end of
a disabled state (02 R57), saves and their records (07 R200 to R206), step sizes and editions (08 R213, R219), the hold
of an attention command on its tables (06 R153), the release of a proof image (18 R423), a watch given up (02 R66). -/
def State.atCompletion (s : State) (c : Cmd) : State :=
  match c.opcode with
  | 0x0105 => if c.status = stOK ∧ c.aux = [c.par 32 1] ∧ ! s.isWedged (c.par 32 1) then s.setDisabled (c.par 32 1) 0 else s
  | 0x0404 =>
    if c.status = stOK then
      (s.updCmd c.id fun d => { d with result := resultOf 0 0 0 (s.reg Reg.arithModeNow) 0 0 }).setReg Reg.arithModeNow (c.par 32 4)
    else s
  | 0x0601 => s.endWalks c.id
  | 0x0602 => s.endWalks c.id
  | 0x0607 => s.endWalks c.id
  | 0x0701 => s.backwardCompletes c
  | 0x0702 => s.backwardCompletes c
  | 0x0703 => s.saveCompletes c
  | 0x0704 => s.saveCompletes c
  | 0x0705 => s.stepSizeCompletes c
  | 0x0706 => s.updateCompletes c
  | 0x0B03 => if c.status = stOK then s else s.cancelWatch c
  | 0x0B04 => if c.status = stOK then s else s.cancelWatch c
  | 0x0C03 => if c.status = stOK ∧ bit (c.par 48 1) 0 = 1 then s.releaseImage else s
  | _ => s

/-- What the end of a command lets go on: a drain (02 R56), frees and releases (07 R203, 09 R242), retirements (08
R214), and the commands that wait for it. -/
def State.afterCompletion (s : State) (c : Cmd) : State :=
  ((((s.drainCheck (functionOf c.opcode)).applyFrees.applyReleases).retire).wakeAll [9, 10, 12, 18]).collWake

/-- The command with a number, as it stands now. -/
def State.again (s : State) (c : Cmd) : Cmd := (s.cmdOf c.id).getD c

/-- A command whose effects are made completes (R55): what its opcode does then, its signals, its reply, with the
device time counter as it stands (R41). -/
def State.completes (s : State) (c : Cmd) : State :=
  let s := s.updCmd c.id fun d => { d with time := s.time % 2 ^ 48 }
  let s := if c.tagHeld then s.atCompletion c else s
  let d := s.again c
  let s := if d.signalled then s.applySignals d.pkt else s
  (s.report d).afterCompletion d

/-- COMPLETION_REPORT (R55). A LAZY UPDATE with a new edition completes once no command in flight holds the edition that it
writes over (08 R226). -/
def execCompletionReport (n : Nat) (s : State) : Host.Outcome State Fault Refusal :=
  .next (match s.cmdOf n with
    | none => s
    | some c => if c.phase = .done ∧ ! (decide (c.status = stOK) && s.lazyHeld c) then s.completes c else s)

end Sys2Proof.Machine
end

