-- ==== Sys2Proof/Machine/Startup.lean ====
section
/-! DEFINITION. The start-up sequence (16_startup_security.md R389 to R394). A row is a whole stage; its operand `d` is
the UCLK that the stage took. -/

namespace Sys2Proof.Machine

/-- A stage of start-up: it takes place when it is the next one; STAGE and BOOT_TIME_k are recorded, and the device time
counter, which stage 1 starts at 0, has passed on (R389). -/
def State.stage (s : State) (k d : Nat) (f : State → State) : State :=
  if s.pwr.powered && ! s.pwr.held && decide (s.boot.next = k) then
    let s := if k = 1 then { s with time := d } else s.elapse d
    let s := { s with boot := { s.boot with next := k + 1 } }
    f ((s.setFld Reg.bootStatus 31 28 k).setReg (Reg.bootTime (k - 1)) d)
  else s

/-- A stage has failed: FAILED_STAGE and FAIL_CODE are recorded (R391). -/
def State.bootFail (s : State) (k code : Nat) : State :=
  (s.setFld Reg.bootStatus 27 24 k).setFld Reg.bootStatus 23 16 code

/-- Start-up stops in the boot ROM (R390): the fatal alarm is asserted and the monitor answers in recovery mode. -/
def State.bootStop (s : State) (k code : Nat) : State :=
  { (s.bootFail k code).setFld Reg.alarmState 5 5 1 with boot := { s.boot with next := 0 } }

/-- START_UP (R389): stage 1, the understory. -/
def execStartUp (d : Nat) (s : State) : Host.Outcome State Fault Refusal := .next (s.stage 1 d id)

/-- BOOT_ROM_STAGE (R389): stage 2; `ok` is the ROM's check of itself. -/
def execBootRomStage (d : Nat) (ok : Bool) (s : State) : Host.Outcome State Fault Refusal :=
  .next (s.stage 2 d fun s => if ok then s else s.bootStop 2 0x01)

/-! ### Stage 3: verification (R390, R394) -/

/-- The slot of a kind that is used, whether it is the fallback, and its object: the primary when it verifies, else the
other. -/
def State.chooseSlot (s : State) (kind : Nat) : Option (Nat × Bool × List Byte) :=
  let p := s.primary kind
  match s.verified kind p with
  | .ok o => some (p, false, o)
  | .error _ => match s.verified kind (1 - p) with
    | .ok o => some (1 - p, true, o)
    | .error _ => none

/-- The floor of a kind raised to the SVN of the object chosen, when that has RAISE_FLOOR and exceeds it (R394). -/
def State.floorFor (s : State) (kind : Nat) (o : List Byte) : State :=
  if bit (fieldAt o 5 1) 0 = 1 ∧ s.floorOf kind < objectSvn o then s.raiseFloor kind (objectSvn o) else s

/-- The firmware and profile chosen are in force; the floors raised, their regions and the others are locked (R384). -/
def State.chosen (s : State) (f p : Nat × Bool × List Byte) : State :=
  let fw := f.2.2
  let pr := p.2.2
  let cert := profileCert pr
  let s := (s.floorFor 1 fw).floorFor 2 pr
  let s := ((s.setFld Reg.bootStatus 3 3 f.1).setFld Reg.bootStatus 4 4 p.1).setFld Reg.bootStatus 5 5 (ofBool f.2.1)
  let s := s.setFld Reg.bootStatus 6 6 (ofBool p.2.1)
  let s := ((s.setFld Reg.secFloors 63 48 (objectSvn fw)).setFld Reg.secFloors 47 32 (objectSvn pr)).setFld
    Reg.secFloors 31 16 (s.floorOf 1)
  let s := (s.setFld Reg.secFloors 15 0 (s.floorOf 2)).setReg Reg.ownerId (fieldAt (bodyOf cert) 0 8)
  { s with
    node := fieldAt (profileFields pr) 0 2
    boot := { s.boot with
      locked := true
      ownerCert := cert
      profile := profileFields pr
      mFw := Config.sha384 fw
      mProfile := Config.sha384 pr
      mOwner := Config.sha384 cert } }

/-- VERIFICATION_STAGE (R390, R394): stage 3. -/
def execVerificationStage (d : Nat) (s : State) : Host.Outcome State Fault Refusal :=
  .next (s.stage 3 d fun s =>
    match s.chooseSlot 1, s.chooseSlot 2 with
    | some f, some p => s.chosen f p
    | none, _ => s.bootStop 3 0x02
    | _, none => s.bootStop 3 0x03)

/-- FALOSTEO_STAGE (R391): stage 4, the firmware started; the watchdog is held until it has ended (17 R418). -/
def execFalosteoStage (d : Nat) (ok : Bool) (s : State) : Host.Outcome State Fault Refusal :=
  .next (s.stage 4 d fun s =>
    if ok then { s with pwr := { s.pwr with watchdogFed := s.time } } else s.bootStop 4 0x04)

/-- A fresh UNLOCK_NONCE (R396). -/
def State.drawNonce (s : State) : State := let f := s.free; f.2.setReg Reg.unlockNonce f.1

/-- A failure at stages 5 to 7 (R391): recorded, and fatal; the stage's work is undone. -/
def State.stageFatal (s : State) (k code : Nat) : State := (s.bootFail k code).fatal

/-- PUF_STAGE (R392, R393, R396): stage 5; `ok` says whether the device secret could be derived. -/
def execPufStage (d : Nat) (ok : Bool) (s : State) : Host.Outcome State Fault Refusal :=
  .next (s.stage 5 d fun s =>
    if ok && s.identityOk then (s.setReg Reg.deviceId deviceId).drawNonce else s.stageFatal 5 0x05)

/-! ### Stage 6: self-test and repair map (R16, R20, R430) -/

/-- One test of a physical slot is recorded in its history (R430): kind 0 start-up, 1 sweep, 2 ARRAY_SELF_TEST. -/
def State.slotTested (s : State) (p kind : Nat) (pass : Bool) : State :=
  let off := Reg.slotTest p
  let s := s.addSat off 63 32 1
  let s := if pass then s else s.addSat off 31 16 1
  (s.setFld off 9 8 kind).setFld off 0 0 (ofBool pass)

/-- The repair map of a copse from its failed slots (Table 1.3). -/
def State.mapCopse (bad : List Nat) (s : State) (c : Nat) : State :=
  let l := (List.range 17).filter fun i => bad.contains (17 * c + i)
  let good := 0x1FFFF - (l.map (2 ^ ·)).sum
  let moved := if l.contains 16 then 0x1F else l.headD 0x1F
  let st := match l.length with
    | 0 => 0
    | 1 => 2
    | _ => 3
  let s := s.setReg (Reg.copseState c) (st * 2 ^ 28 + moved * 2 ^ 17 + good)
  if st = 3 then
    let s := s.setFld Reg.imposerCapacity 31 16 (s.fld Reg.imposerCapacity 31 16 - 16)
    s.retireCopse s.imp.nextChange c
  else s

/-- A router has failed (R20). -/
def State.routerBad (s : State) (copse : Nat) : State := s.setFld (Reg.groveStatus (copse / 64)) 1 1 1

/-- A Margin engine is found faulty (R361). -/
def State.engineBad (s : State) (g : Nat) : State := s.setFld Reg.marginState (8 + g) (8 + g) 1

/-- The factory seed tables are written (R131), and their check values. -/
def State.factorySeeds (s : State) : State :=
  let s := { s with core := { s.core with bank0 := [], bank1 := [] } }
  (List.range 10).foldl (fun s t => s.setReg (Reg.seedCheck t) (crc32 (imageBytes (factoryTable t))))
    ((s.setFld Reg.seedBankState 31 31 0).setFld Reg.seedBankState 25 16 0)

/-- Core SRAM and accumulator buffers zeroed (R398). -/
def State.zeroCores (s : State) : State :=
  { s with mem := { s.mem with bytes := s.mem.bytes.filter fun b => b.1 < 0x6000000000 } }

/-- SELF_TEST_STAGE (R16, R20, R391): stage 6, with the physical slots, the routers by copse and the Margin engines that
fail. -/
def execSelfTestStage (d : Nat) (slots routers engines : List Nat) (s : State) : Host.Outcome State Fault Refusal :=
  .next (s.stage 6 d fun s =>
    let bad := routers.filter (· < 256)
    if bad ≠ [] then (bad.foldl State.routerBad s).stageFatal 6 0x06
    else
      let s := (List.range 4352).foldl (fun s p => s.slotTested p 0 (! slots.contains p)) s
      let s := (List.range 256).foldl (State.mapCopse slots) s
      ((engines.filter (· < 4)).foldl State.engineBad s).zeroCores.factorySeeds)

/-! ### Stage 7: HBM training (R269, R279, R391) -/

/-- A channel is out of service from start-up on (R279). -/
def State.excludeChannel (s : State) (ch : Nat) : State :=
  if s.mem.outChannels.contains ch then s
  else
    let s := (s.setFld (Reg.channelState ch) 63 62 3).setFld (Reg.channelState ch) 61 59 5
    let s := s.setFld Reg.imposerCapacity 15 0 (s.fld Reg.imposerCapacity 15 0 - 1)
    { s with mem := { s.mem with outChannels := s.mem.outChannels ++ [ch] } }

/-- HBM zeroed (R398). -/
def State.scrub (s : State) : State :=
  { s with mem := { s.mem with bytes := s.mem.bytes.filter fun b => 0x6000000000 ≤ b.1 } }

/-- HBM_TRAINING_STAGE (R391): stage 7, with the channels that fail training. -/
def execHbmTrainingStage (d : Nat) (failed : List Nat) (s : State) : Host.Outcome State Fault Refusal :=
  .next (s.stage 7 d fun s =>
    let old := (s.repairs.map (·.1)).filter (· < 256)
    let new := ((failed.filter (· < 256)).eraseDups).filter fun ch => ! old.contains ch
    if (List.range 16).any fun k => (List.range 16).all fun i => failed.contains (16 * k + i) then s.stageFatal 7 0x07
    else
      let s := new.foldl (fun s ch => s.addRepair ch 5) s
      let s := (old ++ new).foldl State.excludeChannel s
      let s := { s with
        mem := { s.mem with subslot := 0, refreshes := 0, trained := true }
        pwr := { s.pwr with selfRefresh := false } }
      if bit (fieldAt s.boot.profile 2 1) 0 = 1 then s.scrub.setFld Reg.bootStatus 7 7 1 else s)

/-! ### Stage 8: links (R287, R289, R291) -/

/-- A link is trained: it is UP, on D128 with its latency fixed, and 64 KiB of best-effort credit (R291, R302). -/
def State.trainLink (s : State) (n : Nat) (t : LinkTraining) : State :=
  let s := s.setReg (Reg.linkState n)
    (2 * 2 ^ 29 + s.fld (Reg.linkState n) 28 24 * 2 ^ 24 + t.polarity % 16 * 2 ^ 20 + ofBool t.reversed * 2 ^ 19)
  let s := s.setReg (Reg.linkLat n) (if s.fld (Reg.linkCfg n) 31 30 = 1
    then t.flight % 2 ^ 16 * 2 ^ 16 + (56 + 4 * ceilDiv t.flight 4) % 2 ^ 16 else 0)
  s.updLink n fun l => { LinkSt.reset with credit := 65536, sent := l.sent, txRest := l.txRest, rxRest := l.rxRest }

/-- Mode, group and MAC address of a link from the profile in force. -/
def State.applyLink (s : State) (n : Nat) : State :=
  let f := s.boot.profile
  let m := profileMode f n
  let s := s.setReg (Reg.linkCfg n) (m * 2 ^ 30 + (if m = 0 then 0xF else profileGroup f n) * 2 ^ 24)
  if m = 2 ∨ (m = 3 ∧ n % 2 = 0) then s.setReg (Reg.ethMac n) (fieldAt f (132 + 12 * n) 6) else s

/-- LINK_TRAINING_STAGE (R389): stage 8, with what training found of the D128 links that train; one that does not is
DOWN. -/
def execLinkTrainingStage (d : Nat) (l : List (Nat × LinkTraining)) (s : State) : Host.Outcome State Fault Refusal :=
  .next (s.stage 8 d fun s =>
    let s := (List.range 64).foldl State.applyLink s
    (List.range 64).foldl (fun s n =>
      if s.fld (Reg.linkCfg n) 31 30 ≠ 1 then s
      else match l.find? fun x => x.1 = n with
        | some x => s.trainLink n x.2
        | none => s.setFld (Reg.linkState n) 28 24 4) s)

/-! ### Stage 9: the GCL (R365, R366) -/

/-- The GCL is up after training: width, polarity and latency are recorded (Table 15.10). -/
def State.gclTrained (s : State) (t : GclTraining) : State :=
  s.setReg Reg.gclState (2 * 2 ^ 29 + t.width % 4 * 2 ^ 27 + ofBool t.reversed * 2 ^ 26 + t.polarity % 2 ^ 16 * 2 ^ 10 +
    (48 + 2 * ceilDiv t.flight 2) % 2 ^ 10)

/-- GCL_TRAINING_STAGE (R391): stage 9, with what the attempt that succeeded found; none when all three failed. The
companion advertises the space of Table 15.3. -/
def execGclTrainingStage (d : Nat) (t : Option GclTraining) (s : State) : Host.Outcome State Fault Refusal :=
  .next (s.stage 9 d fun s => match t with
    | none => s.stageFatal 9 0x08
    | some t =>
      let s := { s.gclTrained t with gcl := { s.gcl with credits := [512, 64, 128, 512] } }
      (s.setFld Reg.bootStatus 31 28 0xA).gclFlush)

end Sys2Proof.Machine
end

