-- ==== Sys2Proof/Machine/Security.lean ====
section
/-! DEFINITION. The security group (16_startup_security.md R395 to R400). A command whose object lies on another node
gathers it in `buf` while it waits with `aux` [2, f], f telling a flash failure. -/

namespace Sys2Proof.Machine

/-- The work of a security command (R395): one at a time, in dispatch order. -/
def State.secure (s : State) (n opcode : Nat) (f : Cmd → State → State) : State :=
  s.runCmd n opcode fun c s =>
    if s.earlier c fun d => decide (functionOf d.opcode = 13) && d.phase.unfinished then s else f c s

/-- ATTEST (R397): the report as it stood at dispatch, signed and written. -/
def execAttest (n : Nat) (s : State) : Host.Outcome State Fault Refusal :=
  .next (s.secure n 0x0E01 fun c s => s.deliver c (c.par 64 8) (signedReport c.buf) 3741 0)

/-- GET_CERTIFICATE (R397): the device, manufacturing or owner certificate. -/
def execGetCertificate (n : Nat) (s : State) : Host.Outcome State Fault Refusal :=
  .next (s.secure n 0x0E02 fun c s =>
    match c.par 32 1 with
    | 0 => s.deliver c (c.par 40 8) s.deviceCert certLen 0
    | 1 => s.deliver c (c.par 40 8) s.makerCert certLen 0
    | 2 => s.deliver c (c.par 40 8) (sized certLen s.boot.ownerCert) certLen 0
    | _ => s.finish c.id (Outcome.bad 0x0100))

/-! ### Debug unlock (R396) -/

/-- Length of an unlock token. -/
def tokenLen : Nat := 3429

/-- Why a token does not unlock, as status and DETAIL of Table 16.8. -/
def State.tokenFault (s : State) (o : List Byte) : Option Outcome :=
  let b := bodyOf o
  if ! headerIs o 3 then some (Outcome.bad 0x0100)
  else if ! bodyLenOk 3 (bodyLen o) then some (Outcome.bad 0x0101)
  else if fieldAt b 17 7 ≠ 0 then some (Outcome.bad 0x0100)
  else if ! signedBy (certKeys s.boot.ownerCert) o then some ⟨stCheckFail, 0x0102, 0⟩
  else if 0x7FFF < objectSvn o then some ⟨stCheckFail, 0x0103, 0⟩
  else if fieldAt b 0 8 ≠ s.reg Reg.deviceId then some ⟨stCheckFail, 0x0104, 0⟩
  else if fieldAt b 8 8 ≠ s.reg Reg.unlockNonce then some ⟨stCheckFail, 0x0105, 0⟩
  else none

/-- A token presented: its scopes are unlocked and a fresh nonce is drawn, or it changes nothing. -/
def State.unlock (s : State) (o : List Byte) : Except Outcome State :=
  match s.tokenFault o with
  | some f => .error f
  | none => .ok ((s.setReg Reg.secState (s.reg Reg.secState ||| fieldAt (bodyOf o) 16 1 % 4)).drawNonce)

/-- DEBUG_UNLOCK with its token at hand. -/
def State.debugUnlock (s : State) (c : Cmd) (o : List Byte) : State :=
  match s.unlock o with
  | .error f => s.finish c.id f
  | .ok t => t.finish c.id (Outcome.ok (t.fld Reg.secState 1 0))

/-! ### Staging and activating (R395) -/

/-- The slot of a kind that is not primary. -/
def State.otherSlot (s : State) (kind : Nat) : Nat := 1 - s.primary kind

/-- The check of a staged object's header against its length (R395). -/
def stageFault (kind : Nat) (o : List Byte) : Option Outcome :=
  if ! headerIs o kind then some (Outcome.bad 0x0100)
  else if ! bodyLenOk kind (bodyLen o) ∨ o.length ≠ objectLen o then some (Outcome.bad 0x0101)
  else if 0x7FFF < objectSvn o then some ⟨stCheckFail, 0x0103, 0⟩
  else none

/-- STAGE_IMAGE with its object at hand: the slot that is not primary is erased and written; after a failure of the
flash only the first bytes stand, as many as a free number says. -/
def State.stageImage (s : State) (c : Cmd) (o : List Byte) (flashFail : Bool) : State :=
  let kind := c.par 44 1
  match stageFault kind o with
  | some f => s.finish c.id f
  | none =>
    let off := slotOffset kind (s.otherSlot kind)
    let s := s.flashErase off (slotSize kind)
    if flashFail then
      let f := s.free
      (f.2.flashPut off (o.take (f.1 % o.length))).finish c.id (Outcome.aborted 0x0107)
    else (s.flashPut off o).finish c.id (Outcome.ok o.length)

/-- A command's object read from its source (R396, R395): at hand when the source is here, else asked of its node; an alias
address faults (11 R307). Table 16.8 has no DETAIL for an uncorrectable word of a core memory: it is NONE. -/
def State.withSource (s : State) (env : Env) (c : Cmd) (a n flag : Nat) (f : List Byte → State → State) : State :=
  if s.aliasFault a then s.faulted c faultAccessKind a 0
  else if nodeOf a ≠ s.node then (s.fetchSource c a n).park c.id [2, flag]
  else s.fetch env c a n 0 f

/-- DEBUG_UNLOCK (R396). -/
def execDebugUnlock (n : Nat) (env : Env) (s : State) : Host.Outcome State Fault Refusal :=
  .next (s.secure n 0x0E03 fun c s =>
    if c.par 40 4 ≠ tokenLen then s.finish c.id (Outcome.bad 0x0101)
    else s.withSource env c (c.par 32 8) tokenLen 0 fun d s => s.debugUnlock c d)

/-- STAGE_IMAGE (R395); `flashFail` says that the flash reports an erase or program failure. -/
def execStageImage (n : Nat) (env : Env) (flashFail : Bool) (s : State) : Host.Outcome State Fault Refusal :=
  .next (s.secure n 0x0E04 fun c s =>
    let kind := c.par 44 1
    let len := c.par 40 4
    if kind ≠ 1 ∧ kind ≠ 2 then s.finish c.id (Outcome.bad 0x0100)
    else if len = 0 ∨ slotSize kind < len then s.finish c.id (Outcome.bad 0x0101)
    else s.withSource env c (c.par 32 8) len (ofBool flashFail) fun d s => s.stageImage c d flashFail)

/-- The object of a security command has come from another node. -/
def State.securityData (s : State) (c : Cmd) : State :=
  if c.opcode = 0x0E03 ∧ c.buf.length = tokenLen then s.debugUnlock c c.buf
  else if c.opcode = 0x0E04 ∧ c.buf.length = c.par 40 4 then s.stageImage c c.buf (c.aux = [2, 1])
  else s

/-- The object in the slot of a kind that is not primary made primary, when it verifies: its SVN and slot. -/
def State.activate (s : State) (kind : Nat) : Except Nat (State × Nat × Nat) :=
  let slot := s.otherSlot kind
  match s.verified kind slot with
  | .error d => .error d
  | .ok o => .ok (s.writeSelector kind slot, objectSvn o, slot)

/-- Status of a DETAIL of Table 16.8. -/
def securityOutcome (d : Nat) : Outcome :=
  if d = 0x0102 ∨ d = 0x0103 ∨ d = 0x0104 ∨ d = 0x0105 then ⟨stCheckFail, d, 0⟩
  else if d = 0x0107 then Outcome.aborted d else Outcome.bad d

/-- ACTIVATE_IMAGE (R395); after a failure of the flash the copy being written does not hold, and the one in use
stands. -/
def execActivateImage (n : Nat) (flashFail : Bool) (s : State) : Host.Outcome State Fault Refusal :=
  .next (s.secure n 0x0E05 fun c s =>
    let kind := c.par 32 1
    if kind ≠ 1 ∧ kind ≠ 2 then s.finish c.id (Outcome.bad 0x0100)
    else match s.activate kind with
      | .error d => s.finish c.id (securityOutcome d)
      | .ok (t, svn, slot) =>
        if flashFail then (s.flashErase (2048 * (1 - s.selector.1)) 12).finish c.id (Outcome.aborted 0x0107)
        else t.finish c.id (Outcome.ok (svn % 2 ^ 32 + slot * 2 ^ 32)))

end Sys2Proof.Machine
end

