-- ==== Sys2Proof/Machine/Convolution.lean ====
section
/-! DEFINITION. Convolution, global average pooling and the Margin engines (14_convolution.md). Mappings, halo traffic
and rates affect time alone (R357, R360). -/

namespace Sys2Proof.Machine

/-! ### Shapes (R354 to R356) -/

/-- Parameters of a convolution (Table 14.4), with what follows from them: output size, and channels of a group. -/
structure ConvShape where
  h : Nat
  w : Nat
  kh : Nat
  kw : Nat
  sh : Nat
  sw : Nat
  dh : Nat
  dw : Nat
  padT : Nat
  padL : Nat
  padB : Nat
  padR : Nat
  groups : Nat
  images : Nat
  deriving DecidableEq, Repr

/-- The parameters of a packet. -/
def convShape (c : Cmd) : ConvShape :=
  { h := c.par 48 2, w := c.par 50 2, kh := c.par 52 1, kw := c.par 53 1, sh := c.par 54 1 % 16, sw := c.par 54 1 / 16,
    dh := c.par 55 1 % 16, dw := c.par 55 1 / 16, padT := c.par 56 1, padL := c.par 57 1, padB := c.par 58 1,
    padR := c.par 59 1, groups := c.par 60 4, images := c.par 68 4 }

/-- The output size on one axis (R355); 0 where the formula gives less than 1. -/
def outSize (n before after dil k stride : Nat) : Nat :=
  if n + before + after < dil * (k - 1) + 1 then 0 else (n + before + after - dil * (k - 1) - 1) / stride + 1

def ConvShape.hout (p : ConvShape) : Nat := outSize p.h p.padT p.padB p.dh p.kh p.sh
def ConvShape.wout (p : ConvShape) : Nat := outSize p.w p.padL p.padR p.dw p.kw p.sw

/-- The limits of R355. -/
def ConvShape.inRange (p : ConvShape) : Bool :=
  decide (1 ≤ p.kh ∧ p.kh ≤ 7 ∧ 1 ≤ p.kw ∧ p.kw ≤ 7 ∧ 1 ≤ p.sh ∧ p.sh ≤ 4 ∧ 1 ≤ p.sw ∧ p.sw ≤ 4) &&
  decide (1 ≤ p.dh ∧ p.dh ≤ 8 ∧ 1 ≤ p.dw ∧ p.dw ≤ 8) &&
  decide (p.padT ≤ p.dh * (p.kh - 1) ∧ p.padB ≤ p.dh * (p.kh - 1) ∧ p.padL ≤ p.dw * (p.kw - 1) ∧ p.padR ≤ p.dw * (p.kw - 1))

/-- CFLAGS (Table 14.4). -/
def Cmd.cAccIn (c : Cmd) : Bool := bit (c.par 47 1) 0 = 1
def Cmd.cAccOut (c : Cmd) : Bool := bit (c.par 47 1) 1 = 1

/-- The checks of the three product opcodes (R354 to R357, R360, Table 14.6). -/
def State.convFault (s : State) (c : Cmd) : Option Nat :=
  match s.tensor (c.par 32 4), s.tensor (c.par 36 4), s.tensor (c.par 40 4) with
  | some x, some w, some y =>
    let p := convShape c
    let cin := x.width
    let cout := w.rows
    firstFault [
      (decide (c.par 44 1 ≠ x.fmt ∨ c.par 45 1 ≠ w.fmt ∨ c.par 46 1 ≠ y.fmt), 0x0101),
      (! pairOk x.fmt w.fmt || (! c.cAccOut && ! outputOk y) || (c.cAccOut && decide (y.role ≠ 5)) ||
        (c.cAccIn && ! c.cAccOut) || (decide (c.opcode = 0x0A04) && decide (x.fmt % 16 = 0 ∧ w.fmt % 16 = 0)), 0x0102),
      (! p.inRange, 0x0104),
      (decide (p.groups = 0 ∨ cin % p.groups ≠ 0 ∨ cout % p.groups ≠ 0) ||
        (decide (c.opcode = 0x0A01) && decide (p.groups ≠ 1)), 0x0105),
      (decide (p.hout = 0 ∨ p.wout = 0 ∨ p.images = 0) || decide (w.role ≠ 1 ∧ w.role ≠ 2) || decide (x.role ≠ 0) ||
        (! c.cAccOut && decide (y.role ≠ 0)) || decide (x.rows < p.images * p.h * p.w) ||
        decide (y.rows < p.images * p.hout * p.wout) || decide (y.width ≠ cout) ||
        decide (w.width ≠ p.kh * p.kw * (cin / p.groups)), 0x0103),
      (decide (c.opcode = 0x0A04) && decide (16 < cin ∧ 64 < cout), 0x0106),
      (c.editionGone w, 0x0109)]
  | _, _, _ => some 0x0100

/-! ### The reduction (R356) -/

/-- dot() of R80 over reduction indices of which some are absent: an absent index forms no product in its step. -/
def dotAbsent (m : ArithMode) (fa fb : Nat) (l : List (Option (Elem × Elem))) (acc0 : Val) : Val × Flags :=
  let isFp32 := decide (fa % 16 = 0)
  let ts := if isFp32 then passTerms m.passes else [Term.hh]
  (chunks (stepWidth fa fb) l.length l).foldl (fun a st => dotStep m.scsat isFp32 ts (st.filterMap id) a) (acc0, Flags.none)

/-- The reduction cut into K_PARTS contiguous parts (R241). -/
def dotAbsentParts (m : ArithMode) (fa fb kparts : Nat) (l : List (Option (Elem × Elem))) (acc0 : Val) : Val × Flags :=
  match chunks (max 1 (ceilDiv l.length kparts)) l.length l with
  | [] => (acc0, Flags.none)
  | p0 :: ps =>
    ps.foldl (fun a p =>
      let d := dotAbsent m fa fb p (.fin false 0)
      let r := accStep a.1 d.1
      (r.1, (a.2.or d.2).or r.2)) (dotAbsent m fa fb p0 acc0)

/-- Where a tap reads on one axis: output index, stride, pad, tap and dilation; none in the padding. -/
def tapAt (o stride pad k dil n : Nat) : Option Nat :=
  let i := o * stride + k * dil
  if i < pad ∨ n ≤ i - pad then none else some (i - pad)

/-- The products of output element (image, oy, ox, co), by reduction index ρ (R356). -/
def convTerms (p : ConvShape) (x w : Tensor) (cx cw : Codes × Codes) (img oy ox co : Nat) : List (Option (Elem × Elem)) :=
  let cg := x.width / p.groups
  let gr := co / (w.rows / p.groups)
  let gs := stepWidth x.fmt w.fmt
  let cpad := ceilDiv cg gs * gs
  (List.range (p.kh * p.kw * cpad)).map fun r =>
    let t := r / cpad
    let ci := r % cpad
    if cg ≤ ci then none
    else match tapAt oy p.sh p.padT (t / p.kw) p.dh p.h, tapAt ox p.sw p.padL (t % p.kw) p.dw p.w with
      | some iy, some ix =>
        some (elemAt x cx ((img * p.h * p.w + iy * p.w + ix) * x.width + gr * cg + ci),
              elemAt w cw (co * w.width + t * cg + ci))
      | _, _ => none

/-- The rows of the output: the pixels, and +0 in every later row (R354, R356). -/
def State.convRows (s : State) (c : Cmd) (x w y : Tensor) : State × List Write × Flags :=
  let p := convShape c
  let mode := ArithMode.ofWord c.latch.mode
  let cx := s.operand c x
  let cw := s.operand c w
  let per := p.hout * p.wout
  let n := p.images * per
  (List.range y.rows).foldl (fun acc r =>
    let cols := (List.range y.width).map fun co =>
      (co, if r < n then
          dotAbsentParts mode x.fmt w.fmt (s.kParts c)
            (convTerms p x w cx cw (r / per) (r % per / p.wout) (r % p.wout) co) (accInit c.cAccIn y.data (r * y.width + co))
        else (vzero, Flags.none))
    let row := cols.map fun e => (e.1, e.2.1)
    let acc := (acc.1, acc.2.1, cols.foldl (fun f e => f.or e.2.2) acc.2.2)
    if c.cAccOut then
      (acc.1, acc.2.1 ++ row.map fun e => (⟨y.handle, false, r * y.width + e.1, fp32.encode e.2⟩ : Write), acc.2.2)
    else State.outputRow (mode.stochastic && decide (r < n)) y r r row acc) (s, [], Flags.none)

/-- RESULT of the product opcodes (R363): flags, HOUT, WOUT and the groves that used their engine. -/
def convResult (c : Cmd) (f : Flags) (engines : Nat) : Nat :=
  let p := convShape c
  resultOf f.code 0 0 (p.hout % 65536 + p.wout % 65536 * 65536) engines 0

/-- Steps of each column tile in a convolution: KH × KW × ⌈CG ÷ Gs⌉ (R358). -/
def ConvShape.steps (p : ConvShape) (x w : Tensor) : Nat :=
  p.kh * p.kw * ceilDiv (x.width / p.groups) (stepWidth x.fmt w.fmt)

/-- A convolution on the arrays: a core's share takes P = ⌈COUT ÷ 128⌉ × KH × KW × ⌈CG ÷ Gs⌉ passes of its output pixel rows,
each followed by a swap (R358). -/
def State.conv (s : State) (env : Env) (c : Cmd) : State :=
  match s.convFault c, s.tensor (c.par 32 4), s.tensor (c.par 36 4), s.tensor (c.par 40 4) with
  | some d, _, _, _ => s.finish c.id (Outcome.bad d)
  | none, some x, some w, some y => s.withSaves c fun s =>
    let r := s.convRows c x w y
    let p := convShape c
    (r.1.arraysRan c r.2.2 (p.images * p.hout * p.wout) w.rows (p.steps x w)
      (termCount c x.fmt w.fmt) true).complete env c 0x0108 r.2.1 (Outcome.ok (convResult c r.2.2 0))
  | none, _, _, _ => s.finish c.id (Outcome.bad 0x0100)

/-- CONV (R357): GROUPS 1. -/
def execConv (n : Nat) (env : Env) (s : State) : Host.Outcome State Fault Refusal :=
  .next (s.work n 0x0A01 fun c s => s.conv env c)

/-- CONV_GROUPED (R357). -/
def execConvGrouped (n : Nat) (env : Env) (s : State) : Host.Outcome State Fault Refusal :=
  .next (s.work n 0x0A02 fun c s => s.conv env c)

/-! ### Global average pooling (R359) -/

/-- The mean of one image and channel: partial sums of each logical core in pixel order, combined by core. -/
def State.poolMean (s : State) (x : Tensor) (cx : Codes × Codes) (per img ch : Nat) (f : Flags) : VF :=
  let rows := (List.range per).map (img * per + ·)
  let groups := rows.splitBy fun a b => s.coreOfToken a = s.coreOfToken b
  let r := groups.foldl (fun (a : Option Sum2 × Flags) g =>
    let l := laneSum (g.map fun p => elemVal x cx (p * x.width + ch)) a.2
    match a.1 with
    | none => (some l.1, l.2)
    | some q => let k := combine q l.1 l.2; (some k.1, k.2)) (none, f)
  quotient (r.1.getD Sum2.zero) per r.2

/-- The checks of GLOBAL_AVG_POOL. -/
def State.poolFault (s : State) (c : Cmd) : Option Nat :=
  match s.tensor (c.par 32 4), s.tensor (c.par 36 4) with
  | some x, some y =>
    let per := c.par 40 2 * c.par 42 2
    firstFault [
      (decide (y.fmt ≠ 0), 0x0101),
      (decide (per = 0 ∨ c.par 44 4 = 0) || decide (x.role ≠ 0 ∨ y.role ≠ 6) || decide (x.rows < c.par 44 4 * per) ||
        decide (y.size ≠ c.par 44 4 * x.width), 0x0103)]
  | _, _ => some 0x0100

/-- GLOBAL_AVG_POOL (R359). -/
def execGlobalAvgPool (n : Nat) (env : Env) (s : State) : Host.Outcome State Fault Refusal :=
  .next (s.work n 0x0A03 fun c s =>
    match s.poolFault c, s.tensor (c.par 32 4), s.tensor (c.par 36 4) with
    | some d, _, _ => s.finish c.id (Outcome.bad d)
    | none, some x, some y =>
      let cx := s.operand c x
      let per := c.par 40 2 * c.par 42 2
      let r := (List.range y.size).foldl (fun (a : List Write × Flags) i =>
        let m := s.poolMean x cx per (i / x.width) (i % x.width) a.2
        (a.1 ++ [⟨y.handle, false, i, fp32.encode m.1⟩], m.2)) ([], Flags.none)
      (s.raiseFlags r.2 true).complete env c 0x0108 r.1 (Outcome.ok (r.2.code % 8))
    | none, _, _ => s.finish c.id (Outcome.bad 0x0100))

/-! ### The Margin engines (R360, R361) -/

/-- MARGIN_LAYER (R360, R361): the result of R356, on the engine of each grove with a share, or on its arrays where
MARGIN_STATE as latched bypasses or faults the engine, which then count its passes. `fault` is a grove whose engine faults
meanwhile. The flags of the engines are raised in the arrays of the layer's cores (log 136, DESIGN CHOICE: the spec gives the
engines no flag register). -/
def execMarginLayer (n : Nat) (env : Env) (fault : Option Nat) (s : State) : Host.Outcome State Fault Refusal :=
  .next (s.work n 0x0A04 fun c s =>
    match s.convFault c, s.tensor (c.par 32 4), s.tensor (c.par 36 4), s.tensor (c.par 40 4) with
    | some d, _, _, _ => s.finish c.id (Outcome.bad d)
    | none, some x, some w, some y => s.withSaves c fun s =>
      let p := convShape c
      let st := c.latch.extra.getD 0 0
      let groves := s.shareGroves (p.images * p.hout * p.wout)
      let engines := groves.filter fun g => bit st g = 0 ∧ bit st (8 + g) = 0
      let s := s.addSat Reg.marginCount 63 32 engines.length
      let s := s.addSat Reg.marginCount 31 0 (groves.length - engines.length)
      let r := s.convRows c x w y
      let rows := p.images * p.hout * p.wout
      let s := r.1.raiseAt (((s.sharedBy rows).map s.coresOf).flatten) r.2.2 false
      let s := s.countPasses (fun k => ! engines.contains (k / 1024)) rows w.rows (p.steps x w) (termCount c x.fmt w.fmt) true
      let result := convResult c r.2.2 (engines.foldl (fun a g => a + 2 ^ g) 0)
      match fault.filter engines.contains with
      | some g =>
        let s := (s.corrections env).setFld Reg.marginState (8 + g) (8 + g) 1
        let marks := s.outMarks c
        ((s.writeSome r.2.1).markOutputs c marks).finish c.id ⟨stAborted, 0x0107, result⟩
      | none => s.complete env c 0x0108 r.2.1 (Outcome.ok result)
    | none, _, _, _ => s.finish c.id (Outcome.bad 0x0100))

/-- MARGIN_BYPASS (R361): a write of MARGIN_STATE; the commands dispatched later read it. -/
def execMarginBypass (v : Nat) (s : State) : Host.Outcome State Fault Refusal :=
  .next (s.whenUp fun s => s.setFld Reg.marginState 3 0 v)

end Sys2Proof.Machine
end

