-- ==== Sys2Proof/Machine/Feeder.lean ====
section
/-! DEFINITION. The Feeder (13_feeder.md): streams, the order of samples, decoding, packing, the skip log, the sheet
cache and the workers. -/

namespace Sys2Proof.Machine

/-- An open stream. -/
def State.stream (s : State) (n : Nat) : Option FeedStream := s.feed.streams.find? fun x => x.number = n

/-- A stream changed. -/
def State.updStream (s : State) (n : Nat) (f : FeedStream → FeedStream) : State :=
  { s with feed := { s.feed with streams := s.feed.streams.map fun x => if x.number = n then f x else x } }

/-! ### Order (R341, R342) -/

/-- Round keys of the network. -/
def feedKey (seed epoch r : Nat) : Nat := sm64 (seed ^^^ sm64 ((epoch * 4 + r) % 2 ^ 64))

/-- feistel of R341. -/
def feistel (seed epoch h x : Nat) : Nat :=
  let p := (List.range 4).foldl (fun (p : Nat × Nat) r => (p.2, p.1 ^^^ (sm64 (feedKey seed epoch r ^^^ p.2) % 2 ^ h)))
    (x / 2 ^ h, x % 2 ^ h)
  p.1 * 2 ^ h + p.2

/-- Cycle-walking: the network again until the value is below the count. -/
def walk (f : Nat → Nat) (bound : Nat) : Nat → Nat → Nat
  | 0, x => x
  | fuel + 1, x => let y := f x; if y < bound then y else walk f bound fuel y

/-- perm of R341, over `n` entries. -/
def perm (seed epoch n q : Nat) : Nat :=
  if n ≤ 1 then 0
  else let h := ((n - 1).log2 + 2) / 2
    walk (feistel seed epoch h) n (2 ^ (2 * h)) q

/-- The manifest entry that an order position names. -/
def FeedStream.index (x : FeedStream) (q : Nat) : Nat := if x.shuffled then perm x.seed x.epoch x.entries q else q

/-! ### Decoding (R336 to R340, R344) -/

/-- The tokens of a token-shard record, or a skip reason (R338). -/
def tokenRecord (r : List Byte) (vocab : Nat) : Except Nat (List Nat) :=
  let tb := fieldAt r 3 1
  let n := fieldAt r 4 4
  let body := r.drop 16
  if r.length < 16 ∨ fieldAt r 0 2 ≠ 0x5453 ∨ fieldAt r 2 1 ≠ 1 ∨ (tb ≠ 2 ∧ tb ≠ 4) ∨ fieldAt r 12 4 ≠ 0 ∨
      r.length ≠ 16 + n * tb then .error 0x01
  else if crc32 body ≠ fieldAt r 8 4 then .error 0x02
  else
    let l := (List.range n).map fun i => fieldAt body (tb * i) tb
    if vocab ≠ 0 ∧ l.any (fun t => vocab ≤ t) then .error 0x03
    else if 2 ^ 24 ≤ n then .error 0x0A
    else if n = 0 then .error 0x0B
    else .ok l

/-- cos(j π / 16) as a fixed-point number; 0 and 1 are exact. -/
def cosStep (j : Nat) : Int :=
  let j := min (j % 32) (32 - j % 32)
  if j = 8 then 0 else if j < 8 then fxCos (fxPi * j / 16) else -fxCos (fxPi * (16 - j) / 16)

/-- The sample at (x, y) of a block of 64 coefficients, by T.81's IDCT, level-shifted, rounded to nearest with ties upward
and clamped (R340). With C(0) = cos(4π/16), every product of cosines is half a sum of cosines of multiples of π/16; the sums
are integers times eight independent reals, so 240 bits tell every sample that is no tie from one. -/
def idctSample (l : List Int) (x y : Nat) : Nat :=
  let angle := fun (x u : Nat) => if u = 0 then 4 else (2 * x + 1) * u
  let sum := (List.range 64).foldl (fun a i =>
    let p := angle x (i % 8)
    let q := angle y (i / 8)
    a + l.getD i 0 * (cosStep (p + q) + cosStep (p + 128 - q))) 0
  (max 0 (min 255 ((sum + 1028 * fxOne) / (8 * fxOne)))).toNat

/-- The sample of a component that a pixel takes: subsampled components are replicated (R340). -/
def planeSample (p : JpegPlane) (row col : Nat) : Nat :=
  let r := row / max 1 p.stepY
  let c := col / max 1 p.stepX
  idctSample (p.blocks.getD (r / 8 * p.blockCols + c / 8) []) (c % 8) (r % 8)

/-- A real sample rounded to nearest with ties upward, and clamped to a byte (R340). -/
def pixelOf (x : Rat) : Nat := (max 0 (min 255 (x + 1 / 2).floor)).toNat

/-- One pixel of an image from its component samples: R, G and B by the JFIF equations, or Y (R340). -/
def pixel (imgC : Nat) (l : List Nat) : List Nat :=
  match l with
  | [y, cb, cr] =>
    if imgC = 1 then [y]
    else
      let b : Rat := (cb : Rat) - 128
      let r : Rat := (cr : Rat) - 128
      [pixelOf (y + 1402 / 1000 * r), pixelOf (y - 34414 / 100000 * b - 71414 / 100000 * r), pixelOf (y + 1772 / 1000 * b)]
  | l => List.replicate imgC (l.headD 0)

/-- The content of an image, or a skip reason (R340, R344). -/
def imageContent (x : FeedStream) (b : List Byte) : Except Nat (List Byte) :=
  match Config.jpeg b with
  | .error true => .error 0x07
  | .error false => .error 0x06
  | .ok (h, w, planes) =>
    if h ≠ x.imgH ∨ w ≠ x.imgW then .error 0x08
    else .ok (((List.range (h * w)).map fun i =>
      (pixel x.imgC (planes.map fun p => planeSample p (i / w) (i % w))).map (BitVec.ofNat 8)).flatten)

/-- Whether a manifest entry is one the stream may take (R337). -/
def entryOk (x : FeedStream) (e : List Byte) : Bool :=
  let k := fieldAt e 12 1
  (if x.imgC = 0 then decide (k = 0 ∨ k = 1) else decide (k = 2)) &&
  decide (fieldAt e 13 1 < 2 ∧ fieldAt e 14 2 = 0 ∧ fieldAt e 20 12 = 0)

/-- The check of the decoded content that an entry asks for (R336). -/
def contentOk (e d : List Byte) : Bool := decide (bit (fieldAt e 13 1) 0 = 0) || decide (crc32 d = fieldAt e 16 4)

/-- The decoded content of a sample: a function of its manifest entry and its bytes alone (R338 to R340, R344). -/
def decodeSample (x : FeedStream) (e b : List Byte) : Sample :=
  if ! entryOk x e then .skip 0x09
  else if x.imgC = 0 then
    let r := if fieldAt e 12 1 = 0 then Except.ok b
      else match Config.zstd b with
        | .error true => .error 0x05
        | .error false => .error 0x04
        | .ok d => .ok d
    match r with
    | .error k => .skip k
    | .ok d => match tokenRecord d x.vocab with
      | .error k => .skip k
      | .ok l => if contentOk e (l.map (leBytes 4)).flatten then .tokens l else .skip 0x0C
  else match imageContent x b with
    | .error k => .skip k
    | .ok d => if contentOk e d then .image d else .skip 0x0C

/-! ### Packing (R346, R347) -/

/-- The loop of R346: the row, tokens filled in it, its segments; the tokens written so far, latest first, by token
of the whole: word, mark, position; and what was emitted: positions skipped with their index and reason, and the
samples to enter in the cache, latest first. -/
structure Pack where
  row : Nat
  f : Nat
  seg : Nat
  out : List (Nat × Nat × Nat × Nat)
  skips : List (Nat × Nat × Nat)
  used : List (Nat × Sample)
  hits : Nat
  late : Bool
  deriving DecidableEq, Repr

/-- close_row of R346; the padding is what is not written. -/
def Pack.close (p : Pack) : Pack := { p with row := p.row + 1, f := 0, seg := 0 }

/-- The tokens of a sample, from token `u`, into rows; the second part is true when the command's rows are full,
with the tokens left and the next token. -/
def packTokens (rows rt : Nat) : Nat → Pack → List Nat → Nat → Pack × Bool × List Nat × Nat
  | 0, p, l, u => (p, true, l, u)
  | fuel + 1, p, l, u =>
    if l.isEmpty then (p, false, [], u)
    else
      let c := min l.length (rt - p.f)
      let w := (l.take c).zipIdx.map fun t => (p.row * rt + p.f + t.2, t.1, p.seg, u + t.2)
      let p := { p with out := w.reverse ++ p.out, f := p.f + c }
      let rest := l.drop c
      let full := decide (p.f = rt)
      let p := if full then p.close else p
      if full ∧ p.row = rows then (p, true, rest, u + c)
      else
        let p := if full ∧ rest ≠ [] then { p with seg := 1 } else p
        let p := if p.seg = 65535 ∧ 0 < p.f then p.close else p
        packTokens rows rt fuel p rest (u + c)

/-- How the packing of a command stands: it needs a position that is not decoded, meets a source that could not be
read, or is complete with the next position and offset and whether the order has ended. -/
inductive Packed where
  | needs (pos : Nat)
  | stops (detail : Nat)
  | done (p : Pack) (pos off : Nat) (atEnd : Bool)
  deriving DecidableEq, Repr

/-- What is known of the sample at a position: its cache entry, unless that fails its check, or what was decoded
(R348, R349); true for a cache entry. -/
def FeedStream.sample (x : FeedStream) (badCache : List Nat) (q : Nat) : Option (Sample × Bool) :=
  let i := x.index q
  match (x.decoded.find? fun e => e.1 = q).map (·.2) with
  | some d => some (d, false)
  | none => if badCache.contains i then none else (x.cache.find? fun e => e.1 = i).map fun e => (e.2, true)

/-- Samples in order from a position and a token, packed into the rows of a command (R346, R347); `count` is the number
of entries of the order. The order has ended for a command that pads for want of samples (log 157, DEDUCED). -/
def FeedStream.pack (x : FeedStream) (badCache : List Nat) (count rows rt : Nat) : Nat → Pack → Nat → Nat → Packed
  | 0, _, q, _ => .needs q
  | fuel + 1, p, q, u =>
    if p.row = rows then .done p q u false
    else if count ≤ q then .done p q 0 true
    else match x.sample badCache q with
    | none => .needs q
    | some (d, cached) =>
      let i := x.index q
      let next := q + x.shardCount
      let before := p
      let p := { p with used := (i, d) :: p.used, hits := p.hits + ofBool cached }
      match d with
      | .bad k => .stops k
      | .skip k =>
        x.pack badCache count rows rt fuel { p with skips := (q, i, k) :: p.skips, late := p.late || decide (k = 0x0D) } next 0
      | .image b =>
        let n := ceilDiv b.length 4
        let w := (List.range n).map fun t => (p.row * rt + t, fieldAt b (4 * t) 4, 1, 0)
        let p := { p with out := w.reverse ++ p.out, row := p.row + 1 }
        if p.row = rows then .done p next 0 false else x.pack badCache count rows rt fuel p next 0
      | .tokens l =>
        let left := l.drop u
        let p := if x.pad ∧ u = 0 ∧ 0 < p.f ∧ rt - p.f < left.length then p.close else p
        if p.row = rows then .done { p with used := before.used, hits := before.hits } q u false
        else
          let r := packTokens rows rt (left.length + 1) { p with seg := p.seg + 1 } left u
          if r.2.1 then (if r.2.2.1.isEmpty then .done r.1 next 0 false else .done r.1 q r.2.2.2 false)
          else x.pack badCache count rows rt fuel r.1 next 0

/-! ### Running commands -/

/-- Whether a command of the Feeder dispatched before `c` works on the same stream and is not done. -/
def State.feedBusy (s : State) (c : Cmd) (p : Cmd → Bool) : Bool :=
  s.earlier c fun d => d.opcode / 256 = 9 ∧ d.par 32 1 = c.par 32 1 ∧ d.phase ≠ .done ∧ p d

/-- Commands that wait for an earlier one of their stream are reconsidered. -/
def State.wakeFeed (s : State) : State :=
  { s with cmd := { s.cmd with cmds := s.cmd.cmds.map fun c =>
      if c.phase = .waiting ∧ c.aux = [18] then { c with phase := .dispatched, aux := [] } else c } }

/-- A Feeder command ends, and those behind it go on. -/
def State.feedEnd (s : State) (n : Nat) (o : Outcome) : State := (s.finish n o).wakeFeed

/-- Whether every worker is bypassed (R350). -/
def State.noWorkers (s : State) : Bool :=
  (List.range 4).all fun g => (s.reg (Reg.feedWorkers g) ||| s.reg (Reg.feedFaults g)) = 2 ^ 64 - 1

/-- The entry count that bounds the order for a command: latched at its dispatch in a STRICT epoch (R343). -/
def FeedStream.count (x : FeedStream) (c : Cmd) : Nat := if x.shuffled then x.entries else c.latch.extra.getD 0 0

/-- FEED_STREAM_s, FEED_EPOCH_s, LOG_PENDING and FEED_CACHE_s as the stream stands (Table 13.15). -/
def sampleBytes : Sample → Nat
  | .tokens l => 4 * l.length + 8
  | .image b => b.length + 8
  | _ => 9

/-- Bytes of the sheet cache in use; an entry holds its content or its reason, and a CRC-64. -/
def FeedStream.cacheUsed (x : FeedStream) : Nat := (x.cache.map fun e => sampleBytes e.2).sum

/-- The stream's registers show the stream. -/
def State.showStream (s : State) (x : FeedStream) : State :=
  let st := if ! x.started then 1 else if (if x.shuffled then x.entries else s.fld (Reg.feedEntries x.number) 31 0) ≤ x.nextPos then 3 else 2
  let s := s.setReg (Reg.feedStream x.number)
    (x.nextPos % 2 ^ 32 * 2 ^ 32 + st * 2 ^ 30 + ofBool x.shuffled * 2 ^ 29 + ofBool x.deadline * 2 ^ 28 + x.nextOffset % 2 ^ 24)
  let s := s.setReg (Reg.feedEpoch x.number) x.epoch
  let s := s.setFld (Reg.feedSkips x.number) 12 0 x.log.length
  s.setReg (Reg.feedCache x.number) (x.cache.length % 2 ^ 32 * 2 ^ 32 + ceilDiv x.cacheUsed 1024)

/-- A stream put back, with its registers. -/
def State.putStream (s : State) (x : FeedStream) : State := (s.updStream x.number fun _ => x).showStream x

/-- A skip is logged and counted (R344); an entry that finds the log full is dropped. -/
def State.logSkip (s : State) (x : FeedStream) (e : Nat × Nat × Nat) : State × FeedStream :=
  let s := s.addSat (Reg.feedSkips x.number) 63 32 1
  if x.log.length < 4096 then (s, { x with log := x.log ++ [(x.epoch, e.1, e.2.1, e.2.2)] })
  else (s.addSat (Reg.feedSkips x.number) 31 16 1, x)

/-- A sample enters the sheet cache, if it may and fits (R349). -/
def FeedStream.enter (x : FeedStream) (e : Nat × Sample) : FeedStream :=
  if x.cacheGib = 0 ∨ e.2 = .skip 0x0D ∨ (x.cache.any fun y => y.1 = e.1) ∨
      2 ^ 30 * x.cacheGib < x.cacheUsed + sampleBytes e.2 then x
  else { x with cache := x.cache ++ [e] }

/-- The rows of a complete FEED_ROWS are written, and the stream stands after them (R346, R347, R352). -/
def State.emit (s : State) (c : Cmd) (x : FeedStream) (p : Pack) (pos off : Nat) (atEnd : Bool) : State :=
  let marks := s.outMarks c
  let l := p.out.reverse
  let put := fun (s : State) h k (f : Nat × Nat × Nat × Nat → Nat) => match s.tensor h with
    | some t => s.writeData h fun _ => l.foldl (fun d w => setTensorBytes t (leBytes k (f w)) (k * w.1) d) []
    | none => s
  let s := put s (c.par 36 4) 4 fun w => w.2.1
  let s := put s (c.par 40 4) 2 fun w => w.2.2.1
  let s := if x.imgC = 0 ∧ c.par 44 4 ≠ noHandle then put s (c.par 44 4) 4 fun w => w.2.2.2 else s
  let s := s.markOutputs c marks
  let r := p.skips.reverse.foldl (fun (r : State × FeedStream) e => r.1.logSkip r.2 e) (s, x)
  let x := p.used.reverse.foldl FeedStream.enter r.2
  let x := { x with nextPos := pos, nextOffset := off, decoded := x.decoded.filter fun e => pos ≤ e.1 }
  let s := (r.1.addSat Reg.feedEvents 63 32 p.hits).putStream x
  s.feedEnd c.id (Outcome.ok (resultWords (c.par 48 4) p.skips.length pos
    (off % 2 ^ 24 + ofBool atEnd * 2 ^ 24 + ofBool p.late * 2 ^ 25)))

/-- How the packing of a command stands. -/
def FeedStream.progress (x : FeedStream) (c : Cmd) : Packed :=
  x.pack c.aux.tail (x.count c) (c.par 48 4) (c.par 52 4) (x.decoded.length + x.cache.length + 2)
    ⟨0, 0, 0, [], [], [], 0, false⟩ x.nextPos x.nextOffset

/-- A FEED_ROWS goes as far as what is decoded allows: it ends, or waits for the sample that heads the window. -/
def State.feedAdvance (s : State) (c : Cmd) : State :=
  if s.noWorkers then s.feedEnd c.id (Outcome.aborted 0x0108)
  else match s.stream (c.par 32 1) with
  | none => s.feedEnd c.id (Outcome.bad 0x0101)
  | some x => match x.progress c with
    | .needs _ => s
    | .stops d =>
      ((s.updStream x.number fun x => { x with decoded := x.decoded.filter fun e => e.2 ≠ .bad d }).feedEnd c.id
        (Outcome.aborted d))
    | .done p pos off atEnd => s.emit c x p pos off atEnd

/-- The FEED_ROWS of a stream that waits for samples. -/
def State.feedRunning (s : State) (stream : Nat) : Option Cmd :=
  s.cmd.cmds.find? fun c => c.phase = .waiting ∧ c.opcode = 0x0903 ∧ c.par 32 1 = stream ∧ c.aux.head? = some 19

/-- The order position that heads a stream's window: the one its running FEED_ROWS needs, or its next. -/
def State.windowHead (s : State) (x : FeedStream) : Nat :=
  match s.feedRunning x.number with
  | some c => match x.progress c with
    | .needs q => q
    | _ => x.nextPos
  | none => x.nextPos

/-- The running FEED_ROWS of a stream is advanced. -/
def State.feedResume (s : State) (stream : Nat) : State :=
  match s.feedRunning stream with
  | some c => s.feedAdvance c
  | none => s

/-! ### Opcodes (R351, R352) -/

/-- FEED_OPEN (R336, R349). -/
def execFeedOpen (n : Nat) (s : State) : Host.Outcome State Fault Refusal :=
  .next (s.work n 0x0901 fun c s =>
    let k := c.par 32 1
    let imgC := c.par 35 1
    let cached := decide (bit (c.par 33 1) 0 = 1)
    let gib := if cached then c.par 34 1 else 0
    match firstFault [
      (decide (4 ≤ k) || (s.stream k).isSome, 0x0101),
      (decide (imgC ≠ 0 ∧ imgC ≠ 1 ∧ imgC ≠ 3) || (decide (imgC ≠ 0) && decide (c.par 52 2 = 0 ∨ c.par 54 2 = 0)), 0x0103),
      (decide (c.par 36 8 % 32 ≠ 0 ∨ c.par 44 4 = 0), 0x0104),
      (cached && decide (gib = 0 ∨ 64 < gib), 0)] with
    | some d => s.finish c.id (Outcome.bad d)
    | none =>
      let need := pagesFor (gib * 2 ^ 30)
      if s.freePages < need then s.finish c.id (Outcome.noSpace 0x0105)
      else
        let p := State.takePages need s []
        let x : FeedStream :=
          { number := k, imgC := imgC, imgH := c.par 52 2, imgW := c.par 54 2, manifest := c.par 36 8,
            vocab := c.par 48 4, cacheGib := gib, cachePages := p.1, started := false, shuffled := false,
            deadline := false, pad := false, epoch := 0, seed := 0, entries := 0, shardCount := 1, shardIndex := 0,
            nextPos := 0, nextOffset := 0, decoded := [], log := [], cache := [] }
        let s := { p.2 with feed := { p.2.feed with streams := p.2.feed.streams ++ [x] } }
        let s := (s.setReg (Reg.feedEntries k) (c.par 44 4)).showStream x
        s.finish c.id (Outcome.ok (resultWords 0 (c.par 44 4) 0 0)))

/-- FEED_EPOCH (R341, R342): it waits for the FEED_ROWS of its stream dispatched before it. -/
def execFeedEpoch (n : Nat) (s : State) : Host.Outcome State Fault Refusal :=
  .next (s.work n 0x0902 fun c s =>
    if s.feedBusy c fun d => d.opcode = 0x0903 then s.park c.id [18]
    else match s.stream (c.par 32 1) with
    | none => s.finish c.id (Outcome.bad 0x0101)
    | some x =>
      let count := c.latch.extra.getD 0 0
      let sc := c.par 48 4
      let si := c.par 52 4
      let pos := c.par 56 4
      if sc = 0 ∨ 65536 < sc ∨ sc ≤ si ∨ pos % sc ≠ si ∨ count ≤ pos then s.finish c.id (Outcome.bad 0x0103)
      else if 1 < c.par 33 1 then s.finish c.id (Outcome.bad 0)
      else
        let x := { x with
          started := true, shuffled := decide (c.par 33 1 = 1), deadline := decide (bit (c.par 34 1) 0 = 1),
          pad := decide (bit (c.par 34 1) 1 = 1), epoch := c.par 36 4, seed := c.par 40 8, entries := count,
          shardCount := sc, shardIndex := si, nextPos := pos, nextOffset := c.par 60 3, decoded := [] }
        (s.putStream x).feedEnd c.id (Outcome.ok (resultWords 0 count 0 0)))

/-- Whether a handle names a declared BUFFER tensor. -/
def State.isBuffer (s : State) (h : Nat) : Bool := (s.tensor h).any fun t => t.role = 6

/-- The checks of FEED_ROWS (R346, R347, Table 13.10). -/
def State.rowsFault (s : State) (c : Cmd) : Option Nat :=
  let total := c.par 48 4 * c.par 52 4
  let size := fun h k => (s.tensor h).any fun t => t.byteLen ≠ k * total
  let x := s.stream (c.par 32 1)
  firstFault [
    (! s.isBuffer (c.par 36 4) || ! s.isBuffer (c.par 40 4) ||
      (decide (c.par 44 4 ≠ noHandle) && ! s.isBuffer (c.par 44 4)), 0x0100),
    (x.isNone, 0x0101),
    (x.any fun x => ! x.started, 0x0102),
    (decide (c.par 48 4 = 0 ∨ c.par 52 4 < 64 ∨ 1048576 < c.par 52 4 ∨ c.par 52 4 % 64 ≠ 0) ||
      size (c.par 36 4) 4 || size (c.par 40 4) 2 || (decide (c.par 44 4 ≠ noHandle) && size (c.par 44 4) 4) ||
      x.any fun x => 4 * c.par 52 4 < x.imgH * x.imgW * x.imgC, 0x0103)]

/-- FEED_ROWS (R346 to R348): it runs after the commands of its stream dispatched before it, and ends when every row is
packed; `bad` lists the manifest indices whose cache entries fail their CRC (R349). -/
def execFeedRows (n : Nat) (bad : List Nat) (s : State) : Host.Outcome State Fault Refusal :=
  .next (s.work n 0x0903 fun c s =>
    if s.feedBusy c fun d => d.opcode = 0x0903 ∨ d.opcode = 0x0902 then s.park c.id [18]
    else match s.rowsFault c with
    | some d => s.feedEnd c.id (Outcome.bad d)
    | none =>
      let failing := match s.stream (c.par 32 1) with
        | some x => bad.filter fun i => x.cache.any fun e => e.1 = i
        | none => []
      let s := (s.addSat Reg.feedEvents 31 16 failing.length).park c.id (19 :: failing)
      match s.cmdOf c.id with
      | some c => s.feedAdvance c
      | none => s)

/-- FEED_SKIP_LOG (R344): the oldest entries are copied, and removed with CONSUME. -/
def execFeedSkipLog (n : Nat) (s : State) : Host.Outcome State Fault Refusal :=
  .next (s.work n 0x0904 fun c s => match s.stream (c.par 32 1) with
    | none => s.finish c.id (Outcome.bad 0x0101)
    | some x =>
      if c.par 40 8 % 16 ≠ 0 ∨ c.par 48 4 = 0 ∨ 4096 < c.par 48 4 then s.finish c.id (Outcome.bad 0)
      else
        let l := x.log.take (c.par 48 4)
        let left := if bit (c.par 33 1) 0 = 1 then x.log.drop l.length else x.log
        let d := (l.map fun e => leBytes 4 e.1 ++ leBytes 4 e.2.1 ++ leBytes 4 e.2.2.1 ++ leBytes 4 e.2.2.2).flatten
        let t := s.deliver c (c.par 40 8) d (resultWords l.length left.length 0 0) 0
        if (t.cmdOf c.id).any fun c => c.phase = .done ∧ c.status = stAborted ∨ c.aux = [4] ∨ c.aux = [30] then t
        else t.putStream { x with log := left })

/-- FEED_CLOSE (R351, Table 13.4): it waits for the commands of its stream dispatched before it. -/
def execFeedClose (n : Nat) (s : State) : Host.Outcome State Fault Refusal :=
  .next (s.work n 0x0905 fun c s =>
    if s.feedBusy c fun _ => true then s.park c.id [18]
    else match s.stream (c.par 32 1) with
    | none => s.finish c.id (Outcome.bad 0x0101)
    | some x =>
      let s := (s.givePages x.cachePages)
      let s := { s with feed := { s.feed with streams := s.feed.streams.filter fun y => y.number ≠ x.number } }
      let s := (s.setReg (Reg.feedStream x.number) 0).setReg (Reg.feedEpoch x.number) 0
      let s := (s.setFld (Reg.feedSkips x.number) 12 0 0).setReg (Reg.feedCache x.number) 0
      s.feedEnd c.id (Outcome.ok (resultWords 0 (x.cacheGib * 2 ^ 20) 0 0)))

/-! ### The workers (R348, R350) -/

/-- Bytes of a fabric address as a worker reads them: this node's memory, or what came from another node. An address of
this node outside its memory is a fabric fault, which ends the command ABORTED (11 R304). -/
def State.feedBytes (s : State) (env : Env) (a n : Nat) (given : List Byte) : State × Except Nat (List Byte) :=
  if nodeOf a = s.node ∧ (rangeIn .hbm (localOf a) n ∨ rangeIn .window (localOf a) n) then
    match s.readStop (localOf a) n with
    | .none => (s, .ok (s.shownBytes (localOf a) n))
    | x => (s.stopEffect x, .error 0x0106)
  else if nodeOf a = s.node then (s.fabricErr ((s.rangeFault a n).getD faultAddrRange) s.node a, .error 0)
  else if env.lost then (s, .error 0x0107)
  else (s, .ok (given.take n))

/-- Whether reading a range of this node's memory waits: its stack admits no granule, or its page is being moved (10 R273,
R283). -/
def State.feedStalled (s : State) (a n : Nat) : Bool := decide (nodeOf a = s.node) && s.stalledRange (localOf a) n

/-- DECODE_DONE (R348): a worker has decoded the sample at a position of the member's order within the window. `entry`
and `bytes` are the manifest entry and the stored bytes where they came from another node. A worker whose source waits has
not decoded it. -/
def execDecodeDone (stream pos : Nat) (entry bytes : List Byte) (env : Env) (s : State) :
    Host.Outcome State Fault Refusal :=
  .next (match s.stream stream with
    | none => s
    | some x =>
      let head := s.windowHead x
      let count := if x.shuffled then x.entries else s.fld (Reg.feedEntries x.number) 31 0
      let at_ := x.manifest + 32 * x.index pos
      if ! x.started || x.decoded.any (fun e => e.1 = pos) || s.noWorkers || s.feedStalled at_ 32 ||
          decide (pos < head ∨ count ≤ pos ∨ pos % x.shardCount ≠ x.shardIndex ∨ 4096 * x.shardCount < pos - head) then s
      else
        let e := (s.corrections env).feedBytes env at_ 32 entry
        let put := fun (r : State × Sample) =>
          (r.1.updStream x.number fun x => { x with decoded := x.decoded ++ [(pos, r.2)] }).feedResume x.number
        match e.2 with
        | .error d => put (e.1, Sample.bad d)
        | .ok e32 =>
          if s.feedStalled (fieldAt e32 0 8) (fieldAt e32 8 4) then s
          else
            let b := e.1.feedBytes env (fieldAt e32 0 8) (fieldAt e32 8 4) bytes
            match b.2 with
            | .error d => put (b.1, Sample.bad d)
            | .ok d => put (b.1, decodeSample x e32 d))

/-- DEADLINE (R348): the sample at the head of the window has been there for DEADLINE_US without being decoded. -/
def execDeadline (stream : Nat) (s : State) : Host.Outcome State Fault Refusal :=
  .next (match s.stream stream with
    | none => s
    | some x =>
      let q := s.windowHead x
      let count := if x.shuffled then x.entries else s.fld (Reg.feedEntries x.number) 31 0
      if ! x.started || ! x.deadline || decide (count ≤ q) || x.decoded.any (fun e => e.1 = q) then s
      else (s.updStream x.number fun x => { x with decoded := x.decoded ++ [(q, .skip 0x0D)] }).feedResume x.number)

/-- Every waiting FEED_ROWS is aborted when no worker is left (R350). -/
def State.checkWorkers (s : State) : State :=
  if s.noWorkers then (List.range 4).foldl State.feedResume s else s

/-- WORKER_FAULT (R350): the worker's bit is set, and its sample stays to be decoded by another. -/
def execWorkerFault (grove worker : Nat) (s : State) : Host.Outcome State Fault Refusal :=
  let off := Reg.feedFaults (grove % 4)
  .next (((s.setFld off (worker % 64) (worker % 64) 1).addSat Reg.feedEvents 15 0 1).checkWorkers)

/-- WORKER_BYPASS (R350): a write of FEED_WORKERS_g. -/
def execWorkerBypass (grove v : Nat) (s : State) : Host.Outcome State Fault Refusal :=
  .next (s.whenUp fun s => (s.setReg (Reg.feedWorkers (grove % 4)) v).checkWorkers)

/-- A write of FEED_ENTRIES_s only raises the count (R343). -/
def State.writeEntries (s : State) (stream v : Nat) : State :=
  let off := Reg.feedEntries stream
  let s := if s.fld off 31 0 < v % 2 ^ 32 then s.setFld off 31 0 v else s
  match s.stream stream with
  | some x => s.showStream x
  | none => s

end Sys2Proof.Machine
end

