-- ==== Sys2Proof/Machine/Writes.lean ====
section
/-! DEFINITION. Register writes with their effects (00_scope.md R9; the rule of each register's chapter): the one
operation by which every agent writes a register, and the rows that write or read one by its offset. -/

namespace Sys2Proof.Machine

/-- A write of 1 to bits of GCL_IRQ_ACK (15 R378): the vectors are no longer pending; one whose cause arose again after
the send is sent again. -/
def State.ackIrq (s : State) (v : Nat) : State :=
  (List.range 17).foldl (fun s i =>
    if bit v i = 1 ∧ bit (s.reg Reg.gclIrqAck) i = 1 then
      let s := s.setReg Reg.gclIrqAck (putBits (s.reg Reg.gclIrqAck) i i 0)
      if s.gcl.irqMore.contains i then
        { s with gcl := { s.gcl with irqMore := s.gcl.irqMore.erase i } }.irqSend i
      else s
    else s) s

/-- Whether the ETH registers of a link apply: a port in E100, the lower link of a ganged pair (Table 11.22). -/
def State.ethApplies (s : State) (n : Nat) : Bool :=
  let m := s.fld (Reg.linkCfg n) 31 30
  decide (m = 2) || (decide (m = 3) && decide (n % 2 = 0))

/-- Whether a register stays available while ACLK is stopped (19 R446). -/
def isUnderstory (off : Nat) : Bool :=
  decide (off = Reg.resetCtrl ∨ off = Reg.resetCause ∨ off = Reg.bootStatus ∨ off = Reg.alarmState ∨
    off = Reg.moduleInput ∨ off = Reg.coldPlate ∨ off = Reg.moduleStraps) || inFamily off 0x200100 8 4

/-- A write of `v`, placed at a register's bit 0, to its bytes `first` to `first + count − 1`, with its effect. -/
def State.writeReg (s : State) (off first count v : Nat) : State :=
  let low := decide (first = 0)
  if ! s.pwr.powered || (s.pwr.held && ! isUnderstory off) then s
  else if inFamily off 0x10000 0x40 16 then s.writeRingCfg ((off - 0x10000) / 0x40) first count v
  else if inFamily off 0x10008 0x40 16 then s.writeReplyCfg ((off - 0x10008) / 0x40) first count v
  else if inFamily off 0x10010 0x40 16 then s.doorbell ((off - 0x10010) / 0x40) (v % 65536)
  else if inFamily off 0x10014 0x40 16 then s.replyHead ((off - 0x10014) / 0x40) (v % 65536)
  else if off = Reg.arithFlagsSummary then s.clearArrayFlags v
  else if off = Reg.hbmMapOut then s.mapOut v
  else if off = Reg.collAbort then (s.abortStep (v % 2 ^ 32)).collWake
  else if inFamily off 0xD0020 8 4 then (s.writeSpan off first count v).checkWorkers
  else if inFamily off 0xD0110 0x40 4 then s.writeEntries ((off - 0xD0110) / 0x40) v
  else if off = Reg.gclIrqAck then s.ackIrq v
  else if off = Reg.gclCohBase ∨ off = Reg.gclCohSize then
    if s.imp.cur.isSome then s.gclErrSet 3 else s.writeSpan off first count v
  else if off = Reg.resetCtrl then s.writeResetCtrl v
  else if off = Reg.aclkCap then s.writeAclkCap v
  else if off = Reg.proofState then if low && decide (bit v 31 = 1) then s.releaseImage else s
  else if inFamily off 0x240000 8 8192 ∨ off = Reg.nodeMapBase then (s.writeSpan off first count v).launchWaiting
  else if inFamily off 0xB1028 0x40 64 then
    if s.ethApplies ((off - 0xB1028) / 0x40) then s.writeSpan off first count v else s
  else if inFamily off 0xB1030 0x40 64 then
    if s.ethApplies ((off - 0xB1030) / 0x40) then s.writeSpan off first count v else s
  else s.writeSpan off first count v

/-- A write of `n` bytes of `v` at offset `o`: each register it covers is written (R9, R280). -/
def State.regWrite (s : State) (o n v : Nat) : State :=
  (regSpans o n).foldl (fun s x =>
    s.writeReg x.1 x.2.1 x.2.2 ((v / 2 ^ (8 * (x.1 + x.2.1 - o))) * 2 ^ (8 * x.2.1))) s

/-- Whether an access to the register region is permitted (R280). -/
def regAccessOk (o n : Nat) : Bool := (decide (n = 4) || decide (n = 8)) && decide (o % n = 0) && decide (o + n ≤ 0x1000000)

/-- The register access of a READ_REG or WRITE_REG, made in the ACLK of its dispatch (02 R62); the RC fields within the
bytes read are cleared, and the value read is kept for the reply. -/
def State.regAtDispatch (s : State) (c : Cmd) : State :=
  let o := c.par 32 4
  let n := c.par 36 1
  if (c.opcode ≠ 0x0102 ∧ c.opcode ≠ 0x0103) ∨ (regOperandFault o n).isSome then s
  else if c.opcode = 0x0102 then
    let r := s.readReg o n
    r.2.updCmd c.id fun c => { c with latch := { c.latch with extra := [r.1] } }
  else s.regWrite o n (c.par 40 8 % 2 ^ (8 * n))

/-- DISPATCH (02 R51): the eligible command whose turn it is; none when no command is eligible. -/
def execDispatch (s : State) : Host.Outcome State Fault Refusal :=
  .next (match s.pickDispatch with
    | none => s
    | some c => (s.dispatchCmd c).regAtDispatch c)

/-- GCL_IRQ_ACK (15 R378). -/
def execGclIrqAck (v : Nat) (s : State) : Host.Outcome State Fault Refusal := .next (s.whenUp fun s => s.ackIrq v)

/-- REGISTER_WRITE (R9): a write of a value at an offset. -/
def execRegisterWrite (o n v : Nat) (s : State) : Host.Outcome State Fault Refusal :=
  .next (if regAccessOk o n then s.regWrite o n (v % 2 ^ (8 * n)) else s)

/-- READ_CLEAR (R9): a read at an offset; the RC fields within the bytes read are cleared. -/
def execReadClear (o n : Nat) (s : State) : Host.Outcome State Fault Refusal :=
  .next (s.whenUp fun s => if regAccessOk o n then (s.readReg o n).2 else s)

end Sys2Proof.Machine
end

