-- ==== Sys2Proof/Machine/Console.lean ====
section
/-! DEFINITION. The Colophon monitor, the SMBus port and JTAG (18_observability.md R432 to R435, 19_module.md R446). A
row of the monitor is one line that has arrived; its reply joins those sent. -/

namespace Sys2Proof.Machine

/-! ### The Colophon monitor (R432 to R434) -/

/-- How the monitor answers (R433, R434). -/
inductive Monitor where
  /-- the device is unpowered, in reset, or has not started the monitor yet -/
  | silent
  /-- on the master control sequencer -/
  | normal
  /-- in the boot ROM, after start-up has stopped -/
  | recovery
  deriving DecidableEq, Repr

/-- The monitor as it stands: Falosteo runs it from stage 4 on. -/
def State.monitor (s : State) : Monitor :=
  if ! s.pwr.powered || s.pwr.held then .silent
  else if s.boot.next = 0 then .recovery
  else if 5 ≤ s.boot.next then .normal else .silent

/-- An error whose code the spec does not give. -/
def State.replyOpen (s : State) : State := let f := s.free; f.2.reply (.err (f.1 % 256))

/-- Whether the monitor is locked (16 R396). -/
def State.locked (s : State) : Bool := s.fld Reg.secState 0 0 = 0

/-- A command of the normal monitor: `always` says whether a locked one accepts it. -/
def State.monitorCmd (s : State) (always : Bool) (f : State → State) : State :=
  match s.monitor with
  | .silent => s
  | .recovery => s.replyOpen
  | .normal => if s.locked && ! always then s.reply (.err 2) else f s

/-- A command of both modes. -/
def State.monitorAny (s : State) (f : State → State) : State := if s.monitor = .silent then s else f s

/-- A command of the recovery mode; a locked monitor answers it as any other that it does not accept. -/
def State.monitorRecovery (s : State) (f : State → State) : State :=
  match s.monitor with
  | .silent => s
  | .normal => if s.locked then s.reply (.err 2) else s.replyOpen
  | .recovery => f s

/-- COLOPHON_ID (R433). -/
def execColophonId (s : State) : Host.Outcome State Fault Refusal :=
  .next (s.monitorAny fun s =>
    s.reply (.ok [0x9400, 0xB0, if s.monitor = .recovery then 0 else s.reg Reg.deviceId, s.regView Reg.bootStatus]))

/-- COLOPHON_STATUS (R433). -/
def execColophonStatus (s : State) : Host.Outcome State Fault Refusal :=
  .next (s.monitorAny fun s =>
    s.reply (.ok [s.regView Reg.bootStatus, s.regView Reg.cmdStatus, s.regView Reg.alarmState, s.regView Reg.resetCause]))

/-- COLOPHON_NONCE (R433). -/
def execColophonNonce (s : State) : Host.Outcome State Fault Refusal :=
  .next (s.monitorCmd true fun s => s.reply (.ok [s.reg Reg.unlockNonce]))

/-- COLOPHON_UNLOCK (R396, R433): a token of the wrong length breaks the syntax, one that does not unlock fails its
check. -/
def execColophonUnlock (token : List Byte) (s : State) : Host.Outcome State Fault Refusal :=
  .next (s.monitorCmd true fun s =>
    if token.length ≠ tokenLen then s.reply (.err 1)
    else match s.unlock token with
      | .error _ => s.reply (.err 4)
      | .ok t => t.reply (.ok [t.regView Reg.secState]))

/-- COLOPHON_RESET (R417, R433): the reply, then a full reset with cause REGISTER. -/
def execColophonReset (s : State) : Host.Outcome State Fault Refusal :=
  .next (s.monitorAny fun s => (s.beginReset 5).reply (.ok []))

/-- The size of an access to a register by its offset alone: 8 bytes, or 4 where the offset is no multiple of 8; none
where there is no register. -/
def consoleSize (off : Nat) : Option Nat :=
  let n := if off % 8 = 0 then 8 else 4
  if regAccessOk off n && coversRegister off n then some n else none

/-- COLOPHON_RD (R433). -/
def execColophonRd (off : Nat) (s : State) : Host.Outcome State Fault Refusal :=
  .next (s.monitorCmd false fun s => match consoleSize off with
    | none => s.reply (.err 3)
    | some n => let r := s.readReg off n; r.2.reply (.ok [r.1]))

/-- COLOPHON_WR (R433). -/
def execColophonWr (off v : Nat) (s : State) : Host.Outcome State Fault Refusal :=
  .next (s.monitorCmd false fun s => match consoleSize off with
    | none => s.reply (.err 3)
    | some n => if 2 ^ (8 * n) ≤ v then s.reply (.err 3) else (s.regWrite off n v).reply (.ok []))

/-- COLOPHON_MR (R433): bytes of HBM or of the core windows. -/
def execColophonMr (a n : Nat) (s : State) : Host.Outcome State Fault Refusal :=
  .next (s.monitorCmd false fun s =>
    if n = 0 ∨ 256 < n ∨ (rangeIn .hbm a n || rangeIn .window a n) = false then s.reply (.err 3)
    else match s.loadBytes a n with
      | (s, .ok d) => s.reply (.data d)
      | (s, .error _) => s.replyOpen)

/-- COLOPHON_PROOF (R422, R433): a trigger; the line is answered with the number of the proof when that fires. -/
def execColophonProof (s : State) : Host.Outcome State Fault Refusal :=
  .next (s.monitorCmd false fun s => { s with obs := { s.obs with due := s.obs.due ++ [4] } })

/-- Bytes of a proof image at any offset. -/
def imageSlice (p : ProofImage) (o n : Nat) : List Byte :=
  ((regionBytes p.reg (o / 8 * 8) ((o % 8 + n + 7) / 8 * 8)).drop (o % 8)).take n

/-- COLOPHON_PR (R433): bytes of the image held. -/
def execColophonPr (o n : Nat) (s : State) : Host.Outcome State Fault Refusal :=
  .next (s.monitorCmd false fun s =>
    if n = 0 ∨ 256 < n ∨ 0x1000000 < o + n then s.reply (.err 3)
    else match s.obs.image with
      | none => s.replyOpen
      | some p => s.reply (.data (imageSlice p o n)))

/-- COLOPHON_LOAD (R434): bytes into the slot of a kind that is not primary, erased first at offset 0; after a failure of
the flash only the first bytes stand, as many as a free number says. -/
def execColophonLoad (kind o : Nat) (d : List Byte) (flashFail : Bool) (s : State) :
    Host.Outcome State Fault Refusal :=
  .next (s.monitorRecovery fun s =>
    if (kind ≠ 1 ∧ kind ≠ 2) ∨ 2048 < d.length ∨ slotSize kind < o + d.length then s.reply (.err 3)
    else
      let base := slotOffset kind (s.otherSlot kind)
      let s := if o = 0 then s.flashErase base (slotSize kind) else s
      if flashFail then
        let f := s.free
        (f.2.flashPut (base + o) (d.take (f.1 % (d.length + 1)))).reply (.err 6)
      else (s.flashPut (base + o) d).reply (.ok [d.length]))

/-- COLOPHON_ACTIVATE (R434). -/
def execColophonActivate (kind : Nat) (flashFail : Bool) (s : State) : Host.Outcome State Fault Refusal :=
  .next (s.monitorRecovery fun s =>
    if kind ≠ 1 ∧ kind ≠ 2 then s.reply (.err 3)
    else match s.activate kind with
      | .error _ => s.reply (.err 4)
      | .ok (t, svn, slot) =>
        if flashFail then (s.flashErase (2048 * (1 - s.selector.1)) 12).reply (.err 6) else t.reply (.ok [svn, slot]))

/-- COLOPHON_OVERFLOW (R432). -/
def execColophonOverflow (s : State) : Host.Outcome State Fault Refusal := .next (s.monitorAny fun s => s.reply (.err 5))

/-! ### SMBus (19 R446) -/

/-- SMBUS_BLOCK_WRITE: a register written; one that is not available, or not there, is left. -/
def execSmbusBlockWrite (off : Nat) (v : Word64) (s : State) : Host.Outcome State Fault Refusal :=
  .next (s.whenPowered fun s => match consoleSize off with
    | none => s
    | some n => s.regWrite off n (v.toNat % 2 ^ (8 * n)))

/-- A reply of a process call: its status, and the value. -/
def State.smbReply (s : State) (status v : Nat) : State := { s with pwr := { s.pwr with smb := s.pwr.smb ++ [(status, v)] } }

/-- SMBUS_PROCESS_CALL: status 1 for a register unavailable while ACLK is stopped, 2 for a bad offset; the value beside
either is not stated. -/
def execSmbusProcessCall (off : Nat) (s : State) : Host.Outcome State Fault Refusal :=
  .next (s.whenPowered fun s =>
    let f := s.free
    if s.pwr.held && ! isUnderstory off then f.2.smbReply 1 (f.1 % 2 ^ 64)
    else match consoleSize off with
      | none => f.2.smbReply 2 (f.1 % 2 ^ 64)
      | some n => let r := s.readReg off n; r.2.smbReply 0 r.1)

/-! ### JTAG (R435) -/

/-- An instruction shifted into the TAP. -/
def State.tapInstr (s : State) (ir : Nat) : State :=
  s.whenPowered fun s => { s with pwr := { s.pwr with tap := { s.pwr.tap with ir := ir } } }

/-- The value of the identification register: version 1, part 0x9400, manufacturer 0x5A3. -/
def idcodeValue : Nat := 0x19400B47

/-- What the selected data register captures: the identification, the pins sampled, or the bypass bit. -/
def State.tapCapture (s : State) : Nat :=
  match s.pwr.tap.ir with
  | 0x02 => idcodeValue
  | 0x00 => s.pwr.tap.sampled
  | 0x01 => s.pwr.tap.sampled
  | _ => 0

/-- TAP_RESET: five TCK with TMS high select IDCODE. -/
def execTapReset (s : State) : Host.Outcome State Fault Refusal := .next (s.tapInstr 0x02)

/-- IDCODE. -/
def execIdcode (s : State) : Host.Outcome State Fault Refusal := .next (s.tapInstr 0x02)

/-- EXTEST: the sideband outputs follow the boundary-scan cells. -/
def execExtest (s : State) : Host.Outcome State Fault Refusal := .next (s.tapInstr 0x00)

/-- SAMPLE_PRELOAD: the pins are sampled and the cells preloaded. -/
def execSamplePreload (pins cells : Nat) (s : State) : Host.Outcome State Fault Refusal :=
  .next (s.whenPowered fun s => { s with pwr := { s.pwr with tap := ⟨0x01, pins, cells⟩ } })

/-- BYPASS. -/
def execBypass (s : State) : Host.Outcome State Fault Refusal := .next (s.tapInstr 0xFF)

end Sys2Proof.Machine
end

