-- ==== Sys2Proof/Machine/Port.lean ====
section
/-! DEFINITION. Accesses to this node that arrive from the companion or from another node: what serves them
(10_memory.md R280, 02 R49, 11_links.md R304), the snoop of a window line that comes first (15_host_link.md R374), and
the answers sent. -/

namespace Sys2Proof.Machine

/-! ### Serving -/

/-- Offset of a node-local address in the register region. -/
def regOffset (a : Nat) : Nat := a - 0x200000000000

/-- Whether a range touches the directory, which is not addressable (15 R373). -/
def State.hitsDirectory (s : State) (a n : Nat) : Bool :=
  decide (regionOf a = .hbm) && (s.inDirectory a || s.inDirectory (a + n - 1))

/-- The fault that an access to HBM or a core window meets before its bytes are touched (Table 11.8). -/
def State.memFault (s : State) (a n : Nat) : Option Nat :=
  if rangeIn (regionOf a) a n = false ∨ s.hitsDirectory a n then some faultAddrRange
  else if s.isDisabled 0 then some faultFunctionDown
  else none

/-- An access to a core window wakes a copse that is not in RUN, and waits for it (17 R407). -/
def State.windowWake (s : State) (a : Nat) : State :=
  if regionOf a = .window ∧ s.isGated (copseOfWindow a) then s.wakeCopse (copseOfWindow a) else s

/-- A load of this node: the state after it, and the data or a fabric fault. -/
def State.serveLoad (s : State) (a n : Nat) : State × Except Nat (List Byte) :=
  if n = 0 then (s, .ok [])
  else match regionOf a with
  | .outside => (s, .error faultAddrRange)
  | .regs =>
    if regAccessOk (regOffset a) n then
      let r := s.readReg (regOffset a) n
      (r.2, .ok (leBytes n r.1))
    else (s, .error faultAccessKind)
  | .tallies =>
    match tallyIndex a with
    | some i => if n = 8 then (s, .ok (leBytes 8 (s.tallyVal i))) else (s, .error faultAccessKind)
    | none => (s, .error faultAccessKind)
  | _ =>
    match s.memFault a n with
    | some f => (s, .error f)
    | none => (s.windowWake a).loadBytes a n

/-- A store of this node: the state after it, and a fabric fault if there was one. -/
def State.serveStore (s : State) (a : Nat) (d : List Byte) : State × Option Nat :=
  if d.isEmpty then (s, none)
  else match regionOf a with
  | .outside => (s, some faultAddrRange)
  | .regs =>
    if regAccessOk (regOffset a) d.length then (s.regWrite (regOffset a) d.length (leNat d), none)
    else (s, some faultAccessKind)
  | .tallies =>
    match tallyIndex a with
    | some i => if d.length = 8 then (s.tallySet i (leNat d), none) else (s, some faultAccessKind)
    | none => (s, some faultAccessKind)
  | _ =>
    match s.memFault a d.length with
    | some f => (s, some f)
    | none => (s.windowWake a).saveBytes a d

/-! ### Answers -/

/-- What is sent after an access, unless the access began a full reset (17 R415). -/
def State.unlessHeld (s : State) (f : State → State) : State := if s.pwr.held then s else f s

/-- The ERR code of a fabric fault (R304, Table 15.5). -/
def errCode (fault : Nat) : Nat :=
  if fault = faultPoison then 2 else if fault = faultFunctionDown then 4
  else if fault = faultUnreachable ∨ fault = faultRemoteAccess then 5 else 1

/-- An access of the companion meets a fabric fault reported by a node: it is recorded and answered ERR. -/
def State.gclFault (s : State) (tag fault node a : Nat) : State :=
  (s.fabricErr fault node a).gclSend (.err tag (errCode fault))

/-- The frames of a READ_RESP, under the number of the request (Table 11.6). -/
def State.readResponse (s : State) (node cls num a : Nat) (d : List Byte) : State :=
  State.ifpFrames node cls 3 num .plain (d.length / 4096 + 1) s a d

/-- An ERROR frame for the message with a number (Table 11.6, R304). -/
def State.ifpError (s : State) (node num a fault : Nat) : State :=
  s.ifpSend node 1 0x0B num true a 0 (leBytes 8 fault) .plain

/-- The frame with a SEQ that waited has taken effect: it may be acknowledged (R297). -/
def State.frameVisible (s : State) (node cls seq : Nat) : State :=
  match s.connRx node cls with
  | some r => s.setConnRx { r with waiting := r.waiting.erase seq }
  | none => s

/-! ### Loads and stores from other nodes -/

/-- A READ_REQ is served, after the snoop of the first line it must wait for, and once its memory admits accesses. -/
def State.fabricLoad (s : State) (node cls num a n : Nat) : State :=
  if s.stalledRange (localOf a) n then s.stall (.load node cls num a n)
  else match s.loadBlocks (localOf a) n with
  | l :: _ => s.snoopFor l false (.load node cls num a n)
  | [] => match s.serveLoad (localOf a) n with
    | (s, .ok d) => s.unlessHeld fun s => s.readResponse node cls num a d
    | (s, .error f) => s.unlessHeld fun s => s.ifpError node num a f

/-- The store of a WRITE is applied, after the snoop of the first line it must wait for, and once its memory admits
accesses; `num` is its MSG_ID, and SEQ times 65,536. -/
def State.fabricStore (s : State) (node cls num a : Nat) (d : List Byte) : State :=
  if s.stalledRange (localOf a) d.length then s.stall (.store node cls num a d)
  else match s.storeBlocks (localOf a) d.length with
  | l :: _ => s.snoopFor l true (.store node cls num a d)
  | [] =>
    let r := s.serveStore (localOf a) d
    let s := r.1.frameVisible node cls (num / 65536)
    match r.2 with
    | none => s
    | some f => s.unlessHeld fun s => s.ifpError node (num % 65536) a f

/-! ### Accesses of RoCEv2 peers (R305, R308) -/

/-- The queue pair with an index, when it is ready. -/
def State.qp (s : State) (i : Nat) : Option QueuePair := s.fab.qps.find? fun q => q.index = i ∧ q.state = 1

/-- The queue pair a message belongs to. -/
def RoceMsg.qp : RoceMsg → Nat
  | .send i _ _ _ => i
  | .write i _ _ _ _ _ _ => i
  | .readReq i _ _ _ _ => i
  | .readResp i _ _ _ => i
  | .ack i _ => i
  | .nakAccess i _ => i
  | .nakInvalid i _ => i
  | .nakSeq i _ => i
  | .rnrNak i _ => i
  | .cnp i => i

/-- A RoCEv2 message sent by a queue pair that is ready. -/
def State.rocePost (s : State) (m : RoceMsg) : State :=
  match s.qp m.qp with
  | some q => s.roceEmit q m
  | none => s

/-- The connection class that marks work of a queue pair where it waits for a line. -/
def roceClass : Nat := 4

/-- An RDMA WRITE packet is applied; `num` is its PSN times 2, and 1 when it is the last of its message, which is
acknowledged. -/
def State.roceStore (s : State) (i num a : Nat) (d : List Byte) : State :=
  if s.connBusy i roceClass || s.stalledRange a d.length then s.stall (.store i roceClass num a d)
  else match s.storeBlocks a d.length with
  | l :: _ => s.snoopFor l true (.store i roceClass num a d)
  | [] => match s.serveStore a d with
    | (s, none) => if num % 2 = 1 then s.rocePost (.ack i (num / 2)) else s
    | (s, some _) => s.rocePost (.nakAccess i (num / 2))

/-- An RDMA READ is served: responses of the path MTU, numbered from the request's PSN. -/
def State.roceLoad (s : State) (i psn a n : Nat) : State :=
  if s.connBusy i roceClass || s.stalledRange a n then s.stall (.load i roceClass psn a n)
  else match s.loadBlocks a n with
  | l :: _ => s.snoopFor l false (.load i roceClass psn a n)
  | [] => match s.serveLoad a n, s.qp i with
    | (s, .ok d), some q =>
      (packets q d).zipIdx.foldl (fun s p => s.rocePost (.readResp i ((psn + p.2) % 2 ^ 24) p.1.1 p.1.2.2)) s
    | (s, .ok _), none => s
    | (s, .error _), _ => s.rocePost (.nakAccess i psn)

/-! ### Window lines (15 R373 to R375) -/

/-- Whether a request of the companion names a line it may cache: in the window of this node. -/
def State.coherent (s : State) (a : Nat) : Bool := decide (nodeOf a = s.node) && s.inWindow (localOf a)

end Sys2Proof.Machine
end

