-- ==== Sys2Proof/Machine/Fabric.lean ====
section
/-! DEFINITION. IFP (11_links.md R295 to R304): what the frames of another node do here, acknowledgement, resending, and
the loss of a connection. -/

namespace Sys2Proof.Machine

/-- Microseconds of device time. -/
def State.micros (s : State) : Nat := s.time / 100

/-! ### How a command ends that the fabric serves (R299, R304) -/

/-- DETAIL of a command whose connection is LOST, as its group defines it. -/
def lostDetail (c : Cmd) : Nat :=
  match c.opcode / 256 with
  | 2 => 0x0104
  | 6 => 0x010E
  | 7 => 0x010E
  | 9 => 0x0107
  | 11 => 0x0103
  | _ => 0

/-- How a command of the memory and copy group ends by a fabric fault (Table 11.8). -/
def faultOutcome (fault : Nat) : Outcome :=
  match fault with
  | 1 => Outcome.bad 0x0100
  | 2 => Outcome.bad 0x0100
  | 3 => Outcome.aborted 0x0103
  | 5 => ⟨stDisabled, 0, 0⟩
  | _ => Outcome.aborted 0x0104

/-- A command that waits for the fabric ends; what is still outstanding for it is forgotten. -/
def State.fabricEnd (s : State) (n : Nat) (o : Cmd → Outcome) : State :=
  match s.cmdOf n with
  | some c =>
    if c.phase = .waiting then
      { s with fab := { s.fab with reads := s.fab.reads.filter fun r => r.purpose ≠ IfpPurpose.cmd n } }.finish n (o c)
    else s
  | none => s

/-- The signals of a deferred request (02 R53, 18 R429), with the status its reply would have carried: on any but OK those of
SIG_ALWAYS, on FATAL none. -/
def State.deferredSignals (s : State) (status : Nat) (pkt : List Byte) : State :=
  if status = stOK ∨ (status ≠ stFatal ∧ bit (fieldAt pkt 2 2) 6 = 1) then s.applySignals pkt else s

/-- The report of a deferred self-test has reached its node, or has failed: its request is over (02 R53, R54). -/
def State.reportEnds (s : State) (k status : Nat) : State :=
  let l := s.obs.reports.filter fun r => r.1 = k
  let s := { s with obs := { s.obs with reports := s.obs.reports.filter fun r => r.1 ≠ k } }
  let s := if status = stOK ∨ l.isEmpty then s else s.setFld (Reg.testResult 0) 63 48 status
  l.foldl (fun s r => s.deferredSignals status r.2) s

/-- An ERROR, or the loss of a connection, for what a frame was for. A PREFETCH whose image another node does not give has
lost its route (07 R201); an ERROR of code 0 refuses a watch (log 31). -/
def State.purposeFault (s : State) (p : IfpPurpose) (fault : Nat) : State :=
  match p with
  | .plain => s
  | .posted => s
  | .coll id => match s.collOf id with
    | some x => if fault = faultUnreachable then s.collFail x 0x0108 true else s
    | none => s
  | .cmd n => s.fabricEnd n fun c =>
    if fault = faultUnreachable ∨ c.opcode = 0x0704 then Outcome.aborted (lostDetail c)
    else if c.opcode / 256 = 2 then faultOutcome fault
    else if (c.opcode = 0x0B03 ∨ c.opcode = 0x0B04) ∧ fault = 0 then Outcome.noSpace 0x0101
    else Outcome.aborted 0
  | .gclRead tag => s.gclSend (.err tag (errCode fault))
  | .gclWrite tag => s.gclSend (.err tag (errCode fault))
  | .report k => s.reportEnds k stAborted

/-! ### Acknowledgement (R297, R298) -/

/-- Whether a purpose still has frames unacknowledged. -/
def State.purposeOpen (s : State) (p : IfpPurpose) : Bool := s.fab.tx.any fun c => c.unacked.any fun u => u.purpose = p

/-- Every frame sent for a purpose has been acknowledged: a command that waits for that completes, and a WR_NC of the
companion is answered. -/
def State.purposeAcked (s : State) (p : IfpPurpose) : State :=
  if s.purposeOpen p then s
  else match p with
  | .cmd n => match s.cmdOf n with
    | some c => match c.phase, c.aux with
      | .waiting, [1, r] => s.finish n (Outcome.ok r)
      | _, _ => s
    | none => s
  | .gclWrite tag => s.gclSend (.cmp tag)
  | .report k => s.reportEnds k stOK
  | _ => s

/-- Frames below a number of a connection to a node are acknowledged. -/
def State.framesAcked (s : State) (node cls ack : Nat) : State :=
  let c := s.connTx node cls
  let before := fun (u : Unacked) => decide ((ack + 2 ^ 32 - u.frame.seq) % 2 ^ 32 < 2 ^ 31) && decide (u.frame.seq ≠ ack)
  let done := c.unacked.filter before
  if done.isEmpty ∨ 2 ^ 31 ≤ (c.seq + 2 ^ 32 - ack) % 2 ^ 32 then s
  else
    let s := s.setConnTx { c with unacked := c.unacked.filter fun u => ! before u }
    ((done.map fun u => u.purpose).eraseDups).foldl State.purposeAcked s

/-- A frame received is to be acknowledged; after 16 a standalone ACK is sent (R298). -/
def State.owesAck (s : State) (node cls : Nat) : State :=
  match s.connRx node cls with
  | none => s
  | some r =>
    let s := s.setConnRx { r with sinceAck := r.sinceAck + 1 }
    if 16 ≤ r.sinceAck + 1 then s.ifpBare node cls 9 r.ackSeq else s

/-! ### Congestion (R303) -/

/-- The rate of a connection is cut by 7/8, at most once per 10 µs. -/
def State.rateCut (s : State) (node cls : Nat) : State :=
  let c := s.connTx node cls
  if c.cutYet ∧ s.micros < c.lastCut + 10 then s
  else s.setConnTx { c with rate := max (c.rate * 7 / 8) 8, lastCut := s.micros, cutYet := true }

/-- A frame has arrived marked CE: ECE goes back, and a CNP at most once per 10 µs. -/
def State.ceSeen (s : State) (node cls : Nat) : State :=
  match s.connRx node cls with
  | none => s
  | some r =>
    if r.cnpYet ∧ s.micros < r.lastCnp + 10 then s.setConnRx { r with eceDue := true }
    else (s.setConnRx { r with eceDue := true, lastCnp := s.micros, cnpYet := true }).ifpBare node cls 0x0C r.ackSeq

/-! ### Resending and loss (R298, R299) -/

/-- A frame sent again, marked RETX. -/
def State.resendOne (s : State) (node cls seq : Nat) : State :=
  let c := s.connTx node cls
  match c.unacked.find? fun u => u.frame.seq = seq with
  | none => s
  | some u =>
    let f := { u.frame with retx := true, ack := match s.connRx node cls with
      | some r => r.ackSeq
      | none => u.frame.ack }
    let r := s.launch f
    (r.1.setConnTx { c with unacked := c.unacked.map fun v =>
      if v.frame.seq = seq then { v with frame := f, retries := v.retries + 1, sent := r.2 } else v }).addSat
      Reg.ifpCounters 63 32 1

/-- The UPDATEs that wait for the members of their D group, a node among them, in the imposition they latched. -/
def State.gradWaiters (s : State) (node : Nat) : List Cmd :=
  s.cmd.cmds.filter fun c => decide (c.phase = .waiting) && decide (c.opcode = 0x0706) &&
    (decide (c.aux = [16]) || decide (c.aux.head? = some 17)) &&
    (s.placedFor c).dPeers.any fun r => (s.placedFor c).memberNode 1 r = node

/-- The RING_ATTENTIONs that wait for galleys or sums and forward theirs to a node. -/
def State.ringWaiters (s : State) (node : Nat) : List Cmd :=
  s.cmd.cmds.filter fun c => decide (c.phase = .waiting) && decide (c.opcode = 0x0607) && decide (c.aux.head? = some 22) &&
    decide ((s.placedFor c).memberNode 3 (((s.placedFor c).ringRank + 1) % max c.ringSize 1) = node)

/-- UPDATEs that wait for their D group, and RING_ATTENTIONs that wait in their ring, end when the connection to one of its
members is LOST (R299). -/
def State.gradLost (s : State) (node cls : Nat) : State :=
  if cls = 2 then s
  else
    let s := (s.gradWaiters node).foldl (fun s c => s.finish c.id (Outcome.aborted 0x0187)) s
    if cls = 0 then (s.ringWaiters node).foldl (fun s c => s.finish c.id (Outcome.aborted 0x010E)) s else s

/-- The tally waits whose watch is held at a node. -/
def State.watchersOf (s : State) (node : Nat) : List Cmd :=
  s.cmd.cmds.filter fun c => decide (c.phase = .waiting) && (match c.aux with
    | [3, n, _] => decide (n = node)
    | _ => false)

/-- The watches that a node holds for this one and this one for it are released (02 R66): the commands that lodged them
end UNREACHABLE, each sending WATCH_CANCEL at its completion. -/
def State.watchesGone (s : State) (node : Nat) : State :=
  ((s.watchersOf node).foldl (fun s c => s.finish c.id (Outcome.aborted 0x0103)) s).detach fun o => match o with
    | .watch n _ => decide (n = node)
    | _ => false

/-- Whether a frame is for an access, which completes with a fabric fault when its connection is LOST (R299). -/
def IfpPurpose.isAccess : IfpPurpose → Bool
  | .plain => false
  | .coll _ => false
  | _ => true

/-- A connection becomes LOST (R299): what awaits it ends, the node is recorded, and a new EPOCH is taken. The watches
the node holds for this one, and this one for it, are released (02 R66). -/
def State.connLost (s : State) (node cls : Nat) : State :=
  let c := s.connTx node cls
  let reads := if cls = 2 then s.fab.reads.filter fun r => r.node = node else []
  let lost := (c.unacked.map fun u => (u.purpose, u.frame.addr)) ++ reads.map fun r => (r.purpose, r.addr)
  let s := (s.setFld Reg.ifpLostNode 15 0 node).addSat Reg.ifpLostNode 31 16 1
  let s := s.setConnTx { c with epoch := (c.epoch + 1) % 256, seq := 0, unacked := [] }
  let s := if cls = 2 then { s with fab := { s.fab with reads := s.fab.reads.filter fun r => r.node ≠ node } } else s
  let s := match lost.find? fun p => p.1.isAccess with
    | some p => s.fabricErr faultUnreachable node p.2
    | none => s
  let s := ((lost.map (·.1)).eraseDups).foldl (fun s p => s.purposeFault p faultUnreachable) s
  let s := if cls = 1 then s.watchesGone node else s
  (s.collLost node cls).gradLost node cls

/-- The limit of resends of one frame. -/
def State.retryLimit (s : State) : Nat := max 1 (s.fld Reg.ifpCfg 23 16)

/-- Frames of a connection are sent again; one that has been resent RETRY_LIMIT times makes the connection LOST. -/
def State.resend (s : State) (node cls : Nat) (p : Unacked → Bool) : State :=
  let l := (s.connTx node cls).unacked.filter p
  if l.any fun u => s.retryLimit ≤ u.retries then s.connLost node cls
  else l.foldl (fun s u => s.resendOne node cls u.frame.seq) s

/-! ### What the frames do (R295 to R297) -/

/-- A part of the data of a read of this node arrives; with the last the read is complete. -/
def State.readArrives (s : State) (f : IfpFrame) : State :=
  match s.fab.reads.find? fun r => r.node = f.src ∧ r.msgId = f.msgId with
  | none => s
  | some r =>
    let d := r.data ++ f.payload
    if f.last then
      let s := { s with fab := { s.fab with reads := s.fab.reads.erase r } }
      match r.purpose with
      | .gclRead tag => s.gclSend (.cmpData tag 0 r.addr (d.take r.total))
      | .cmd n => match s.cmdOf n with
        | none => s
        | some c =>
          if c.phase ≠ .waiting ∨ c.aux.head? ≠ some 2 then s
          else
            let c := { c with buf := c.buf ++ d.take r.total }
            let s := s.updCmd n fun x => { x with buf := c.buf }
            match c.opcode with
            | 0x0504 => if c.buf.length = 768 then s.park n [15] else s
            | 0x0704 => s.prefetchData c c.buf
            | 0x0B05 => s.finish n (Outcome.ok (leNat c.buf))
            | _ => if c.opcode / 256 = 2 then s.memoryData c else s.securityData c
      | _ => s
    else { s with fab := { s.fab with reads := s.fab.reads.map fun x => if x = r then { x with data := d } else x } }

/-- A tally add of another node (02 R49). -/
def State.remoteAdd (s : State) (f : IfpFrame) : State :=
  match tallyIndex f.addr with
  | some i => s.tallyAdd i (fieldAt f.payload 0 8)
  | none => s.ifpError f.src f.msgId f.addr faultAccessKind

/-- Watches that other nodes hold here. -/
def State.watchCount (s : State) : Nat :=
  s.tally.waiters.countP fun w => match w.owner with
    | .watch _ _ => true
    | _ => false

/-- A watch lodged by another node (02 R50): refused, by an ERROR, when 1,024 are held. -/
def State.remoteWatch (s : State) (f : IfpFrame) : State :=
  match tallyIndex f.addr with
  | none => s.ifpError f.src f.msgId f.addr faultAccessKind
  | some i =>
    if 1024 ≤ s.watchCount then s.ifpError f.src f.msgId f.addr 0
    else s.tallyWait { tally := i, isEq := decide (fieldAt f.payload 8 1 = 1), value := fieldAt f.payload 0 8,
                       owner := .watch f.src (fieldAt f.payload 10 2) }

/-- A watch this node lodged has been met (02 R64, R66): its command completes. The frame does not carry the value that
met it: for EQ it is the value waited for, for GE any at or above it. -/
def State.watchMet (s : State) (f : IfpFrame) : State :=
  match s.cmd.cmds.find? fun c => c.phase = .waiting ∧ c.aux = [3, f.src, fieldAt f.payload 0 2] with
  | none => s
  | some c =>
    let v := c.par 40 8
    let s := s.updCmd c.id fun c => { c with aux := [] }
    if c.opcode = 0x0B04 then s.finish c.id (Outcome.ok v)
    else let x := s.free; x.2.finish c.id (Outcome.ok (v + x.1 % (2 ^ 64 - v)))

/-- A watch is given up by the node that lodged it (02 R66). -/
def State.watchDropped (s : State) (f : IfpFrame) : State :=
  s.detach fun o => decide (o = .watch f.src (fieldAt f.payload 0 2))

/-- An ERROR names the message that it answers: a read, else a message of the best-effort or the control class. Its fault
is recorded; code 0, which refuses a watch, is no fault of Table 11.8 and is not (log 31). -/
def State.errorArrives (s : State) (f : IfpFrame) : State :=
  let fault := fieldAt f.payload 0 1
  let s := if fault = 0 then s else s.fabricErr fault f.src f.addr
  match s.fab.reads.find? fun r => r.node = f.src ∧ r.msgId = f.msgId with
  | some r => ({ s with fab := { s.fab with reads := s.fab.reads.erase r } }).purposeFault r.purpose fault
  | none =>
    match ((s.connTx f.src 2).unacked ++ (s.connTx f.src 1).unacked).find? fun u => u.frame.msgId = f.msgId with
    | some u =>
      let p := u.purpose
      ({ s with fab := { s.fab with tx := s.fab.tx.map fun (c : ConnTx) =>
        { c with unacked := c.unacked.map fun (v : Unacked) => if v.purpose = p then { v with purpose := .plain } else v } } }).purposeFault p fault
    | none => s

/-- Whether a scheduled delivery to a tensor goes to what a move moves (09 R250, R251): to a page, by its place among those
of the tensor, or to rows that the unit's logical core holds; of a weight-gradient tensor every unit holds a part (log 149,
DEDUCED). -/
def State.deliveryTo (s : State) (t : Tensor) (f : IfpFrame) (m : Move) : Bool :=
  let o := f.addr % 2 ^ 32 * 64
  let last := o + (f.payload.length - 1)
  match m.kind with
  | .unit k _ =>
    let row := max 1 (t.byteLen / max 1 (t.dims.headD 1))
    t.pages.isEmpty && (decide (t.role = 4) ||
      (decide (s.coreOfToken (o / row) ≤ k) && decide (k ≤ s.coreOfToken (last / row))))
  | .page p => ((t.pages.drop (o / 4096)).take (last / 4096 - o / 4096 + 1)).contains p

/-- The move that has not ended and holds a scheduled delivery to a tensor (09 R250, R251). -/
def State.movesTensor (s : State) (t : Tensor) (f : IfpFrame) : Option Move :=
  s.imp.moves.find? fun m => ! m.ended && s.deliveryTo t f m

/-- The data of a scheduled delivery take their place in the tensor they are for (Table 11.5). -/
def State.schedStore (s : State) (f : IfpFrame) : State :=
  match s.declared (f.addr / 2 ^ 32 % 2 ^ 32) with
  | none => s
  | some t => s.writeData t.handle fun d => setTensorBytes t f.payload (f.addr % 2 ^ 32 * 64) d

/-- A scheduled delivery (09 R251): resolved against the imposition in force; one to a place that is moving waits for the
move, and one that names the imposition before and finds a moved place is counted as redirected. -/
def State.scheduled (s : State) (f : IfpFrame) : State :=
  match s.tensor (f.addr / 2 ^ 32 % 2 ^ 32), s.imp.cur with
  | some t, some i =>
    let moved := s.imp.moves.any (s.deliveryTo t f)
    let s := if f.aux ≠ i.number ∧ s.imp.draining.map (·.imp.number) = some f.aux ∧ moved then s.addSat Reg.forwardState 63 32 1 else s
    match s.movesTensor t f with
    | some m =>
      let s := match s.connRx f.src f.cls with
        | some r => s.setConnRx { r with waiting := r.waiting ++ [f.seq] }
        | none => s
      { s with imp := { s.imp with moves := s.imp.moves.map fun x =>
        if x = m then { x with heldDeliveries := x.heldDeliveries ++ [f] } else x } }
    | none => s.schedStore f
  | _, _ => s

/-- What a numbered frame does when its turn comes (R296, R297). -/
def State.frameApply (s : State) (f : IfpFrame) : State :=
  match f.typ with
  | 1 =>
    let s := match s.connRx f.src f.cls with
      | some r => s.setConnRx { r with waiting := r.waiting ++ [f.seq] }
      | none => s
    s.fabricStore f.src f.cls (f.msgId + 65536 * f.seq) f.addr f.payload
  | 2 => s.fabricLoad f.src f.cls f.msgId f.addr f.aux
  | 3 => s.readArrives f
  | 4 => s.remoteAdd f
  | 5 => s.remoteWatch f
  | 6 => s.watchMet f
  | 7 => s.watchDropped f
  | 8 => s.scheduled f
  | 11 => s.errorArrives f
  | _ => s

/-- A frame whose turn has come takes effect after the accesses of its connection that wait: until then it is not
acknowledged (R297). -/
def State.frameTurn (s : State) (f : IfpFrame) : State :=
  if s.connBusy f.src f.cls then
    (match s.connRx f.src f.cls with
      | some r => s.setConnRx { r with waiting := r.waiting ++ [f.seq] }
      | none => s).stall (.frame f)
  else s.frameApply f

/-- Held frames whose turn has come are applied after it. -/
def State.heldApply (node cls : Nat) : Nat → State → State
  | 0, s => s
  | fuel + 1, s =>
    match s.connRx node cls with
    | none => s
    | some r =>
      match r.held.find? fun g => g.seq = r.expected with
      | none => s
      | some g =>
        let s := s.setConnRx { r with expected := (r.expected + 1) % 2 ^ 32, held := r.held.erase g }
        State.heldApply node cls fuel (s.frameTurn g)

/-- The receiving side of a connection as a frame finds it: a new EPOCH resets it (R296). -/
def State.rxFor (s : State) (f : IfpFrame) : ConnRx × Bool :=
  let fresh : ConnRx :=
    { node := f.src, cls := f.cls, epoch := f.epoch, expected := 0, held := [], sinceAck := 0, waiting := [],
      eceDue := false, lastCnp := 0, cnpYet := false }
  match s.connRx f.src f.cls with
  | some r => if r.epoch = f.epoch then (r, false) else (fresh, true)
  | none => (fresh, false)

/-- A frame under a new EPOCH (R296): the receiving side starts afresh, and the watches of its node are released (02
R66). -/
def State.epochSeen (s : State) (f : IfpFrame) : State :=
  let x := s.rxFor f
  if x.2 then (s.setConnRx x.1).watchesGone f.src else s

/-- A numbered frame for this node: applied in SEQ order, held when at most 64 ahead, discarded with a NACK beyond, and
acknowledged again when it was applied before (R296, R298). -/
def State.frameNumbered (s : State) (f : IfpFrame) : State :=
  let r := (s.rxFor f).1
  let s := s.setConnRx r
  let ahead := (f.seq + 2 ^ 32 - r.expected) % 2 ^ 32
  if ahead = 0 then
    let s := s.setConnRx { r with expected := (r.expected + 1) % 2 ^ 32 }
    let s := State.heldApply f.src f.cls 64 (s.frameTurn f)
    s.unlessHeld fun s => s.owesAck f.src f.cls
  else if ahead ≤ 64 then
    let s := if r.held.any fun g => g.seq = f.seq then s else s.setConnRx { r with held := r.held ++ [f] }
    s.owesAck f.src f.cls
  else if ahead < 2 ^ 31 then s.ifpBare f.src f.cls 0x0A r.ackSeq
  else s.owesAck f.src f.cls

/-- A frame that reaches its destination whole (R295): its EPOCH, the acknowledgement it carries, ECE, and what it is. -/
def State.frameHere (s : State) (f : IfpFrame) (ce : Bool) : State :=
  let s := (s.epochSeen f).framesAcked f.src f.cls f.ack
  let s := if f.ece then s.rateCut f.src f.cls else s
  let s := match f.typ with
    | 9 => s
    | 10 => s.resend f.src f.cls fun u => (u.frame.seq + 2 ^ 32 - f.ack) % 2 ^ 32 < 2 ^ 31
    | 12 => s.rateCut f.src f.cls
    | _ => s.frameNumbered f
  if ce then s.ceSeen f.src f.cls else s

/-- A frame counted as discarded by an Ethernet port (R294). -/
def State.ethDrop (s : State) (n : Nat) : State := s.addSat (Reg.ethDrops (s.ethPort n)) 15 0 1

/-- A frame arrives on a link (R294, R295, R301): one for another node is forwarded from a torus link with HOPS
decremented, and discarded from an Ethernet port; one whose ICRC fails is discarded. -/
def State.frameIn (s : State) (n : Nat) (f : IfpFrame) (ce : Bool) : State :=
  let s := s.countTraffic n f.payload.length false
  if f.dst ≠ s.node then
    if s.fld (Reg.linkCfg n) 27 24 = 8 then s.ethDrop n
    else if f.hops = 0 then s.addSat Reg.ifpCounters 31 16 1
    else (s.launch { f with hops := f.hops - 1 }).1
  else if f.icrc ≠ crc32 (ifpHeader f ++ f.payload) then s.addSat Reg.ifpCounters 15 0 1
  else s.frameHere f (ce && decide (s.fld (Reg.linkCfg n) 31 30 ≠ 1))

/-- An event of a link that is up. -/
def State.onLink (s : State) (n : Nat) (f : State → State) : State :=
  s.whenUp fun s => if n < 64 ∧ s.fld (Reg.linkState n) 31 29 = 2 then f s else s

/-- A frame row: a frame of its type arrives on a link that is up. -/
def State.frameRow (s : State) (typ n : Nat) (f : IfpFrame) (ce : Bool) : State :=
  s.onLink n fun s => if f.typ = typ then s.frameIn n f ce else s

/-! ### The rows -/

/-- WRITE (R297). -/
def execWrite (n : Nat) (f : IfpFrame) (ce : Bool) (s : State) : Host.Outcome State Fault Refusal := .next (s.frameRow 1 n f ce)

/-- READ_REQ (R297). -/
def execReadReq (n : Nat) (f : IfpFrame) (ce : Bool) (s : State) : Host.Outcome State Fault Refusal := .next (s.frameRow 2 n f ce)

/-- READ_RESP (R295). -/
def execReadResp (n : Nat) (f : IfpFrame) (ce : Bool) (s : State) : Host.Outcome State Fault Refusal := .next (s.frameRow 3 n f ce)

/-- IFP_TALLY_ADD (02 R49). -/
def execIfpTallyAdd (n : Nat) (f : IfpFrame) (ce : Bool) (s : State) : Host.Outcome State Fault Refusal :=
  .next (s.frameRow 4 n f ce)

/-- WATCH (02 R50). -/
def execWatch (n : Nat) (f : IfpFrame) (ce : Bool) (s : State) : Host.Outcome State Fault Refusal := .next (s.frameRow 5 n f ce)

/-- WATCH_NOTIFY (02 R66). -/
def execWatchNotify (n : Nat) (f : IfpFrame) (ce : Bool) (s : State) : Host.Outcome State Fault Refusal :=
  .next (s.frameRow 6 n f ce)

/-- WATCH_CANCEL (02 R66). -/
def execWatchCancel (n : Nat) (f : IfpFrame) (ce : Bool) (s : State) : Host.Outcome State Fault Refusal :=
  .next (s.frameRow 7 n f ce)

/-- SCHED (09 R251). -/
def execSched (n : Nat) (f : IfpFrame) (ce : Bool) (s : State) : Host.Outcome State Fault Refusal := .next (s.frameRow 8 n f ce)

/-- IFP_ACK (R298). -/
def execIfpAck (n : Nat) (f : IfpFrame) (ce : Bool) (s : State) : Host.Outcome State Fault Refusal := .next (s.frameRow 9 n f ce)

/-- IFP_NACK (R298). -/
def execIfpNack (n : Nat) (f : IfpFrame) (ce : Bool) (s : State) : Host.Outcome State Fault Refusal := .next (s.frameRow 10 n f ce)

/-- IFP_ERROR (R304). -/
def execIfpError (n : Nat) (f : IfpFrame) (ce : Bool) (s : State) : Host.Outcome State Fault Refusal := .next (s.frameRow 11 n f ce)

/-- CNP (R303). -/
def execCnp (n : Nat) (f : IfpFrame) (ce : Bool) (s : State) : Host.Outcome State Fault Refusal := .next (s.frameRow 12 n f ce)

/-- The report that a chunk has passed its check: axis, sequence, phase, shard, chunk and destination. -/
def State.controlReport (s : State) (r : List Nat) : State :=
  match r with
  | [axis, seq, phase, shard, chunk, dest] => s.collChecked axis seq ⟨phase, shard, chunk, dest⟩
  | _ => s

/-- CONTROL (R295): a control frame arrives; `report` says the chunk whose check it reports (12 R324), if it reports one.
The other messages of the Collator, the Imposer and the update have rows of their own. -/
def execControl (n : Nat) (f : IfpFrame) (ce : Bool) (report : List Nat) (s : State) : Host.Outcome State Fault Refusal :=
  .next (s.onLink n fun s =>
    if f.typ ≠ 13 then s
    else
      let new := decide (f.dst = s.node) && decide (f.icrc = crc32 (ifpHeader f ++ f.payload)) &&
        decide (f.seq = (s.rxFor f).1.expected)
      let t := s.frameIn n f ce
      if new then t.controlReport report else t)

/-- ACK_TIMER (R298): a standalone ACK for a connection with frames received and not acknowledged. -/
def execAckTimer (node cls : Nat) (s : State) : Host.Outcome State Fault Refusal :=
  .next (s.whenUp fun s => match s.connRx node cls with
    | some r => if 0 < r.sinceAck then s.ifpBare node cls 9 r.ackSeq else s
    | none => s)

/-- RETRANSMISSION_TIMEOUT (R298, R299): a frame is resent, or its connection becomes LOST. -/
def execRetransmissionTimeout (node cls seq : Nat) (s : State) : Host.Outcome State Fault Refusal :=
  .next (s.whenUp fun s => s.resend node cls fun u => u.frame.seq = seq ∧ u.sent)

/-- NO_ROUTE_TIMEOUT (R298): a connection whose destination still has no route becomes LOST. -/
def execNoRouteTimeout (node cls : Nat) (s : State) : Host.Outcome State Fault Refusal :=
  .next (s.whenUp fun s =>
    if (s.routeGroup node).isNone ∧ (s.fab.tx.any fun c => c.node = node ∧ c.cls = cls) = true then s.connLost node cls else s)

/-- RATE_INCREASE (R303): 20 µs without ECE or CNP raise the rate of a connection, or of a queue pair (class 4), by
2 Gb/s, up to the port rate. -/
def execRateIncrease (node cls : Nat) (s : State) : Host.Outcome State Fault Refusal :=
  .next (s.whenUp fun s =>
    if cls = roceClass then s.updQp node fun q =>
      { q with rate := min (q.rate + 16) (s.linkRate (fieldAt q.ctx 7 1)) }
    else match s.fab.tx.find? fun c => c.node = node ∧ c.cls = cls with
    | some c => s.setConnTx { c with rate := min (c.rate + 16) (s.portRate node cls) }
    | none => s)

end Sys2Proof.Machine
end

