-- ==== Sys2Proof/Machine/Lines.lean ====
section
/-! DEFINITION. Accesses that waited, and go on: for a window line's snoop (15_host_link.md R373 to R375), for memory that
admits no access (10_memory.md R272, R273, R283), or behind others of their connection (11_links.md R297). -/

namespace Sys2Proof.Machine

/-! ### Accesses of the companion (15 R372, R374, R376) -/

/-- Whether the range of a request lies within one line (Table 15.4). -/
def sizeOk (a n : Nat) : Bool := decide (0 < n) && decide (a % 64 + n ≤ 64)

/-- RD_NC: a read of this node is served once no transaction of its line is pending and its memory admits it; one of
another node goes through the fabric. -/
def State.gclRead (s : State) (tag a n : Nat) : State :=
  if ! sizeOk a n then s.gclFault tag faultAccessKind s.node a
  else if nodeOf a = s.node then
    if s.stalledRange (localOf a) n then s.stall (.read tag a n)
    else if (s.snoopOf (localOf a / 64)).isSome then s.snoopFor (localOf a / 64) false (.read tag a n)
    else match s.serveLoad (localOf a) n with
    | (s, .ok d) => s.gclSend (.cmpData tag 0 a d)
    | (s, .error f) => s.gclFault tag f s.node a
  else if (s.aliasQp (nodeOf a)).isSome then s.gclFault tag faultAccessKind s.node a
  else s.ifpRead (nodeOf a) a n (.gclRead tag)

/-- WR_NC, complete when its write is visible, and WR_POSTED, never answered and discarded when it meets a fault (R304). -/
def State.gclStore (s : State) (tag : Option Nat) (a : Nat) (d : List Byte) : State :=
  let fault := fun (s : State) f => match tag with
    | some t => s.gclFault t f s.node a
    | none => s.fabricErr f s.node a
  if ! sizeOk a d.length then fault s faultAccessKind
  else if nodeOf a = s.node then
    if s.stalledRange (localOf a) d.length then s.stall (.write tag a d)
    else if (s.snoopOf (localOf a / 64)).isSome then s.snoopFor (localOf a / 64) true (.write tag a d)
    else match s.serveStore (localOf a) d, tag with
    | (s, none), some t => s.unlessHeld fun s => s.gclSend (.cmp t)
    | (s, none), none => s
    | (s, some f), _ => fault s f
  else if (s.aliasQp (nodeOf a)).isSome then fault s faultAccessKind
  else s.ifpWrite (nodeOf a) a d (match tag with
    | some t => .gclWrite t
    | none => .posted)

/-! ### Window lines (15 R373 to R375) -/

/-- RD_SHARED and RD_OWN of a line with no transaction pending (Table 15.6). -/
def State.lineGrant (s : State) (own : Bool) (tag line : Nat) : State :=
  let d := s.dirOf line
  if s.stalledRange (64 * line) 64 then s.stall (.request own tag (s.node * 2 ^ 48 + 64 * line))
  else if d = .excl then (s.gclErrSet 2).gclSend (.err tag 1)
  else match s.serveLoad (64 * line) 64 with
    | (s, .error f) => s.gclFault tag f s.node (64 * line)
    | (s, .ok b) =>
      let grant : DirState := if own || decide (d = .inv) then .excl else .shared
      (s.setDir line grant).gclSend (.cmpData tag (if grant = .excl then 2 else 1) (s.node * 2 ^ 48 + 64 * line) b)

/-- RD_SHARED and RD_OWN: outside the window ERR, in the directory ERR; a line with a transaction pending is waited for. -/
def State.lineRequest (s : State) (own : Bool) (tag a : Nat) : State :=
  if ! s.coherent a then s.gclSend (.err tag 3)
  else if s.inDirectory (localOf a) then s.gclFault tag faultAddrRange s.node a
  else
    let l := localOf a / 64
    if (s.snoopOf l).isSome then s.snoopFor l false (.request own tag a) else s.lineGrant own tag l

/-- An access that waited is made. -/
def State.lineRun (s : State) (w : LineWork) : State :=
  match w with
  | .load node cls num a n => if cls = roceClass then s.roceLoad node num a n else s.fabricLoad node cls num a n
  | .store node cls num a d => if cls = roceClass then s.roceStore node num a d else s.fabricStore node cls num a d
  | .read tag a n => s.gclRead tag a n
  | .write tag a d => s.gclStore tag a d
  | .request own tag a => s.lineRequest own tag a
  | .frame f => (s.frameVisible f.src f.cls f.seq).frameApply f
  | .command n => s.lineWake n

/-- An access takes its turn: behind another of its connection that still waits it waits too (11 R297, 15 R376). -/
def State.takeTurn (s : State) (w : LineWork) : State :=
  if w.conn.any fun c => s.connBusy c.1 c.2 then s.stall w else s.lineRun w

/-- The accesses that wait are tried again in order of arrival. -/
def State.restart (s : State) : State :=
  s.mem.stalled.foldl State.takeTurn { s with mem := { s.mem with stalled := [] } }

/-- The end of a snoop: the line is I after SNP_INV, or when it was given up meanwhile, and S after SNP_SHARE; what
waited goes on in order of arrival. -/
def State.snoopDone (s : State) (x : Snoop) : State :=
  let s := { s with gcl := { s.gcl with
    snoops := s.gcl.snoops.filter fun y => y.line ≠ x.line
    reqs := s.gcl.reqs.filter fun r => decide (r.2 ≠ GclPurpose.snoop x.line)
    waiting := s.gcl.waiting.filter fun r => decide (r.1 ≠ GclPurpose.snoop x.line) } }
  let s := s.gclTagFreed
  let s := s.setDir x.line (if x.inval || decide (s.dirOf x.line = .inv) then .inv else .shared)
  (x.work.foldl State.lineRun s).restart

/-- The bytes of a whole line written back. -/
def State.lineWrite (s : State) (line : Nat) (d : List Byte) : State × Option Nat := s.serveStore (64 * line) (d.take 64)

/-! ### Memory that admits accesses again (10 R272, R273, R283) -/

/-- Accesses and commands that waited for memory go on: a stack admits granules again, or a move has ended. -/
def State.memoryGoesOn (s : State) : State := (s.wakeAll [8, 30]).restart

/-- STACK_TEMP_READ (R272, R273): a stack's reading sets its level; a failed read counts as 100 °C and sets
SENSOR_FAIL; a stack that reaches level 4, or a sensor that fails, is an alarm cause of vector 16 (R378). When the level
falls below 4, what waited on the stack resumes, a BOUNDARY that evacuates one of its channels among it (Table 10.6). -/
def execStackTempRead (stack : Nat) (r : Reading) (s : State) : Host.Outcome State Fault Refusal :=
  .next (if 16 ≤ stack then s else
    let was := s
    let off := Reg.stackTemp stack
    let failed := decide (r = .failed)
    let t := match r with
      | .value c => c % 256
      | .failed => 100
    let old := s.fld off 30 28
    let new := stackLevel old t
    let wasFail := s.fld off 31 31
    let s := s.setFld off 31 31 (ofBool failed)
    let s := s.setFld off 30 28 new
    let s := s.setFld off 23 16 (max (s.fld off 23 16) t)
    let s := s.setFld off 7 0 t
    let s := if new = 4 ∧ old ≠ 4 then s.irq 16 else s
    let s := if failed ∧ wasFail = 0 then s.irq 16 else s
    let s := s.alarmRose was
    if old = 4 ∧ new ≠ 4 then s.memoryGoesOn else s)

end Sys2Proof.Machine
end

