-- ==== Sys2Proof/Machine/HostLink.lean ====
section
/-! DEFINITION. The Gendefa Coherent Link (15_host_link.md R365 to R381): flits, the messages of the companion, and the
loss of the link. A message row is one message delivered; a flit row delivers every message in the flit (log 1). -/

namespace Sys2Proof.Machine

/-- An event of the GCL while it is up. -/
def State.onGcl (s : State) (f : State → State) : State := s.whenUp fun s => if s.gclUp then f s else s

/-! ### Requests (R371, R372, R376) -/

/-- RD_NC (R372). -/
def execRdNc (tag a n : Nat) (s : State) : Host.Outcome State Fault Refusal :=
  .next (s.onGcl fun s => s.takeTurn (.read tag a n))

/-- WR_NC (R376). -/
def execWrNc (tag a : Nat) (d : List Byte) (s : State) : Host.Outcome State Fault Refusal :=
  .next (s.onGcl fun s => s.takeTurn (.write (some tag) a d))

/-- WR_POSTED (R376). -/
def execWrPosted (a : Nat) (d : List Byte) (s : State) : Host.Outcome State Fault Refusal :=
  .next (s.onGcl fun s => s.takeTurn (.write none a d))

/-! ### Coherence (R373 to R375) -/

/-- RD_SHARED (R374). -/
def execRdShared (tag a : Nat) (s : State) : Host.Outcome State Fault Refusal :=
  .next (s.onGcl fun s => s.takeTurn (.request false tag a))

/-- RD_OWN (R374). -/
def execRdOwn (tag a : Nat) (s : State) : Host.Outcome State Fault Refusal :=
  .next (s.onGcl fun s => s.takeTurn (.request true tag a))

/-- WR_BACK: the line is written and given up; while a snoop of it is pending it is taken as the snoop's data. A
WR_BACK of a line that is not in E breaks Table 15.6. -/
def State.gclWriteBack (s : State) (tag a : Nat) (d : List Byte) : State :=
  let l := localOf a / 64
  if ! s.coherent a then s.gclSend (.err tag 3)
  else if s.dirOf l ≠ .excl then (s.gclErrSet 2).gclSend (.err tag 1)
  else match s.lineWrite l d with
    | (s, none) => (s.setDir l .inv).gclSend (.cmp tag)
    | (s, some f) => s.gclFault tag f s.node a

/-- WR_BACK (R374, R375). -/
def execWrBack (tag a : Nat) (d : List Byte) (s : State) : Host.Outcome State Fault Refusal :=
  .next (s.onGcl fun s => s.gclWriteBack tag a d)

/-- EVICT_CLEAN: the line is given up. -/
def State.gclEvict (s : State) (tag a : Nat) : State :=
  let l := localOf a / 64
  if ! s.coherent a then s.gclSend (.err tag 3)
  else if s.dirOf l = .inv then (s.gclErrSet 2).gclSend (.err tag 1)
  else (s.setDir l .inv).gclSend (.cmp tag)

/-- EVICT_CLEAN (R374, R375). -/
def execEvictClean (tag a : Nat) (s : State) : Host.Outcome State Fault Refusal :=
  .next (s.onGcl fun s => s.gclEvict tag a)

/-- What a request of the device in flight is for. -/
def State.gclPurpose (s : State) (tag : Nat) : Option GclPurpose := (s.gcl.reqs.find? fun r => r.1 = tag).map (·.2)

/-- The snoop in flight with a tag. -/
def State.snoopTagged (s : State) (tag : Nat) : Option Snoop :=
  match s.gclPurpose tag with
  | some (.snoop line) => s.snoopOf line
  | _ => none

/-- SNP_ACK: the snoop is complete. -/
def State.snoopAck (s : State) (tag : Nat) : State :=
  match s.snoopTagged tag with
  | some x => s.snoopDone x
  | none => s

/-- SNP_ACK (R374, R375). -/
def execSnpAck (tag : Nat) (s : State) : Host.Outcome State Fault Refusal := .next (s.onGcl fun s => s.snoopAck tag)

/-- SNP_DATA: the line is written to HBM, and the snoop is complete. -/
def State.snoopData (s : State) (tag : Nat) (d : List Byte) : State :=
  match s.snoopTagged tag with
  | some x => (s.lineWrite x.line d).1.snoopDone x
  | none => s

/-- SNP_DATA (R374). -/
def execSnpData (tag : Nat) (d : List Byte) (s : State) : Host.Outcome State Fault Refusal :=
  .next (s.onGcl fun s => s.snoopData tag d)

/-! ### Completions of the device's requests (R376, R377, R379) -/

/-- A request of the device is no longer in flight; one that waited for a tag goes on. -/
def State.gclRetire (s : State) (tag : Nat) : State :=
  ({ s with gcl := { s.gcl with reqs := s.gcl.reqs.filter fun r => r.1 ≠ tag } }).gclTagFreed

/-- CMP: a write of the device has completed. -/
def State.gclComplete (s : State) (tag : Nat) : State :=
  match s.gclPurpose tag with
  | some (.reply n last) => ((s.gclRetire tag).writeCompleted n last).fetchAll
  | _ => s

/-- CMP (R377). -/
def execCmp (tag : Nat) (s : State) : Host.Outcome State Fault Refusal := .next (s.onGcl fun s => s.gclComplete tag)

/-- Whether a slot of a ring is one whose fetch is still wanted. -/
def State.fetchWanted (s : State) (n slot : Nat) : Bool :=
  let size := s.ringSize n
  s.ringOn n && decide ((slot + size - s.head n) % size < ((s.ring n).fetchPtr + size - s.head n) % size)

/-- CMP_DATA: the bytes of a fetched slot arrive. -/
def State.gclData (s : State) (tag : Nat) (d : List Byte) : State :=
  match s.gclPurpose tag with
  | some (.fetch n slot) =>
    let s := s.gclRetire tag
    (if s.fetchWanted n slot then
      s.updRing n fun r => { r with slots := (r.slots.filter fun x => x.1 ≠ slot) ++ [(slot, d.take 32)] }
    else s).fetchAll
  | _ => s

/-- CMP_DATA (R376). -/
def execCmpData (tag : Nat) (d : List Byte) (s : State) : Host.Outcome State Fault Refusal :=
  .next (s.onGcl fun s => s.gclData tag d)

/-- ERR: a fetch or a reply write has failed: HOST_FAULT, the ring stops, and a lost reply's tag is freed. -/
def State.gclError (s : State) (tag : Nat) : State :=
  match s.gclPurpose tag with
  | some (.fetch n _) => (s.gclRetire tag).hostFault n
  | some (.reply m _) =>
    let s := s.gclRetire tag
    match s.cmdOf m with
    | some c => ((s.hostFault c.ring).freeTag c).replyPump c.ring
    | none => s
  | _ => s

/-- ERR (R379). -/
def execErr (tag _code : Nat) (s : State) : Host.Outcome State Fault Refusal := .next (s.onGcl fun s => s.gclError tag)

/-! ### Messages in slots (R368, Tables 15.4, 15.5) -/

/-- Data bytes of a message by its opcode: whether it has data, and whether it is a whole line. -/
def messageSlots (h : List Byte) : Nat :=
  let a := fieldAt h 4 8
  let n := fieldAt h 1 1
  match fieldAt h 0 1 with
  | 0x04 => 1 + dataSlots a n
  | 0x05 => 1 + dataSlots a n
  | 0x60 => 1 + dataSlots a n
  | 0x06 => 5
  | 0x61 => 5
  | _ => 1

/-- A whole message delivered: its header slot and data slots. -/
def State.gclMessage (s : State) (m : List Byte) : State :=
  let tag := fieldAt m 2 2 % 4096
  let a := fieldAt m 4 8
  let n := fieldAt m 1 1
  let d := ((m.drop 16).drop (a % 16)).take n
  match fieldAt m 0 1 with
  | 0x01 => s.takeTurn (.read tag a n)
  | 0x02 => s.takeTurn (.request false tag a)
  | 0x03 => s.takeTurn (.request true tag a)
  | 0x04 => s.takeTurn (.write (some tag) a d)
  | 0x05 => s.takeTurn (.write none a d)
  | 0x06 => s.gclWriteBack tag a (m.drop 16)
  | 0x07 => s.gclEvict tag a
  | 0x40 => s.gclComplete tag
  | 0x41 => s.snoopAck tag
  | 0x42 => s.gclError tag
  | 0x60 => s.gclData tag d
  | 0x61 => s.snoopData tag (m.drop 16)
  | _ => s

/-- The class of a received message by its opcode (Table 15.5). -/
def messageClass (op : Nat) : Nat := if op < 0x20 then 0 else if op < 0x40 then 1 else if op < 0x60 then 2 else 3

/-- One slot of a flit: the start of a message, a data slot of one, or unused. The space of a whole message is freed as
it is taken (log 18). -/
def State.gclSlot (s : State) (b : List Byte) : State :=
  let p := s.gcl.partials
  if p.isEmpty ∧ fieldAt b 0 1 = 0 then s
  else
    let m := p ++ b
    let whole := decide (16 * messageSlots m ≤ m.length)
    let s := { s with gcl := { s.gcl with
      partials := if whole then [] else m
      creditDue := if whole then s.gcl.creditDue.modify (messageClass (fieldAt m 0 1)) (· + messageSlots m)
        else s.gcl.creditDue } }
    if whole then s.onGcl fun s => s.gclMessage m else s

/-! ### Flits (R367, R369, R370) -/

/-- Flits below a number are acknowledged. -/
def State.gclAcked (s : State) (ack : Nat) : State :=
  let left := s.gcl.unacked.filter fun u => ! seqBefore u.1 ack
  if left.length = s.gcl.unacked.length then s
  else ({ s with gcl := { s.gcl with unacked := left, replayCount := 0 } }).gclFlush

/-- Receive credits returned for a class. -/
def State.gclCredit (s : State) (cls n : Nat) : State :=
  ({ s with gcl := { s.gcl with credits := s.gcl.credits.modify cls (· + n) } }).gclFlush

/-- A received flit is discarded: the awaited one is named in a NACK. -/
def State.gclNack (s : State) : State :=
  ({ s with gcl := { s.gcl with nacks := s.gcl.nacks ++ [s.gcl.seqRx], awaiting := true } }).flitSend s.gcl.seqTx 2 []

/-- A flit's two codewords decoded (R367): the 248 data bytes, none if uncorrectable, and the codewords corrected. -/
def flitDecode (b : List Byte) : Option (List Byte) × Nat :=
  let half := fun k => (b.zipIdx.filter fun x => x.2 % 2 = k).map fun x => x.1.toNat
  match rsDecode 4 2 (half 0), rsDecode 4 2 (half 1) with
  | some x, some y =>
    (some (((x.1.zip y.1).map fun p => [BitVec.ofNat 8 p.1, BitVec.ofNat 8 p.2]).flatten.take 248),
      ofBool (decide (0 < x.2)) + ofBool (decide (0 < y.2)))
  | some x, none => (none, ofBool (decide (0 < x.2)))
  | none, some y => (none, ofBool (decide (0 < y.2)))
  | none, none => (none, 0)

/-- The flits from a number on are replayed. -/
def State.gclReplay (s : State) (seq : Nat) : State :=
  let s := s.gclAcked seq
  if s.gcl.unacked.isEmpty then s
  else
    let s := s.addSat Reg.gclErr 31 16 1
    s.gcl.unacked.foldl (fun s u => s.flitSend u.1 0 u.2.bytes) { s with gcl := { s.gcl with
      resent := s.gcl.resent ++ s.gcl.unacked.map (·.1), replayCount := s.gcl.replayCount + 1 } }

/-! ### Loss of the link (R380) -/

/-- The link is not coming back: FATAL, the window lines in E are poisoned and those in S return to I; what waited for a
snoop goes on. Recovery is by full reset alone. -/
def State.gclLost (s : State) : State :=
  let s := (s.setFld Reg.gclState 31 29 0).fatal
  let held := (s.gcl.dir.filter fun e => e.2 = .excl).map (·.1)
  let s := { s with
    mem := { s.mem with poison := (s.mem.poison ++ held).eraseDups }
    gcl := { s.gcl with dir := [] } }
  s.gcl.snoops.foldl (fun s x => match s.snoopOf x.line with
    | some y => s.snoopDone y
    | none => s) s

/-- The link goes DOWN and retrains at once; under JOINT, a full reset with cause ESCALATION (17 R413). -/
def State.gclDown (s : State) (signalled : Bool) : State :=
  if s.fld Reg.cdcRstmode 3 3 = 0 then s.beginReset 7
  else if signalled then s.gclLost
  else s.setFld Reg.gclState 31 29 1

/-- GCL_DOWN (R380); `signalled` says that the companion's side was reset, else the cause is loss of signal. -/
def execGclDown (signalled : Bool) (s : State) : Host.Outcome State Fault Refusal :=
  .next (s.onGcl fun s => s.gclDown signalled)

/-- A NACK: the named flit and those after it are replayed; a flit replayed 16 times takes the link down. -/
def State.gclNacked (s : State) (seq : Nat) : State :=
  let s := s.gclReplay seq
  if s.gcl.replayCount = 16 then s.gclDown false else s

/-- GCL_NACK_FLIT (R369). -/
def execGclNackFlit (seq : Nat) (s : State) : Host.Outcome State Fault Refusal :=
  .next (s.onGcl fun s => s.gclNacked (seq % 1024))

/-- A flit whose codewords and CRC hold is taken (R367 to R370); IDLE flits answer a DATA flit and no other (log 131,
DESIGN CHOICE). -/
def State.gclTake (s : State) (b : List Byte) : State :=
  let h := fieldAt b 0 4
  let seq := bits h 9 0
  match bits h 21 20 with
  | 2 => s.gclNacked (bits h 19 10)
  | 3 => s
  | t =>
    if t = 0 ∧ seq ≠ s.gcl.seqRx then
      if seqBefore s.gcl.seqRx seq ∧ s.gcl.awaiting = false then s.gclNack else s
    else if t = 1 ∧ s.gcl.awaiting then s
    else
      let s := if t = 0 then { s with gcl := { s.gcl with seqRx := (seq + 1) % 1024, awaiting := false } } else s
      let s := (s.gclAcked (bits h 19 10)).gclCredit (bits h 23 22) (bits h 31 24)
      if t = 0 then
        ((List.range 15).foldl (fun s i => s.onGcl fun s => s.gclSlot ((b.drop (4 + 16 * i)).take 16)) s).onGcl
          State.flitIdle
      else s

/-- GCL_DATA_FLIT (R367 to R370): 256 bytes as received. A flit that cannot be corrected, or whose CRC fails, is
discarded with a NACK. -/
def execGclDataFlit (b : List Byte) (s : State) : Host.Outcome State Fault Refusal :=
  .next (s.onGcl fun s =>
    if b.length ≠ 256 then s
    else
      let r := flitDecode b
      let s := s.addSat Reg.gclErr 63 32 r.2
      match r.1 with
      | none => s.gclNack
      | some d => if crc32 (d.take 244) ≠ fieldAt d 244 4 then s.gclNack else s.gclTake d)

/-- GCL_RETRAINED (R380): buffers, numbers and credits are kept, and the first unacknowledged flit and those after it are
sent again; what waited goes on. -/
def execGclRetrained (t : GclTraining) (s : State) : Host.Outcome State Fault Refusal :=
  .next (s.whenUp fun s =>
    if s.fld Reg.gclState 31 29 ≠ 1 then s
    else
      let s := (s.gclTrained t).gclErrSet 0
      let s := match s.gcl.unacked with
        | [] => s
        | u :: _ => s.gclReplay u.1
      ({ s with gcl := { s.gcl with replayCount := 0 } }).gclFlush.fetchAll)

/-- GCL_LOSS_TIMEOUT (R380): the link has not come back within 100 ms. -/
def execGclLossTimeout (s : State) : Host.Outcome State Fault Refusal :=
  .next (s.whenUp fun s => if s.fld Reg.gclState 31 29 = 1 then s.gclLost else s)

end Sys2Proof.Machine
end

