-- ==== Sys2Proof/Machine/Publish.lean ====
section
/-! DEFINITION. Placement and publication of an imposition (09_imposer.md R243 to R253, R263). -/

namespace Sys2Proof.Machine

/-! ### The placement function (R246) -/

/-- The reserve copse at or after an index of the snake order that is not out, by index; `fuel` bounds the search. -/
def nextReserve (gone : List Nat) : Nat → Nat → Option Nat
  | 0, _ => none
  | fuel + 1, n => if 256 ≤ n then none else if gone.contains (snake n) then nextReserve gone fuel (n + 1) else some n

/-- One pass of the loop over `out`: every base copse carried by `o` is carried by the next reserve copse. -/
def placePass (gone : List Nat) (o : Nat) : List (Nat × Nat) → Nat → Option (List (Nat × Nat) × Nat)
  | [], n => some ([], n)
  | x :: xs, n =>
    if x.2 = o then
      match nextReserve gone 257 n with
      | none => none
      | some m => (placePass gone o xs (m + 1)).map fun r => ((x.1, snake m) :: r.1, r.2)
    else (placePass gone o xs n).map fun r => (x :: r.1, r.2)

/-- The loop over `out`, `seen` the entries before. -/
def placeLoop (seen : List Nat) : List Nat → List (Nat × Nat) → Nat → Option (List (Nat × Nat))
  | [], cs, _ => some cs
  | o :: os, cs, n =>
    match placePass (seen ++ [o]) o cs n with
    | none => none
    | some r => placeLoop (seen ++ [o]) os r.1 r.2

/-- The carrier of each of `u` base copses, given the copses out in order; none when they cannot all be placed. -/
def placeUnits (out : List Nat) (u : Nat) : Option (List (Nat × Nat)) :=
  if 256 < u then none else placeLoop [] out ((List.range u).map fun q => (snake q, snake q)) u

/-- When a copse's change became pending: the earlier of its retirement and its vacating. -/
def OutCopse.since (x : OutCopse) : Nat :=
  match x.retired, x.vacated with
  | some a, some b => min a b
  | some a, none => a
  | none, some b => b
  | none, none => 0

/-- The copses out, in the order in which their changes became pending. -/
def State.outOrder (s : State) : List Nat :=
  (sortBy (fun a b => decide (a.since ≤ b.since)) s.imp.out).map (·.copse)

/-- Base copses of an imposition: U of R246. -/
def Imposition.bases (i : Imposition) : Nat := ceilDiv (i.spread * i.cores) 16

/-! ### Applying the changes (R247, R252, R277) -/

/-- The physical page at which a page's contents lie. -/
def State.placeOf (s : State) (p : Nat) : Nat := ((s.mem.remap.find? fun r => r.1 = p).map (·.2)).getD p

/-- Pages moved, in order, to free pages of the channels taken in ascending number; none when one finds no room. -/
def State.movePages : List Nat → State → Option State
  | [], s => some s
  | p :: ps, s =>
    match (List.range 256).find? fun ch => s.channelUp ch && decide (s.channelUsed ch < channelPages) with
    | none => none
    | some ch =>
      let q := s.pickPage ch
      State.movePages ps { q.2 with mem := { q.2.mem with
        remap := (q.2.mem.remap.filter fun r => r.1 ≠ p) ++ [(p, q.1)] } }

/-- The pages that lie on a channel, in ascending address order. -/
def State.pagesOn (s : State) (ch : Nat) : List Nat :=
  sortBy (fun a b => decide (a ≤ b)) (s.mem.usedPages.filter fun p => s.placeOf p % 256 = ch)

/-- The entry of a copse in the list `out` changed; one neither retired nor vacated leaves it. -/
def State.setOut (s : State) (c : Nat) (retired vacated : Option Nat → Option Nat) : State :=
  let old := (s.imp.out.find? fun x => x.copse = c).getD ⟨c, none, none⟩
  let new : OutCopse := ⟨c, retired old.retired, vacated old.vacated⟩
  let rest := s.imp.out.filter fun x => x.copse ≠ c
  { s with imp := { s.imp with out := if new.retired.isNone && new.vacated.isNone then rest else rest ++ [new] } }

/-- A channel is mapped out: its pages move, and it reads as evacuating until their moves have ended (Table 10.16); it is
recorded in the flash, and the device has one channel less. -/
def State.evacuate (s : State) (ch : Nat) : Option State :=
  let l := s.pagesOn ch
  let s := { s with mem := { s.mem with outChannels := s.mem.outChannels ++ [ch] } }
  (State.movePages l s).map fun s =>
    let s := (s.setFld (Reg.channelState ch) 63 62 (if l.isEmpty then 3 else 2)).addRepair ch (s.fld (Reg.channelState ch) 61 59)
    s.setFld Reg.imposerCapacity 15 0 (s.fld Reg.imposerCapacity 15 0 - 1)

/-- One pending change applied; none when pages find no room. -/
def State.applyChange (s : State) (x : Nat × Change) : Option State :=
  match x.2 with
  | .retire c =>
    if s.isRetired c then some s
    else
      let s := (s.setFld (Reg.copseState c) 31 28 3).wakeCopse c
      let s := s.setFld Reg.imposerCapacity 31 16 (s.fld Reg.imposerCapacity 31 16 - 16)
      some (s.setOut c (fun _ => some x.1) id)
  | .vacate c => some (s.setOut c id fun v => some (v.getD x.1))
  | .restore c => some (s.setOut c id fun _ => none)
  | .evacuate ch => if s.mem.outChannels.contains ch then some s else s.evacuate ch
  | .vacateChannel ch =>
    if s.mem.outChannels.contains ch ∨ s.mem.vacated.contains ch then some s
    else
      let l := s.pagesOn ch
      State.movePages l { s with mem := { s.mem with vacated := s.mem.vacated ++ [ch] } }

/-- The changes that a publication applies: those with a place from `lo` up to `hi`; the vacating of a copse in the
sweep waits (Table 9.6). -/
def State.due (s : State) (lo hi : Nat) : List (Nat × Change) :=
  s.imp.changes.filter fun x => decide (lo ≤ x.1 ∧ x.1 < hi) && (match x.2 with
    | .vacate c => ! s.imp.sweep.any fun y => y.1 = c
    | _ => true)

/-! ### The imposition published (R243, R245, R249) -/

/-- Positions in service that carry units: without those of copses retired or vacated. -/
def State.positions (s : State) : Nat :=
  s.fld Reg.imposerCapacity 31 16 - 16 * s.imp.out.countP fun x => x.retired.isNone

/-- The largest power of two not above a number, up to 32. -/
def powerBelow (n : Nat) : Nat :=
  if 32 ≤ n then 32 else if 16 ≤ n then 16 else if 8 ≤ n then 8 else if 4 ≤ n then 4 else if 2 ≤ n then 2 else 1

/-- The 16-bit fields of AXIS_SIZE and AXIS_RANK. -/
def Cmd.axisSizes (c : Cmd) : List Nat := (List.range 4).map fun i => c.par (44 + 2 * i) 2
def Cmd.axisRanks (c : Cmd) : List Nat := (List.range 4).map fun i => c.par (52 + 2 * i) 2

/-- Whether a command is an IMPOSE with MODE NEW. -/
def Cmd.isNew (c : Cmd) : Bool := decide (c.opcode = 0x0304 ∧ c.par 32 1 = 0)

/-- The imposition that a command publishes, or a DETAIL. NEW computes it; BOUNDARY and MIGRATE keep L, Λ, f and the job
shape, and MIGRATE the operations of the plan. -/
def State.nextImposition (s : State) (c : Cmd) : Except Nat Imposition :=
  if c.isNew then
    let t := c.par 40 4
    let lc := if c.par 38 2 = 0 then s.positions else c.par 38 2
    if lc = 0 then .error dCapacity
    else
      let lam := 64 * ceilDiv (ceilDiv t lc) 64
      let l := ceilDiv t lam
      let f := if 2 * l ≤ s.positions then powerBelow (s.positions / l) else 1
      if 512 < lam then .error dSliverRange
      else .ok { number := s.imp.nextNumber, tokens := t, cores := l, sliver := lam, spread := f,
                 axisSize := c.axisSizes, axisRank := c.axisRanks, ops := s.imp.ops }
  else match s.imp.cur with
    | none => .error dNoImposition
    | some i => .ok { i with number := s.imp.nextNumber, ops := if c.opcode = 0x0304 then s.imp.ops else i.ops }

/-- What an IMPOSE does beside placing the units: DIM0 of the tensors by token is T (R243), SCHED_CFG takes effect (07
R186), every tensor finds its place (R451), and NEW numbers collectives from 0 again (12 R314). -/
def State.imposed (s : State) (c : Cmd) (i : Imposition) : Except Nat State :=
  if c.opcode ≠ 0x0304 then .ok s
  else if c.isNew && s.tens.any fun t => tokenRole t.role && decide (t.dims.headD 0 ≠ i.tokens) then .error dBadShape
  else
    let s := { s with imp := { s.imp with schedApplied := s.reg Reg.schedCfg } }
    match s.account with
    | .error d => .error d
    | .ok s =>
      if c.isNew then
        .ok { (List.range 4).foldl (fun s a => s.setReg (Reg.collSeq a) 0) s with coll := { s.coll with dones := [] } }
      else .ok s

/-! ### Moves (R250) -/

/-- The moves of units between two placements. -/
def unitMoves (old new : State) (number : Nat) : List Move :=
  match old.imp.cur, new.imp.cur with
  | some a, some b =>
    ((List.range (min a.cores b.cores)).map fun k =>
      (List.range (min a.spread b.spread)).filterMap fun p =>
        if old.coreOf k p = new.coreOf k p then none
        else some { kind := MoveKind.unit k p, number := number, src := old.coreOf k p, dst := new.coreOf k p,
                    begun := false, ended := false, cells := [], regs := [], lost := 0, heldDeliveries := [] }).flatten
  | _, _ => []

/-- The moves of pages between two placements. -/
def pageMoves (old new : State) (number : Nat) : List Move :=
  (old.mem.usedPages.filter new.mem.usedPages.contains).filterMap fun p =>
    if old.placeOf p = new.placeOf p then none
    else some { kind := MoveKind.page p, number := number, src := old.placeOf p, dst := new.placeOf p, begun := false,
                ended := false, cells := [], regs := [], lost := 0, heldDeliveries := [] }

/-- The tallies a publication raises when what it superseded has drained (R251, R253). -/
def State.drainTallies (s : State) (c : Cmd) (hi : Nat) : List Nat :=
  if c.opcode = 0x0304 then
    (if bit (c.par 33 1) 1 = 1 then [c.par 36 2] else []) ++
      (s.imp.migrateTallies.filter fun x => x.1 < hi).map (·.2)
  else if bit (c.par 36 1) 1 = 1 then [c.par 56 2] else []

/-- Changes applied, one after another. -/
def State.applyChanges (l : List (Nat × Change)) (s : State) : Option State :=
  l.foldl (fun o x => o.bind fun s => s.applyChange x) (some s)

/-- The placement that a command publishes, or a DETAIL. -/
def State.replaced (s : State) (c : Cmd) (due : List (Nat × Change)) : Except Nat State :=
  match State.applyChanges due s with
  | none => .error dHbmFit
  | some t =>
    match t.nextImposition c with
    | .error d => .error d
    | .ok i =>
      match placeUnits t.outOrder i.bases with
      | none => .error dCapacity
      | some cs =>
        ({ t with imp := { t.imp with
            cur := some i
            nextNumber := t.imp.nextNumber + 1
            carriers := cs.filter fun x => x.1 ≠ x.2
            changes := t.imp.changes.filter fun x => ! due.contains x } }).imposed c i

/-- The superseded imposition drains, or has drained already; the capacity tally is the IMPOSE's own, and is raised when
a change was applied (R251, R252). -/
def State.supersede (s : State) (old : State) (c : Cmd) (hi : Nat) (changed : Bool) : State :=
  let tallies := old.drainTallies c hi
  let s := if c.opcode = 0x0304 then
      { s with imp := { s.imp with
        capTally := if bit (c.par 33 1) 0 = 1 then some (c.par 34 2) else none
        migrateTallies := s.imp.migrateTallies.filter fun x => hi ≤ x.1 } }
    else s
  let s := match old.imp.cur with
    | none => s
    | some i =>
      if s.holders i.number = 0 then s.raiseAll tallies
      else { s with imp := { s.imp with draining := some ⟨i, old.imp.carriers, tallies⟩ } }
  if changed then
    match s.imp.capTally with
    | some t => s.tallyAdd t 1
    | none => s
  else s

/-- A publication (R250): the state after it, and the MOVED and CAPACITY_CHANGED of its RESULT; or a DETAIL, nothing
changed. -/
def State.publish (s : State) (c : Cmd) (lo hi : Nat) : Except Nat (State × Bool × Bool) :=
  let due := s.due lo hi
  match s.replaced c due with
  | .error d => .error d
  | .ok t =>
    let moves := unitMoves s t s.imp.nextNumber ++ pageMoves s t s.imp.nextNumber
    let t := { t with imp := { t.imp with moves := t.imp.moves ++ moves } }
    .ok (t.supersede s c hi (! due.isEmpty), ! moves.isEmpty && s.imp.cur.isSome, ! due.isEmpty)

/-! ### RESULT (Table 9.8) -/

/-- Reserve copses that carry no unit and are neither retired nor vacated (R263). -/
def State.reserveLeft (s : State) : Nat :=
  let u := (s.imp.cur.map Imposition.bases).getD 0
  ((List.range 256).drop u).countP fun q =>
    ! (s.imp.carriers.any fun x => x.2 = snake q) && ! s.isRetired (snake q) && ! s.imp.out.any fun x => x.copse = snake q

/-- RESULT bytes 31:16 of IMPOSE, MIGRATE, RESHARD and QUERY_IMPOSITION, with their last half word. -/
def State.impositionResult (s : State) (last : Nat) : Nat :=
  let g := fun (f : Imposition → Nat) => (s.imp.cur.map f).getD 0
  resultWords (g (·.number)) (g (·.cores) % 65536 + g (·.sliver) * 65536)
    (g (·.spread) % 256 + s.reserveLeft % 256 * 256 + s.fld Reg.imposerCapacity 31 16 * 65536)
    (s.fld Reg.imposerCapacity 15 0 + last * 65536)

/-- How a command of the Imposer ends with a DETAIL (Table 9.9). -/
def imposerOutcome (d : Nat) : Outcome :=
  if 0x0106 ≤ d ∧ d ≤ 0x010A then Outcome.noSpace d else Outcome.bad d

end Sys2Proof.Machine
end

