-- ==== Sys2Proof/Machine/Imposer.lean ====
section
/-! DEFINITION. The rows of the Imposer: impositions, migration, re-sharding, moves, reports and idle accounting
(09_imposer.md R248 to R263). -/

namespace Sys2Proof.Machine

/-! ### IMPOSE and publication (R248, R249) -/

/-- Whether AXIS_SIZE and AXIS_RANK are out of their ranges (Table 9.4). -/
def Cmd.badAxes (c : Cmd) : Bool :=
  c.axisSizes.contains 0 || decide (65536 < product c.axisSizes) ||
  (c.axisRanks.zip c.axisSizes).any fun x => decide (x.2 ≤ x.1)

/-- Whether EXPECTED names another imposition than the one in force. -/
def State.stale (s : State) (expected : Nat) : Bool := s.imp.cur.any fun i => i.number ≠ expected

/-- The checks of IMPOSE (R249). -/
def State.imposeFault (s : State) (c : Cmd) : Option Nat :=
  let new := c.isNew
  let boundary := decide (c.par 32 1 = 1)
  firstFault [
    (new && c.badAxes, dBadAxes),
    (boundary && s.stale (c.par 60 4), dStale),
    (boundary && s.imp.cur.isNone, dNoImposition),
    (decide (1 < c.par 32 1) || (new && decide (4096 < c.par 38 2 ∨ c.par 40 4 = 0 ∨ 2097152 < c.par 40 4)), dBadField)]

/-- Whether a publication waits: for the DRAINING imposition, or behind one that waits (R248). -/
def State.publicationWaits (s : State) (c : Cmd) : Bool :=
  s.imp.draining.isSome ||
  s.cmd.cmds.any fun d => decide (d.phase = .waiting) && decide (d.aux.head? = some 25) && decide (d.stamp < c.stamp)

/-- The second half-buffers are given back, and nothing stays staged. -/
def State.unstage (s : State) : State :=
  let s := s.imp.halfBuffers.foldl (fun s x => s.givePages x.2) s
  { s with imp := { s.imp with reshard := none, halfBuffers := [] } }

/-- The new contents of one tensor, data then scales: the halves exchange roles, the old one is freed, and the new cut
is in force (R254). -/
def State.exchange (s : State) (x : Nat × Nat) (d : List Byte) : State :=
  match s.declared x.1 with
  | none => s
  | some t =>
    let data := setTensorBytes t (d.take t.byteLen) 0 []
    let scales := match t.scaleOf.bind s.declared with
      | some u => setTensorBytes u (d.drop t.byteLen) 0 []
      | none => []
    let half := ((s.imp.halfBuffers.find? fun y => y.1 = x.1).map (·.2)).getD []
    let placed := ! t.pages.isEmpty
    let s := s.givePages (if placed then t.pages else half)
    let s := s.updTensor x.1 fun u => { u with
      cutAxis := x.2 % 4
      cutTorus := x.2 / 4 % 8
      pages := if placed then half else u.pages
      data := if u.role = 1 then u.data else data
      editions := u.editions.map fun (e : Edition) =>
        if e.number = u.currentEdition then { e with data := data, scales := scales } else e }
    if t.role = 1 then s else s.writeScales t fun _ => scales

/-- This module's part of the PERMUTE of a tensor of the staged list (R254, 12 R321): its half in force, data then scales,
goes to the rank that the new cut gives, over the torus axis of the cut. How its chunks are numbered, which no command
dispatched, the spec does not say (log 112). -/
def State.permuteOut (s : State) (x : Nat × Nat) : State :=
  match s.declared x.1 with
  | none => s
  | some t =>
    let axis := x.2 / 4 % 8
    match s.axis axis with
    | none => s
    | some (n, rank) =>
      let d := s.contents t t.currentEdition
      let scales := match t.scaleOf.bind s.declared with
        | some u => tensorBytes u d.2 0 u.byteLen
        | none => []
      let dest := Config.reshardTo (t.cutAxis + 4 * t.cutTorus) x.2 n rank % max 1 n
      if dest = rank then s
      else s.collSendVia (s.chunkLink axis (decide ((dest + n - rank) % n ≤ n / 2)) 0) 0 axis dest
        (.piece 0 (tensorBytes t d.1 0 t.byteLen ++ scales))

/-- The staged re-shard of a boundary (R254), once the commands before it that name its tensors have completed: with what
PERMUTE brought each tensor, in the order of the list; or with none when PERMUTE failed. -/
def State.reshardNow (s : State) (c : Cmd) (last : Nat) (shards : Option (List (List Byte))) : State :=
  let l := s.imp.reshard.getD []
  if l.any fun x => s.namedBefore x.1 c.stamp then s.park c.id [27, last]
  else
    let s := l.foldl State.permuteOut s
    match shards with
    | none => (s.unstage.finish c.id (Outcome.aborted 0)).wakeAll [8]
    | some ds =>
      let s := (l.zip ds).foldl (fun s x => s.exchange x.1 x.2) s
      let s := { s with imp := { s.imp with reshard := none, halfBuffers := [] } }
      (s.finish c.id (Outcome.ok (s.impositionResult last))).wakeAll [8]

/-- The DETAIL of a command that publishes, checked again when it has waited. -/
def State.publishFault (s : State) (c : Cmd) : Option Nat :=
  if c.opcode = 0x0304 then s.imposeFault c else if s.stale (c.par 32 4) then some dStale else none

/-- Whether a move of a page waits: a stack at level 4 admits none of its granules (10 R273). -/
def State.moveStopped (s : State) (m : Move) : Bool :=
  match m.kind with
  | .page _ => s.stackStopped (m.src % 256 / 16) || s.stackStopped (m.dst % 256 / 16)
  | .unit _ _ => false

/-- Whether the moves that evacuate a channel wait for a stack at level 4: the BOUNDARY that began them completes when its
level falls (10 Table 10.6). -/
def State.evacuationStopped (s : State) (number : Nat) : Bool :=
  s.imp.moves.any fun m => decide (m.number = number) && ! m.ended && s.moveStopped m &&
    s.mem.outChannels.contains (m.src % 256)

/-- A command that has published completes: a BOUNDARY with a re-shard staged when that has ended, with `aux` [27, …], and one
whose evacuation waits when it may go on, with `aux` [28, …]. -/
def State.published (s : State) (c : Cmd) (last : Nat) (shards : Option (List (List Byte))) : State :=
  if c.opcode = 0x0304 ∧ s.imp.reshard.isSome then s.reshardNow c last shards
  else if c.opcode = 0x0304 ∧ s.evacuationStopped ((s.imp.cur.map (·.number)).getD 0) then s.park c.id [28, last]
  else s.finish c.id (Outcome.ok (s.impositionResult last))

/-- A command publishes, and completes. A MIGRATE that finds another imposition in force, or whose publication fails,
withdraws its request. -/
def State.publishNow (s : State) (c : Cmd) (lo hi : Nat) (shards : Option (List (List Byte))) : State :=
  let withdrawn := if c.opcode = 0x0304 then s else
    { s with imp := { s.imp with changes := s.imp.changes.filter fun x => ! (decide (lo ≤ x.1) && decide (x.1 < hi)) } }
  match s.publishFault c with
  | some d => withdrawn.finish c.id (Outcome.bad d)
  | none =>
    match s.publish c lo hi with
    | .error d => withdrawn.finish c.id (imposerOutcome d)
    | .ok (t, moved, changed) =>
      t.published c (ofBool moved + 2 * ofBool changed) shards

/-- IMPOSE (R249); `shards` is what PERMUTE brings when a re-shard is staged. A publication that must wait keeps to the
changes pending at its dispatch (Table 9.6). -/
def execImpose (n : Nat) (shards : Option (List (List Byte))) (s : State) : Host.Outcome State Fault Refusal :=
  .next (s.runCmd n 0x0304 fun c s =>
    match s.imposeFault c with
    | some d => s.finish c.id (Outcome.bad d)
    | none =>
      if s.publicationWaits c then s.park c.id [25, 0, s.imp.nextChange]
      else s.publishNow c 0 s.imp.nextChange shards)

/-- Whether a MIGRATE's vacating waits for a copse's move back from the sweep (Table 9.6). -/
def State.vacateWaits (s : State) (c : Cmd) (lo hi : Nat) : Bool :=
  decide (c.opcode = 0x0306) && s.imp.changes.any fun x => decide (lo ≤ x.1 ∧ x.1 < hi) && (match x.2 with
    | .vacate k => s.imp.sweep.any fun y => y.1 = k
    | _ => false)

/-- PENDING_PUBLICATION (R248): a publication that waited takes place; or what a BOUNDARY waited for after its own has
ended: its re-shard, or the stop of its evacuation. -/
def execPendingPublication (n : Nat) (shards : Option (List (List Byte))) (s : State) :
    Host.Outcome State Fault Refusal :=
  .next (s.resumeCmd n fun c s => match c.aux with
    | [25, lo, hi] =>
      if s.publicationWaits c || s.vacateWaits c lo hi then s else s.publishNow c lo hi shards
    | [27, last] => s.reshardNow c last shards
    | [28, last] => s.published c last shards
    | _ => s)

/-! ### MIGRATE (R253) -/

/-- The entries of a MIGRATE. -/
def Cmd.migrateEntries (c : Cmd) : List Nat := (List.range (min 8 (c.par 38 1))).map fun i => c.par (40 + 2 * i) 2

/-- Whether an entry names a unit that may not be vacated, or restored. -/
def State.badEntry (s : State) (kind e : Nat) : Bool :=
  let u := e % 256
  decide (bits e 14 8 ≠ 0) ||
  (if kind = 0 then
    s.isRetired u || (decide (bit e 15 = 1) && ! s.imp.out.any fun x => decide (x.copse = u) && x.vacated.isSome)
  else decide (kind = 1) && (decide (bit e 15 = 1) || s.mem.outChannels.contains u))

/-- The checks of MIGRATE. -/
def State.migrateFault (s : State) (c : Cmd) : Option Nat :=
  firstFault [
    (s.stale (c.par 32 4), dStale),
    (s.imp.cur.isNone, dNoImposition),
    (c.migrateEntries.any (s.badEntry (c.par 37 1)), dBadUnit),
    (decide (1 < c.par 37 1 ∨ c.par 38 1 = 0 ∨ 8 < c.par 38 1), dBadField)]

/-- The changes a MIGRATE asks for, in ascending order of its units (R246). -/
def Cmd.migrateChanges (c : Cmd) : List Change :=
  (sortBy (fun a b => decide (a % 256 ≤ b % 256)) c.migrateEntries).map fun e =>
    if c.par 37 1 = 1 then .vacateChannel (e % 256)
    else if bit e 15 = 1 then .restore (e % 256) else .vacate (e % 256)

/-- A request becomes pending as a whole: the capacity tally in force is raised by 1 (R252, R253). -/
def State.request (s : State) (l : List Change) : State :=
  let k := s.imp.nextChange
  let s := { s with imp := { s.imp with
    changes := s.imp.changes ++ l.zipIdx.map fun (x : Change × Nat) => (k + x.2, x.1)
    nextChange := k + l.length } }
  match s.imp.capTally with
  | some t => s.tallyAdd t 1
  | none => s

/-- MIGRATE (R253). -/
def execMigrate (n : Nat) (s : State) : Host.Outcome State Fault Refusal :=
  .next (s.runCmd n 0x0306 fun c s =>
    match s.migrateFault c with
    | some d => s.finish c.id (Outcome.bad d)
    | none =>
      let lo := s.imp.nextChange
      let s := s.request c.migrateChanges
      let hi := s.imp.nextChange
      if bit (c.par 36 1) 0 = 1 then
        if s.publicationWaits c || s.vacateWaits c lo hi then s.park c.id [25, lo, hi] else s.publishNow c lo hi none
      else
        let s := if bit (c.par 36 1) 1 = 1 then
            { s with imp := { s.imp with migrateTallies := s.imp.migrateTallies ++ [(lo, c.par 56 2)] } }
          else s
        s.finish c.id (Outcome.ok (s.impositionResult 0)))

/-! ### RESHARD (R254) -/

/-- The entries of a RESHARD's list: handle, CUT byte, and the three bytes after it. -/
def reshardList : Nat → List Byte → List (Nat × Nat × Nat)
  | 0, _ => []
  | n + 1, d => (fieldAt d 0 4, fieldAt d 4 1, fieldAt d 5 3) :: reshardList n (d.drop 8)

/-- Whether a CUT byte is one that a tensor may have (Table 9.2). -/
def cutOk (t : Tensor) (cut : Nat) : Bool := decide (cut % 4 < t.dims.length) && decide (cut / 4 ≤ 4)

/-- The checks of RESHARD that need no list. -/
def State.reshardFault (s : State) (c : Cmd) : Option Nat :=
  firstFault [
    (s.stale (c.par 32 4), dStale),
    (s.imp.cur.isNone, dNoImposition),
    (decide (c.par 36 4 = 0 ∨ 256 < c.par 36 4), dBadField)]

/-- The checks of RESHARD's list. -/
def State.reshardListFault (s : State) (l : List (Nat × Nat × Nat)) : Option Nat :=
  firstFault [
    (l.any fun x => ! (s.live x.1 && (s.tensor x.1).isSome), dNotDeclared),
    (l.any fun x => (s.tensor x.1).any fun t => t.role = 7, dBadRole),
    (l.any fun x => (s.tensor x.1).any fun t => ! cutOk t x.2.1, dBadShape),
    (l.any fun x => x.2.2 ≠ 0, dBadField)]

/-- Pages of the second half-buffer of a tensor. -/
def Tensor.halfPages (t : Tensor) : Nat := if t.role = 1 then t.pagesNeeded else pagesFor t.storeBytes

/-- A second half-buffer reserved for a tensor that has none yet; none when it does not fit. -/
def State.reserveHalf (s : State) (h : Nat) : Option State :=
  match s.tensor h with
  | none => some s
  | some t =>
    if s.imp.halfBuffers.any fun x => x.1 = h then some s
    else
      let p := State.takePages t.halfPages s []
      if p.1.length < t.halfPages then none
      else some { p.2 with imp := { p.2.imp with halfBuffers := p.2.imp.halfBuffers ++ [(h, p.1)] } }

/-- A list staged for the next boundary; an entry takes the place of one staged before for the same tensor. -/
def State.stageReshard (s : State) (c : Cmd) (l : List (Nat × Nat × Nat)) : State :=
  match s.reshardListFault l with
  | some d => s.finish c.id (Outcome.bad d)
  | none =>
    match l.foldl (fun o x => o.bind fun s => s.reserveHalf x.1) (some s) with
    | none => s.finish c.id (Outcome.noSpace dHbmFit)
    | some s =>
      let old := (s.imp.reshard.getD []).filter fun x => ! l.any fun y => y.1 = x.1
      let s := { s with imp := { s.imp with reshard := some (old ++ l.map fun (x : Nat × Nat × Nat) => (x.1, x.2.1)) } }
      s.finish c.id (Outcome.ok (s.impositionResult 0))

/-- RESHARD (R254): the list is read from node-local memory. -/
def execReshard (n : Nat) (s : State) : Host.Outcome State Fault Refusal :=
  .next (s.runCmd n 0x0307 fun c s =>
    match s.reshardFault c with
    | some d => s.finish c.id (Outcome.bad d)
    | none =>
      let a := c.par 40 8
      let len := 8 * c.par 36 4
      s.fetch Env.good c a len 0 fun d s => s.stageReshard c (reshardList (c.par 36 4) d))

/-! ### QUERY_IMPOSITION (R263) -/

/-- Bytes of HBM that are free, and in service: the coherent window is counted outside (15 R373). -/
def State.freeHbm (s : State) : Nat := 4096 * s.freePages
def State.totalHbm (s : State) : Nat := 2 ^ 29 * 3 * s.fld Reg.imposerCapacity 15 0 - s.window.2

/-- Core SRAM, and accumulator buffer, left free in each core. -/
def State.sramFree (s : State) : Nat := if s.imp.cur.isNone then sramBytes else sramBytes - s.sramUsed
def State.accumFree (s : State) : Nat :=
  if s.imp.cur.isNone then accumBytes else accumBytes - s.accumUsed - (s.wgradResident.map s.wgradBytes).sum

/-- RESULT of QUERY_IMPOSITION. -/
def State.queryResult (s : State) : Nat := s.impositionResult (min 65535 (s.freeHbm / 2 ^ 26))

/-- The 64-byte report. -/
def State.queryReport (s : State) : List Byte :=
  let pending := fun (p : Change → Bool) => s.imp.changes.countP fun x => p x.2
  leBytes 16 s.queryResult ++
  leBytes 4 (pending fun x => match x with
    | .retire _ => true
    | _ => false) ++
  leBytes 4 (pending fun x => match x with
    | .evacuate _ => true
    | _ => false) ++
  leBytes 8 s.freeHbm ++ leBytes 8 s.totalHbm ++ leBytes 8 s.viewWgrad ++ leBytes 4 s.sramFree ++ leBytes 4 s.accumFree ++
  leBytes 8 0

/-- QUERY_IMPOSITION (R263). -/
def execQueryImposition (n : Nat) (s : State) : Host.Outcome State Fault Refusal :=
  .next (s.runCmd n 0x0305 fun c s =>
    if bit (c.par 40 1) 0 = 1 then s.deliver c (c.par 32 8) s.queryReport s.queryResult 0
    else s.finish c.id (Outcome.ok s.queryResult))

/-! ### READ_IDLE (R260 to R262) -/

/-- Whether an offset is one of the counters of Tables 9.15 and 9.16. -/
def idleCounter (off : Nat) : Bool :=
  (decide (0x90100 ≤ off) && decide (off ≤ 0x90140)) ||
  (decide (0x100000 ≤ off) && decide (off < 0x200000) && decide (0xA0 ≤ off % 256) && decide (off % 256 ≤ 0xE0))

/-- The snapshot of every position's counters: BUSY, then causes 0 to 7. -/
def State.idleBlock (s : State) (k : Nat) : List Byte :=
  leBytes 8 (s.regView (Reg.busy k)) ++ ((List.range 8).map fun i => leBytes 8 (s.regView (Reg.idle k i))).flatten
def State.idleSnapshot (s : State) : List Byte := ((List.range 4096).map s.idleBlock).flatten

/-- Every counter zeroed. -/
def State.clearIdle (s : State) : State := { s with regs := s.regs.filter fun e => ! idleCounter e.1 }

/-- The snapshot delivered, the counters cleared if CLEAR asks for it. -/
def State.giveIdle (s : State) (c : Cmd) (a : Nat) : State :=
  (if bit (c.par 40 1) 0 = 1 then s.clearIdle else s).deliver c a s.idleSnapshot (294912 * 2 ^ 32) 0

/-- READ_IDLE (R262). -/
def execReadIdle (n : Nat) (s : State) : Host.Outcome State Fault Refusal :=
  .next (s.runCmd n 0x0308 fun c s =>
    let a := c.par 32 8
    if a % 8 ≠ 0 then s.finish c.id (Outcome.bad 0)
    else if nodeOf a ≠ s.node ∨ (s.rangeFault a 294912).isSome then s.giveIdle c a
    else match s.rangeGate c [] [(localOf a, 294912)] with
      | some s => s
      | none => s.giveIdle c a)

/-! ### Moves (R250, R251) -/

/-- First address of the window of a service core, and first offset of its registers. -/
def coreWindow (k : Nat) : Nat := 0x100000000000 + 0x100000 * k
def coreRegs (k : Nat) : Nat := 0x100000 + 0x100 * k

/-- Whether an offset is of a register that moves with the unit of a service core: those of its arrays stay, with their
sticky flags (03 R82; log 148, DEDUCED). -/
def carriedReg (k o : Nat) : Bool := decide (coreRegs k + 0x80 ≤ o) && decide (o < coreRegs k + 0x100)

/-- Whether a command in flight latched an imposition before a move's and uses the place it leaves. -/
def State.oldWork (s : State) (m : Move) : Bool :=
  s.cmd.cmds.any fun c => c.holds && decide (c.latch.imposition ≠ 0 ∧ c.latch.imposition < m.number) &&
    (decide (c.phase = .dispatched) || decide (c.phase = .waiting) || decide (c.phase = .done)) &&
    (s.placedFor c).usesMoved c m

/-- Whether a move may begin: the commands that use its old place have completed, no move is still to arrive there, and, for
a page, no stack it touches is at level 4 (10 Table 10.6). -/
def State.mayMove (s : State) (m : Move) : Bool :=
  ! m.begun && ! s.oldWork m && ! s.moveStopped m &&
  ! s.imp.moves.any fun x => decide (x.number < m.number) && ! x.ended && decide (x.kind = m.kind)

/-- What a unit carries from its old place: the memories of a failed slot may be lost. -/
def State.carry (s : State) (m : Move) : Move × State :=
  let c := m.src / 16
  let failed := decide (bit (s.reg (Reg.copseState c)) (s.slotOf c (m.src % 16)) = 0)
  let f := s.free
  let lost := if failed then f.1 % 4 else 0
  let w := coreWindow m.src
  let cells := (s.mem.bytes.filter fun x => decide (w ≤ x.1) && decide (x.1 < w + 0x100000)).map fun x => (x.1 - w, x.2)
  let regs := (s.regs.filter fun x => carriedReg m.src x.1).map fun x => (x.1 - coreRegs m.src, x.2)
  let s := if failed then f.2 else s
  ({ m with begun := true, cells := cells, regs := regs, lost := lost },
   { s with regs := s.regs.filter fun x => ! carriedReg m.src x.1 })

/-- A move changed in the list. -/
def State.setMove (s : State) (m n : Move) : State :=
  { s with imp := { s.imp with moves := s.imp.moves.map fun x => if x = m then n else x } }

/-- PLACEMENT_MOVE (R250): a unit, by logical core and part, or a page begins its move. -/
def execPlacementMove (kind : MoveKind) (s : State) : Host.Outcome State Fault Refusal :=
  .next (match s.imp.moves.find? fun m => m.kind = kind ∧ ! m.begun with
    | none => s
    | some m =>
      if ! s.mayMove m then s
      else match kind with
        | .page _ => s.setMove m { m with begun := true }
        | .unit _ _ =>
          let r := s.carry m
          ((r.2.setMove m r.1).wakeCopse (m.src / 16)).wakeCopse (m.dst / 16))

/-- Whether a byte of a window, by offset, is in a memory that a move lost. -/
def lostByte (lost off : Nat) : Bool := if off < 0xC0000 then decide (bit lost 0 = 1) else decide (bit lost 1 = 1)

/-- Elements of a tensor by token that the logical core `k` holds: the first, and how many (R243). -/
def State.rowsOfCore (s : State) (t : Tensor) (k : Nat) : Nat × Nat :=
  let l := max 1 ((s.imp.cur.map (·.sliver)).getD 1)
  let row := t.size / max 1 (t.dims.headD 1)
  (k * l * row, min l (t.dims.headD 1 - k * l) * row)

/-- Elements of a tensor whose place has lost them: each keeps its code or holds a free one, as free bits say (R250; the
part of a sliver that one of several units holds is open, log 9). -/
def State.loseElements (s : State) (t : Tensor) (first n : Nat) : State :=
  let f := s.free
  let g := f.2.free
  g.2.writeData t.handle fun d => (List.range n).foldl (fun d i =>
    if bit f.1 i = 1 then setCode d (first + i) (g.1 / 2 ^ (32 * i) % 2 ^ elemBits t.fmt) else d) d

/-- The slivers that a unit's move did not carry, because a memory of its old slot was lost (R250, 01 R27). -/
def State.loseRows (s : State) (m : Move) : State :=
  match m.kind with
  | .page _ => s
  | .unit k _ =>
    let gone := fun (t : Tensor) => (decide (bit m.lost 0 = 1) && decide (t.role = 0 ∨ t.role = 3) && t.pages.isEmpty) ||
      (decide (bit m.lost 1 = 1) && decide (t.role = 5))
    (s.tens.filter gone).foldl (fun s t => s.loseElements t (s.rowsOfCore t k).1 (s.rowsOfCore t k).2) s

/-- A unit arrives at its new place. -/
def State.arrive (s : State) (m : Move) : State :=
  let w := coreWindow m.dst
  let s := { s with mem := { s.mem with bytes := s.mem.bytes.filter fun x =>
    ! (decide (w ≤ x.1) && decide (x.1 < w + 0x100000)) || lostByte m.lost (x.1 - w) } }
  let s := (m.cells.filter fun x => ! lostByte m.lost x.1).foldl (fun s x => s.putBytes (w + x.1) [x.2]) s
  let s := { s with regs := s.regs.filter fun x => ! carriedReg m.dst x.1 }
  (m.regs.foldl (fun s x => s.setReg (coreRegs m.dst + x.1) x.2.toNat) s).loseRows m

/-- The last page of an evacuated channel has left it: it is mapped out (Table 10.16). -/
def State.channelEmpty (s : State) (m : Move) : State :=
  let ch := m.src % 256
  let left := s.imp.moves.any fun x => ! x.ended && decide (x.src % 256 = ch) && (match x.kind with
    | .page _ => true
    | .unit _ _ => false)
  if s.fld (Reg.channelState ch) 63 62 = 2 ∧ left = false then s.setFld (Reg.channelState ch) 63 62 3 else s

/-- PLACEMENT_MOVE_END (R250, R251): the move ends, once the place it goes to has been left; deliveries held and commands
waiting proceed; a page's move waits at level 4. -/
def execPlacementMoveEnd (kind : MoveKind) (s : State) : Host.Outcome State Fault Refusal :=
  .next (match s.imp.moves.find? fun m => m.kind = kind ∧ m.begun ∧ ! m.ended with
    | none => s
    | some m =>
      let isUnit := fun (x : Move) => match x.kind with
        | .unit _ _ => true
        | .page _ => false
      if isUnit m && s.imp.moves.any fun x => isUnit x && ! x.begun && decide (x.src = m.dst) && decide (x.number ≤ m.number)
      then s
      else if s.moveStopped m then s
      else
        let s := if isUnit m then s.arrive m else s
        let s := s.setMove m { m with ended := true, cells := [], regs := [], heldDeliveries := [] }
        let s := if isUnit m then s else s.channelEmpty m
        let s := m.heldDeliveries.foldl (fun s f => (s.schedStore f).frameVisible f.src f.cls f.seq) s
        let s := if s.imp.draining.isNone
          then { s with imp := { s.imp with moves := s.imp.moves.filter fun x => ! x.ended } } else s
        s.memoryGoesOn)

/-- Whether a delivery that names an imposition is in transit here: one held until a move ends (R251). -/
def State.inTransit (s : State) (number : Nat) : Bool :=
  s.imp.moves.any fun m => m.heldDeliveries.any fun f => f.aux = number

/-- IMPOSITION_DRAINED (R251): no command holds the draining imposition and no delivery that names it is in transit: the
forwarding entries of moves that have ended are cleared, and the drain tallies raised. -/
def execImpositionDrained (s : State) : Host.Outcome State Fault Refusal :=
  .next (match s.imp.draining with
    | none => s
    | some d =>
      if s.holders d.imp.number ≠ 0 ∨ s.inTransit d.imp.number then s
      else ({ s with imp := { s.imp with
        draining := none, moves := s.imp.moves.filter fun x => ! x.ended } }).raiseAll d.tallies)

end Sys2Proof.Machine
end

