-- ==== Sys2Proof/Machine/Links.lean ====
section
/-! DEFINITION. The link layer of the 64 links (11_links.md R289 to R294, R302, R312): D128 blocks, links that go down and
are trained, and what Ethernet ports do with frames that are not IFP or RoCEv2. -/

namespace Sys2Proof.Machine

/-! ### Links down and up (R293, R312, 17 R413) -/

/-- A link of a torus group was removed from its group or added to it (R312). -/
def State.linkEvent (s : State) (n : Nat) : State :=
  if s.fld (Reg.linkCfg n) 27 24 < 8 ∧ s.fld Reg.linkEventCfg 31 31 = 1 then s.tallyAdd (s.fld Reg.linkEventCfg 15 0) 1 else s

/-- A frame of a link that went down leaves by another link; one of this node without a route waits. -/
def State.relaunch (s : State) (f : IfpFrame) : State :=
  let r := s.launch f
  if r.2 then r.1
  else { s with fab := { s.fab with tx := s.fab.tx.map fun (c : ConnTx) =>
    if c.node = f.dst ∧ c.cls = f.cls ∧ f.src = s.node then
      { c with unacked := c.unacked.map fun (u : Unacked) => if u.frame.seq = f.seq then { u with sent := false } else u }
    else c } }

/-- A link goes DOWN with a cause of Table 11.22: it leaves its group, and its unacknowledged frames go over the other
links of the group; under JOINT, a full reset with cause ESCALATION. -/
def State.linkDown (s : State) (n cause : Nat) : State :=
  if s.fld Reg.cdcRstmode 2 2 = 0 then s.beginReset 7
  else
    let l := s.link n
    let was := s.fld (Reg.linkState n) 31 29
    let s := ((s.setFld (Reg.linkState n) 31 29 0).setFld (Reg.linkState n) 28 24 cause).addSat (Reg.linkErr n) 15 0 1
    let s := s.updLink n fun l => { LinkSt.reset with sent := l.sent, retraining := l.retraining, txRest := l.txRest, rxRest := l.rxRest }
    let s := { s with fab := { s.fab with pfcPaused := s.fab.pfcPaused.filter (· ≠ n) } }
    let s := if was = 2 then s.linkEvent n else s
    ((l.unacked.map (·.ends)).flatten ++ l.queued).foldl State.relaunch s

/-- LOSS_OF_SIGNAL (R293). -/
def execLossOfSignal (n : Nat) (s : State) : Host.Outcome State Fault Refusal := .next (s.onLink n fun s => s.linkDown n 1)

/-- LINK_RETRAIN_TIMER (R293): a DOWN link retrains unless HOLD is set. -/
def execLinkRetrainTimer (n : Nat) (s : State) : Host.Outcome State Fault Refusal :=
  .next (s.whenUp fun s =>
    if n < 64 ∧ s.fld (Reg.linkCfg n) 31 30 ≠ 0 ∧ s.fld (Reg.linkState n) 31 29 = 0 ∧ s.fld (Reg.linkCfg n) 23 23 = 0
    then s.setFld (Reg.linkState n) 31 29 1 else s)

/-- A link that LINK_RETRAIN_ONE removed has been trained, or has failed: `aux` of the command is [26, links failed], and
it ends with the last link of its pair (R312, 18 R428). -/
def State.retrainEnds (s : State) (n : Nat) (owner : Option Nat) (ok : Bool) : State :=
  match owner with
  | none => s
  | some id =>
    let s := s.updLink n fun l => { l with retraining := none }
    let s := if ok then s else s.updCmd id fun c => { c with aux := [26, 1] }
    match s.cmdOf id with
    | none => s
    | some c =>
      if c.phase ≠ .waiting ∨ c.aux.head? ≠ some 26 ∨ (s.fab.links.any fun l => l.retraining = some id) = true then s
      else if c.aux = [26, 1] then s.finish id ⟨stCheckFail, 0x0182, 1⟩
      else s.finish id (Outcome.ok 0)

/-- Training of a link ends: it is UP and in its group again, or DOWN. -/
def State.linkTrained (s : State) (n : Nat) (t : Option LinkTraining) : State :=
  let owner := (s.link n).retraining
  match t with
  | some t => ((((s.trainLink n t).linkEvent n).launchWaiting).retrainEnds n owner true)
  | none => (s.linkDown n 4).unlessHeld fun s => s.retrainEnds n owner false

/-- LINK_TRAINED (R291, R293): what the training of a link found; none when it failed. -/
def execLinkTrained (n : Nat) (t : Option LinkTraining) (s : State) : Host.Outcome State Fault Refusal :=
  .next (s.whenUp fun s => if n < 64 ∧ s.fld (Reg.linkState n) 31 29 = 1 then s.linkTrained n t else s)

/-! ### D128 blocks (R290 to R292, R302) -/

/-- An event of a D128 link that is up. -/
def State.onD128 (s : State) (n : Nat) (f : State → State) : State :=
  s.onLink n fun s => if s.fld (Reg.linkCfg n) 31 30 = 1 then f s else s

/-- Blocks below a number are acknowledged. -/
def State.blocksAcked (s : State) (n ack : Nat) : State :=
  let l := s.link n
  let left := l.unacked.filter fun u => ! seqBefore u.seq ack
  if left.length = l.unacked.length then s
  else (s.updLink n fun l => { l with unacked := left, replayCount := 0 }).linkFlush n

/-- Best-effort credit returned, in units of 512 bytes. -/
def State.linkCredit (s : State) (n c : Nat) : State :=
  (s.updLink n fun l => { l with credit := l.credit + 512 * c }).linkFlush n

/-- What every good block but a NACK carries: acknowledgement and credit. -/
def State.blockHeader (s : State) (n ack credit : Nat) : State := (s.blocksAcked n ack).linkCredit n credit

/-- D128_IDLE_BLOCK (R290, R302): an IDLE block returns acknowledgement and credit; one discarded while a block is awaited
returns none. -/
def execD128IdleBlock (n ack credit : Nat) (s : State) : Host.Outcome State Fault Refusal :=
  .next (s.onD128 n fun s => if (s.link n).awaiting then s else s.blockHeader n (ack % 1024) (credit % 8))

/-- The named block and those after it are replayed; a block replayed 16 times takes the link down (R292, R293). -/
def State.blockReplay (s : State) (n seq : Nat) : State :=
  let s := s.blocksAcked n seq
  let l := s.link n
  if l.unacked.isEmpty then s
  else
    let s := s.addSat (Reg.linkErr n) 31 16 1
    let s := s.updLink n fun l => { l with resent := l.resent ++ l.unacked.map (·.seq), replayCount := l.replayCount + 1 }
    let s := l.unacked.foldl (fun s b => s.blockSend n b.seq b.start 0 b.payload) s
    if l.replayCount + 1 = 16 then s.linkDown n 2 else s

/-- D128_NACK_BLOCK (R292). -/
def execD128NackBlock (n seq : Nat) (s : State) : Host.Outcome State Fault Refusal :=
  .next (s.onD128 n fun s => s.blockReplay n (seq % 1024))

/-- A block is discarded and the awaited one named in a NACK. -/
def State.blockNack (s : State) (n : Nat) : State :=
  (s.updLink n fun l => { l with nacks := l.nacks ++ [l.seqRx], awaiting := true }).blockSend n (s.link n).seqTx 127 2
    (List.replicate 256 0)

/-- An uncorrectable block: 65,536 of them within 1 s take the link down. -/
def State.blockBad (s : State) (n : Nat) : State :=
  let l := (s.link n).badBlocks.filter (fun t => s.time < t + 100000000) ++ [s.time]
  let s := (s.updLink n fun x => { x with badBlocks := l }).blockNack n
  if 65536 ≤ l.length then s.linkDown n 3 else s

/-- A block's two codewords decoded (R290): the 260 data bytes, none if uncorrectable, and the codewords corrected. -/
def blockDecode (b : List Byte) : Option (List Byte) × Nat :=
  let half := fun k => (b.zipIdx.filter fun x => x.2 % 2 = k).map fun x => x.1.toNat
  match rsDecode 6 3 (half 0), rsDecode 6 3 (half 1) with
  | some x, some y =>
    (some (((x.1.zip y.1).map fun p => [BitVec.ofNat 8 p.1, BitVec.ofNat 8 p.2]).flatten.take 260),
      ofBool (decide (0 < x.2)) + ofBool (decide (0 < y.2)))
  | some x, none => (none, ofBool (decide (0 < x.2)))
  | none, some y => (none, ofBool (decide (0 < y.2)))
  | none, none => (none, 0)

/-- The frame that a byte string begins with (Table 11.5), of which the length is known to be there. -/
def frameOf (b : List Byte) : IfpFrame :=
  let f := fun i n => fieldAt b i n
  let len := f 4 2
  { version := f 0 1 % 16, hops := f 0 1 / 16, typ := f 1 1, cls := f 2 1 % 4, ece := decide (bit (f 2 1) 2 = 1),
    last := decide (bit (f 2 1) 3 = 1), retx := decide (bit (f 2 1) 4 = 1), epoch := f 3 1, src := f 6 2, dst := f 8 2,
    msgId := f 10 2, seq := f 12 4, ack := f 16 4, addr := f 20 8, aux := f 28 4, payload := (b.drop 32).take len,
    icrc := f (32 + len) 4 }

/-- Frames taken from the front of the payload stream, and what is left of it; zeros after the last frame are none. -/
def framesOf : Nat → List Byte → List IfpFrame × List Byte
  | 0, b => ([], b)
  | fuel + 1, b =>
    if b.isEmpty then ([], [])
    else if fieldAt b 0 1 % 16 ≠ 1 then ([], [])
    else if b.length < 36 then ([], b)
    else
      let n := (36 + fieldAt b 4 2 + 3) / 4 * 4
      if b.length < n then ([], b)
      else
        let r := framesOf fuel (b.drop n)
        (frameOf b :: r.1, r.2)

/-- The payload of a block: a frame that continues ends in it, and others start where START says. -/
def State.blockPayload (s : State) (n start : Nat) (p : List Byte) : State :=
  let l := s.link n
  let b := if l.partials.isEmpty then (if start = 127 then [] else p.drop (4 * start)) else l.partials ++ p
  let r := framesOf 65 b
  let free := ((r.1.filter fun f => 1 < f.cls).map ifpSize).sum
  r.1.foldl (fun s f => s.onD128 n fun s => s.frameIn n f false)
    (s.updLink n fun l => { l with partials := r.2, creditDue := l.creditDue + free })

/-- The IDLE block that goes out once a DATA block has been taken: it acknowledges it and returns credit. IDLE blocks that
would say nothing new are not modelled (log 131, DESIGN CHOICE). -/
def State.blockIdle (s : State) (n : Nat) : State := s.blockSend n (s.link n).seqTx 127 1 (List.replicate 256 0)

/-- A block that decodes is taken (R290 to R292). -/
def State.blockTake (s : State) (n : Nat) (d : List Byte) : State :=
  let h := fieldAt d 0 4
  let seq := bits h 9 0
  let l := s.link n
  match bits h 21 20 with
  | 2 => s.blockReplay n (bits h 19 10)
  | 3 => s
  | 1 => if l.awaiting then s else s.blockHeader n (bits h 19 10) (bits h 31 29)
  | _ =>
    if seq ≠ l.seqRx then (if seqBefore l.seqRx seq ∧ l.awaiting = false then s.blockNack n else s)
    else
      let s := if l.awaiting then s.addSat (Reg.linkErr n) 31 16 1 else s
      let s := s.updLink n fun l => { l with seqRx := (seq + 1) % 1024, awaiting := false }
      ((s.blockHeader n (bits h 19 10) (bits h 31 29)).onD128 n fun s => s.blockPayload n (bits h 28 22) (d.drop 4)).onD128 n
        fun s => s.blockIdle n

/-- D128_DATA_BLOCK (R290 to R292): 272 bytes as received. -/
def execD128DataBlock (n : Nat) (b : List Byte) (s : State) : Host.Outcome State Fault Refusal :=
  .next (s.onD128 n fun s =>
    if b.length ≠ 272 then s
    else
      let r := blockDecode b
      let s := s.addSat (Reg.linkErr n) 63 32 r.2
      match r.1 with
      | none => s.blockBad n
      | some d => s.blockTake n d)

/-! ### Ethernet ports (R294) -/

/-- An event of an Ethernet port that is up. -/
def State.onE100 (s : State) (n : Nat) (f : State → State) : State :=
  s.onLink n fun s => if 2 ≤ s.fld (Reg.linkCfg n) 31 30 then f s else s

/-- PAUSE_FRAME (R294): discarded and counted. -/
def execPauseFrame (n : Nat) (s : State) : Host.Outcome State Fault Refusal :=
  .next (s.onE100 n fun s => s.addSat (Reg.ethDrops (s.ethPort n)) 31 16 1)

/-- PRIORITY_FLOW_CONTROL (R294): on a port that has it enabled, frames of its priority are paused or resumed. -/
def execPriorityFlowControl (n : Nat) (pause : Bool) (s : State) : Host.Outcome State Fault Refusal :=
  .next (s.onE100 n fun s =>
    if (Config.pfcClass n).isNone then s
    else
      let s := { s with fab := { s.fab with pfcPaused := (s.fab.pfcPaused.filter (· ≠ n)) ++ (if pause then [n] else []) } }
      s.linkFlush n)

/-- Whether an Ethernet port discards a received frame (R294, Table 11.4): it is for another MAC or IP address, or of a size
outside 64 to 9,216 bytes, or an IPv4 fragment, or has an unsupported header. -/
def State.ethRefuses (s : State) (n : Nat) (h : RxHeader) : Bool :=
  decide (h.dstMac ≠ s.fld (Reg.ethMac (s.ethPort n)) 47 0) || decide (h.dstIp ≠ s.nodeAddress s.node) ||
  decide (h.size < 64 ∨ 9216 < h.size) || h.fragment || ! h.supported

/-- FRAME_DROPS (R294): discarded and counted. -/
def execFrameDrops (n : Nat) (h : RxHeader) (s : State) : Host.Outcome State Fault Refusal :=
  .next (s.onE100 n fun s => if s.ethRefuses n h then s.ethDrop n else s)

end Sys2Proof.Machine
end

