-- ==== Sys2Proof/Machine/Roce.lean ====
section
/-! DEFINITION. RoCEv2 exchange (11_links.md R305 to R308). Packets of a message are First (0), Middle (1), Last (2) or Only
(3). Work of a peer that waits for a window line waits as work of class 4. -/

namespace Sys2Proof.Machine

/-- A packet for a ready queue pair arrives on its port; a CE mark is answered with a CNP (R305). -/
def State.onQp (s : State) (i : Nat) (ce : Bool) (f : QueuePair → State → State) : State :=
  s.whenUp fun s => match s.qp i with
    | none => s
    | some q => s.onE100 (fieldAt q.ctx 7 1) fun s => f q (if ce then s.rocePost (.cnp i) else s)

/-- A request packet in PSN order; one ahead is answered by one NAK Sequence Error, one behind is acknowledged again. -/
def State.inOrder (s : State) (q : QueuePair) (psn : Nat) (f : State → State) : State :=
  if psn = q.rqPsn then f (s.updQp q.index fun q => { q with nakSent := false })
  else if (psn + 2 ^ 24 - q.rqPsn) % 2 ^ 24 < 2 ^ 23 then
    if q.nakSent then s else (s.updQp q.index fun q => { q with nakSent := true }).rocePost (.nakSeq q.index q.rqPsn)
  else s.rocePost (.ack q.index ((q.rqPsn + 2 ^ 24 - 1) % 2 ^ 24))

/-- A request packet has been taken: the next PSN is expected. -/
def State.nextPsn (s : State) (i n : Nat) : State := s.updQp i fun q => { q with rqPsn := (q.rqPsn + n) % 2 ^ 24 }

/-! ### Incoming requests (R308) -/

/-- The address of the next receive descriptor. -/
def recvDescriptor (q : QueuePair) : Nat := fieldAt q.ctx 44 8 + 16 * (q.recvIdx % 2 ^ fieldAt q.ctx 52 1)

/-- A SEND packet in order fills the next receive descriptor; the last one writes the completion word and raises
RECV_TALLY. -/
def State.recvSend (s : State) (q : QueuePair) (psn kind : Nat) (d : List Byte) : State :=
  let i := q.index
  let a := recvDescriptor q
  let desc := s.bytesAt a 16
  let len := fieldAt desc 8 4
  let first := decide (kind = 0 ∨ kind = 3)
  let ends := decide (kind = 2 ∨ kind = 3)
  let at_ := if first then 0 else q.recvLen
  if first && (decide (bit (fieldAt desc 12 4) 31 = 1) || decide (len = 0)) then s.rocePost (.rnrNak i psn)
  else if len < at_ + d.length then s.rocePost (.nakInvalid i psn)
  else
    let s := (s.nextPsn i 1).roceStore i (2 * psn) (fieldAt desc 0 8 + at_) d
    if ends then
      let s := s.updQp i fun q => { q with recvLen := 0, recvIdx := (q.recvIdx + 1) % 2 ^ fieldAt q.ctx 52 1 }
      let s := s.roceStore i (2 * psn + 1) (a + 12) (leBytes 4 ((at_ + d.length) % 2 ^ 31 + 2 ^ 31))
      if bit (fieldAt q.ctx 53 1) 0 = 1 then s.tallyAdd (fieldAt q.ctx 54 2) 1 else s
    else s.updQp i fun q => { q with recvLen := at_ + d.length }

/-- SEND (R308). -/
def execSend (i psn kind : Nat) (d : List Byte) (ce : Bool) (s : State) : Host.Outcome State Fault Refusal :=
  .next (s.onQp i ce fun q s => s.inOrder q psn fun s => s.recvSend q psn kind d)

/-- Whether an access of a peer is permitted (R308): wholly within one window, with its R_Key and right. -/
def State.windowOk (s : State) (a n rkey right : Nat) : Bool :=
  (List.range (min 64 (s.fld Reg.roceWin 8 0))).any fun k =>
    let w := s.bytesAt (s.fld Reg.roceWin 63 12 * 4096 + 32 * k) 32
    let b := fieldAt w 0 8
    decide (b ≤ a ∧ a + n ≤ b + fieldAt w 8 8) && decide (fieldAt w 16 4 = rkey) && decide (bit (fieldAt w 20 1) right = 1)

/-- RDMA_WRITE (R308): the first packet names address, R_Key and length; the others go on where it ended. -/
def execRdmaWrite (i psn kind vaddr rkey len : Nat) (d : List Byte) (ce : Bool) (s : State) :
    Host.Outcome State Fault Refusal :=
  .next (s.onQp i ce fun q s => s.inOrder q psn fun s =>
    let first := decide (kind = 0 ∨ kind = 3)
    let last := ofBool (decide (kind = 2 ∨ kind = 3))
    match (if first then some (vaddr, len) else q.recvWrite) with
    | none => s.rocePost (.nakInvalid i psn)
    | some (a, n) =>
      if first && ! s.windowOk a n rkey 0 then s.rocePost (.nakAccess i psn)
      else if n < d.length then s.rocePost (.nakInvalid i psn)
      else
        let s := s.updQp i fun q => { q with recvWrite := if last = 1 then none else some (a + d.length, n - d.length) }
        (s.nextPsn i 1).roceStore i (2 * psn + last) a d)

/-- RDMA_READ_REQUEST (R308). -/
def execRdmaReadRequest (i psn vaddr rkey len : Nat) (ce : Bool) (s : State) : Host.Outcome State Fault Refusal :=
  .next (s.onQp i ce fun q s => s.inOrder q psn fun s =>
    if ! s.windowOk vaddr len rkey 1 then s.rocePost (.nakAccess i psn)
    else (s.nextPsn i (max 1 (ceilDiv len (mtuOf q)))).roceLoad i psn vaddr len)

/-- NAK_INVALID_REQUEST (R305): a request of a kind that is not supported. -/
def execNakInvalidRequest (i psn : Nat) (s : State) : Host.Outcome State Fault Refusal :=
  .next (s.onQp i false fun _ s => s.rocePost (.nakInvalid i psn))

/-! ### Answers to the device's requests (R305, R307) -/

/-- Whether a request is an RDMA READ. -/
def RoceMsg.isRead : RoceMsg → Bool
  | .readReq _ _ _ _ _ => true
  | _ => false

/-- The commands that wait for nothing more on any queue pair complete: every operation of theirs is acknowledged. -/
def State.roceSettle (s : State) (cmds : List Nat) : State :=
  cmds.foldl (fun s n =>
    if s.fab.qps.any fun q => q.unacked.any fun u => u.2.2 = n then s else s.purposeAcked (.cmd n)) s

/-- Requests up to a PSN are acknowledged; reads wait for their responses. The retry counts start again when a request is
acknowledged that was not before. -/
def State.roceAcked (s : State) (q : QueuePair) (psn : Nat) : State :=
  let done := fun (u : Nat × RoceMsg × Nat) => decide ((psn + 2 ^ 24 - u.1) % 2 ^ 24 < 2 ^ 23) && ! u.2.1.isRead
  let l := q.unacked.filter done
  let s := s.updQp q.index fun q => { q with
    unacked := q.unacked.filter fun u => ! done u
    retries := if l.isEmpty then q.retries else 0
    rnrRetries := if l.isEmpty then q.rnrRetries else 0 }
  s.roceSettle ((l.map fun u => u.2.2).eraseDups)

/-- RDMA_READ_RESPONSE (R307): the data of the oldest read outstanding; with the last response it is complete. -/
def execRdmaReadResponse (i : Nat) (last : Bool) (d : List Byte) (ce : Bool) (s : State) : Host.Outcome State Fault Refusal :=
  .next (s.onQp i ce fun q s => match q.unacked.find? fun u => u.2.1.isRead with
    | none => s
    | some u =>
      let s := s.roceAcked q u.1
      let s := s.updQp i fun q => { q with
        unacked := if last then q.unacked.erase u else q.unacked, retries := 0, rnrRetries := 0 }
      match s.cmdOf u.2.2 with
      | none => s
      | some c =>
        if c.phase ≠ .waiting ∨ c.aux ≠ [2] then s
        else
          let c := { c with buf := c.buf ++ d }
          (s.updCmd c.id fun x => { x with buf := c.buf }).memoryData c)

/-- A queue pair enters the error state: its commands end with ROUTE_LOST (R308). -/
def State.qpError (s : State) (i : Nat) : State :=
  match s.qp i with
  | none => s
  | some q =>
    let s := s.updQp i fun q => { q with state := 2, unacked := [] }
    let s := s.putBytes (s.qpContext i + 2) [2]
    ((q.unacked.map fun u => u.2.2).eraseDups).foldl (fun s n => s.fabricEnd n fun _ => Outcome.aborted 0x0104) s

/-- Go-back-N: every unacknowledged request from a PSN on is sent again. -/
def State.roceAgain (s : State) (i psn : Nat) : State :=
  match s.qp i with
  | none => s
  | some q =>
    (q.unacked.filter fun u => (u.1 + 2 ^ 24 - psn) % 2 ^ 24 < 2 ^ 23).foldl (fun s u => s.rocePost u.2.1) s

/-- A retry of a queue pair: with its count exhausted it enters the error state. -/
def State.roceRetry (s : State) (q : QueuePair) (psn : Nat) (rnr : Bool) : State :=
  let limit := if rnr then bits (fieldAt q.ctx 11 1) 6 4 else bits (fieldAt q.ctx 11 1) 2 0
  let n := if rnr then q.rnrRetries else q.retries
  if limit ≤ n then s.qpError q.index
  else (s.updQp q.index fun q =>
    if rnr then { q with rnrRetries := q.rnrRetries + 1 } else { q with retries := q.retries + 1 }).roceAgain q.index psn

/-- The node-local part of the alias address of a request (R307): the offset from REMOTE_BASE, or bit 47 for a SEND. -/
def QueuePair.aliasAddr (q : QueuePair) : RoceMsg → Nat
  | .write _ _ _ a _ _ _ => (a + 2 ^ 64 - fieldAt q.ctx 36 8 % 2 ^ 64) % 2 ^ 47
  | .readReq _ _ a _ _ => (a + 2 ^ 64 - fieldAt q.ctx 36 8 % 2 ^ 64) % 2 ^ 47
  | _ => 2 ^ 47

/-- A peer has refused a request: the command ends with the fabric fault REMOTE_ACCESS (R304). -/
def State.roceRefused (s : State) (q : QueuePair) (psn : Nat) : State :=
  match q.unacked.find? fun u => u.1 = psn with
  | none => s
  | some u =>
    let s := s.updQp q.index fun q => { q with unacked := q.unacked.filter fun v => v.2.2 ≠ u.2.2 }
    (s.fabricErr faultRemoteAccess (fieldAt q.ctx 0 2) (q.aliasAddr u.2.1)).fabricEnd u.2.2 fun _ => faultOutcome faultRemoteAccess

/-- The rate rule of R303 for a queue pair that receives a CNP (R305). -/
def State.qpCut (s : State) (q : QueuePair) : State :=
  if q.cutYet ∧ s.micros < q.lastCut + 10 then s
  else s.updQp q.index fun q => { q with rate := max (q.rate * 7 / 8) 8, lastCut := s.micros, cutYet := true }

/-- ROCE_ACKNOWLEDGE (R305): 0 an ACK, 1 a NAK Sequence Error, 2 a NAK Invalid Request, 3 a NAK Remote Access Error, 4 an
RNR NAK; 5 a CNP. -/
def execRoceAcknowledge (i psn kind : Nat) (s : State) : Host.Outcome State Fault Refusal :=
  .next (s.onQp i false fun q s =>
    let before := (psn + 2 ^ 24 - 1) % 2 ^ 24
    match kind with
    | 0 => s.roceAcked q psn
    | 1 => (s.roceAcked q before).roceRetry q psn false
    | 2 => (s.roceAcked q before).roceRefused q psn
    | 3 => (s.roceAcked q before).roceRefused q psn
    | 4 => (s.roceAcked q before).roceRetry q psn true
    | 5 => s.qpCut q
    | _ => s)

/-- ROCE_ACK_TIMEOUT (R305, R308): every unacknowledged request is sent again, or the queue pair fails. -/
def execRoceAckTimeout (i : Nat) (s : State) : Host.Outcome State Fault Refusal :=
  .next (s.whenUp fun s => match s.qp i with
    | some q => (match q.unacked with
      | [] => s
      | u :: _ => s.roceRetry q u.1 false)
    | none => s)

/-- QP_READY (R306): STATE 1 is written to a queue-pair context, and the device reads the whole context. -/
def execQpReady (i : Nat) (s : State) : Host.Outcome State Fault Refusal :=
  .next (s.whenUp fun s => if i < s.qpCount then (s.serveStore (s.qpContext i + 2) [1]).1 else s)

/-! ### PTP (R309) -/

/-- Whether a PTP message is for this clock: PTP is enabled, its port is up, and the domain and the transport (0 UDP/IPv4,
1 UDP/IPv6, 2 IEEE 802.3) are those configured. -/
def State.onPtp (s : State) (transport domain : Nat) (f : State → State) : State :=
  s.whenUp fun s =>
    if s.fld Reg.ptpCfg 31 31 = 1 ∧ s.fld Reg.ptpCfg 7 0 = domain ∧ s.fld Reg.ptpCfg 30 29 = transport then s.onE100 (s.fld Reg.ptpCfg 13 8) f else s

/-- Magnitude of an integer. -/
def magnitude (x : Int) : Nat := x.natAbs

/-- An offset from the master, in nanoseconds: recorded, the lock follows it, and the time is stepped or slewed. -/
def State.ptpOffset (s : State) (o : Int) : State :=
  let s := s.setFld Reg.ptpStatus 29 0 (unsigned 30 o)
  let p := s.fab.ptp
  let good := if magnitude o ≤ 50 then p.goodSyncs + 1 else 0
  let s := if 200 < magnitude o then s.setFld Reg.ptpStatus 31 31 0
    else if 16 ≤ good then s.setFld Reg.ptpStatus 31 31 1 else s
  let p := { p with goodSyncs := min good 16 }
  let p := if 1000000 < magnitude o then { p with now := ((p.now : Int) - 1000 * o).toNat, slew := 0 }
    else { p with slew := -(1000 * o) }
  { s with fab := { s.fab with ptp := p } }

/-- The headers of a PTP message (R309): to UDP port 319, or in IEEE 802.3, as PTP_CFG.TRANSPORT says. -/
def State.ptpEther (s : State) : EthHeader :=
  let t := s.fld Reg.ptpCfg 30 29
  let m := Config.ptpMarks t
  { s.ethHeader (s.fld Reg.ptpCfg 13 8) m.1 m.2.1 (s.nodeAddress s.node) m.2.2.2 m.2.2.1 319 with
    plain := decide (t = 2), v6 := decide (t = 1) }

/-- A Delay_Req leaves for the master, and its send time is kept (R309). One goes out after each Sync that has given its
times; IEEE 1588 lets the clock choose when (log 133, DESIGN CHOICE). -/
def State.delayRequest (s : State) : State :=
  let p := s.fab.ptp
  { s with fab := { s.fab with
    ether := s.fab.ether ++ [(s.ptpEther, EthBody.delayReq p.delaySeq)]
    ptp := { p with delayReq := some (p.delaySeq, p.now / 1000), delaySeq := (p.delaySeq + 1) % 65536 } } }

/-- The origin time of a Sync received at a local time, both in nanoseconds, with the correction of its path. -/
def State.ptpTimes (s : State) (origin received : Nat) (correction : Int) : State :=
  let d : Int := (received : Int) - (origin : Int) - correction
  let s := { s with fab := { s.fab with ptp := { s.fab.ptp with lastDiff := d, pendingSync := none } } }
  (s.ptpOffset (d - s.fab.ptp.pathDelay)).delayRequest

/-- PTP_SYNC (R309): from a one-step master it carries its origin time; from a two-step master that comes with the
Follow_Up, and its own correction is kept until then. -/
def execPtpSync (transport domain seq : Nat) (twoStep : Bool) (origin : Nat) (correction : Int) (s : State) :
    Host.Outcome State Fault Refusal :=
  .next (s.onPtp transport domain fun s =>
    let now := s.fab.ptp.now / 1000
    if twoStep then { s with fab := { s.fab with ptp := { s.fab.ptp with pendingSync := some (seq, now, correction) } } }
    else s.ptpTimes origin now correction)

/-- FOLLOW_UP (R309): the origin time of the Sync before it; the corrections of both count. -/
def execFollowUp (transport domain seq origin : Nat) (correction : Int) (s : State) : Host.Outcome State Fault Refusal :=
  .next (s.onPtp transport domain fun s => match s.fab.ptp.pendingSync with
    | some (k, t, c) => if k = seq then s.ptpTimes origin t (c + correction) else s
    | none => s)

/-- PTP_DELAY_RESPONSE (R309): the master's receive time of the Delay_Req with a sequence id, in nanoseconds, gives with its
send time and the last Sync the mean path delay. -/
def execPtpDelayResponse (transport domain seq received : Nat) (correction : Int) (s : State) :
    Host.Outcome State Fault Refusal :=
  .next (s.onPtp transport domain fun s => match s.fab.ptp.delayReq with
    | some (k, sent) =>
      if k = seq then
        { s with fab := { s.fab with ptp := { s.fab.ptp with
          delayReq := none
          pathDelay := (s.fab.ptp.lastDiff + ((received : Int) - (sent : Int) - correction)) / 2 } } }
      else s
    | none => s)

end Sys2Proof.Machine
end

