-- ==== Sys2Proof/Machine/Sweep.lean ====
section
/-! DEFINITION. The test sweep and faults found while running (09_imposer.md R255 to R257, 01 R16, R20). -/

namespace Sys2Proof.Machine

/-- A good slot fails a test (R16, R256, R428): a copse with 17 good slots becomes UNSPARED, the failed slot's position on
slot 16; one with 16 is left with fewer. -/
def State.slotFails (s : State) (p : Nat) : State :=
  let c := p / 17
  let i := p % 17
  let w := s.reg (Reg.copseState c)
  if bit w i = 0 then s
  else
    let s := s.setReg (Reg.copseState c) (putBits w i i 0)
    let s := if i = 16 then s.setFld (Reg.copseState c) 21 17 0x1F else s
    match bits w 31 28 with
    | 0 | 1 =>
      let s := (s.setFld (Reg.copseState c) 31 28 2).setFld (Reg.copseState c) 21 17 (if i < 16 then i else 0x1F)
      { s with imp := { s.imp with sweep := s.imp.sweep.filter fun x => x.1 ≠ c } }
    | 2 => s.copseShort c
    | _ => s

/-- SWEEP_CONTROL (R255, 18 Table 18.3): 0 stop, 1 start, 2 pace only. -/
def execSweepControl (n : Nat) (s : State) : Host.Outcome State Fault Refusal :=
  .next (s.runCmd n 0x0D06 fun c s =>
    let a := c.par 32 1
    if 2 < a ∨ c.par 34 2 = 0 then s.finish c.id (Outcome.bad 0x0180)
    else
      let s := match a with
        | 0 => s.setFld Reg.sweepState 31 31 0
        | 1 => (s.setFld Reg.sweepState 31 31 1).setFld Reg.sweepState 15 0 (c.par 34 2)
        | _ => s.setFld Reg.sweepState 15 0 (c.par 34 2)
      s.finish c.id (Outcome.ok 0))

/-- Whether a copse takes part in a sweep event: SPARED, in no move and in no event still in progress. -/
def State.sweepable (s : State) (c : Nat) : Bool :=
  decide (s.fld (Reg.copseState c) 31 28 = 0) && ! (s.imp.sweep.any fun x => x.1 = c) &&
  ! s.imp.moves.any fun m => ! m.ended && (match m.kind with
    | .unit _ _ => decide (m.src / 16 = c ∨ m.dst / 16 = c)
    | .page _ => false)

/-- A copse in a sweep event of slot `j`: its queued slot, if it has one, is tested in place of it. -/
def State.sweepCopse (j : Nat) (s : State) (c : Nat) : State :=
  if ! s.sweepable c then s
  else
    let q := s.imp.queuedSlots.find? fun x => x.1 = c
    let slot := (q.map (·.2)).getD j
    let queue := match q with
      | some x => s.imp.queuedSlots.erase x
      | none => s.imp.queuedSlots
    let s := s.wakeCopse c
    { s with imp := { s.imp with
      queuedSlots := queue, sweep := s.imp.sweep ++ [(c, if slot = 16 then .testing 16 else .movingOut slot)] } }

/-- SWEEP_EVENT (R255): it takes place while the sweep is enabled and no array self-test runs. -/
def execSweepEvent (s : State) : Host.Outcome State Fault Refusal :=
  .next (if (decide (s.fld Reg.sweepState 31 31 = 0) || s.obs.tests.any fun t => decide (t.kind = 0) && t.running) then s
  else
    let j := s.fld Reg.sweepState 30 26
    let s := (s.addSat Reg.sweepState 63 32 1).setFld Reg.sweepState 30 26 ((j + 1) % 17)
    (List.range 256).foldl (State.sweepCopse j) s)

/-- What happens next to a copse in the sweep. -/
def State.setSweep (s : State) (c : Nat) (p : Option SweepPhase) : State :=
  let l := s.imp.sweep.filterMap fun x => if x.1 = c then p.map fun q => (c, q) else some x
  { s with imp := { s.imp with sweep := l } }

/-- Whether a position may move (04 R102): its shadow registers and landing buffers are empty. That no matrix command is in
progress holds between two steps. -/
def State.arraysEmpty (s : State) (core : Nat) : Bool :=
  (List.range 4).all fun a => decide (s.fld (Reg.arrayState core a) 30 29 = 0)

/-- Whether the positions of every copse in a move of the sweep may move: they all move in one ACLK (R255). -/
def State.sweepMayMove (s : State) : Bool :=
  s.imp.sweep.all fun x => match x.2 with
    | .movingOut j => s.arraysEmpty (16 * x.1 + j)
    | .movingBack j => s.arraysEmpty (16 * x.1 + j)
    | .testing _ => true

/-- The weight registers of a position are not carried by its move (04 R102): those it finds hold free values. -/
def State.weightsLeft (s : State) (core : Nat) : State :=
  let f := s.free
  { f.2 with core := { f.2.core with arrays := f.2.core.arrays.map fun x =>
    if x.index / 4 = core then
      { x with active := (List.range 1024).map fun i => BitVec.ofNat 16 (f.1 / 2 ^ (16 * (1024 * (x.index % 4) + i))) }
    else x } }

/-- SWEEP_MOVE_END (R255): a position is on slot 16 and its copse reads SWEEP, or it is back; the move waits until every
position in one may move. -/
def execSweepMoveEnd (c : Nat) (s : State) : Host.Outcome State Fault Refusal :=
  .next (match s.imp.sweep.find? fun x => x.1 = c with
    | none => s
    | some x => if ! s.sweepMayMove then s else match x.2 with
      | .movingOut j =>
        if s.fld (Reg.copseState c) 31 28 = 0 then
          (((s.setFld (Reg.copseState c) 31 28 1).setFld (Reg.copseState c) 21 17 j).setSweep c (some (.testing j))).weightsLeft
            (16 * c + j)
        else s.setSweep c none
      | .movingBack j =>
        let s := (s.setSweep c none).weightsLeft (16 * c + j)
        if s.fld (Reg.copseState c) 31 28 = 1 then
          (s.setFld (Reg.copseState c) 31 28 0).setFld (Reg.copseState c) 21 17 0x1F
        else s
      | .testing _ => s)

/-- SLOT_TEST_END (R256, R430): the test of a copse's slot ends. -/
def execSlotTestEnd (c : Nat) (pass : Bool) (s : State) : Host.Outcome State Fault Refusal :=
  .next (match s.imp.sweep.find? fun x => x.1 = c with
    | none => s
    | some x => match x.2 with
      | .testing j =>
        let s := s.slotTested (17 * c + j) 1 pass
        if pass then s.setSweep c (if j = 16 then none else some (.movingBack j))
        else ((s.addSat Reg.sweepState 23 16 1).slotFails (17 * c + j)).setSweep c none
      | _ => s)

/-- ROUTER_FAULT (R20): a router fault detected while running. -/
def execRouterFault (copse : Nat) (s : State) : Host.Outcome State Fault Refusal :=
  .next (s.whenUp fun s => if copse < 256 then (s.routerBad copse).fatal else s)

end Sys2Proof.Machine
end

