-- ==== Sys2Proof/Machine/SelfTest.lean ====
section
/-! DEFINITION. The test group (18_observability.md R427 to R430, 11 R312) and deferred test work (09 R259). -/

namespace Sys2Proof.Machine

/-! ### What the tests do (R428) -/

/-- Whether a physical slot is tested: it is not OFF. -/
def State.slotOn (s : State) (p : Nat) : Bool := ! s.isRetired (p / 17)

/-- One byte of the report: whether a unit failed. -/
def failByte (l : List Nat) (i : Nat) : Byte := if l.contains i then 1 else 0

/-- The ARRAY_SELF_TEST report (R427). -/
def State.selfTestReport (s : State) (r : Findings) : List Byte :=
  ((List.range 4352).map fun p => if s.slotOn p then failByte r.slots p else 2) ++
  (List.range 256).map (failByte r.routers) ++ (List.range 16).map (failByte r.slices) ++
  (List.range 4).map (failByte r.engines)

/-- Units that an ARRAY_SELF_TEST failed. -/
def State.selfTestCount (s : State) (r : Findings) : Nat := (s.selfTestReport r).countP fun b => b = 1

/-- The effects of an ARRAY_SELF_TEST. -/
def State.arrayTest (s : State) (r : Findings) : State :=
  let on := s.slotOn
  let s := (List.range 4352).foldl (fun s p => if on p then s.slotTested p 2 (! r.slots.contains p) else s) s
  let s := (List.range 4352).foldl (fun s p => if on p && r.slots.contains p then s.slotFails p else s) s
  let s := (List.range 4).foldl (fun s g => if r.engines.contains g then s.engineBad g else s) s
  let bad := (List.range 256).filter r.routers.contains
  if bad.isEmpty then s else (bad.foldl State.routerBad s).fatal

/-- The channels in service among those that failed recalibration. -/
def State.recalFailed (s : State) (r : Findings) : List Nat :=
  (List.range 256).filter fun ch => r.channels.contains ch && ! s.mem.outChannels.contains ch

/-- The effects of a recalibration (R276). -/
def State.recal (s : State) (l : List Nat) : State := l.foldl (fun s ch => s.queueChannel ch 3) s

/-- The assigned links. -/
def State.assigned (s : State) : List Nat := (List.range 64).filter fun n => s.fld (Reg.linkCfg n) 31 30 ≠ 0

/-- A link is removed from its group and trains (R312). -/
def State.retrain (s : State) (n : Nat) : State :=
  (s.linkDown n 6).unlessHeld fun s => s.setFld (Reg.linkState n) 31 29 1

/-- A link retrained, with what its training found. -/
def State.retrained (s : State) (r : Findings) (n : Nat) : State :=
  (s.retrain n).unlessHeld fun s => s.linkTrained n ((r.trained.find? fun x => x.1 = n).map (·.2))

/-- The work of a kind, 0 ARRAY_SELF_TEST, 1 HBM_RECAL_ALL, 2 LINK_RETRAIN_ALL, and the count of units it failed. -/
def State.testWork (s : State) (kind : Nat) (r : Findings) : State × Nat :=
  match kind with
  | 0 => (s.arrayTest r, s.selfTestCount r)
  | 1 => let l := s.recalFailed r; (s.recal l, l.length)
  | _ =>
    let l := s.assigned
    (l.foldl (fun s n => s.unlessHeld fun s => s.retrained r n) s, l.countP fun n => ! r.trained.any fun x => x.1 = n)

/-! ### The whole-device commands (R259, R427) -/

/-- A request of deferred work joins the work of its kind that is pending, or makes it pending (R259). -/
def State.deferTest (s : State) (kind : Nat) (pkt : List Byte) : State :=
  if s.obs.tests.any fun t => t.kind = kind then
    { s with obs := { s.obs with tests := s.obs.tests.map fun (t : TestWork) =>
      if t.kind = kind then { t with requests := t.requests ++ [pkt] } else t } }
  else { s with obs := { s.obs with tests := s.obs.tests ++ [⟨kind, [pkt], false⟩] } }

/-- REPORT_ADDR of an ARRAY_SELF_TEST; all ones for none. -/
def reportAddr (pkt : List Byte) : Nat := fieldAt pkt 32 8

/-- A whole-device test: deferred during normal running, or run at once with its RESULT (and its report). -/
def State.wholeTest (s : State) (kind : Nat) (r : Findings) (c : Cmd) : State :=
  if s.imp.cur.isSome then
    if bit c.flags 8 = 1 then s.finish c.id (Outcome.bad 0x0009)
    else (s.deferTest kind c.pkt).finish c.id ⟨stDeferred, 0, 0⟩
  else
    let report := decide (kind = 0 ∧ reportAddr c.pkt ≠ 2 ^ 64 - 1)
    let d := s.selfTestReport r
    let t := s.testWork kind r
    t.1.unlessHeld fun t' =>
      if t'.isFatal then t'
      else if report then t'.deliver c (reportAddr c.pkt) d t.2 t.2
      else t'.finish c.id (Outcome.ok t.2)

/-- ARRAY_SELF_TEST (R427). -/
def execArraySelfTest (n : Nat) (r : Findings) (s : State) : Host.Outcome State Fault Refusal :=
  .next (s.runCmd n 0x0D01 fun c s => match if reportAddr c.pkt = 2 ^ 64 - 1 ∨ s.imp.cur.isSome ∨
      nodeOf (reportAddr c.pkt) ≠ s.node ∨ (s.rangeFault (reportAddr c.pkt) 4628).isSome then none else s.rangeGate c [] [(localOf (reportAddr c.pkt), 4628)] with
    | some s => s
    | none => s.wholeTest 0 r c)

/-- HBM_RECAL_ALL (R427). -/
def execHbmRecalAll (n : Nat) (r : Findings) (s : State) : Host.Outcome State Fault Refusal :=
  .next (s.runCmd n 0x0D02 fun c s => s.wholeTest 1 r c)

/-- LINK_RETRAIN_ALL (R312, R427). -/
def execLinkRetrainAll (n : Nat) (r : Findings) (s : State) : Host.Outcome State Fault Refusal :=
  .next (s.runCmd n 0x0D04 fun c s => s.wholeTest 2 r c)

/-- HBM_RECAL_CHANNEL (R428). -/
def execHbmRecalChannel (n : Nat) (pass : Bool) (s : State) : Host.Outcome State Fault Refusal :=
  .next (s.runCmd n 0x0D03 fun c s =>
    let ch := c.par 32 1
    if s.mem.outChannels.contains ch then s.finish c.id (Outcome.bad 0x0180)
    else if pass then s.finish c.id (Outcome.ok 0)
    else (s.queueChannel ch 3).finish c.id ⟨stCheckFail, 0x0181, 1⟩)

/-- The links that retrain together: both of a ganged pair (Table 11.11). -/
def State.gang (s : State) (n : Nat) : List Nat :=
  if s.fld (Reg.linkCfg n) 31 30 = 3 then [n / 2 * 2, n / 2 * 2 + 1] else [n]

/-- LINK_RETRAIN_ONE (R312): its link, or its pair, is removed and trains; LINK_TRAINED ends it. -/
def execLinkRetrainOne (n : Nat) (s : State) : Host.Outcome State Fault Refusal :=
  .next (s.runCmd n 0x0D05 fun c s =>
    let l := c.par 32 1
    if 64 ≤ l ∨ s.fld (Reg.linkCfg l) 31 30 = 0 then s.finish c.id (Outcome.bad 0x0180)
    else if (s.gang l).any fun k => (s.link k).retraining.isSome then s
    else
      (s.gang l).foldl (fun s k => s.unlessHeld fun s =>
        (s.retrain k).unlessHeld fun s => s.updLink k fun x => { x with retraining := some c.id }) (s.park c.id [26, 0]))

/-! ### Deferred work (R259, R429) -/

/-- Whether the idle boundary is reached: no command in flight but those of the admin, Imposer, tally and security
groups, and no enabled ring with a packet pending. -/
def State.idle (s : State) : Bool :=
  (s.cmd.cmds.all fun c => ! c.tagHeld || decide (10 ≤ functionOf c.opcode)) &&
  (List.range 16).all fun n => ! s.ringOn n || decide (s.head n = s.tail n)

/-- IDLE_BOUNDARY (R259): every kind of deferred work pending starts. -/
def execIdleBoundary (s : State) : Host.Outcome State Fault Refusal :=
  .next (if s.idle then
    { s with obs := { s.obs with tests := s.obs.tests.map fun (t : TestWork) => { t with running := true } } }
  else s)

/-- A number that no report on its way has. -/
def State.newReport (s : State) : Nat := (s.obs.reports.map (·.1)).foldl max 0 + 1

/-- The report of a deferred request is written, and its signals applied after it (02 R53, R54): one for another node when its
frames have been acknowledged. A report that meets a fault ends the request ABORTED, as TEST_RESULT then says (log 150,
DESIGN CHOICE: of several requests of one kind the last that fails). -/
def State.sendReport (s : State) (d pkt : List Byte) : State :=
  let a := reportAddr pkt
  let k := s.newReport
  let start := { s with obs := { s.obs with reports := s.obs.reports ++ [(k, pkt)] } }
  if a = 2 ^ 64 - 1 then start.reportEnds k stOK
  else if s.aliasFault a then (start.fabricErr faultAccessKind s.node a).reportEnds k stAborted
  else if nodeOf a ≠ s.node then start.ifpWrite (nodeOf a) a d (.report k)
  else match s.rangeFault a d.length with
    | some x => (start.fabricErr x s.node a).reportEnds k stAborted
    | none => match start.saveBytes (localOf a) d with
      | (s, none) => s.reportEnds k stOK
      | (s, some x) => (s.fabricErr x s.node a).reportEnds k stAborted

/-- The work of a kind that found no router bad ends: its result is recorded, and its requests are answered (R429). -/
def State.testEnds (s : State) (kind : Nat) (w : TestWork) (d : List Byte) (us : Nat) : State :=
  let s := s.setReg (Reg.testResult kind) (us % 2 ^ 32)
  if kind = 0 then w.requests.foldl (fun s p => s.sendReport d p) s
  else w.requests.foldl (fun s p => s.deferredSignals stOK p) s

/-- DEFERRED_WORK_END (R259, R429): the work of a kind ends, with its findings and its duration in microseconds. An array
self-test does not end before the moves of the sweep have; a bad router is FATAL, and then no signal is applied. -/
def execDeferredWorkEnd (kind : Nat) (r : Findings) (us : Nat) (s : State) : Host.Outcome State Fault Refusal :=
  .next (match s.obs.tests.find? fun t => t.kind = kind ∧ t.running with
    | none => s
    | some w =>
      if kind = 0 ∧ ! s.imp.sweep.isEmpty then s
      else
        let d := s.selfTestReport r
        let s := { s with obs := { s.obs with tests := s.obs.tests.erase w } }
        (s.testWork kind r).1.unlessHeld fun s =>
          if s.isFatal then s.setReg (Reg.testResult kind) (stFatal * 2 ^ 48 + us % 2 ^ 32)
          else s.testEnds kind w d us)

end Sys2Proof.Machine
end

