-- ==== Sys2Proof/Machine/Dispatch.lean ====
section
/-! DEFINITION. exec: the effect of one command on everything but the queue, one arm per row of the table. -/

namespace Sys2Proof.Machine

def exec (i : Instr) (s : State) : Host.Outcome State Fault Refusal :=
  match i with
  | .doorbell ring tail => Sys2Proof.Machine.execDoorbell ring tail s
  | .ringEnable ring cfg => Sys2Proof.Machine.execRingEnable ring cfg s
  | .ringDisable ring cfg => Sys2Proof.Machine.execRingDisable ring cfg s
  | .replyHeadWrite ring head => Sys2Proof.Machine.execReplyHeadWrite ring head s
  | .headerValidation => Sys2Proof.Machine.execHeaderValidation s
  | .waitNotice notices => Sys2Proof.Machine.execWaitNotice notices s
  | .dispatch => Sys2Proof.Machine.execDispatch s
  | .waitLimit n => Sys2Proof.Machine.execWaitLimit n s
  | .completionReport n => Sys2Proof.Machine.execCompletionReport n s
  | .nop n => Sys2Proof.Machine.execNop n s
  | .identify n => Sys2Proof.Machine.execIdentify n s
  | .readReg n => Sys2Proof.Machine.execReadReg n s
  | .writeReg n => Sys2Proof.Machine.execWriteReg n s
  | .disableFunction n => Sys2Proof.Machine.execDisableFunction n s
  | .drainLimit n => Sys2Proof.Machine.execDrainLimit n s
  | .enableFunction n => Sys2Proof.Machine.execEnableFunction n s
  | .fullReset n => Sys2Proof.Machine.execFullReset n s
  | .commandResetDelay => Sys2Proof.Machine.execCommandResetDelay s
  | .copy n env => Sys2Proof.Machine.execCopy n env s
  | .fill n env => Sys2Proof.Machine.execFill n env s
  | .copy2d n env => Sys2Proof.Machine.execCopy2d n env s
  | .checksum n env => Sys2Proof.Machine.execChecksum n env s
  | .declareTensor n => Sys2Proof.Machine.execDeclareTensor n s
  | .releaseTensor n => Sys2Proof.Machine.execReleaseTensor n s
  | .declareOp n => Sys2Proof.Machine.execDeclareOp n s
  | .impose n shards => Sys2Proof.Machine.execImpose n shards s
  | .queryImposition n => Sys2Proof.Machine.execQueryImposition n s
  | .migrate n => Sys2Proof.Machine.execMigrate n s
  | .reshard n => Sys2Proof.Machine.execReshard n s
  | .readIdle n => Sys2Proof.Machine.execReadIdle n s
  | .matmul n env => Sys2Proof.Machine.execMatmul n env s
  | .matmulGather n env => Sys2Proof.Machine.execMatmulGather n env s
  | .matmulPacked n env => Sys2Proof.Machine.execMatmulPacked n env s
  | .setMatrixMode n => Sys2Proof.Machine.execSetMatrixMode n s
  | .shadowLoad core array n k0 n0 behind => Sys2Proof.Machine.execShadowLoad core array n k0 n0 behind s
  | .swap core tiles hazard waited => Sys2Proof.Machine.execSwap core tiles hazard waited s
  | .rippleFront core array n k0 n0 landed => Sys2Proof.Machine.execRippleFront core array n k0 n0 landed s
  | .vectorProgram n env => Sys2Proof.Machine.execVectorProgram n env s
  | .ld core t g w => Sys2Proof.Machine.execLd core t g w s
  | .st core t g w => Sys2Proof.Machine.execSt core t g w s
  | .ldi core t g w => Sys2Proof.Machine.execLdi core t g w s
  | .add core t g w => Sys2Proof.Machine.execAdd core t g w s
  | .sub core t g w => Sys2Proof.Machine.execSub core t g w s
  | .mul core t g w => Sys2Proof.Machine.execMul core t g w s
  | .fma core t g w => Sys2Proof.Machine.execFma core t g w s
  | .min core t g w => Sys2Proof.Machine.execMin core t g w s
  | .max core t g w => Sys2Proof.Machine.execMax core t g w s
  | .abs core t g w => Sys2Proof.Machine.execAbs core t g w s
  | .neg core t g w => Sys2Proof.Machine.execNeg core t g w s
  | .cmplt core t g w => Sys2Proof.Machine.execCmplt core t g w s
  | .sel core t g w => Sys2Proof.Machine.execSel core t g w s
  | .sfu core t g w => Sys2Proof.Machine.execSfu core t g w s
  | .rand core t g w => Sys2Proof.Machine.execRand core t g w s
  | .randu core t g w => Sys2Proof.Machine.execRandu core t g w s
  | .vectorNop core t g w => Sys2Proof.Machine.execVectorNop core t g w s
  | .rowStats n env => Sys2Proof.Machine.execRowStats n env s
  | .gatedAct n env => Sys2Proof.Machine.execGatedAct n env s
  | .loadSeedTable n => Sys2Proof.Machine.execLoadSeedTable n s
  | .seedBankSwitch n => Sys2Proof.Machine.execSeedBankSwitch n s
  | .seedGenerators n => Sys2Proof.Machine.execSeedGenerators n s
  | .attnForward n env => Sys2Proof.Machine.execAttnForward n env s
  | .attnBackward n env => Sys2Proof.Machine.execAttnBackward n env s
  | .walkEnd n => Sys2Proof.Machine.execWalkEnd n s
  | .galleyWaiterResume n env => Sys2Proof.Machine.execGalleyWaiterResume n env s
  | .galleyAppend n env => Sys2Proof.Machine.execGalleyAppend n env s
  | .galleyEdit n => Sys2Proof.Machine.execGalleyEdit n s
  | .galleyPublish n => Sys2Proof.Machine.execGalleyPublish n s
  | .verifyTree n env => Sys2Proof.Machine.execVerifyTree n env s
  | .ringAttention n env ring => Sys2Proof.Machine.execRingAttention n env ring s
  | .backwardInput n env => Sys2Proof.Machine.execBackwardInput n env s
  | .backwardWeight n env => Sys2Proof.Machine.execBackwardWeight n env s
  | .deferredPass env => Sys2Proof.Machine.execDeferredPass env s
  | .wgradReaderResume n => Sys2Proof.Machine.execWgradReaderResume n s
  | .offload n env => Sys2Proof.Machine.execOffload n env s
  | .saveWriteResume n => Sys2Proof.Machine.execSaveWriteResume n s
  | .prefetch n env => Sys2Proof.Machine.execPrefetch n env s
  | .setStepSize n => Sys2Proof.Machine.execSetStepSize n s
  | .update n env => Sys2Proof.Machine.execUpdate n env s
  | .verdict n rank status env => Sys2Proof.Machine.execVerdict n rank status env s
  | .peerLimit n => Sys2Proof.Machine.execPeerLimit n s
  | .retireEdition n => Sys2Proof.Machine.execRetireEdition n s
  | .allReduce n env => Sys2Proof.Machine.execAllReduce n env s
  | .reduceScatter n env => Sys2Proof.Machine.execReduceScatter n env s
  | .allGather n env => Sys2Proof.Machine.execAllGather n env s
  | .broadcast n env => Sys2Proof.Machine.execBroadcast n env s
  | .allToAll n env => Sys2Proof.Machine.execAllToAll n env s
  | .permute n env => Sys2Proof.Machine.execPermute n env s
  | .collectiveStart n env => Sys2Proof.Machine.execCollectiveStart n env s
  | .chunk m => Sys2Proof.Machine.execChunk m s
  | .reRequest axis seq phase shard chunk dest rank bad env => Sys2Proof.Machine.execReRequest axis seq phase shard chunk dest rank bad env s
  | .done axis seq rank flags => Sys2Proof.Machine.execDone axis seq rank flags s
  | .commit axis seq flags => Sys2Proof.Machine.execCommit axis seq flags s
  | .fail axis seq detail => Sys2Proof.Machine.execFail axis seq detail s
  | .peerSilent n => Sys2Proof.Machine.execPeerSilent n s
  | .collAbort v => Sys2Proof.Machine.execCollAbort v s
  | .markWaitEnd n => Sys2Proof.Machine.execMarkWaitEnd n s
  | .feedOpen n => Sys2Proof.Machine.execFeedOpen n s
  | .feedEpoch n => Sys2Proof.Machine.execFeedEpoch n s
  | .feedRows n bad => Sys2Proof.Machine.execFeedRows n bad s
  | .decodeDone stream pos entry bytes env => Sys2Proof.Machine.execDecodeDone stream pos entry bytes env s
  | .deadline stream => Sys2Proof.Machine.execDeadline stream s
  | .feedSkipLog n => Sys2Proof.Machine.execFeedSkipLog n s
  | .feedClose n => Sys2Proof.Machine.execFeedClose n s
  | .workerFault grove worker => Sys2Proof.Machine.execWorkerFault grove worker s
  | .workerBypass grove v => Sys2Proof.Machine.execWorkerBypass grove v s
  | .conv n env => Sys2Proof.Machine.execConv n env s
  | .convGrouped n env => Sys2Proof.Machine.execConvGrouped n env s
  | .globalAvgPool n env => Sys2Proof.Machine.execGlobalAvgPool n env s
  | .marginLayer n env fault => Sys2Proof.Machine.execMarginLayer n env fault s
  | .marginBypass v => Sys2Proof.Machine.execMarginBypass v s
  | .tallyAdd n => Sys2Proof.Machine.execTallyAdd n s
  | .tallySet n => Sys2Proof.Machine.execTallySet n s
  | .tallyWaitGe n => Sys2Proof.Machine.execTallyWaitGe n s
  | .tallyWaitEq n => Sys2Proof.Machine.execTallyWaitEq n s
  | .tallyLimit n => Sys2Proof.Machine.execTallyLimit n s
  | .tallyRead n => Sys2Proof.Machine.execTallyRead n s
  | .proofNow n => Sys2Proof.Machine.execProofNow n s
  | .proofAtTime n => Sys2Proof.Machine.execProofAtTime n s
  | .proofFire sources => Sys2Proof.Machine.execProofFire sources s
  | .proofPinEdge => Sys2Proof.Machine.execProofPinEdge s
  | .proofPullEnd => Sys2Proof.Machine.execProofPullEnd s
  | .proofRead n => Sys2Proof.Machine.execProofRead n s
  | .proofRelease => Sys2Proof.Machine.execProofRelease s
  | .countersRead n => Sys2Proof.Machine.execCountersRead n s
  | .arraySelfTest n r => Sys2Proof.Machine.execArraySelfTest n r s
  | .hbmRecalAll n r => Sys2Proof.Machine.execHbmRecalAll n r s
  | .hbmRecalChannel n pass => Sys2Proof.Machine.execHbmRecalChannel n pass s
  | .linkRetrainAll n r => Sys2Proof.Machine.execLinkRetrainAll n r s
  | .linkRetrainOne n => Sys2Proof.Machine.execLinkRetrainOne n s
  | .sweepControl n => Sys2Proof.Machine.execSweepControl n s
  | .idleBoundary => Sys2Proof.Machine.execIdleBoundary s
  | .deferredWorkEnd kind r us => Sys2Proof.Machine.execDeferredWorkEnd kind r us s
  | .attest n => Sys2Proof.Machine.execAttest n s
  | .getCertificate n => Sys2Proof.Machine.execGetCertificate n s
  | .debugUnlock n env => Sys2Proof.Machine.execDebugUnlock n env s
  | .stageImage n env flashFail => Sys2Proof.Machine.execStageImage n env flashFail s
  | .activateImage n flashFail => Sys2Proof.Machine.execActivateImage n flashFail s
  | .sweepEvent => Sys2Proof.Machine.execSweepEvent s
  | .sweepMoveEnd copse => Sys2Proof.Machine.execSweepMoveEnd copse s
  | .slotTestEnd copse pass => Sys2Proof.Machine.execSlotTestEnd copse pass s
  | .placementMove kind => Sys2Proof.Machine.execPlacementMove kind s
  | .placementMoveEnd kind => Sys2Proof.Machine.execPlacementMoveEnd kind s
  | .impositionDrained => Sys2Proof.Machine.execImpositionDrained s
  | .pendingPublication n shards => Sys2Proof.Machine.execPendingPublication n shards s
  | .routerFault copse => Sys2Proof.Machine.execRouterFault copse s
  | .mapOutRequest channel => Sys2Proof.Machine.execMapOutRequest channel s
  | .refreshSubslot => Sys2Proof.Machine.execRefreshSubslot s
  | .stackTempRead stack r => Sys2Proof.Machine.execStackTempRead stack r s
  | .junctionRead grove readings => Sys2Proof.Machine.execJunctionRead grove readings s
  | .powerCheck avg1 avg100 => Sys2Proof.Machine.execPowerCheck avg1 avg100 s
  | .aclkCapWrite v => Sys2Proof.Machine.execAclkCapWrite v s
  | .aclkRateChange => Sys2Proof.Machine.execAclkRateChange s
  | .gateEntry copse => Sys2Proof.Machine.execGateEntry copse s
  | .retainEntry copse => Sys2Proof.Machine.execRetainEntry copse s
  | .wake copse => Sys2Proof.Machine.execWake copse s
  | .wakeComplete copse => Sys2Proof.Machine.execWakeComplete copse s
  | .memoryControllerReset channel reads => Sys2Proof.Machine.execMemoryControllerReset channel reads s
  | .seamReset port => Sys2Proof.Machine.execSeamReset port s
  | .d128DataBlock n b => Sys2Proof.Machine.execD128DataBlock n b s
  | .d128IdleBlock n ack credit => Sys2Proof.Machine.execD128IdleBlock n ack credit s
  | .d128NackBlock n seq => Sys2Proof.Machine.execD128NackBlock n seq s
  | .lossOfSignal n => Sys2Proof.Machine.execLossOfSignal n s
  | .linkRetrainTimer n => Sys2Proof.Machine.execLinkRetrainTimer n s
  | .linkTrained n t => Sys2Proof.Machine.execLinkTrained n t s
  | .write n f ce => Sys2Proof.Machine.execWrite n f ce s
  | .readReq n f ce => Sys2Proof.Machine.execReadReq n f ce s
  | .readResp n f ce => Sys2Proof.Machine.execReadResp n f ce s
  | .ifpTallyAdd n f ce => Sys2Proof.Machine.execIfpTallyAdd n f ce s
  | .watch n f ce => Sys2Proof.Machine.execWatch n f ce s
  | .watchNotify n f ce => Sys2Proof.Machine.execWatchNotify n f ce s
  | .watchCancel n f ce => Sys2Proof.Machine.execWatchCancel n f ce s
  | .sched n f ce => Sys2Proof.Machine.execSched n f ce s
  | .ifpAck n f ce => Sys2Proof.Machine.execIfpAck n f ce s
  | .ifpNack n f ce => Sys2Proof.Machine.execIfpNack n f ce s
  | .ifpError n f ce => Sys2Proof.Machine.execIfpError n f ce s
  | .cnp n f ce => Sys2Proof.Machine.execCnp n f ce s
  | .control n f ce report => Sys2Proof.Machine.execControl n f ce report s
  | .ackTimer node cls => Sys2Proof.Machine.execAckTimer node cls s
  | .retransmissionTimeout node cls seq => Sys2Proof.Machine.execRetransmissionTimeout node cls seq s
  | .noRouteTimeout node cls => Sys2Proof.Machine.execNoRouteTimeout node cls s
  | .rateIncrease node cls => Sys2Proof.Machine.execRateIncrease node cls s
  | .pauseFrame n => Sys2Proof.Machine.execPauseFrame n s
  | .send qp psn kind d ce => Sys2Proof.Machine.execSend qp psn kind d ce s
  | .rdmaWrite qp psn kind vaddr rkey len d ce => Sys2Proof.Machine.execRdmaWrite qp psn kind vaddr rkey len d ce s
  | .rdmaReadRequest qp psn vaddr rkey len ce => Sys2Proof.Machine.execRdmaReadRequest qp psn vaddr rkey len ce s
  | .rdmaReadResponse qp last d ce => Sys2Proof.Machine.execRdmaReadResponse qp last d ce s
  | .roceAcknowledge qp psn kind => Sys2Proof.Machine.execRoceAcknowledge qp psn kind s
  | .roceAckTimeout qp => Sys2Proof.Machine.execRoceAckTimeout qp s
  | .qpReady qp => Sys2Proof.Machine.execQpReady qp s
  | .ptpSync transport domain seq twoStep origin correction => Sys2Proof.Machine.execPtpSync transport domain seq twoStep origin correction s
  | .ptpDelayResponse transport domain seq received correction => Sys2Proof.Machine.execPtpDelayResponse transport domain seq received correction s
  | .gclDataFlit b => Sys2Proof.Machine.execGclDataFlit b s
  | .gclNackFlit seq => Sys2Proof.Machine.execGclNackFlit seq s
  | .rdNc tag a n => Sys2Proof.Machine.execRdNc tag a n s
  | .rdShared tag a => Sys2Proof.Machine.execRdShared tag a s
  | .rdOwn tag a => Sys2Proof.Machine.execRdOwn tag a s
  | .wrNc tag a d => Sys2Proof.Machine.execWrNc tag a d s
  | .wrPosted a d => Sys2Proof.Machine.execWrPosted a d s
  | .wrBack tag a d => Sys2Proof.Machine.execWrBack tag a d s
  | .evictClean tag a => Sys2Proof.Machine.execEvictClean tag a s
  | .snpAck tag => Sys2Proof.Machine.execSnpAck tag s
  | .snpData tag d => Sys2Proof.Machine.execSnpData tag d s
  | .cmp tag => Sys2Proof.Machine.execCmp tag s
  | .cmpData tag d => Sys2Proof.Machine.execCmpData tag d s
  | .err tag code => Sys2Proof.Machine.execErr tag code s
  | .gclDown signalled => Sys2Proof.Machine.execGclDown signalled s
  | .gclRetrained t => Sys2Proof.Machine.execGclRetrained t s
  | .gclLossTimeout => Sys2Proof.Machine.execGclLossTimeout s
  | .gclIrqAck v => Sys2Proof.Machine.execGclIrqAck v s
  | .resetCtrl v => Sys2Proof.Machine.execResetCtrl v s
  | .watchdogRestart => Sys2Proof.Machine.execWatchdogRestart s
  | .watchdog => Sys2Proof.Machine.execWatchdog s
  | .powerOn => Sys2Proof.Machine.execPowerOn s
  | .input => Sys2Proof.Machine.execInput s
  | .powerLoss => Sys2Proof.Machine.execPowerLoss s
  | .resetNAssert => Sys2Proof.Machine.execResetNAssert s
  | .fullResetBegin cause => Sys2Proof.Machine.execFullResetBegin cause s
  | .resetRelease => Sys2Proof.Machine.execResetRelease s
  | .startUp duration => Sys2Proof.Machine.execStartUp duration s
  | .bootRomStage duration ok => Sys2Proof.Machine.execBootRomStage duration ok s
  | .verificationStage duration => Sys2Proof.Machine.execVerificationStage duration s
  | .falosteoStage duration ok => Sys2Proof.Machine.execFalosteoStage duration ok s
  | .pufStage duration ok => Sys2Proof.Machine.execPufStage duration ok s
  | .selfTestStage duration slots routers engines => Sys2Proof.Machine.execSelfTestStage duration slots routers engines s
  | .hbmTrainingStage duration channels => Sys2Proof.Machine.execHbmTrainingStage duration channels s
  | .linkTrainingStage duration links => Sys2Proof.Machine.execLinkTrainingStage duration links s
  | .gclTrainingStage duration training => Sys2Proof.Machine.execGclTrainingStage duration training s
  | .colophonId => Sys2Proof.Machine.execColophonId s
  | .colophonStatus => Sys2Proof.Machine.execColophonStatus s
  | .colophonNonce => Sys2Proof.Machine.execColophonNonce s
  | .colophonUnlock token => Sys2Proof.Machine.execColophonUnlock token s
  | .colophonReset => Sys2Proof.Machine.execColophonReset s
  | .colophonRd off => Sys2Proof.Machine.execColophonRd off s
  | .colophonWr off v => Sys2Proof.Machine.execColophonWr off v s
  | .colophonMr a n => Sys2Proof.Machine.execColophonMr a n s
  | .colophonProof => Sys2Proof.Machine.execColophonProof s
  | .colophonPr off n => Sys2Proof.Machine.execColophonPr off n s
  | .colophonLoad kind off d flashFail => Sys2Proof.Machine.execColophonLoad kind off d flashFail s
  | .colophonActivate kind flashFail => Sys2Proof.Machine.execColophonActivate kind flashFail s
  | .colophonOverflow => Sys2Proof.Machine.execColophonOverflow s
  | .smbusBlockWrite off v => Sys2Proof.Machine.execSmbusBlockWrite off v s
  | .smbusProcessCall off => Sys2Proof.Machine.execSmbusProcessCall off s
  | .tapReset => Sys2Proof.Machine.execTapReset s
  | .idcode => Sys2Proof.Machine.execIdcode s
  | .extest => Sys2Proof.Machine.execExtest s
  | .samplePreload pins cells => Sys2Proof.Machine.execSamplePreload pins cells s
  | .bypass => Sys2Proof.Machine.execBypass s
  | .arithFlagsClear v => Sys2Proof.Machine.execArithFlagsClear v s
  | .readClear offset size => Sys2Proof.Machine.execReadClear offset size s
  | .registerWrite offset size value => Sys2Proof.Machine.execRegisterWrite offset size value s
  | .inputInRange => Sys2Proof.Machine.execInputInRange s
  | .resetNDeassert => Sys2Proof.Machine.execResetNDeassert s
  | .seamPortRetrained port => Sys2Proof.Machine.execSeamPortRetrained port s
  | .memoryControllerRetrained channel => Sys2Proof.Machine.execMemoryControllerRetrained channel s
  | .priorityFlowControl n pause => Sys2Proof.Machine.execPriorityFlowControl n pause s
  | .followUp transport domain seq origin correction => Sys2Proof.Machine.execFollowUp transport domain seq origin correction s
  | .frameDrops n h => Sys2Proof.Machine.execFrameDrops n h s
  | .nakInvalidRequest qp psn => Sys2Proof.Machine.execNakInvalidRequest qp psn s

end Sys2Proof.Machine
end

