-- ==== Sys2Proof/Safety.lean ====
section
/-! DEFINITION. What counts as a sound state and as a safe step, in the terms the statements use. -/

namespace Sys2Proof.Machine

/-- Command numbers rise in the order of validation, and the next one is above them all: no two commands in flight have
one number. -/
def CmdSt.Numbered (c : CmdSt) : Prop := (c.cmds.map (·.id) ++ [c.nextId]).Pairwise (· < ·)

/-- A sound state: memory, registers, tallies and flash are in their canonical form (keys strictly rising, no entry equal
to what an unlisted key reads as), and so are vector registers and the elements of tensors; the machinery of the 16 rings
(02 R30) and of the 64 links (11 R289) is all there, and commands are numbered apart. Every state a run reaches is sound; a
statement about every state may need it. -/
structure State.Sound (s : State) : Prop where
  mem : Memory.wf s.mem = true
  regs : Sparse.wf (fun k => BitVec.ofNat 64 (regReset k)) s.regs = true
  tallies : Sparse.wf (fun _ => (0 : Word64)) s.tally.values = true
  flash : Sparse.wf flashDefault s.boot.flash = true
  rings : s.cmd.rings.length = 16
  links : s.fab.links.length = 64
  numbers : s.cmd.Numbered
  vregs : Sparse.wf (fun _ => (0 : BitVec 32)) s.core.vregs = true
  elements : ∀ t ∈ s.tens, Sparse.wf codeDefault t.data = true

/-- A state kept sound, with a given queue of waiting commands, and with a counter of free values that has not fallen
below `n` (a free value is never used again). -/
structure Kept (q : List Instr) (n : Nat) (s : State) : Prop where
  queue : s.pending = q
  fresh : n ≤ s.freeCtr
  sound : s.Sound

/-- A step is safe when it answers a next state: it neither faults nor refuses. -/
def Answers (o : Host.Outcome State Fault Refusal) (t : State) : Prop := o = .next t

/-- A command in flight has completed: its effects are made and it is ended with a status, a DETAIL and a RESULT (02 R41,
R55). -/
def State.Ended (s : State) (n : Nat) (o : Outcome) : Prop :=
  ∃ c, s.cmdOf n = some c ∧ c.phase = .done ∧ c.status = o.status ∧ c.detail = o.detail ∧ c.result = o.result % 2 ^ 128

/-- The device has power and no full reset is in progress or held (17 R415). -/
def State.Up (s : State) : Prop := s.pwr.powered = true ∧ s.pwr.held = false

/-- Command `n` is `c`, of opcode `op`; it is dispatched, every command of its ring and function dispatched before it has
begun (02 R55), and it holds no DRAINING imposition (09 R248): its work takes place now. -/
structure State.Ready (s : State) (n op : Nat) (c : Cmd) : Prop where
  found : s.cmdOf n = some c
  phase : c.phase = .dispatched
  opcode : c.opcode = op
  turn : s.mayStart c = true
  units : ∀ d, s.imp.draining = some d → functionOf c.opcode < 10 → c.latch.imposition ≠ d.imp.number

/-- Command `n` is `c`; it waits for an event of its chapter, and holds no DRAINING imposition. -/
structure State.Waits (s : State) (n : Nat) (c : Cmd) : Prop where
  found : s.cmdOf n = some c
  phase : c.phase = .waiting
  units : ∀ d, s.imp.draining = some d → functionOf c.opcode < 10 → c.latch.imposition ≠ d.imp.number

/-- Nothing holds back the work of a command (12 R325, R326, 08 R217, 09 R250), and no slot it uses has failed (01 R28). -/
def State.Begins (s : State) (c : Cmd) : Prop := s.holdReason c = none ∧ s.usesFailed c = false

/-- A frame for this node arrives whole, without a congestion mark, on link `n`, which is up (11 R295). -/
structure State.Comes (s : State) (n : Nat) (f : IfpFrame) : Prop where
  up : s.Up
  link : n < 64
  linkUp : s.fld (Reg.linkState n) 31 29 = 2
  here : f.dst = s.node
  icrc : f.icrc = crc32 (ifpHeader f ++ f.payload)
  ece : f.ece = false

/-- A numbered frame comes in its turn (11 R296, R298): it has the EPOCH and the SEQ that connection `r` awaits, no frame is
held behind it, no access of the connection waits, fewer than 15 frames wait for an acknowledgement, and no frame of this
node on that connection does. -/
structure State.InTurn (s : State) (f : IfpFrame) (r : ConnRx) : Prop where
  conn : s.connRx f.src f.cls = some r
  epoch : r.epoch = f.epoch
  seq : r.expected = f.seq
  held : r.held = []
  busy : s.connBusy f.src f.cls = false
  acks : r.sinceAck < 15
  quiet : (s.connTx f.src f.cls).unacked = []

/-- The registers in which the compute engines report what they did: flags of the arrays and of the vector engines (03
R83, 05 R119), rows and swaps of the arrays (04 R118), state and draws of the generators (05 R147), empty rows of attention
(06 R164), layers of the Margin (14 R361). -/
def ArithReg (off : Nat) : Prop :=
  (∃ k a, off = Reg.arrayFlags k a ∨ off = Reg.arrayCount k a) ∨ (∃ k, off = Reg.vectorFlags k) ∨
  (∃ k, off = Reg.genDraws k) ∨ (∃ k, off = Reg.genState k) ∨ off = Reg.attnEmptyRows ∨ off = Reg.marginState ∨
  off = Reg.marginCount

/-- What is as it was outside the engines: time and node, the bytes of memory, their poison and their flaws, rings and every
command but `n`, tallies and waits, the links, the imposition, galleys, collectives, the Feeder, start-up and power, and every
register but those of `ArithReg`. -/
structure RestKept (n : Nat) (s t : State) : Prop where
  pending : t.pending = s.pending
  time : t.time = s.time
  node : t.node = s.node
  bytes : t.mem.bytes = s.mem.bytes
  poison : t.mem.poison = s.mem.poison
  flaws : t.mem.flaws = s.mem.flaws
  rings : t.cmd.rings = s.cmd.rings
  resetPhase : t.cmd.resetPhase = s.cmd.resetPhase
  tally : t.tally = s.tally
  gcl : t.gcl = s.gcl
  fab : t.fab = s.fab
  imp : t.imp = s.imp
  attn : t.attn = s.attn
  coll : t.coll = s.coll
  feed : t.feed = s.feed
  boot_pwr : (t.boot, t.pwr) = (s.boot, s.pwr)
  regs : ∀ off, ¬ ArithReg off → t.reg off = s.reg off
  others : ∀ m, m ≠ n → t.cmdOf m = s.cmdOf m

/-- Nothing in the memories is poisoned or uncorrectable (04 R92, 10 R275). -/
structure State.Clean (s : State) : Prop where
  poison : s.mem.poison = []
  flaws : s.mem.flaws = []

/-- What a command of a compute group leaves as it is, whatever it does to tensors, arrays, engines and generators, while
nothing in the memories is poisoned or uncorrectable (04 R92, 10 R275: a read of that has effects of its own). -/
def Calm (n : Nat) (s t : State) : Prop := s.mem.poison = [] → s.mem.flaws = [] → RestKept n s t

end Sys2Proof.Machine

/-- Nothing goes wrong in a command's surroundings: no error of a memory, corrected or not. -/
def Sys2Proof.Env.Quiet (e : Sys2Proof.Env) : Prop :=
  e.sramBad = none ∧ e.hbm = [] ∧ e.parity = none ∧ e.onDie = 0 ∧ e.sramFixed = []
end

