-- ==== Sys2Proof/Certificates/Slice0/Obligations.lean ====
section
/-! DEFINITION. What is stated of the model: the rules of the spec that say what a command or the machine does, family by
family; each docstring cites the rule it formalises, or the log entry of a choice of the model. -/

open Sys2Proof Sys2Proof.Machine

/-! ### The whole machine -/

/-- Every step keeps the machine sound, takes one command from the front of the queue and leaves the rest of it, and
never lowers the counter of free values, so that no free value is used twice (the model's own fields: log 2, log 3). -/
def Obligations.EveryStepKeepsTheMachineSound : Prop :=
  ∀ s t : State, s.Sound → step s = .next t → t.Sound ∧ t.pending = s.pending.tail ∧ s.freeCtr ≤ t.freeCtr

/-- The state after reset is sound, and no command waits in it. -/
def Obligations.ResetIsSound : Prop := State.reset.Sound ∧ State.reset.pending = []

/-- A step is the front command on the state with the queue's rest; with no command waiting, the machine's own events
take place: time passes, and a proof whose time has come is made (log 10). -/
def Obligations.StepRunsTheFrontCommand : Prop :=
  (∀ (c : Instr) (rest : List Instr) (s : State),
    step { s with pending := c :: rest } = exec c { s with pending := rest }) ∧
  ∀ s : State, s.pending = [] → step s = .next s.idleStep

/-- The commands of the compute groups, in quiet surroundings and with nothing in the memories poisoned or
uncorrectable (`Calm`), leave everything outside their engines as it is: memory, tallies, rings, every other command, links, imposition, galleys, collectives, streams, start-up and power,
and every register but the flags and counts that `ArithReg` lists. -/
def Obligations.ComputeLeavesTheRest : Prop :=
  ∀ (n : Nat) (e : Env) (s t : State), e.Quiet →
    (exec (.matmul n e) s = .next t ∨ exec (.matmulPacked n e) s = .next t ∨ exec (.rowStats n e) s = .next t ∨
     exec (.gatedAct n e) s = .next t ∨ exec (.seedGenerators n) s = .next t ∨ exec (.attnForward n e) s = .next t ∨
     exec (.attnBackward n e) s = .next t ∨ exec (.backwardInput n e) s = .next t ∨ exec (.conv n e) s = .next t ∨
     exec (.convGrouped n e) s = .next t ∨ exec (.globalAvgPool n e) s = .next t ∨
     exec (.marginLayer n e none) s = .next t ∨ exec (.nop n) s = .next t ∨ exec (.identify n) s = .next t) →
    Calm n s t

/-- One instruction of a vector program, run as a row, leaves everything outside the engines as it is, with
nothing in the memories poisoned or uncorrectable (`Calm`). -/
def Obligations.VectorRowsLeaveTheRest : Prop :=
  ∀ (n core t g : Nat) (w : Word64) (s u : State),
    (exec (.ld core t g w) s = .next u ∨ exec (.st core t g w) s = .next u ∨ exec (.ldi core t g w) s = .next u ∨
     exec (.add core t g w) s = .next u ∨ exec (.sub core t g w) s = .next u ∨ exec (.mul core t g w) s = .next u ∨
     exec (.fma core t g w) s = .next u ∨ exec (.min core t g w) s = .next u ∨ exec (.max core t g w) s = .next u ∨
     exec (.abs core t g w) s = .next u ∨ exec (.neg core t g w) s = .next u ∨ exec (.cmplt core t g w) s = .next u ∨
     exec (.sel core t g w) s = .next u ∨ exec (.sfu core t g w) s = .next u ∨ exec (.rand core t g w) s = .next u ∨
     exec (.randu core t g w) s = .next u ∨ exec (.vectorNop core t g w) s = .next u) →
    Calm n s u

/-- While a full reset is in progress or held, or without power, the events of the device outside the understory do not
take place (17 R415; log 1). -/
def Obligations.NothingMovesInAHeldReset : Prop :=
  ∀ (s : State) (c : Instr), s.pwr.powered = false ∨ s.pwr.held = true →
    (c ∈ [Instr.proofRelease, .refreshSubslot, .gclLossTimeout] ∨
     (∃ r x, c = .doorbell r x ∨ c = .replyHeadWrite r x) ∨ (∃ r x, c = .ringEnable r x ∨ c = .ringDisable r x) ∨
     (∃ x, c = .collAbort x ∨ c = .marginBypass x ∨ c = .aclkCapWrite x ∨ c = .arithFlagsClear x ∨ c = .mapOutRequest x ∨
       c = .gclIrqAck x ∨ c = .linkRetrainTimer x ∨ c = .seamReset x ∨ c = .roceAckTimeout x ∨ c = .qpReady x ∨
       c = .routerFault x) ∨
     (∃ x y, c = .readClear x y ∨ c = .workerBypass x y ∨ c = .ackTimer x y ∨ c = .rateIncrease x y ∨
       c = .noRouteTimeout x y) ∨ (∃ x y, c = .memoryControllerReset x y) ∨
     (∃ x y, c = .linkTrained x y) ∨ (∃ x y z, c = .retransmissionTimeout x y z) ∨ (∃ x, c = .gclRetrained x)) →
    exec c s = .next s

/-- A fatal fault (02 R59): CMD_STATUS.FATAL reads 1; no command in flight is left unfinished: those that were, and
those whose report is still to come, end with FATAL; no wait of a command stays attached; memory, tally values and tensors stay. The device then takes no packet from
any ring. -/
def Obligations.AFatalFaultEndsEveryCommand : Prop :=
  ∀ s : State, s.Sound →
    s.fatal.isFatal = true ∧
    (∀ c ∈ s.fatal.cmd.cmds, c.phase.unfinished = false) ∧
    (∀ n c, s.cmdOf n = some c → c.phase.unfinished = true ∨ c.phase = .done ∧ c.tagHeld = true →
      s.fatal.Ended n ⟨stFatal, 0, 0⟩) ∧
    (∀ n c, s.cmdOf n = some c → c.phase.unfinished = false → c.phase ≠ .done ∨ c.tagHeld = false →
      s.fatal.cmdOf n = some c) ∧
    (∀ w ∈ s.fatal.tally.waiters, ∃ node k, w.owner = .watch node k) ∧
    s.fatal.mem = s.mem ∧ s.fatal.tally.values = s.tally.values ∧ s.fatal.tens = s.tens ∧
    (∀ r, s.fatal.mayFetch r = false) ∧ exec .headerValidation s.fatal = .next s.fatal

/-! ### Rings, validation, dispatch and completion (02_commands_and_tallies.md) -/

/-- DOORBELL (02 R31, R33): with the ring enabled, TAIL takes a value below the ring's size, HEAD and every other register
stay, and neither commands nor memory nor tallies change; a TAIL not below the size is ignored and sets BAD_TAIL; on a
disabled ring the write does nothing. -/
def Obligations.DoorbellMovesTheTail : Prop :=
  ∀ (s : State) (r tail : Nat), s.Up → s.Sound → r < 16 →
    (s.ringOn r = false → exec (.doorbell r tail) s = .next s) ∧
    (s.ringOn r = true → s.ringSize r ≤ tail % 65536 →
      exec (.doorbell r tail) s = .next (s.setFld (Reg.ringStatus r) 2 2 1)) ∧
    (s.ringOn r = true → tail % 65536 < s.ringSize r → ∃ t, exec (.doorbell r tail) s = .next t ∧
      t.tail r = tail % 65536 ∧ t.head r = s.head r ∧ (∀ o, o ≠ Reg.ringPtr r → t.reg o = s.reg o) ∧
      t.mem = s.mem ∧ t.tally = s.tally ∧ t.tens = s.tens ∧ t.cmd.cmds = s.cmd.cmds)

/-- RING_ENABLE (02 R33): on a disabled ring, with both size fields in range, HEAD, TAIL and both reply pointers become 0,
the expected phase is 1, and the ring is enabled; with one out of range the ring stays disabled and CFG_ERR is set.
RING_DISABLE (02 R34): the ring is disabled; its pointers stay. -/
def Obligations.RingEnableStartsAtZero : Prop :=
  ∀ (s : State) (r : Nat) (cfg : Word64), s.Up → s.Sound → r < 16 → s.ringOn r = false →
    (6 ≤ bits cfg.toNat 7 4 → 6 ≤ s.fld (Reg.replyCfg r) 7 4 → ∃ t, exec (.ringEnable r cfg) s = .next t ∧
      t.ringOn r = true ∧ t.ringSize r = 2 ^ bits cfg.toNat 7 4 ∧ t.reg (Reg.ringPtr r) = 0 ∧
      t.reg (Reg.replyPtr r) = 0 ∧ t.ring r = ⟨0, [], true, false⟩ ∧ t.cmd.cmds = s.cmd.cmds ∧ t.mem = s.mem ∧
      t.tally = s.tally) ∧
    (bits cfg.toNat 7 4 < 6 → ∃ t, exec (.ringEnable r cfg) s = .next t ∧ t.ringOn r = false ∧
      t.fld (Reg.ringStatus r) 1 1 = 1 ∧ t.reg (Reg.ringPtr r) = s.reg (Reg.ringPtr r) ∧ t.cmd = s.cmd ∧ t.mem = s.mem ∧
      t.tally = s.tally)

/-- RING_DISABLE (02 R34): an enabled ring is disabled, and nothing else of the machine changes: base and size, pointers,
commands validated already, memory and tallies stay. -/
def Obligations.RingDisableOnlyStopsFetching : Prop :=
  ∀ (s : State) (r : Nat) (cfg : Word64), s.Up → s.Sound → r < 16 → s.ringOn r = true →
    ∃ t, exec (.ringDisable r cfg) s = .next t ∧ t.ringOn r = false ∧ t.mayFetch r = false ∧
      t.fld (Reg.ringCfg r) 63 1 = s.fld (Reg.ringCfg r) 63 1 ∧ (∀ o, o ≠ Reg.ringCfg r → t.reg o = s.reg o) ∧
      t.cmd = s.cmd ∧ t.mem = s.mem ∧ t.tally = s.tally ∧ t.gcl = s.gcl

/-- REPLY_HEAD_WRITE (02 R35): with the ring enabled, the reply HEAD takes a value below the size of the reply ring; one
not below it sets BAD_HEAD and changes nothing else; the reply TAIL stays either way, as do memory and tallies. -/
def Obligations.ReplyHeadFreesEntries : Prop :=
  ∀ (s : State) (r head : Nat), s.Up → s.Sound → r < 16 → s.ringOn r = true →
    (s.replySize r ≤ head % 65536 →
      exec (.replyHeadWrite r head) s = .next (s.setFld (Reg.ringStatus r) 4 4 1)) ∧
    (head % 65536 < s.replySize r → ∃ t, exec (.replyHeadWrite r head) s = .next t ∧
      t.fld (Reg.replyPtr r) 15 0 = head % 65536 ∧ t.fld (Reg.replyPtr r) 31 16 = s.fld (Reg.replyPtr r) 31 16 ∧
      (∀ o, o ≠ Reg.replyPtr r → t.reg o = s.reg o) ∧ t.mem = s.mem ∧ t.tally = s.tally ∧ t.tens = s.tens)

/-- HEADER_VALIDATION (02 R32, R39): the packet of the ring whose turn it is is taken; HEAD moves past its slots modulo
the ring's size, one command more is in flight, and the turn passes to that ring. Memory and tally values stay. -/
def Obligations.HeaderValidationTakesThePacket : Prop :=
  ∀ (s : State) (r : Nat) (p : List Byte), s.Sound → r < 16 → s.nextRing = some r → s.packetAt r = some p →
    ∃ t, exec .headerValidation s = .next t ∧ t.head r = (s.head r + p.length / 32) % s.ringSize r % 65536 ∧
      t.tail r = s.tail r ∧ t.cmd.cmds.length = s.cmd.cmds.length + 1 ∧ t.cmd.nextId = s.cmd.nextId + 1 ∧
      t.cmd.lastServed = r ∧ t.cmd.tick = s.cmd.tick + 1 ∧ (∀ o, o ≠ Reg.ringPtr r → t.reg o = s.reg o) ∧
      t.mem = s.mem ∧ t.tally.values = s.tally.values ∧ t.tens = s.tens

/-- WAIT_NOTICE (02 R51): notice of a met wait that the master did not hold makes the command eligible when it then holds
notice of every present wait. WAIT_LIMIT (02 R52): a command whose waits are not all met ends with TIMEOUT. -/
def Obligations.WaitsMakeEligibleOrTimeOut : Prop :=
  (∀ (s : State) (n i : Nat) (c : Cmd), s.cmdOf n = some c → c.phase = .attached → i ∈ c.met → i ∉ c.noticed →
    ∃ t, exec (.waitNotice [(n, i)]) s = .next t ∧
      t.cmdOf n = some { c with
        noticed := i :: c.noticed
        phase := if c.waits.all (· ∈ i :: c.noticed) then .eligible else .attached
        stamp := s.cmd.tick + 1 } ∧
      (∀ m, m ≠ n → t.cmdOf m = s.cmdOf m) ∧ t.regs = s.regs ∧ t.mem = s.mem ∧ t.tally = s.tally) ∧
  (∀ (s : State) (n : Nat) (c : Cmd), s.Sound → s.cmdOf n = some c → c.phase = .attached → c.allMet = false →
    s.reg (Reg.ringTimeout c.ring) ≠ 0 →
    ∃ t, exec (.waitLimit n) s = .next t ∧ t.Ended n ⟨stTimeout, 0x0005, 0⟩ ∧ t.regs = s.regs ∧ t.mem = s.mem ∧
      t.tally.values = s.tally.values)

/-- DISPATCH (02 R51, R56, R57): an eligible command with no other eligible is dispatched; if its function is disabled it
ends with DISABLED, and with DETAIL WEDGED if the function is wedged. -/
def Obligations.DispatchOfADisabledFunction : Prop :=
  ∀ (s : State) (c : Cmd), s.Sound → s.pickDispatch = some c → s.isDisabled (functionOf c.opcode) = true →
    ∃ t, exec .dispatch s = .next t ∧
      t.Ended c.id ⟨stDisabled, if s.isWedged (functionOf c.opcode) then 0x0006 else 0, 0⟩ ∧
      t.cmd.lastDispatch = c.ring ∧ t.regs = s.regs ∧ t.mem = s.mem ∧ t.tally.values = s.tally.values

/-- DISPATCH (02 R51; 03 R87, 05 R131, 09 R248): a command of a function that is not disabled is dispatched, and latches
the matrix mode, the seed bank and the imposition in force; here an admin command, which latches no more,
but for READ_REG and WRITE_REG, whose register access `RegistersAreReadAndWritten` states. -/
def Obligations.DispatchLatches : Prop :=
  ∀ (s : State) (c : Cmd), s.Sound → s.pickDispatch = some c → c.opcode / 256 = 1 → c.opcode ≠ 0x0102 → c.opcode ≠ 0x0103 →
    ∃ t d, exec .dispatch s = .next t ∧ t.cmdOf c.id = some d ∧ d.phase = .dispatched ∧ d.stamp = s.cmd.tick + 1 ∧
      d.latch.mode = s.reg Reg.arithModeNow ∧ d.latch.seedBank = s.fld Reg.seedBankState 31 31 ∧
      d.latch.imposition = (match s.imp.cur with | some i => i.number | none => 0) ∧
      t.cmd.lastDispatch = c.ring ∧ t.regs = s.regs ∧ t.mem = s.mem ∧ t.tally.values = s.tally.values

/-- COMPLETION_REPORT (02 R38, R53, R55): a command that has ended completes, with the device time counter, what its opcode
does then and its signals, by its report (a LAZY UPDATE once the edition it writes over is free, 08 R226). With QUIET set and status OK the report frees its tag: the command is no longer in flight, and every request
that this adds to those in flight or waiting is a fetch, never a reply. With QUIET set and any other status the report is
that of a command without QUIET: it joins the held completions of its ring, to be written in turn. -/
def Obligations.QuietCompletionFreesTheTag : Prop :=
  (∀ (s r u v : State) (n : Nat) (c d : Cmd), s.cmdOf n = some c → c.phase = .done → c.status ≠ stOK ∨ s.lazyHeld c = false →
    r = s.updCmd n (fun d => { d with time := s.time % 2 ^ 48 }) →
    u = (if c.tagHeld = true then r.atCompletion c else r) → d = u.again c →
    v = (if d.signalled = true then u.applySignals d.pkt else u) →
    exec (.completionReport n) s = .next ((v.report d).afterCompletion d)) ∧
  ∀ (s : State) (c : Cmd), bit c.flags 9 = 1 →
    (c.status = stOK → c.tagHeld = true → ∃ t, s.report c = t ∧ (∀ d ∈ t.cmd.cmds, d.id ≠ c.id) ∧
      (∀ r ∈ t.gcl.reqs, r ∈ s.gcl.reqs ∨ ∃ ring slot, r.2 = .fetch ring slot) ∧
      (∀ r ∈ t.gcl.waiting, r ∈ s.gcl.waiting ∨ ∃ ring slot, r.1 = .fetch ring slot) ∧ t.mem.bytes = s.mem.bytes) ∧
    (c.status ≠ stOK → ∀ d, d.flags % 2 ^ 9 = c.flags % 2 ^ 9 → bit d.flags 9 = 0 → d.id = c.id → d.ring = c.ring →
      s.report c = s.report d)

/-! ### The admin group and registers -/

/-- NOP ends OK with no other effect (02 Table 2.10); IDENTIFY ends OK with the words of Table 2.11 (02 R44); FULL_RESET
ends OK with the count of resets before it, and fetching stops (17 R416). -/
def Obligations.NopIdentifyAndFullResetAnswer : Prop :=
  ∀ (s : State) (n : Nat) (c : Cmd),
    (s.Ready n 0x0100 c → exec (.nop n) s = .next (s.finish n (Outcome.ok 0))) ∧
    (s.Ready n 0x0101 c → exec (.identify n) s = .next (s.finish n (Outcome.ok s.identity))) ∧
    (s.Ready n 0x0106 c → ∃ t, exec (.fullReset n) s = .next t ∧
      t.Ended n (Outcome.ok (s.fld Reg.resetCause 63 32)) ∧ (∀ r, t.mayFetch r = false) ∧ t.regs = s.regs ∧
      t.mem = s.mem ∧ t.tally = s.tally ∧ t.tens = s.tens)

/-- Function numbers (02 R58): the admin, Imposer, tally and security groups carry the numbers 10 to 13 and are never
disabled; DISABLE_FUNCTION or ENABLE_FUNCTION that names one of them ends BAD_PARAM with DETAIL NOT_DISABLABLE, and one
that names a number above 13 ends BAD_PARAM with DETAIL BAD_FUNCTION. -/
def Obligations.SomeFunctionsCannotBeDisabled : Prop :=
  (∀ op, (op / 256 = 1 → functionOf op = 10) ∧ (op / 256 = 3 → functionOf op = 11) ∧ (op / 256 = 11 → functionOf op = 12) ∧
    (op / 256 = 14 → functionOf op = 13)) ∧
  (∀ (s : State) (f : Nat), 10 ≤ f → s.isDisabled f = false) ∧
  ∀ (s : State) (n : Nat) (c : Cmd), 10 ≤ c.par 32 1 →
    (s.Ready n 0x0104 c → exec (.disableFunction n) s =
      .next (s.finish n (Outcome.bad (if c.par 32 1 ≤ 13 then 0x0007 else 0x0102)))) ∧
    (s.Ready n 0x0105 c → exec (.enableFunction n) s =
      .next (s.finish n (Outcome.bad (if c.par 32 1 ≤ 13 then 0x0007 else 0x0102))))

/-- DISABLE_FUNCTION (02 R56): with nothing to drain the function is disabled and the command ends OK; with commands to
drain it waits. DRAIN_LIMIT: the function is disabled and wedged, and the drain ends with TIMEOUT for those that disable
and WEDGED for those that enable. ENABLE_FUNCTION (02 R57): ends OK, or BAD_PARAM with DETAIL WEDGED, or waits for a
drain; the function is enabled at its completion. Functions other than the one named stay as they are. -/
def Obligations.FunctionsAreDisabledAndEnabled : Prop :=
  ∀ (s : State) (n f : Nat) (c : Cmd), s.Sound → c.par 32 1 = f → f < 10 →
    (s.Ready n 0x0104 c → s.isDisabled f = false → s.draining f = false → ∃ t, exec (.disableFunction n) s = .next t ∧
      t.Ended n (Outcome.ok 0) ∧ t.isDisabled f = true ∧ (∀ g, g ≠ f → t.isDisabled g = s.isDisabled g) ∧
      (∀ g, t.isWedged g = s.isWedged g) ∧ (∀ o, o ≠ Reg.funcState → t.reg o = s.reg o) ∧ t.mem = s.mem ∧
      t.tally = s.tally) ∧
    (s.Ready n 0x0104 c → s.isDisabled f = false → s.draining f = true →
      exec (.disableFunction n) s = .next (s.park n [f])) ∧
    (s.Waits n c → c.opcode = 0x0104 → s.draining f = true → ∃ u : State, exec (.drainLimit n) s =
      .next (u.endDrain f ⟨stTimeout, 0x0008, 0⟩ (Outcome.bad 0x0006)) ∧ u.isDisabled f = true ∧ u.isWedged f = true ∧
      u.cmd = s.cmd ∧ u.mem = s.mem ∧ u.tally = s.tally) ∧
    (s.Ready n 0x0105 c → exec (.enableFunction n) s = .next (
      if s.isWedged f then s.finish n (Outcome.bad 0x0006)
      else if s.drainers f ≠ [] then s.park n [f]
      else if s.isDisabled f then (s.park n [f]).finish n (Outcome.ok 0)
      else s.finish n (Outcome.ok 0))) ∧
    (c.opcode = 0x0105 → c.status = stOK → c.aux = [f] → s.isWedged f = false → ∃ t, t = s.atCompletion c ∧
      t.isDisabled f = false ∧ (∀ g, g ≠ f → t.isDisabled g = s.isDisabled g) ∧
      (∀ o, o ≠ Reg.funcState → t.reg o = s.reg o) ∧ t.mem = s.mem ∧ t.tally = s.tally)

/-- Register accesses (02 R62; 00 R9): READ_REG reads at its dispatch, answers the value read and clears
the RC fields read; WRITE_REG, at its dispatch, and REGISTER_WRITE write; READ_CLEAR clears. A write of RING_TIMEOUT_n, all of it RW, leaves the value written and no other
register changed; a read of ATTN_EMPTY_ROWS, all of it RC, leaves 0 there and no other register changed. -/
def Obligations.RegistersAreReadAndWritten : Prop :=
  (∀ (s u : State) (n : Nat) (c : Cmd), c.opcode = 0x0102 →
    (s.pickDispatch = some c → u = s.dispatchCmd c → regOperandFault (c.par 32 4) (c.par 36 1) = none → exec .dispatch s =
      .next ((u.readReg (c.par 32 4) (c.par 36 1)).2.updCmd c.id fun d =>
        { d with latch := { d.latch with extra := [(u.readReg (c.par 32 4) (c.par 36 1)).1] } })) ∧
    (s.Ready n 0x0102 c → exec (.readReg n) s = .next (s.finish n (match regOperandFault (c.par 32 4) (c.par 36 1) with
      | some d => Outcome.bad d
      | none => Outcome.ok (c.latch.extra.headD 0))))) ∧
  (∀ (s : State) (n : Nat) (c : Cmd), c.opcode = 0x0103 →
    (s.pickDispatch = some c → regOperandFault (c.par 32 4) (c.par 36 1) = none → exec .dispatch s =
      .next ((s.dispatchCmd c).regWrite (c.par 32 4) (c.par 36 1) (c.par 40 8 % 2 ^ (8 * c.par 36 1)))) ∧
    (s.Ready n 0x0103 c → exec (.writeReg n) s = .next (s.finish n (match regOperandFault (c.par 32 4) (c.par 36 1) with
      | some d => Outcome.bad d
      | none => Outcome.ok 0)))) ∧
  (∀ (s : State) (r v : Nat), s.Up → s.Sound → r < 16 → ∃ t,
    exec (.registerWrite (Reg.ringTimeout r) 4 v) s = .next t ∧ t.reg (Reg.ringTimeout r) =
      putBits (s.reg (Reg.ringTimeout r)) 31 0 (v % 2 ^ 32) ∧
    (∀ o, o ≠ Reg.ringTimeout r → t.reg o = s.reg o) ∧ t.mem = s.mem ∧ t.cmd = s.cmd ∧ t.tally = s.tally) ∧
  (∀ s : State, s.Up → s.Sound → ∃ t, exec (.readClear Reg.attnEmptyRows 8) s = .next t ∧ t.reg Reg.attnEmptyRows = 0 ∧
    (∀ o, o ≠ Reg.attnEmptyRows → t.reg o = s.reg o) ∧ t.mem = s.mem ∧ t.cmd = s.cmd ∧ t.tally = s.tally)

/-! ### Tallies -/

/-- Tallies (02 R46): add is modulo 2^64, and one that wraps sets CMD_STATUS.TALLY_WRAP; set sets; every other tally
stays. Either way no attached wait that the value meets stays attached, and a wait that it does not meet stays. A wait is
checked at once: met, it is not attached; unmet, it is attached. Memory and tensors stay. -/
def Obligations.TalliesAddSetAndWait : Prop :=
  ∀ (s : State) (i v : Nat), s.Sound → v < 2 ^ 64 →
    (s.tallyAdd i v).tallyVal i = (s.tallyVal i + v) % 2 ^ 64 ∧ (s.tallySet i v).tallyVal i = v ∧
    (2 ^ 64 ≤ s.tallyVal i + v → (s.tallyAdd i v).fld Reg.cmdStatus 31 31 = 1) ∧
    (s.tallyVal i + v < 2 ^ 64 → (s.tallyAdd i v).fld Reg.cmdStatus 31 31 = s.fld Reg.cmdStatus 31 31) ∧
    (∀ t, (t = s.tallyAdd i v ∨ t = s.tallySet i v) → t.mem = s.mem ∧ t.tens = s.tens ∧
      (∀ j, j ≠ i → t.tallyVal j = s.tallyVal j) ∧ (∀ w ∈ t.tally.waiters, w.tally = i → w.metBy (t.tallyVal i) = false) ∧
      (∀ w ∈ s.tally.waiters, w.tally ≠ i ∨ w.metBy (t.tallyVal i) = false → w ∈ t.tally.waiters) ∧
      ∀ w ∈ t.tally.waiters, w ∈ s.tally.waiters) ∧
    (∀ w : Waiter, w.metBy (s.tallyVal w.tally) = true →
      s.tallyWait w = s.notify w (s.tallyVal w.tally) ∧ (s.tallyWait w).tally = s.tally) ∧
    (∀ w : Waiter, w.metBy (s.tallyVal w.tally) = false →
      s.tallyWait w = { s with tally := ⟨s.tally.values, s.tally.waiters ++ [w]⟩ }) ∧
    (∀ w : Waiter, ∀ x, w.metBy x = true ↔ if w.isEq then x = w.value else w.value ≤ x)

/-- The tally commands on a tally of this node (02 R64): TALLY_ADD and TALLY_SET apply their operation and end OK;
TALLY_READ ends OK with the value; TALLY_WAIT_GE and TALLY_WAIT_EQ end OK with the value when it meets the wait, else
wait with the wait attached; TALLY_LIMIT ends TIMEOUT with DETAIL TALLY_LIMIT and detaches the wait. A TALLY outside the
tally region or misaligned ends BAD_PARAM with DETAIL BAD_TALLY. -/
def Obligations.TallyCommandsActAtHome : Prop :=
  (∀ (s : State) (n i : Nat) (c : Cmd), tallyIndex (c.par 32 8) = some i → c.par 32 8 / 2 ^ 48 = s.node →
    (s.Ready n 0x0B01 c → exec (.tallyAdd n) s = .next ((s.tallyAdd i (c.par 40 8)).finish n (Outcome.ok 0))) ∧
    (s.Ready n 0x0B02 c → exec (.tallySet n) s = .next ((s.tallySet i (c.par 40 8)).finish n (Outcome.ok 0))) ∧
    (s.Ready n 0x0B05 c → exec (.tallyRead n) s = .next (s.finish n (Outcome.ok (s.tallyVal i)))) ∧
    (s.Ready n 0x0B03 c → ∃ t, exec (.tallyWaitGe n) s = .next t ∧ t.mem = s.mem ∧ t.tally.values = s.tally.values ∧
      (c.par 40 8 ≤ s.tallyVal i → t.Ended n (Outcome.ok (s.tallyVal i)) ∧ t.tally = s.tally) ∧
      (s.tallyVal i < c.par 40 8 → t.cmdOf n = some { c with phase := .waiting, aux := [] } ∧
        t.tally.waiters = s.tally.waiters ++ [⟨i, false, c.par 40 8, .command n⟩])) ∧
    (s.Ready n 0x0B04 c → ∃ t, exec (.tallyWaitEq n) s = .next t ∧ t.mem = s.mem ∧ t.tally.values = s.tally.values ∧
      (s.tallyVal i = c.par 40 8 → t.Ended n (Outcome.ok (s.tallyVal i)) ∧ t.tally = s.tally) ∧
      (s.tallyVal i ≠ c.par 40 8 → t.cmdOf n = some { c with phase := .waiting, aux := [] } ∧
        t.tally.waiters = s.tally.waiters ++ [⟨i, true, c.par 40 8, .command n⟩]))) ∧
  (∀ (s : State) (n : Nat) (c : Cmd), s.Waits n c → c.opcode = 0x0B03 ∨ c.opcode = 0x0B04 → c.par 48 4 ≠ 0 → c.aux = [] →
    ∃ t, exec (.tallyLimit n) s = .next t ∧ t.Ended n ⟨stTimeout, 0x0102, 0⟩ ∧ t.mem = s.mem ∧
      t.tally.values = s.tally.values ∧ ∀ w, w ∈ t.tally.waiters ↔ w ∈ s.tally.waiters ∧ w.owner ≠ .command n) ∧
  (∀ (s : State) (n : Nat) (c : Cmd), tallyIndex (c.par 32 8) = none →
    (s.Ready n 0x0B01 c → exec (.tallyAdd n) s = .next (s.finish n (Outcome.bad 0x0100))) ∧
    (s.Ready n 0x0B02 c → exec (.tallySet n) s = .next (s.finish n (Outcome.bad 0x0100))) ∧
    (s.Ready n 0x0B03 c → exec (.tallyWaitGe n) s = .next (s.finish n (Outcome.bad 0x0100))) ∧
    (s.Ready n 0x0B04 c → exec (.tallyWaitEq n) s = .next (s.finish n (Outcome.bad 0x0100))) ∧
    (s.Ready n 0x0B05 c → exec (.tallyRead n) s = .next (s.finish n (Outcome.bad 0x0100))))

/-! ### Memory -/

/-- COPY and FILL on this node (10 R284, R285), in quiet surroundings, with nothing poisoned or uncorrectable, no context of a
queue pair in use, and no line of the window or stopped memory to wait for: every byte of the destination holds the source's
byte or the pattern's, every other byte of memory stays, the command ends OK with the bytes covered; registers, tallies and
tensors but for their marks stay. -/
def Obligations.CopyAndFillWriteTheirDestination : Prop :=
  ∀ (s : State) (n : Nat) (c : Cmd) (env : Env), s.Sound → s.Begins c → env.Quiet → s.Clean → (∀ i, s.qpIsReady i = false) →
    (s.Ready n 0x0201 c → s.copyFault c = none → nodeOf (c.par 32 8) = s.node → nodeOf (c.par 40 8) = s.node →
      s.rangeGate c [(localOf (c.par 32 8), c.par 48 8)] [(localOf (c.par 40 8), c.par 48 8)] = none →
      ∃ t, exec (.copy n env) s = .next t ∧ t.Ended n (Outcome.ok (c.par 48 8)) ∧
        (∀ a, t.byteAt a = if localOf (c.par 40 8) ≤ a ∧ a < localOf (c.par 40 8) + c.par 48 8
          then s.byteAt (localOf (c.par 32 8) + (a - localOf (c.par 40 8))) else s.byteAt a) ∧
        t.regs = s.regs ∧ t.tally = s.tally ∧
        t.tens.map (fun x => { x with marks := [] }) = s.tens.map (fun x => { x with marks := [] })) ∧
    (s.Ready n 0x0202 c → c.par 40 8 % 8 = 0 → 0 < c.par 40 8 → c.par 40 8 ≤ 2 ^ 40 → c.par 32 8 % 8 = 0 →
      nodeOf (c.par 32 8) = s.node → s.copyRange (c.par 32 8) (c.par 40 8) = true →
      s.copyHole (c.par 32 8) (c.par 40 8) = false → s.rangeGate c [] [(localOf (c.par 32 8), c.par 40 8)] = none →
      ∃ t, exec (.fill n env) s = .next t ∧ t.Ended n (Outcome.ok (c.par 40 8)) ∧
        (∀ a, t.byteAt a = if localOf (c.par 32 8) ≤ a ∧ a < localOf (c.par 32 8) + c.par 40 8
          then BitVec.ofNat 8 (c.par 48 8 / 2 ^ (8 * ((a - localOf (c.par 32 8)) % 8))) else s.byteAt a) ∧
        t.regs = s.regs ∧ t.tally = s.tally ∧
        t.tens.map (fun x => { x with marks := [] }) = s.tens.map (fun x => { x with marks := [] }))

/-- COPY_2D on this node (10 R284), with nothing poisoned or uncorrectable and nothing to wait for, stores the bytes of its
rows, read in order, row by row, and ends OK with the bytes they cover; CHECKSUM (10 R285) ends OK with the CRC-64 of the
region's bytes and their number, and leaves everything else. A copy that its checks refuse, made before any byte moves, ends
BAD_PARAM and leaves memory, tallies and tensors. -/
def Obligations.Copy2dAndChecksumComplete : Prop :=
  ∀ (s t : State) (n : Nat) (c : Cmd) (env : Env), env.Quiet → s.Begins c → s.Clean →
    (s.Ready n 0x0203 c → s.copyFault c = none →
      (∀ x ∈ segments c, nodeOf x.1 = s.node ∧ nodeOf x.2.1 = s.node) →
      s.rangeGate c ((segments c).map fun x => (localOf x.1, x.2.2)) ((segments c).map fun x => (localOf x.2.1, x.2.2)) =
        none →
      s.putOut c (segments c) ((segments c).map fun x => s.bytesAt (localOf x.1) x.2.2).flatten = (t, none) →
      exec (.copy2d n env) s = .next (t.finish n (Outcome.ok (c.par 68 4 * c.par 64 4)))) ∧
    (∀ i d, s.Ready n 0x0201 c ∧ i = .copy n env ∨ s.Ready n 0x0203 c ∧ i = .copy2d n env → s.copyFault c = some d →
      ∃ t, exec i s = .next t ∧ t.Ended n (Outcome.bad d) ∧ t.mem = s.mem ∧ t.tally = s.tally ∧ t.tens = s.tens) ∧
    (s.Ready n 0x0204 c → c.par 40 8 ≤ 2 ^ 40 → 0 < c.par 40 8 → nodeOf (c.par 32 8) = s.node →
      s.copyRange (c.par 32 8) (c.par 40 8) = true → s.copyHole (c.par 32 8) (c.par 40 8) = false →
      s.rangeGate c [(localOf (c.par 32 8), c.par 40 8)] [] = none →
      exec (.checksum n env) s = .next (s.finish n (Outcome.ok
        (crc64 (s.bytesAt (localOf (c.par 32 8)) (c.par 40 8)) + c.par 40 8 * 2 ^ 64))))

/-- The memory's own events. MAP_OUT_REQUEST (10 R276): a channel in service is queued with cause 4, and no other register
of a channel changes. REFRESH_SUBSLOT (10 R269), from the end of HBM training on: the next of 32 sub-slots begins, and after
the last a period is counted. STACK_TEMP_READ (10 R272): the reading, its maximum and the throttle level; a failed read counts
as 100 °C and sets SENSOR_FAIL. A stack below 85 °C at level 0 raises no alarm. -/
def Obligations.MemoryEventsTakePlace : Prop :=
  ∀ s : State, s.Up → s.Sound →
    (∀ ch < 256, s.fld (Reg.channelState ch) 63 62 = 0 → s.imp.capTally = none → ∃ t, exec (.mapOutRequest ch) s = .next t ∧
      t.fld (Reg.channelState ch) 63 62 = 1 ∧ t.fld (Reg.channelState ch) 61 59 = 4 ∧
      t.imp.changes = s.imp.changes ++ [(s.imp.nextChange, .evacuate ch)] ∧
      (∀ o, o ≠ Reg.channelState ch → t.reg o = s.reg o) ∧ t.mem = s.mem ∧ t.tally = s.tally) ∧
    (s.mem.trained = true → ∃ t, exec .refreshSubslot s = .next t ∧ t.mem.subslot = (s.mem.subslot + 1) % 32 ∧
      t.mem.bytes = s.mem.bytes ∧ (s.mem.subslot ≠ 31 → t.regs = s.regs) ∧ (s.mem.subslot = 31 →
        t.fld Reg.hbmCalendar 63 32 = (s.fld Reg.hbmCalendar 63 32 + 1) % 2 ^ 32)) ∧
    (∀ k < 16, ∀ v < 85, s.fld (Reg.stackTemp k) 30 28 = 0 → ∃ t, exec (.stackTempRead k (.value v)) s = .next t ∧
      t.fld (Reg.stackTemp k) 7 0 = v ∧ t.fld (Reg.stackTemp k) 30 28 = 0 ∧ t.fld (Reg.stackTemp k) 31 31 = 0 ∧
      t.fld (Reg.stackTemp k) 23 16 = max (s.fld (Reg.stackTemp k) 23 16) v ∧
      (∀ o, o ≠ Reg.stackTemp k → t.reg o = s.reg o) ∧ t.mem = s.mem)

/-! ### The Imposer -/

/-- Declarations (09 R238 to R242). DECLARE_TENSOR without an imposition in force: the tensor, and for a block-scaled
format its companion, join those live under the next handles; nothing else of them, of memory or of registers changes.
DECLARE_OP: the operation joins the plan under the next number. RELEASE_TENSOR answers what its dispatch found. A
declaration that its checks refuse changes nothing. -/
def Obligations.DeclarationsEnterTheTables : Prop :=
  (∀ (s : State) (n : Nat) (c : Cmd), s.Ready n 0x0301 c → s.declareFault c = none → s.imp.cur = none →
    s.tens.length + (if isMX (c.par 32 1) then 2 else 1) ≤ 65536 →
    s.imp.nextHandle + (if isMX (c.par 32 1) then 2 else 1) ≤ noHandle →
    ∃ t, exec (.declareTensor n) s = .next t ∧ t.Ended n (Outcome.ok ((s.addTensor c).declareResult s.imp.nextHandle)) ∧
      t.tens = s.tens ++ (if isMX (c.par 32 1) then
        [c.newTensor s.imp.nextHandle s.imp.weights, (c.newTensor s.imp.nextHandle s.imp.weights).companion]
        else [c.newTensor s.imp.nextHandle s.imp.weights]) ∧
      t.imp.nextHandle = s.imp.nextHandle + (if isMX (c.par 32 1) then 2 else 1) ∧ t.imp.ops = s.imp.ops ∧
      t.mem = s.mem ∧ t.regs = s.regs ∧ t.tally = s.tally) ∧
  (∀ (s : State) (n d : Nat) (c : Cmd), s.Ready n 0x0301 c → s.declareFault c = some d →
    exec (.declareTensor n) s = .next (s.finish n (Outcome.bad d))) ∧
  (∀ (s : State) (n : Nat) (c : Cmd), s.Ready n 0x0303 c → s.declareOpFault c = none → s.imp.ops.length < 4096 →
    ∃ t, exec (.declareOp n) s = .next t ∧ t.Ended n (Outcome.ok s.imp.ops.length) ∧
      t.imp.ops = s.imp.ops ++ [⟨c.par 32 2, c.par 34 2, c.opHandles, c.par 52 1⟩] ∧ t.tens = s.tens ∧ t.mem = s.mem ∧
      t.regs = s.regs ∧ t.tally = s.tally) ∧
  (∀ (s : State) (n : Nat) (c : Cmd), s.Ready n 0x0302 c →
    (c.latch.extra = [0] → exec (.releaseTensor n) s = .next (s.finish n (Outcome.ok 0))) ∧
    ∀ d, c.latch.extra = [1, d] → exec (.releaseTensor n) s = .next (s.finish n (Outcome.bad d)))

/-- Sliver length and logical cores (09 R243): IMPOSE with MODE NEW and T tokens fixes the sliver length as the least
multiple of 64 such that the slivers do not exceed LOGICAL_CORES; the logical core count is the number of slivers, and
each token lies in the sliver of one of them. The imposition takes the next number (09 R248), and with at least twice as
many positions as logical cores each is spread over the largest power of two of positions up to 32 (09 R245). -/
def Obligations.SliversAreTheLeastThatFit : Prop :=
  ∀ (s : State) (c : Cmd) (i : Imposition), c.isNew = true → 0 < c.par 40 4 → 0 < c.par 38 2 →
    s.nextImposition c = .ok i →
    i.tokens = c.par 40 4 ∧ i.number = s.imp.nextNumber ∧ i.sliver % 64 = 0 ∧ 0 < i.sliver ∧ i.sliver ≤ 512 ∧
    ceilDiv i.tokens i.sliver ≤ c.par 38 2 ∧
    (∀ m, 0 < m → m % 64 = 0 → ceilDiv i.tokens m ≤ c.par 38 2 → i.sliver ≤ m) ∧ i.cores = ceilDiv i.tokens i.sliver ∧
    (∀ τ < i.tokens, τ / i.sliver < i.cores) ∧
    (2 * i.cores ≤ s.positions → i.spread ≤ 32 ∧ i.spread * i.cores ≤ s.positions ∧ (∃ k, i.spread = 2 ^ k) ∧
      ∀ k, 2 ^ k ≤ 32 → 2 ^ k * i.cores ≤ s.positions → 2 ^ k ≤ i.spread)

/-- The commands of the Imposer take place (09 R249, R250, R253, R254, R262, R263): IMPOSE publishes, and ends OK with the
imposition's numbers; a publication that must wait does so, and takes place later, and a
BOUNDARY whose evacuation a stack at level 4 stops completes when it goes on (10 R273); MIGRATE without NOW makes its changes
pending; RESHARD stages its list; QUERY_IMPOSITION and READ_IDLE answer. BOUNDARY that expects another imposition is
STALE (09 R249). -/
def Obligations.ImposerCommandsTakePlace : Prop :=
  ∀ (s : State) (n : Nat) (c : Cmd),
    (∀ sh t moved changed, s.Ready n 0x0304 c → s.imposeFault c = none → s.publicationWaits c = false →
      s.publish c 0 s.imp.nextChange = .ok (t, moved, changed) → t.imp.reshard = none →
      exec (.impose n sh) s = .next (if t.evacuationStopped ((t.imp.cur.map (·.number)).getD 0) = true
        then t.park n [28, ofBool moved + 2 * ofBool changed]
        else t.finish n (Outcome.ok (t.impositionResult (ofBool moved + 2 * ofBool changed))))) ∧
    (∀ sh, s.Ready n 0x0304 c → s.imposeFault c = none → s.publicationWaits c = true →
      exec (.impose n sh) s = .next (s.park n [25, 0, s.imp.nextChange])) ∧
    (∀ sh, s.Ready n 0x0304 c → c.par 32 1 = 1 → (∃ i, s.imp.cur = some i ∧ i.number ≠ c.par 60 4) →
      exec (.impose n sh) s = .next (s.finish n (Outcome.bad 0x0104))) ∧
    (∀ sh t lo hi moved changed, s.Waits n c → c.opcode = 0x0304 → c.aux = [25, lo, hi] → s.publicationWaits c = false →
      s.imposeFault c = none → s.publish c lo hi = .ok (t, moved, changed) → t.imp.reshard = none →
      t.evacuationStopped ((t.imp.cur.map (·.number)).getD 0) = false → exec (.pendingPublication n sh) s =
        .next (t.finish n (Outcome.ok (t.impositionResult (ofBool moved + 2 * ofBool changed))))) ∧
    (∀ sh last, s.Waits n c → c.opcode = 0x0304 → c.aux = [28, last] → s.imp.reshard = none →
      s.evacuationStopped ((s.imp.cur.map (·.number)).getD 0) = false →
      exec (.pendingPublication n sh) s = .next (s.finish n (Outcome.ok (s.impositionResult last)))) ∧
    (s.Ready n 0x0306 c → s.migrateFault c = none → c.par 36 1 = 0 →
      exec (.migrate n) s = .next ((s.request c.migrateChanges).finish n
        (Outcome.ok ((s.request c.migrateChanges).impositionResult 0)))) ∧
    (s.Ready n 0x0307 c → s.reshardFault c = none → s.rangeFault (c.par 40 8) (8 * c.par 36 4) = none →
      s.rangeGate c [(localOf (c.par 40 8), 8 * c.par 36 4)] [] = none →
      s.readStop (localOf (c.par 40 8)) (8 * c.par 36 4) = .none →
      ∀ t d, s.loadBytes (localOf (c.par 40 8)) (8 * c.par 36 4) = (t, .ok d) →
        exec (.reshard n) s = .next (t.stageReshard c (reshardList (c.par 36 4) d))) ∧
    (s.Ready n 0x0305 c → c.par 40 1 % 2 = 0 →
      exec (.queryImposition n) s = .next (s.finish n (Outcome.ok s.queryResult))) ∧
    (s.Ready n 0x0308 c → c.par 32 8 % 8 = 0 → nodeOf (c.par 32 8) = s.node → s.rangeFault (c.par 32 8) 294912 = none →
      s.rangeGate c [] [(localOf (c.par 32 8), 294912)] = none →
      exec (.readIdle n) s = .next (s.giveIdle c (c.par 32 8)))

/-- Moves and drains (09 R250, R251; 10 R277): a page's move begins and ends, with no access waiting for it, and the page's
bytes stay where they are; with the last page of a channel that is evacuating the channel reads mapped out. A DRAINING
imposition that no command holds and no delivery in transit names is dropped, and its drain tallies are raised. -/
def Obligations.MovesBeginAndEnd : Prop :=
  (∀ (s : State) (m : Move) (p : Nat), m.kind = .page p → s.mayMove m = true →
    (s.imp.moves.find? fun x => x.kind = .page p ∧ ! x.begun) = some m →
    ∃ t, exec (.placementMove (.page p)) s = .next t ∧ { m with begun := true } ∈ t.imp.moves ∧ t.mem = s.mem ∧
      t.regs = s.regs ∧ t.tens = s.tens ∧ t.tally = s.tally ∧ t.cmd = s.cmd) ∧
  (∀ (s : State) (m : Move) (p : Nat), s.Sound → m.kind = .page p → m.heldDeliveries = [] → s.imp.draining = none →
    s.mem.stalled = [] → s.moveStopped m = false →
    (s.imp.moves.find? fun x => x.kind = .page p ∧ x.begun ∧ ! x.ended) = some m →
    ∃ t, exec (.placementMoveEnd (.page p)) s = .next t ∧ m ∉ t.imp.moves ∧ t.mem = s.mem ∧ t.tens = s.tens ∧
      t.tally = s.tally ∧ (s.fld (Reg.channelState (m.src % 256)) 63 62 ≠ 2 → t.regs = s.regs) ∧
      (s.fld (Reg.channelState (m.src % 256)) 63 62 = 2 → (∀ x ∈ s.imp.moves, x ≠ m → x.src % 256 ≠ m.src % 256) →
        t.fld (Reg.channelState (m.src % 256)) 63 62 = 3)) ∧
  ∀ (s : State) (d : Superseded), s.imp.draining = some d → s.holders d.imp.number = 0 → s.inTransit d.imp.number = false →
    exec .impositionDrained s = .next
      ({ s with imp := { s.imp with draining := none, moves := s.imp.moves.filter fun x => ! x.ended } }.raiseAll d.tallies)

/-- The sweep and faults found while running (09 R255, R256; 01 R20; 18 R428). SWEEP_CONTROL starts, stops or paces the
sweep; a sweep event counts and moves to the next slot; a copse whose position has moved, every
position in a move being one that may (04 R102), reads SWEEP with the slot under test; a slot that passes goes back; a router fault is fatal. -/
def Obligations.TheSweepGoesOn : Prop :=
  (∀ (s : State) (n : Nat) (c : Cmd), s.Sound → s.Ready n 0x0D06 c → c.par 32 1 ≤ 2 → c.par 34 2 ≠ 0 →
    ∃ t, exec (.sweepControl n) s = .next t ∧ t.Ended n (Outcome.ok 0) ∧
      (c.par 32 1 = 0 → t.fld Reg.sweepState 31 31 = 0 ∧ t.fld Reg.sweepState 15 0 = s.fld Reg.sweepState 15 0) ∧
      (c.par 32 1 = 1 → t.fld Reg.sweepState 31 31 = 1 ∧ t.fld Reg.sweepState 15 0 = c.par 34 2) ∧
      (c.par 32 1 = 2 → t.fld Reg.sweepState 31 31 = s.fld Reg.sweepState 31 31 ∧ t.fld Reg.sweepState 15 0 = c.par 34 2) ∧
      (∀ o, o ≠ Reg.sweepState → t.reg o = s.reg o) ∧ t.mem = s.mem ∧ t.tally = s.tally) ∧
  (∀ s : State, s.fld Reg.sweepState 31 31 = 1 → (∀ t ∈ s.obs.tests, t.kind = 0 → t.running = false) →
    exec .sweepEvent s = .next ((List.range 256).foldl (State.sweepCopse (s.fld Reg.sweepState 30 26))
      ((s.addSat Reg.sweepState 63 32 1).setFld Reg.sweepState 30 26 ((s.fld Reg.sweepState 30 26 + 1) % 17)))) ∧
  (∀ (s : State) (k j : Nat), s.Sound → (s.imp.sweep.find? fun x => x.1 = k) = some (k, .movingOut j) → j < 17 →
    s.sweepMayMove = true → s.fld (Reg.copseState k) 31 28 = 0 →
    ∃ t, exec (.sweepMoveEnd k) s = .next t ∧ t.fld (Reg.copseState k) 31 28 = 1 ∧ t.fld (Reg.copseState k) 21 17 = j ∧
      (k, .testing j) ∈ t.imp.sweep ∧ (∀ o, o ≠ Reg.copseState k → t.reg o = s.reg o) ∧ t.mem = s.mem) ∧
  (∀ (s : State) (k j : Nat), (s.imp.sweep.find? fun x => x.1 = k) = some (k, .testing j) → j < 16 →
    ∃ t, exec (.slotTestEnd k true) s = .next t ∧ (k, .movingBack j) ∈ t.imp.sweep ∧
      (∀ o, o ≠ Reg.slotTest (17 * k + j) → t.reg o = s.reg o) ∧ t.mem = s.mem) ∧
  ∀ (s : State) (k : Nat), s.Up → k < 256 →
    exec (.routerFault k) s = .next (s.setFld (Reg.groveStatus (k / 64)) 1 1 1).fatal

/-! ### Matrix arrays -/

/-- MATMUL and MATMUL_GATHER into an accumulator tensor (04 R113, R114; 03 R81), in quiet surroundings, with nothing poisoned
or uncorrectable: after its checks, the record joined and the space taken,
element (m, n) of C within the columns written is the reduction of row m of A by
column n of B, begun at C's old element with ACC_IN and at zero without, in FP32; every other element of every tensor
stays, and the command ends OK. MATMUL_GATHER does so once its ALL_GATHER has ended. -/
def Obligations.MatmulWritesItsProducts : Prop :=
  ∀ (s r u : State) (n : Nat) (c : Cmd) (env : Env) (a b o : Tensor) (i : Instr), s.Sound → env.Quiet →
    s.Begins c → s.Clean → s.matmulFault c = none → s.readable c (c.par 32 4) = some a →
    s.readable c (c.par 36 4) = some b → s.tensor (c.par 40 4) = some o → c.accOut = true →
    s.matmulRecord c a b = some r → r.takeSaves c = some u → (productOf c a b).nBegin + (productOf c a b).nCount ≤ o.width →
    (s.Ready n 0x0401 c ∧ i = .matmul n env ∨ s.Ready n 0x0402 c ∧ i = .matmulGather n env ∧
      ∃ x, c.latch.extra = [0, x] ∧ x ∉ s.coll.failed ∧ ∀ y ∈ s.coll.colls, y.id ≠ x) →
    ∃ t, exec i s = .next t ∧ (∃ q, t.Ended n (Outcome.ok q)) ∧
      List.Forall₂ (fun (w v : Tensor) => v.handle = w.handle ∧
        (w.handle = o.handle → ∀ m < (productOf c a b).rows, ∀ j < (productOf c a b).nCount,
          codeAt v.data (m * o.width + ((productOf c a b).nBegin + j)) = fp32.encode (dotParts (ArithMode.ofWord c.latch.mode)
            a.fmt b.fmt (u.kParts c) (terms2 c.transA c.turnB a b (u.operand c a) (u.operand c b) m
              ((productOf c a b).nBegin + j) ((List.range (productOf c a b).kCount).map ((productOf c a b).kBegin + ·)))
            (accInit c.accIn o.data (m * o.width + ((productOf c a b).nBegin + j)))).1 % 2 ^ 32) ∧
        (∀ k, (w.handle = o.handle → ∀ m < (productOf c a b).rows, ∀ j < (productOf c a b).nCount,
          k ≠ m * o.width + ((productOf c a b).nBegin + j)) → codeAt v.data k = codeAt w.data k)) u.tens t.tens

/-- The matrix group ends OK (04 R108, R113, R114, R115), in quiet surroundings, with no error of its table, nothing
poisoned or uncorrectable, and space for the saves it writes. SET_MATRIX_MODE refuses a word with reserved bits or no mode;
at its completion its word takes effect, and it returns the word it replaces then. -/
def Obligations.MatrixCommandsComplete : Prop :=
  ∀ (s r u : State) (n : Nat) (c : Cmd) (env : Env) (a b o : Tensor), s.Sound → env.Quiet →
    s.Begins c → s.Clean → s.readable c (c.par 32 4) = some a → s.readable c (c.par 36 4) = some b → s.tensor (c.par 40 4) = some o →
    (s.Ready n 0x0401 c → s.matmulFault c = none → s.matmulRecord c a b = some r → r.takeSaves c = some u →
      ∃ t q, exec (.matmul n env) s = .next t ∧ t.Ended n (Outcome.ok q)) ∧
    (s.Ready n 0x0402 c → s.matmulFault c = none → s.matmulRecord c a b = some r → r.takeSaves c = some u →
      ∀ x, c.latch.extra = [0, x] →
      (x ∈ s.coll.failed → exec (.matmulGather n env) s = .next (s.finish n (Outcome.aborted 0x010B))) ∧
      (x ∉ s.coll.failed → (∀ y ∈ s.coll.colls, y.id ≠ x) →
        ∃ t q, exec (.matmulGather n env) s = .next t ∧ t.Ended n (Outcome.ok q)) ∧
      (x ∉ s.coll.failed → (∃ y ∈ s.coll.colls, y.id = x ∧ (y.slot = none ∨ y.toWrite ≠ [])) →
        exec (.matmulGather n env) s = .next (s.park n [14, x]))) ∧
    (s.Ready n 0x0403 c → s.packFault c = none → s.takeSaves c = some u →
      ∃ t q, exec (.matmulPacked n env) s = .next t ∧ t.Ended n (Outcome.ok q)) ∧
    (s.Ready n 0x0404 c → c.par 32 4 % 4 ≠ 0 → bits (c.par 32 4) 15 4 = 0 → bits (c.par 32 4) 31 17 = 0 →
      exec (.setMatrixMode n) s = .next (s.finish n (Outcome.ok 0))) ∧
    (c.opcode = 0x0404 → c.status = stOK → s.cmdOf c.id = some c → ∃ t, t = s.atCompletion c ∧
      t.reg Reg.arithModeNow = c.par 32 4 ∧ t.cmdOf c.id =
        some { c with result := resultOf 0 0 0 (s.reg Reg.arithModeNow) 0 0 } ∧
      (∀ o, o ≠ Reg.arithModeNow → t.reg o = s.reg o) ∧ t.mem = s.mem ∧ t.tens = s.tens ∧ t.tally = s.tally) ∧
    (s.Ready n 0x0404 c → c.par 32 4 % 4 = 0 ∨ bits (c.par 32 4) 15 4 ≠ 0 ∨ bits (c.par 32 4) 31 17 ≠ 0 →
      exec (.setMatrixMode n) s = .next (s.finish n (Outcome.bad 0x0108)))

/-- The weight registers of an array (04 R99 to R101, R103, R105, R106). SHADOW_LOAD writes the cells of a tile of a command
of SHADOW mode into free shadow registers, and the next tile may land behind it. SWAP makes the shadow registers of every
array named active, frees them and counts; the idle before it and the wait for a late load are counted. RIPPLE_FRONT writes
the next row of cells of a command of RIPPLE mode into the active registers, and a swap is counted with the last; with its
row of weights not landed it counts a stall. Arrays not named, memory and tallies stay. -/
def Obligations.WeightsMoveThroughTheArrays : Prop :=
  ∀ (s : State) (core a n k0 n0 : Nat) (c : Cmd) (x y : Tensor) (turned : Bool), s.Sound → core < 4096 → a < 4 →
    s.isRetired (core / 16) = false →
    (∀ behind, s.loader n false = some (c, x, y, turned) → s.fld (Reg.arrayState core a) 30 30 = 0 →
      s.fld (Reg.arrayState core a) 29 29 = 0 ∨ (s.arraySt (4 * core + a)).landing =
        tileBytes x.fmt y.fmt turned (s.tileCode c x y turned k0 n0) →
      ∃ t, exec (.shadowLoad core a n k0 n0 behind) s = .next t ∧
      t.arraySt (4 * core + a) = { s.arraySt (4 * core + a) with
        shadow := tileCells x.fmt y.fmt (s.tileCode c x y turned k0 n0)
        landing := match behind with
          | some b => tileBytes x.fmt y.fmt turned (s.tileCode c x y turned b.1 b.2)
          | none => [] } ∧
      t.fld (Reg.arrayState core a) 30 30 = 1 ∧ t.fld (Reg.arrayState core a) 29 29 = ofBool behind.isSome ∧
      (∀ i, i ≠ 4 * core + a → t.arraySt i = s.arraySt i) ∧ t.mem = s.mem ∧ t.tally = s.tally ∧ t.tens = s.tens) ∧
    (∀ hazard waited, s.fld (Reg.arrayState core a) 30 30 = 1 → ∃ t, exec (.swap core [a] hazard waited) s = .next t ∧
      t.arraySt (4 * core + a) = { s.arraySt (4 * core + a) with active := (s.arraySt (4 * core + a)).shadow } ∧
      t.fld (Reg.arrayState core a) 30 30 = 0 ∧
      t.fld (Reg.arrayCount core a) 63 32 = (s.fld (Reg.arrayCount core a) 63 32 + 1) % 2 ^ 32 ∧
      (∀ b < 4, t.fld (Reg.arrayStalls core b) 31 0 = min (s.fld (Reg.arrayStalls core b) 31 0 + waited) (2 ^ 32 - 1)) ∧
      t.fld (Reg.arrayStalls core a) 63 32 = min (s.fld (Reg.arrayStalls core a) 63 32 + min 10 hazard) (2 ^ 32 - 1) ∧
      (∀ i, i ≠ 4 * core + a → t.arraySt i = s.arraySt i) ∧ t.mem = s.mem ∧ t.tally = s.tally ∧ t.tens = s.tens) ∧
    (s.loader n true = some (c, x, y, turned) → (s.arraySt (4 * core + a)).active.length = 1024 →
      (s.arraySt (4 * core + a)).front < 32 → ∃ t, exec (.rippleFront core a n k0 n0 true) s = .next t ∧
      (t.arraySt (4 * core + a)).front = ((s.arraySt (4 * core + a)).front + 1) % 32 ∧
      (t.arraySt (4 * core + a)).shadow = (s.arraySt (4 * core + a)).shadow ∧
      (∀ k < 1024, (t.arraySt (4 * core + a)).active.getD k 0 =
        if k / 32 = (s.arraySt (4 * core + a)).front then
          (tileCells x.fmt y.fmt (s.tileCode c x y turned k0 n0)).getD k 0
        else (s.arraySt (4 * core + a)).active.getD k 0) ∧
      (∀ i, i ≠ 4 * core + a → t.arraySt i = s.arraySt i) ∧ t.mem = s.mem ∧ t.tally = s.tally ∧ t.tens = s.tens ∧
      t.fld (Reg.arrayCount core a) 63 32 =
        (s.fld (Reg.arrayCount core a) 63 32 + if (s.arraySt (4 * core + a)).front = 31 then 1 else 0) % 2 ^ 32) ∧
    (s.loader n true = some (c, x, y, turned) → ∃ t, exec (.rippleFront core a n k0 n0 false) s = .next t ∧
      t.fld (Reg.arrayStalls core a) 31 0 = min (s.fld (Reg.arrayStalls core a) 31 0 + 1) (2 ^ 32 - 1) ∧ t.core = s.core)

/-- ARITH_FLAGS_CLEAR (03 R88): a write of ones to ARITH_FLAGS_SUMMARY clears those flags in every array and leaves the
others; no other register, no memory and no tally changes. -/
def Obligations.ClearingFlagsClearsEveryArray : Prop :=
  ∀ (s : State) (v : Nat), s.Up → s.Sound → ∃ t, exec (.arithFlagsClear v) s = .next t ∧
    (∀ core < 4096, ∀ a < 4, ∀ i < 4, bit (t.reg (Reg.arrayFlags core a)) i =
      if bit v i = 1 then 0 else bit (s.reg (Reg.arrayFlags core a)) i) ∧
    (∀ off, (∀ core < 4096, ∀ a < 4, off ≠ Reg.arrayFlags core a) → t.reg off = s.reg off) ∧ t.mem = s.mem ∧
    t.tally = s.tally ∧ t.tens = s.tens ∧ t.core = s.core

/-! ### The vector engine -/

/-- The vector instructions (05 R121, R124), run in the engine of a logical core as the program last begun has them
(log 12): the 64 lanes of VD take the lane operation of the lanes of VA, VB and VC, the immediate, the lanes loaded, the
draws, or the draws as fractions of 2^24; VECTOR_NOP and ST change no register; every other register of every core stays. -/
def Obligations.VectorInstructionsWriteTheirRegister : Prop :=
  ∀ (s : State) (core t g : Nat) (w : Word64) (b : Nat), s.Sound → (s.core.vjob.map (·.bank)) = some b → core < 4096 →
    vecOk w.toNat = true → ∀ (op : Nat) (i : Instr) (f : Nat → Nat), vecOp w.toNat = op →
    ((op, i) ∈ [(0x10, Instr.add core t g w), (0x11, .sub core t g w), (0x12, .mul core t g w), (0x13, .fma core t g w),
        (0x14, .min core t g w), (0x15, .max core t g w), (0x16, .abs core t g w), (0x17, .neg core t g w),
        (0x18, .cmplt core t g w), (0x19, .sel core t g w), (0x20, .sfu core t g w)] ∧
      f = (fun l => (laneOp (s.seeds b) op (bits w.toNat 3 0) ((s.vreg core (bits w.toNat 50 46)).getD l 0)
        ((s.vreg core (bits w.toNat 45 41)).getD l 0) ((s.vreg core (bits w.toNat 40 36)).getD l 0) Flags.none).1) ∨
     (op, i) = (0x01, .ld core t g w) ∧ f = (fun l => (s.ldLanes (bits w.toNat 35 33) t g).getD l 0) ∨
     (op, i) = (0x03, .ldi core t g w) ∧ f = (fun _ => bits w.toNat 31 0) ∨
     (op, i) = (0x30, .rand core t g w) ∧ f = (fun l => (State.drawLanes core (List.range 64) s).1.getD l 0) ∨
     (op, i) = (0x31, .randu core t g w) ∧ f = (fun l => fp32.encode (Val.ofReal
       (mkRat ((State.drawLanes core (List.range 64) s).1.getD l 0 / 256 : Nat) (2 ^ 24)))) ∨
     (op, i) = (0x3F, .vectorNop core t g w) ∧ f = (fun l => (s.vreg core (bits w.toNat 55 51)).getD l 0) ∨
     (op, i) = (0x02, .st core t g w) ∧ f = (fun l => (s.vreg core (bits w.toNat 55 51)).getD l 0)) →
    ∃ u, exec i s = .next u ∧ (∀ k r l, r < 32 → l < 64 → (u.vreg k r).getD l 0 =
      if k = core ∧ r = bits w.toNat 55 51 then f l % 2 ^ 32 else (s.vreg k r).getD l 0) ∧ (op ≠ 0x02 → u.tens = s.tens)

/-- ST to an FP32 tensor (05 R121): lane l of the register is stored unchanged as element 64 g + l of row t, where the row
has that element; every other element of every tensor stays. -/
def Obligations.StoreOfARegisterIsExact : Prop :=
  ∀ (s : State) (core t g e : Nat) (w : Word64) (x : Tensor), s.Sound → s.core.vjob.isSome = true → core < 4096 →
    vecOk w.toNat = true → vecOp w.toNat = 0x02 → s.slotTensor (bits w.toNat 35 33) = some (x, e) → x.fmt = 0 → t < x.rows →
    ∃ u, exec (.st core t g w) s = .next u ∧ List.Forall₂ (fun (a v : Tensor) => v.handle = a.handle ∧
      (a.handle = x.handle → ∀ l < 64, 64 * g + l < x.width →
        codeAt v.data (t * x.width + 64 * g + l) = (s.vreg core (bits w.toNat 50 46)).getD l 0) ∧
      (∀ k, (a.handle = x.handle → ∀ l < 64, 64 * g + l < x.width → k ≠ t * x.width + 64 * g + l) →
        codeAt v.data k = codeAt a.data k)) s.tens u.tens

/-- The vector group's commands end OK, in quiet surroundings, with no error of their tables and nothing poisoned
or uncorrectable (05 R123, R125, R132, R134,
R135, R141). ROW_STATS and GATED_ACT take space for the saves they write. LOAD_SEED_TABLE waits for the inactive bank;
SEED_BANK_SWITCH then makes it active with the table's new image, or with the factory's, and returns its check value; an
image whose check value is not the one given is refused, the inactive bank written and the active one as it was. -/
def Obligations.VectorCommandsComplete : Prop :=
  ∀ (s : State) (n : Nat) (c : Cmd) (env : Env), s.Sound → env.Quiet → s.Begins c → s.Clean →
    (s.Ready n 0x0501 c → programRange c = none → s.rangeFault (c.par 32 8 % 2 ^ 48) (8 * c.par 40 2) = none →
      s.rangeGate c [(localOf (c.par 32 8 % 2 ^ 48), 8 * c.par 40 2)] [] = none →
      ∀ r d x, s.loadBytes (localOf (c.par 32 8 % 2 ^ 48)) (8 * c.par 40 2) = (r, .ok d) →
      r.programFault c (programWords d) = none → r.tensor (c.par 44 4) = some x → (r.takeSaves c).isSome = true →
      ∃ t q, exec (.vectorProgram n env) s = .next t ∧ t.Ended n (Outcome.ok q)) ∧
    (s.Ready n 0x0502 c → ∀ i o, s.readable c (c.par 32 4) = some i → s.tensor (c.par 36 4) = some o → o.fmt = 0 →
      o.role ≠ 1 → o.shape = (i.rows, 4) → (s.takeSaves c).isSome = true →
      ∃ t q, exec (.rowStats n env) s = .next t ∧ t.Ended n (Outcome.ok q)) ∧
    (s.Ready n 0x0503 c → ∀ g u o, s.readable c (c.par 32 4) = some g → s.readable c (c.par 36 4) = some u →
      s.tensor (c.par 40 4) = some o → c.par 45 1 = o.fmt → o.role ≠ 1 → storable o = true → c.par 44 1 ≤ 2 →
      u.shape = g.shape → o.shape = g.shape → (s.takeSaves c).isSome = true →
      ∃ t q, exec (.gatedAct n env) s = .next t ∧ t.Ended n (Outcome.ok q)) ∧
    (s.Ready n 0x0504 c → c.par 40 1 ≤ 9 → bit (c.par 41 1) 0 = 1 ∨ nodeOf (c.par 32 8) = s.node →
      exec (.loadSeedTable n) s = .next (s.park n [15])) ∧
    (s.Ready n 0x0504 c → 9 < c.par 40 1 → exec (.loadSeedTable n) s = .next (s.finish n (Outcome.bad 0x0104))) ∧
    (s.Waits n c → c.opcode = 0x0504 → c.aux = [15] → s.bankUsers s.inactiveBank = 0 →
      (s.earlier c fun d => d.opcode = 0x0504) = false → bit (c.par 41 1) 0 = 1 → ∀ k,
      crc32 (imageBytes (factoryTable (c.par 40 1))) = k → (k ≠ c.par 44 4 →
        exec (.seedBankSwitch n) s = .next ((s.fillBank (c.par 40 1) (factoryTable (c.par 40 1))).finish n ⟨stCheckFail, 0x0105, resultOf 0 0 0 k 0 0⟩)) ∧
      (k = c.par 44 4 → ∃ t, exec (.seedBankSwitch n) s = .next t ∧ t.Ended n (Outcome.ok (resultOf 0 0 0 k 0 0)) ∧
        t.fld Reg.seedBankState 31 31 = 1 - s.fld Reg.seedBankState 31 31 ∧
        t.seeds (t.fld Reg.seedBankState 31 31) (c.par 40 1) = factorySeed (c.par 40 1) ∧
        (∀ j, j ≠ c.par 40 1 → t.seeds (t.fld Reg.seedBankState 31 31) j = s.seeds (s.fld Reg.seedBankState 31 31) j) ∧
        t.mem = s.mem ∧ t.tens = s.tens ∧ t.tally = s.tally)) ∧
    (s.Ready n 0x0505 c → c.par 40 8 < 2 ^ 46 → ∃ t, exec (.seedGenerators n) s = .next t ∧ t.Ended n (Outcome.ok 0) ∧
      (∀ k lane, lane < 64 → k < (s.imp.cur.map (·.cores)).getD 0 →
        t.genStart (64 * k + lane) = seedLane (c.par 32 8) (c.par 40 8) k lane) ∧ t.mem = s.mem ∧ t.tens = s.tens) ∧
    (s.Ready n 0x0505 c → 2 ^ 46 ≤ c.par 40 8 → exec (.seedGenerators n) s = .next (s.finish n (Outcome.bad 0x0106)))

/-! ### Attention and galleys -/

/-- The attention commands end OK (06 R160, R169, R176, R177), in quiet surroundings, with nothing poisoned or uncorrectable,
no error of their tables and space for the saves they write; RING_ATTENTION with the last of the steps it needs (N − 1, and
with PASS = 1 the sums of its own keys), whether it begins or has waited for them: with fewer it waits and writes no tensor.
RESULT gives the generation and the length of the bank held. A ring whose route is lost ends ABORTED, RING_LOST. -/
def Obligations.AttentionCommandsComplete : Prop :=
  ∀ (s : State) (n gen : Nat) (c : Cmd) (env : Env) (x : GTable) (b : Bank), s.Sound → env.Quiet → s.Clean →
    s.Begins c → s.attnFault c = none → (s.takeSaves c).isSome = true →
    s.heldBank c (c.par 36 2) = some (x, b, gen) →
    (∀ i, s.Ready n 0x0601 c ∧ i = .attnForward n env ∨ s.Ready n 0x0602 c ∧ i = .attnBackward n env → ∃ t code empty,
      exec i s = .next t ∧ t.Ended n (Outcome.ok (resultOf code 0 0 empty gen b.length))) ∧
    (s.Ready n 0x0607 c ∨ s.Waits n c ∧ c.opcode = 0x0607 ∧ c.aux.head? = some 22 → ∀ landed : List RingStep,
      (env.lost = false → c.ringNeeds ≤ (s.ringSteps n).length + landed.length →
        ∃ t code empty, exec (.ringAttention n env landed) s = .next t ∧
          t.Ended n (Outcome.ok (resultOf code 0 0 empty gen b.length))) ∧
      (env.lost = false → (s.ringSteps n).length + landed.length < c.ringNeeds →
        ∃ t, exec (.ringAttention n env landed) s = .next t ∧ t.tens = s.tens ∧
          (t.cmdOf n).map (fun d => (d.phase, d.aux.head?)) = some (.waiting, some 22) ∧
          t.ringSteps n = s.ringSteps n ++ landed) ∧
      (env.lost = true → 1 < c.ringSize →
        exec (.ringAttention n env landed) s = .next (s.finish n (Outcome.aborted 0x010E))))

/-- Edits of galleys work on the shadow (06 R150 to R152, R154, R157, R158). GALLEY_APPEND ends OK with the new length, the
galleys allocated and those copied, or NO_SPACE when the store runs out. GALLEY_EDIT creates a table, shares another's
published galleys or cuts the shadow, and every published bank stays. An edit that finds no shadow waits, and goes on once
there is one. Stated in quiet surroundings, with nothing poisoned or uncorrectable. -/
def Obligations.GalleyEditsWorkOnTheShadow : Prop :=
  ∀ (s : State) (n : Nat) (c : Cmd) (env : Env), env.Quiet → s.Clean → s.Begins c →
    (∀ k v tb, s.Ready n 0x0603 c → s.appendFault c = none → s.noShadow c = false → s.readable c (c.par 36 4) = some k →
      s.readable c (c.par 40 4) = some v → s.liveTable (c.par 32 2) = some tb →
      (s.appendTokens c tb k v = none → exec (.galleyAppend n env) s = .next (s.finish n (Outcome.noSpace 0x0107))) ∧
      ∀ e f, s.appendTokens c tb k v = some (e, f) → ∃ t, exec (.galleyAppend n env) s = .next t ∧
        t.Ended n (Outcome.ok (resultOf (f.code % 8) 0 0 (tb.second.length + k.rows) e.alloc e.copies)) ∧
        (t.gtable (c.par 32 2)).map (·.second.length) = some (tb.second.length + k.rows)) ∧
    (s.Ready n 0x0604 c → s.editFault c = none → s.noShadow c = false →
      (c.par 32 1 = 1 → ∃ t, exec (.galleyEdit n) s = .next t ∧ t.Ended n (Outcome.ok (resultOf 0 0 0 0 1 0)) ∧
        t.attn.tables = s.attn.tables ++ [⟨c.par 36 4, c.par 33 1, c.par 48 4, 1, ⟨0, []⟩, ⟨0, []⟩, false, false, false,
          [], []⟩] ∧ t.attn.galleys = s.attn.galleys ∧ t.mem = s.mem ∧ t.regs = s.regs ∧ t.tally = s.tally) ∧
      (∀ tb, s.gtable (c.par 36 4) = some tb → c.par 32 1 = 2 → s.shareLimit tb (s.forkBank c) = false → ∃ t freed,
        exec (.galleyEdit n) s = .next t ∧ t.Ended n (Outcome.ok (resultOf 0 0 0 (c.par 44 4) tb.generation freed)) ∧
        (t.gtable (c.par 36 4)).map (·.second) = some (s.forkBank c) ∧
        (t.attn.tables.map fun x => (x.number, x.published)) = s.attn.tables.map (fun x => (x.number, x.published)) ∧
        t.mem = s.mem ∧ t.tally = s.tally) ∧
      (∀ tb, s.gtable (c.par 36 4) = some tb → c.par 32 1 = 3 → ∃ t freed,
        exec (.galleyEdit n) s = .next t ∧ t.Ended n (Outcome.ok (resultOf 0 0 0 (c.par 44 4) tb.generation freed)) ∧
        (t.gtable (c.par 36 4)).map (·.second) = some (tb.second.cut (c.par 44 4)) ∧
        (t.attn.tables.map fun x => (x.number, x.published)) = s.attn.tables.map (fun x => (x.number, x.published)) ∧
        t.mem = s.mem ∧ t.tally = s.tally)) ∧
    (∀ i, s.Ready n 0x0603 c ∧ i = .galleyAppend n env ∨ s.Ready n 0x0604 c ∧ i = .galleyEdit n ∨
        s.Ready n 0x0606 c ∧ i = .verifyTree n env → s.noShadow c = true → exec i s = .next (s.park n [11])) ∧
    (∀ tb, s.Waits n c → c.aux = [11] → s.noShadow c = false → c.opcode = 0x0604 → s.editFault c = none →
      s.gtable (c.par 36 4) = some tb → c.par 32 1 = 3 → ∃ t freed, exec (.galleyWaiterResume n env) s = .next t ∧
        t.Ended n (Outcome.ok (resultOf 0 0 0 (c.par 44 4) tb.generation freed)) ∧
        (t.gtable (c.par 36 4)).map (·.second) = some (tb.second.cut (c.par 44 4)))

/-- Publication of tables (06 R152, R153). GALLEY_PUBLISH of one table with a changed shadow publishes the shadow under the
next generation, and with no walk on the bank replaced refreshes that bank at once; a walk in flight keeps the bank
replaced as it was, DRAINING. WALK_END, once a walk may have run to its end (log 52), ends one walk of its command on each table it is on. VERIFY_TREE whose accepted
candidates are in place already cuts every table of its range to their end and moves nothing (06 R173, R174). -/
def Obligations.PublicationKeepsWhatWalksRead : Prop :=
  ∀ (s : State) (n : Nat) (c : Cmd),
    (∀ tb, s.Begins c → s.Ready n 0x0605 c → s.attn.store.isSome = true → c.par 40 4 = 1 → c.par 36 4 < 65536 →
      s.liveTable (c.par 36 4) = some tb → tb.draining = false → tb.changed = true → ∃ t,
      exec (.galleyPublish n) s = .next t ∧
      t.Ended n (Outcome.ok (resultOf 0 0 0 ((tb.generation + 1) % 2 ^ 32) 1 0)) ∧
      t.gtable (c.par 36 4) = some { tb with
        generation := (tb.generation + 1) % 2 ^ 32, published := tb.second,
        second := if tb.walks = [] then tb.second else tb.published, draining := ! tb.walks.isEmpty, changed := false,
        walks := [], drainWalks := tb.walks } ∧
      t.mem = s.mem ∧ t.tally = s.tally) ∧
    (s.cmdOf n = some c → s.walkMayEnd c = true → (s.attn.tables.map (·.number)).Nodup →
      (∀ x ∈ s.attn.tables, n ∉ x.drainWalks) →
      exec (.walkEnd n) s = .next { s with attn := { s.attn with tables := s.attn.tables.map fun x =>
        if n ∈ x.walks then { x with walks := x.walks.erase n } else x } }) ∧
    (∀ k base env, env.Quiet → s.Clean → s.Begins c → s.Ready n 0x0606 c → s.treeFault c = none → s.noShadow c = false →
      bit (c.par 53 1) 0 = 0 →
      acceptPath (s.treeMasks (c.par 40 4) (c.par 52 1)) ((List.range (c.par 52 1)).map fun i =>
          wordAt (s.named (c.par 44 4)) i 0) ((List.range (c.par 52 1 + 1)).map fun i => wordAt (s.named (c.par 48 4)) i 0)
        (c.par 52 1) none [] = List.range k →
      (s.gtable (c.par 32 4)).map (·.second.length) = some (base + c.par 52 1) → ∃ t, exec (.verifyTree n env) s = .next t ∧
      t.Ended n (Outcome.ok (resultOf 0 0 0 k (wordAt (s.named (c.par 48 4)) k 0) (base + k))) ∧
      (∀ i ∈ shadowTables c, (t.gtable i).map (·.second.length) = some (base + k)) ∧ t.mem = s.mem ∧ t.tally = s.tally)

/-! ### Backward passes, residency and update -/

/-- The backward commands (07 R188 to R191, R194, R195), in quiet surroundings, with nothing poisoned or
uncorrectable, in their turn. BACKWARD_INPUT ends OK with
the edition it read, or as its dispatch found. BACKWARD_WEIGHT with DEFER joins the deferral queue; else, and when its
deferred passes run, each element of the weight gradient takes its contribution, every other tensor stays, and it ends OK.
A reader of a weight gradient, or a writer of a save, that waited goes back to the start of its work. -/
def Obligations.BackwardCommandsComplete : Prop :=
  ∀ (s : State) (n : Nat) (c : Cmd) (env : Env), s.Sound → env.Quiet → s.Clean →
    (∀ e l dy w o, s.Ready n 0x0701 c → s.Begins c → s.accTurn c = true → c.latch.extra = 0 :: e :: l →
      s.readable c (c.par 32 4) = some dy → s.tensor (c.par 36 4) = some w →
      s.tensor (if bit (c.par 54 1) 1 = 1 then c.par 48 4 else c.par 44 4) = some o → (s.takeSaves c).isSome = true →
      ∃ t code, exec (.backwardInput n env) s = .next t ∧ t.Ended n (Outcome.ok (resultOf code 0 0 e 0 0))) ∧
    (∀ d, s.Ready n 0x0701 c → s.Begins c → s.accTurn c = true → c.latch.extra = [1, d] →
      exec (.backwardInput n env) s = .next (s.finish n (Outcome.bad d))) ∧
    (s.Ready n 0x0702 c → (∀ d, c.latch.extra ≠ [1, d]) → bit (c.par 50 1) 0 = 1 →
      exec (.backwardWeight n env) s = .next (s.park n [13])) ∧
    (∀ i e count stale dy x w g, c.opcode = 0x0702 →
      (i = .backwardWeight n env ∧ s.Ready n 0x0702 c ∧ bit (c.par 50 1) 0 = 0 ∨
        i = .deferredPass env ∧ s.firstDeferred = some c ∧ s.Waits n c ∧ s.passReady = false) →
      s.Begins c → s.gradTurn c = true → c.latch.extra = [0, e, count, stale] →
      s.readable c (c.par 32 4) = some dy → s.readable c (c.par 36 4) = some x → s.tensor (c.par 40 4) = some w →
      s.tensor (c.par 44 4) = some g → ∃ t code, exec i s = .next t ∧
      t.Ended n (Outcome.ok (resultOf code 0 0 e count (ofBool g.spilled + 2 * stale))) ∧
      (∃ v ∈ t.tens, v.handle = g.handle ∧ ∀ k < w.rows, ∀ j < w.width, codeAt v.data (k * w.width + j) =
        fp32.encode (gradElement (ArithMode.ofWord c.latch.mode) (s.kParts c) (decide (c.par 52 2 % 4096 = 0)) x dy (s.operand c x)
          (s.operand c dy) g.data w.width k j).1 % 2 ^ 32) ∧
      ∀ v ∈ s.tens, v.handle ≠ g.handle → v ∈ t.tens) ∧
    (s.Waits n c → c.aux = [7] → functionOf c.opcode < 10 → s.holdReason c ≠ some 7 →
      exec (.wgradReaderResume n) s = .next (s.updCmd n fun c => { c with phase := .dispatched, aux := [] })) ∧
    (s.Waits n c → c.aux = [6] → functionOf c.opcode < 10 → s.holdReason c ≠ some 6 →
      exec (.saveWriteResume n) s = .next (s.updCmd n fun c => { c with phase := .dispatched, aux := [] }))

/-- Residency (07 R200, R201), in quiet surroundings, with nothing poisoned or uncorrectable. OFFLOAD to this node writes the image of a save to pages and ends OK
with its length and CRC-64, or NO_SPACE; to another node it waits for the writes, or ends ABORTED without a route. PREFETCH
of an image of this node checks each block's CRC, puts the data back and ends OK, or ends CHECK_FAIL. -/
def Obligations.SavesLeaveAndReturn : Prop :=
  ∀ (s : State) (n : Nat) (c : Cmd) (env : Env) (t : Tensor), env.Quiet → s.Clean → s.Begins c →
    s.tensor (c.par 32 4) = some t →
    (s.Ready n 0x0703 c → s.offloadFault c = none →
      (bit (c.par 38 1) 0 = 0 → pagesFor (imageSize (s.saveData t).length) ≤ s.freePages → ∃ u,
        exec (.offload n env) s = .next u ∧ u.Ended n (Outcome.ok (saveResult (s.saveData t))) ∧
        ∃ v ∈ u.tens, v.handle = t.handle ∧ v.save = .offloading ∧ v.data = t.data) ∧
      (bit (c.par 38 1) 0 = 0 → s.freePages < pagesFor (imageSize (s.saveData t).length) →
        exec (.offload n env) s = .next (s.finish n (Outcome.noSpace 0x0111))) ∧
      (bit (c.par 38 1) 0 = 1 → env.lost = true → ∃ u, exec (.offload n env) s = .next u ∧
        u.Ended n (Outcome.aborted 0x010E)) ∧
      (bit (c.par 38 1) 0 = 1 → env.lost = false → ∃ u, exec (.offload n env) s = .next u ∧
        (u.cmdOf n).map (fun d => (d.phase, d.aux)) = some (.waiting, [1, saveResult (s.saveData t)]))) ∧
    (s.Ready n 0x0704 c → ∀ i, s.prefetchFault c = none → t.image = some i → i.remote = false → ∀ k b, k = t.byteLen + ((s.scaleTensor t).map Tensor.byteLen).getD 0 →
      b = s.getPaged i.pages i.size →
      (imageOk k b = false → ∃ u, exec (.prefetch n env) s = .next u ∧ u.Ended n ⟨stCheckFail, 0x010D, 0⟩) ∧
      (imageOk k b = true → ∃ u, exec (.prefetch n env) s = .next u ∧ u.Ended n (Outcome.ok (saveResult (b.take k))) ∧
        (s.scaleTensor t = none → ∃ v ∈ u.tens, v.handle = t.handle ∧ v.save = .prefetching ∧
          v.data = setTensorBytes t (b.take t.byteLen) 0 [])))

/-- The update of a parameter (08 R217 to R222) by the only member of its D group, in quiet surroundings, with
nothing poisoned or uncorrectable: it ends OK with its report; with SKIP and a gradient that is not finite it ends OK with SKIPPED, counted; a check it fails ends it. A member
of a larger group sends its verdict and waits; a failing verdict ends it, and so does its time limit. -/
def Obligations.UpdatesAwaitTheirVerdicts : Prop :=
  ∀ (s : State) (n : Nat) (c : Cmd) (env : Env) (w g : Tensor), s.Sound → env.Quiet → s.Clean → s.Begins c →
    (s.Ready n 0x0706 c → s.dGroup = (1, 0) → s.ownVerdict c = none → s.verdictsOn n = [] →
      s.tensor (c.par 32 4) = some w → s.tensor (c.par 36 4) = some g →
      ((c.uSkip && s.gradBad g) = false → ∃ t, exec (.update n env) s = .next t ∧
        t.Ended n (Outcome.ok (s.runRule c w g).2)) ∧
      ((c.uSkip && s.gradBad g) = true → ∃ t, exec (.update n env) s = .next t ∧
        t.Ended n (Outcome.ok (updateReport c 0 (c.par 44 1) 0 0 w.currentEdition true false false true 0)) ∧
        t.fld Reg.updateEvents 15 0 = min (s.fld Reg.updateEvents 15 0 + 1) (2 ^ 16 - 1) ∧
        (∀ o, o ≠ Reg.updateEvents → t.reg o = s.reg o) ∧ t.tens = s.tens ∧ t.mem = s.mem)) ∧
    (∀ o, s.Ready n 0x0706 c → s.ownVerdict c = some o → ∃ t, exec (.update n env) s = .next t ∧ t.Ended n o ∧
      t.tens = s.tens ∧ t.mem = s.mem) ∧
    (∀ r, s.Ready n 0x0706 c → s.ownVerdict c = none → s.verdictsOn n = [] → r ∈ s.dPeers → ∃ t,
      exec (.update n env) s = .next t ∧ t.cmdOf n = some { c with phase := .waiting, aux := [16] } ∧
      t.coll.out = s.coll.out ++ s.dPeers.map (fun r => (r, 1, CollMsg.verdict stOK 0)) ∧ t.tens = s.tens) ∧
    (∀ rank status, s.Waits n c → c.opcode = 0x0706 → c.aux = [16] →
      (∀ v ∈ s.verdictsOn n, v.status = stOK) →
      (status ≠ stOK → ∃ t, exec (.verdict n rank status env) s = .next t ∧
        t.Ended n ⟨status, if status = stAborted then 0x0187 else 0x0185, 0⟩ ∧ t.tens = s.tens) ∧
      (∀ r, status = stOK → r ∈ s.dPeers → r ≠ rank → (∀ v ∈ s.verdictsOn n, v.rank ≠ r) → ∃ t,
        exec (.verdict n rank status env) s = .next t ∧ t.cmdOf n = some c ∧
        t.verdictsOn n = s.verdictsOn n ++ [⟨n, rank, stOK⟩] ∧ t.tens = s.tens)) ∧
    (s.Waits n c → c.aux = [16] → s.reg (Reg.ringTimeout c.ring) ≠ 0 → ∃ t, exec (.peerLimit n) s = .next t ∧
      t.Ended n ⟨stTimeout, 0x0186, 0⟩ ∧ t.coll.out = s.coll.out ++ s.dPeers.map (fun r =>
        (r, 1, CollMsg.verdict stTimeout 0x0186)) ∧ t.tens = s.tens ∧ t.mem = s.mem)

/-- SET_STEP_SIZE (08 R219) ends OK, or BAD_PARAM for a slot above 15; at its completion the slot's values are written and
its stamp advances by 1, from 0xFFFF_FFFF to 1. RETIRE_EDITION (08 R215) gives back or takes holds of an edition. -/
def Obligations.StepSizesAndEditionHolds : Prop :=
  ∀ (s : State) (n : Nat) (c : Cmd), s.Sound →
    (s.Begins c → s.Ready n 0x0705 c → exec (.setStepSize n) s =
      .next (s.finish n (if c.par 32 1 ≤ 15 then Outcome.ok 0 else Outcome.bad 0x0180))) ∧
    (c.status = stOK → c.par 32 1 ≤ 15 →
      (s.stepSizeCompletes c).reg (Reg.stepStamp (c.par 32 1)) =
        (if s.reg (Reg.stepStamp (c.par 32 1)) = 0xFFFFFFFF then 1 else s.reg (Reg.stepStamp (c.par 32 1)) + 1) % 2 ^ 64 ∧
      (s.stepSizeCompletes c).reg (Reg.stepLr (c.par 32 1)) = c.par 36 4 + c.par 40 4 * 2 ^ 32 ∧
      (s.stepSizeCompletes c).reg (Reg.stepBc (c.par 32 1)) = c.par 44 4 + c.par 48 4 * 2 ^ 32) ∧
    (∀ w x, s.Begins c → s.Ready n 0x0707 c → s.tensor (c.par 32 4) = some w → w.role = 1 →
      w.edition (if c.par 36 4 = noHandle then w.currentEdition else c.par 36 4) = some x →
      (bit (c.par 42 1) 0 = 0 → 0 < c.par 40 2 → c.par 40 2 ≤ x.holds → ∃ t gone, exec (.retireEdition n) s = .next t ∧
        t.Ended n (Outcome.ok (resultOf 0 0 0 (x.holds - c.par 40 2) gone 0)) ∧ t.mem = s.mem) ∧
      (bit (c.par 42 1) 0 = 1 → 0 < c.par 40 2 → x.holds + c.par 40 2 ≤ 65535 → ∃ t gone,
        exec (.retireEdition n) s = .next t ∧ t.Ended n (Outcome.ok (resultOf 0 0 0 (x.holds + c.par 40 2) gone 0)) ∧
        t.mem = s.mem) ∧
      (c.par 40 2 = 0 ∨ bit (c.par 42 1) 0 = 0 ∧ x.holds < c.par 40 2 →
        exec (.retireEdition n) s = .next (s.finish n (Outcome.bad 0x0188))))

/-! ### Collectives -/

/-- The six collectives at their start (12 R314, R317, R329): as the dispatch found, a descriptor is refused or a step is
aborted; without a free slot, a free share or its turn a collective waits; else, in quiet surroundings, with nothing poisoned or
uncorrectable and with chunks to await, it takes the slot and its share, reads IN, and waits for exactly those chunks. COLLECTIVE_START does so for one that
waited. -/
def Obligations.CollectivesStartOrWait : Prop :=
  ∀ (s : State) (n : Nat) (c : Cmd) (env : Env) (op : Nat) (i : Instr),
    (op, i) ∈ [(0x0801, Instr.allReduce n env), (0x0802, .reduceScatter n env), (0x0803, .allGather n env),
      (0x0804, .broadcast n env), (0x0805, .allToAll n env), (0x0806, .permute n env)] →
    (∀ d, s.Ready n op c → s.Begins c → c.latch.extra = [1, d] →
      exec i s = .next (s.finish n (Outcome.bad d))) ∧
    (s.Ready n op c → s.Begins c → c.latch.extra = [2] →
      exec i s = .next (s.finish n (Outcome.aborted 0x010A))) ∧
    (∀ x, s.Ready n op c → s.Begins c → c.latch.extra = [0] → s.collOf n = some x →
      s.freeSlot = none ∨ s.storeFree < collShare c ∨ s.earlierWaits c = true → exec i s = .next (s.park n [21])) ∧
    (∀ x k u a b, (s.Ready n op c ∧ s.Begins c ∧ c.latch.extra = [0] ∧ b = i ∨
        s.Waits n c ∧ c.aux = [21] ∧ b = .collectiveStart n env) → env.Quiet → s.Clean → s.collOf n = some x →
      s.freeSlot = some k → collShare c ≤ s.storeFree → s.earlierWaits c = false → s.takeSaves c = some u →
      u.tensor (x.par 32 4) = some a → { x with input := tensorBytes a (u.operand c a).1 0 a.byteLen }.awaits ≠ [] →
      ∃ t y, exec b s = .next t ∧ t.collOf n = some y ∧ y.slot = some k ∧ y.share = collShare c ∧
        y.input = tensorBytes a (u.operand c a).1 0 a.byteLen ∧ y.expect = y.awaits ∧
        t.cmdOf n = some { c with phase := .waiting, aux := [22] } ∧ t.mem = u.mem ∧ t.tally = s.tally)

/-- Chunks and commit (12 R315, R321, R323, R324). A chunk that fails its check is asked for again from its holder; one of
data that passes, and goes no further, is reported checked to its sender and written to OUT, with no chunk held for a later
round. RE_REQUEST re-sends the retained copy in the best-effort class, or, when it no longer meets the CRC kept of it, fails
the collective. DONE is held at rank 0. COMMIT releases the collective, clears its marks and adds to COMMIT_TALLY. -/
def Obligations.ChunksAreCheckedAndCommitted : Prop :=
  (∀ (s : State) (x : Coll) (m d : List Byte) (dest : Nat) (k j : ChunkKey) (o : Tensor), s.Sound →
    s.collBySeq (fieldAt m 15 1) (fieldAt m 0 4) = some x → s.collOf x.id = some x → fieldAt m 4 4 = x.descCheck →
    x.slot.isSome = true → k = ⟨fieldAt m 14 1, fieldAt m 12 2, fieldAt m 8 4, if x.addressed then dest else 0⟩ →
    (x.opcode = 0x0806 → dest = x.rank → k.shard = x.par 54 2) → x.arriving (fieldAt m 14 1) k = some j →
    fieldAt m 16 4 = x.len j → d = (m.drop 32).take (x.len j) → d.length = x.len j →
    (crc64 d ≠ fieldAt m (32 + x.len j) 8 → fieldAt m 14 1 ≠ 2 → ∃ t, exec (.chunk (.coll dest m)) s = .next t ∧
      t.coll.out = s.coll.out ++ [(x.holder j, x.axis, .reRequest x.axis x.seq j)] ∧
      t.collOf x.id = some { x with asked := x.asked ++ [j], reRequests := x.reRequests + 1 } ∧
      t.fld Reg.collEvents 47 32 = min (s.fld Reg.collEvents 47 32 + 1) (2 ^ 16 - 1) ∧
      t.fld Reg.collEvents 63 48 = min (s.fld Reg.collEvents 63 48 + 1) (2 ^ 16 - 1) ∧ t.tens = s.tens ∧ t.mem = s.mem) ∧
    (crc64 d = fieldAt m (32 + x.len j) 8 → j.phase ≠ 0 → j ∈ x.writesOut → s.declared (x.par 36 4) = some o →
      (if x.addressed then j.dest = x.rank else x.opcode = 0x0802 ∨ x.next j = x.origin j) → x.expect.erase j ≠ [] → x.queued = [] →
      ∃ t, exec (.chunk (.coll dest m)) s = .next t ∧
      t.coll.out = s.coll.out ++ [(x.prev j, x.axis, .checked x.axis x.seq j)] ∧
      t.tens = s.tens.map (fun v => if v.handle = x.par 36 4 then
        { v with data := setTensorBytes o d (x.outOffset j) v.data } else v) ∧ t.mem = s.mem ∧ t.tally = s.tally)) ∧
  (∀ (s : State) (x : Coll) (axis seq rank : Nat) (d : List Byte) (k : ChunkKey) (env : Env), env.Quiet → s.Clean →
    s.collBySeq axis seq = some x → s.retainedCopy x k = some d → x.slot.isSome = true → k.phase ≠ 3 →
    ((∀ r ∈ x.crcs, r.1 = k → r.2 = crc64 d) →
      exec (.reRequest axis seq k.phase k.shard k.chunk k.dest rank false env) s =
        .next (s.collSendVia none 2 axis rank (.chunk k.dest (x.message 2 k d)))) ∧
    ((∃ r ∈ x.crcs, r.1 = k ∧ r.2 ≠ crc64 d) → exec (.reRequest axis seq k.phase k.shard k.chunk k.dest rank false env) s =
      .next (s.collFail x 0x0107 true))) ∧
  (∀ (s : State) (axis seq rank flags g : Nat), s.axis axis = some (g, 0) → rank < g → s.collBySeq axis seq = none →
    (∀ e ∈ s.coll.dones, ¬ (e.axis = axis ∧ e.seq = seq ∧ e.rank = rank)) →
    exec (.done axis seq rank flags) s =
      .next { s with coll := { s.coll with dones := s.coll.dones ++ [⟨axis, seq, rank, flags % 8⟩] } }) ∧
  ∀ (s : State) (x : Coll) (axis seq flags : Nat), s.Sound → s.collBySeq axis seq = some x →
    ∃ t, exec (.commit axis seq flags) s = .next t ∧ t.coll.colls = s.coll.colls.filter (fun y => y.id ≠ x.id) ∧
      t.tens = s.tens.map (fun v => { v with marks := v.marks.filter (· ≠ x.id) }) ∧ t.mem = s.mem ∧
      (bit (x.par 43 1) 0 = 1 → t.tallyVal (x.par 44 2) = (s.tallyVal (x.par 44 2) + 1) % 2 ^ 64) ∧
      (bit (x.par 43 1) 0 = 0 → t.tally = s.tally ∧ t.fld Reg.collLastFlags 2 0 = flags % 8 ∧
        t.fld Reg.collCommits 63 0 = min (s.fld Reg.collCommits 63 0 + 1) (2 ^ 64 - 1))

/-- Failure (12 R327 to R329). A collective that another member fails, or whose peers are silent past a limit that is not 0,
ends ABORTED with the DETAIL, and its step is aborted: no collective of the step is left. COLL_ABORT aborts the step it
names. A command that waited for uncommitted marks ends ABORTED when a collective it waited for has failed, an UPDATE with a
failing verdict to its peers, a collective by failing, and goes back to the start of its work when its marks have cleared. Memory and tensors stay. -/
def Obligations.AFailedCollectiveEndsItsStep : Prop :=
  (∀ (s : State) (x : Coll) (c : Cmd) (i : Instr) (d : Nat), s.cmdOf x.id = some c → c.phase.unfinished = true →
    x.localDone = false → (∀ w ∈ s.tally.waiters, w.owner ≠ .command x.id) →
    ((∃ axis seq detail, i = .fail axis seq detail ∧ s.collBySeq axis seq = some x ∧ d = detail % 65536) ∨
      i = .peerSilent x.id ∧ s.collOf x.id = some x ∧ x.slot.isSome = true ∧ s.fld Reg.collTimeout 31 0 ≠ 0 ∧
        d = 0x0109) →
    ∃ t, exec i s = .next t ∧ t.Ended x.id (Outcome.aborted d) ∧ x.id ∈ t.coll.failed ∧
      (∀ y ∈ t.coll.colls, y.id ≠ x.id ∧ y.par 56 4 ≠ x.par 56 4) ∧ t.coll.aborted = some (x.par 56 4) ∧
      t.mem = s.mem ∧ t.tens = s.tens) ∧
  (∀ (s : State) (v : Nat), s.Up → ∃ t, exec (.collAbort v) s = .next t ∧ t.coll.aborted = some (v % 2 ^ 32) ∧
    (∀ y ∈ t.coll.colls, y.par 56 4 ≠ v % 2 ^ 32) ∧ t.mem = s.mem ∧ t.tens = s.tens) ∧
  ∀ (s : State) (n : Nat) (c : Cmd), s.Waits n c →
    (c.aux = [5] → (∃ m ∈ s.readMarks c, m ∈ s.coll.failed) →
      (c.opcode = 0x0706 → exec (.markWaitEnd n) s =
        .next ((s.toPeers (.verdict stAborted 0x0187)).finish n (Outcome.aborted 0x0187))) ∧
      (c.opcode ≠ 0x0706 → s.collOf n = none → exec (.markWaitEnd n) s = .next (s.finish n (Outcome.aborted 0))) ∧
      (∀ x, c.opcode ≠ 0x0706 → s.collOf n = some x → exec (.markWaitEnd n) s = .next (s.collFail x 0 true))) ∧
    (∀ r, c.aux = [r] → r = 5 ∨ r = 20 → (∀ m ∈ s.readMarks c, m ∉ s.coll.failed) → functionOf c.opcode < 10 →
      s.holdReason c ≠ some r →
      exec (.markWaitEnd n) s = .next (s.updCmd n fun c => { c with phase := .dispatched, aux := [] }))

/-! ### The Feeder -/

/-- The Feeder's commands (13 R336, R341 to R344, R346, R351) with no error of their tables and no earlier command of their
stream in the way. FEED_OPEN opens the stream with its entry count; FEED_EPOCH sets its order and its place; FEED_ROWS
packs its rows and ends, or waits for the sample that heads the window; FEED_SKIP_LOG copies the oldest entries and, with
CONSUME, removes them; FEED_CLOSE closes the stream. -/
def Obligations.FeederCommandsComplete : Prop :=
  ∀ (s : State) (n k : Nat) (c : Cmd), s.Sound → s.Begins c → c.par 32 1 = k →
    (∀ gib, s.Ready n 0x0901 c → k < 4 → s.stream k = none →
      c.par 35 1 = 0 ∨ (c.par 35 1 = 1 ∨ c.par 35 1 = 3) ∧ c.par 52 2 ≠ 0 ∧ c.par 54 2 ≠ 0 →
      c.par 36 8 % 32 = 0 → c.par 44 4 ≠ 0 → gib = (if bit (c.par 33 1) 0 = 1 then c.par 34 1 else 0) →
      (bit (c.par 33 1) 0 = 1 → 0 < gib ∧ gib ≤ 64) → pagesFor (gib * 2 ^ 30) ≤ s.freePages →
      ∃ t x, exec (.feedOpen n) s = .next t ∧ t.Ended n (Outcome.ok (resultWords 0 (c.par 44 4) 0 0)) ∧
        t.stream k = some x ∧ x.manifest = c.par 36 8 ∧ x.started = false ∧ x.nextPos = 0 ∧ x.cacheGib = gib ∧
        t.reg (Reg.feedEntries k) = c.par 44 4 ∧ t.mem.bytes = s.mem.bytes ∧ t.tens = s.tens ∧ t.tally = s.tally) ∧
    (∀ x, s.Ready n 0x0902 c → (s.feedBusy c fun d => d.opcode = 0x0903) = false → s.stream k = some x →
      0 < c.par 48 4 → c.par 48 4 ≤ 65536 → c.par 52 4 < c.par 48 4 → c.par 56 4 % c.par 48 4 = c.par 52 4 →
      c.par 56 4 < c.latch.extra.getD 0 0 → c.par 33 1 ≤ 1 →
      ∃ t y, exec (.feedEpoch n) s = .next t ∧
        t.Ended n (Outcome.ok (resultWords 0 (c.latch.extra.getD 0 0) 0 0)) ∧ t.stream k = some y ∧ y.started = true ∧
        y.shuffled = decide (c.par 33 1 = 1) ∧ y.epoch = c.par 36 4 ∧ y.seed = c.par 40 8 ∧ y.shardCount = c.par 48 4 ∧
        y.shardIndex = c.par 52 4 ∧ y.nextPos = c.par 56 4 ∧ y.nextOffset = c.par 60 3 ∧ y.decoded = [] ∧
        y.log = x.log ∧ y.cache = x.cache ∧ t.mem = s.mem ∧ t.tens = s.tens) ∧
    (∀ x d, s.Ready n 0x0903 c → (s.feedBusy c fun d => d.opcode = 0x0903 ∨ d.opcode = 0x0902) = false →
      s.rowsFault c = none → s.noWorkers = false → s.stream k = some x → d = { c with phase := .waiting, aux := [19] } →
      (∀ q, x.progress d = .needs q → ∃ t, exec (.feedRows n []) s = .next t ∧ t.cmdOf n = some d ∧ t.tens = s.tens) ∧
      ∀ p pos off fin, x.progress d = .done p pos off fin → ∃ t, exec (.feedRows n []) s = .next t ∧
        t.Ended n (Outcome.ok (resultWords (c.par 48 4) p.skips.length pos
          (off % 2 ^ 24 + ofBool fin * 2 ^ 24 + ofBool p.late * 2 ^ 25)))) ∧
    (∀ x u l left, s.Ready n 0x0904 c → s.stream k = some x → c.par 40 8 % 16 = 0 → 0 < c.par 48 4 → c.par 48 4 ≤ 4096 →
      nodeOf (c.par 40 8) = s.node → l = x.log.take (c.par 48 4) →
      left = (if bit (c.par 33 1) 0 = 1 then x.log.drop l.length else x.log) →
      s.rangeFault (c.par 40 8) (16 * l.length) = none →
      s.rangeGate c [] [(localOf (c.par 40 8), 16 * l.length)] = none →
      s.saveBytes (localOf (c.par 40 8)) (l.map fun e => leBytes 4 e.1 ++ leBytes 4 e.2.1 ++ leBytes 4 e.2.2.1 ++
        leBytes 4 e.2.2.2).flatten = (u, none) → c.aux = [] →
      ∃ t y, exec (.feedSkipLog n) s = .next t ∧ t.Ended n (Outcome.ok (resultWords l.length left.length 0 0)) ∧
        t.stream k = some y ∧ y.log = left ∧ y.nextPos = x.nextPos) ∧
    (∀ x, s.Ready n 0x0905 c → (s.feedBusy c fun _ => true) = false → s.stream k = some x →
      ∃ t, exec (.feedClose n) s = .next t ∧ t.Ended n (Outcome.ok (resultWords 0 (x.cacheGib * 2 ^ 20) 0 0)) ∧
        t.stream k = none ∧ t.mem.bytes = s.mem.bytes ∧ t.tens = s.tens)

/-- The workers of the Feeder (13 R348, R350). DECODE_DONE adds the sample at a position of the member's order within the
window, when no memory it reads stops it; DEADLINE skips the one at the head; a worker's fault sets its bit and is counted; a write of FEED_WORKERS bypasses
workers, and writes no other register. -/
def Obligations.FeederWorkersDecode : Prop :=
  (∀ (s : State) (k pos : Nat) (entry bytes : List Byte) (env : Env) (x : FeedStream), env.Quiet → s.Clean →
    s.stream k = some x → x.started = true → s.noWorkers = false → s.feedRunning x.number = none →
    (∀ a m, s.feedStalled a m = false) → (∀ e ∈ x.decoded, e.1 ≠ pos) → x.nextPos ≤ pos → pos - x.nextPos ≤ 4096 * x.shardCount →
    pos % x.shardCount = x.shardIndex →
    pos < (if x.shuffled then x.entries else s.fld (Reg.feedEntries x.number) 31 0) →
    ∃ t d, exec (.decodeDone k pos entry bytes env) s = .next t ∧
      t.stream k = some { x with decoded := x.decoded ++ [(pos, d)] } ∧ t.mem = s.mem ∧ t.tens = s.tens ∧ t.cmd = s.cmd ∧
      t.tally = s.tally) ∧
  (∀ (s : State) (k : Nat) (x : FeedStream), s.stream k = some x → x.started = true → x.deadline = true →
    s.feedRunning x.number = none → (∀ e ∈ x.decoded, e.1 ≠ x.nextPos) →
    x.nextPos < (if x.shuffled then x.entries else s.fld (Reg.feedEntries x.number) 31 0) →
    exec (.deadline k) s = .next (s.updStream k fun y => { y with decoded := y.decoded ++ [(x.nextPos, .skip 0x0D)] })) ∧
  (∀ (s : State) (g w : Nat), s.Sound → g < 4 → w < 64 → ∃ t, exec (.workerFault g w) s = .next t ∧
    (∀ i < 64, bit (t.reg (Reg.feedFaults g)) i = if i = w then 1 else bit (s.reg (Reg.feedFaults g)) i) ∧
    t.fld Reg.feedEvents 15 0 = min (s.fld Reg.feedEvents 15 0 + 1) (2 ^ 16 - 1) ∧
    (∀ o, o ≠ Reg.feedFaults g → o ≠ Reg.feedEvents → t.reg o = s.reg o) ∧ t.mem = s.mem ∧ t.tens = s.tens) ∧
  ∀ (s : State) (g v : Nat), s.Up → s.Sound → g < 4 → ∃ t, exec (.workerBypass g v) s = .next t ∧
    t.reg (Reg.feedWorkers g) = v % 2 ^ 64 ∧ (∀ o, o ≠ Reg.feedWorkers g → t.reg o = s.reg o) ∧ t.mem = s.mem ∧
    t.tens = s.tens

/-! ### Convolution and the Margin engines -/

/-- CONV and CONV_GROUPED (14 R354 to R357, R363), in quiet surroundings, with nothing poisoned or uncorrectable, no error of
their table and space for saves:
into an accumulator tensor every element of a pixel's row is the reduction over its taps, every element of a later row is
+0, and the command ends OK with the output's height and width. GLOBAL_AVG_POOL ends OK. MARGIN_LAYER runs on the engines
that were free at its dispatch and ends OK with their groves; one that faults meanwhile ends it ABORTED and is recorded.
MARGIN_BYPASS writes the bypass bits alone. -/
def Obligations.ConvolutionCommandsComplete : Prop :=
  ∀ (s u : State) (n : Nat) (c : Cmd) (env : Env) (x w y : Tensor), s.Sound → env.Quiet → s.Clean →
    s.tensor (c.par 32 4) = some x → s.tensor (c.par 36 4) = some w → s.tensor (c.par 40 4) = some y →
    (s.Begins c → s.takeSaves c = some u → s.convFault c = none →
      (∀ i, (s.Ready n 0x0A01 c ∧ i = .conv n env ∨ s.Ready n 0x0A02 c ∧ i = .convGrouped n env) → ∃ t f,
        exec i s = .next t ∧ t.Ended n (Outcome.ok (convResult c f 0)) ∧
        (c.cAccOut = true → ∃ v ∈ t.tens, v.handle = y.handle ∧ ∀ r < y.rows, ∀ co < y.width,
          codeAt v.data (r * y.width + co) = if r < (convShape c).images * ((convShape c).hout * (convShape c).wout) then
            fp32.encode (dotAbsentParts (ArithMode.ofWord c.latch.mode) x.fmt w.fmt (u.kParts c)
              (convTerms (convShape c) x w (u.operand c x) (u.operand c w) (r / ((convShape c).hout * (convShape c).wout))
                (r % ((convShape c).hout * (convShape c).wout) / (convShape c).wout) (r % (convShape c).wout) co)
              (accInit c.cAccIn y.data (r * y.width + co))).1 % 2 ^ 32
          else 0)) ∧
      (s.Ready n 0x0A04 c → ∀ engines,
        engines = (u.shareGroves ((convShape c).images * (convShape c).hout * (convShape c).wout)).filter (fun g =>
          bit (c.latch.extra.getD 0 0) g = 0 ∧ bit (c.latch.extra.getD 0 0) (8 + g) = 0) →
        (∃ t f, exec (.marginLayer n env none) s = .next t ∧
          t.Ended n (Outcome.ok (convResult c f (engines.foldl (fun a g => a + 2 ^ g) 0)))) ∧
        (∀ g ∈ engines, g < 4 → ∃ t f, exec (.marginLayer n env (some g)) s = .next t ∧
          t.Ended n ⟨stAborted, 0x0107, convResult c f (engines.foldl (fun a g => a + 2 ^ g) 0)⟩ ∧
          t.fld Reg.marginState (8 + g) (8 + g) = 1))) ∧
    (s.Begins c → s.Ready n 0x0A03 c → s.poolFault c = none → ∃ t f,
      exec (.globalAvgPool n env) s = .next t ∧ t.Ended n (Outcome.ok (f % 8))) ∧
    (∀ v, s.Up → ∃ t, exec (.marginBypass v) s = .next t ∧ t.fld Reg.marginState 3 0 = v % 16 ∧
      t.fld Reg.marginState 63 4 = s.fld Reg.marginState 63 4 ∧ (∀ o, o ≠ Reg.marginState → t.reg o = s.reg o) ∧
      t.mem = s.mem ∧ t.tens = s.tens)

/-! ### Proofs and counters -/

/-- Triggers of a proof (18 R422 to R425). PROOF_NOW waits for its firing; PROOF_AT_TIME waits for its time, one at a time
and only with PTP enabled. The trigger of a PROOF_NOW makes a proof, numbered and stamped with the device time, and ends
the command with the number; with an image held it is missed, counted, and ends ABORTED; the trigger of a PROOF_AT_TIME does
so once PTP_NOW has reached its time, and nothing before. An edge of the pin is a trigger
with IN_EN set, but for the device's own pull and a time after it. PROOF_RELEASE releases the image. -/
def Obligations.TriggersMakeProofs : Prop :=
  ∀ (s : State) (n : Nat) (c : Cmd), s.Sound →
    (s.Ready n 0x0C01 c → exec (.proofNow n) s = .next (s.park n [23])) ∧
    (s.Ready n 0x0C02 c → exec (.proofAtTime n) s = .next (
      if (s.proofWaiter 24).isSome then s.finish n (Outcome.bad 0x0101)
      else if s.fld Reg.ptpCfg 31 31 = 0 then s.finish n (Outcome.bad 0x0102)
      else s.park n [24, bits (c.par 32 8) 63 30 * 1000000000 + bits (c.par 32 8) 29 0,
        1 - s.fld Reg.ptpStatus 31 31])) ∧
    (s.proofWaiter 23 = some c → c.id = n → s.fld Reg.proofState 31 31 = 0 → ∃ t img, exec (.proofFire [0]) s = .next t ∧
      t.Ended n (Outcome.ok ((s.fld Reg.proofState 63 32 + 1) % 2 ^ 32 * 2 ^ 32)) ∧ t.obs.image = some img ∧
      img.number = (s.fld Reg.proofState 63 32 + 1) % 2 ^ 32 ∧ t.fld Reg.proofState 31 31 = 1 ∧
      t.fld Reg.proofState 63 32 = (s.fld Reg.proofState 63 32 + 1) % 2 ^ 32 ∧ t.fld Reg.proofState 4 0 = 1 ∧
      t.reg Reg.proofStampTime = s.time % 2 ^ 64 ∧ t.mem = s.mem ∧ t.tens = s.tens ∧ t.tally = s.tally) ∧
    (s.proofWaiter 24 = some c → c.id = n → c.aux.getD 1 0 ≤ s.fab.ptp.now / 1000 → s.fld Reg.proofState 31 31 = 0 → ∃ t img,
      exec (.proofFire [1]) s = .next t ∧ t.Ended n (Outcome.ok ((s.fld Reg.proofState 63 32 + 1) % 2 ^ 32 * 2 ^ 32)) ∧
      t.obs.image = some img ∧ img.number = (s.fld Reg.proofState 63 32 + 1) % 2 ^ 32 ∧ t.fld Reg.proofState 4 0 = 2 ∧
      (c.aux.getD 2 0 = 1 → t.fld Reg.ptpStatus 30 30 = 1)) ∧
    (s.proofWaiter 24 = some c → s.fab.ptp.now / 1000 < c.aux.getD 1 0 → exec (.proofFire [1]) s = .next s) ∧
    (s.proofWaiter 23 = some c → c.id = n → s.fld Reg.proofState 31 31 = 1 → ∃ t, exec (.proofFire [0]) s = .next t ∧
      t.Ended n (Outcome.aborted 0x0100) ∧ t.obs.image = s.obs.image ∧
      t.fld Reg.proofState 23 16 = min (s.fld Reg.proofState 23 16 + 1) 255 ∧
      (∀ o, o ≠ Reg.proofState → t.reg o = s.reg o) ∧ t.mem = s.mem) ∧
    (s.fld Reg.proofCfg 31 31 = 1 → s.obs.pull = false → s.obs.deaf ≤ s.time → s.pwr.held = false →
      exec .proofPinEdge s = .next { s with obs := { s.obs with due := s.obs.due ++ [2] } }) ∧
    (s.fld Reg.proofCfg 31 31 = 0 ∨ s.obs.pull = true ∨ s.time < s.obs.deaf → exec .proofPinEdge s = .next s) ∧
    (s.obs.pull = true →
      exec .proofPullEnd s = .next { s with obs := { s.obs with pull := false, deaf := s.time + 100 } }) ∧
    (s.Up → ∃ t, exec .proofRelease s = .next t ∧ t.obs.image = none ∧ t.fld Reg.proofState 31 31 = 0 ∧
      t.fld Reg.proofState 30 0 = s.fld Reg.proofState 30 0 ∧ (∀ o, o ≠ Reg.proofState → t.reg o = s.reg o) ∧
      t.mem = s.mem ∧ t.cmd = s.cmd)

/-- PROOF_READ and COUNTERS_READ of this node (18 R423, R426, R436): with a valid range they write the image, or a snapshot
of the live registers, and end OK with the bytes written and, for a proof, its number; COUNTERS_READ with CLEAR clears the
RC fields it read. Without an image, or with a range that is not valid, they write nothing. -/
def Obligations.ReadsOfProofsAndCounters : Prop :=
  ∀ (s : State) (n : Nat) (c : Cmd),
    (∀ p u, s.Ready n 0x0C03 c → s.obs.image = some p → s.rangeOk c = true → nodeOf (c.par 32 8) = s.node →
      s.rangeFault (c.par 32 8) c.readBytes = none → s.rangeGate c [] [(localOf (c.par 32 8), c.readBytes)] = none →
      s.saveBytes (localOf (c.par 32 8)) (regionBytes p.reg c.readOffset c.readBytes) = (u, none) → 0 < c.readBytes →
      exec (.proofRead n) s = .next (u.finish n (Outcome.ok (c.readBytes + p.number * 2 ^ 32)))) ∧
    (s.Ready n 0x0C03 c → s.obs.image = none → exec (.proofRead n) s = .next (s.finish n (Outcome.bad 0x0103))) ∧
    (∀ r u, s.Ready n 0x0C04 c → s.rangeOk c = true → nodeOf (c.par 32 8) = s.node → 0 < c.readBytes →
      s.rangeGate c [] [(localOf (c.par 32 8), c.readBytes)] = none →
      r = (if bit (c.par 48 1) 0 = 1 then (List.range (c.readBytes / 8)).foldl (fun s i =>
        (regSpans (c.readOffset + 8 * i) 8).foldl State.clearRC s) s else s) →
      r.rangeFault (c.par 32 8) c.readBytes = none → r.rangeGate c [] [(localOf (c.par 32 8), c.readBytes)] = none →
      r.node = s.node →
      r.saveBytes (localOf (c.par 32 8)) (regionBytes s.regView c.readOffset c.readBytes) = (u, none) →
      exec (.countersRead n) s = .next (u.finish n (Outcome.ok c.readBytes))) ∧
    (s.Ready n 0x0C04 c → s.rangeOk c = false → exec (.countersRead n) s = .next (s.finish n (Outcome.bad 0x0104)))

/-! ### Tests and deferred work -/

/-- The whole-device tests (09 R259; 18 R427 to R429). With an imposition in force they are deferred, or refused to a packet
that asks for an answer at once; without one they run and end OK with the count of units that failed. One channel's
recalibration ends OK, or CHECK_FAIL with the channel queued. LINK_RETRAIN_ONE takes its link out of its group to train. At
the idle boundary the work deferred starts, and its end writes its result register. -/
def Obligations.TestsRunOrAreDeferred : Prop :=
  (∀ (s : State) (n op k : Nat) (c : Cmd) (r : Findings) (i : Instr),
    (op, k, i) ∈ [(0x0D01, 0, Instr.arraySelfTest n r), (0x0D02, 1, .hbmRecalAll n r), (0x0D04, 2, .linkRetrainAll n r)] →
    s.Ready n op c →
    (s.imp.cur.isSome = true → bit c.flags 8 = 1 → exec i s = .next (s.finish n (Outcome.bad 0x0009))) ∧
    (s.imp.cur.isSome = true → bit c.flags 8 = 0 →
      exec i s = .next ((s.deferTest k c.pkt).finish n ⟨stDeferred, 0, 0⟩)) ∧
    (s.imp.cur = none → s.isFatal = false → s.pwr.held = false → s.imp.capTally = none → s.Sound →
      (k = 0 → reportAddr c.pkt = 2 ^ 64 - 1 ∧ r.slots = [] ∧ r.routers = [] ∧ r.engines = []) →
      (k = 2 → s.assigned = []) →
      ∃ t, exec i s = .next t ∧ t.Ended n (Outcome.ok (if k = 0 then s.selfTestCount r else if k = 1 then
        (s.recalFailed r).length else 0)) ∧ t.tens = s.tens ∧ t.mem = s.mem)) ∧
  (∀ (s : State) (n : Nat) (c : Cmd) (pass : Bool), s.Sound → s.Ready n 0x0D03 c →
    (s.mem.outChannels.contains (c.par 32 1) = true →
      exec (.hbmRecalChannel n pass) s = .next (s.finish n (Outcome.bad 0x0180))) ∧
    (s.mem.outChannels.contains (c.par 32 1) = false → ∃ t, exec (.hbmRecalChannel n pass) s = .next t ∧
      (pass = true → t.Ended n (Outcome.ok 0) ∧ t.regs = s.regs) ∧
      (pass = false → t.Ended n ⟨stCheckFail, 0x0181, 1⟩ ∧ (s.fld (Reg.channelState (c.par 32 1)) 63 62 = 0 →
        s.imp.capTally = none →
        t.fld (Reg.channelState (c.par 32 1)) 63 62 = 1 ∧ t.fld (Reg.channelState (c.par 32 1)) 61 59 = 3)))) ∧
  (∀ (s : State) (n l : Nat) (c : Cmd), s.Sound → s.Ready n 0x0D05 c → c.par 32 1 = l →
    (64 ≤ l ∨ s.fld (Reg.linkCfg l) 31 30 = 0 →
      exec (.linkRetrainOne n) s = .next (s.finish n (Outcome.bad 0x0180))) ∧
    (l < 64 → s.fld (Reg.linkCfg l) 31 30 = 1 ∨ s.fld (Reg.linkCfg l) 31 30 = 2 → (s.link l).retraining = none →
      s.fld Reg.cdcRstmode 2 2 = 1 → s.fld Reg.linkEventCfg 31 31 = 0 → s.pwr.held = false →
      ∃ t, exec (.linkRetrainOne n) s = .next t ∧ t.cmdOf n = some { c with phase := .waiting, aux := [26, 0] } ∧
        t.fld (Reg.linkState l) 31 29 = 1 ∧ (t.link l).retraining = some n ∧ t.mem = s.mem ∧ t.tens = s.tens)) ∧
  (∀ s : State, s.idle = true → exec .idleBoundary s =
    .next { s with obs := { s.obs with tests := s.obs.tests.map fun t => { t with running := true } } }) ∧
  ∀ (s : State) (us : Nat) (w : TestWork) (r : Findings), s.Sound → s.pwr.held = false → w.kind = 1 →
    (s.obs.tests.find? fun t => t.kind = 1 ∧ t.running) = some w → w.requests = [] → r.channels = [] →
    ∃ t, exec (.deferredWorkEnd 1 r us) s = .next t ∧ t.obs.tests = s.obs.tests.erase w ∧
      t.reg (Reg.testResult 1) = (if s.isFatal then stFatal else stOK) * 2 ^ 48 + us % 2 ^ 32 ∧
      (∀ o, o ≠ Reg.testResult 1 → t.reg o = s.reg o) ∧ t.mem = s.mem ∧ t.tens = s.tens

/-! ### Start-up -/

/-- The stages of start-up (16 R389 to R394, R396, R398; 01 R16, R20; 11 R291), each when it is the next one, in a device
with power whose reset is released. A stage that passes is recorded in STAGE and BOOT_TIME_k and the next one follows; time
starts at stage 1. A failure in the boot ROM or of Falosteo stops start-up with its FAIL_CODE and the alarm asserted. Stage 3
puts the firmware and the profile chosen in force, or stops. Stage 5 sets DEVICE_ID and draws a nonce; its failure is fatal.
Stage 6 maps every copse, and a failed router is fatal. Stage 7 zeroes HBM when the profile asks for it. Stage 8 configures
the 64 links and trains those on D128. Stage 9 brings the GCL up, and ends start-up; its failure is fatal. -/
def Obligations.StartUpStagesPass : Prop :=
  ∀ (s : State) (d : Nat), s.Up → s.Sound → d < 2 ^ 32 →
    (∀ k i, s.boot.next = k → (k, i) ∈ [(1, Instr.startUp d), (2, .bootRomStage d true), (4, .falosteoStage d true)] →
      ∃ t, exec i s = .next t ∧ t.boot = { s.boot with next := k + 1 } ∧ t.fld Reg.bootStatus 31 28 = k ∧
        t.reg (Reg.bootTime (k - 1)) = d ∧ t.time = (if k = 1 then d else s.time + d) ∧
        (∀ o, o ≠ Reg.bootStatus → o ≠ Reg.bootTime (k - 1) → t.reg o = s.reg o) ∧ t.mem = s.mem) ∧
    (∀ k code i, s.boot.next = k → (k, code, i) ∈ [(2, 1, Instr.bootRomStage d false), (4, 4, .falosteoStage d false)] →
      ∃ t, exec i s = .next t ∧ t.boot = { s.boot with next := 0 } ∧ t.fld Reg.bootStatus 31 24 = 16 * k + k ∧
        t.fld Reg.bootStatus 23 16 = code ∧ t.fld Reg.alarmState 5 5 = 1) ∧
    (s.boot.next = 3 → ∃ t, exec (.verificationStage d) s = .next t ∧
      (∀ f p, s.chooseSlot 1 = some f → s.chooseSlot 2 = some p → t.boot.next = 4 ∧
        t.boot.profile = profileFields p.2.2 ∧ t.boot.ownerCert = profileCert p.2.2 ∧
        t.boot.mFw = Config.sha384 f.2.2 ∧ t.boot.mProfile = Config.sha384 p.2.2 ∧
        t.boot.mOwner = Config.sha384 (profileCert p.2.2) ∧ t.node = fieldAt (profileFields p.2.2) 0 2 ∧
        t.fld Reg.bootStatus 3 3 = f.1 % 2 ∧ t.fld Reg.bootStatus 4 4 = p.1 % 2 ∧
        t.reg Reg.ownerId = fieldAt (bodyOf (profileCert p.2.2)) 0 8) ∧
      (s.chooseSlot 1 = none → t.boot.next = 0 ∧ t.fld Reg.bootStatus 27 16 = 0x302) ∧
      (∀ f, s.chooseSlot 1 = some f → s.chooseSlot 2 = none → t.boot.next = 0 ∧ t.fld Reg.bootStatus 27 16 = 0x303)) ∧
    (s.boot.next = 5 → (s.identityOk = true → ∃ t, exec (.pufStage d true) s = .next t ∧ t.boot.next = 6 ∧
        t.reg Reg.deviceId = deviceId ∧ t.reg Reg.unlockNonce = Config.freeNat s.freeCtr % 2 ^ 64) ∧
      ∃ t, exec (.pufStage d false) s = .next t ∧ t.isFatal = true ∧ t.fld Reg.bootStatus 27 16 = 0x505) ∧
    (s.boot.next = 6 → (∃ t, exec (.selfTestStage d [] [] []) s = .next t ∧ t.boot.next = 7 ∧
        (∀ c < 256, t.reg (Reg.copseState c) = 0x3FFFFF) ∧ (t.core.bank0, t.core.bank1) = ([], [])) ∧
      ∀ r < 256, ∃ t, exec (.selfTestStage d [] [r] []) s = .next t ∧ t.isFatal = true ∧
        t.fld Reg.bootStatus 27 16 = 0x606 ∧ t.fld (Reg.groveStatus (r / 64)) 1 1 = 1) ∧
    (s.boot.next = 7 → s.repairs = [] → ∃ t, exec (.hbmTrainingStage d []) s = .next t ∧ t.boot.next = 8 ∧
      t.pwr.selfRefresh = false ∧ t.mem.trained = true ∧
      (bit (fieldAt s.boot.profile 2 1) 0 = 0 → t.mem.bytes = s.mem.bytes) ∧
      (bit (fieldAt s.boot.profile 2 1) 0 = 1 → (∀ a < 0x6000000000, t.byteAt a = 0) ∧
        t.fld Reg.bootStatus 7 7 = 1)) ∧
    (s.boot.next = 8 → ∀ l, ∃ t, exec (.linkTrainingStage d l) s = .next t ∧ t.boot.next = 9 ∧ ∀ n < 64,
      t.fld (Reg.linkCfg n) 31 30 = profileMode s.boot.profile n ∧ (profileMode s.boot.profile n = 1 →
        (∀ x, l.find? (fun x => x.1 = n) = some x →
          t.fld (Reg.linkState n) 31 29 = 2 ∧ (t.link n).credit = 65536) ∧
        (l.find? (fun x => x.1 = n) = none → t.fld (Reg.linkState n) 28 24 = 4))) ∧
    (s.boot.next = 9 → (∀ x, s.gcl.queued = [] → ∃ t, exec (.gclTrainingStage d (some x)) s = .next t ∧ t.boot.next = 10 ∧
        t.gclUp = true ∧ t.fld Reg.gclState 28 27 = x.width % 4 ∧
        t.fld Reg.gclState 9 0 = (48 + 2 * ceilDiv x.flight 2) % 1024 ∧ t.gcl.credits = [512, 64, 128, 512] ∧
        t.fld Reg.bootStatus 31 28 = 10) ∧
      ∃ t, exec (.gclTrainingStage d none) s = .next t ∧ t.isFatal = true ∧ t.fld Reg.bootStatus 27 16 = 0x908)

/-! ### Clocks, power and reset -/

/-- Full resets (17 R414 to R420; 19 R443, R444) of a device that has power and is not held. Each cause begins one: it is
held, with its cause and one more in COUNT, and every register but RESET_CAUSE, every ring, tally and tensor is as after
reset; the flash and the time stay. A cause while it is held is only recorded. It is released, and stage 1 follows, when
the input is in range, RESET_N high and every reading below 100 °C. Power comes and goes with the flash kept. Readings set
level and rate (R403, R404); copses gate, retain and wake (R406, R407); under SIGNALLED a partial reset is served alone
(R413). -/
def Obligations.ClockPowerAndResetEventsTakePlace : Prop :=
  ∀ s : State, s.Sound →
    (∀ k i, s.Up →
      (1 ≤ k ∧ k ≤ 8 ∧ i = Instr.fullResetBegin k ∨ k = 2 ∧ i = .input ∨ k = 3 ∧ i = .resetNAssert ∨
        k = 4 ∧ s.cmd.resetPhase = 2 ∧ i = .commandResetDelay ∨
        k = 5 ∧ (∃ v, bits v 31 16 = 0x5253 ∧ i = .resetCtrl v) ∨
        k = 7 ∧ s.fld Reg.cdcRstmode 0 0 = 0 ∧ (∃ ch l, ch < 256 ∧ i = .memoryControllerReset ch l) ∨
        k = 7 ∧ s.fld Reg.cdcRstmode 1 1 = 0 ∧ (∃ p, i = .seamReset p) ∨
        k = 8 ∧ 4 < s.boot.next ∧ s.fld Reg.watchdog 31 31 = 1 ∧ s.watchdogOut = true ∧ i = .watchdog) →
      ∃ t, exec i s = .next t ∧ t.pwr.held = true ∧ t.fld Reg.resetCause 31 28 = k ∧ bit (t.reg Reg.resetCause) k = 1 ∧
        t.fld Reg.resetCause 63 32 = min (s.fld Reg.resetCause 63 32 + 1) (2 ^ 32 - 1) ∧
        (∀ o, o ≠ Reg.resetCause → t.reg o = State.reset.reg o) ∧ t.cmd = CmdSt.reset ∧ t.tally = TallySt.reset ∧
        t.imp = ImpSt.reset ∧ t.tens = [] ∧ t.boot.flash = s.boot.flash ∧ t.time = s.time ∧ t.pending = s.pending) ∧
    (∀ k, s.pwr.powered = true → s.pwr.held = true → 1 ≤ k → k ≤ 8 → exec (.fullResetBegin k) s =
      .next (s.setReg Reg.resetCause (putBits (s.reg Reg.resetCause) k k 1))) ∧
    (s.pwr.powered = true → s.pwr.held = true → s.pwr.pinLow = false → s.pwr.inRange = true →
      (∀ c ∈ s.pwr.temps, c < 100) →
      exec .resetRelease s = .next { s with pwr := { s.pwr with held := false }, boot := { s.boot with next := 1 } }) ∧
    exec .resetNDeassert s = .next { s with pwr := { s.pwr with pinLow := false } } ∧
    (s.pwr.powered = true → exec .inputInRange s = .next { s with pwr := { s.pwr with inRange := true } }) ∧
    (∀ i, s.pwr.powered = false ∧ i = Instr.powerOn ∨ i = .powerLoss → ∃ t, exec i s = .next t ∧ t.regs = [] ∧
      t.time = 0 ∧ t.boot = { BootSt.reset with flash := s.boot.flash } ∧ t.tens = [] ∧ t.pwr.pinLow = s.pwr.pinLow ∧
      t.pwr.powered = decide (i = .powerOn) ∧ t.pwr.held = true) ∧
    (s.Up → 4 < s.boot.next →
      exec .watchdogRestart s = .next { s with pwr := { s.pwr with watchdogFed := s.time } }) ∧
    (∀ g l, s.Up → g < 4 → l ≠ [] → ∃ t, exec (.junctionRead g l) s = .next t ∧
      (junctionLevel (s.fld (Reg.junction g) 30 29) (groveReading l) ≠ 3 →
        t.fld (Reg.junction g) 7 0 = groveReading l ∧
        t.fld (Reg.junction g) 30 29 = junctionLevel (s.fld (Reg.junction g) 30 29) (groveReading l) ∧
        t.fld (Reg.junction g) 31 31 = ofBool (decide (Reading.failed ∈ l)) ∧
        t.pwr.temps = s.pwr.temps.set g (groveReading l) ∧ t.fld Reg.clkState 29 28 = t.rateWanted % 4 ∧
        t.mem = s.mem ∧ t.cmd = s.cmd) ∧
      (junctionLevel (s.fld (Reg.junction g) 30 29) (groveReading l) = 3 →
        t.pwr.held = true ∧ t.fld Reg.resetCause 31 28 = 6)) ∧
    (∀ a b, s.pwr.powered = true → ∃ t, exec (.powerCheck a b) s = .next t ∧
      t.fld Reg.powerLimit 31 16 = min a 0xFFFF ∧ t.fld Reg.clkState 29 28 = t.rateWanted % 4 ∧
      (t.pwr.powerLevel, t.pwr.calm) =
        if 4000 < a ∨ s.powerLimit < b then (min 2 (s.pwr.powerLevel + 1), 0)
        else if 100 * a < 95 * 4000 ∧ 100 * b < 95 * s.powerLimit then
          if s.pwr.calm = 99 then (s.pwr.powerLevel - 1, 0) else (s.pwr.powerLevel, s.pwr.calm + 1)
        else (s.pwr.powerLevel, 0)) ∧
    (∀ v, s.Up → ∃ t, exec (.aclkCapWrite v) s = .next t ∧ t.fld Reg.aclkCap 1 0 = v % 4 ∧
      t.fld Reg.clkState 29 28 = t.rateWanted % 4 ∧
      t.fld Reg.clkState 27 27 = ofBool (decide (t.rateWanted ≠ s.fld Reg.clkState 31 30))) ∧
    (s.Up → s.mem.trained = true → s.fld Reg.clkState 27 27 = 1 → s.mem.subslot = 31 → ∃ t, exec .aclkRateChange s = .next t ∧
      t.fld Reg.clkState 31 30 = s.fld Reg.clkState 29 28 ∧ t.fld Reg.clkState 27 27 = 0 ∧
      t.fld Reg.clkState 63 32 = min (s.fld Reg.clkState 63 32 + 1) (2 ^ 32 - 1) ∧
      (t.fld Reg.hbmCalendar 26 16, t.fld Reg.hbmCalendar 15 10) = calendarOf (s.fld Reg.clkState 29 28) ∧
      t.mem.subslot = 0 ∧ t.mem.refreshes = 0) ∧
    (∀ c, c < 256 → s.pwr.held = false → s.fld Reg.gateCfg 15 0 ≠ 0 → s.isRetired c = false → s.isGated c = false →
      s.copseWorks c = false → (∀ x ∈ s.imp.sweep, x.1 ≠ c) →
      exec (.gateEntry c) s = .next { s with pwr := { s.pwr with gates := s.pwr.gates ++ [(c, 1)] } }) ∧
    (∀ c, (c, 1) ∈ s.pwr.gates → c ∉ s.pwr.waking → s.fld Reg.gateCfg 31 31 = 1 → s.carriesUnit c = false →
      ∃ t, exec (.retainEntry c) s = .next t ∧ (c, 2) ∈ t.pwr.gates ∧ (c, 1) ∉ t.pwr.gates ∧
        (∀ g, g.1 ≠ c → (g ∈ t.pwr.gates ↔ g ∈ s.pwr.gates)) ∧ t.regs = s.regs ∧ t.mem = s.mem) ∧
    (∀ c, s.isGated c = true → c ∉ s.pwr.waking →
      exec (.wake c) s = .next { s with pwr := { s.pwr with waking := s.pwr.waking ++ [c] } }) ∧
    (∀ c, c ∈ s.pwr.waking → ∃ t, exec (.wakeComplete c) s = .next t ∧ t.isGated c = false ∧ c ∉ t.pwr.waking ∧
      (∀ d, d ≠ c → t.isGated d = s.isGated d) ∧ t.regs = s.regs ∧ t.mem = s.mem) ∧
    (∀ ch, s.Up → ch < 256 → s.fld Reg.cdcRstmode 0 0 = 1 → s.imp.capTally = none →
      ∃ t, exec (.memoryControllerReset ch []) s = .next t ∧ ch ∈ t.mem.resetting ∧
        (s.fld (Reg.channelState ch) 63 62 = 0 → t.fld (Reg.channelState ch) 63 59 = 0b01011) ∧
        t.mem.bytes = s.mem.bytes ∧ t.pwr = s.pwr) ∧
    (∀ ch, ∃ t, exec (.memoryControllerRetrained ch) s = .next t ∧ ch ∉ t.mem.resetting ∧ t.regs = s.regs) ∧
    (∀ p, s.Up → s.fld Reg.cdcRstmode 1 1 = 1 → s.coll.colls = [] → ∃ t, exec (.seamReset p) s = .next t ∧ p ∈ t.pwr.seams ∧
      (∀ n c, s.cmdOf n = some c → (c.phase = .dispatched ∨ c.phase = .waiting) → functionOf c.opcode < 10 →
        c.latch.imposition ≠ 0 → t.Ended n (Outcome.aborted 0)) ∧ t.mem = s.mem ∧ t.regs = s.regs) ∧
    (∀ p, ∃ t, exec (.seamPortRetrained p) s = .next t ∧ p ∉ t.pwr.seams ∧ t.regs = s.regs ∧ t.mem = s.mem)

/-! ### Links -/

/-- Events of a link that is up (11 R289 to R294, R302; 17 R413) and, of one that is not, its timer and its training. On
D128: an IDLE block returns acknowledgements and credit; a NACK replays what is unacknowledged; an uncorrectable block is
discarded and named in a NACK; a data block that decodes and has its turn is counted, taken and answered by an IDLE block. A link that loses its signal
is DOWN with cause 1, or under JOINT begins a full reset. A DOWN link retrains without HOLD; trained, it is UP with its
credit, or DOWN again with cause 4. On an Ethernet port PAUSE and frames that it refuses are discarded and counted, and priority flow
control pauses and resumes its class. -/
def Obligations.LinkEventsTakePlace : Prop :=
  ∀ (s : State) (n : Nat), s.Up → s.Sound → n < 64 →
    (s.fld (Reg.linkState n) 31 29 = 2 → s.fld (Reg.linkCfg n) 31 30 = 1 → (s.link n).queued = [] →
      (∀ ack cr, ((s.link n).awaiting = true → exec (.d128IdleBlock n ack cr) s = .next s) ∧
        ((s.link n).awaiting = false → ∃ t, exec (.d128IdleBlock n ack cr) s = .next t ∧
          (t.link n).unacked = (s.link n).unacked.filter (fun u => ! seqBefore u.seq (ack % 1024)) ∧
          (t.link n).credit = (s.link n).credit + 512 * (cr % 8) ∧ t.regs = s.regs ∧ t.mem = s.mem)) ∧
      (∀ seq, (∀ u ∈ (s.link n).unacked, seqBefore u.seq (seq % 1024) = false) → (s.link n).unacked ≠ [] →
        (s.link n).replayCount ≠ 15 → ∃ t, exec (.d128NackBlock n seq) s = .next t ∧
          (t.link n).resent = (s.link n).resent ++ (s.link n).unacked.map (·.seq) ∧
          (∃ l, (t.link n).sent = (s.link n).sent ++ l ∧ l.length = (s.link n).unacked.length) ∧
          (t.link n).replayCount = (s.link n).replayCount + 1 ∧
          t.fld (Reg.linkErr n) 31 16 = min (s.fld (Reg.linkErr n) 31 16 + 1) (2 ^ 16 - 1) ∧
          (∀ o, o ≠ Reg.linkErr n → t.reg o = s.reg o) ∧ t.mem = s.mem) ∧
      (∀ b, b.length = 272 → (blockDecode b).1 = none → (s.link n).badBlocks.length < 65535 →
        ∃ t, exec (.d128DataBlock n b) s = .next t ∧ (t.link n).nacks = (s.link n).nacks ++ [(s.link n).seqRx] ∧
          (t.link n).awaiting = true ∧ t.mem = s.mem) ∧
      ∀ b d, b.length = 272 → (blockDecode b).1 = some d → bits (fieldAt d 0 4) 21 20 = 0 →
        bits (fieldAt d 0 4) 9 0 = (s.link n).seqRx → bits (fieldAt d 0 4) 28 22 = 127 → (s.link n).partials = [] →
        ∃ t, exec (.d128DataBlock n b) s = .next t ∧ (t.link n).seqRx = ((s.link n).seqRx + 1) % 1024 ∧
          (t.link n).awaiting = false ∧
          (t.link n).unacked = (s.link n).unacked.filter (fun u => ! seqBefore u.seq (bits (fieldAt d 0 4) 19 10)) ∧
          (t.link n).credit = (s.link n).credit + 512 * bits (fieldAt d 0 4) 31 29 ∧
          (∃ c, (t.link n).sent = (s.link n).sent ++ [d128Block c 127 1 (((s.link n).seqRx + 1) % 1024) (s.link n).seqTx
            (List.replicate 256 0)]) ∧
          t.fld (Reg.linkErr n) 63 32 = min (s.fld (Reg.linkErr n) 63 32 + (blockDecode b).2) (2 ^ 32 - 1) ∧
          t.mem = s.mem) ∧
    (s.fld (Reg.linkState n) 31 29 = 2 →
      (s.fld Reg.cdcRstmode 2 2 = 0 → ∃ t, exec (.lossOfSignal n) s = .next t ∧ t.pwr.held = true ∧
        t.fld Reg.resetCause 31 28 = 7) ∧
      (s.fld Reg.cdcRstmode 2 2 = 1 → s.fld Reg.linkEventCfg 31 31 = 0 → ∃ t, exec (.lossOfSignal n) s = .next t ∧
        t.fld (Reg.linkState n) 31 24 = 1 ∧ (t.link n).unacked = [] ∧
        t.fld (Reg.linkErr n) 15 0 = min (s.fld (Reg.linkErr n) 15 0 + 1) (2 ^ 16 - 1) ∧ t.mem = s.mem ∧
        t.tens = s.tens ∧ t.tally = s.tally)) ∧
    (s.fld (Reg.linkState n) 31 29 = 0 → s.fld (Reg.linkCfg n) 31 30 ≠ 0 → s.fld (Reg.linkCfg n) 23 23 = 0 →
      exec (.linkRetrainTimer n) s = .next (s.setFld (Reg.linkState n) 31 29 1)) ∧
    (s.fld (Reg.linkState n) 31 29 = 1 → s.fld Reg.linkEventCfg 31 31 = 0 → (s.link n).retraining = none →
      (∀ c ∈ s.fab.tx, ∀ u ∈ c.unacked, u.sent = true) →
      (∀ x, ∃ t, exec (.linkTrained n (some x)) s = .next t ∧ t.fld (Reg.linkState n) 31 29 = 2 ∧
        t.fld (Reg.linkState n) 23 20 = x.polarity % 16 ∧ (t.link n).credit = 65536 ∧
        (s.fld (Reg.linkCfg n) 31 30 = 1 → t.fld (Reg.linkLat n) 31 16 = x.flight % 2 ^ 16) ∧ t.mem = s.mem) ∧
      (s.fld Reg.cdcRstmode 2 2 = 1 → ∃ t, exec (.linkTrained n none) s = .next t ∧
        t.fld (Reg.linkState n) 31 24 = 4 ∧ t.mem = s.mem)) ∧
    (s.fld (Reg.linkState n) 31 29 = 2 → 2 ≤ s.fld (Reg.linkCfg n) 31 30 →
      exec (.pauseFrame n) s = .next (s.addSat (Reg.ethDrops (s.ethPort n)) 31 16 1) ∧
      (∀ h, exec (.frameDrops n h) s =
        .next (if s.ethRefuses n h = true then s.addSat (Reg.ethDrops (s.ethPort n)) 15 0 1 else s)) ∧
      (∀ p, Config.pfcClass n = none → exec (.priorityFlowControl n p) s = .next s) ∧
      ∀ p k, Config.pfcClass n = some k → ∃ t, exec (.priorityFlowControl n p) s = .next t ∧
        (n ∈ t.fab.pfcPaused ↔ p = true) ∧ (∀ m, m ≠ n → (m ∈ t.fab.pfcPaused ↔ m ∈ s.fab.pfcPaused)) ∧ t.mem = s.mem)

/-! ### Frames of the fabric -/

/-- What each frame of another node does here (11 R295 to R299, R303, R304; 02 R49, R50, R66; 09 R251), in its turn: WRITE
puts its bytes in HBM; READ_REQ is answered with the bytes; the last READ_RESP of a TALLY_READ ends it; a tally add adds; WATCH
attaches a watch, its notice ends the waiting command, WATCH_CANCEL drops it; SCHED puts its data in the tensor; an ERROR is
recorded and ends its command; CONTROL reports a chunk. A new EPOCH releases the watches of its node. An ACK and a NACK of a connection drop and resend its frames, and a
CNP cuts its rate. The ACK timer owes nothing more, a timeout resends, a connection without a route is LOST, and the rate
rises again. -/
def Obligations.FabricFramesTakePlace : Prop :=
  (∀ (s : State) (n : Nat) (f : IfpFrame) (r : ConnRx), s.Sound → s.Comes n f → s.InTurn f r →
    (f.typ = 1 → regionOf (localOf f.addr) = .hbm → s.storeBlocks (localOf f.addr) f.payload.length = [] →
      s.memFault (localOf f.addr) f.payload.length = none → s.Clean → (∀ i, s.qpIsReady i = false) →
      s.stalledRange (localOf f.addr) f.payload.length = false →
      (pages (localOf f.addr) f.payload.length).any s.unbackedPage = false → ∃ t, exec (.write n f false) s = .next t ∧
        (∀ a, t.byteAt a = if localOf f.addr ≤ a ∧ a < localOf f.addr + f.payload.length
          then f.payload.getD (a - localOf f.addr) 0 else s.byteAt a) ∧
        (∃ q, t.connRx f.src f.cls = some q ∧ q.expected = (r.expected + 1) % 2 ^ 32) ∧ t.tally = s.tally ∧
        t.tens = s.tens) ∧
    (f.typ = 2 → regionOf (localOf f.addr) = .hbm → s.loadBlocks (localOf f.addr) f.aux = [] →
      s.memFault (localOf f.addr) f.aux = none → s.Clean → 0 < f.aux → f.aux ≤ 4096 →
      s.stalledRange (localOf f.addr) f.aux = false →
      (pages (localOf f.addr) f.aux).any s.unbackedPage = false → ∃ t, exec (.readReq n f false) s = .next t ∧
        (∃ u ∈ (t.connTx f.src f.cls).unacked, u.frame.typ = 3 ∧ u.frame.msgId = f.msgId % 65536 ∧
          u.frame.payload = s.bytesAt (localOf f.addr) f.aux) ∧ t.mem = s.mem ∧ t.tens = s.tens) ∧
    (∀ x m c, f.typ = 3 → s.fab.reads.find? (fun x => x.node = f.src ∧ x.msgId = f.msgId) = some x → f.last = true →
      x.purpose = .cmd m → s.cmdOf m = some c → c.phase = .waiting → c.aux = [2] → c.opcode = 0x0B05 →
      ∃ t, exec (.readResp n f false) s = .next t ∧
        t.Ended m (Outcome.ok (leNat (c.buf ++ (x.data ++ f.payload).take x.total))) ∧ t.mem = s.mem) ∧
    (∀ i, f.typ = 4 → tallyIndex f.addr = some i → (∀ w ∈ s.tally.waiters, w.tally ≠ i) →
      ∃ t, exec (.ifpTallyAdd n f false) s = .next t ∧
        t.tallyVal i = (s.tallyVal i + fieldAt f.payload 0 8) % 2 ^ 64 ∧ (∀ j, j ≠ i → t.tallyVal j = s.tallyVal j) ∧
        t.tally.waiters = s.tally.waiters ∧ t.mem = s.mem) ∧
    (∀ i w, f.typ = 5 → tallyIndex f.addr = some i → s.watchCount < 1024 →
      w = (⟨i, decide (fieldAt f.payload 8 1 = 1), fieldAt f.payload 0 8, .watch f.src (fieldAt f.payload 10 2)⟩ : Waiter) →
      w.metBy (s.tallyVal i) = false → ∃ t, exec (.watch n f false) s = .next t ∧
        t.tally.waiters = s.tally.waiters ++ [w] ∧ t.tally.values = s.tally.values ∧ t.mem = s.mem) ∧
    (∀ c, f.typ = 6 →
      s.cmd.cmds.find? (fun c => c.phase = .waiting ∧ c.aux = [3, f.src, fieldAt f.payload 0 2]) = some c →
      ∃ t v, exec (.watchNotify n f false) s = .next t ∧ t.Ended c.id (Outcome.ok v) ∧ c.par 40 8 ≤ v ∧ v < 2 ^ 64 ∧
        (c.opcode = 0x0B04 → v = c.par 40 8) ∧ t.mem = s.mem ∧ t.tally = s.tally) ∧
    (f.typ = 7 → ∃ t, exec (.watchCancel n f false) s = .next t ∧ t.tally.values = s.tally.values ∧ t.mem = s.mem ∧
      ∀ w, w ∈ t.tally.waiters ↔ w ∈ s.tally.waiters ∧ w.owner ≠ .watch f.src (fieldAt f.payload 0 2)) ∧
    (∀ x i, f.typ = 8 → s.tensor (f.addr / 2 ^ 32 % 2 ^ 32) = some x → s.imp.cur = some i → s.imp.moves = [] →
      ∃ t, exec (.sched n f false) s = .next t ∧ t.mem = s.mem ∧ ∃ y ∈ t.tens, y.handle = x.handle ∧
        y.data = setTensorBytes x f.payload (f.addr % 2 ^ 32 * 64) x.data) ∧
    (∀ x m c, f.typ = 11 → s.fab.reads.find? (fun x => x.node = f.src ∧ x.msgId = f.msgId) = some x →
      x.purpose = .cmd m → s.cmdOf m = some c → c.phase = .waiting → c.opcode / 256 = 2 →
      fieldAt f.payload 0 1 ≠ faultUnreachable → fieldAt f.payload 0 1 ≠ 0 → s.fld Reg.fabricErr 0 0 = 0 → f.src < 2 ^ 16 →
      ∃ t, exec (.ifpError n f false) s = .next t ∧ t.Ended m (faultOutcome (fieldAt f.payload 0 1)) ∧
        t.reg Reg.fabricErr = fieldAt f.payload 0 1 * 2 ^ 24 + f.src * 2 ^ 8 + 1 ∧
        t.reg Reg.fabricErrAddr = f.addr % 2 ^ 48 ∧ t.mem = s.mem) ∧
    (f.typ = 13 → ∃ t, exec (.control n f false []) s = .next t ∧ t.mem = s.mem ∧ t.cmd = s.cmd ∧
      (∃ q, t.connRx f.src f.cls = some q ∧ q.expected = (r.expected + 1) % 2 ^ 32 ∧ q.sinceAck = r.sinceAck + 1) ∧
      ∀ axis seq phase shard chunk dest, exec (.control n f false [axis, seq, phase, shard, chunk, dest]) s =
        .next (t.collChecked axis seq ⟨phase, shard, chunk, dest⟩))) ∧
  (∀ (s : State) (n m k : Nat) (f : IfpFrame) (r : ConnRx) (w : Cmd), s.Sound → s.Comes n f → f.typ = 9 →
    s.connRx f.src f.cls = some r → r.epoch ≠ f.epoch → (s.connTx f.src f.cls).unacked = [] → s.cmdOf m = some w →
    w.phase = .waiting → w.aux = [3, f.src, k] → ∃ t, exec (.ifpAck n f false) s = .next t ∧
      t.Ended m (Outcome.aborted 0x0103) ∧ (∀ v ∈ t.tally.waiters, ∀ k, v.owner ≠ .watch f.src k) ∧ t.mem = s.mem) ∧
  (∀ (s : State) (n : Nat) (f : IfpFrame) (c : ConnTx), s.Sound → s.Comes n f → c = s.connTx f.src f.cls →
    (∀ r, s.connRx f.src f.cls = some r → r.epoch = f.epoch) →
    (f.typ = 9 → (c.seq + 2 ^ 32 - f.ack) % 2 ^ 32 < 2 ^ 31 → (∀ u ∈ c.unacked, u.purpose = .plain) →
      ∃ t, exec (.ifpAck n f false) s = .next t ∧ (t.connTx f.src f.cls).unacked = c.unacked.filter (fun u =>
        ! (decide ((f.ack + 2 ^ 32 - u.frame.seq) % 2 ^ 32 < 2 ^ 31) && decide (u.frame.seq ≠ f.ack))) ∧ t.cmd = s.cmd ∧
        t.mem = s.mem) ∧
    (∀ u, f.typ = 10 → c.unacked = [u] → u.frame.seq = f.ack → u.retries < s.retryLimit →
      ∃ t v, exec (.ifpNack n f false) s = .next t ∧ (t.connTx f.src f.cls).unacked = [v] ∧ v.frame.seq = f.ack ∧
        v.frame.retx = true ∧ v.frame.payload = u.frame.payload ∧ v.retries = u.retries + 1 ∧
        t.fld Reg.ifpCounters 63 32 = min (s.fld Reg.ifpCounters 63 32 + 1) (2 ^ 32 - 1) ∧ t.mem = s.mem) ∧
    (f.typ = 12 → c.unacked = [] → (c.cutYet = true → c.lastCut + 10 ≤ s.micros) →
      ∃ t, exec (.cnp n f false) s = .next t ∧ (t.connTx f.src f.cls).rate = max (c.rate * 7 / 8) 8 ∧
        (t.connTx f.src f.cls).lastCut = s.micros ∧ t.mem = s.mem)) ∧
  ∀ (s : State) (node cls : Nat) (c : ConnTx), s.Up → s.Sound → c = s.connTx node cls →
    (∀ r, s.connRx node cls = some r → 0 < r.sinceAck → ∃ t, exec (.ackTimer node cls) s = .next t ∧
      t.connRx node cls = some { r with sinceAck := 0, eceDue := false } ∧ t.mem = s.mem ∧ t.cmd = s.cmd) ∧
    (∀ u, c.unacked = [u] → u.sent = true → u.retries < s.retryLimit →
      ∃ t v, exec (.retransmissionTimeout node cls u.frame.seq) s = .next t ∧ (t.connTx node cls).unacked = [v] ∧
        v.frame.retx = true ∧ v.frame.seq = u.frame.seq ∧ v.retries = u.retries + 1 ∧ t.mem = s.mem) ∧
    (cls = 0 → s.routeGroup node = none → (∃ x ∈ s.fab.tx, x.node = node ∧ x.cls = cls) →
      (∀ u ∈ c.unacked, u.purpose = .plain) → s.coll.colls = [] → s.gradWaiters node = [] → s.ringWaiters node = [] →
      ∃ t, exec (.noRouteTimeout node cls) s = .next t ∧ (t.connTx node cls).unacked = [] ∧
        (t.connTx node cls).epoch = (c.epoch + 1) % 256 ∧ t.fld Reg.ifpLostNode 15 0 = node % 2 ^ 16 ∧
        t.fld Reg.ifpLostNode 31 16 = min (s.fld Reg.ifpLostNode 31 16 + 1) (2 ^ 16 - 1) ∧ t.mem = s.mem ∧ t.cmd = s.cmd) ∧
    (cls ≠ roceClass → (∃ x ∈ s.fab.tx, x.node = node ∧ x.cls = cls) → ∃ t, exec (.rateIncrease node cls) s = .next t ∧
      (t.connTx node cls).rate = min (c.rate + 16) (s.portRate node cls) ∧ t.regs = s.regs ∧ t.mem = s.mem)

/-! ### RoCEv2 and PTP -/

/-- Queue pairs and the clock (11 R303, R305 to R309). A SEND in its turn fills the next receive descriptor; an RDMA WRITE or
READ that a window permits is stored or served; an unsupported request is refused. The last response of a read, and the
acknowledgement of the last operation, end their command; a CNP cuts the rate; a timeout sends again. A context whose
STATE becomes 1 is ready. With PTP enabled on a port that is up, a Sync of a one-step master, or its Follow_Up, sets the
offset from the master and sends a Delay_Req (log 133), and its Delay_Resp sets the path delay. -/
def Obligations.QueuePairsAndClockFollow : Prop :=
  (∀ (s v : State) (i psn p : Nat) (q : QueuePair) (d : List Byte), s.Up → s.qp i = some q → p = fieldAt q.ctx 7 1 →
    p < 64 → s.fld (Reg.linkState p) 31 29 = 2 → 2 ≤ s.fld (Reg.linkCfg p) 31 30 → psn = q.rqPsn →
    v = s.updQp i (fun q => { q with nakSent := false }) →
    (∀ a desc u w, a = recvDescriptor q → desc = s.bytesAt a 16 → bit (fieldAt desc 12 4) 31 = 0 →
      0 < fieldAt desc 8 4 → d.length ≤ fieldAt desc 8 4 →
      u = (v.nextPsn i 1).roceStore i (2 * psn) (fieldAt desc 0 8) d →
      w = (u.updQp i fun q => { q with recvLen := 0, recvIdx := (q.recvIdx + 1) % 2 ^ fieldAt q.ctx 52 1 }).roceStore i
        (2 * psn + 1) (a + 12) (leBytes 4 (d.length % 2 ^ 31 + 2 ^ 31)) →
      exec (.send i psn 3 d false) s =
        .next (if bit (fieldAt q.ctx 53 1) 0 = 1 then w.tallyAdd (fieldAt q.ctx 54 2) 1 else w)) ∧
    (∀ va rk len, s.windowOk va len rk 0 = true → d.length ≤ len → exec (.rdmaWrite i psn 3 va rk len d false) s =
      .next (((v.updQp i fun q => { q with recvWrite := none }).nextPsn i 1).roceStore i (2 * psn + 1) va d)) ∧
    (∀ va rk len, s.windowOk va len rk 1 = true → exec (.rdmaReadRequest i psn va rk len false) s =
      .next ((v.nextPsn i (max 1 (ceilDiv len (mtuOf q)))).roceLoad i psn va len)) ∧
    exec (.nakInvalidRequest i psn) s = .next (s.rocePost (.nakInvalid i psn))) ∧
  (∀ (s : State) (i p : Nat) (q : QueuePair), s.Up → s.fab.qps = [q] → q.index = i → q.state = 1 →
    p = fieldAt q.ctx 7 1 → p < 64 → s.fld (Reg.linkState p) 31 29 = 2 → 2 ≤ s.fld (Reg.linkCfg p) 31 30 →
    (∀ u c d, q.unacked = [u] → u.2.1.isRead = true → s.cmdOf u.2.2 = some c → c.phase = .waiting → c.aux = [2] →
      c.opcode = 0x0204 → (c.buf ++ d).length = c.par 40 8 → 0 < c.par 40 8 →
      ∃ t, exec (.rdmaReadResponse i true d false) s = .next t ∧
        t.Ended u.2.2 (Outcome.ok (crc64 (c.buf ++ d) + c.par 40 8 * 2 ^ 64)) ∧ (∀ x ∈ t.fab.qps, x.unacked = []) ∧ t.mem = s.mem) ∧
    (∀ u c r, q.unacked = [u] → u.2.1.isRead = false → s.cmdOf u.2.2 = some c → c.phase = .waiting → c.aux = [1, r] →
      s.purposeOpen (.cmd u.2.2) = false → ∃ t, exec (.roceAcknowledge i u.1 0) s = .next t ∧
        t.Ended u.2.2 (Outcome.ok r) ∧ (∀ x ∈ t.fab.qps, x.unacked = []) ∧ t.mem = s.mem) ∧
    (∀ psn, (q.cutYet = true → q.lastCut + 10 ≤ s.micros) → ∃ t, exec (.roceAcknowledge i psn 5) s = .next t ∧
      (∀ x ∈ t.fab.qps, x.rate = max (q.rate * 7 / 8) 8 ∧ x.lastCut = s.micros) ∧ t.mem = s.mem ∧ t.regs = s.regs) ∧
    (∀ u, q.unacked = [u] → u.2.1.qp = i → q.retries < bits (fieldAt q.ctx 11 1) 2 0 → ∃ t, exec (.roceAckTimeout i) s = .next t ∧
      t.fab.roceOut = s.fab.roceOut ++ [u.2.1] ∧ (∀ x ∈ t.fab.qps, x.retries = q.retries + 1) ∧ t.mem = s.mem)) ∧
  (∀ (s : State) (i a : Nat), s.Up → s.Sound → i < s.qpCount → a = s.qpContext i + 2 → regionOf a = .hbm →
    s.memFault a 1 = none → s.Clean → s.unbackedPage (a / 4096) = false → s.qpIsReady i = false →
    ∃ t, exec (.qpReady i) s = .next t ∧ t.qpIsReady i = true ∧ t.byteAt a = 1 ∧
      (∀ b, b ≠ a → t.byteAt b = s.byteAt b) ∧ t.regs = s.regs ∧ t.tally = s.tally) ∧
  ∀ (s : State) (p tr dom seq : Nat) (corr : Int), s.Up → s.Sound → s.fld Reg.ptpCfg 31 31 = 1 →
    s.fld Reg.ptpCfg 7 0 = dom → s.fld Reg.ptpCfg 30 29 = tr → p = s.fld Reg.ptpCfg 13 8 →
    s.fld (Reg.linkState p) 31 29 = 2 → 2 ≤ s.fld (Reg.linkCfg p) 31 30 →
    (∀ at_ origin first i, i = Instr.ptpSync tr dom seq false origin corr ∧ at_ = s.fab.ptp.now / 1000 ∧ first = 0 ∨
        i = .followUp tr dom seq origin corr ∧ s.fab.ptp.pendingSync = some (seq, at_, first) →
      ∃ t, exec i s = .next t ∧ t.fab.ptp.pendingSync = none ∧
        t.fab.ptp.lastDiff = (at_ : Int) - (origin : Int) - (first + corr) ∧
        t.fld Reg.ptpStatus 29 0 = unsigned 30 ((at_ : Int) - (origin : Int) - (first + corr) - s.fab.ptp.pathDelay) ∧
        (200 < magnitude ((at_ : Int) - (origin : Int) - (first + corr) - s.fab.ptp.pathDelay) →
          t.fld Reg.ptpStatus 31 31 = 0) ∧
        t.fab.ptp.delayReq = some (s.fab.ptp.delaySeq, t.fab.ptp.now / 1000) ∧
        (∀ o, o ≠ Reg.ptpStatus → t.reg o = s.reg o) ∧ t.mem = s.mem ∧ t.time = s.time) ∧
    (∀ origin, exec (.ptpSync tr dom seq true origin corr) s = .next { s with
      fab := { s.fab with ptp := { s.fab.ptp with pendingSync := some (seq, s.fab.ptp.now / 1000, corr) } } }) ∧
    ∀ sent received : Nat, s.fab.ptp.delayReq = some (seq, sent) → exec (.ptpDelayResponse tr dom seq received corr) s =
      .next { s with fab := { s.fab with ptp := { s.fab.ptp with
        delayReq := none
        pathDelay := (s.fab.ptp.lastDiff + ((received : Int) - (sent : Int) - corr)) / 2 } } }

/-! ### The coherent link to the companion -/

/-- Requests and completions of the companion, and the link itself (15 R367 to R380), while the GCL is up. RD_NC, WR_NC and
WR_POSTED of this node are served at once where nothing of their line or page is pending, RD_NC of another node through the
fabric; behind a request that still waits they wait too (R376). RD_SHARED and RD_OWN grant a line, WR_BACK and EVICT_CLEAN
give it up; SNP_ACK and SNP_DATA end a snoop. CMP, CMP_DATA and ERR retire the request they answer. A flit that fails its
check is named in a NACK, a good one is taken in order and returns acknowledgement and credit; a NACK replays. A link that
goes DOWN retrains, or begins a full reset under JOINT; one that is lost is fatal, its exclusive lines poisoned.
GCL_IRQ_ACK acknowledges vectors, and a vector with a cause remembered is sent again. -/
def Obligations.CompanionMessagesTakePlace : Prop :=
  (∀ (s : State) (tag : Nat), s.Up → s.Sound → s.gclUp = true →
    (∀ a n u d, s.connBusy 0 gclClass = false → sizeOk a n = true → nodeOf a = s.node →
      s.stalledRange (localOf a) n = false → s.snoopOf (localOf a / 64) = none → s.serveLoad (localOf a) n = (u, .ok d) →
      exec (.rdNc tag a n) s = .next (u.gclSend (.cmpData tag 0 a d))) ∧
    (∀ a n, s.connBusy 0 gclClass = false → sizeOk a n = true → nodeOf a ≠ s.node → s.aliasQp (nodeOf a) = none →
      exec (.rdNc tag a n) s = .next (s.ifpRead (nodeOf a) a n (.gclRead tag))) ∧
    (∀ a d u, s.connBusy 0 gclClass = false → sizeOk a d.length = true → nodeOf a = s.node →
      s.stalledRange (localOf a) d.length = false → s.snoopOf (localOf a / 64) = none → s.serveStore (localOf a) d = (u, none) →
      (u.pwr.held = false → exec (.wrNc tag a d) s = .next (u.gclSend (.cmp tag))) ∧
      exec (.wrPosted a d) s = .next u) ∧
    (∀ a l g own u b, s.connBusy 0 gclClass = false → l = localOf a / 64 → s.coherent a = true → s.inDirectory (localOf a) = false →
      s.snoopOf l = none → s.dirOf l ≠ .excl → s.stalledRange (64 * l) 64 = false → s.serveLoad (64 * l) 64 = (u, .ok b) →
      g = (if own = true ∨ s.dirOf l = .inv then DirState.excl else .shared) →
      ∃ t, t = (u.setDir l g).gclSend (.cmpData tag (if g = .excl then 2 else 1) (s.node * 2 ^ 48 + 64 * l) b) ∧ t.dirOf l = g ∧
        exec (if own then .rdOwn tag a else .rdShared tag a) s = .next t) ∧
    (s.connBusy 0 gclClass = true → (∀ a n, exec (.rdNc tag a n) s = .next (s.stall (.read tag a n))) ∧
      (∀ a d, exec (.wrNc tag a d) s = .next (s.stall (.write (some tag) a d)) ∧
        exec (.wrPosted a d) s = .next (s.stall (.write none a d))) ∧
      ∀ a own, exec (if own then .rdOwn tag a else .rdShared tag a) s = .next (s.stall (.request own tag a))) ∧
    (∀ a d l u, l = localOf a / 64 → s.coherent a = true → s.dirOf l = .excl → s.lineWrite l d = (u, none) →
      ∃ t, t = (u.setDir l .inv).gclSend (.cmp tag) ∧ t.dirOf l = .inv ∧ exec (.wrBack tag a d) s = .next t) ∧
    (∀ a l, l = localOf a / 64 → s.coherent a = true → s.dirOf l ≠ .inv →
      ∃ t, t = (s.setDir l .inv).gclSend (.cmp tag) ∧ t.dirOf l = .inv ∧ exec (.evictClean tag a) s = .next t) ∧
    (∀ x, s.snoopTagged tag = some x → (x.work = [] → s.gcl.waiting = [] → s.mem.stalled = [] → ∃ t, exec (.snpAck tag) s = .next t ∧
        t.snoopOf x.line = none ∧ t.mem = s.mem ∧
        t.dirOf x.line = if x.inval = true ∨ s.dirOf x.line = .inv then DirState.inv else .shared) ∧
      ∀ d u, s.lineWrite x.line d = (u, none) → exec (.snpData tag d) s = .next (u.snoopDone x)) ∧
    (∀ n last, s.gclPurpose tag = some (.reply n last) →
      exec (.cmp tag) s = .next (((s.gclRetire tag).writeCompleted n last).fetchAll)) ∧
    (∀ r slot, s.gclPurpose tag = some (.fetch r slot) →
      (∀ code, exec (.err tag code) s = .next ((s.gclRetire tag).hostFault r)) ∧
      ∀ d, (s.gclRetire tag).fetchWanted r slot = true → exec (.cmpData tag d) s = .next (((s.gclRetire tag).updRing r
        fun x => { x with slots := (x.slots.filter fun y => y.1 ≠ slot) ++ [(slot, d.take 32)] }).fetchAll))) ∧
  (∀ s : State, s.Up → s.Sound → s.gclUp = true →
    (∀ seq, (∀ u ∈ s.gcl.unacked, seqBefore u.1 (seq % 1024) = false) → s.gcl.unacked ≠ [] → s.gcl.replayCount ≠ 15 →
      ∃ t, exec (.gclNackFlit seq) s = .next t ∧ t.gcl.resent = s.gcl.resent ++ s.gcl.unacked.map (·.1) ∧
        (∃ l, t.gcl.sent = s.gcl.sent ++ l ∧ l.length = s.gcl.unacked.length) ∧
        t.gcl.replayCount = s.gcl.replayCount + 1 ∧
        t.fld Reg.gclErr 31 16 = min (s.fld Reg.gclErr 31 16 + 1) (2 ^ 16 - 1) ∧ t.mem = s.mem) ∧
    (∀ b, b.length = 256 → (∀ d, (flitDecode b).1 = some d → crc32 (d.take 244) ≠ fieldAt d 244 4) →
      ∃ t, exec (.gclDataFlit b) s = .next t ∧ t.gcl.nacks = s.gcl.nacks ++ [s.gcl.seqRx] ∧ t.gcl.awaiting = true ∧
        (∃ b, t.gcl.sent = s.gcl.sent ++ [b]) ∧ t.mem = s.mem) ∧
    (∀ b d h, b.length = 256 → (flitDecode b).1 = some d → crc32 (d.take 244) = fieldAt d 244 4 → h = fieldAt d 0 4 →
      bits h 21 20 = 0 → bits h 9 0 = s.gcl.seqRx → s.gcl.queued = [] → s.gcl.partials = [] →
      (∀ i < 15, fieldAt ((d.drop (4 + 16 * i)).take 16) 0 1 = 0) → ∃ t, exec (.gclDataFlit b) s = .next t ∧
        t.gcl.seqRx = (s.gcl.seqRx + 1) % 1024 ∧ t.gcl.awaiting = false ∧
        t.gcl.unacked = s.gcl.unacked.filter (fun u => ! seqBefore u.1 (bits h 19 10)) ∧
        t.gcl.credits = s.gcl.credits.modify (bits h 23 22) (· + bits h 31 24) ∧
        (∃ l, l ≠ [] ∧ t.gcl.sent = s.gcl.sent ++ l) ∧
        t.fld Reg.gclErr 63 32 = min (s.fld Reg.gclErr 63 32 + (flitDecode b).2) (2 ^ 32 - 1) ∧ t.mem = s.mem) ∧
    (s.fld Reg.cdcRstmode 3 3 = 1 → exec (.gclDown false) s = .next (s.setFld Reg.gclState 31 29 1)) ∧
    (∀ x, s.fld Reg.cdcRstmode 3 3 = 0 → ∃ t, exec (.gclDown x) s = .next t ∧ t.pwr.held = true ∧
      t.fld Reg.resetCause 31 28 = 7) ∧
    (s.fld Reg.cdcRstmode 3 3 = 1 → s.gcl.snoops = [] → ∃ t, exec (.gclDown true) s = .next t ∧ t.isFatal = true ∧
      t.fld Reg.gclState 31 29 = 0 ∧ t.gcl.dir = [] ∧ (∀ l, (l, DirState.excl) ∈ s.gcl.dir → l ∈ t.mem.poison) ∧
      t.mem.bytes = s.mem.bytes)) ∧
  ∀ s : State, s.Up → s.Sound →
    (s.fld Reg.gclState 31 29 = 1 → (∀ x, ∃ t, exec (.gclRetrained x) s = .next t ∧ t.gclUp = true ∧
        t.fld Reg.gclErr 0 0 = 1 ∧ t.gcl.replayCount = 0 ∧ t.mem = s.mem) ∧
      (s.gcl.snoops = [] → ∃ t, exec .gclLossTimeout s = .next t ∧ t.isFatal = true ∧
        t.fld Reg.gclState 31 29 = 0 ∧ t.gcl.dir = [])) ∧
    ∀ v, ∃ t, exec (.gclIrqAck v) s = .next t ∧ t.mem = s.mem ∧ (∀ o, o ≠ Reg.gclIrqAck → t.reg o = s.reg o) ∧
      ∀ i < 17, bit (t.reg Reg.gclIrqAck) i =
        if bit v i = 1 ∧ s.gcl.irqMore.contains i = false then 0 else bit (s.reg Reg.gclIrqAck) i

/-! ### Security, the monitor, SMBus and JTAG -/

/-- The security commands (16 R395 to R397) with no earlier one unfinished: ATTEST and GET_CERTIFICATE write the signed
report and the certificate named; DEBUG_UNLOCK, STAGE_IMAGE and ACTIVATE_IMAGE take effect when their object holds. The
Colophon monitor (18 R432 to R434) answers each line, in its normal or recovery mode; a token that holds unlocks its scopes
and a fresh nonce is drawn. SMBus reads and writes one register (19 R446). An instruction of the TAP selects its data
register (18 R435). -/
def Obligations.SecurityAndConsoleAnswer : Prop :=
  (∀ (s u : State) (n : Nat) (c : Cmd) (d : List Byte),
    (s.earlier c fun d => decide (functionOf d.opcode = 13) && d.phase.unfinished) = false →
    (∀ a r i, s.Ready n 0x0E01 c ∧ a = c.par 64 8 ∧ d = signedReport c.buf ∧ r = 3741 ∧ i = Instr.attest n ∨
        s.Ready n 0x0E02 c ∧ a = c.par 40 8 ∧ r = certLen ∧ i = .getCertificate n ∧ (c.par 32 1, d) ∈
          [(0, s.deviceCert), (1, s.makerCert), (2, sized certLen s.boot.ownerCert)] →
      nodeOf a = s.node → s.rangeFault a d.length = none → s.rangeGate c [] [(localOf a, d.length)] = none →
      s.saveBytes (localOf a) d = (u, none) → exec i s = .next (u.finish n (Outcome.ok r))) ∧
    (∀ env a len, env.Quiet → s.Clean → a = c.par 32 8 → len = c.par 40 4 → nodeOf a = s.node →
      s.rangeFault a len = none → s.rangeGate c [(localOf a, len)] [] = none → s.loadBytes (localOf a) len = (u, .ok d) →
      (s.Ready n 0x0E03 c → len = tokenLen →
        (∀ t, u.unlock d = .ok t → exec (.debugUnlock n env) s = .next (t.finish n (Outcome.ok (t.fld Reg.secState 1 0)))) ∧
        ∀ o, u.unlock d = .error o → exec (.debugUnlock n env) s = .next (u.finish n o)) ∧
      (∀ k off, s.Ready n 0x0E04 c → k = c.par 44 1 → k = 1 ∨ k = 2 → 0 < len → len ≤ slotSize k → stageFault k d = none →
        off = slotOffset k (u.otherSlot k) → exec (.stageImage n env false) s =
          .next (((u.flashErase off (slotSize k)).flashPut off d).finish n (Outcome.ok d.length)))) ∧
    (s.Ready n 0x0E05 c → c.par 32 1 = 1 ∨ c.par 32 1 = 2 →
      (∀ t svn slot, s.activate (c.par 32 1) = .ok (t, svn, slot) → exec (.activateImage n false) s =
        .next (t.finish n (Outcome.ok (svn % 2 ^ 32 + slot * 2 ^ 32)))) ∧
      ∀ e, s.activate (c.par 32 1) = .error e → exec (.activateImage n false) s = .next (s.finish n (securityOutcome e)))) ∧
  (∀ s : State, s.Sound →
    (s.monitor ≠ .silent →
      exec .colophonId s = .next (s.reply (.ok [0x9400, 0xB0, if s.monitor = .recovery then 0 else s.reg Reg.deviceId,
        s.regView Reg.bootStatus])) ∧
      exec .colophonStatus s = .next (s.reply (.ok [s.regView Reg.bootStatus, s.regView Reg.cmdStatus,
        s.regView Reg.alarmState, s.regView Reg.resetCause])) ∧
      exec .colophonOverflow s = .next (s.reply (.err 5)) ∧
      ∃ t, exec .colophonReset s = .next t ∧ t.pwr.held = true ∧ t.fld Reg.resetCause 31 28 = 5 ∧
        t.obs.uart = [.ok []]) ∧
    (s.monitor = .normal → exec .colophonNonce s = .next (s.reply (.ok [s.reg Reg.unlockNonce])) ∧
      (∀ o, o.length = tokenLen → s.tokenFault o = none → ∃ t, exec (.colophonUnlock o) s = .next t ∧
        t.reg Reg.secState = s.reg Reg.secState ||| fieldAt (bodyOf o) 16 1 % 4 ∧
        t.reg Reg.unlockNonce = Config.freeNat s.freeCtr % 2 ^ 64 ∧
        (∀ r, r ≠ Reg.secState → r ≠ Reg.unlockNonce → t.reg r = s.reg r) ∧ t.mem = s.mem) ∧
      (∀ o, o.length = tokenLen → s.tokenFault o ≠ none → exec (.colophonUnlock o) s = .next (s.reply (.err 4))) ∧
      (s.locked = true → ∀ off, exec (.colophonRd off) s = .next (s.reply (.err 2)))) ∧
    (s.monitor = .normal → s.locked = false →
      (∀ off n, consoleSize off = some n →
        exec (.colophonRd off) s = .next ((s.readReg off n).2.reply (.ok [(s.readReg off n).1])) ∧
        ∀ v < 2 ^ (8 * n), exec (.colophonWr off v) s = .next ((s.regWrite off n v).reply (.ok []))) ∧
      (∀ a n u d, 0 < n → n ≤ 256 → rangeIn .hbm a n = true ∨ rangeIn .window a n = true →
        s.loadBytes a n = (u, .ok d) → exec (.colophonMr a n) s = .next (u.reply (.data d))) ∧
      exec .colophonProof s = .next { s with obs := { s.obs with due := s.obs.due ++ [4] } } ∧
      ∀ o n p, 0 < n → n ≤ 256 → o + n ≤ 0x1000000 → s.obs.image = some p →
        exec (.colophonPr o n) s = .next (s.reply (.data (imageSlice p o n)))) ∧
    (s.monitor = .recovery → ∀ k, k = 1 ∨ k = 2 →
      (∀ o d base, d.length ≤ 2048 → o + d.length ≤ slotSize k → base = slotOffset k (s.otherSlot k) →
        ∃ t, exec (.colophonLoad k o d false) s = .next t ∧ t.obs.uart = s.obs.uart ++ [.ok [d.length]] ∧
          (∀ j < d.length, Sparse.get flashDefault t.boot.flash (base + o + j) = d.getD j 0) ∧
          (∀ x, x < base ∨ base + slotSize k ≤ x →
            Sparse.get flashDefault t.boot.flash x = Sparse.get flashDefault s.boot.flash x) ∧ t.regs = s.regs) ∧
      ∀ t svn slot, s.activate k = .ok (t, svn, slot) →
        exec (.colophonActivate k false) s = .next (t.reply (.ok [svn, slot])))) ∧
  ∀ s : State, s.pwr.powered = true →
    (∀ off n, consoleSize off = some n →
      (∀ v : Word64, exec (.smbusBlockWrite off v) s = .next (s.regWrite off n (v.toNat % 2 ^ (8 * n)))) ∧
      (s.pwr.held = false ∨ isUnderstory off = true → exec (.smbusProcessCall off) s =
        .next ((s.readReg off n).2.smbReply 0 (s.readReg off n).1))) ∧
    (∀ i k v, (i, k, v) ∈ [(Instr.tapReset, 0x02, 0x19400B47), (.idcode, 0x02, 0x19400B47), (.bypass, 0xFF, 0),
        (.extest, 0x00, s.pwr.tap.sampled)] → ∃ t, exec i s = .next t ∧ t.tapCapture = v ∧
      t = { s with pwr := { s.pwr with tap := { s.pwr.tap with ir := k } } }) ∧
    ∀ pins cells, ∃ t, exec (.samplePreload pins cells) s = .next t ∧ t.tapCapture = pins ∧ t.pwr.tap.cells = cells ∧
      t.regs = s.regs ∧ t.mem = s.mem
end

