-- ==== Sys2Proof/Laws/Bits.lean ====
section
/-! SUPPORT. Bit fields and little-endian byte strings: what is read of a field after one was put, and that the bytes of a
number give it back. -/

set_option Elab.async false

namespace Sys2Proof.Machine

theorem bits_eq {v hi lo : Nat} : bits v hi lo = v / 2 ^ lo % 2 ^ (hi + 1 - lo) := by simp [bits, Nat.shiftRight_eq_div_pow]

theorem bits_lt {v hi lo : Nat} : bits v hi lo < 2 ^ (hi + 1 - lo) := Nat.mod_lt _ (Nat.two_pow_pos _)

theorem bit_lt {v i : Nat} : bit v i < 2 := Nat.mod_lt _ (by decide)

theorem bit_eq_bits {v i : Nat} : bit v i = bits v i i := by simp [bit, bits]

/-- A digit and a rest below its weight. -/
theorem digit_lt {a b m r : Nat} (h : a < m) (hr : r < b) : a * b + r < m * b := by
  have := Nat.mul_le_mul_right b h
  rw [Nat.succ_mul] at this
  omega

/-- A number cut at two places. -/
theorem cut_eq {v lo w : Nat} : v = v / 2 ^ (lo + w) * 2 ^ (lo + w) + v / 2 ^ lo % 2 ^ w * 2 ^ lo + v % 2 ^ lo := by
  have h1 := Nat.div_add_mod v (2 ^ lo)
  have h2 := Nat.div_add_mod (v / 2 ^ lo) (2 ^ w)
  have h3 : v / 2 ^ (lo + w) = v / 2 ^ lo / 2 ^ w := by rw [pow_add, Nat.div_div_eq_div_mul]
  rw [h3, pow_add]
  calc v = 2 ^ lo * (2 ^ w * (v / 2 ^ lo / 2 ^ w) + v / 2 ^ lo % 2 ^ w) + v % 2 ^ lo := by rw [h2, h1]
    _ = _ := by ring

theorem putBits_eq {v hi lo x : Nat} (h : lo ≤ hi) :
    putBits v hi lo x = v / 2 ^ (hi + 1) * 2 ^ (hi + 1) + x % 2 ^ (hi + 1 - lo) * 2 ^ lo + v % 2 ^ lo := by
  have e : lo + (hi + 1 - lo) = hi + 1 := by omega
  have c := cut_eq (v := v) (lo := lo) (w := hi + 1 - lo)
  rw [e] at c
  simp only [putBits, bits_eq]
  omega

/-- A word with a field put does not grow beyond its width. -/
theorem putBits_lt {v hi lo x w : Nat} (h : lo ≤ hi) (hw : hi < w) (hv : v < 2 ^ w) : putBits v hi lo x < 2 ^ w := by
  rw [putBits_eq h]
  have e1 : 2 ^ w = 2 ^ (w - (hi + 1)) * 2 ^ (hi + 1) := by rw [← pow_add]; congr 1; omega
  have e2 : 2 ^ (hi + 1) = 2 ^ (hi + 1 - lo) * 2 ^ lo := by rw [← pow_add]; congr 1; omega
  have h1 : v / 2 ^ (hi + 1) < 2 ^ (w - (hi + 1)) := by
    rw [Nat.div_lt_iff_lt_mul (Nat.two_pow_pos _), ← e1]; exact hv
  have h2 : x % 2 ^ (hi + 1 - lo) < 2 ^ (hi + 1 - lo) := Nat.mod_lt _ (Nat.two_pow_pos _)
  have h3 : v % 2 ^ lo < 2 ^ lo := Nat.mod_lt _ (Nat.two_pow_pos _)
  have h4 : x % 2 ^ (hi + 1 - lo) * 2 ^ lo + v % 2 ^ lo < 2 ^ (hi + 1) := by rw [e2]; exact digit_lt h2 h3
  rw [e1, Nat.add_assoc]
  exact digit_lt h1 h4

/-- The field just put. -/
theorem bits_putBits_same {v hi lo x : Nat} (h : lo ≤ hi) : bits (putBits v hi lo x) hi lo = x % 2 ^ (hi + 1 - lo) := by
  have e2 : 2 ^ (hi + 1) = 2 ^ lo * 2 ^ (hi + 1 - lo) := by rw [← pow_add]; congr 1; omega
  have h3 : v % 2 ^ lo < 2 ^ lo := Nat.mod_lt _ (Nat.two_pow_pos _)
  rw [bits_eq, putBits_eq h, e2]
  have : v / (2 ^ lo * 2 ^ (hi + 1 - lo)) * (2 ^ lo * 2 ^ (hi + 1 - lo)) + x % 2 ^ (hi + 1 - lo) * 2 ^ lo + v % 2 ^ lo =
      v % 2 ^ lo + 2 ^ lo * (v / (2 ^ lo * 2 ^ (hi + 1 - lo)) * 2 ^ (hi + 1 - lo) + x % 2 ^ (hi + 1 - lo)) := by ring
  rw [this, Nat.add_mul_div_left _ _ (Nat.two_pow_pos _), Nat.div_eq_of_lt h3, Nat.zero_add, Nat.mul_comm,
    Nat.mul_add_mod, Nat.mod_mod]

/-- A field above the one put. -/
theorem bits_putBits_above {v hi lo x b a : Nat} (h : lo ≤ hi) (ha : hi < a) :
    bits (putBits v hi lo x) b a = bits v b a := by
  have e : 2 ^ a = 2 ^ (hi + 1) * 2 ^ (a - (hi + 1)) := by rw [← pow_add]; congr 1; omega
  have hd : putBits v hi lo x / 2 ^ (hi + 1) = v / 2 ^ (hi + 1) := by
    rw [putBits_eq h]
    have e2 : 2 ^ (hi + 1) = 2 ^ (hi + 1 - lo) * 2 ^ lo := by rw [← pow_add]; congr 1; omega
    have h2 : x % 2 ^ (hi + 1 - lo) < 2 ^ (hi + 1 - lo) := Nat.mod_lt _ (Nat.two_pow_pos _)
    have h3 : v % 2 ^ lo < 2 ^ lo := Nat.mod_lt _ (Nat.two_pow_pos _)
    have h4 : x % 2 ^ (hi + 1 - lo) * 2 ^ lo + v % 2 ^ lo < 2 ^ (hi + 1) := by rw [e2]; exact digit_lt h2 h3
    rw [Nat.add_assoc, Nat.mul_comm, Nat.mul_add_div (Nat.two_pow_pos _), Nat.div_eq_of_lt h4, Nat.add_zero]
  rw [bits_eq, bits_eq, e, ← Nat.div_div_eq_div_mul, ← Nat.div_div_eq_div_mul, hd]

/-- A field below the one put. -/
theorem bits_putBits_below {v hi lo x b a : Nat} (h : lo ≤ hi) (hb : b < lo) (hab : a ≤ b) :
    bits (putBits v hi lo x) b a = bits v b a := by
  have hm : putBits v hi lo x % 2 ^ (b + 1) = v % 2 ^ (b + 1) := by
    have e1 : 2 ^ (hi + 1) = 2 ^ (b + 1) * 2 ^ (hi - b) := by rw [← pow_add]; congr 1; omega
    have e2 : 2 ^ lo = 2 ^ (b + 1) * 2 ^ (lo - (b + 1)) := by rw [← pow_add]; congr 1; omega
    have e3 : v % 2 ^ lo % 2 ^ (b + 1) = v % 2 ^ (b + 1) := Nat.mod_mod_of_dvd _ (by rw [e2]; exact Nat.dvd_mul_right _ _)
    have : putBits v hi lo x = 2 ^ (b + 1) * (v / 2 ^ (hi + 1) * 2 ^ (hi - b) +
        x % 2 ^ (hi + 1 - lo) * 2 ^ (lo - (b + 1))) + v % 2 ^ lo := by
      rw [putBits_eq h]
      generalize v / 2 ^ (hi + 1) = p
      generalize x % 2 ^ (hi + 1 - lo) = r
      rw [e1]
      conv_lhs => rw [show r * 2 ^ lo = r * (2 ^ (b + 1) * 2 ^ (lo - (b + 1))) by rw [← e2]]
      ring
    rw [this, Nat.mul_add_mod, e3]
  have k : ∀ y : Nat, bits y b a = y % 2 ^ (b + 1) / 2 ^ a := by
    intro y
    have e : 2 ^ (b + 1) = 2 ^ a * 2 ^ (b + 1 - a) := by rw [← pow_add]; congr 1; omega
    rw [bits_eq, e, Nat.mod_mul_right_div_self]
  rw [k, k, hm]

/-! ### Byte strings -/

@[simp] theorem leBytes_length {n v : Nat} : (leBytes n v).length = n := by
  induction n generalizing v with
  | zero => rfl
  | succ n ih => simp [leBytes, ih]

theorem leNat_lt {l : List Byte} : leNat l < 2 ^ (8 * l.length) := by
  induction l with
  | nil => simp [leNat]
  | cons b l ih =>
    simp only [leNat, List.length_cons]
    have := b.isLt
    rw [show 8 * (l.length + 1) = 8 * l.length + 8 by ring, pow_add]
    omega

/-- The bytes of a number give it back, in as many bits. -/
theorem leNat_leBytes {n v : Nat} : leNat (leBytes n v) = v % 2 ^ (8 * n) := by
  induction n generalizing v with
  | zero => simp [leBytes, leNat, Nat.mod_one]
  | succ n ih =>
    simp only [leBytes, leNat, ih, BitVec.toNat_ofNat]
    rw [show 8 * (n + 1) = 8 + 8 * n by ring, pow_add, Nat.mod_mul]; rfl

/-- A number gives back the bytes it was read from. -/
theorem leBytes_leNat {l : List Byte} : leBytes l.length (leNat l) = l := by
  induction l with
  | nil => rfl
  | cons b l ih =>
    have := b.isLt
    simp only [List.length_cons, leBytes, leNat]
    rw [show (b.toNat + 256 * leNat l) / 256 = leNat l by omega, ih]
    congr 1
    apply BitVec.eq_of_toNat_eq
    rw [BitVec.toNat_ofNat]
    omega

end Sys2Proof.Machine
end

