-- ==== Sys2Proof/Laws/Sparse.lean ====
section
/-! SUPPORT. The laws of sparse maps: a key set reads as what it was set to, every other key as before, and every
operation keeps the canonical form. -/

set_option Elab.async false

namespace Sys2Proof.Machine

variable {α : Type}

/-- Every key of a list is above a bound. -/
def Sparse.Above (b : Nat) (l : List (Nat × α)) : Prop := ∀ e ∈ l, b < e.1

theorem Sparse.above_drop {b k : Nat} {l : List (Nat × α)} (h : Sparse.Above b l) : Sparse.Above b (Sparse.drop k l) := by
  induction l with
  | nil => simpa [Sparse.drop] using h
  | cons x l ih =>
    obtain ⟨j, u⟩ := x
    simp only [Sparse.Above, List.mem_cons, forall_eq_or_imp] at h
    simp only [Sparse.drop]
    split
    · exact h.2
    · simp only [Sparse.Above, List.mem_cons, forall_eq_or_imp]; exact ⟨h.1, ih h.2⟩

theorem Sparse.above_put {b k : Nat} {v : α} {l : List (Nat × α)} (hb : b < k) (h : Sparse.Above b l) :
    Sparse.Above b (Sparse.put k v l) := by
  induction l with
  | nil => simpa [Sparse.Above, Sparse.put] using hb
  | cons x l ih =>
    obtain ⟨j, u⟩ := x
    simp only [Sparse.Above, List.mem_cons, forall_eq_or_imp] at h
    simp only [Sparse.put]
    split
    · simp only [Sparse.Above, List.mem_cons, forall_eq_or_imp]; exact ⟨hb, h⟩
    · split
      · simp only [Sparse.Above, List.mem_cons, forall_eq_or_imp]; exact ⟨hb, h.2⟩
      · simp only [Sparse.Above, List.mem_cons, forall_eq_or_imp]; exact ⟨h.1, ih h.2⟩

/-- The canonical form, on a list with a first entry. -/
theorem Sparse.wf_cons [DecidableEq α] {d : Nat → α} {j : Nat} {u : α} {l : List (Nat × α)} :
    Sparse.wf d ((j, u) :: l) = true ↔ Sparse.Above j l ∧ u ≠ d j ∧ Sparse.wf d l = true := by
  simp only [Sparse.wf, List.pairwise_cons, List.all_cons, Bool.and_eq_true, decide_eq_true_eq, Sparse.Above]
  tauto

@[simp] theorem Sparse.wf_nil [DecidableEq α] {d : Nat → α} : Sparse.wf d ([] : List (Nat × α)) = true := by
  simp [Sparse.wf]

theorem Sparse.drop_wf [DecidableEq α] {d : Nat → α} {k : Nat} {l : List (Nat × α)} (h : Sparse.wf d l = true) :
    Sparse.wf d (Sparse.drop k l) = true := by
  induction l with
  | nil => exact h
  | cons x l ih =>
    obtain ⟨j, u⟩ := x
    rw [Sparse.wf_cons] at h
    simp only [Sparse.drop]
    split
    · exact h.2.2
    · rw [Sparse.wf_cons]; exact ⟨Sparse.above_drop h.1, h.2.1, ih h.2.2⟩

theorem Sparse.put_wf [DecidableEq α] {d : Nat → α} {k : Nat} {v : α} {l : List (Nat × α)} (hv : v ≠ d k)
    (h : Sparse.wf d l = true) : Sparse.wf d (Sparse.put k v l) = true := by
  induction l with
  | nil => simp only [Sparse.put]; rw [Sparse.wf_cons]; exact ⟨by simp [Sparse.Above], hv, Sparse.wf_nil⟩
  | cons x l ih =>
    obtain ⟨j, u⟩ := x
    have h' := h
    rw [Sparse.wf_cons] at h'
    simp only [Sparse.put]
    split
    · rename_i hkj
      rw [Sparse.wf_cons]
      refine ⟨?_, hv, h⟩
      simp only [Sparse.Above, List.mem_cons, forall_eq_or_imp]
      exact ⟨hkj, fun e he => lt_trans hkj (h'.1 e he)⟩
    · split
      · rename_i hkj; subst hkj; rw [Sparse.wf_cons]; exact ⟨h'.1, hv, h'.2.2⟩
      · rw [Sparse.wf_cons]; exact ⟨Sparse.above_put (by omega) h'.1, h'.2.1, ih h'.2.2⟩

/-- Setting a key keeps the canonical form. -/
theorem Sparse.set_wf [DecidableEq α] {d : Nat → α} {k : Nat} {v : α} {l : List (Nat × α)} (h : Sparse.wf d l = true) :
    Sparse.wf d (Sparse.set d l k v) = true := by
  unfold Sparse.set
  split
  · exact Sparse.drop_wf h
  · exact Sparse.put_wf ‹_› h

/-- Setting consecutive keys keeps the canonical form. -/
theorem Sparse.setMany_wf [DecidableEq α] {d : Nat → α} {vs : List α} :
    ∀ {l : List (Nat × α)} {k : Nat}, Sparse.wf d l = true → Sparse.wf d (Sparse.setMany d l k vs) = true := by
  induction vs with
  | nil => intro l k h; exact h
  | cons v vs ih => intro l k h; exact ih (Sparse.set_wf h)

/-- Entries left out keep the canonical form. -/
theorem Sparse.filter_wf [DecidableEq α] {d : Nat → α} {p : Nat × α → Bool} {l : List (Nat × α)}
    (h : Sparse.wf d l = true) : Sparse.wf d (l.filter p) = true := by
  simp only [Sparse.wf, Bool.and_eq_true, decide_eq_true_eq, List.all_eq_true] at h ⊢
  exact ⟨h.1.filter p, fun x hx => h.2 x (List.mem_filter.1 hx).1⟩

theorem Sparse.get_of_above {d : Nat → α} {k : Nat} {l : List (Nat × α)} (h : Sparse.Above k l) :
    Sparse.get d l k = d k := by
  induction l with
  | nil => rfl
  | cons x l ih =>
    obtain ⟨j, u⟩ := x
    simp only [Sparse.Above, List.mem_cons, forall_eq_or_imp] at h
    simp only [Sparse.get]
    rw [if_neg (by omega)]
    exact ih h.2

theorem Sparse.get_drop_other {d : Nat → α} {k i : Nat} {l : List (Nat × α)} (h : i ≠ k) :
    Sparse.get d (Sparse.drop k l) i = Sparse.get d l i := by
  induction l with
  | nil => rfl
  | cons x l ih =>
    obtain ⟨j, u⟩ := x
    simp only [Sparse.drop, Sparse.get]
    split
    · rename_i hj; subst hj; rw [if_neg (Ne.symm h)]
    · simp only [Sparse.get, ih]

theorem Sparse.get_put {d : Nat → α} {k i : Nat} {v : α} {l : List (Nat × α)} :
    Sparse.get d (Sparse.put k v l) i = if i = k then v else Sparse.get d l i := by
  induction l with
  | nil => simp only [Sparse.put, Sparse.get, eq_comm]
  | cons x l ih =>
    obtain ⟨j, u⟩ := x
    simp only [Sparse.put]
    split
    · simp only [Sparse.get, eq_comm]
    · split
      · rename_i hkj; subst hkj
        simp only [Sparse.get, eq_comm]
        split <;> rfl
      · rename_i h1 h2
        simp only [Sparse.get, ih]
        split
        · rename_i hji; subst hji; rw [if_neg (Ne.symm h2)]
        · rfl

/-- What a key reads as after a key is set. -/
theorem Sparse.get_set [DecidableEq α] {d : Nat → α} {k i : Nat} {v : α} {l : List (Nat × α)} (h : Sparse.wf d l = true) :
    Sparse.get d (Sparse.set d l k v) i = if i = k then v else Sparse.get d l i := by
  unfold Sparse.set
  split
  · rename_i hv
    split
    · rename_i hi
      subst hi
      rw [hv]
      clear hv
      induction l with
      | nil => rfl
      | cons x l ih =>
        obtain ⟨j, u⟩ := x
        rw [Sparse.wf_cons] at h
        simp only [Sparse.drop]
        split
        · rename_i hj; subst hj; exact Sparse.get_of_above h.1
        · rename_i hj; simp only [Sparse.get]; rw [if_neg hj]; exact ih h.2.2
    · rename_i hi; exact Sparse.get_drop_other hi
  · exact Sparse.get_put

/-- A key that is set reads as what it was set to. -/
theorem Sparse.get_set_same [DecidableEq α] {d : Nat → α} {k : Nat} {v : α} {l : List (Nat × α)}
    (h : Sparse.wf d l = true) : Sparse.get d (Sparse.set d l k v) k = v := by rw [Sparse.get_set h, if_pos rfl]

/-- Every other key reads as before. -/
theorem Sparse.get_set_other [DecidableEq α] {d : Nat → α} {k i : Nat} {v : α} {l : List (Nat × α)} (h : i ≠ k) :
    Sparse.get d (Sparse.set d l k v) i = Sparse.get d l i := by
  unfold Sparse.set
  split
  · exact Sparse.get_drop_other h
  · rw [Sparse.get_put, if_neg h]

/-- What a key reads as after consecutive keys are set. -/
theorem Sparse.get_setMany [DecidableEq α] {d : Nat → α} {vs : List α} :
    ∀ {l : List (Nat × α)} {k i : Nat}, Sparse.wf d l = true →
      Sparse.get d (Sparse.setMany d l k vs) i =
        if k ≤ i ∧ i < k + vs.length then vs.getD (i - k) (d i) else Sparse.get d l i := by
  induction vs with
  | nil => intro l k i h; simp [Sparse.setMany]
  | cons v vs ih =>
    intro l k i h
    simp only [Sparse.setMany]
    rw [ih (Sparse.set_wf h), Sparse.get_set h]
    simp only [List.length_cons]
    by_cases hik : i = k
    · subst hik
      rw [if_neg (by omega), if_pos rfl, if_pos (by omega)]
      simp
    · rw [if_neg hik]
      by_cases hr : k + 1 ≤ i ∧ i < k + 1 + vs.length
      · rw [if_pos hr, if_pos (by omega)]
        obtain ⟨m, rfl⟩ : ∃ m, i = k + 1 + m := ⟨i - (k + 1), by omega⟩
        rw [show k + 1 + m - (k + 1) = m by omega, show k + 1 + m - k = m + 1 by omega]
        simp
      · rw [if_neg hr, if_neg (by omega)]

end Sys2Proof.Machine
end

