-- ==== Sys2Proof/Laws/Calm.lean ====
section
/-! SUPPORT. How the commands of the compute groups leave the rest of the machine as it is (`Calm`): the primitive updates.
The lemmas of the operations built from them follow in Laws/Calm. -/

set_option Elab.async false

namespace Sys2Proof.Machine

variable {n : Nat} {r s t : State}

theorem ArithReg.flags {k a : Nat} : ArithReg (Reg.arrayFlags k a) := .inl ⟨k, a, .inl rfl⟩
theorem ArithReg.counts {k a : Nat} : ArithReg (Reg.arrayCount k a) := .inl ⟨k, a, .inr rfl⟩
theorem ArithReg.engine {k : Nat} : ArithReg (Reg.vectorFlags k) := .inr (.inl ⟨k, rfl⟩)
theorem ArithReg.draws {k : Nat} : ArithReg (Reg.genDraws k) := .inr (.inr (.inl ⟨k, rfl⟩))
theorem ArithReg.generators {k : Nat} : ArithReg (Reg.genState k) := .inr (.inr (.inr (.inl ⟨k, rfl⟩)))
theorem ArithReg.emptyRows : ArithReg Reg.attnEmptyRows := .inr (.inr (.inr (.inr (.inl rfl))))
theorem ArithReg.marginState : ArithReg Reg.marginState := .inr (.inr (.inr (.inr (.inr (.inl rfl)))))
theorem ArithReg.marginCount : ArithReg Reg.marginCount := .inr (.inr (.inr (.inr (.inr (.inr rfl)))))

theorem RestKept.refl (s : State) : RestKept n s s :=
  ⟨rfl, rfl, rfl, rfl, rfl, rfl, rfl, rfl, rfl, rfl, rfl, rfl, rfl, rfl, rfl, rfl, fun _ _ => rfl, fun _ _ => rfl⟩

theorem Calm.refl (s : State) : Calm n s s := fun _ _ => RestKept.refl s

/-- An update that leaves what `Calm` speaks of as it is. -/
theorem Calm.upd {r s : State} {fr mem tens core obs} (h : Calm n r s) (hb : mem.bytes = s.mem.bytes)
    (hp : mem.poison = s.mem.poison) (hf : mem.flaws = s.mem.flaws := by rfl) :
    Calm n r ⟨s.pending, fr, s.regs, s.time, s.node, mem, s.cmd, s.tally, s.gcl, s.fab, tens, s.imp, core, s.attn, s.coll,
      s.feed, s.boot, s.pwr, obs⟩ := fun x y =>
  have h := h x y
  ⟨h.pending, h.time, h.node, hb.trans h.bytes, hp.trans h.poison, hf.trans h.flaws, h.rings, h.resetPhase, h.tally, h.gcl,
    h.fab, h.imp, h.attn, h.coll, h.feed, h.boot_pwr, h.regs, h.others⟩

/-- A write of memory takes nothing from a poison that is empty. -/
theorem State.clearPoison_calm {a k : Nat} (h : Calm n r s) : Calm n r (s.clearPoison a k) := fun x y =>
  have h := h x y
  ⟨h.pending, h.time, h.node, h.bytes, by simp [State.clearPoison, h.poison, x], by simp [State.clearPoison, h.flaws, y],
    h.rings, h.resetPhase, h.tally, h.gcl, h.fab, h.imp, h.attn, h.coll, h.feed, h.boot_pwr, h.regs, h.others⟩

theorem State.setReg_calm {off v : Nat} (ho : ArithReg off) (h : Calm n r s) : Calm n r (s.setReg off v) := fun x y =>
  have h := h x y
  ⟨h.pending, h.time, h.node, h.bytes, h.poison, h.flaws, h.rings, h.resetPhase, h.tally, h.gcl, h.fab, h.imp,
    h.attn, h.coll, h.feed, h.boot_pwr, fun o ho' => by
      have hne : o ≠ off := fun e => ho' (e ▸ ho)
      rw [← h.regs o ho']
      simp only [State.reg, State.setReg, Sparse.get_set_other hne], h.others⟩

theorem State.updCmd_calm {m : Nat} {f : Cmd → Cmd} (hm : m = n) (hf : ∀ c, (f c).id = c.id) (h : Calm n r s) :
    Calm n r (s.updCmd m f) := fun x y =>
  have h := h x y
  ⟨h.pending, h.time, h.node, h.bytes, h.poison, h.flaws, h.rings, h.resetPhase, h.tally, h.gcl, h.fab, h.imp,
    h.attn, h.coll, h.feed, h.boot_pwr, h.regs, fun k hk => by
      rw [← h.others k hk]
      subst hm
      simp only [State.cmdOf, State.updCmd, List.find?_map]
      have : ((fun c : Cmd => decide (c.id = k)) ∘ fun c => if c.id = m then f c else c) = fun c => decide (c.id = k) := by
        funext c
        simp only [Function.comp]
        split <;> simp [hf]
      rw [this]
      cases e : List.find? (fun c => decide (c.id = k)) s.cmd.cmds with
      | none => rfl
      | some c =>
        have hc : c.id = k := by simpa using List.find?_some e
        simp [hc, hk]⟩

theorem State.finish_calm {m : Nat} {o : Outcome} (hm : m = n) (h : Calm n r s) : Calm n r (s.finish m o) :=
  State.updCmd_calm hm (fun _ => rfl) h

theorem State.park_calm {m : Nat} {a : List Nat} (hm : m = n) (h : Calm n r s) : Calm n r (s.park m a) :=
  State.updCmd_calm hm (fun _ => rfl) h

theorem State.onImposition_calm {c : Cmd} {f : State → State} (h : Calm n r s)
    (hf : ∀ k u, Calm n k u → Calm n k (f u)) : Calm n r (s.onImposition c f) := by
  unfold State.onImposition
  split
  · exact hf _ _ h
  · split
    · rename_i d _ _
      intro x y
      have h := h x y
      have g := hf _ _ (Calm.refl { s with imp := { s.imp with cur := some d.imp, carriers := d.carriers } })
        (h.poison.trans x) (h.flaws.trans y)
      exact ⟨g.pending.trans h.pending, g.time.trans h.time, g.node.trans h.node, g.bytes.trans h.bytes,
        g.poison.trans h.poison, g.flaws.trans h.flaws, g.rings.trans h.rings, g.resetPhase.trans h.resetPhase,
        g.tally.trans h.tally, g.gcl.trans h.gcl, g.fab.trans h.fab, by rw [← h.imp]; simp [g.imp], g.attn.trans h.attn,
        g.coll.trans h.coll, g.feed.trans h.feed, g.boot_pwr.trans h.boot_pwr,
        fun o ho => (g.regs o ho).trans (h.regs o ho), fun m hm => (g.others m hm).trans (h.others m hm)⟩
    · exact hf _ _ h

theorem State.cmdOf_id {c : Cmd} (h : s.cmdOf n = some c) : c.id = n := by simpa using List.find?_some h

theorem State.dispatched_id {c : Cmd} {op : Nat} (h : s.dispatched n op = some c) : c.id = n ∧ c.opcode = op := by
  unfold State.dispatched at h
  split at h
  · split at h
    · rename_i h1 h2
      cases h
      exact ⟨State.cmdOf_id h1, h2.2⟩
    · cases h
  · cases h

theorem State.runCmd_calm {op : Nat} {f : Cmd → State → State} (h : Calm n r s)
    (hf : ∀ k c u, c.id = n → c.opcode = op → Calm n k u → Calm n k (f c u)) : Calm n r (s.runCmd n op f) := by
  unfold State.runCmd
  split
  · split
    · exact State.onImposition_calm h fun k u hu =>
        have hd := State.dispatched_id (by assumption)
        hf k _ u hd.1 hd.2 hu
    · exact h
  · exact h

theorem State.work_calm {op : Nat} {f : Cmd → State → State} (h : Calm n r s)
    (hf : ∀ k c u, c.id = n → c.opcode = op → Calm n k u → Calm n k (f c u)) : Calm n r (s.work n op f) := by
  refine State.runCmd_calm h fun k c u hc ho hu => ?_
  split
  · exact State.park_calm hc hu
  · split
    · exact State.finish_calm hc hu
    · exact hf k c u hc ho hu

/-! ### Folds, and results taken apart -/

theorem Calm.ite {c : Prop} [Decidable c] (h : Calm n r s) (h' : Calm n r t) : Calm n r (if c then s else t) := by
  split <;> assumption

theorem Calm.ite_fst {α : Type} {c : Prop} [Decidable c] {x y : State × α} (h : Calm n r x.1) (h' : Calm n r y.1) :
    Calm n r (if c then x else y).1 := by split <;> assumption

theorem Calm.ite_snd {α : Type} {c : Prop} [Decidable c] {x y : α × State} (h : Calm n r x.2) (h' : Calm n r y.2) :
    Calm n r (if c then x else y).2 := by split <;> assumption

theorem Calm.ite_proj {α : Type} {π : α → State} {c : Prop} [Decidable c] {x y : α} (h : Calm n r (π x))
    (h' : Calm n r (π y)) : Calm n r (π (if c then x else y)) := by split <;> assumption

theorem Calm.foldl_proj {α β : Type} {π : β → State} {l : List α} {f : β → α → β} {x : β} (h : Calm n r (π x))
    (hf : ∀ u a, Calm n r (π u) → Calm n r (π (f u a))) : Calm n r (π (l.foldl f x)) := by
  induction l generalizing x with
  | nil => exact h
  | cons a l ih => exact ih (hf x a h)

theorem Calm.foldl {α : Type} {l : List α} {f : State → α → State} (h : Calm n r s)
    (hf : ∀ u a, Calm n r u → Calm n r (f u a)) : Calm n r (l.foldl f s) := by
  induction l generalizing s with
  | nil => exact h
  | cons a l ih => exact ih (hf s a h)

theorem Calm.foldl_fst {α β : Type} {l : List α} {f : State × β → α → State × β} {x : State × β} (h : Calm n r x.1)
    (hf : ∀ u a, Calm n r u.1 → Calm n r (f u a).1) : Calm n r (l.foldl f x).1 := by
  induction l generalizing x with
  | nil => exact h
  | cons a l ih => exact ih (hf x a h)

theorem Calm.foldl_snd {α β : Type} {l : List α} {f : β × State → α → β × State} {x : β × State} (h : Calm n r x.2)
    (hf : ∀ u a, Calm n r u.2 → Calm n r (f u a).2) : Calm n r (l.foldl f x).2 := by
  induction l generalizing x with
  | nil => exact h
  | cons a l ih => exact ih (hf x a h)

theorem Calm.foldl_some {α β : Type} {P : β → Prop} {l : List α} {f : Option β → α → Option β} {x : Option β}
    (h : ∀ v, x = some v → P v) (hf : ∀ u a, (∀ v, u = some v → P v) → ∀ v, f u a = some v → P v) :
    ∀ v, l.foldl f x = some v → P v := by
  induction l generalizing x with
  | nil => exact h
  | cons a l ih => exact ih (hf x a h)

theorem Calm.of_fst {α : Type} {p : State × α} {a : α} (e : p = (s, a)) (h : Calm n r p.1) : Calm n r s := by
  subst e; exact h

theorem Calm.of_snd {α : Type} {p : α × State} {a : α} (e : p = (a, s)) (h : Calm n r p.2) : Calm n r s := by
  subst e; exact h

theorem Calm.of_some {o : Option State} (e : o = some s) (h : ∀ v, o = some v → Calm n r v) : Calm n r s := h s e

theorem Calm.of_ok {ε : Type} {o : Except ε State} (e : o = .ok s) (h : ∀ v, o = .ok v → Calm n r v) : Calm n r s := h s e

theorem Calm.bind_some {α β : Type} {P : β → Prop} {o : Option α} {f : α → Option β}
    (h : ∀ a, o = some a → ∀ v, f a = some v → P v) : ∀ v, o.bind f = some v → P v := by
  cases o with
  | none => intro v e; cases e
  | some a => exact h a rfl

theorem Calm.some_intro {α : Type} {P : α → Prop} {a : α} (h : P a) : ∀ v, some a = some v → P v := by
  intro v e; cases e; exact h

theorem Calm.none_intro {α : Type} {P : α → Prop} : ∀ v, (none : Option α) = some v → P v := by intro v e; cases e

theorem Calm.ok_intro {ε α : Type} {P : α → Prop} {a : α} (h : P a) : ∀ v, (Except.ok a : Except ε α) = .ok v → P v := by
  intro v e; cases e; exact h

theorem Calm.error_intro {ε α : Type} {P : α → Prop} {x : ε} : ∀ v, (Except.error x : Except ε α) = .ok v → P v := by
  intro v e; cases e

theorem Calm.next_intro {φ ρ : Type} (h : Calm n r s) :
    ∀ v, (Host.Outcome.next s : Host.Outcome State φ ρ) = .next v → Calm n r v := by intro v e; cases e; exact h

theorem Calm.of_some_edit {o : Option EditSt} {e : EditSt} (x : o = some e) (h : ∀ v, o = some v → Calm n r v.s) :
    Calm n r e.s := h _ x

theorem Calm.of_some_edit_fst {α : Type} {o : Option (EditSt × α)} {e : EditSt} {a : α} (x : o = some (e, a))
    (h : ∀ v, o = some v → Calm n r v.1.s) : Calm n r e.s := h _ x

theorem Calm.of_some_edit_snd {α : Type} {o : Option (α × EditSt)} {e : EditSt} {a : α} (x : o = some (a, e))
    (h : ∀ v, o = some v → Calm n r v.2.s) : Calm n r e.s := h _ x

theorem Calm.of_some_fst {α : Type} {o : Option (State × α)} {a : α} (e : o = some (s, a))
    (h : ∀ v, o = some v → Calm n r v.1) : Calm n r s := h _ e

theorem Calm.of_some_snd {α : Type} {o : Option (α × State)} {a : α} (e : o = some (a, s))
    (h : ∀ v, o = some v → Calm n r v.2) : Calm n r s := h _ e

theorem Calm.of_ok_fst {ε α : Type} {o : Except ε (State × α)} {a : α} (e : o = .ok (s, a))
    (h : ∀ v, o = .ok v → Calm n r v.1) : Calm n r s := h _ e

/-! ### Flags, and the end of a command -/

theorem State.setFld_calm {off hi lo x : Nat} (ho : ArithReg off) (h : Calm n r s) : Calm n r (s.setFld off hi lo x) :=
  State.setReg_calm ho h

theorem State.addWrap_calm {off hi lo x : Nat} (ho : ArithReg off) (h : Calm n r s) : Calm n r (s.addWrap off hi lo x) :=
  State.setReg_calm ho h

theorem State.addSat_calm {off hi lo x : Nat} (ho : ArithReg off) (h : Calm n r s) : Calm n r (s.addSat off hi lo x) :=
  State.setReg_calm ho h

theorem State.free_calm (h : Calm n r s) : Calm n r s.free.2 := Calm.upd h rfl rfl

theorem State.raiseFlag_calm {places : List Nat} {i : Nat} (hp : ∀ p ∈ places, ArithReg p) (h : Calm n r s) :
    Calm n r (s.raiseFlag places i) := by
  unfold State.raiseFlag
  have key : ∀ (l : List (Nat × Nat)) (g : State → Nat × Nat → Prop) [∀ t p, Decidable (g t p)] (t : State),
      (∀ p ∈ l, ArithReg p.1) → Calm n r t →
      Calm n r (l.foldl (fun t p => if g t p then t.setReg p.1 (putBits (t.reg p.1) i i 1) else t) t) := by
    intro l g _
    induction l with
    | nil => intro t _ ht; exact ht
    | cons x l ih =>
      intro t hl ht
      refine ih _ (fun p hp => hl p (List.mem_cons_of_mem _ hp)) ?_
      beta_reduce
      split
      · exact State.setReg_calm (hl x List.mem_cons_self) ht
      · exact ht
  exact key _ (fun t p => (p.2 = s.free.1 % places.length ∨ bit s.free.2.free.1 p.2 = 1) ∧ t.coreRegGone p.1 = false) _
    (fun p h => hp _ (List.fst_mem_of_mem_zipIdx h)) (State.free_calm (State.free_calm h))

theorem flagPlaces_arith {cores : List Nat} {vector : Bool} {k p : Nat} (h : p ∈ flagPlaces cores vector k) :
    ArithReg p := by
  unfold flagPlaces at h
  split at h
  · obtain ⟨k, _, rfl⟩ := List.mem_map.1 h
    exact ArithReg.engine
  · obtain ⟨l, hl, hp⟩ := List.mem_flatten.1 h
    obtain ⟨k, _, rfl⟩ := List.mem_map.1 hl
    obtain ⟨a, _, rfl⟩ := List.mem_map.1 hp
    exact ArithReg.flags

theorem State.raiseIn_calm {places : List Nat} {f : Flags} {vector : Bool} (hp : ∀ p ∈ places, ArithReg p)
    (h : Calm n r s) : Calm n r (s.raiseIn places f vector) := by
  unfold State.raiseIn
  extract_lets t
  have ht : Calm n r t := by
    refine Calm.foldl h fun u i hu => ?_
    split
    · exact hu
    · exact State.raiseFlag_calm hp hu
  split
  · unfold State.proofEvent
    split
    · exact Calm.upd ht rfl rfl
    · exact ht
  · exact ht

theorem State.raiseAt_calm {cores : List Nat} {f : Flags} {vector : Bool} (h : Calm n r s) :
    Calm n r (s.raiseAt cores f vector) := State.raiseIn_calm (fun _ hp => flagPlaces_arith hp) h

theorem State.updTensor_calm {k : Nat} {f : Tensor → Tensor} (h : Calm n r s) : Calm n r (s.updTensor k f) :=
  Calm.upd h rfl rfl

theorem State.write_calm {w : Write} (h : Calm n r s) : Calm n r (s.write w) := by
  unfold State.write State.writeScales State.writeData
  repeat' first | exact h | exact State.updTensor_calm h | split

/-- Quiet surroundings bring nothing. -/
theorem State.corrections_quiet {env : Env} (hq : env.Quiet) : s.corrections env = s := by
  obtain ⟨h1, h2, h3, h4, h5⟩ := hq
  simp [State.corrections, h1, h2, h3, h4, h5]

/-- In quiet surroundings, with nothing poisoned or uncorrectable, nothing stops a command. -/
theorem State.envStop_quiet {env : Env} (hq : env.Quiet) (hp : s.mem.poison = []) (hf : s.mem.flaws = []) {c : Cmd}
    {d : Nat} : s.envStop env c d = none := by
  obtain ⟨h1, h2, h3, h4, h5⟩ := hq
  simp [State.envStop, State.badGranuleOf, h1, h2, h3, hp, hf]

/-- A command that writes elements then writes all of them and ends as it was to end. -/
theorem State.complete_quiet {env : Env} (hq : env.Quiet) (hp : s.mem.poison = []) (hf : s.mem.flaws = []) {c : Cmd}
    {d : Nat} {l : List Write} {o : Outcome} :
    s.complete env c d l o = (((s.writeAll l).rewritten l).markOutputs c (s.outMarks c)).finish c.id o := by
  unfold State.complete
  simp only [State.corrections_quiet hq, State.envStop_quiet hq hp hf]

theorem State.rewritten_calm {l : List Write} (h : Calm n r s) : Calm n r (s.rewritten l) :=
  Calm.foldl h fun _ _ hu => Calm.foldl hu fun _ _ hv => State.clearPoison_calm hv

theorem State.complete_calm {env : Env} {c : Cmd} {d : Nat} {l : List Write} {o : Outcome} (hq : env.Quiet)
    (hc : c.id = n) (h : Calm n r s) : Calm n r (s.complete env c d l o) := by
  intro x y
  rw [State.complete_quiet hq ((h x y).poison.trans x) ((h x y).flaws.trans y)]
  exact State.finish_calm hc (Calm.foldl (State.rewritten_calm (Calm.foldl h fun u w hu => State.write_calm hu))
    fun u k hu => State.updTensor_calm hu) x y

end Sys2Proof.Machine
end

