-- ==== Sys2Proof/Laws/CalmCompute.lean ====
section
/-! SUPPORT. The operations of the compute groups leave the rest of the machine as it is, as `Calm` says. -/

set_option Elab.async false

namespace Sys2Proof.Machine

/-! ### Machine/Ops.lean -/

theorem State.proofEvent_calm {kn : Nat} {kr : State} {s : State} {i : ℕ} (h0 : Calm kn kr s) :
    Calm kn kr (State.proofEvent s i) := by
  unfold State.proofEvent
  repeat' first
    | with_reducible assumption
    | with_reducible refine Calm.ite ?_ ?_
    | dsimp only
    | fail_if_no_progress refine Calm.upd ?_ rfl rfl

/-! ### Machine/Tensors.lean -/

theorem State.writeData_calm {kn : Nat} {kr : State} {s : State} {h : ℕ} {f : Codes → Codes} (h0 : Calm kn kr s) :
    Calm kn kr (State.writeData s h f) := by
  unfold State.writeData
  repeat' first | with_reducible assumption | with_reducible refine State.updTensor_calm ?_

theorem State.writeScales_calm {kn : Nat} {kr : State} {s : State} {t : Tensor} {f : Codes → Codes} (h0 : Calm kn kr s) :
    Calm kn kr (State.writeScales s t f) := by
  unfold State.writeScales
  repeat' first | with_reducible assumption | with_reducible refine State.writeData_calm ?_ | split

/-! ### Machine/Bytes.lean -/

theorem State.givePages_calm {kn : Nat} {kr : State} {s : State} {l : List ℕ} (h0 : Calm kn kr s) :
    Calm kn kr (State.givePages s l) := by
  unfold State.givePages
  repeat' first | with_reducible assumption | dsimp only | fail_if_no_progress refine Calm.upd ?_ rfl rfl

/-! ### Machine/Work.lean -/

theorem State.raiseFlags_calm {kn : Nat} {kr : State} {s : State} {f : Flags} {vector : Bool} (h0 : Calm kn kr s) :
    Calm kn kr (State.raiseFlags s f vector) := by
  unfold State.raiseFlags
  repeat' first | with_reducible assumption | with_reducible refine State.raiseAt_calm ?_

theorem State.draw_calm {kn : Nat} {kr : State} {s : State} {core : ℕ} {lane : ℕ} (h0 : Calm kn kr s) :
    Calm kn kr (State.draw s core lane).2 := by
  unfold State.draw
  exact Calm.ite (Calm.foldl (Calm.upd h0 rfl rfl) fun u p hu => State.addWrap_calm ArithReg.draws hu) (Calm.upd h0 rfl rfl)

theorem State.rounding_calm {kn : Nat} {kr : State} {s : State} {sr : Bool} {token : ℕ} {n : ℕ} (h0 : Calm kn kr s) :
    Calm kn kr (State.rounding s sr token n).2 := by
  unfold State.rounding
  repeat' first | with_reducible assumption | with_reducible refine State.draw_calm ?_ | with_reducible refine Calm.ite_snd ?_ ?_

theorem State.writeAll_calm {kn : Nat} {kr : State} {s : State} {l : List Write} (h0 : Calm kn kr s) :
    Calm kn kr (State.writeAll s l) := by
  unfold State.writeAll
  repeat' first
    | with_reducible assumption
    | with_reducible refine State.write_calm ?_
    | with_reducible refine Calm.foldl ?_ ?_
    | intro _

theorem State.raiseRow_calm {kn : Nat} {kr : State} {s : State} {row : ℕ} {f : Flags} (h0 : Calm kn kr s) :
    Calm kn kr (State.raiseRow s row f) := by
  unfold State.raiseRow
  repeat' first | with_reducible assumption | with_reducible refine State.raiseAt_calm ?_

theorem State.dropImage_calm {kn : Nat} {kr : State} {s : State} {h : ℕ} (h0 : Calm kn kr s) :
    Calm kn kr (State.dropImage s h) := by
  unfold State.dropImage
  repeat' first
    | with_reducible assumption
    | with_reducible refine State.givePages_calm ?_
    | with_reducible refine State.updTensor_calm ?_
    | split

theorem State.takeSave_calm {kn : Nat} {kr : State} {s : State} {h : ℕ} (h0 : Calm kn kr s) :
    Calm kn kr (State.takeSave s h) := by
  unfold State.takeSave
  repeat' first | with_reducible assumption | with_reducible refine State.updTensor_calm ?_ | with_reducible refine State.dropImage_calm ?_

theorem State.takeSaves_calm {kn : Nat} {kr : State} {s : State} {c : Cmd} (hc1 : c.id = kn) (h0 : Calm kn kr s) :
    ∀ v, State.takeSaves s c = some v → Calm kn kr v := by
  unfold State.takeSaves
  refine Calm.foldl_some (Calm.some_intro h0) fun u t hu => ?_
  split
  · exact Calm.none_intro
  · split
    · exact Calm.some_intro (State.takeSave_calm (hu _ rfl))
    · exact Calm.none_intro

theorem State.withSaves_calm {kn : Nat} {kr : State} {s : State} {c : Cmd} {f : State → State} (hc1 : c.id = kn) (h0 : Calm kn kr s) (h2 : ∀ u0, Calm kn kr u0 → Calm kn kr (f u0)) :
    Calm kn kr (State.withSaves s c f) := by
  unfold State.withSaves
  repeat' first
    | with_reducible assumption
    | with_reducible refine State.takeSaves_calm ?_ ?_
    | with_reducible refine State.finish_calm ?_ ?_
    | with_reducible refine h2 _ ?_
    | split
    | refine Calm.of_some ‹_ = some _› ?_

theorem State.markOutputs_calm {kn : Nat} {kr : State} {s : State} {c : Cmd} {marks : List ℕ} (hc1 : c.id = kn) (h0 : Calm kn kr s) :
    Calm kn kr (State.markOutputs s c marks) := by
  unfold State.markOutputs
  repeat' first
    | with_reducible assumption
    | with_reducible refine State.updTensor_calm ?_
    | with_reducible refine Calm.foldl ?_ ?_
    | intro _

theorem State.writeSome_calm {kn : Nat} {kr : State} {s : State} {l : List Write} (h0 : Calm kn kr s) :
    Calm kn kr (State.writeSome s l) := by
  unfold State.writeSome
  repeat' first
    | with_reducible assumption
    | with_reducible refine State.free_calm ?_
    | with_reducible refine State.write_calm ?_
    | with_reducible refine Calm.foldl ?_ ?_
    | split
    | intro _

/-! ### Machine/Output.lean -/

theorem State.roundings_calm {kn : Nat} {kr : State} {sr : Bool} {token : ℕ} {a2 : List ℕ} {a3 : State} (h3 : Calm kn kr a3) :
    Calm kn kr (State.roundings sr token a2 a3).2 := by
  fun_induction State.roundings sr token a2 a3
  all_goals
    repeat' first | with_reducible assumption | with_reducible refine State.rounding_calm ?_ | with_reducible apply_assumption

theorem State.rowScaled_calm {kn : Nat} {kr : State} {sr : Bool} {t : Tensor} {row : ℕ} {token : ℕ} {a4 : List (List (ℕ × Val))} {a5 : State × List Write × Flags} (h5 : Calm kn kr a5.1) :
    Calm kn kr (State.rowScaled sr t row token a4 a5).1 := by
  fun_induction State.rowScaled sr t row token a4 a5
  all_goals
    repeat' first | with_reducible assumption | with_reducible refine State.roundings_calm ?_ | with_reducible apply_assumption

theorem State.convertOut_calm {kn : Nat} {kr : State} {s : State} {sr : Bool} {fmt : ℕ} {token : ℕ} {n : ℕ} {a5 : Val} (h0 : Calm kn kr s) :
    Calm kn kr (State.convertOut s sr fmt token n a5).2 := by
  unfold State.convertOut
  repeat' first | with_reducible assumption | with_reducible refine State.rounding_calm ?_ | with_reducible refine Calm.ite_snd ?_ ?_

theorem State.rowOut_calm {kn : Nat} {kr : State} {sr : Bool} {t : Tensor} {row : ℕ} {token : ℕ} {a4 : List (ℕ × Val)} {a5 : State × List Write × Flags} (h5 : Calm kn kr a5.1) :
    Calm kn kr (State.rowOut sr t row token a4 a5).1 := by
  fun_induction State.rowOut sr t row token a4 a5
  all_goals
    repeat' first | with_reducible assumption | with_reducible refine State.convertOut_calm ?_ | with_reducible apply_assumption

theorem State.outputRow_calm {kn : Nat} {kr : State} {sr : Bool} {t : Tensor} {row : ℕ} {token : ℕ} {l : List (ℕ × Val)} {a : State × List Write × Flags} (h5 : Calm kn kr a.1) :
    Calm kn kr (State.outputRow sr t row token l a).1 := by
  unfold State.outputRow
  repeat' first
    | with_reducible assumption
    | with_reducible refine State.rowScaled_calm ?_
    | with_reducible refine State.rowOut_calm ?_
    | with_reducible refine Calm.ite_fst ?_ ?_

/-! ### Machine/Matrix.lean -/

theorem State.arraysTake_calm {kn : Nat} {kr : State} {s : State} {c : Cmd} (h0 : Calm kn kr s) :
    Calm kn kr (State.arraysTake s c) := Calm.upd h0 rfl rfl

theorem State.countRows_calm {kn : Nat} {kr : State} {s : State} {core : ℕ} {a : ℕ} {rows : ℕ} {swaps : ℕ} (h0 : Calm kn kr s) :
    Calm kn kr (State.countRows s core a rows swaps) := by
  unfold State.countRows
  repeat' first | with_reducible assumption | with_reducible refine State.addWrap_calm ?_ ?_ | with_reducible exact ArithReg.counts

theorem State.arraysUsed_calm {kn : Nat} {kr : State} {s : State} {c : Cmd} {f : Flags} (h0 : Calm kn kr s) :
    Calm kn kr (State.arraysUsed s c f) :=
  Calm.foldl (State.raiseFlags_calm (State.arraysTake_calm h0)) fun _ _ hu => Calm.foldl hu fun _ _ hv =>
    State.countRows_calm (State.free_calm (State.free_calm hv))

theorem State.countPasses_calm {kn : Nat} {kr : State} {s : State} {keep : ℕ → Bool} {rows : ℕ} {cols : ℕ} {steps : ℕ} {terms : ℕ} {swaps : Bool} (h0 : Calm kn kr s) :
    Calm kn kr (State.countPasses s keep rows cols steps terms swaps) := by
  unfold State.countPasses
  repeat' first
    | with_reducible assumption
    | with_reducible refine State.countRows_calm ?_
    | with_reducible refine Calm.foldl ?_ ?_
    | split
    | dsimp only
    | intro _

theorem State.arraysRan_calm {kn : Nat} {kr : State} {s : State} {c : Cmd} {f : Flags} {rows cols steps terms : ℕ}
    {swaps : Bool} (h0 : Calm kn kr s) : Calm kn kr (State.arraysRan s c f rows cols steps terms swaps) :=
  State.countPasses_calm (State.raiseIn_calm (fun _ hp => flagPlaces_arith hp) (State.arraysTake_calm h0))

theorem State.addEntry_calm {kn : Nat} {kr : State} {s : State} {saved : Tensor} {w : ℕ} {e : ℕ} (h0 : Calm kn kr s) :
    ∀ v, State.addEntry s saved w e = some v → Calm kn kr v := by
  unfold State.addEntry
  repeat' first
    | with_reducible assumption
    | with_reducible refine State.updTensor_calm ?_
    | with_reducible refine Calm.some_intro ?_
    | with_reducible refine Calm.none_intro
    | split

theorem State.matmulRecord_calm {kn : Nat} {kr : State} {s : State} {c : Cmd} {a : Tensor} {b : Tensor} (hc1 : c.id = kn) (h0 : Calm kn kr s) :
    ∀ v, State.matmulRecord s c a b = some v → Calm kn kr v := by
  unfold State.matmulRecord
  repeat' first
    | with_reducible assumption
    | with_reducible refine State.addEntry_calm ?_
    | with_reducible refine Calm.some_intro ?_
    | split

theorem State.productRows_calm {kn : Nat} {kr : State} {s : State} {c : Cmd} {accIn : Bool} {accOut : Bool} {ta : Bool} {tb : Bool} {a : Tensor} {b : Tensor} {o : Tensor} {p : Product} (hc1 : c.id = kn) (h0 : Calm kn kr s) :
    Calm kn kr (State.productRows s c accIn accOut ta tb a b o p).1 := by
  unfold State.productRows
  repeat' first
    | with_reducible assumption
    | with_reducible refine State.outputRow_calm ?_
    | with_reducible refine Calm.foldl_fst ?_ ?_
    | split
    | dsimp only
    | intro _

theorem State.turnBlocks_calm {kn : Nat} {kr : State} {s : State} {a : Tensor} {codes : Codes} (h0 : Calm kn kr s) :
    Calm kn kr (State.turnBlocks s a codes) :=
  Calm.foldl h0 fun _ _ hu => Calm.foldl (State.free_calm (State.free_calm hu)) fun _ _ hv => Calm.upd hv rfl rfl

theorem State.productResult_calm {kn : Nat} {kr : State} {s : State} {f : Flags} {rows : ℕ} (h0 : Calm kn kr s) :
    Calm kn kr (State.productResult s f rows).2 := by
  unfold State.productResult
  repeat' first | with_reducible assumption | with_reducible refine State.free_calm ?_

theorem State.matmul_calm {kn : Nat} {kr : State} {s : State} {env : Env} {c : Cmd} (hq : env.Quiet) (hc : c.id = kn)
    (h0 : Calm kn kr s) : Calm kn kr (State.matmul s env c) := by
  unfold State.matmul
  split
  · split
    · exact State.finish_calm hc h0
    · rename_i t ht
      have h1 : Calm kn kr t := Calm.of_some ht (State.matmulRecord_calm hc h0)
      refine Calm.ite (State.finish_calm hc h0) (State.withSaves_calm hc h1 fun u hu => ?_)
      refine State.complete_calm hq hc (State.productResult_calm (State.arraysRan_calm ?_))
      split
      · exact State.turnBlocks_calm (State.productRows_calm hc hu)
      · exact State.productRows_calm hc hu
  · exact State.finish_calm hc h0

theorem execMatmul_calm {kn : Nat} {kr : State}  {env : Env} {s : State} (hq : env.Quiet) (h2 : Calm kn kr s) :
    ∀ v, execMatmul kn env s = .next v → Calm kn kr v := by
  unfold execMatmul
  repeat' first
    | with_reducible assumption
    | with_reducible refine State.work_calm ?_ ?_
    | with_reducible refine State.finish_calm ?_ ?_
    | with_reducible refine State.matmul_calm ?_ ?_ ?_
    | with_reducible refine Calm.next_intro ?_
    | split
    | intro _

theorem State.packedRows_calm {kn : Nat} {kr : State} {s : State} {c : Cmd} {a : Tensor} {b : Tensor} {o : Tensor} (hc1 : c.id = kn) (h0 : Calm kn kr s) :
    Calm kn kr (State.packedRows s c a b o).1 := by
  unfold State.packedRows
  repeat' first
    | with_reducible assumption
    | with_reducible refine State.outputRow_calm ?_
    | with_reducible refine Calm.foldl_fst ?_ ?_
    | split
    | dsimp only
    | intro _

theorem State.packRan_calm {kn : Nat} {kr : State} {s : State} {c : Cmd} {f : Flags} {m problems : ℕ} (h0 : Calm kn kr s) :
    Calm kn kr (State.packRan s c f m problems) :=
  Calm.foldl (State.raiseIn_calm (fun _ hp => flagPlaces_arith hp) (State.arraysTake_calm h0)) fun _ _ hu =>
    Calm.foldl hu fun _ _ hv => Calm.foldl hv fun _ _ hw => State.countRows_calm hw

theorem execMatmulPacked_calm {kn : Nat} {kr : State}  {env : Env} {s : State} (hq : env.Quiet) (h2 : Calm kn kr s) :
    ∀ v, execMatmulPacked kn env s = .next v → Calm kn kr v := by
  unfold execMatmulPacked
  repeat' first
    | with_reducible assumption
    | with_reducible refine State.work_calm ?_ ?_
    | with_reducible refine State.finish_calm ?_ ?_
    | with_reducible refine State.withSaves_calm ?_ ?_ ?_
    | with_reducible refine State.packedRows_calm ?_ ?_
    | with_reducible refine State.packRan_calm ?_
    | with_reducible refine State.productResult_calm ?_
    | with_reducible refine State.complete_calm ?_ ?_ ?_
    | with_reducible refine Calm.next_intro ?_
    | split
    | dsimp only
    | intro _

/-! ### Machine/Vector.lean -/

theorem State.setVreg_calm {kn : Nat} {kr : State} {s : State} {core : ℕ} {r : ℕ} {l : List ℕ} (h0 : Calm kn kr s) :
    Calm kn kr (State.setVreg s core r l) := by
  unfold State.setVreg
  repeat' first | with_reducible assumption | dsimp only | fail_if_no_progress refine Calm.upd ?_ rfl rfl

theorem State.stLanes_calm {kn : Nat} {kr : State} {s : State} {slot : ℕ} {t : ℕ} {g : ℕ} {sr : Bool} {l : List ℕ} {f : Flags} (h0 : Calm kn kr s) :
    Calm kn kr (State.stLanes s slot t g sr l f).1 := by
  unfold State.stLanes
  repeat' first
    | with_reducible assumption
    | with_reducible refine State.write_calm ?_
    | with_reducible refine State.outputRow_calm ?_
    | with_reducible refine State.writeAll_calm ?_
    | with_reducible refine Calm.ite_fst ?_ ?_
    | with_reducible refine Calm.foldl ?_ ?_
    | split
    | intro _

theorem State.drawLanes_calm {kn : Nat} {kr : State} {core : ℕ} {a1 : List ℕ} {a2 : State} (h2 : Calm kn kr a2) :
    Calm kn kr (State.drawLanes core a1 a2).2 := by
  fun_induction State.drawLanes core a1 a2
  all_goals
    repeat' first | with_reducible assumption | with_reducible refine State.draw_calm ?_ | with_reducible apply_assumption

theorem State.vstep_calm {kn : Nat} {kr : State} {core : ℕ} {t : ℕ} {g : ℕ} {w : ℕ} {x : State × Flags} (h4 : Calm kn kr x.1) :
    Calm kn kr (State.vstep core t g w x).1 := by
  unfold State.vstep
  repeat' first
    | with_reducible assumption
    | with_reducible refine State.setVreg_calm ?_
    | with_reducible refine State.stLanes_calm ?_
    | with_reducible refine State.drawLanes_calm ?_
    | with_reducible refine Calm.ite_fst ?_ ?_

theorem State.runSteps_calm {kn : Nat} {kr : State} {s : State} {steps : List (ℕ × ℕ × ℕ)} {x : State × Flags} (h0 : Calm kn kr s) (h2 : Calm kn kr x.1) :
    Calm kn kr (State.runSteps s steps x).1 := by
  unfold State.runSteps
  repeat' first
    | with_reducible assumption
    | with_reducible refine State.vstep_calm ?_
    | with_reducible refine State.raiseRow_calm ?_
    | with_reducible refine Calm.foldl_fst ?_ ?_
    | dsimp only
    | intro _

theorem State.vectorRow_calm {kn : Nat} {kr : State} {s : State} {op : ℕ} {core : ℕ} {t : ℕ} {g : ℕ} {w : Word64} (h0 : Calm kn kr s) :
    Calm kn kr (State.vectorRow s op core t g w) := by
  unfold State.vectorRow
  repeat' first
    | with_reducible assumption
    | with_reducible refine State.vstep_calm ?_
    | with_reducible refine State.raiseAt_calm ?_
    | with_reducible refine Calm.ite ?_ ?_

theorem execAbs_calm {kn : Nat} {kr : State} {core : ℕ} {t : ℕ} {g : ℕ} {w : Word64} {s : State} (h4 : Calm kn kr s) :
    ∀ v, execAbs core t g w s = .next v → Calm kn kr v := by
  unfold execAbs
  repeat' first | with_reducible assumption | with_reducible refine State.vectorRow_calm ?_ | with_reducible refine Calm.next_intro ?_

theorem execAdd_calm {kn : Nat} {kr : State} {core : ℕ} {t : ℕ} {g : ℕ} {w : Word64} {s : State} (h4 : Calm kn kr s) :
    ∀ v, execAdd core t g w s = .next v → Calm kn kr v := by
  unfold execAdd
  repeat' first | with_reducible assumption | with_reducible refine State.vectorRow_calm ?_ | with_reducible refine Calm.next_intro ?_

theorem execCmplt_calm {kn : Nat} {kr : State} {core : ℕ} {t : ℕ} {g : ℕ} {w : Word64} {s : State} (h4 : Calm kn kr s) :
    ∀ v, execCmplt core t g w s = .next v → Calm kn kr v := by
  unfold execCmplt
  repeat' first | with_reducible assumption | with_reducible refine State.vectorRow_calm ?_ | with_reducible refine Calm.next_intro ?_

theorem execFma_calm {kn : Nat} {kr : State} {core : ℕ} {t : ℕ} {g : ℕ} {w : Word64} {s : State} (h4 : Calm kn kr s) :
    ∀ v, execFma core t g w s = .next v → Calm kn kr v := by
  unfold execFma
  repeat' first | with_reducible assumption | with_reducible refine State.vectorRow_calm ?_ | with_reducible refine Calm.next_intro ?_

theorem State.gatedRows_calm {kn : Nat} {kr : State} {s : State} {c : Cmd} {g : Tensor} {u : Tensor} {o : Tensor} (hc1 : c.id = kn) (h0 : Calm kn kr s) :
    Calm kn kr (State.gatedRows s c g u o).1 := by
  unfold State.gatedRows
  repeat' first
    | with_reducible assumption
    | with_reducible refine State.outputRow_calm ?_
    | with_reducible refine State.raiseRow_calm ?_
    | with_reducible refine Calm.foldl_fst ?_ ?_
    | dsimp only
    | intro _

theorem execGatedAct_calm {kn : Nat} {kr : State}  {env : Env} {s : State} (hq : env.Quiet) (h2 : Calm kn kr s) :
    ∀ v, execGatedAct kn env s = .next v → Calm kn kr v := by
  unfold execGatedAct
  repeat' first
    | with_reducible assumption
    | with_reducible refine State.work_calm ?_ ?_
    | with_reducible refine State.finish_calm ?_ ?_
    | with_reducible refine State.withSaves_calm ?_ ?_ ?_
    | with_reducible refine State.gatedRows_calm ?_ ?_
    | with_reducible refine State.complete_calm ?_ ?_ ?_
    | with_reducible refine Calm.next_intro ?_
    | split
    | dsimp only
    | intro _

theorem execLd_calm {kn : Nat} {kr : State} {core : ℕ} {t : ℕ} {g : ℕ} {w : Word64} {s : State} (h4 : Calm kn kr s) :
    ∀ v, execLd core t g w s = .next v → Calm kn kr v := by
  unfold execLd
  repeat' first | with_reducible assumption | with_reducible refine State.vectorRow_calm ?_ | with_reducible refine Calm.next_intro ?_

theorem execLdi_calm {kn : Nat} {kr : State} {core : ℕ} {t : ℕ} {g : ℕ} {w : Word64} {s : State} (h4 : Calm kn kr s) :
    ∀ v, execLdi core t g w s = .next v → Calm kn kr v := by
  unfold execLdi
  repeat' first | with_reducible assumption | with_reducible refine State.vectorRow_calm ?_ | with_reducible refine Calm.next_intro ?_

theorem execMax_calm {kn : Nat} {kr : State} {core : ℕ} {t : ℕ} {g : ℕ} {w : Word64} {s : State} (h4 : Calm kn kr s) :
    ∀ v, execMax core t g w s = .next v → Calm kn kr v := by
  unfold execMax
  repeat' first | with_reducible assumption | with_reducible refine State.vectorRow_calm ?_ | with_reducible refine Calm.next_intro ?_

theorem execMin_calm {kn : Nat} {kr : State} {core : ℕ} {t : ℕ} {g : ℕ} {w : Word64} {s : State} (h4 : Calm kn kr s) :
    ∀ v, execMin core t g w s = .next v → Calm kn kr v := by
  unfold execMin
  repeat' first | with_reducible assumption | with_reducible refine State.vectorRow_calm ?_ | with_reducible refine Calm.next_intro ?_

theorem execMul_calm {kn : Nat} {kr : State} {core : ℕ} {t : ℕ} {g : ℕ} {w : Word64} {s : State} (h4 : Calm kn kr s) :
    ∀ v, execMul core t g w s = .next v → Calm kn kr v := by
  unfold execMul
  repeat' first | with_reducible assumption | with_reducible refine State.vectorRow_calm ?_ | with_reducible refine Calm.next_intro ?_

theorem execNeg_calm {kn : Nat} {kr : State} {core : ℕ} {t : ℕ} {g : ℕ} {w : Word64} {s : State} (h4 : Calm kn kr s) :
    ∀ v, execNeg core t g w s = .next v → Calm kn kr v := by
  unfold execNeg
  repeat' first | with_reducible assumption | with_reducible refine State.vectorRow_calm ?_ | with_reducible refine Calm.next_intro ?_

theorem execRand_calm {kn : Nat} {kr : State} {core : ℕ} {t : ℕ} {g : ℕ} {w : Word64} {s : State} (h4 : Calm kn kr s) :
    ∀ v, execRand core t g w s = .next v → Calm kn kr v := by
  unfold execRand
  repeat' first | with_reducible assumption | with_reducible refine State.vectorRow_calm ?_ | with_reducible refine Calm.next_intro ?_

theorem execRandu_calm {kn : Nat} {kr : State} {core : ℕ} {t : ℕ} {g : ℕ} {w : Word64} {s : State} (h4 : Calm kn kr s) :
    ∀ v, execRandu core t g w s = .next v → Calm kn kr v := by
  unfold execRandu
  repeat' first | with_reducible assumption | with_reducible refine State.vectorRow_calm ?_ | with_reducible refine Calm.next_intro ?_

theorem execRowStats_calm {kn : Nat} {kr : State}  {env : Env} {s : State} (hq : env.Quiet) (h2 : Calm kn kr s) :
    ∀ v, execRowStats kn env s = .next v → Calm kn kr v := by
  refine Calm.next_intro (State.work_calm h2 fun k c u hc _ hu => ?_)
  split
  · split
    · exact State.finish_calm hc hu
    · refine State.withSaves_calm hc hu fun w hw => ?_
      extract_lets sd r
      have hr : Calm kn k r.2.2.2 := by
        unfold r
        refine Calm.foldl_proj (π := fun (x : List Write × Nat × Flags × State) => x.2.2.2) hw fun x a hx => ?_
        exact State.raiseRow_calm hx
      clear_value r
      exact State.complete_calm hq hc hr
  · exact State.finish_calm hc hu

theorem State.seedGenerators_calm {kn : Nat} {kr : State} {s : State} {job step : ℕ} (h0 : Calm kn kr s) :
    Calm kn kr (State.seedGenerators s job step) := by
  unfold State.seedGenerators
  exact Calm.foldl (Calm.upd h0 rfl rfl) fun _ _ hu =>
    State.setReg_calm ArithReg.draws (State.setReg_calm ArithReg.generators hu)

theorem execSeedGenerators_calm {kn : Nat} {kr : State}  {s : State} (h1 : Calm kn kr s) :
    ∀ v, execSeedGenerators kn s = .next v → Calm kn kr v := by
  unfold execSeedGenerators
  repeat' first
    | with_reducible assumption
    | with_reducible refine State.work_calm ?_ ?_
    | with_reducible refine State.finish_calm ?_ ?_
    | with_reducible refine State.seedGenerators_calm ?_
    | with_reducible refine Calm.next_intro ?_
    | split
    | intro _

theorem execSel_calm {kn : Nat} {kr : State} {core : ℕ} {t : ℕ} {g : ℕ} {w : Word64} {s : State} (h4 : Calm kn kr s) :
    ∀ v, execSel core t g w s = .next v → Calm kn kr v := by
  unfold execSel
  repeat' first | with_reducible assumption | with_reducible refine State.vectorRow_calm ?_ | with_reducible refine Calm.next_intro ?_

theorem execSfu_calm {kn : Nat} {kr : State} {core : ℕ} {t : ℕ} {g : ℕ} {w : Word64} {s : State} (h4 : Calm kn kr s) :
    ∀ v, execSfu core t g w s = .next v → Calm kn kr v := by
  unfold execSfu
  repeat' first | with_reducible assumption | with_reducible refine State.vectorRow_calm ?_ | with_reducible refine Calm.next_intro ?_

theorem execSt_calm {kn : Nat} {kr : State} {core : ℕ} {t : ℕ} {g : ℕ} {w : Word64} {s : State} (h4 : Calm kn kr s) :
    ∀ v, execSt core t g w s = .next v → Calm kn kr v := by
  unfold execSt
  repeat' first | with_reducible assumption | with_reducible refine State.vectorRow_calm ?_ | with_reducible refine Calm.next_intro ?_

theorem execSub_calm {kn : Nat} {kr : State} {core : ℕ} {t : ℕ} {g : ℕ} {w : Word64} {s : State} (h4 : Calm kn kr s) :
    ∀ v, execSub core t g w s = .next v → Calm kn kr v := by
  unfold execSub
  repeat' first | with_reducible assumption | with_reducible refine State.vectorRow_calm ?_ | with_reducible refine Calm.next_intro ?_

theorem execVectorNop_calm {kn : Nat} {kr : State} {core : ℕ} {t : ℕ} {g : ℕ} {w : Word64} {s : State} (h4 : Calm kn kr s) :
    ∀ v, execVectorNop core t g w s = .next v → Calm kn kr v := by
  unfold execVectorNop
  repeat' first | with_reducible assumption | with_reducible refine State.vectorRow_calm ?_ | with_reducible refine Calm.next_intro ?_

/-! ### Machine/Attention.lean -/

theorem State.attnFlags_calm {kn : Nat} {kr : State} {s : State} {c : Cmd} {fa fv : Flags} (h0 : Calm kn kr s) :
    Calm kn kr (State.attnFlags s c fa fv) := State.raiseFlags_calm (State.arraysUsed_calm h0)

theorem State.gradRow_calm {kn : Nat} {kr : State} {s : State} {c : Cmd} {t : Tensor} {row : ℕ} {token : ℕ} {d : ℕ} {heads : ℕ} {pos : ℕ} {scaled : Bool} {rotate : Bool} {x : List Val} {a : State × List Write × Flags} (hc1 : c.id = kn) (h0 : Calm kn kr s) (h11 : Calm kn kr a.1) :
    Calm kn kr (State.gradRow s c t row token d heads pos scaled rotate x a).1 := by
  unfold State.gradRow
  repeat' first | with_reducible assumption | with_reducible refine State.outputRow_calm ?_ | with_reducible refine Calm.ite_fst ?_ ?_

theorem State.backWrites_calm {kn : Nat} {kr : State} {s : State} {c : Cmd} {q : Tensor} {dq : Tensor} {dk : Tensor} {dv : Tensor} {d : ℕ} {kv : ℕ} {len : ℕ} {rows : List BackRow} {ksum : ℕ → ℕ → ℕ → Flags → VF} {vsum : ℕ → ℕ → ℕ → Flags → VF} {f : Flags} (hc1 : c.id = kn) (h0 : Calm kn kr s) :
    Calm kn kr (State.backWrites s c q dq dk dv d kv len rows ksum vsum f).1 := by
  unfold State.backWrites
  repeat' first
    | with_reducible assumption
    | with_reducible refine State.gradRow_calm ?_ ?_ ?_
    | with_reducible refine Calm.foldl_fst ?_ ?_
    | split
    | dsimp only
    | intro _

theorem State.attnBackwardCmd_calm {kn : Nat} {kr : State} {s : State} {env : Env} {c : Cmd} {ring : List RingStep} (hq : env.Quiet) (hc2 : c.id = kn) (h0 : Calm kn kr s) :
    Calm kn kr (State.attnBackwardCmd s env c ring) := by
  unfold State.attnBackwardCmd
  repeat' first
    | with_reducible assumption
    | with_reducible refine State.withSaves_calm ?_ ?_ ?_
    | with_reducible refine State.backWrites_calm ?_ ?_
    | with_reducible refine State.complete_calm ?_ ?_ ?_
    | with_reducible refine State.attnFlags_calm ?_
    | with_reducible refine State.finish_calm ?_ ?_
    | split
    | dsimp only
    | intro _

theorem execAttnBackward_calm {kn : Nat} {kr : State}  {env : Env} {s : State} (hq : env.Quiet) (h2 : Calm kn kr s) :
    ∀ v, execAttnBackward kn env s = .next v → Calm kn kr v := by
  refine Calm.next_intro (State.work_calm h2 fun k c u hc ho hu => ?_)
  split
  · exact State.finish_calm hc hu
  · unfold State.attnBackwardCmd
    have hne : c.opcode ≠ 0x0607 := by rw [ho]; decide
    simp only [hne, if_false]
    split
    · exact State.withSaves_calm hc hu fun w hw =>
        State.complete_calm hq hc (State.attnFlags_calm (State.backWrites_calm hc hw))
    · exact State.finish_calm hc hu

theorem State.attnForward_calm {kn : Nat} {kr : State} {s : State} {c : Cmd} {q : Tensor} {o : Tensor} {st : Tensor} {d : ℕ} {nkb : ℕ} {blocks : List KeyBlock} (hc1 : c.id = kn) (h0 : Calm kn kr s) :
    Calm kn kr (State.attnForward s c q o st d nkb blocks).1 := by
  unfold State.attnForward
  repeat' first
    | with_reducible assumption
    | with_reducible refine State.outputRow_calm ?_
    | with_reducible refine Calm.foldl_fst ?_ ?_
    | dsimp only
    | intro _

theorem State.attnForwardCmd_calm {kn : Nat} {kr : State} {s : State} {env : Env} {c : Cmd} {ring : List RingStep} (hq : env.Quiet) (hc2 : c.id = kn) (h0 : Calm kn kr s) :
    Calm kn kr (State.attnForwardCmd s env c ring) := by
  unfold State.attnForwardCmd
  repeat' first
    | with_reducible assumption
    | with_reducible refine State.withSaves_calm ?_ ?_ ?_
    | with_reducible refine State.attnForward_calm ?_ ?_
    | with_reducible refine State.addWrap_calm ?_ ?_
    | with_reducible refine State.attnFlags_calm ?_
    | with_reducible refine State.complete_calm ?_ ?_ ?_
    | with_reducible refine State.finish_calm ?_ ?_
    | with_reducible exact ArithReg.emptyRows
    | split
    | dsimp only
    | intro _

theorem execAttnForward_calm {kn : Nat} {kr : State}  {env : Env} {s : State} (hq : env.Quiet) (h2 : Calm kn kr s) :
    ∀ v, execAttnForward kn env s = .next v → Calm kn kr v := by
  unfold execAttnForward
  repeat' first
    | with_reducible assumption
    | with_reducible refine State.work_calm ?_ ?_
    | with_reducible refine State.finish_calm ?_ ?_
    | with_reducible refine State.attnForwardCmd_calm ?_ ?_ ?_
    | with_reducible refine Calm.next_intro ?_
    | split
    | intro _

/-! ### Machine/Backward.lean -/

theorem State.latched_calm {kn : Nat} {kr : State} {s : State} {c : Cmd} {f : State → State} (hc1 : c.id = kn) (h0 : Calm kn kr s) (h2 : ∀ u0, Calm kn kr u0 → Calm kn kr (f u0)) :
    Calm kn kr (State.latched s c f) := by
  unfold State.latched
  repeat' first
    | with_reducible assumption
    | with_reducible refine State.finish_calm ?_ ?_
    | with_reducible refine h2 _ ?_
    | split

theorem State.backwardInput_calm {kn : Nat} {kr : State} {s : State} {env : Env} {c : Cmd} (hq : env.Quiet) (hc2 : c.id = kn) (h0 : Calm kn kr s) :
    Calm kn kr (State.backwardInput s env c) := by
  unfold State.backwardInput
  repeat' first
    | with_reducible assumption
    | with_reducible refine State.withSaves_calm ?_ ?_ ?_
    | with_reducible refine State.outputRow_calm ?_
    | with_reducible refine State.complete_calm ?_ ?_ ?_
    | with_reducible refine State.arraysUsed_calm ?_
    | with_reducible refine State.finish_calm ?_ ?_
    | with_reducible refine Calm.foldl_fst ?_ ?_
    | split
    | dsimp only
    | intro _

theorem execBackwardInput_calm {kn : Nat} {kr : State}  {env : Env} {s : State} (hq : env.Quiet) (h2 : Calm kn kr s) :
    ∀ v, execBackwardInput kn env s = .next v → Calm kn kr v := by
  unfold execBackwardInput
  repeat' first
    | with_reducible assumption
    | with_reducible refine State.work_calm ?_ ?_
    | with_reducible refine State.latched_calm ?_ ?_ ?_
    | with_reducible refine State.backwardInput_calm ?_ ?_ ?_
    | with_reducible refine Calm.next_intro ?_
    | split
    | intro _

theorem State.backwardWeight_calm {kn : Nat} {kr : State} {s : State} {env : Env} {c : Cmd} (hq : env.Quiet) (hc2 : c.id = kn) (h0 : Calm kn kr s) :
    Calm kn kr (State.backwardWeight s env c) := by
  unfold State.backwardWeight
  repeat' first
    | with_reducible assumption
    | with_reducible refine State.complete_calm ?_ ?_ ?_
    | with_reducible refine State.arraysUsed_calm ?_
    | with_reducible refine State.finish_calm ?_ ?_
    | split

theorem execBackwardWeight_calm {kn : Nat} {kr : State}  {env : Env} {s : State} (hq : env.Quiet) (h2 : Calm kn kr s) :
    ∀ v, execBackwardWeight kn env s = .next v → Calm kn kr v := by
  unfold execBackwardWeight
  repeat' first
    | with_reducible assumption
    | with_reducible refine State.runCmd_calm ?_ ?_
    | with_reducible refine State.latched_calm ?_ ?_ ?_
    | with_reducible refine State.park_calm ?_ ?_
    | with_reducible refine State.finish_calm ?_ ?_
    | with_reducible refine State.backwardWeight_calm ?_ ?_ ?_
    | with_reducible refine Calm.next_intro ?_
    | split
    | intro _

/-! ### Machine/Convolution.lean -/

theorem State.convRows_calm {kn : Nat} {kr : State} {s : State} {c : Cmd} {x : Tensor} {w : Tensor} {y : Tensor} (hc1 : c.id = kn) (h0 : Calm kn kr s) :
    Calm kn kr (State.convRows s c x w y).1 := by
  unfold State.convRows
  repeat' first
    | with_reducible assumption
    | with_reducible refine State.outputRow_calm ?_
    | with_reducible refine Calm.foldl_fst ?_ ?_
    | split
    | dsimp only
    | intro _

theorem State.conv_calm {kn : Nat} {kr : State} {s : State} {env : Env} {c : Cmd} (hq : env.Quiet) (hc2 : c.id = kn) (h0 : Calm kn kr s) :
    Calm kn kr (State.conv s env c) := by
  unfold State.conv
  repeat' first
    | with_reducible assumption
    | with_reducible refine State.finish_calm ?_ ?_
    | with_reducible refine State.withSaves_calm ?_ ?_ ?_
    | with_reducible refine State.convRows_calm ?_ ?_
    | with_reducible refine State.complete_calm ?_ ?_ ?_
    | with_reducible refine State.arraysRan_calm ?_
    | split
    | dsimp only
    | intro _

theorem execConv_calm {kn : Nat} {kr : State}  {env : Env} {s : State} (hq : env.Quiet) (h2 : Calm kn kr s) :
    ∀ v, execConv kn env s = .next v → Calm kn kr v := by
  unfold execConv
  repeat' first
    | with_reducible assumption
    | with_reducible refine State.work_calm ?_ ?_
    | with_reducible refine State.conv_calm ?_ ?_ ?_
    | with_reducible refine Calm.next_intro ?_
    | intro _

theorem execConvGrouped_calm {kn : Nat} {kr : State}  {env : Env} {s : State} (hq : env.Quiet) (h2 : Calm kn kr s) :
    ∀ v, execConvGrouped kn env s = .next v → Calm kn kr v := by
  unfold execConvGrouped
  repeat' first
    | with_reducible assumption
    | with_reducible refine State.work_calm ?_ ?_
    | with_reducible refine State.conv_calm ?_ ?_ ?_
    | with_reducible refine Calm.next_intro ?_
    | intro _

theorem execGlobalAvgPool_calm {kn : Nat} {kr : State}  {env : Env} {s : State} (hq : env.Quiet) (h2 : Calm kn kr s) :
    ∀ v, execGlobalAvgPool kn env s = .next v → Calm kn kr v := by
  unfold execGlobalAvgPool
  repeat' first
    | with_reducible assumption
    | with_reducible refine State.work_calm ?_ ?_
    | with_reducible refine State.finish_calm ?_ ?_
    | with_reducible refine State.complete_calm ?_ ?_ ?_
    | with_reducible refine State.raiseFlags_calm ?_
    | with_reducible refine Calm.next_intro ?_
    | split
    | dsimp only
    | intro _

theorem execMarginLayer_calm {kn : Nat} {kr : State}  {env : Env} {fault : Option ℕ} {s : State} (hq : env.Quiet) (h3 : Calm kn kr s) :
    ∀ v, execMarginLayer kn env fault s = .next v → Calm kn kr v := by
  unfold execMarginLayer
  simp only [State.corrections_quiet hq]
  repeat' first
    | with_reducible assumption
    | with_reducible refine State.work_calm ?_ ?_
    | with_reducible refine State.finish_calm ?_ ?_
    | with_reducible refine State.withSaves_calm ?_ ?_ ?_
    | with_reducible refine State.addSat_calm ?_ ?_
    | with_reducible refine State.convRows_calm ?_ ?_
    | with_reducible refine State.raiseAt_calm ?_
    | with_reducible refine State.countPasses_calm ?_
    | with_reducible refine State.setFld_calm ?_ ?_
    | with_reducible refine State.markOutputs_calm ?_ ?_
    | with_reducible refine State.writeSome_calm ?_
    | with_reducible refine State.complete_calm ?_ ?_ ?_
    | with_reducible refine Calm.next_intro ?_
    | with_reducible exact ArithReg.marginState
    | with_reducible exact ArithReg.marginCount
    | split
    | dsimp only
    | intro _

/-! ### Machine/Commands.lean -/

theorem execIdentify_calm {kn : Nat} {kr : State}  {s : State} (h1 : Calm kn kr s) :
    ∀ v, execIdentify kn s = .next v → Calm kn kr v := by
  unfold execIdentify
  repeat' first
    | with_reducible assumption
    | with_reducible refine State.runCmd_calm ?_ ?_
    | with_reducible refine State.finish_calm ?_ ?_
    | with_reducible refine Calm.next_intro ?_
    | intro _

theorem execNop_calm {kn : Nat} {kr : State}  {s : State} (h1 : Calm kn kr s) :
    ∀ v, execNop kn s = .next v → Calm kn kr v := by
  unfold execNop
  repeat' first
    | with_reducible assumption
    | with_reducible refine State.runCmd_calm ?_ ?_
    | with_reducible refine State.finish_calm ?_ ?_
    | with_reducible refine Calm.next_intro ?_
    | intro _

end Sys2Proof.Machine
end

