-- ==== Sys2Proof/Laws/Kept.lean ====
section
/-! SUPPORT. How a state is kept: each primitive update of State keeps it sound, keeps the queue, and never lowers the
counter of free values. The lemmas of the operations built from them follow in Laws/Kept. -/

set_option Elab.async false

namespace Sys2Proof.Machine

variable {q : List Instr} {n : Nat} {s t : State}

/-- An update that leaves what `Kept` speaks of as it is. -/
theorem Kept.upd {s : State} {time node mem cmd tally gcl fab tens imp core attn coll feed boot pwr obs}
    (h : Kept q n s) (hm : mem.bytes = s.mem.bytes) (hc : cmd.rings = s.cmd.rings)
    (hi : cmd.cmds.map (·.id) = s.cmd.cmds.map (·.id)) (hx : cmd.nextId = s.cmd.nextId)
    (ht : tally.values = s.tally.values) (hf : fab.links = s.fab.links) (hb : boot.flash = s.boot.flash)
    (hv : core.vregs = s.core.vregs := by rfl) (hd : tens = s.tens := by rfl) :
    Kept q n ⟨s.pending, s.freeCtr, s.regs, time, node, mem, cmd, tally, gcl, fab, tens, imp, core, attn, coll, feed, boot,
      pwr, obs⟩ :=
  ⟨h.queue, h.fresh, ⟨by simpa [Memory.wf, hm] using h.sound.mem, h.sound.regs, by simpa [ht] using h.sound.tallies,
    by simpa [hb] using h.sound.flash, by simpa [hc] using h.sound.rings, by simpa [hf] using h.sound.links,
    by simpa [CmdSt.Numbered, hi, hx] using h.sound.numbers,
    by simpa [hv] using h.sound.vregs, by simpa [hd] using h.sound.elements⟩⟩

/-- Lines poisoned and a directory replaced. -/
theorem Kept.poisoned {p : List Nat} {l} (h : Kept q n s) :
    Kept q n { s with mem := { s.mem with poison := p }, gcl := { s.gcl with dir := l } } := Kept.upd h rfl rfl rfl rfl rfl rfl rfl

/-- Tensors replaced by others whose elements are in their canonical form. -/
theorem Kept.updTens {tens : List Tensor} (h : Kept q n s) (hd : ∀ t ∈ tens, Sparse.wf codeDefault t.data = true) :
    Kept q n { s with tens := tens } :=
  ⟨h.queue, h.fresh, ⟨h.sound.mem, h.sound.regs, h.sound.tallies, h.sound.flash, h.sound.rings, h.sound.links,
    h.sound.numbers, h.sound.vregs, hd⟩⟩

/-- Every tensor changed by a function that keeps its elements in their canonical form. -/
theorem Kept.mapTens {f : Tensor → Tensor} (h : Kept q n s)
    (hf : ∀ t, Sparse.wf codeDefault t.data = true → Sparse.wf codeDefault (f t).data = true) :
    Kept q n { s with tens := s.tens.map f } :=
  h.updTens fun t ht => by
    obtain ⟨u, hu, rfl⟩ := List.mem_map.1 ht
    exact hf u (h.sound.elements u hu)

theorem setCode_wf {d : Codes} {i c : Nat} (h : Sparse.wf codeDefault d = true) :
    Sparse.wf codeDefault (setCode d i c) = true := Sparse.set_wf h

theorem setCodes_wf {d : Codes} {i : Nat} {l : List Nat} (h : Sparse.wf codeDefault d = true) :
    Sparse.wf codeDefault (setCodes d i l) = true := Sparse.setMany_wf h

theorem setTensorByte_wf {t : Tensor} {d : Codes} {i v : Nat} (h : Sparse.wf codeDefault d = true) :
    Sparse.wf codeDefault (setTensorByte t d i v) = true := by
  have put : ∀ (p : Prop) [Decidable p] (c : Codes) (j x : Nat), Sparse.wf codeDefault c = true →
      Sparse.wf codeDefault (if p then setCode c j x else c) = true := by
    intro p _ c j x hc; split; exact setCode_wf hc; exact hc
  unfold setTensorByte
  extract_lets n row off put'
  split
  · exact put _ _ _ _ (put _ _ _ _ h)
  · have fold : ∀ (l : List Nat) (f : Codes → Nat → Codes), (∀ c k, Sparse.wf codeDefault c = true →
        Sparse.wf codeDefault (f c k) = true) → ∀ c, Sparse.wf codeDefault c = true →
        Sparse.wf codeDefault (l.foldl f c) = true := by
      intro l f hf
      induction l with
      | nil => exact fun c hc => hc
      | cons k l ih => exact fun c hc => ih _ (hf c k hc)
    exact fold _ _ (fun c k hc => put _ _ _ _ hc) _ h
  · exact put _ _ _ _ h

theorem setTensorBytes_wf {t : Tensor} {b : List Byte} : ∀ {i : Nat} {d : Codes}, Sparse.wf codeDefault d = true →
    Sparse.wf codeDefault (setTensorBytes t b i d) = true := by
  induction b with
  | nil => exact fun h => h
  | cons x b ih => exact fun h => ih (setTensorByte_wf h)

theorem foldCodes_wf {α : Type} {f : Codes → α → Codes} {l : List α}
    (hf : ∀ d x, Sparse.wf codeDefault d = true → Sparse.wf codeDefault (f d x) = true) :
    ∀ {d : Codes}, Sparse.wf codeDefault d = true → Sparse.wf codeDefault (l.foldl f d) = true := by
  induction l with
  | nil => exact fun h => h
  | cons x l ih => exact fun h => ih (hf _ x h)

/-- Vector registers changed, still in their canonical form. -/
theorem Kept.updVregs {core : CoreSt} (h : Kept q n s)
    (hv : Sparse.wf (fun _ => (0 : BitVec 32)) core.vregs = true) : Kept q n { s with core := core } :=
  ⟨h.queue, h.fresh, ⟨h.sound.mem, h.sound.regs, h.sound.tallies, h.sound.flash, h.sound.rings, h.sound.links,
    h.sound.numbers, hv, h.sound.elements⟩⟩

/-- An update of tensors, by a function that keeps their elements, beside others that leave what `Kept` speaks of. -/
theorem Kept.updMap {s : State} {time node mem cmd tally gcl fab imp core attn coll feed boot pwr obs} {f : Tensor → Tensor}
    (h : Kept q n s) (hm : mem.bytes = s.mem.bytes) (hc : cmd.rings = s.cmd.rings)
    (hi : cmd.cmds.map (·.id) = s.cmd.cmds.map (·.id)) (hx : cmd.nextId = s.cmd.nextId)
    (ht : tally.values = s.tally.values) (hf : fab.links = s.fab.links) (hb : boot.flash = s.boot.flash)
    (hv : core.vregs = s.core.vregs := by rfl)
    (hd : ∀ t, Sparse.wf codeDefault t.data = true → Sparse.wf codeDefault (f t).data = true := by
      intro t ht; first | exact ht | (split <;> exact ht)) :
    Kept q n ⟨s.pending, s.freeCtr, s.regs, time, node, mem, cmd, tally, gcl, fab, s.tens.map f, imp, core, attn, coll, feed,
      boot, pwr, obs⟩ :=
  (h.mapTens hd).upd hm hc hi hx ht hf hb hv

/-- Registers changed, still in their canonical form. -/
theorem Kept.updRegs {regs} (h : Kept q n s) (hr : Sparse.wf (fun k => BitVec.ofNat 64 (regReset k)) regs = true) :
    Kept q n { s with regs := regs } :=
  ⟨h.queue, h.fresh, ⟨h.sound.mem, hr, h.sound.tallies, h.sound.flash, h.sound.rings, h.sound.links, h.sound.numbers, h.sound.vregs, h.sound.elements⟩⟩

/-- Memory changed, still in its canonical form. -/
theorem Kept.updMem {mem} (h : Kept q n s) (hm : Memory.wf mem = true) : Kept q n { s with mem := mem } :=
  ⟨h.queue, h.fresh, ⟨hm, h.sound.regs, h.sound.tallies, h.sound.flash, h.sound.rings, h.sound.links, h.sound.numbers, h.sound.vregs, h.sound.elements⟩⟩

/-- Bytes, or registers, brought back to what is unlisted. -/
theorem Kept.dropBytes {p : Nat × Byte → Bool} (h : Kept q n s) :
    Kept q n { s with mem := { s.mem with bytes := s.mem.bytes.filter p } } := h.updMem (Sparse.filter_wf h.sound.mem)

theorem Kept.dropRegs {p : Nat × Word64 → Bool} (h : Kept q n s) :
    Kept q n { s with regs := s.regs.filter p } := h.updRegs (Sparse.filter_wf h.sound.regs)

theorem State.setReg_kept {off v : Nat} (h : Kept q n s) : Kept q n (s.setReg off v) :=
  h.updRegs (Sparse.set_wf h.sound.regs)

theorem State.free_kept (h : Kept q n s) : Kept q n s.free.2 :=
  ⟨h.queue, Nat.le_succ_of_le h.fresh, ⟨h.sound.mem, h.sound.regs, h.sound.tallies, h.sound.flash, h.sound.rings,
    h.sound.links, h.sound.numbers, h.sound.vregs, h.sound.elements⟩⟩

theorem State.updRing_kept {i : Nat} {f : RingSt → RingSt} (h : Kept q n s) : Kept q n (s.updRing i f) :=
  ⟨h.queue, h.fresh, ⟨h.sound.mem, h.sound.regs, h.sound.tallies, h.sound.flash,
    by simpa [State.updRing] using h.sound.rings, h.sound.links, h.sound.numbers, h.sound.vregs, h.sound.elements⟩⟩

theorem State.updLink_kept {i : Nat} {f : LinkSt → LinkSt} (h : Kept q n s) : Kept q n (s.updLink i f) :=
  ⟨h.queue, h.fresh, ⟨h.sound.mem, h.sound.regs, h.sound.tallies, h.sound.flash, h.sound.rings,
    by simpa [State.updLink] using h.sound.links, h.sound.numbers, h.sound.vregs, h.sound.elements⟩⟩

/-- Commands changed, each keeping its number. -/
theorem Kept.mapCmds {f : Cmd → Cmd} (h : Kept q n s) (hf : ∀ c, (f c).id = c.id) :
    Kept q n { s with cmd := { s.cmd with cmds := s.cmd.cmds.map f } } :=
  h.upd rfl rfl (by rw [List.map_map]; exact List.map_congr_left fun c _ => hf c) rfl rfl rfl rfl

theorem State.updCmd_kept {m : Nat} {f : Cmd → Cmd} (hf : ∀ c, (f c).id = c.id) (h : Kept q n s) :
    Kept q n (s.updCmd m f) :=
  h.mapCmds fun c => by split <;> simp [hf]

/-- The commands replaced by others that are numbered apart. -/
theorem Kept.setCmds {cmd : CmdSt} (h : Kept q n s) (hr : cmd.rings = s.cmd.rings) (hc : cmd.Numbered) :
    Kept q n { s with cmd := cmd } :=
  ⟨h.queue, h.fresh, ⟨h.sound.mem, h.sound.regs, h.sound.tallies, h.sound.flash, by simpa [hr] using h.sound.rings,
    h.sound.links, hc, h.sound.vregs, h.sound.elements⟩⟩

/-- Some of the commands leave flight. -/
theorem CmdSt.Numbered.filter {c : CmdSt} {p : Cmd → Bool} (h : c.Numbered) :
    ((c.cmds.filter p).map (·.id) ++ [c.nextId]).Pairwise (· < ·) :=
  List.Pairwise.sublist ((List.filter_sublist.map _).append (List.Sublist.refl _)) h

/-- A command joins those in flight under the next number. -/
theorem CmdSt.Numbered.append {c : CmdSt} {d : Cmd} (h : c.Numbered) (hd : d.id = c.nextId) :
    ((c.cmds ++ [d]).map (·.id) ++ [c.nextId + 1]).Pairwise (· < ·) := by
  simp only [CmdSt.Numbered, List.map_append, List.map_cons, List.map_nil, hd, List.append_assoc] at h ⊢
  rw [List.pairwise_append] at h ⊢
  refine ⟨h.1, by simp, fun a ha b hb => ?_⟩
  have := h.2.2 a ha c.nextId (by simp)
  simp only [List.cons_append, List.nil_append, List.mem_cons, List.not_mem_nil, or_false] at hb
  omega

theorem State.putBytes_kept {a : Nat} {d : List Byte} (h : Kept q n s) : Kept q n (s.putBytes a d) :=
  h.updMem (Sparse.setMany_wf h.sound.mem)

/-- A tally that takes a value, before its waiters see it. -/
theorem Kept.updTally {i v : Nat} (h : Kept q n s) :
    Kept q n { s with tally := { s.tally with
      values := Sparse.set (fun _ => (0 : Word64)) s.tally.values i (BitVec.ofNat 64 v) } } :=
  ⟨h.queue, h.fresh, ⟨h.sound.mem, h.sound.regs, Sparse.set_wf h.sound.tallies, h.sound.flash, h.sound.rings,
    h.sound.links, h.sound.numbers, h.sound.vregs, h.sound.elements⟩⟩

/-- The flash written. -/
theorem State.flashPut_kept {o : Nat} {d : List Byte} (h : Kept q n s) : Kept q n (s.flashPut o d) := by
  unfold State.flashPut
  split
  · exact h
  · exact ⟨h.queue, h.fresh, ⟨h.sound.mem, h.sound.regs, h.sound.tallies, Sparse.setMany_wf h.sound.flash, h.sound.rings,
      h.sound.links, h.sound.numbers, h.sound.vregs, h.sound.elements⟩⟩

/-- The state after reset is sound. -/
theorem State.reset_sound : State.reset.Sound := ⟨by decide, by decide, by decide, by decide, by decide, by decide, by
  simp [CmdSt.Numbered, State.reset, CmdSt.reset], by decide, by simp [State.reset]⟩

/-! ### Folds, and results taken apart -/

theorem Kept.ite {c : Prop} [Decidable c] (h : Kept q n s) (h' : Kept q n t) : Kept q n (if c then s else t) := by
  split <;> assumption

theorem Kept.ite_fst {α : Type} {c : Prop} [Decidable c] {x y : State × α} (h : Kept q n x.1) (h' : Kept q n y.1) :
    Kept q n (if c then x else y).1 := by split <;> assumption

theorem Kept.ite_snd {α : Type} {c : Prop} [Decidable c] {x y : α × State} (h : Kept q n x.2) (h' : Kept q n y.2) :
    Kept q n (if c then x else y).2 := by split <;> assumption

theorem Kept.ite_proj {α : Type} {π : α → State} {c : Prop} [Decidable c] {x y : α} (h : Kept q n (π x))
    (h' : Kept q n (π y)) : Kept q n (π (if c then x else y)) := by split <;> assumption

theorem Kept.foldl_proj {α β : Type} {π : β → State} {l : List α} {f : β → α → β} {x : β} (h : Kept q n (π x))
    (hf : ∀ u a, Kept q n (π u) → Kept q n (π (f u a))) : Kept q n (π (l.foldl f x)) := by
  induction l generalizing x with
  | nil => exact h
  | cons a l ih => exact ih (hf x a h)

/-- The states of power on, of power lost and of a full reset. -/
theorem Kept.afterReset {s : State} {time node mem cmd tally gcl fab tens imp core attn coll feed boot pwr obs}
    (h : Kept q n s) {k : Nat} (hk : n ≤ k) (hm : Memory.wf mem = true) (hc : cmd.rings.length = 16)
    (hi : cmd.cmds = []) (ht : tally.values = []) (hf : fab.links.length = 64) (hb : boot.flash = s.boot.flash)
    (hv : core.vregs = [] := by rfl) (hd : tens = [] := by rfl) :
    Kept q n ⟨s.pending, k, [], time, node, mem, cmd, tally, gcl, fab, tens, imp, core, attn, coll, feed, boot, pwr, obs⟩ :=
  ⟨h.queue, hk, ⟨hm, Sparse.wf_nil, by simp [ht], by simpa [hb] using h.sound.flash, hc, hf,
    by simp [CmdSt.Numbered, hi], by simp [hv], by simp [hd]⟩⟩

theorem Kept.foldl {α : Type} {l : List α} {f : State → α → State} (h : Kept q n s)
    (hf : ∀ u a, Kept q n u → Kept q n (f u a)) : Kept q n (l.foldl f s) := by
  induction l generalizing s with
  | nil => exact h
  | cons a l ih => exact ih (hf s a h)

theorem Kept.foldl_fst {α β : Type} {l : List α} {f : State × β → α → State × β} {x : State × β} (h : Kept q n x.1)
    (hf : ∀ u a, Kept q n u.1 → Kept q n (f u a).1) : Kept q n (l.foldl f x).1 := by
  induction l generalizing x with
  | nil => exact h
  | cons a l ih => exact ih (hf x a h)

theorem Kept.foldl_snd {α β : Type} {l : List α} {f : β × State → α → β × State} {x : β × State} (h : Kept q n x.2)
    (hf : ∀ u a, Kept q n u.2 → Kept q n (f u a).2) : Kept q n (l.foldl f x).2 := by
  induction l generalizing x with
  | nil => exact h
  | cons a l ih => exact ih (hf x a h)

theorem Kept.foldl_some {α β : Type} {P : β → Prop} {l : List α} {f : Option β → α → Option β} {x : Option β}
    (h : ∀ v, x = some v → P v) (hf : ∀ u a, (∀ v, u = some v → P v) → ∀ v, f u a = some v → P v) :
    ∀ v, l.foldl f x = some v → P v := by
  induction l generalizing x with
  | nil => exact h
  | cons a l ih => exact ih (hf x a h)

theorem Kept.of_fst {α : Type} {p : State × α} {a : α} (e : p = (s, a)) (h : Kept q n p.1) : Kept q n s := by
  subst e; exact h

theorem Kept.of_snd {α : Type} {p : α × State} {a : α} (e : p = (a, s)) (h : Kept q n p.2) : Kept q n s := by
  subst e; exact h

theorem Kept.of_some {o : Option State} (e : o = some s) (h : ∀ v, o = some v → Kept q n v) : Kept q n s := h s e

theorem Kept.of_ok {ε : Type} {o : Except ε State} (e : o = .ok s) (h : ∀ v, o = .ok v → Kept q n v) : Kept q n s := h s e

theorem Kept.bind_some {α β : Type} {P : β → Prop} {o : Option α} {f : α → Option β}
    (h : ∀ a, o = some a → ∀ v, f a = some v → P v) : ∀ v, o.bind f = some v → P v := by
  cases o with
  | none => intro v e; cases e
  | some a => exact h a rfl

theorem Kept.some_intro {α : Type} {P : α → Prop} {a : α} (h : P a) : ∀ v, some a = some v → P v := by
  intro v e; cases e; exact h

theorem Kept.none_intro {α : Type} {P : α → Prop} : ∀ v, (none : Option α) = some v → P v := by intro v e; cases e

theorem Kept.ok_intro {ε α : Type} {P : α → Prop} {a : α} (h : P a) : ∀ v, (Except.ok a : Except ε α) = .ok v → P v := by
  intro v e; cases e; exact h

theorem Kept.error_intro {ε α : Type} {P : α → Prop} {x : ε} : ∀ v, (Except.error x : Except ε α) = .ok v → P v := by
  intro v e; cases e

theorem Kept.next_intro {φ ρ : Type} (h : Kept q n s) :
    ∀ v, (Host.Outcome.next s : Host.Outcome State φ ρ) = .next v → Kept q n v := by intro v e; cases e; exact h

theorem Kept.of_some_edit {o : Option EditSt} {e : EditSt} (x : o = some e) (h : ∀ v, o = some v → Kept q n v.s) :
    Kept q n e.s := h _ x

theorem Kept.of_some_edit_fst {α : Type} {o : Option (EditSt × α)} {e : EditSt} {a : α} (x : o = some (e, a))
    (h : ∀ v, o = some v → Kept q n v.1.s) : Kept q n e.s := h _ x

theorem Kept.of_some_edit_snd {α : Type} {o : Option (α × EditSt)} {e : EditSt} {a : α} (x : o = some (a, e))
    (h : ∀ v, o = some v → Kept q n v.2.s) : Kept q n e.s := h _ x

theorem Kept.of_some_fst {α : Type} {o : Option (State × α)} {a : α} (e : o = some (s, a))
    (h : ∀ v, o = some v → Kept q n v.1) : Kept q n s := h _ e

theorem Kept.of_some_snd {α : Type} {o : Option (α × State)} {a : α} (e : o = some (a, s))
    (h : ∀ v, o = some v → Kept q n v.2) : Kept q n s := h _ e

theorem Kept.of_ok_fst {ε α : Type} {o : Except ε (State × α)} {a : α} (e : o = .ok (s, a))
    (h : ∀ v, o = .ok v → Kept q n v.1) : Kept q n s := h _ e

end Sys2Proof.Machine
end

