-- ==== Sys2Proof/Laws/KeptShared.lean ====
section
/-! SUPPORT. The shared operations keep a state as `Kept` says. -/

set_option Elab.async false

namespace Sys2Proof.Machine

/-! ### Machine/Ops.lean -/

theorem State.nextTick_kept {kq : List Instr} {kn : Nat} {s : State} (h0 : Kept kq kn s) :
    Kept kq kn (State.nextTick s) := by
  unfold State.nextTick
  repeat' first | with_reducible assumption | dsimp only | fail_if_no_progress refine Kept.upd ?_ rfl rfl rfl rfl rfl rfl rfl

theorem State.setConnRx_kept {kq : List Instr} {kn : Nat} {s : State} {c : ConnRx} (h0 : Kept kq kn s) :
    Kept kq kn (State.setConnRx s c) := by
  unfold State.setConnRx
  repeat' first | with_reducible assumption | dsimp only | fail_if_no_progress refine Kept.upd ?_ rfl rfl rfl rfl rfl rfl rfl

theorem State.ackCarried_kept {kq : List Instr} {kn : Nat} {s : State} {node : ℕ} {cls : ℕ} (h0 : Kept kq kn s) :
    Kept kq kn (State.ackCarried s node cls) := by
  unfold State.ackCarried
  repeat' first | with_reducible assumption | with_reducible refine State.setConnRx_kept ?_ | split

theorem State.setFld_kept {kq : List Instr} {kn : Nat} {s : State} {off : ℕ} {hi : ℕ} {lo : ℕ} {x : ℕ} (h0 : Kept kq kn s) :
    Kept kq kn (State.setFld s off hi lo x) := by
  unfold State.setFld
  repeat' first | with_reducible assumption | with_reducible refine State.setReg_kept ?_

theorem State.finish_kept {kq : List Instr} {kn : Nat} {s : State} {n : ℕ} {o : Outcome} (h0 : Kept kq kn s) :
    Kept kq kn (State.finish s n o) := by
  unfold State.finish
  repeat' first
    | with_reducible assumption
    | with_reducible refine State.updCmd_kept ?_ ?_
    | rfl
    | dsimp only
    | intro _

theorem State.setConnTx_kept {kq : List Instr} {kn : Nat} {s : State} {c : ConnTx} (h0 : Kept kq kn s) :
    Kept kq kn (State.setConnTx s c) := by
  unfold State.setConnTx
  repeat' first | with_reducible assumption | dsimp only | fail_if_no_progress refine Kept.upd ?_ rfl rfl rfl rfl rfl rfl rfl

theorem State.newMsg_kept {kq : List Instr} {kn : Nat} {s : State} {node : ℕ} {cls : ℕ} (h0 : Kept kq kn s) :
    Kept kq kn (State.newMsg s node cls).2 := by
  unfold State.newMsg
  repeat' first | with_reducible assumption | with_reducible refine State.setConnTx_kept ?_

theorem State.blockSend_kept {kq : List Instr} {kn : Nat} {s : State} {n : ℕ} {seq : ℕ} {start : ℕ} {typ : ℕ} {payload : List Byte} (h0 : Kept kq kn s) :
    Kept kq kn (State.blockSend s n seq start typ payload) := by
  unfold State.blockSend
  repeat' first | with_reducible assumption | with_reducible refine State.updLink_kept ?_

theorem State.blocksOut_kept {kq : List Instr} {kn : Nat} {s : State} {n : ℕ} {fs : List IfpFrame} (h0 : Kept kq kn s) :
    Kept kq kn (State.blocksOut s n fs) := by
  unfold State.blocksOut
  repeat' first
    | with_reducible assumption
    | with_reducible refine State.blockSend_kept ?_
    | with_reducible refine State.updLink_kept ?_
    | with_reducible refine Kept.foldl ?_ ?_
    | dsimp only
    | intro _

theorem State.addSat_kept {kq : List Instr} {kn : Nat} {s : State} {off : ℕ} {hi : ℕ} {lo : ℕ} {n : ℕ} (h0 : Kept kq kn s) :
    Kept kq kn (State.addSat s off hi lo n) := by
  unfold State.addSat
  repeat' first | with_reducible assumption | with_reducible refine State.setFld_kept ?_

theorem State.countTraffic_kept {kq : List Instr} {kn : Nat} {s : State} {n : ℕ} {bytes : ℕ} {sent : Bool} (h0 : Kept kq kn s) :
    Kept kq kn (State.countTraffic s n bytes sent) := by
  unfold State.countTraffic
  repeat' first
    | with_reducible assumption
    | with_reducible refine State.updLink_kept ?_
    | with_reducible refine State.addSat_kept ?_
    | with_reducible refine Kept.ite ?_ ?_

theorem State.linkPut_kept {kq : List Instr} {kn : Nat} {s : State} {n : ℕ} {fs : List IfpFrame} (h0 : Kept kq kn s) :
    Kept kq kn (State.linkPut s n fs) := by
  unfold State.linkPut
  repeat' first
    | with_reducible assumption
    | with_reducible refine State.blocksOut_kept ?_
    | with_reducible refine State.countTraffic_kept ?_
    | with_reducible refine Kept.ite ?_ ?_
    | with_reducible refine Kept.foldl ?_ ?_
    | dsimp only
    | intro _
    | fail_if_no_progress refine Kept.upd ?_ rfl rfl rfl rfl rfl rfl rfl

theorem State.linkSend_kept {kq : List Instr} {kn : Nat} {s : State} {n : ℕ} {f : IfpFrame} (h0 : Kept kq kn s) :
    Kept kq kn (State.linkSend s n f) := by
  unfold State.linkSend
  repeat' first
    | with_reducible assumption
    | with_reducible refine State.linkPut_kept ?_
    | with_reducible refine State.updLink_kept ?_
    | with_reducible refine Kept.ite ?_ ?_

theorem State.launch_kept {kq : List Instr} {kn : Nat} {s : State} {f : IfpFrame} (h0 : Kept kq kn s) :
    Kept kq kn (State.launch s f).1 := by
  unfold State.launch
  repeat' first | with_reducible assumption | with_reducible refine State.linkSend_kept ?_ | split

theorem State.ifpSendVia_kept {kq : List Instr} {kn : Nat} {via : Option ℕ} {s : State} {node : ℕ} {cls : ℕ} {typ : ℕ} {msgId : ℕ} {last : Bool} {addr : ℕ} {aux : ℕ} {data : List Byte} {p : IfpPurpose} (h1 : Kept kq kn s) :
    Kept kq kn (State.ifpSendVia via s node cls typ msgId last addr aux data p) := by
  unfold State.ifpSendVia
  repeat' first
    | with_reducible assumption
    | with_reducible refine State.linkSend_kept ?_
    | with_reducible refine State.launch_kept ?_
    | with_reducible refine State.setConnTx_kept ?_
    | with_reducible refine State.ackCarried_kept ?_
    | split

theorem State.ifpSend_kept {kq : List Instr} {kn : Nat} {s : State} {node : ℕ} {cls : ℕ} {typ : ℕ} {msgId : ℕ} {last : Bool} {addr : ℕ} {aux : ℕ} {data : List Byte} {p : IfpPurpose} (h0 : Kept kq kn s) :
    Kept kq kn (State.ifpSend s node cls typ msgId last addr aux data p) := by
  unfold State.ifpSend
  repeat' first | with_reducible assumption | with_reducible refine State.ifpSendVia_kept ?_

theorem State.ifpMessage_kept {kq : List Instr} {kn : Nat} {s : State} {node : ℕ} {cls : ℕ} {typ : ℕ} {addr : ℕ} {aux : ℕ} {data : List Byte} {p : IfpPurpose} (h0 : Kept kq kn s) :
    Kept kq kn (State.ifpMessage s node cls typ addr aux data p) := by
  unfold State.ifpMessage
  repeat' first | with_reducible assumption | with_reducible refine State.newMsg_kept ?_ | with_reducible refine State.ifpSend_kept ?_

theorem State.notify_kept {kq : List Instr} {kn : Nat} {s : State} {w : Waiter} {t : ℕ} (h0 : Kept kq kn s) :
    Kept kq kn (State.notify s w t) := by
  unfold State.notify
  repeat' first
    | with_reducible assumption
    | with_reducible refine State.updCmd_kept ?_ ?_
    | with_reducible refine State.finish_kept ?_
    | with_reducible refine State.ifpMessage_kept ?_
    | rfl
    | split
    | dsimp only
    | intro _

theorem State.present_kept {kq : List Instr} {kn : Nat} {i : ℕ} {t : ℕ} {a2 : List Waiter} {a3 : State} (h3 : Kept kq kn a3) :
    Kept kq kn (State.present i t a2 a3) := by
  fun_induction State.present i t a2 a3
  all_goals
    repeat' first
      | with_reducible assumption
      | with_reducible refine State.notify_kept ?_
      | with_reducible apply_assumption
      | dsimp only
      | fail_if_no_progress refine Kept.upd ?_ rfl rfl rfl rfl rfl rfl rfl

theorem State.tallyTakes_kept {kq : List Instr} {kn : Nat} {s : State} {i : ℕ} {t : ℕ} (h0 : Kept kq kn s) :
    Kept kq kn (State.tallyTakes s i t) := by
  unfold State.tallyTakes
  exact State.present_kept h0.updTally

theorem State.tallyAdd_kept {kq : List Instr} {kn : Nat} {s : State} {i : ℕ} {a2 : ℕ} (h0 : Kept kq kn s) :
    Kept kq kn (State.tallyAdd s i a2) := by
  unfold State.tallyAdd
  repeat' first
    | with_reducible assumption
    | with_reducible refine State.setFld_kept ?_
    | with_reducible refine State.tallyTakes_kept ?_
    | with_reducible refine Kept.ite ?_ ?_

theorem State.capacityChange_kept {kq : List Instr} {kn : Nat} {s : State} {c : Change} (h0 : Kept kq kn s) :
    Kept kq kn (State.capacityChange s c) := by
  unfold State.capacityChange
  repeat' first
    | with_reducible assumption
    | with_reducible refine State.tallyAdd_kept ?_
    | split
    | dsimp only
    | fail_if_no_progress refine Kept.upd ?_ rfl rfl rfl rfl rfl rfl rfl

theorem State.qpReady_kept {kq : List Instr} {kn : Nat} {s : State} {i : ℕ} (h0 : Kept kq kn s) :
    Kept kq kn (State.qpReady s i) := by
  unfold State.qpReady
  repeat' first | with_reducible assumption | dsimp only | fail_if_no_progress refine Kept.upd ?_ rfl rfl rfl rfl rfl rfl rfl

theorem State.schedFrames_kept {kq : List Instr} {kn : Nat} {via : Option ℕ} {node : ℕ} {cls : ℕ} {msgId : ℕ} {addr : ℕ} {aux : ℕ} {p : IfpPurpose} {a7 : ℕ} {a8 : State} {a9 : List Byte} (h8 : Kept kq kn a8) :
    Kept kq kn (State.schedFrames via node cls msgId addr aux p a7 a8 a9) := by
  fun_induction State.schedFrames via node cls msgId addr aux p a7 a8 a9
  all_goals
    repeat' first | with_reducible assumption | with_reducible refine State.ifpSendVia_kept ?_ | with_reducible apply_assumption

theorem State.collSendVia_kept {kq : List Instr} {kn : Nat} {s : State} {via : Option ℕ} {cls : ℕ} {axis : ℕ} {rank : ℕ} {m : CollMsg} (h0 : Kept kq kn s) :
    Kept kq kn (State.collSendVia s via cls axis rank m) := by
  unfold State.collSendVia
  repeat' first
    | with_reducible assumption
    | with_reducible refine State.newMsg_kept ?_
    | with_reducible refine State.schedFrames_kept ?_
    | with_reducible refine State.ifpMessage_kept ?_
    | with_reducible refine Kept.ite ?_ ?_
    | dsimp only
    | fail_if_no_progress refine Kept.upd ?_ rfl rfl rfl rfl rfl rfl rfl

theorem State.proofEvent_kept {kq : List Instr} {kn : Nat} {s : State} {i : ℕ} (h0 : Kept kq kn s) :
    Kept kq kn (State.proofEvent s i) := by
  unfold State.proofEvent
  repeat' first
    | with_reducible assumption
    | with_reducible refine Kept.ite ?_ ?_
    | dsimp only
    | fail_if_no_progress refine Kept.upd ?_ rfl rfl rfl rfl rfl rfl rfl

theorem State.collSend_kept {kq : List Instr} {kn : Nat} {s : State} {axis : ℕ} {rank : ℕ} {m : CollMsg} (h0 : Kept kq kn s) :
    Kept kq kn (State.collSend s axis rank m) := by
  unfold State.collSend
  repeat' first | with_reducible assumption | with_reducible refine State.collSendVia_kept ?_

theorem State.collEnd_kept {kq : List Instr} {kn : Nat} {s : State} {x : Coll} {detail : ℕ} {tell : Bool} (h0 : Kept kq kn s) :
    Kept kq kn (State.collEnd s x detail tell) := by
  unfold State.collEnd
  repeat' first
    | with_reducible assumption
    | with_reducible refine State.addSat_kept ?_
    | with_reducible refine State.collSend_kept ?_
    | with_reducible refine State.finish_kept ?_
    | with_reducible refine State.tallyAdd_kept ?_
    | with_reducible refine Kept.ite ?_ ?_
    | with_reducible refine Kept.foldl ?_ ?_
    | split
    | dsimp only
    | intro _
    | fail_if_no_progress refine Kept.upd ?_ rfl rfl rfl rfl rfl rfl rfl

theorem State.abortStep_kept {kq : List Instr} {kn : Nat} {s : State} {step : ℕ} (h0 : Kept kq kn s) :
    Kept kq kn (State.abortStep s step) := by
  unfold State.abortStep
  repeat' first
    | with_reducible assumption
    | with_reducible refine State.setFld_kept ?_
    | with_reducible refine State.addSat_kept ?_
    | with_reducible refine State.proofEvent_kept ?_
    | with_reducible refine State.collEnd_kept ?_
    | with_reducible refine Kept.ite ?_ ?_
    | with_reducible refine Kept.foldl ?_ ?_
    | dsimp only
    | intro _
    | fail_if_no_progress refine Kept.upd ?_ rfl rfl rfl rfl rfl rfl rfl

theorem State.abortSteps_kept {kq : List Instr} {kn : Nat} {s : State} (h0 : Kept kq kn s) :
    Kept kq kn (State.abortSteps s) := by
  unfold State.abortSteps
  repeat' first
    | with_reducible assumption
    | with_reducible refine State.abortStep_kept ?_
    | with_reducible refine Kept.foldl ?_ ?_
    | intro _

theorem State.abortHolders_kept {kq : List Instr} {kn : Nat} {s : State} {copse : ℕ} (h0 : Kept kq kn s) :
    Kept kq kn (State.abortHolders s copse) := h0.mapCmds fun c => by split <;> rfl

theorem State.retireCopse_kept {kq : List Instr} {kn : Nat} {s : State} {k : ℕ} {c : ℕ} (h0 : Kept kq kn s) :
    Kept kq kn (State.retireCopse s k c) := by
  unfold State.retireCopse
  repeat' first | with_reducible assumption | dsimp only | fail_if_no_progress refine Kept.upd ?_ rfl rfl rfl rfl rfl rfl rfl

theorem State.copseShort_kept {kq : List Instr} {kn : Nat} {s : State} {c : ℕ} (h0 : Kept kq kn s) :
    Kept kq kn (State.copseShort s c) := by
  unfold State.copseShort
  repeat' first
    | with_reducible assumption
    | with_reducible refine State.capacityChange_kept ?_
    | with_reducible refine State.setFld_kept ?_
    | with_reducible refine State.retireCopse_kept ?_
    | with_reducible refine Kept.ite ?_ ?_

theorem State.sramUncorrectable_kept {kq : List Instr} {kn : Nat} {s : State} {core : ℕ} {acc : Bool} (h0 : Kept kq kn s) :
    Kept kq kn (State.sramUncorrectable s core acc) := by
  unfold State.sramUncorrectable
  repeat' first
    | with_reducible assumption
    | with_reducible refine State.setFld_kept ?_
    | with_reducible refine State.setReg_kept ?_
    | with_reducible refine State.abortSteps_kept ?_
    | with_reducible refine State.abortHolders_kept ?_
    | with_reducible refine State.copseShort_kept ?_
    | with_reducible refine Kept.ite ?_ ?_
    | split
    | dsimp only
    | fail_if_no_progress refine Kept.upd ?_ rfl rfl rfl rfl rfl rfl rfl

theorem State.linkFlush_kept {kq : List Instr} {kn : Nat} {s : State} {n : ℕ} (h0 : Kept kq kn s) :
    Kept kq kn (State.linkFlush s n) := by
  unfold State.linkFlush
  repeat' first | with_reducible assumption | with_reducible refine State.linkPut_kept ?_ | with_reducible refine State.updLink_kept ?_

theorem State.tallyWait_kept {kq : List Instr} {kn : Nat} {s : State} {w : Waiter} (h0 : Kept kq kn s) :
    Kept kq kn (State.tallyWait s w) := by
  unfold State.tallyWait
  repeat' first
    | with_reducible assumption
    | with_reducible refine State.notify_kept ?_
    | with_reducible refine Kept.ite ?_ ?_
    | dsimp only
    | fail_if_no_progress refine Kept.upd ?_ rfl rfl rfl rfl rfl rfl rfl

theorem State.launchWaiting_kept {kq : List Instr} {kn : Nat} {s : State} (h0 : Kept kq kn s) :
    Kept kq kn (State.launchWaiting s) := by
  unfold State.launchWaiting
  repeat' first
    | with_reducible assumption
    | with_reducible refine State.launch_kept ?_
    | with_reducible refine State.setConnTx_kept ?_
    | with_reducible refine Kept.foldl ?_ ?_
    | with_reducible refine Kept.foldl_fst ?_ ?_
    | split
    | dsimp only
    | intro _

theorem State.unbackedHit_kept {kq : List Instr} {kn : Nat} {s : State} (h0 : Kept kq kn s) :
    Kept kq kn (State.unbackedHit s) := by
  unfold State.unbackedHit
  repeat' first | with_reducible assumption | with_reducible refine State.addSat_kept ?_ | with_reducible refine State.setFld_kept ?_

theorem State.clearingHit_kept {kq : List Instr} {kn : Nat} {s : State} {a : ℕ} {n : ℕ} (h0 : Kept kq kn s) :
    Kept kq kn (State.clearingHit s a n) := by
  unfold State.clearingHit
  repeat' first
    | with_reducible assumption
    | with_reducible refine State.addSat_kept ?_
    | with_reducible refine State.setFld_kept ?_
    | with_reducible refine Kept.foldl ?_ ?_
    | intro _

theorem State.queueChannel_kept {kq : List Instr} {kn : Nat} {s : State} {ch : ℕ} {cause : ℕ} (h0 : Kept kq kn s) :
    Kept kq kn (State.queueChannel s ch cause) := by
  unfold State.queueChannel
  repeat' first
    | with_reducible assumption
    | with_reducible refine State.capacityChange_kept ?_
    | with_reducible refine State.setFld_kept ?_
    | with_reducible refine Kept.ite ?_ ?_

theorem State.hbmUncorrectable_kept {kq : List Instr} {kn : Nat} {s : State} {a : ℕ} (h0 : Kept kq kn s) :
    Kept kq kn (State.hbmUncorrectable s a) := by
  unfold State.hbmUncorrectable
  repeat' first
    | with_reducible assumption
    | with_reducible refine State.setFld_kept ?_
    | with_reducible refine State.addSat_kept ?_
    | with_reducible refine State.setReg_kept ?_
    | with_reducible refine State.queueChannel_kept ?_
    | with_reducible refine Kept.ite ?_ ?_
    | dsimp only
    | fail_if_no_progress refine Kept.upd ?_ rfl rfl rfl rfl rfl rfl rfl

theorem State.stopEffect_kept {kq : List Instr} {kn : Nat} {s : State} {a1 : ReadStop} (h0 : Kept kq kn s) :
    Kept kq kn (State.stopEffect s a1) := by
  unfold State.stopEffect
  repeat' first
    | with_reducible assumption
    | with_reducible refine State.hbmUncorrectable_kept ?_
    | with_reducible refine State.sramUncorrectable_kept ?_
    | split

theorem State.loadBytes_kept {kq : List Instr} {kn : Nat} {s : State} {a : ℕ} {n : ℕ} (h0 : Kept kq kn s) :
    Kept kq kn (State.loadBytes s a n).1 := by
  unfold State.loadBytes
  repeat' first
    | with_reducible assumption
    | with_reducible refine State.unbackedHit_kept ?_
    | with_reducible refine State.clearingHit_kept ?_
    | with_reducible refine State.stopEffect_kept ?_
    | with_reducible refine Kept.ite ?_ ?_
    | split

theorem State.ifpFrames_kept {kq : List Instr} {kn : Nat} {node : ℕ} {cls : ℕ} {typ : ℕ} {msgId : ℕ} {p : IfpPurpose} {a5 : ℕ} {a6 : State} {a7 : ℕ} {a8 : List Byte} (h6 : Kept kq kn a6) :
    Kept kq kn (State.ifpFrames node cls typ msgId p a5 a6 a7 a8) := by
  fun_induction State.ifpFrames node cls typ msgId p a5 a6 a7 a8
  all_goals
    repeat' first | with_reducible assumption | with_reducible refine State.ifpSend_kept ?_ | with_reducible apply_assumption

theorem State.flitSend_kept {kq : List Instr} {kn : Nat} {s : State} {seq : ℕ} {typ : ℕ} {slots : List Byte} (h0 : Kept kq kn s) :
    Kept kq kn (State.flitSend s seq typ slots) := by
  unfold State.flitSend
  repeat' first | with_reducible assumption | dsimp only | fail_if_no_progress refine Kept.upd ?_ rfl rfl rfl rfl rfl rfl rfl

theorem State.gclPut_kept {kq : List Instr} {kn : Nat} {s : State} {m : GclMsg} (h0 : Kept kq kn s) :
    Kept kq kn (State.gclPut s m) := by
  unfold State.gclPut
  repeat' first | with_reducible assumption | dsimp only | fail_if_no_progress refine Kept.upd ?_ rfl rfl rfl rfl rfl rfl rfl

theorem State.gclSend_kept {kq : List Instr} {kn : Nat} {s : State} {m : GclMsg} (h0 : Kept kq kn s) :
    Kept kq kn (State.gclSend s m) := by
  unfold State.gclSend
  repeat' first
    | with_reducible assumption
    | with_reducible refine State.gclPut_kept ?_
    | with_reducible refine Kept.ite ?_ ?_
    | dsimp only
    | fail_if_no_progress refine Kept.upd ?_ rfl rfl rfl rfl rfl rfl rfl

theorem State.irqSend_kept {kq : List Instr} {kn : Nat} {s : State} {a1 : ℕ} (h0 : Kept kq kn s) :
    Kept kq kn (State.irqSend s a1) := by
  unfold State.irqSend
  repeat' first | with_reducible assumption | with_reducible refine State.setReg_kept ?_ | with_reducible refine State.gclSend_kept ?_

theorem State.irq_kept {kq : List Instr} {kn : Nat} {s : State} {a1 : ℕ} (h0 : Kept kq kn s) :
    Kept kq kn (State.irq s a1) := by
  unfold State.irq
  repeat' first
    | with_reducible assumption
    | with_reducible refine State.irqSend_kept ?_
    | with_reducible refine Kept.ite ?_ ?_
    | dsimp only
    | fail_if_no_progress refine Kept.upd ?_ rfl rfl rfl rfl rfl rfl rfl

theorem State.fatal_kept {kq : List Instr} {kn : Nat} {s : State} (h0 : Kept kq kn s) :
    Kept kq kn (State.fatal s) := by
  unfold State.fatal
  extract_lets t
  have ht : Kept kq kn t := by
    unfold t
    split
    · exact h0
    · exact State.proofEvent_kept (State.proofEvent_kept (State.irq_kept (State.setFld_kept h0)))
  clear_value t
  refine Kept.upd ht rfl rfl ?_ rfl rfl rfl rfl
  rw [List.map_map]
  exact List.map_congr_left fun c _ => by simp only [Function.comp]; split <;> rfl

theorem State.onImposition_kept {kq : List Instr} {kn : Nat} {s : State} {c : Cmd} {f : State → State} (h0 : Kept kq kn s) (h2 : ∀ u0, Kept kq kn u0 → Kept kq kn (f u0)) :
    Kept kq kn (State.onImposition s c f) := by
  unfold State.onImposition
  repeat' first
    | with_reducible assumption
    | with_reducible refine Kept.ite ?_ ?_
    | with_reducible refine h2 _ ?_
    | split
    | dsimp only
    | fail_if_no_progress refine Kept.upd ?_ rfl rfl rfl rfl rfl rfl rfl

theorem State.runCmd_kept {kq : List Instr} {kn : Nat} {s : State} {n : ℕ} {opcode : ℕ} {f : Cmd → State → State} (h0 : Kept kq kn s) (h3 : ∀ u0 u1, Kept kq kn u1 → Kept kq kn (f u0 u1)) :
    Kept kq kn (State.runCmd s n opcode f) := by
  unfold State.runCmd
  repeat' first
    | with_reducible assumption
    | with_reducible refine State.onImposition_kept ?_ ?_
    | with_reducible refine Kept.ite ?_ ?_
    | with_reducible refine h3 _ _ ?_
    | split
    | intro _

theorem State.addWrap_kept {kq : List Instr} {kn : Nat} {s : State} {off : ℕ} {hi : ℕ} {lo : ℕ} {n : ℕ} (h0 : Kept kq kn s) :
    Kept kq kn (State.addWrap s off hi lo n) := by
  unfold State.addWrap
  repeat' first | with_reducible assumption | with_reducible refine State.setFld_kept ?_

theorem State.detach_kept {kq : List Instr} {kn : Nat} {s : State} {p : WaitOwner → Bool} (h0 : Kept kq kn s) :
    Kept kq kn (State.detach s p) := by
  unfold State.detach
  repeat' first | with_reducible assumption | dsimp only | fail_if_no_progress refine Kept.upd ?_ rfl rfl rfl rfl rfl rfl rfl

theorem State.gclFlushList_kept {kq : List Instr} {kn : Nat} {blocked : List ℕ} {a1 : List GclMsg} {a2 : State} (h2 : Kept kq kn a2) :
    Kept kq kn (State.gclFlushList blocked a1 a2) := by
  induction a1 generalizing blocked a2 with
  | nil => exact h2
  | cons m ms ih =>
    unfold State.gclFlushList
    split
    · exact ih (Kept.upd h2 rfl rfl rfl rfl rfl rfl rfl)
    · split
      · exact ih (State.gclPut_kept h2)
      · exact ih (Kept.upd h2 rfl rfl rfl rfl rfl rfl rfl)

theorem State.gclFlush_kept {kq : List Instr} {kn : Nat} {s : State} (h0 : Kept kq kn s) :
    Kept kq kn (State.gclFlush s) := by
  unfold State.gclFlush
  repeat' first
    | with_reducible assumption
    | with_reducible refine State.gclFlushList_kept ?_
    | dsimp only
    | fail_if_no_progress refine Kept.upd ?_ rfl rfl rfl rfl rfl rfl rfl

theorem State.fabricErr_kept {kq : List Instr} {kn : Nat} {s : State} {code : ℕ} {node : ℕ} {addr : ℕ} (h0 : Kept kq kn s) :
    Kept kq kn (State.fabricErr s code node addr) := by
  unfold State.fabricErr
  repeat' first | with_reducible assumption | with_reducible refine State.setReg_kept ?_ | with_reducible refine Kept.ite ?_ ?_

theorem State.flitIdle_kept {kq : List Instr} {kn : Nat} {s : State} (h0 : Kept kq kn s) :
    Kept kq kn (State.flitIdle s) := by
  unfold State.flitIdle
  repeat' first
    | with_reducible assumption
    | with_reducible refine State.flitSend_kept ?_
    | with_reducible refine Kept.foldl ?_ ?_
    | split
    | intro _

theorem State.mergeMet_kept {kq : List Instr} {kn : Nat} {s : State} {x : ReadStop} (h0 : Kept kq kn s) :
    Kept kq kn (State.mergeMet s x) := by
  unfold State.mergeMet
  repeat' first
    | with_reducible assumption
    | with_reducible refine State.setFld_kept ?_
    | with_reducible refine State.stopEffect_kept ?_
    | split

theorem State.storeByte_kept {kq : List Instr} {kn : Nat} {s : State} {a : ℕ} {b : Byte} (h0 : Kept kq kn s) :
    Kept kq kn (State.storeByte s a b) := by
  unfold State.storeByte
  repeat' first | with_reducible assumption | with_reducible refine State.putBytes_kept ?_ | with_reducible refine Kept.ite ?_ ?_

theorem State.storeBytes_kept {kq : List Instr} {kn : Nat} {a0 : List Byte} {a1 : ℕ} {a2 : State} (h2 : Kept kq kn a2) :
    Kept kq kn (State.storeBytes a0 a1 a2) := by
  fun_induction State.storeBytes a0 a1 a2
  all_goals
    repeat' first | with_reducible assumption | with_reducible refine State.storeByte_kept ?_ | with_reducible apply_assumption

theorem State.park_kept {kq : List Instr} {kn : Nat} {s : State} {n : ℕ} {aux : List ℕ} (h0 : Kept kq kn s) :
    Kept kq kn (State.park s n aux) := by
  unfold State.park
  repeat' first
    | with_reducible assumption
    | with_reducible refine State.updCmd_kept ?_ ?_
    | rfl
    | dsimp only
    | intro _

theorem State.elapse_kept {kq : List Instr} {kn : Nat} {s : State} {d : ℕ} (h0 : Kept kq kn s) :
    Kept kq kn (State.elapse s d) := by
  unfold State.elapse
  repeat' first | with_reducible assumption | dsimp only | fail_if_no_progress refine Kept.upd ?_ rfl rfl rfl rfl rfl rfl rfl

theorem State.ifpWrite_kept {kq : List Instr} {kn : Nat} {s : State} {node : ℕ} {addr : ℕ} {d : List Byte} {p : IfpPurpose} (h0 : Kept kq kn s) :
    Kept kq kn (State.ifpWrite s node addr d p) := by
  unfold State.ifpWrite
  repeat' first | with_reducible assumption | with_reducible refine State.newMsg_kept ?_ | with_reducible refine State.ifpFrames_kept ?_

theorem State.qpWritten_kept {kq : List Instr} {kn : Nat} {s : State} {a : ℕ} {n : ℕ} (h0 : Kept kq kn s) :
    Kept kq kn (State.qpWritten s a n) := by
  unfold State.qpWritten
  repeat' first
    | with_reducible assumption
    | with_reducible refine State.qpReady_kept ?_
    | with_reducible refine Kept.foldl ?_ ?_
    | split
    | dsimp only
    | intro _
    | fail_if_no_progress refine Kept.upd ?_ rfl rfl rfl rfl rfl rfl rfl

theorem State.storeOpen_kept {kq : List Instr} {kn : Nat} {a0 : List Byte} {a1 : ℕ} {a2 : State} (h2 : Kept kq kn a2) :
    Kept kq kn (State.storeOpen a0 a1 a2) := by
  fun_induction State.storeOpen a0 a1 a2
  all_goals
    repeat' first
      | with_reducible assumption
      | with_reducible refine State.storeByte_kept ?_
      | with_reducible refine Kept.ite ?_ ?_
      | with_reducible apply_assumption
      | split

theorem State.clearPoison_kept {kq : List Instr} {kn : Nat} {s : State} {a : ℕ} {n : ℕ} (h0 : Kept kq kn s) :
    Kept kq kn (State.clearPoison s a n) := by
  unfold State.clearPoison
  repeat' first | with_reducible assumption | dsimp only | fail_if_no_progress refine Kept.upd ?_ rfl rfl rfl rfl rfl rfl rfl

theorem State.saveBytes_kept {kq : List Instr} {kn : Nat} {s : State} {a : ℕ} {d : List Byte} (h0 : Kept kq kn s) :
    Kept kq kn (State.saveBytes s a d).1 := by
  unfold State.saveBytes
  repeat' first
    | with_reducible assumption
    | with_reducible refine State.mergeMet_kept ?_
    | with_reducible refine State.unbackedHit_kept ?_
    | with_reducible refine State.clearingHit_kept ?_
    | with_reducible refine State.storeOpen_kept ?_
    | with_reducible refine State.qpWritten_kept ?_
    | with_reducible refine State.clearPoison_kept ?_
    | with_reducible refine Kept.ite ?_ ?_
    | with_reducible refine Kept.foldl ?_ ?_
    | split
    | intro _

theorem State.ifpRead_kept {kq : List Instr} {kn : Nat} {s : State} {node : ℕ} {addr : ℕ} {n : ℕ} {p : IfpPurpose} (h0 : Kept kq kn s) :
    Kept kq kn (State.ifpRead s node addr n p) := by
  unfold State.ifpRead
  repeat' first
    | with_reducible assumption
    | with_reducible refine State.newMsg_kept ?_
    | with_reducible refine State.ifpSend_kept ?_
    | dsimp only
    | fail_if_no_progress refine Kept.upd ?_ rfl rfl rfl rfl rfl rfl rfl

theorem State.whenUp_kept {kq : List Instr} {kn : Nat} {s : State} {f : State → State} (h0 : Kept kq kn s) (h1 : ∀ u0, Kept kq kn u0 → Kept kq kn (f u0)) :
    Kept kq kn (State.whenUp s f) := by
  unfold State.whenUp
  repeat' first | with_reducible assumption | with_reducible refine Kept.ite ?_ ?_ | with_reducible refine h1 _ ?_

theorem State.ifpBare_kept {kq : List Instr} {kn : Nat} {s : State} {node : ℕ} {cls : ℕ} {typ : ℕ} {ack : ℕ} (h0 : Kept kq kn s) :
    Kept kq kn (State.ifpBare s node cls typ ack) := by
  unfold State.ifpBare
  repeat' first | with_reducible assumption | with_reducible refine State.ackCarried_kept ?_ | with_reducible refine State.launch_kept ?_

theorem State.placedFor_kept {kq : List Instr} {kn : Nat} {s : State} {c : Cmd} (h0 : Kept kq kn s) :
    Kept kq kn (State.placedFor s c) := by
  unfold State.placedFor
  repeat' first
    | with_reducible assumption
    | with_reducible refine Kept.ite ?_ ?_
    | split
    | dsimp only
    | fail_if_no_progress refine Kept.upd ?_ rfl rfl rfl rfl rfl rfl rfl

theorem State.tallySet_kept {kq : List Instr} {kn : Nat} {s : State} {i : ℕ} {a2 : ℕ} (h0 : Kept kq kn s) :
    Kept kq kn (State.tallySet s i a2) := by
  unfold State.tallySet
  repeat' first | with_reducible assumption | with_reducible refine State.tallyTakes_kept ?_

theorem State.resumeCmd_kept {kq : List Instr} {kn : Nat} {s : State} {n : ℕ} {f : Cmd → State → State} (h0 : Kept kq kn s) (h2 : ∀ u0 u1, Kept kq kn u1 → Kept kq kn (f u0 u1)) :
    Kept kq kn (State.resumeCmd s n f) := by
  unfold State.resumeCmd
  repeat' first
    | with_reducible assumption
    | with_reducible refine State.onImposition_kept ?_ ?_
    | with_reducible refine Kept.ite ?_ ?_
    | with_reducible refine h2 _ _ ?_
    | split
    | intro _

theorem State.gclErrSet_kept {kq : List Instr} {kn : Nat} {s : State} {i : ℕ} (h0 : Kept kq kn s) :
    Kept kq kn (State.gclErrSet s i) := by
  unfold State.gclErrSet
  repeat' first
    | with_reducible assumption
    | with_reducible refine State.irq_kept ?_
    | with_reducible refine State.setFld_kept ?_
    | with_reducible refine Kept.ite ?_ ?_

/-! ### Machine/Tensors.lean -/

theorem State.updTensor_kept {kq : List Instr} {kn : Nat} {s : State} {h : ℕ} {f : Tensor → Tensor} (h0 : Kept kq kn s)
    (hf : ∀ t, Sparse.wf codeDefault t.data = true → Sparse.wf codeDefault (f t).data = true := by
      intro t ht; first
        | exact ht | exact Sparse.wf_nil | exact setTensorBytes_wf Sparse.wf_nil | (split <;> first | exact ht | exact setTensorBytes_wf Sparse.wf_nil)
        | (dsimp only; split <;> first | exact ht | exact setTensorBytes_wf Sparse.wf_nil)) :
    Kept kq kn (State.updTensor s h f) :=
  h0.mapTens fun t ht => by split; exact hf t ht; exact ht

theorem State.writeData_kept {kq : List Instr} {kn : Nat} {s : State} {h : ℕ} {f : Codes → Codes} (h0 : Kept kq kn s)
    (hf : ∀ d, Sparse.wf codeDefault d = true → Sparse.wf codeDefault (f d) = true := by
      intro d hd; first
        | exact setCode_wf hd | exact setCodes_wf hd | exact setTensorBytes_wf hd
        | exact foldCodes_wf (fun _ _ h => setTensorBytes_wf h) Sparse.wf_nil
        | exact Sparse.wf_nil | exact setTensorBytes_wf Sparse.wf_nil) :
    Kept kq kn (State.writeData s h f) := State.updTensor_kept h0 fun t ht => hf t.data ht

theorem State.raiseAll_kept {kq : List Instr} {kn : Nat} {s : State} {l : List ℕ} (h0 : Kept kq kn s) :
    Kept kq kn (State.raiseAll s l) := by
  unfold State.raiseAll
  repeat' first
    | with_reducible assumption
    | with_reducible refine State.tallyAdd_kept ?_
    | with_reducible refine Kept.foldl ?_ ?_
    | intro _

theorem State.retireOf_kept {kq : List Instr} {kn : Nat} {s : State} {t : Tensor} (h0 : Kept kq kn s) :
    Kept kq kn (State.retireOf s t) := by
  unfold State.retireOf
  repeat' first
    | with_reducible assumption
    | with_reducible refine State.updTensor_kept ?_
    | with_reducible refine State.addSat_kept ?_
    | with_reducible refine State.raiseAll_kept ?_
    | with_reducible refine Kept.ite ?_ ?_

theorem State.retire_kept {kq : List Instr} {kn : Nat} {s : State} (h0 : Kept kq kn s) :
    Kept kq kn (State.retire s) := by
  unfold State.retire
  repeat' first
    | with_reducible assumption
    | with_reducible refine State.retireOf_kept ?_
    | with_reducible refine Kept.foldl ?_ ?_
    | split
    | intro _

theorem State.writeScales_kept {kq : List Instr} {kn : Nat} {s : State} {t : Tensor} {f : Codes → Codes} (h0 : Kept kq kn s)
    (hf : ∀ d, Sparse.wf codeDefault d = true → Sparse.wf codeDefault (f d) = true := by
      intro d hd; first
        | exact setCode_wf hd | exact setCodes_wf hd | exact setTensorBytes_wf hd
        | exact foldCodes_wf (fun _ _ h => setTensorBytes_wf h) Sparse.wf_nil
        | exact Sparse.wf_nil | exact setTensorBytes_wf Sparse.wf_nil) :
    Kept kq kn (State.writeScales s t f) := by
  unfold State.writeScales
  split
  · exact State.writeData_kept h0 hf
  · exact h0

/-! ### Machine/Bytes.lean -/

theorem State.pickPage_kept {kq : List Instr} {kn : Nat} {s : State} {ch : ℕ} (h0 : Kept kq kn s) :
    Kept kq kn (State.pickPage s ch).2 := by
  unfold State.pickPage
  repeat' first | with_reducible assumption | with_reducible refine State.free_kept ?_

theorem State.takePages_kept {kq : List Instr} {kn : Nat} {a0 : ℕ} {a1 : State} {a2 : List ℕ} (h1 : Kept kq kn a1) :
    Kept kq kn (State.takePages a0 a1 a2).2 := by
  fun_induction State.takePages a0 a1 a2
  all_goals
    repeat' first
      | with_reducible assumption
      | with_reducible refine State.pickPage_kept ?_
      | with_reducible apply_assumption
      | fail_if_no_progress refine Kept.upd ?_ rfl rfl rfl rfl rfl rfl rfl

theorem State.givePages_kept {kq : List Instr} {kn : Nat} {s : State} {l : List ℕ} (h0 : Kept kq kn s) :
    Kept kq kn (State.givePages s l) := by
  unfold State.givePages
  repeat' first | with_reducible assumption | dsimp only | fail_if_no_progress refine Kept.upd ?_ rfl rfl rfl rfl rfl rfl rfl

/-! ### Machine/Identity.lean -/

theorem State.addRepair_kept {kq : List Instr} {kn : Nat} {s : State} {ch : ℕ} {cause : ℕ} (h0 : Kept kq kn s) :
    Kept kq kn (State.addRepair s ch cause) := by
  unfold State.addRepair
  repeat' first | with_reducible assumption | with_reducible refine State.flashPut_kept ?_ | with_reducible refine Kept.ite ?_ ?_

theorem State.flashErase_kept {kq : List Instr} {kn : Nat} {s : State} {o : ℕ} {n : ℕ} (h0 : Kept kq kn s) :
    Kept kq kn (State.flashErase s o n) := by
  unfold State.flashErase
  repeat' first | with_reducible assumption | with_reducible refine State.flashPut_kept ?_

theorem State.raiseFloor_kept {kq : List Instr} {kn : Nat} {s : State} {kind : ℕ} {svn : ℕ} (h0 : Kept kq kn s) :
    Kept kq kn (State.raiseFloor s kind svn) := by
  unfold State.raiseFloor
  repeat' first
    | with_reducible assumption
    | with_reducible refine State.flashPut_kept ?_
    | with_reducible refine Kept.foldl ?_ ?_
    | dsimp only
    | intro _

theorem State.writeSelector_kept {kq : List Instr} {kn : Nat} {s : State} {kind : ℕ} {slot : ℕ} (h0 : Kept kq kn s) :
    Kept kq kn (State.writeSelector s kind slot) := by
  unfold State.writeSelector
  repeat' first | with_reducible assumption | with_reducible refine State.flashPut_kept ?_

/-! ### Machine/Latching.lean -/

theorem State.biDispatch_kept {kq : List Instr} {kn : Nat} {s : State} {c : Cmd} (h0 : Kept kq kn s) :
    Kept kq kn (State.biDispatch s c) := by
  unfold State.biDispatch
  repeat' first
    | with_reducible assumption
    | with_reducible refine State.updCmd_kept ?_ ?_
    | rfl
    | split
    | dsimp only
    | intro _

theorem State.forget_kept {kq : List Instr} {kn : Nat} {s : State} {c : Cmd} (h0 : Kept kq kn s) :
    Kept kq kn (State.forget s c) := by
  unfold State.forget
  repeat' first
    | with_reducible assumption
    | with_reducible refine State.updCmd_kept ?_ ?_
    | with_reducible refine Kept.ite ?_ ?_
    | rfl
    | dsimp only
    | intro _

theorem State.releaseDispatch_kept {kq : List Instr} {kn : Nat} {s : State} {c : Cmd} (h0 : Kept kq kn s) :
    Kept kq kn (State.releaseDispatch s c) := by
  unfold State.releaseDispatch
  repeat' first
    | with_reducible assumption
    | exact h0.mapTens fun t ht => by split <;> exact ht
    | with_reducible refine State.updCmd_kept ?_ ?_
    | rfl
    | split
    | dsimp only
    | intro _
    | fail_if_no_progress refine Kept.upd ?_ rfl rfl rfl rfl rfl rfl rfl

theorem State.gatherDispatch_kept {kq : List Instr} {kn : Nat} {s : State} {c : Cmd} (h0 : Kept kq kn s) :
    Kept kq kn (State.gatherDispatch s c) := by
  unfold State.gatherDispatch
  repeat' first
    | with_reducible assumption
    | with_reducible refine State.updCmd_kept ?_ ?_
    | rfl
    | split
    | dsimp only
    | intro _

theorem State.updTable_kept {kq : List Instr} {kn : Nat} {s : State} {n : ℕ} {f : GTable → GTable} (h0 : Kept kq kn s) :
    Kept kq kn (State.updTable s n f) := by
  unfold State.updTable
  repeat' first | with_reducible assumption | dsimp only | fail_if_no_progress refine Kept.upd ?_ rfl rfl rfl rfl rfl rfl rfl

theorem State.attnDispatch_kept {kq : List Instr} {kn : Nat} {s : State} {c : Cmd} (h0 : Kept kq kn s) :
    Kept kq kn (State.attnDispatch s c) := by
  unfold State.attnDispatch
  repeat' first | with_reducible assumption | with_reducible refine State.updTable_kept ?_

theorem State.dropEntry_kept {kq : List Instr} {kn : Nat} {s : State} {saved : ℕ} {w : ℕ} (h0 : Kept kq kn s) :
    Kept kq kn (State.dropEntry s saved w) := by
  unfold State.dropEntry
  repeat' first | with_reducible assumption | with_reducible refine State.updTensor_kept ?_

theorem State.bwDispatch_kept {kq : List Instr} {kn : Nat} {s : State} {c : Cmd} (h0 : Kept kq kn s) :
    Kept kq kn (State.bwDispatch s c) := by
  unfold State.bwDispatch
  repeat' first
    | with_reducible assumption
    | with_reducible refine State.updCmd_kept ?_ ?_
    | with_reducible refine State.dropEntry_kept ?_
    | with_reducible refine State.updTensor_kept ?_
    | with_reducible refine State.addSat_kept ?_
    | with_reducible refine Kept.ite ?_ ?_
    | rfl
    | split
    | dsimp only
    | intro _

theorem State.prefetchDispatch_kept {kq : List Instr} {kn : Nat} {s : State} {c : Cmd} (h0 : Kept kq kn s) :
    Kept kq kn (State.prefetchDispatch s c) := by
  unfold State.prefetchDispatch
  repeat' first
    | with_reducible assumption
    | with_reducible refine State.updCmd_kept ?_ ?_
    | rfl
    | dsimp only
    | intro _

theorem State.updateDispatch_kept {kq : List Instr} {kn : Nat} {s : State} {c : Cmd} (h0 : Kept kq kn s) :
    Kept kq kn (State.updateDispatch s c) := by
  unfold State.updateDispatch
  repeat' first
    | with_reducible assumption
    | with_reducible refine State.updCmd_kept ?_ ?_
    | rfl
    | dsimp only
    | intro _

theorem State.feedDispatch_kept {kq : List Instr} {kn : Nat} {s : State} {c : Cmd} (h0 : Kept kq kn s) :
    Kept kq kn (State.feedDispatch s c) := by
  unfold State.feedDispatch
  repeat' first
    | with_reducible assumption
    | with_reducible refine State.updCmd_kept ?_ ?_
    | rfl
    | dsimp only
    | intro _

theorem State.mark_kept {kq : List Instr} {kn : Nat} {s : State} {h : ℕ} {id : ℕ} (h0 : Kept kq kn s) :
    Kept kq kn (State.mark s h id) := by
  unfold State.mark
  repeat' first | with_reducible assumption | with_reducible refine State.updTensor_kept ?_

theorem State.collDispatch_kept {kq : List Instr} {kn : Nat} {s : State} {c : Cmd} (h0 : Kept kq kn s) :
    Kept kq kn (State.collDispatch s c) := by
  unfold State.collDispatch
  repeat' first
    | with_reducible assumption
    | with_reducible refine State.updCmd_kept ?_ ?_
    | with_reducible refine State.addWrap_kept ?_
    | with_reducible refine State.mark_kept ?_
    | with_reducible refine Kept.ite ?_ ?_
    | rfl
    | split
    | dsimp only
    | intro _
    | fail_if_no_progress refine Kept.upd ?_ rfl rfl rfl rfl rfl rfl rfl

theorem State.opDispatch_kept {kq : List Instr} {kn : Nat} {s : State} {c : Cmd} (h0 : Kept kq kn s) :
    Kept kq kn (State.opDispatch s c) := by
  unfold State.opDispatch
  repeat' first
    | with_reducible assumption
    | with_reducible refine State.updCmd_kept ?_ ?_
    | with_reducible refine State.releaseDispatch_kept ?_
    | with_reducible refine State.gatherDispatch_kept ?_
    | with_reducible refine State.attnDispatch_kept ?_
    | with_reducible refine State.biDispatch_kept ?_
    | with_reducible refine State.bwDispatch_kept ?_
    | with_reducible refine State.prefetchDispatch_kept ?_
    | with_reducible refine State.updateDispatch_kept ?_
    | with_reducible refine State.feedDispatch_kept ?_
    | with_reducible refine State.collDispatch_kept ?_
    | with_reducible refine Kept.ite ?_ ?_
    | rfl
    | split
    | dsimp only
    | intro _

theorem State.onDispatch_kept {kq : List Instr} {kn : Nat} {s : State} {c : Cmd} (h0 : Kept kq kn s) :
    Kept kq kn (State.onDispatch s c) := by
  unfold State.onDispatch
  repeat' first
    | with_reducible assumption
    | with_reducible refine State.forget_kept ?_
    | with_reducible refine State.opDispatch_kept ?_
    | split
    | dsimp only

/-! ### Machine/Views.lean -/

theorem State.alarmRose_kept {kq : List Instr} {kn : Nat} {s : State} {was : State} (h0 : Kept kq kn s) (h1 : Kept kq kn was) :
    Kept kq kn (State.alarmRose s was) := by
  unfold State.alarmRose
  repeat' first | with_reducible assumption | with_reducible refine State.proofEvent_kept ?_ | with_reducible refine Kept.ite ?_ ?_

/-! ### Machine/Access.lean -/

theorem State.clearRC_kept {kq : List Instr} {kn : Nat} {s : State} {x : ℕ × ℕ × ℕ} (h0 : Kept kq kn s) :
    Kept kq kn (State.clearRC s x) := by
  unfold State.clearRC
  repeat' first
    | with_reducible assumption
    | with_reducible refine State.setFld_kept ?_
    | with_reducible refine Kept.foldl ?_ ?_
    | split
    | intro _

theorem State.writeSpan_kept {kq : List Instr} {kn : Nat} {s : State} {off : ℕ} {first : ℕ} {count : ℕ} {a4 : ℕ} (h0 : Kept kq kn s) :
    Kept kq kn (State.writeSpan s off first count a4) := by
  unfold State.writeSpan
  repeat' first
    | with_reducible assumption
    | with_reducible refine State.setReg_kept ?_
    | with_reducible refine Kept.ite ?_ ?_
    | split

theorem State.readReg_kept {kq : List Instr} {kn : Nat} {s : State} {o : ℕ} {n : ℕ} (h0 : Kept kq kn s) :
    Kept kq kn (State.readReg s o n).2 := by
  unfold State.readReg
  repeat' first
    | with_reducible assumption
    | with_reducible refine State.clearRC_kept ?_
    | with_reducible refine Kept.foldl ?_ ?_
    | intro _

/-! ### Machine/Rings.lean -/

theorem State.gclRequest_kept {kq : List Instr} {kn : Nat} {s : State} {p : GclPurpose} {m : GclMsg} (h0 : Kept kq kn s) :
    Kept kq kn (State.gclRequest s p m) := by
  unfold State.gclRequest
  split
  · exact Kept.upd h0 rfl rfl rfl rfl rfl rfl rfl
  · exact State.gclSend_kept (Kept.upd h0 rfl rfl rfl rfl rfl rfl rfl)

theorem State.fetchLoop_kept {kq : List Instr} {kn : Nat} {n : ℕ} {a1 : ℕ} {a2 : State} (h2 : Kept kq kn a2) :
    Kept kq kn (State.fetchLoop n a1 a2) := by
  fun_induction State.fetchLoop n a1 a2
  all_goals
    repeat' first
      | with_reducible assumption
      | with_reducible refine State.gclRequest_kept ?_
      | with_reducible refine State.updRing_kept ?_
      | with_reducible apply_assumption

theorem State.fetchRing_kept {kq : List Instr} {kn : Nat} {s : State} {n : ℕ} (h0 : Kept kq kn s) :
    Kept kq kn (State.fetchRing s n) := by
  unfold State.fetchRing
  repeat' first | with_reducible assumption | with_reducible refine State.fetchLoop_kept ?_ | with_reducible refine Kept.ite ?_ ?_

theorem State.doorbell_kept {kq : List Instr} {kn : Nat} {s : State} {n : ℕ} {tail : ℕ} (h0 : Kept kq kn s) :
    Kept kq kn (State.doorbell s n tail) := by
  unfold State.doorbell
  repeat' first
    | with_reducible assumption
    | with_reducible refine State.setFld_kept ?_
    | with_reducible refine State.fetchRing_kept ?_
    | with_reducible refine Kept.ite ?_ ?_

theorem State.replyPump_kept {kq : List Instr} {kn : Nat} {s : State} {n : ℕ} (h0 : Kept kq kn s) :
    Kept kq kn (State.replyPump s n) := by
  unfold State.replyPump
  repeat' first
    | with_reducible assumption
    | with_reducible refine State.updCmd_kept ?_ ?_
    | with_reducible refine State.gclRequest_kept ?_
    | with_reducible refine Kept.ite ?_ ?_
    | rfl
    | split
    | dsimp only
    | intro _

theorem State.replyHead_kept {kq : List Instr} {kn : Nat} {s : State} {n : ℕ} {head : ℕ} (h0 : Kept kq kn s) :
    Kept kq kn (State.replyHead s n head) := by
  unfold State.replyHead
  repeat' first
    | with_reducible assumption
    | with_reducible refine State.setFld_kept ?_
    | with_reducible refine State.replyPump_kept ?_
    | with_reducible refine Kept.ite ?_ ?_

theorem State.gclTagFreed_kept {kq : List Instr} {kn : Nat} {s : State} (h0 : Kept kq kn s) :
    Kept kq kn (State.gclTagFreed s) := by
  unfold State.gclTagFreed
  repeat' first
    | with_reducible assumption
    | with_reducible refine State.gclRequest_kept ?_
    | split
    | dsimp only
    | fail_if_no_progress refine Kept.upd ?_ rfl rfl rfl rfl rfl rfl rfl

theorem State.noticeOne_kept {kq : List Instr} {kn : Nat} {s : State} {x : ℕ × ℕ} (h0 : Kept kq kn s) :
    Kept kq kn (State.noticeOne s x) := by
  unfold State.noticeOne
  repeat' first
    | with_reducible assumption
    | with_reducible refine State.updCmd_kept ?_ ?_
    | with_reducible refine Kept.ite ?_ ?_
    | rfl
    | split
    | dsimp only
    | intro _

theorem State.applySignals_kept {kq : List Instr} {kn : Nat} {s : State} {pkt : List Byte} (h0 : Kept kq kn s) :
    Kept kq kn (State.applySignals s pkt) := by
  unfold State.applySignals
  repeat' first | with_reducible assumption | with_reducible refine State.tallyAdd_kept ?_ | with_reducible refine Kept.ite ?_ ?_

theorem State.writeRingCfg_kept {kq : List Instr} {kn : Nat} {s : State} {n : ℕ} {first : ℕ} {count : ℕ} {a4 : ℕ} (h0 : Kept kq kn s) :
    Kept kq kn (State.writeRingCfg s n first count a4) := by
  unfold State.writeRingCfg
  repeat' first
    | with_reducible assumption
    | with_reducible refine State.writeSpan_kept ?_
    | with_reducible refine State.setReg_kept ?_
    | with_reducible refine State.updRing_kept ?_
    | with_reducible refine State.setFld_kept ?_
    | with_reducible refine Kept.ite ?_ ?_

theorem State.attachHead_kept {kq : List Instr} {kn : Nat} {s : State} {n : ℕ} (h0 : Kept kq kn s) :
    Kept kq kn (State.attachHead s n) := by
  unfold State.attachHead
  repeat' first
    | with_reducible assumption
    | with_reducible refine State.updCmd_kept ?_ ?_
    | with_reducible refine State.tallyWait_kept ?_
    | with_reducible refine Kept.ite ?_ ?_
    | with_reducible refine Kept.foldl ?_ ?_
    | rfl
    | split
    | dsimp only
    | intro _

theorem State.wakeUnits_kept {kq : List Instr} {kn : Nat} {s : State} (h0 : Kept kq kn s) : Kept kq kn s.wakeUnits :=
  Kept.upd h0 rfl rfl rfl rfl rfl rfl rfl

theorem State.dispatchCmd_kept {kq : List Instr} {kn : Nat} {s : State} {c : Cmd} (h0 : Kept kq kn s) :
    Kept kq kn (State.dispatchCmd s c) := by
  unfold State.dispatchCmd
  repeat' first
    | with_reducible assumption
    | with_reducible refine State.updCmd_kept ?_ ?_
    | with_reducible refine State.nextTick_kept ?_
    | with_reducible refine State.finish_kept ?_
    | with_reducible refine State.onDispatch_kept ?_
    | with_reducible refine State.wakeUnits_kept ?_
    | with_reducible refine State.attachHead_kept ?_
    | with_reducible refine Kept.ite ?_ ?_
    | rfl
    | split
    | dsimp only
    | intro _
    | fail_if_no_progress refine Kept.upd ?_ rfl rfl rfl rfl rfl rfl rfl

theorem State.writeReplyCfg_kept {kq : List Instr} {kn : Nat} {s : State} {n : ℕ} {first : ℕ} {count : ℕ} {a4 : ℕ} (h0 : Kept kq kn s) :
    Kept kq kn (State.writeReplyCfg s n first count a4) := by
  unfold State.writeReplyCfg
  repeat' first | with_reducible assumption | with_reducible refine State.writeSpan_kept ?_ | with_reducible refine Kept.ite ?_ ?_

theorem State.fetchAll_kept {kq : List Instr} {kn : Nat} {s : State} (h0 : Kept kq kn s) :
    Kept kq kn (State.fetchAll s) := by
  unfold State.fetchAll
  repeat' first
    | with_reducible assumption
    | with_reducible refine State.fetchRing_kept ?_
    | with_reducible refine Kept.foldl ?_ ?_
    | intro _

theorem State.freeTag_kept {kq : List Instr} {kn : Nat} {s : State} {c : Cmd} (h0 : Kept kq kn s) :
    Kept kq kn (State.freeTag s c) := by
  exact State.fetchAll_kept (State.retire_kept (h0.setCmds rfl h0.sound.numbers.filter))

theorem State.replyWritten_kept {kq : List Instr} {kn : Nat} {s : State} {c : Cmd} (h0 : Kept kq kn s) :
    Kept kq kn (State.replyWritten s c) := by
  unfold State.replyWritten
  repeat' first
    | with_reducible assumption
    | with_reducible refine State.setFld_kept ?_
    | with_reducible refine State.updRing_kept ?_
    | with_reducible refine State.replyPump_kept ?_
    | with_reducible refine State.irq_kept ?_
    | with_reducible refine State.freeTag_kept ?_
    | with_reducible refine Kept.ite ?_ ?_

theorem State.writeCompleted_kept {kq : List Instr} {kn : Nat} {s : State} {n : ℕ} {last : Bool} (h0 : Kept kq kn s) :
    Kept kq kn (State.writeCompleted s n last) := by
  unfold State.writeCompleted
  repeat' first
    | with_reducible assumption
    | with_reducible refine State.updCmd_kept ?_ ?_
    | with_reducible refine State.replyWritten_kept ?_
    | with_reducible refine State.gclRequest_kept ?_
    | with_reducible refine Kept.ite ?_ ?_
    | rfl
    | split
    | dsimp only
    | intro _

theorem State.report_kept {kq : List Instr} {kn : Nat} {s : State} {c : Cmd} (h0 : Kept kq kn s) :
    Kept kq kn (State.report s c) := by
  unfold State.report
  repeat' first
    | with_reducible assumption
    | with_reducible refine State.updCmd_kept ?_ ?_
    | with_reducible refine State.freeTag_kept ?_
    | with_reducible refine State.nextTick_kept ?_
    | with_reducible refine State.replyPump_kept ?_
    | with_reducible refine Kept.ite ?_ ?_
    | rfl
    | dsimp only
    | intro _

theorem State.hostFault_kept {kq : List Instr} {kn : Nat} {s : State} {ring : ℕ} (h0 : Kept kq kn s) :
    Kept kq kn (State.hostFault s ring) := by
  unfold State.hostFault
  repeat' first
    | with_reducible assumption
    | with_reducible refine State.updRing_kept ?_
    | with_reducible refine State.setFld_kept ?_
    | with_reducible refine State.gclErrSet_kept ?_

/-! ### Machine/Coherence.lean -/

theorem State.stall_kept {kq : List Instr} {kn : Nat} {s : State} {w : LineWork} (h0 : Kept kq kn s) :
    Kept kq kn (State.stall s w) := by
  unfold State.stall
  repeat' first | with_reducible assumption | dsimp only | fail_if_no_progress refine Kept.upd ?_ rfl rfl rfl rfl rfl rfl rfl

theorem State.lineWake_kept {kq : List Instr} {kn : Nat} {s : State} {n : ℕ} (h0 : Kept kq kn s) :
    Kept kq kn (State.lineWake s n) := by
  unfold State.lineWake
  repeat' first
    | with_reducible assumption
    | with_reducible refine State.updCmd_kept ?_ ?_
    | rfl
    | split
    | intro _

theorem State.snoopFor_kept {kq : List Instr} {kn : Nat} {s : State} {line : ℕ} {inval : Bool} {w : LineWork} (h0 : Kept kq kn s) :
    Kept kq kn (State.snoopFor s line inval w) := by
  unfold State.snoopFor
  repeat' first
    | with_reducible assumption
    | with_reducible refine State.gclRequest_kept ?_
    | split
    | dsimp only
    | fail_if_no_progress refine Kept.upd ?_ rfl rfl rfl rfl rfl rfl rfl

theorem State.lineGate_kept {kq : List Instr} {kn : Nat} {s : State} {c : Cmd} {loads : List (ℕ × ℕ)} {stores : List (ℕ × ℕ)} (h0 : Kept kq kn s) :
    ∀ v, State.lineGate s c loads stores = some v → Kept kq kn v := by
  unfold State.lineGate
  repeat' first
    | with_reducible assumption
    | with_reducible refine State.snoopFor_kept ?_
    | with_reducible refine State.park_kept ?_
    | with_reducible refine Kept.foldl ?_ ?_
    | with_reducible refine Kept.some_intro ?_
    | with_reducible refine Kept.none_intro
    | split
    | dsimp only
    | intro _

theorem State.setDir_kept {kq : List Instr} {kn : Nat} {s : State} {line : ℕ} {d : DirState} (h0 : Kept kq kn s) :
    Kept kq kn (State.setDir s line d) := by
  unfold State.setDir
  repeat' first
    | with_reducible assumption
    | split
    | dsimp only
    | fail_if_no_progress refine Kept.upd ?_ rfl rfl rfl rfl rfl rfl rfl

/-! ### Machine/Work.lean -/

theorem State.granuleError_kept {kq : List Instr} {kn : Nat} {s : State} {x : ℕ × List ℕ} (h0 : Kept kq kn s) :
    Kept kq kn (State.granuleError s x) := by
  unfold State.granuleError
  dsimp only
  split
  · exact h0
  · exact Kept.ite (State.queueChannel_kept (State.addSat_kept h0)) (State.addSat_kept h0)
  · exact Kept.upd h0 rfl rfl rfl rfl rfl rfl rfl

theorem State.corrections_kept {kq : List Instr} {kn : Nat} {s : State} {env : Env} (h0 : Kept kq kn s) :
    Kept kq kn (State.corrections s env) := by
  unfold State.corrections
  repeat' first
    | with_reducible assumption
    | with_reducible refine State.addSat_kept ?_
    | with_reducible refine State.granuleError_kept ?_
    | with_reducible refine Kept.foldl ?_ ?_
    | split
    | dsimp only
    | intro _
    | fail_if_no_progress refine Kept.upd ?_ rfl rfl rfl rfl rfl rfl rfl

theorem State.envStop_kept {kq : List Instr} {kn : Nat} {s : State} {env : Env} {c : Cmd} {sramDetail : ℕ} (h0 : Kept kq kn s) :
    ∀ v, State.envStop s env c sramDetail = some v → Kept kq kn v.1 := by
  unfold State.envStop
  repeat' first
    | with_reducible assumption
    | with_reducible refine State.stopEffect_kept ?_
    | with_reducible refine Kept.some_intro ?_
    | with_reducible refine Kept.none_intro
    | split
    | dsimp only

theorem State.wake_kept {kq : List Instr} {kn : Nat} {s : State} {reason : ℕ} {c : Cmd} (h0 : Kept kq kn s) :
    Kept kq kn (State.wake s reason c) := by
  unfold State.wake
  repeat' first
    | with_reducible assumption
    | with_reducible refine State.updCmd_kept ?_ ?_
    | with_reducible refine Kept.ite ?_ ?_
    | rfl
    | dsimp only
    | intro _

theorem State.markOutputs_kept {kq : List Instr} {kn : Nat} {s : State} {c : Cmd} {marks : List ℕ} (h0 : Kept kq kn s) :
    Kept kq kn (State.markOutputs s c marks) := by
  unfold State.markOutputs
  repeat' first
    | with_reducible assumption
    | with_reducible refine State.updTensor_kept ?_
    | with_reducible refine Kept.foldl ?_ ?_
    | intro _

theorem State.write_kept {kq : List Instr} {kn : Nat} {s : State} {w : Write} (h0 : Kept kq kn s) :
    Kept kq kn (State.write s w) := by
  unfold State.write
  repeat' first
    | with_reducible assumption
    | with_reducible refine State.writeScales_kept ?_
    | with_reducible refine State.writeData_kept ?_
    | with_reducible refine Kept.ite ?_ ?_
    | split

theorem State.writeSome_kept {kq : List Instr} {kn : Nat} {s : State} {l : List Write} (h0 : Kept kq kn s) :
    Kept kq kn (State.writeSome s l) := by
  unfold State.writeSome
  repeat' first
    | with_reducible assumption
    | with_reducible refine State.free_kept ?_
    | with_reducible refine State.write_kept ?_
    | with_reducible refine Kept.foldl ?_ ?_
    | split
    | intro _

theorem State.rewritten_kept {kq : List Instr} {kn : Nat} {s : State} {l : List Write} (h0 : Kept kq kn s) :
    Kept kq kn (State.rewritten s l) := by
  unfold State.rewritten
  repeat' first
    | with_reducible assumption
    | with_reducible refine State.clearPoison_kept ?_
    | with_reducible refine Kept.foldl ?_ ?_
    | intro _

theorem State.writeAll_kept {kq : List Instr} {kn : Nat} {s : State} {l : List Write} (h0 : Kept kq kn s) :
    Kept kq kn (State.writeAll s l) := by
  unfold State.writeAll
  repeat' first
    | with_reducible assumption
    | with_reducible refine State.write_kept ?_
    | with_reducible refine Kept.foldl ?_ ?_
    | intro _

theorem State.complete_kept {kq : List Instr} {kn : Nat} {s : State} {env : Env} {c : Cmd} {sramDetail : ℕ} {l : List Write} {o : Outcome} (h0 : Kept kq kn s) :
    Kept kq kn (State.complete s env c sramDetail l o) := by
  unfold State.complete
  repeat' first
    | with_reducible assumption
    | with_reducible refine State.corrections_kept ?_
    | with_reducible refine State.envStop_kept ?_
    | with_reducible refine State.finish_kept ?_
    | with_reducible refine State.markOutputs_kept ?_
    | with_reducible refine State.writeSome_kept ?_
    | with_reducible refine State.rewritten_kept ?_
    | with_reducible refine State.writeAll_kept ?_
    | split
    | dsimp only
    | refine Kept.of_some_fst ‹_ = some (_, _)› ?_

theorem State.draw_kept {kq : List Instr} {kn : Nat} {s : State} {core : ℕ} {lane : ℕ} (h0 : Kept kq kn s) :
    Kept kq kn (State.draw s core lane).2 := by
  unfold State.draw
  repeat' first
    | with_reducible assumption
    | with_reducible refine State.addWrap_kept ?_
    | with_reducible refine Kept.ite ?_ ?_
    | with_reducible refine Kept.foldl ?_ ?_
    | dsimp only
    | intro _
    | fail_if_no_progress refine Kept.upd ?_ rfl rfl rfl rfl rfl rfl rfl

theorem State.rounding_kept {kq : List Instr} {kn : Nat} {s : State} {sr : Bool} {token : ℕ} {n : ℕ} (h0 : Kept kq kn s) :
    Kept kq kn (State.rounding s sr token n).2 := by
  unfold State.rounding
  repeat' first | with_reducible assumption | with_reducible refine State.draw_kept ?_ | with_reducible refine Kept.ite_snd ?_ ?_

theorem State.raiseFlag_kept {kq : List Instr} {kn : Nat} {s : State} {places : List ℕ} {i : ℕ} (h0 : Kept kq kn s) :
    Kept kq kn (State.raiseFlag s places i) := by
  unfold State.raiseFlag
  repeat' first
    | with_reducible assumption
    | with_reducible refine State.free_kept ?_
    | with_reducible refine State.setReg_kept ?_
    | with_reducible refine Kept.foldl ?_ ?_
    | split
    | intro _

theorem State.raiseIn_kept {kq : List Instr} {kn : Nat} {s : State} {places : List ℕ} {f : Flags} {vector : Bool} (h0 : Kept kq kn s) :
    Kept kq kn (State.raiseIn s places f vector) := by
  unfold State.raiseIn
  repeat' first
    | with_reducible assumption
    | with_reducible refine State.raiseFlag_kept ?_
    | with_reducible refine State.proofEvent_kept ?_
    | with_reducible refine Kept.ite ?_ ?_
    | with_reducible refine Kept.foldl ?_ ?_
    | split
    | intro _

theorem State.work_kept {kq : List Instr} {kn : Nat} {s : State} {n : ℕ} {opcode : ℕ} {f : Cmd → State → State} (h0 : Kept kq kn s) (h3 : ∀ u0 u1, Kept kq kn u1 → Kept kq kn (f u0 u1)) :
    Kept kq kn (State.work s n opcode f) := by
  unfold State.work
  repeat' first
    | with_reducible assumption
    | with_reducible refine State.runCmd_kept ?_ ?_
    | with_reducible refine State.park_kept ?_
    | with_reducible refine State.finish_kept ?_
    | with_reducible refine h3 _ _ ?_
    | split
    | intro _

theorem State.wakeAll_kept {kq : List Instr} {kn : Nat} {s : State} {reasons : List ℕ} (h0 : Kept kq kn s) :
    Kept kq kn (State.wakeAll s reasons) := by
  unfold State.wakeAll
  repeat' first
    | with_reducible assumption
    | with_reducible refine State.wake_kept ?_
    | with_reducible refine Kept.foldl ?_ ?_
    | intro _

theorem State.raiseAt_kept {kq : List Instr} {kn : Nat} {s : State} {cores : List ℕ} {f : Flags} {vector : Bool} (h0 : Kept kq kn s) :
    Kept kq kn (State.raiseAt s cores f vector) := by
  unfold State.raiseAt
  repeat' first | with_reducible assumption | with_reducible refine State.raiseIn_kept ?_

theorem State.dropImage_kept {kq : List Instr} {kn : Nat} {s : State} {h : ℕ} (h0 : Kept kq kn s) :
    Kept kq kn (State.dropImage s h) := by
  unfold State.dropImage
  repeat' first
    | with_reducible assumption
    | with_reducible refine State.givePages_kept ?_
    | with_reducible refine State.updTensor_kept ?_
    | split

theorem State.takeSave_kept {kq : List Instr} {kn : Nat} {s : State} {h : ℕ} (h0 : Kept kq kn s) :
    Kept kq kn (State.takeSave s h) := by
  unfold State.takeSave
  repeat' first | with_reducible assumption | with_reducible refine State.updTensor_kept ?_ | with_reducible refine State.dropImage_kept ?_

theorem State.takeSaves_kept {kq : List Instr} {kn : Nat} {s : State} {c : Cmd} (h0 : Kept kq kn s) :
    ∀ v, State.takeSaves s c = some v → Kept kq kn v := by
  unfold State.takeSaves
  refine Kept.foldl_some (Kept.some_intro h0) fun u t hu => ?_
  split
  · exact Kept.none_intro
  · split
    · exact Kept.some_intro (State.takeSave_kept (hu _ rfl))
    · exact Kept.none_intro

theorem State.withSaves_kept {kq : List Instr} {kn : Nat} {s : State} {c : Cmd} {f : State → State} (h0 : Kept kq kn s) (h2 : ∀ u0, Kept kq kn u0 → Kept kq kn (f u0)) :
    Kept kq kn (State.withSaves s c f) := by
  unfold State.withSaves
  repeat' first
    | with_reducible assumption
    | with_reducible refine State.takeSaves_kept ?_
    | with_reducible refine State.finish_kept ?_
    | with_reducible refine h2 _ ?_
    | split
    | refine Kept.of_some ‹_ = some _› ?_

theorem State.raiseRow_kept {kq : List Instr} {kn : Nat} {s : State} {row : ℕ} {f : Flags} (h0 : Kept kq kn s) :
    Kept kq kn (State.raiseRow s row f) := by
  unfold State.raiseRow
  repeat' first | with_reducible assumption | with_reducible refine State.raiseAt_kept ?_

theorem State.raiseFlags_kept {kq : List Instr} {kn : Nat} {s : State} {f : Flags} {vector : Bool} (h0 : Kept kq kn s) :
    Kept kq kn (State.raiseFlags s f vector) := by
  unfold State.raiseFlags
  repeat' first | with_reducible assumption | with_reducible refine State.raiseAt_kept ?_

/-! ### Machine/Output.lean -/

theorem State.convertOut_kept {kq : List Instr} {kn : Nat} {s : State} {sr : Bool} {fmt : ℕ} {token : ℕ} {n : ℕ} {a5 : Val} (h0 : Kept kq kn s) :
    Kept kq kn (State.convertOut s sr fmt token n a5).2 := by
  unfold State.convertOut
  repeat' first | with_reducible assumption | with_reducible refine State.rounding_kept ?_ | with_reducible refine Kept.ite_snd ?_ ?_

theorem State.roundings_kept {kq : List Instr} {kn : Nat} {sr : Bool} {token : ℕ} {a2 : List ℕ} {a3 : State} (h3 : Kept kq kn a3) :
    Kept kq kn (State.roundings sr token a2 a3).2 := by
  fun_induction State.roundings sr token a2 a3
  all_goals
    repeat' first | with_reducible assumption | with_reducible refine State.rounding_kept ?_ | with_reducible apply_assumption

theorem State.rowScaled_kept {kq : List Instr} {kn : Nat} {sr : Bool} {t : Tensor} {row : ℕ} {token : ℕ} {a4 : List (List (ℕ × Val))} {a5 : State × List Write × Flags} (h5 : Kept kq kn a5.1) :
    Kept kq kn (State.rowScaled sr t row token a4 a5).1 := by
  fun_induction State.rowScaled sr t row token a4 a5
  all_goals
    repeat' first | with_reducible assumption | with_reducible refine State.roundings_kept ?_ | with_reducible apply_assumption

theorem State.rowOut_kept {kq : List Instr} {kn : Nat} {sr : Bool} {t : Tensor} {row : ℕ} {token : ℕ} {a4 : List (ℕ × Val)} {a5 : State × List Write × Flags} (h5 : Kept kq kn a5.1) :
    Kept kq kn (State.rowOut sr t row token a4 a5).1 := by
  fun_induction State.rowOut sr t row token a4 a5
  all_goals
    repeat' first | with_reducible assumption | with_reducible refine State.convertOut_kept ?_ | with_reducible apply_assumption

theorem State.outputRow_kept {kq : List Instr} {kn : Nat} {sr : Bool} {t : Tensor} {row : ℕ} {token : ℕ} {l : List (ℕ × Val)} {a : State × List Write × Flags} (h5 : Kept kq kn a.1) :
    Kept kq kn (State.outputRow sr t row token l a).1 := by
  unfold State.outputRow
  repeat' first
    | with_reducible assumption
    | with_reducible refine State.rowScaled_kept ?_
    | with_reducible refine State.rowOut_kept ?_
    | with_reducible refine Kept.ite_fst ?_ ?_

/-! ### Machine/Tallies.lean -/

theorem State.tallyCmd_kept {kq : List Instr} {kn : Nat} {s : State} {c : Cmd} {home : ℕ → State → State} {away : ℕ → State → State} (h0 : Kept kq kn s) (h2 : ∀ u0 u1, Kept kq kn u1 → Kept kq kn (home u0 u1)) (h3 : ∀ u0 u1, Kept kq kn u1 → Kept kq kn (away u0 u1)) :
    Kept kq kn (State.tallyCmd s c home away) := by
  unfold State.tallyCmd
  repeat' first
    | with_reducible assumption
    | with_reducible refine State.finish_kept ?_
    | with_reducible refine State.fabricErr_kept ?_
    | with_reducible refine Kept.ite ?_ ?_
    | with_reducible refine h2 _ _ ?_
    | with_reducible refine h3 _ _ ?_
    | split
    | dsimp only

theorem execTallySet_kept {kq : List Instr} {kn : Nat} {n : ℕ} {s : State} (h1 : Kept kq kn s) :
    ∀ v, execTallySet n s = .next v → Kept kq kn v := by
  unfold execTallySet
  repeat' first
    | with_reducible assumption
    | with_reducible refine State.runCmd_kept ?_ ?_
    | with_reducible refine State.tallyCmd_kept ?_ ?_ ?_
    | with_reducible refine State.finish_kept ?_
    | with_reducible refine State.tallySet_kept ?_
    | with_reducible refine State.ifpWrite_kept ?_
    | with_reducible refine State.park_kept ?_
    | with_reducible refine Kept.next_intro ?_
    | intro _

theorem State.cancelWatch_kept {kq : List Instr} {kn : Nat} {s : State} {c : Cmd} (h0 : Kept kq kn s) :
    Kept kq kn (State.cancelWatch s c) := by
  unfold State.cancelWatch
  repeat' first
    | with_reducible assumption
    | with_reducible refine State.updCmd_kept ?_ ?_
    | with_reducible refine State.ifpMessage_kept ?_
    | rfl
    | split
    | dsimp only
    | intro _

theorem execTallyRead_kept {kq : List Instr} {kn : Nat} {n : ℕ} {s : State} (h1 : Kept kq kn s) :
    ∀ v, execTallyRead n s = .next v → Kept kq kn v := by
  unfold execTallyRead
  repeat' first
    | with_reducible assumption
    | with_reducible refine State.runCmd_kept ?_ ?_
    | with_reducible refine State.tallyCmd_kept ?_ ?_ ?_
    | with_reducible refine State.finish_kept ?_
    | with_reducible refine State.ifpRead_kept ?_
    | with_reducible refine State.park_kept ?_
    | with_reducible refine Kept.next_intro ?_
    | intro _

theorem State.tallyWaitCmd_kept {kq : List Instr} {kn : Nat} {s : State} {c : Cmd} {isEq : Bool} (h0 : Kept kq kn s) :
    Kept kq kn (State.tallyWaitCmd s c isEq) := by
  unfold State.tallyWaitCmd
  repeat' first
    | with_reducible assumption
    | with_reducible refine State.tallyCmd_kept ?_ ?_ ?_
    | with_reducible refine State.tallyWait_kept ?_
    | with_reducible refine State.park_kept ?_
    | with_reducible refine State.ifpMessage_kept ?_
    | split
    | dsimp only
    | intro _

theorem execTallyWaitEq_kept {kq : List Instr} {kn : Nat} {n : ℕ} {s : State} (h1 : Kept kq kn s) :
    ∀ v, execTallyWaitEq n s = .next v → Kept kq kn v := by
  unfold execTallyWaitEq
  repeat' first
    | with_reducible assumption
    | with_reducible refine State.runCmd_kept ?_ ?_
    | with_reducible refine State.tallyWaitCmd_kept ?_
    | with_reducible refine Kept.next_intro ?_
    | intro _

theorem execTallyLimit_kept {kq : List Instr} {kn : Nat} {n : ℕ} {s : State} (h1 : Kept kq kn s) :
    ∀ v, execTallyLimit n s = .next v → Kept kq kn v := by
  unfold execTallyLimit
  repeat' first
    | with_reducible assumption
    | with_reducible refine State.resumeCmd_kept ?_ ?_
    | with_reducible refine State.detach_kept ?_
    | with_reducible refine State.finish_kept ?_
    | with_reducible refine State.cancelWatch_kept ?_
    | with_reducible refine Kept.next_intro ?_
    | split
    | dsimp only
    | intro _

theorem execTallyWaitGe_kept {kq : List Instr} {kn : Nat} {n : ℕ} {s : State} (h1 : Kept kq kn s) :
    ∀ v, execTallyWaitGe n s = .next v → Kept kq kn v := by
  unfold execTallyWaitGe
  repeat' first
    | with_reducible assumption
    | with_reducible refine State.runCmd_kept ?_ ?_
    | with_reducible refine State.tallyWaitCmd_kept ?_
    | with_reducible refine Kept.next_intro ?_
    | intro _

theorem execTallyAdd_kept {kq : List Instr} {kn : Nat} {n : ℕ} {s : State} (h1 : Kept kq kn s) :
    ∀ v, execTallyAdd n s = .next v → Kept kq kn v := by
  unfold execTallyAdd
  repeat' first
    | with_reducible assumption
    | with_reducible refine State.runCmd_kept ?_ ?_
    | with_reducible refine State.tallyCmd_kept ?_ ?_ ?_
    | with_reducible refine State.finish_kept ?_
    | with_reducible refine State.tallyAdd_kept ?_
    | with_reducible refine State.ifpMessage_kept ?_
    | with_reducible refine State.park_kept ?_
    | with_reducible refine Kept.next_intro ?_
    | intro _

/-! ### Machine/RoceOps.lean -/

theorem State.roceEmit_kept {kq : List Instr} {kn : Nat} {s : State} {q : QueuePair} {m : RoceMsg} (h0 : Kept kq kn s) :
    Kept kq kn (State.roceEmit s q m) := by
  unfold State.roceEmit
  repeat' first
    | with_reducible assumption
    | with_reducible refine Kept.ite ?_ ?_
    | dsimp only
    | fail_if_no_progress refine Kept.upd ?_ rfl rfl rfl rfl rfl rfl rfl

theorem State.updQp_kept {kq : List Instr} {kn : Nat} {s : State} {i : ℕ} {f : QueuePair → QueuePair} (h0 : Kept kq kn s) :
    Kept kq kn (State.updQp s i f) := by
  unfold State.updQp
  repeat' first | with_reducible assumption | dsimp only | fail_if_no_progress refine Kept.upd ?_ rfl rfl rfl rfl rfl rfl rfl

theorem State.rocePut_kept {kq : List Instr} {kn : Nat} {s : State} {q : QueuePair} {cmd : ℕ} {m : ℕ → RoceMsg} (h0 : Kept kq kn s) :
    Kept kq kn (State.rocePut s q cmd m) := by
  unfold State.rocePut
  repeat' first
    | with_reducible assumption
    | with_reducible refine State.roceEmit_kept ?_
    | with_reducible refine State.updQp_kept ?_
    | split

theorem State.roceSend_kept {kq : List Instr} {kn : Nat} {s : State} {q : QueuePair} {cmd : ℕ} {d : List Byte} (h0 : Kept kq kn s) :
    Kept kq kn (State.roceSend s q cmd d) := by
  unfold State.roceSend
  repeat' first
    | with_reducible assumption
    | with_reducible refine State.rocePut_kept ?_
    | with_reducible refine Kept.foldl ?_ ?_
    | intro _

theorem State.roceWrite_kept {kq : List Instr} {kn : Nat} {s : State} {q : QueuePair} {cmd : ℕ} {off : ℕ} {d : List Byte} (h0 : Kept kq kn s) :
    Kept kq kn (State.roceWrite s q cmd off d) := by
  unfold State.roceWrite
  repeat' first
    | with_reducible assumption
    | with_reducible refine State.rocePut_kept ?_
    | with_reducible refine Kept.foldl ?_ ?_
    | intro _

theorem State.roceRead_kept {kq : List Instr} {kn : Nat} {s : State} {q : QueuePair} {cmd : ℕ} {off : ℕ} {n : ℕ} (h0 : Kept kq kn s) :
    Kept kq kn (State.roceRead s q cmd off n) := by
  unfold State.roceRead
  repeat' first | with_reducible assumption | with_reducible refine State.updQp_kept ?_ | with_reducible refine State.rocePut_kept ?_

end Sys2Proof.Machine
end

