-- ==== Sys2Proof/Laws/KeptCompute.lean ====
section
/-! SUPPORT. The operations of the memory, matrix, vector, attention and training groups keep a state as `Kept` says. -/

set_option Elab.async false

namespace Sys2Proof.Machine

/-! ### Machine/Memory.lean -/

theorem State.sendOut_kept {kq : List Instr} {kn : Nat} {s : State} {c : Cmd} {b : ℕ} {d : List Byte} (h0 : Kept kq kn s) :
    Kept kq kn (State.sendOut s c b d) := by
  unfold State.sendOut
  repeat' first
    | with_reducible assumption
    | with_reducible refine State.roceWrite_kept ?_
    | with_reducible refine State.roceSend_kept ?_
    | with_reducible refine State.ifpWrite_kept ?_
    | with_reducible refine Kept.ite ?_ ?_
    | split

theorem State.copyRefused_kept {kq : List Instr} {kn : Nat} {s : State} {c : Cmd} {d : ℕ} {ranges : List (ℕ × ℕ)} (h0 : Kept kq kn s) :
    Kept kq kn (State.copyRefused s c d ranges) := by
  unfold State.copyRefused
  repeat' first
    | with_reducible assumption
    | with_reducible refine State.fabricErr_kept ?_
    | with_reducible refine State.finish_kept ?_
    | split

theorem State.rangeGate_kept {kq : List Instr} {kn : Nat} {s : State} {c : Cmd} {loads : List (ℕ × ℕ)} {stores : List (ℕ × ℕ)} (h0 : Kept kq kn s) :
    ∀ v, State.rangeGate s c loads stores = some v → Kept kq kn v := by
  unfold State.rangeGate
  repeat' first
    | with_reducible assumption
    | with_reducible refine State.park_kept ?_
    | with_reducible refine State.lineGate_kept ?_
    | with_reducible refine Kept.some_intro ?_
    | split

theorem State.unmark_kept {kq : List Instr} {kn : Nat} {s : State} {a n : ℕ} (h0 : Kept kq kn s) :
    Kept kq kn (State.unmark s a n) := by
  unfold State.unmark
  exact Kept.ite (h0.mapTens fun t ht => by split <;> exact ht) h0

theorem State.poisonErr_kept {kq : List Instr} {kn : Nat} {s : State} {x : ReadStop} (h0 : Kept kq kn s) :
    Kept kq kn (State.poisonErr s x) := by
  unfold State.poisonErr
  repeat' first | with_reducible assumption | with_reducible refine State.fabricErr_kept ?_ | split

theorem State.cmdStore_kept {kq : List Instr} {kn : Nat} {s : State} {a : ℕ} {d : List Byte} (h0 : Kept kq kn s) :
    Kept kq kn (State.cmdStore s a d).1 := by
  unfold State.cmdStore
  repeat' first
    | with_reducible assumption
    | with_reducible refine State.unmark_kept ?_
    | with_reducible refine State.saveBytes_kept ?_
    | with_reducible refine State.poisonErr_kept ?_
    | with_reducible refine State.mergeMet_kept ?_
    | split

theorem State.putOut_kept {kq : List Instr} {kn : Nat} {s : State} {c : Cmd} {a2 : List Segment} {a3 : List Byte} (h0 : Kept kq kn s) :
    Kept kq kn (State.putOut s c a2 a3).1 := by
  fun_induction State.putOut s c a2 a3
  all_goals
    repeat' first
      | with_reducible assumption
      | with_reducible refine State.cmdStore_kept ?_
      | with_reducible refine State.sendOut_kept ?_
      | with_reducible apply_assumption
      | dsimp only
      | refine Kept.of_fst ‹_ = (_, _)› ?_

theorem State.copyOut_kept {kq : List Instr} {kn : Nat} {s : State} {c : Cmd} {d : List Byte} (h0 : Kept kq kn s) :
    Kept kq kn (State.copyOut s c d) := by
  unfold State.copyOut
  repeat' first
    | with_reducible assumption
    | with_reducible refine State.roceSend_kept ?_
    | with_reducible refine State.park_kept ?_
    | with_reducible refine State.putOut_kept ?_
    | with_reducible refine State.finish_kept ?_
    | with_reducible refine Kept.ite ?_ ?_
    | split
    | dsimp only
    | refine Kept.of_fst ‹_ = (_, _)› ?_

theorem State.gathered_kept {kq : List Instr} {kn : Nat} {s : State} {c : Cmd} {d : List Byte} (h0 : Kept kq kn s) :
    Kept kq kn (State.gathered s c d) := by
  unfold State.gathered
  repeat' first
    | with_reducible assumption
    | with_reducible refine State.finish_kept ?_
    | with_reducible refine State.copyOut_kept ?_
    | with_reducible refine Kept.ite ?_ ?_

theorem State.fetchSource_kept {kq : List Instr} {kn : Nat} {s : State} {c : Cmd} {a : ℕ} {n : ℕ} (h0 : Kept kq kn s) :
    Kept kq kn (State.fetchSource s c a n) := by
  unfold State.fetchSource
  repeat' first
    | with_reducible assumption
    | with_reducible refine State.roceRead_kept ?_
    | with_reducible refine State.park_kept ?_
    | with_reducible refine State.ifpRead_kept ?_
    | split

theorem State.openWrite_kept {kq : List Instr} {kn : Nat} {s : State} {a : ℕ} {d : List Byte} (h0 : Kept kq kn s) :
    Kept kq kn (State.openWrite s a d) := by
  unfold State.openWrite
  repeat' first
    | with_reducible assumption
    | with_reducible refine State.free_kept ?_
    | with_reducible refine State.storeByte_kept ?_
    | with_reducible refine Kept.foldl ?_ ?_
    | split
    | intro _

theorem State.openOut_kept {kq : List Instr} {kn : Nat} {s : State} {a1 : List Segment} {a2 : List Byte} (h0 : Kept kq kn s) :
    Kept kq kn (State.openOut s a1 a2) := by
  fun_induction State.openOut s a1 a2
  all_goals
    repeat' first
      | with_reducible assumption
      | with_reducible refine State.openWrite_kept ?_
      | with_reducible refine Kept.ite ?_ ?_
      | with_reducible apply_assumption

theorem State.gather_kept {kq : List Instr} {kn : Nat} {s : State} {c : Cmd} {a2 : List Segment} {a3 : List Byte} (h0 : Kept kq kn s) :
    Kept kq kn (State.gather s c a2 a3) := by
  fun_induction State.gather s c a2 a3
  all_goals
    repeat' first
      | with_reducible assumption
      | with_reducible refine State.updCmd_kept ?_ ?_
      | with_reducible refine State.gathered_kept ?_
      | with_reducible refine State.fetchSource_kept ?_
      | with_reducible refine State.openOut_kept ?_
      | with_reducible refine State.finish_kept ?_
      | with_reducible refine State.poisonErr_kept ?_
      | with_reducible refine State.stopEffect_kept ?_
      | with_reducible refine Kept.ite ?_ ?_
      | with_reducible apply_assumption

theorem execChecksum_kept {kq : List Instr} {kn : Nat} {n : ℕ} {env : Env} {s : State} (h2 : Kept kq kn s) :
    ∀ v, execChecksum n env s = .next v → Kept kq kn v := by
  unfold execChecksum
  repeat' first
    | with_reducible assumption
    | with_reducible refine State.work_kept ?_ ?_
    | with_reducible refine State.finish_kept ?_
    | with_reducible refine State.copyRefused_kept ?_
    | with_reducible refine State.corrections_kept ?_
    | with_reducible refine State.rangeGate_kept ?_
    | with_reducible refine State.gather_kept ?_
    | with_reducible refine Kept.next_intro ?_
    | split
    | dsimp only
    | intro _
    | refine Kept.of_some ‹_ = some _› ?_

theorem State.applyRate_kept {kq : List Instr} {kn : Nat} {s : State} (h0 : Kept kq kn s) :
    Kept kq kn (State.applyRate s) := by
  unfold State.applyRate
  repeat' first
    | with_reducible assumption
    | with_reducible refine State.addSat_kept ?_
    | with_reducible refine State.setFld_kept ?_
    | with_reducible refine Kept.ite ?_ ?_
    | dsimp only
    | fail_if_no_progress refine Kept.upd ?_ rfl rfl rfl rfl rfl rfl rfl

theorem State.subslotEnd_kept {kq : List Instr} {kn : Nat} {s : State} (h0 : Kept kq kn s) :
    Kept kq kn (State.subslotEnd s) := by
  unfold State.subslotEnd
  repeat' first
    | with_reducible assumption
    | with_reducible refine State.applyRate_kept ?_
    | with_reducible refine State.addWrap_kept ?_
    | with_reducible refine Kept.ite ?_ ?_
    | dsimp only
    | fail_if_no_progress refine Kept.upd ?_ rfl rfl rfl rfl rfl rfl rfl

theorem State.mapOut_kept {kq : List Instr} {kn : Nat} {s : State} {a1 : ℕ} (h0 : Kept kq kn s) :
    Kept kq kn (State.mapOut s a1) := by
  unfold State.mapOut
  repeat' first | with_reducible assumption | with_reducible refine State.queueChannel_kept ?_ | with_reducible refine Kept.ite ?_ ?_

theorem execMapOutRequest_kept {kq : List Instr} {kn : Nat} {channel : ℕ} {s : State} (h1 : Kept kq kn s) :
    ∀ v, execMapOutRequest channel s = .next v → Kept kq kn v := by
  unfold execMapOutRequest
  repeat' first
    | with_reducible assumption
    | with_reducible refine State.whenUp_kept ?_ ?_
    | with_reducible refine State.mapOut_kept ?_
    | with_reducible refine Kept.next_intro ?_
    | intro _

theorem State.copyCmd_kept {kq : List Instr} {kn : Nat} {s : State} {env : Env} {c : Cmd} (h0 : Kept kq kn s) :
    Kept kq kn (State.copyCmd s env c) := by
  unfold State.copyCmd
  repeat' first
    | with_reducible assumption
    | with_reducible refine State.copyRefused_kept ?_
    | with_reducible refine State.corrections_kept ?_
    | with_reducible refine State.rangeGate_kept ?_
    | with_reducible refine State.gather_kept ?_
    | split
    | dsimp only
    | refine Kept.of_some ‹_ = some _› ?_

theorem execCopy2d_kept {kq : List Instr} {kn : Nat} {n : ℕ} {env : Env} {s : State} (h2 : Kept kq kn s) :
    ∀ v, execCopy2d n env s = .next v → Kept kq kn v := by
  unfold execCopy2d
  repeat' first
    | with_reducible assumption
    | with_reducible refine State.work_kept ?_ ?_
    | with_reducible refine State.copyCmd_kept ?_
    | with_reducible refine Kept.next_intro ?_
    | intro _

theorem execAclkRateChange_kept {kq : List Instr} {kn : Nat} {s : State} (h0 : Kept kq kn s) :
    ∀ v, execAclkRateChange s = .next v → Kept kq kn v := by
  unfold execAclkRateChange
  repeat' first
    | with_reducible assumption
    | with_reducible refine State.whenUp_kept ?_ ?_
    | with_reducible refine State.subslotEnd_kept ?_
    | with_reducible refine Kept.next_intro ?_
    | split
    | intro _

theorem State.faulted_kept {kq : List Instr} {kn : Nat} {s : State} {c : Cmd} {fault : ℕ} {a : ℕ} {result : ℕ} (h0 : Kept kq kn s) :
    Kept kq kn (State.faulted s c fault a result) := by
  unfold State.faulted
  repeat' first | with_reducible assumption | with_reducible refine State.finish_kept ?_ | with_reducible refine State.fabricErr_kept ?_

theorem State.memoryData_kept {kq : List Instr} {kn : Nat} {s : State} {c : Cmd} (h0 : Kept kq kn s) :
    Kept kq kn (State.memoryData s c) := by
  unfold State.memoryData
  repeat' first | with_reducible assumption | with_reducible refine State.gather_kept ?_ | split

theorem execCopy_kept {kq : List Instr} {kn : Nat} {n : ℕ} {env : Env} {s : State} (h2 : Kept kq kn s) :
    ∀ v, execCopy n env s = .next v → Kept kq kn v := by
  unfold execCopy
  repeat' first
    | with_reducible assumption
    | with_reducible refine State.work_kept ?_ ?_
    | with_reducible refine State.copyCmd_kept ?_
    | with_reducible refine Kept.next_intro ?_
    | intro _

theorem execFill_kept {kq : List Instr} {kn : Nat} {n : ℕ} {env : Env} {s : State} (h2 : Kept kq kn s) :
    ∀ v, execFill n env s = .next v → Kept kq kn v := by
  unfold execFill
  repeat' first
    | with_reducible assumption
    | with_reducible refine State.work_kept ?_ ?_
    | with_reducible refine State.corrections_kept ?_
    | with_reducible refine State.finish_kept ?_
    | with_reducible refine State.copyRefused_kept ?_
    | with_reducible refine State.sendOut_kept ?_
    | with_reducible refine State.park_kept ?_
    | with_reducible refine State.rangeGate_kept ?_
    | with_reducible refine State.cmdStore_kept ?_
    | with_reducible refine Kept.next_intro ?_
    | split
    | dsimp only
    | intro _
    | refine Kept.of_fst ‹_ = (_, _)› ?_
    | refine Kept.of_some ‹_ = some _› ?_

theorem State.deliver_kept {kq : List Instr} {kn : Nat} {s : State} {c : Cmd} {a : ℕ} {d : List Byte} {result : ℕ} {ended : ℕ} (h0 : Kept kq kn s) :
    Kept kq kn (State.deliver s c a d result ended) := by
  unfold State.deliver
  repeat' first
    | with_reducible assumption
    | with_reducible refine State.finish_kept ?_
    | with_reducible refine State.faulted_kept ?_
    | with_reducible refine State.sendOut_kept ?_
    | with_reducible refine State.park_kept ?_
    | with_reducible refine State.rangeGate_kept ?_
    | with_reducible refine State.saveBytes_kept ?_
    | with_reducible refine Kept.ite ?_ ?_
    | split
    | refine Kept.of_fst ‹_ = (_, _)› ?_
    | refine Kept.of_some ‹_ = some _› ?_

theorem execRefreshSubslot_kept {kq : List Instr} {kn : Nat} {s : State} (h0 : Kept kq kn s) :
    ∀ v, execRefreshSubslot s = .next v → Kept kq kn v := by
  unfold execRefreshSubslot
  repeat' first
    | with_reducible assumption
    | with_reducible refine State.whenUp_kept ?_ ?_
    | with_reducible refine State.subslotEnd_kept ?_
    | with_reducible refine Kept.next_intro ?_
    | split
    | intro _

theorem State.fetch_kept {kq : List Instr} {kn : Nat} {s : State} {env : Env} {c : Cmd} {a : ℕ} {n : ℕ} {detail : ℕ} {f : List Byte → State → State} (h0 : Kept kq kn s) (h6 : ∀ u0 u1, Kept kq kn u1 → Kept kq kn (f u0 u1)) :
    Kept kq kn (State.fetch s env c a n detail f) := by
  unfold State.fetch
  repeat' first
    | with_reducible assumption
    | with_reducible refine State.faulted_kept ?_
    | with_reducible refine State.corrections_kept ?_
    | with_reducible refine State.rangeGate_kept ?_
    | with_reducible refine State.finish_kept ?_
    | with_reducible refine State.stopEffect_kept ?_
    | with_reducible refine State.loadBytes_kept ?_
    | with_reducible refine h6 _ _ ?_
    | split
    | dsimp only
    | refine Kept.of_fst ‹_ = (_, _)› ?_
    | refine Kept.of_some ‹_ = some _› ?_

/-! ### Machine/Vector.lean -/

theorem State.setVreg_kept {kq : List Instr} {kn : Nat} {s : State} {core : ℕ} {r : ℕ} {l : List ℕ} (h0 : Kept kq kn s) :
    Kept kq kn (State.setVreg s core r l) := by
  unfold State.setVreg
  exact h0.updVregs (Sparse.setMany_wf h0.sound.vregs)

theorem State.stLanes_kept {kq : List Instr} {kn : Nat} {s : State} {slot : ℕ} {t : ℕ} {g : ℕ} {sr : Bool} {l : List ℕ} {f : Flags} (h0 : Kept kq kn s) :
    Kept kq kn (State.stLanes s slot t g sr l f).1 := by
  unfold State.stLanes
  repeat' first
    | with_reducible assumption
    | with_reducible refine State.write_kept ?_
    | with_reducible refine State.outputRow_kept ?_
    | with_reducible refine State.writeAll_kept ?_
    | with_reducible refine Kept.ite_fst ?_ ?_
    | with_reducible refine Kept.foldl ?_ ?_
    | split
    | intro _

theorem State.drawLanes_kept {kq : List Instr} {kn : Nat} {core : ℕ} {a1 : List ℕ} {a2 : State} (h2 : Kept kq kn a2) :
    Kept kq kn (State.drawLanes core a1 a2).2 := by
  fun_induction State.drawLanes core a1 a2
  all_goals
    repeat' first | with_reducible assumption | with_reducible refine State.draw_kept ?_ | with_reducible apply_assumption

theorem State.vstep_kept {kq : List Instr} {kn : Nat} {core : ℕ} {t : ℕ} {g : ℕ} {w : ℕ} {x : State × Flags} (h4 : Kept kq kn x.1) :
    Kept kq kn (State.vstep core t g w x).1 := by
  unfold State.vstep
  repeat' first
    | with_reducible assumption
    | with_reducible refine State.setVreg_kept ?_
    | with_reducible refine State.stLanes_kept ?_
    | with_reducible refine State.drawLanes_kept ?_
    | with_reducible refine Kept.ite_fst ?_ ?_

theorem State.vectorRow_kept {kq : List Instr} {kn : Nat} {s : State} {op : ℕ} {core : ℕ} {t : ℕ} {g : ℕ} {w : Word64} (h0 : Kept kq kn s) :
    Kept kq kn (State.vectorRow s op core t g w) := by
  unfold State.vectorRow
  repeat' first
    | with_reducible assumption
    | with_reducible refine State.vstep_kept ?_
    | with_reducible refine State.raiseAt_kept ?_
    | with_reducible refine Kept.ite ?_ ?_

theorem execVectorNop_kept {kq : List Instr} {kn : Nat} {core : ℕ} {t : ℕ} {g : ℕ} {w : Word64} {s : State} (h4 : Kept kq kn s) :
    ∀ v, execVectorNop core t g w s = .next v → Kept kq kn v := by
  unfold execVectorNop
  repeat' first | with_reducible assumption | with_reducible refine State.vectorRow_kept ?_ | with_reducible refine Kept.next_intro ?_

theorem State.gatedRows_kept {kq : List Instr} {kn : Nat} {s : State} {c : Cmd} {g : Tensor} {u : Tensor} {o : Tensor} (h0 : Kept kq kn s) :
    Kept kq kn (State.gatedRows s c g u o).1 := by
  unfold State.gatedRows
  repeat' first
    | with_reducible assumption
    | with_reducible refine State.outputRow_kept ?_
    | with_reducible refine State.raiseRow_kept ?_
    | with_reducible refine Kept.foldl_fst ?_ ?_
    | dsimp only
    | intro _

theorem execGatedAct_kept {kq : List Instr} {kn : Nat} {n : ℕ} {env : Env} {s : State} (h2 : Kept kq kn s) :
    ∀ v, execGatedAct n env s = .next v → Kept kq kn v := by
  unfold execGatedAct
  repeat' first
    | with_reducible assumption
    | with_reducible refine State.work_kept ?_ ?_
    | with_reducible refine State.finish_kept ?_
    | with_reducible refine State.withSaves_kept ?_ ?_
    | with_reducible refine State.gatedRows_kept ?_
    | with_reducible refine State.complete_kept ?_
    | with_reducible refine Kept.next_intro ?_
    | split
    | dsimp only
    | intro _

theorem State.fillBank_kept {kq : List Instr} {kn : Nat} {s : State} {t : ℕ} {e : List ℕ} (h0 : Kept kq kn s) :
    Kept kq kn (State.fillBank s t e) := by
  unfold State.fillBank
  repeat' first
    | with_reducible assumption
    | with_reducible refine Kept.ite ?_ ?_
    | dsimp only
    | fail_if_no_progress refine Kept.upd ?_ rfl rfl rfl rfl rfl rfl rfl

theorem State.switchBank_kept {kq : List Instr} {kn : Nat} {s : State} {t : ℕ} {check : ℕ} (h0 : Kept kq kn s) :
    Kept kq kn (State.switchBank s t check) := by
  unfold State.switchBank
  repeat' first | with_reducible assumption | with_reducible refine State.setFld_kept ?_ | with_reducible refine State.setReg_kept ?_

theorem State.seedLoad_kept {kq : List Instr} {kn : Nat} {s : State} {c : Cmd} {e : List ℕ} (h0 : Kept kq kn s) :
    Kept kq kn (State.seedLoad s c e) := by
  unfold State.seedLoad
  repeat' first
    | with_reducible assumption
    | with_reducible refine State.fillBank_kept ?_
    | with_reducible refine State.finish_kept ?_
    | with_reducible refine State.switchBank_kept ?_
    | with_reducible refine Kept.ite ?_ ?_

theorem execSeedBankSwitch_kept {kq : List Instr} {kn : Nat} {n : ℕ} {s : State} (h1 : Kept kq kn s) :
    ∀ v, execSeedBankSwitch n s = .next v → Kept kq kn v := by
  unfold execSeedBankSwitch
  repeat' first
    | with_reducible assumption
    | with_reducible refine State.resumeCmd_kept ?_ ?_
    | with_reducible refine State.seedLoad_kept ?_
    | with_reducible refine State.fetch_kept ?_ ?_
    | with_reducible refine Kept.next_intro ?_
    | split
    | intro _

theorem execSfu_kept {kq : List Instr} {kn : Nat} {core : ℕ} {t : ℕ} {g : ℕ} {w : Word64} {s : State} (h4 : Kept kq kn s) :
    ∀ v, execSfu core t g w s = .next v → Kept kq kn v := by
  unfold execSfu
  repeat' first | with_reducible assumption | with_reducible refine State.vectorRow_kept ?_ | with_reducible refine Kept.next_intro ?_

theorem State.runSteps_kept {kq : List Instr} {kn : Nat} {s : State} {steps : List (ℕ × ℕ × ℕ)} {x : State × Flags} (h0 : Kept kq kn s) (h2 : Kept kq kn x.1) :
    Kept kq kn (State.runSteps s steps x).1 := by
  unfold State.runSteps
  repeat' first
    | with_reducible assumption
    | with_reducible refine State.vstep_kept ?_
    | with_reducible refine State.raiseRow_kept ?_
    | with_reducible refine Kept.foldl_fst ?_ ?_
    | dsimp only
    | intro _

theorem State.vectorProgram_kept {kq : List Instr} {kn : Nat} {s : State} {env : Env} {c : Cmd} {prog : List ℕ} (h0 : Kept kq kn s) :
    Kept kq kn (State.vectorProgram s env c prog) := by
  unfold State.vectorProgram
  repeat' first
    | with_reducible assumption
    | with_reducible refine State.finish_kept ?_
    | with_reducible refine State.withSaves_kept ?_ ?_
    | with_reducible refine State.corrections_kept ?_
    | with_reducible refine State.envStop_kept ?_
    | with_reducible refine State.free_kept ?_
    | with_reducible refine State.runSteps_kept ?_ ?_
    | with_reducible refine State.markOutputs_kept ?_
    | split
    | dsimp only
    | intro _
    | refine Kept.of_some_fst ‹_ = some (_, _)› ?_
    | fail_if_no_progress refine Kept.updVregs ?_ Sparse.wf_nil

theorem execSt_kept {kq : List Instr} {kn : Nat} {core : ℕ} {t : ℕ} {g : ℕ} {w : Word64} {s : State} (h4 : Kept kq kn s) :
    ∀ v, execSt core t g w s = .next v → Kept kq kn v := by
  unfold execSt
  repeat' first | with_reducible assumption | with_reducible refine State.vectorRow_kept ?_ | with_reducible refine Kept.next_intro ?_

theorem execLoadSeedTable_kept {kq : List Instr} {kn : Nat} {n : ℕ} {s : State} (h1 : Kept kq kn s) :
    ∀ v, execLoadSeedTable n s = .next v → Kept kq kn v := by
  unfold execLoadSeedTable
  repeat' first
    | with_reducible assumption
    | with_reducible refine State.work_kept ?_ ?_
    | with_reducible refine State.finish_kept ?_
    | with_reducible refine State.faulted_kept ?_
    | with_reducible refine State.fetchSource_kept ?_
    | with_reducible refine State.park_kept ?_
    | with_reducible refine Kept.next_intro ?_
    | split
    | dsimp only
    | intro _

theorem execAbs_kept {kq : List Instr} {kn : Nat} {core : ℕ} {t : ℕ} {g : ℕ} {w : Word64} {s : State} (h4 : Kept kq kn s) :
    ∀ v, execAbs core t g w s = .next v → Kept kq kn v := by
  unfold execAbs
  repeat' first | with_reducible assumption | with_reducible refine State.vectorRow_kept ?_ | with_reducible refine Kept.next_intro ?_

theorem execRowStats_kept {kq : List Instr} {kn : Nat} {n : ℕ} {env : Env} {s : State} (h2 : Kept kq kn s) :
    ∀ v, execRowStats n env s = .next v → Kept kq kn v := by
  refine Kept.next_intro (State.work_kept h2 fun c u hu => ?_)
  split
  · split
    · exact State.finish_kept hu
    · refine State.withSaves_kept hu fun w hw => ?_
      extract_lets sd r
      have hr : Kept kq kn r.2.2.2 := by
        unfold r
        refine Kept.foldl_proj (π := fun (x : List Write × Nat × Flags × State) => x.2.2.2) hw fun x a hx => ?_
        exact State.raiseRow_kept hx
      clear_value r
      exact State.complete_kept hr
  · exact State.finish_kept hu

theorem execMin_kept {kq : List Instr} {kn : Nat} {core : ℕ} {t : ℕ} {g : ℕ} {w : Word64} {s : State} (h4 : Kept kq kn s) :
    ∀ v, execMin core t g w s = .next v → Kept kq kn v := by
  unfold execMin
  repeat' first | with_reducible assumption | with_reducible refine State.vectorRow_kept ?_ | with_reducible refine Kept.next_intro ?_

theorem State.seedGenerators_kept {kq : List Instr} {kn : Nat} {s : State} {job : ℕ} {step : ℕ} (h0 : Kept kq kn s) :
    Kept kq kn (State.seedGenerators s job step) := by
  unfold State.seedGenerators
  repeat' first
    | with_reducible assumption
    | with_reducible refine State.setReg_kept ?_
    | with_reducible refine Kept.foldl ?_ ?_
    | dsimp only
    | intro _
    | fail_if_no_progress refine Kept.upd ?_ rfl rfl rfl rfl rfl rfl rfl

theorem execSel_kept {kq : List Instr} {kn : Nat} {core : ℕ} {t : ℕ} {g : ℕ} {w : Word64} {s : State} (h4 : Kept kq kn s) :
    ∀ v, execSel core t g w s = .next v → Kept kq kn v := by
  unfold execSel
  repeat' first | with_reducible assumption | with_reducible refine State.vectorRow_kept ?_ | with_reducible refine Kept.next_intro ?_

theorem execCmplt_kept {kq : List Instr} {kn : Nat} {core : ℕ} {t : ℕ} {g : ℕ} {w : Word64} {s : State} (h4 : Kept kq kn s) :
    ∀ v, execCmplt core t g w s = .next v → Kept kq kn v := by
  unfold execCmplt
  repeat' first | with_reducible assumption | with_reducible refine State.vectorRow_kept ?_ | with_reducible refine Kept.next_intro ?_

theorem execSub_kept {kq : List Instr} {kn : Nat} {core : ℕ} {t : ℕ} {g : ℕ} {w : Word64} {s : State} (h4 : Kept kq kn s) :
    ∀ v, execSub core t g w s = .next v → Kept kq kn v := by
  unfold execSub
  repeat' first | with_reducible assumption | with_reducible refine State.vectorRow_kept ?_ | with_reducible refine Kept.next_intro ?_

theorem execLdi_kept {kq : List Instr} {kn : Nat} {core : ℕ} {t : ℕ} {g : ℕ} {w : Word64} {s : State} (h4 : Kept kq kn s) :
    ∀ v, execLdi core t g w s = .next v → Kept kq kn v := by
  unfold execLdi
  repeat' first | with_reducible assumption | with_reducible refine State.vectorRow_kept ?_ | with_reducible refine Kept.next_intro ?_

theorem execMax_kept {kq : List Instr} {kn : Nat} {core : ℕ} {t : ℕ} {g : ℕ} {w : Word64} {s : State} (h4 : Kept kq kn s) :
    ∀ v, execMax core t g w s = .next v → Kept kq kn v := by
  unfold execMax
  repeat' first | with_reducible assumption | with_reducible refine State.vectorRow_kept ?_ | with_reducible refine Kept.next_intro ?_

theorem execLd_kept {kq : List Instr} {kn : Nat} {core : ℕ} {t : ℕ} {g : ℕ} {w : Word64} {s : State} (h4 : Kept kq kn s) :
    ∀ v, execLd core t g w s = .next v → Kept kq kn v := by
  unfold execLd
  repeat' first | with_reducible assumption | with_reducible refine State.vectorRow_kept ?_ | with_reducible refine Kept.next_intro ?_

theorem execRand_kept {kq : List Instr} {kn : Nat} {core : ℕ} {t : ℕ} {g : ℕ} {w : Word64} {s : State} (h4 : Kept kq kn s) :
    ∀ v, execRand core t g w s = .next v → Kept kq kn v := by
  unfold execRand
  repeat' first | with_reducible assumption | with_reducible refine State.vectorRow_kept ?_ | with_reducible refine Kept.next_intro ?_

theorem execMul_kept {kq : List Instr} {kn : Nat} {core : ℕ} {t : ℕ} {g : ℕ} {w : Word64} {s : State} (h4 : Kept kq kn s) :
    ∀ v, execMul core t g w s = .next v → Kept kq kn v := by
  unfold execMul
  repeat' first | with_reducible assumption | with_reducible refine State.vectorRow_kept ?_ | with_reducible refine Kept.next_intro ?_

theorem execSeedGenerators_kept {kq : List Instr} {kn : Nat} {n : ℕ} {s : State} (h1 : Kept kq kn s) :
    ∀ v, execSeedGenerators n s = .next v → Kept kq kn v := by
  unfold execSeedGenerators
  repeat' first
    | with_reducible assumption
    | with_reducible refine State.work_kept ?_ ?_
    | with_reducible refine State.finish_kept ?_
    | with_reducible refine State.seedGenerators_kept ?_
    | with_reducible refine Kept.next_intro ?_
    | split
    | intro _

theorem execRandu_kept {kq : List Instr} {kn : Nat} {core : ℕ} {t : ℕ} {g : ℕ} {w : Word64} {s : State} (h4 : Kept kq kn s) :
    ∀ v, execRandu core t g w s = .next v → Kept kq kn v := by
  unfold execRandu
  repeat' first | with_reducible assumption | with_reducible refine State.vectorRow_kept ?_ | with_reducible refine Kept.next_intro ?_

theorem execFma_kept {kq : List Instr} {kn : Nat} {core : ℕ} {t : ℕ} {g : ℕ} {w : Word64} {s : State} (h4 : Kept kq kn s) :
    ∀ v, execFma core t g w s = .next v → Kept kq kn v := by
  unfold execFma
  repeat' first | with_reducible assumption | with_reducible refine State.vectorRow_kept ?_ | with_reducible refine Kept.next_intro ?_

theorem execNeg_kept {kq : List Instr} {kn : Nat} {core : ℕ} {t : ℕ} {g : ℕ} {w : Word64} {s : State} (h4 : Kept kq kn s) :
    ∀ v, execNeg core t g w s = .next v → Kept kq kn v := by
  unfold execNeg
  repeat' first | with_reducible assumption | with_reducible refine State.vectorRow_kept ?_ | with_reducible refine Kept.next_intro ?_

theorem execVectorProgram_kept {kq : List Instr} {kn : Nat} {n : ℕ} {env : Env} {s : State} (h2 : Kept kq kn s) :
    ∀ v, execVectorProgram n env s = .next v → Kept kq kn v := by
  unfold execVectorProgram
  repeat' first
    | with_reducible assumption
    | with_reducible refine State.work_kept ?_ ?_
    | with_reducible refine State.finish_kept ?_
    | with_reducible refine State.fetch_kept ?_ ?_
    | with_reducible refine State.vectorProgram_kept ?_
    | with_reducible refine Kept.next_intro ?_
    | split
    | intro _

theorem execAdd_kept {kq : List Instr} {kn : Nat} {core : ℕ} {t : ℕ} {g : ℕ} {w : Word64} {s : State} (h4 : Kept kq kn s) :
    ∀ v, execAdd core t g w s = .next v → Kept kq kn v := by
  unfold execAdd
  repeat' first | with_reducible assumption | with_reducible refine State.vectorRow_kept ?_ | with_reducible refine Kept.next_intro ?_

/-! ### Machine/Galleys.lean -/

theorem State.reclaim_kept {kq : List Instr} {kn : Nat} {s : State} (h0 : Kept kq kn s) :
    Kept kq kn (State.reclaim s).2 := by
  unfold State.reclaim
  repeat' first
    | with_reducible assumption
    | with_reducible refine State.addSat_kept ?_
    | dsimp only
    | fail_if_no_progress refine Kept.upd ?_ rfl rfl rfl rfl rfl rfl rfl

theorem State.refreshTable_kept {kq : List Instr} {kn : Nat} {s : State} {n : ℕ} (h0 : Kept kq kn s) :
    Kept kq kn (State.refreshTable s n).2 := by
  unfold State.refreshTable
  repeat' first
    | with_reducible assumption
    | with_reducible refine State.updTable_kept ?_
    | with_reducible refine State.reclaim_kept ?_
    | with_reducible refine Kept.ite ?_ ?_
    | dsimp only
    | fail_if_no_progress refine Kept.upd ?_ rfl rfl rfl rfl rfl rfl rfl

theorem State.publishTable_kept {kq : List Instr} {kn : Nat} {s : State} {n : ℕ} (h0 : Kept kq kn s) :
    Kept kq kn (State.publishTable s n).2 := by
  unfold State.publishTable
  repeat' first
    | with_reducible assumption
    | with_reducible refine State.updTable_kept ?_
    | with_reducible refine State.refreshTable_kept ?_
    | with_reducible refine Kept.ite_snd ?_ ?_
    | split

theorem State.shadowEdit_kept {kq : List Instr} {kn : Nat} {s : State} {c : Cmd} {check : Option ℕ} {f : State → State} (h0 : Kept kq kn s) (h3 : ∀ u0, Kept kq kn u0 → Kept kq kn (f u0)) :
    Kept kq kn (State.shadowEdit s c check f) := by
  unfold State.shadowEdit
  repeat' first
    | with_reducible assumption
    | with_reducible refine State.finish_kept ?_
    | with_reducible refine State.park_kept ?_
    | with_reducible refine Kept.ite ?_ ?_
    | with_reducible refine h3 _ ?_
    | split

theorem State.allocGalley_kept {kq : List Instr} {kn : Nat} {s : State} (h0 : Kept kq kn s) :
    ∀ v, State.allocGalley s = some v → Kept kq kn v.2 := by
  unfold State.allocGalley
  repeat' first
    | with_reducible assumption
    | with_reducible refine State.free_kept ?_
    | with_reducible refine Kept.some_intro ?_
    | with_reducible refine Kept.none_intro
    | split
    | dsimp only
    | fail_if_no_progress refine Kept.upd ?_ rfl rfl rfl rfl rfl rfl rfl

theorem State.updGalley_kept {kq : List Instr} {kn : Nat} {s : State} {g : ℕ} {f : Galley → Galley} (h0 : Kept kq kn s) :
    Kept kq kn (State.updGalley s g f) := by
  unfold State.updGalley
  repeat' first | with_reducible assumption | dsimp only | fail_if_no_progress refine Kept.upd ?_ rfl rfl rfl rfl rfl rfl rfl

theorem EditSt.writable_kept {kq : List Instr} {kn : Nat} {e : EditSt} {n : ℕ} {h : ℕ} {p : ℕ} (h0 : Kept kq kn e.s) :
    ∀ v, EditSt.writable e n h p = some v → Kept kq kn v.2.s := by
  unfold EditSt.writable
  repeat' first
    | with_reducible assumption
    | with_reducible refine State.allocGalley_kept ?_
    | with_reducible refine State.updTable_kept ?_
    | with_reducible refine State.updGalley_kept ?_
    | with_reducible refine State.addSat_kept ?_
    | with_reducible refine Kept.some_intro ?_
    | with_reducible refine Kept.none_intro
    | split
    | dsimp only
    | refine Kept.of_some_snd ‹_ = some (_, _)› ?_

theorem appendHead_kept {kq : List Instr} {kn : Nat} {c : Cmd} {n : ℕ} {d : ℕ} {p : ℕ} {i : ℕ} {h : ℕ} {krow : List Val} {vrow : List Val} {a : EditSt × Flags} (h8 : Kept kq kn a.1.s) :
    ∀ v, appendHead c n d p i h krow vrow a = some v → Kept kq kn v.1.s := by
  unfold appendHead
  repeat' first
    | with_reducible assumption
    | with_reducible refine EditSt.writable_kept ?_
    | with_reducible refine State.updGalley_kept ?_
    | with_reducible refine Kept.some_intro ?_
    | with_reducible refine Kept.none_intro
    | split
    | refine Kept.of_some_edit_snd ‹_ = some (_, _)› ?_

theorem State.appendTokens_kept {kq : List Instr} {kn : Nat} {s : State} {c : Cmd} {t : GTable} {k : Tensor} {a4 : Tensor} (h0 : Kept kq kn s) :
    ∀ v, State.appendTokens s c t k a4 = some v → Kept kq kn v.1.s := by
  unfold State.appendTokens
  refine Kept.foldl_some (Kept.some_intro h0) fun u i hu => ?_
  exact Kept.foldl_some hu fun w h hw => Kept.bind_some fun a ha => appendHead_kept (hw a ha)

theorem State.append_kept {kq : List Instr} {kn : Nat} {s : State} {env : Env} {c : Cmd} (h0 : Kept kq kn s) :
    Kept kq kn (State.append s env c) := by
  unfold State.append
  repeat' first
    | with_reducible assumption
    | with_reducible refine State.corrections_kept ?_
    | with_reducible refine State.appendTokens_kept ?_
    | with_reducible refine State.envStop_kept ?_
    | with_reducible refine State.finish_kept ?_
    | with_reducible refine State.raiseFlags_kept ?_
    | with_reducible refine State.updTable_kept ?_
    | split
    | dsimp only
    | refine Kept.of_some_fst ‹_ = some (_, _)› ?_
    | refine Kept.of_some_edit_fst ‹_ = some (_, _)› ?_

theorem execGalleyAppend_kept {kq : List Instr} {kn : Nat} {n : ℕ} {env : Env} {s : State} (h2 : Kept kq kn s) :
    ∀ v, execGalleyAppend n env s = .next v → Kept kq kn v := by
  unfold execGalleyAppend
  repeat' first
    | with_reducible assumption
    | with_reducible refine State.work_kept ?_ ?_
    | with_reducible refine State.shadowEdit_kept ?_ ?_
    | with_reducible refine State.append_kept ?_
    | with_reducible refine Kept.next_intro ?_
    | intro _

theorem State.endWalk_kept {kq : List Instr} {kn : Nat} {s : State} {n : ℕ} (h0 : Kept kq kn s) :
    Kept kq kn (State.endWalk s n) := by
  unfold State.endWalk
  repeat' first
    | with_reducible assumption
    | with_reducible refine State.updTable_kept ?_
    | with_reducible refine State.refreshTable_kept ?_
    | with_reducible refine Kept.foldl ?_ ?_
    | split
    | dsimp only
    | intro _

theorem execWalkEnd_kept {kq : List Instr} {kn : Nat} {n : ℕ} {s : State} (h1 : Kept kq kn s) :
    ∀ v, execWalkEnd n s = .next v → Kept kq kn v := by
  unfold execWalkEnd
  repeat' first
    | with_reducible assumption
    | with_reducible refine State.endWalk_kept ?_
    | with_reducible refine Kept.ite ?_ ?_
    | with_reducible refine Kept.next_intro ?_
    | split

theorem State.editDone_kept {kq : List Instr} {kn : Nat} {s : State} {c : Cmd} {len : ℕ} {gen : ℕ} {freed : ℕ} (h0 : Kept kq kn s) :
    Kept kq kn (State.editDone s c len gen freed) := by
  unfold State.editDone
  repeat' first | with_reducible assumption | with_reducible refine State.finish_kept ?_

theorem moveToken_kept {kq : List Instr} {kn : Nat} {n : ℕ} {d : ℕ} {h : ℕ} {src : ℕ} {dst : ℕ} {e : EditSt} (h5 : Kept kq kn e.s) :
    ∀ v, moveToken n d h src dst e = some v → Kept kq kn v.s := by
  unfold moveToken
  repeat' first
    | with_reducible assumption
    | with_reducible refine EditSt.writable_kept ?_
    | with_reducible refine State.updGalley_kept ?_
    | with_reducible refine Kept.some_intro ?_
    | with_reducible refine Kept.none_intro
    | split
    | refine Kept.of_some_edit_snd ‹_ = some (_, _)› ?_

theorem verifyTable_kept {kq : List Instr} {kn : Nat} {d : ℕ} {base : ℕ} {path : List ℕ} {e : EditSt} {n : ℕ} (h3 : Kept kq kn e.s) :
    ∀ v, verifyTable d base path e n = some v → Kept kq kn v.s := by
  unfold verifyTable
  split
  · exact Kept.none_intro
  · refine Kept.foldl_some (Kept.some_intro h3) fun u h hu => Kept.foldl_some hu fun w p hw => ?_
    split
    · exact hw
    · exact Kept.bind_some fun a ha => moveToken_kept (hw a ha)

theorem State.publishTables_kept {kq : List Instr} {kn : Nat} {s : State} {l : List ℕ} (h0 : Kept kq kn s) :
    Kept kq kn (State.publishTables s l).2 := by
  unfold State.publishTables
  repeat' first
    | with_reducible assumption
    | with_reducible refine State.publishTable_kept ?_
    | with_reducible refine Kept.foldl_snd ?_ ?_
    | dsimp only
    | intro _

theorem execGalleyPublish_kept {kq : List Instr} {kn : Nat} {n : ℕ} {s : State} (h1 : Kept kq kn s) :
    ∀ v, execGalleyPublish n s = .next v → Kept kq kn v := by
  unfold execGalleyPublish
  repeat' first
    | with_reducible assumption
    | with_reducible refine State.work_kept ?_ ?_
    | with_reducible refine State.finish_kept ?_
    | with_reducible refine State.publishTables_kept ?_
    | with_reducible refine Kept.next_intro ?_
    | split
    | dsimp only
    | intro _

theorem State.verify_kept {kq : List Instr} {kn : Nat} {s : State} {env : Env} {c : Cmd} (h0 : Kept kq kn s) :
    Kept kq kn (State.verify s env c) := by
  unfold State.verify
  repeat' first
    | with_reducible assumption
    | with_reducible refine State.corrections_kept ?_
    | with_reducible refine State.envStop_kept ?_
    | with_reducible refine State.finish_kept ?_
    | with_reducible refine verifyTable_kept ?_
    | with_reducible refine State.updTable_kept ?_
    | with_reducible refine State.reclaim_kept ?_
    | with_reducible refine State.publishTables_kept ?_
    | with_reducible refine Kept.foldl ?_ ?_
    | with_reducible refine Kept.foldl_some ?_ ?_
    | with_reducible refine Kept.bind_some ?_
    | with_reducible refine Kept.some_intro ?_
    | split
    | dsimp only
    | intro _
    | refine Kept.of_some_fst ‹_ = some (_, _)› ?_
    | refine Kept.of_some_edit ‹_ = some _› ?_

theorem execVerifyTree_kept {kq : List Instr} {kn : Nat} {n : ℕ} {env : Env} {s : State} (h2 : Kept kq kn s) :
    ∀ v, execVerifyTree n env s = .next v → Kept kq kn v := by
  unfold execVerifyTree
  repeat' first
    | with_reducible assumption
    | with_reducible refine State.work_kept ?_ ?_
    | with_reducible refine State.shadowEdit_kept ?_ ?_
    | with_reducible refine State.verify_kept ?_
    | with_reducible refine Kept.next_intro ?_
    | intro _

theorem State.storeInit_kept {kq : List Instr} {kn : Nat} {s : State} {c : Cmd} (h0 : Kept kq kn s) :
    Kept kq kn (State.storeInit s c) := by
  unfold State.storeInit
  repeat' first
    | with_reducible assumption
    | with_reducible refine State.givePages_kept ?_
    | with_reducible refine State.finish_kept ?_
    | with_reducible refine State.takePages_kept ?_
    | with_reducible refine State.editDone_kept ?_
    | with_reducible refine State.setReg_kept ?_
    | with_reducible refine Kept.ite ?_ ?_
    | dsimp only
    | fail_if_no_progress refine Kept.upd ?_ rfl rfl rfl rfl rfl rfl rfl

theorem State.setShadow_kept {kq : List Instr} {kn : Nat} {s : State} {n : ℕ} {b : Bank} (h0 : Kept kq kn s) :
    Kept kq kn (State.setShadow s n b) := by
  unfold State.setShadow
  repeat' first | with_reducible assumption | with_reducible refine State.updTable_kept ?_

theorem State.edit_kept {kq : List Instr} {kn : Nat} {s : State} {c : Cmd} (h0 : Kept kq kn s) :
    Kept kq kn (State.edit s c) := by
  unfold State.edit
  repeat' first
    | with_reducible assumption
    | with_reducible refine State.storeInit_kept ?_
    | with_reducible refine State.editDone_kept ?_
    | with_reducible refine State.finish_kept ?_
    | with_reducible refine State.reclaim_kept ?_
    | with_reducible refine State.setShadow_kept ?_
    | with_reducible refine State.updTable_kept ?_
    | with_reducible refine State.publishTable_kept ?_
    | with_reducible refine Kept.ite ?_ ?_
    | split
    | dsimp only
    | fail_if_no_progress refine Kept.upd ?_ rfl rfl rfl rfl rfl rfl rfl

theorem execGalleyWaiterResume_kept {kq : List Instr} {kn : Nat} {n : ℕ} {env : Env} {s : State} (h2 : Kept kq kn s) :
    ∀ v, execGalleyWaiterResume n env s = .next v → Kept kq kn v := by
  unfold execGalleyWaiterResume
  repeat' first
    | with_reducible assumption
    | with_reducible refine State.resumeCmd_kept ?_ ?_
    | with_reducible refine State.shadowEdit_kept ?_ ?_
    | with_reducible refine State.append_kept ?_
    | with_reducible refine State.edit_kept ?_
    | with_reducible refine State.verify_kept ?_
    | with_reducible refine Kept.next_intro ?_
    | split
    | intro _

theorem State.endWalks_kept {kq : List Instr} {kn : Nat} {s : State} {n : ℕ} (h0 : Kept kq kn s) :
    Kept kq kn (State.endWalks s n) := by
  unfold State.endWalks
  repeat' first
    | with_reducible assumption
    | with_reducible refine State.endWalk_kept ?_
    | with_reducible refine Kept.foldl ?_ ?_
    | dsimp only
    | intro _
    | fail_if_no_progress refine Kept.upd ?_ rfl rfl rfl rfl rfl rfl rfl

theorem execGalleyEdit_kept {kq : List Instr} {kn : Nat} {n : ℕ} {s : State} (h1 : Kept kq kn s) :
    ∀ v, execGalleyEdit n s = .next v → Kept kq kn v := by
  unfold execGalleyEdit
  repeat' first
    | with_reducible assumption
    | with_reducible refine State.work_kept ?_ ?_
    | with_reducible refine State.shadowEdit_kept ?_ ?_
    | with_reducible refine State.edit_kept ?_
    | with_reducible refine Kept.next_intro ?_
    | intro _

/-! ### Machine/Matrix.lean -/

theorem State.packedRows_kept {kq : List Instr} {kn : Nat} {s : State} {c : Cmd} {a : Tensor} {b : Tensor} {o : Tensor} (h0 : Kept kq kn s) :
    Kept kq kn (State.packedRows s c a b o).1 := by
  unfold State.packedRows
  repeat' first
    | with_reducible assumption
    | with_reducible refine State.outputRow_kept ?_
    | with_reducible refine Kept.foldl_fst ?_ ?_
    | split
    | dsimp only
    | intro _

theorem State.arraysTake_kept {kq : List Instr} {kn : Nat} {s : State} {c : Cmd} (h0 : Kept kq kn s) :
    Kept kq kn (State.arraysTake s c) := by
  unfold State.arraysTake
  repeat' first | with_reducible assumption | dsimp only | fail_if_no_progress refine Kept.upd ?_ rfl rfl rfl rfl rfl rfl rfl

theorem State.countRows_kept {kq : List Instr} {kn : Nat} {s : State} {core : ℕ} {a : ℕ} {rows : ℕ} {swaps : ℕ} (h0 : Kept kq kn s) :
    Kept kq kn (State.countRows s core a rows swaps) := by
  unfold State.countRows
  repeat' first | with_reducible assumption | with_reducible refine State.addWrap_kept ?_

theorem State.packRan_kept {kq : List Instr} {kn : Nat} {s : State} {c : Cmd} {f : Flags} {m : ℕ} {problems : ℕ} (h0 : Kept kq kn s) :
    Kept kq kn (State.packRan s c f m problems) := by
  unfold State.packRan
  repeat' first
    | with_reducible assumption
    | with_reducible refine State.raiseIn_kept ?_
    | with_reducible refine State.arraysTake_kept ?_
    | with_reducible refine State.countRows_kept ?_
    | with_reducible refine Kept.foldl ?_ ?_
    | split
    | intro _

theorem State.productResult_kept {kq : List Instr} {kn : Nat} {s : State} {f : Flags} {rows : ℕ} (h0 : Kept kq kn s) :
    Kept kq kn (State.productResult s f rows).2 := by
  unfold State.productResult
  repeat' first | with_reducible assumption | with_reducible refine State.free_kept ?_

theorem execMatmulPacked_kept {kq : List Instr} {kn : Nat} {n : ℕ} {env : Env} {s : State} (h2 : Kept kq kn s) :
    ∀ v, execMatmulPacked n env s = .next v → Kept kq kn v := by
  unfold execMatmulPacked
  repeat' first
    | with_reducible assumption
    | with_reducible refine State.work_kept ?_ ?_
    | with_reducible refine State.finish_kept ?_
    | with_reducible refine State.withSaves_kept ?_ ?_
    | with_reducible refine State.packedRows_kept ?_
    | with_reducible refine State.packRan_kept ?_
    | with_reducible refine State.productResult_kept ?_
    | with_reducible refine State.complete_kept ?_
    | with_reducible refine Kept.next_intro ?_
    | split
    | dsimp only
    | intro _

theorem State.addEntry_kept {kq : List Instr} {kn : Nat} {s : State} {saved : Tensor} {w : ℕ} {e : ℕ} (h0 : Kept kq kn s) :
    ∀ v, State.addEntry s saved w e = some v → Kept kq kn v := by
  unfold State.addEntry
  repeat' first
    | with_reducible assumption
    | with_reducible refine State.updTensor_kept ?_
    | with_reducible refine Kept.some_intro ?_
    | with_reducible refine Kept.none_intro
    | split

theorem State.clearArrayFlags_kept {kq : List Instr} {kn : Nat} {s : State} {a1 : ℕ} (h0 : Kept kq kn s) :
    Kept kq kn (State.clearArrayFlags s a1) := by
  unfold State.clearArrayFlags
  repeat' first
    | with_reducible assumption
    | with_reducible refine State.setReg_kept ?_
    | with_reducible refine Kept.foldl ?_ ?_
    | split
    | intro _

theorem State.setArraySt_kept {kq : List Instr} {kn : Nat} {s : State} {a : ArraySt} (h0 : Kept kq kn s) :
    Kept kq kn (State.setArraySt s a) := by
  unfold State.setArraySt
  repeat' first | with_reducible assumption | dsimp only | fail_if_no_progress refine Kept.upd ?_ rfl rfl rfl rfl rfl rfl rfl

theorem State.swapArray_kept {kq : List Instr} {kn : Nat} {s : State} {core : ℕ} {a : ℕ} (h0 : Kept kq kn s) :
    Kept kq kn (State.swapArray s core a) := by
  unfold State.swapArray
  repeat' first
    | with_reducible assumption
    | with_reducible refine State.setArraySt_kept ?_
    | with_reducible refine State.addWrap_kept ?_
    | with_reducible refine State.setFld_kept ?_

theorem execSwap_kept {kq : List Instr} {kn : Nat} {core : ℕ} {tiles : List ℕ} {hazard : ℕ} {waited : ℕ} {s : State} (h4 : Kept kq kn s) :
    ∀ v, execSwap core tiles hazard waited s = .next v → Kept kq kn v := by
  unfold execSwap
  repeat' first
    | with_reducible assumption
    | with_reducible refine State.addSat_kept ?_
    | with_reducible refine State.addWrap_kept ?_
    | with_reducible refine State.swapArray_kept ?_
    | with_reducible refine Kept.ite ?_ ?_
    | with_reducible refine Kept.foldl ?_ ?_
    | with_reducible refine Kept.next_intro ?_
    | intro _

theorem State.matmulRecord_kept {kq : List Instr} {kn : Nat} {s : State} {c : Cmd} {a : Tensor} {b : Tensor} (h0 : Kept kq kn s) :
    ∀ v, State.matmulRecord s c a b = some v → Kept kq kn v := by
  unfold State.matmulRecord
  repeat' first
    | with_reducible assumption
    | with_reducible refine State.addEntry_kept ?_
    | with_reducible refine Kept.some_intro ?_
    | split

theorem State.productRows_kept {kq : List Instr} {kn : Nat} {s : State} {c : Cmd} {accIn : Bool} {accOut : Bool} {ta : Bool} {tb : Bool} {a : Tensor} {b : Tensor} {o : Tensor} {p : Product} (h0 : Kept kq kn s) :
    Kept kq kn (State.productRows s c accIn accOut ta tb a b o p).1 := by
  unfold State.productRows
  repeat' first
    | with_reducible assumption
    | with_reducible refine State.outputRow_kept ?_
    | with_reducible refine Kept.foldl_fst ?_ ?_
    | split
    | dsimp only
    | intro _

theorem State.turnBlocks_kept {kq : List Instr} {kn : Nat} {s : State} {a : Tensor} {codes : Codes} (h0 : Kept kq kn s) :
    Kept kq kn (State.turnBlocks s a codes) := by
  unfold State.turnBlocks
  repeat' first
    | with_reducible assumption
    | with_reducible refine State.free_kept ?_
    | with_reducible refine Kept.foldl ?_ ?_
    | dsimp only
    | intro _
    | fail_if_no_progress refine Kept.upd ?_ rfl rfl rfl rfl rfl rfl rfl

theorem State.countPasses_kept {kq : List Instr} {kn : Nat} {s : State} {keep : ℕ → Bool} {rows : ℕ} {cols : ℕ} {steps : ℕ} {terms : ℕ} {swaps : Bool} (h0 : Kept kq kn s) :
    Kept kq kn (State.countPasses s keep rows cols steps terms swaps) := by
  unfold State.countPasses
  repeat' first
    | with_reducible assumption
    | with_reducible refine State.countRows_kept ?_
    | with_reducible refine Kept.foldl ?_ ?_
    | split
    | dsimp only
    | intro _

theorem State.arraysRan_kept {kq : List Instr} {kn : Nat} {s : State} {c : Cmd} {f : Flags} {rows : ℕ} {cols : ℕ} {steps : ℕ} {terms : ℕ} {swaps : Bool} (h0 : Kept kq kn s) :
    Kept kq kn (State.arraysRan s c f rows cols steps terms swaps) := by
  unfold State.arraysRan
  repeat' first
    | with_reducible assumption
    | with_reducible refine State.raiseIn_kept ?_
    | with_reducible refine State.arraysTake_kept ?_
    | with_reducible refine State.countPasses_kept ?_

theorem State.matmul_kept {kq : List Instr} {kn : Nat} {s : State} {env : Env} {c : Cmd} (h0 : Kept kq kn s) :
    Kept kq kn (State.matmul s env c) := by
  unfold State.matmul
  repeat' first
    | with_reducible assumption
    | with_reducible refine State.matmulRecord_kept ?_
    | with_reducible refine State.finish_kept ?_
    | with_reducible refine State.withSaves_kept ?_ ?_
    | with_reducible refine State.productRows_kept ?_
    | with_reducible refine State.turnBlocks_kept ?_
    | with_reducible refine State.arraysRan_kept ?_
    | with_reducible refine State.productResult_kept ?_
    | with_reducible refine State.complete_kept ?_
    | with_reducible refine Kept.ite ?_ ?_
    | split
    | dsimp only
    | intro _
    | refine Kept.of_some ‹_ = some _› ?_

theorem execArithFlagsClear_kept {kq : List Instr} {kn : Nat} {a0 : ℕ} {s : State} (h1 : Kept kq kn s) :
    ∀ v, execArithFlagsClear a0 s = .next v → Kept kq kn v := by
  unfold execArithFlagsClear
  repeat' first
    | with_reducible assumption
    | with_reducible refine State.whenUp_kept ?_ ?_
    | with_reducible refine State.clearArrayFlags_kept ?_
    | with_reducible refine Kept.next_intro ?_
    | intro _

theorem State.arraysUsed_kept {kq : List Instr} {kn : Nat} {s : State} {c : Cmd} {f : Flags} (h0 : Kept kq kn s) :
    Kept kq kn (State.arraysUsed s c f) := by
  unfold State.arraysUsed
  repeat' first
    | with_reducible assumption
    | with_reducible refine State.raiseFlags_kept ?_
    | with_reducible refine State.arraysTake_kept ?_
    | with_reducible refine State.free_kept ?_
    | with_reducible refine State.countRows_kept ?_
    | with_reducible refine Kept.foldl ?_ ?_
    | dsimp only
    | intro _

theorem State.gatherReady_kept {kq : List Instr} {kn : Nat} {s : State} {n : ℕ} (h0 : Kept kq kn s) :
    Kept kq kn (State.gatherReady s n) := by
  unfold State.gatherReady
  repeat' first
    | with_reducible assumption
    | with_reducible refine State.updCmd_kept ?_ ?_
    | rfl
    | split
    | intro _

theorem execMatmul_kept {kq : List Instr} {kn : Nat} {n : ℕ} {env : Env} {s : State} (h2 : Kept kq kn s) :
    ∀ v, execMatmul n env s = .next v → Kept kq kn v := by
  unfold execMatmul
  repeat' first
    | with_reducible assumption
    | with_reducible refine State.work_kept ?_ ?_
    | with_reducible refine State.finish_kept ?_
    | with_reducible refine State.matmul_kept ?_
    | with_reducible refine Kept.next_intro ?_
    | split
    | intro _

theorem execMatmulGather_kept {kq : List Instr} {kn : Nat} {n : ℕ} {env : Env} {s : State} (h2 : Kept kq kn s) :
    ∀ v, execMatmulGather n env s = .next v → Kept kq kn v := by
  unfold execMatmulGather
  repeat' first
    | with_reducible assumption
    | with_reducible refine State.work_kept ?_ ?_
    | with_reducible refine State.gatherReady_kept ?_
    | with_reducible refine State.finish_kept ?_
    | with_reducible refine State.park_kept ?_
    | with_reducible refine State.matmul_kept ?_
    | with_reducible refine Kept.next_intro ?_
    | split
    | intro _

theorem execRippleFront_kept {kq : List Instr} {kn : Nat} {core : ℕ} {a : ℕ} {n : ℕ} {k0 : ℕ} {n0 : ℕ} {landed : Bool} {s : State} (h6 : Kept kq kn s) :
    ∀ v, execRippleFront core a n k0 n0 landed s = .next v → Kept kq kn v := by
  unfold execRippleFront
  repeat' first
    | with_reducible assumption
    | with_reducible refine State.addSat_kept ?_
    | with_reducible refine State.setArraySt_kept ?_
    | with_reducible refine State.addWrap_kept ?_
    | with_reducible refine Kept.ite ?_ ?_
    | with_reducible refine Kept.next_intro ?_
    | split

theorem execShadowLoad_kept {kq : List Instr} {kn : Nat} {core : ℕ} {a : ℕ} {n : ℕ} {k0 : ℕ} {n0 : ℕ} {behind : Option (ℕ × ℕ)} {s : State} (h6 : Kept kq kn s) :
    ∀ v, execShadowLoad core a n k0 n0 behind s = .next v → Kept kq kn v := by
  unfold execShadowLoad
  repeat' first
    | with_reducible assumption
    | with_reducible refine State.setArraySt_kept ?_
    | with_reducible refine State.setFld_kept ?_
    | with_reducible refine Kept.ite ?_ ?_
    | with_reducible refine Kept.next_intro ?_
    | split

theorem execSetMatrixMode_kept {kq : List Instr} {kn : Nat} {n : ℕ} {s : State} (h1 : Kept kq kn s) :
    ∀ v, execSetMatrixMode n s = .next v → Kept kq kn v := by
  unfold execSetMatrixMode
  repeat' first
    | with_reducible assumption
    | with_reducible refine State.work_kept ?_ ?_
    | with_reducible refine State.finish_kept ?_
    | with_reducible refine Kept.next_intro ?_
    | split
    | dsimp only
    | intro _

/-! ### Machine/Attention.lean -/

theorem State.attnForward_kept {kq : List Instr} {kn : Nat} {s : State} {c : Cmd} {q : Tensor} {o : Tensor} {st : Tensor} {d : ℕ} {nkb : ℕ} {blocks : List KeyBlock} (h0 : Kept kq kn s) :
    Kept kq kn (State.attnForward s c q o st d nkb blocks).1 := by
  unfold State.attnForward
  repeat' first
    | with_reducible assumption
    | with_reducible refine State.outputRow_kept ?_
    | with_reducible refine Kept.foldl_fst ?_ ?_
    | dsimp only
    | intro _

theorem State.attnFlags_kept {kq : List Instr} {kn : Nat} {s : State} {c : Cmd} {fa : Flags} {fv : Flags} (h0 : Kept kq kn s) :
    Kept kq kn (State.attnFlags s c fa fv) := by
  unfold State.attnFlags
  repeat' first | with_reducible assumption | with_reducible refine State.raiseFlags_kept ?_ | with_reducible refine State.arraysUsed_kept ?_

theorem State.attnForwardCmd_kept {kq : List Instr} {kn : Nat} {s : State} {env : Env} {c : Cmd} {ring : List RingStep} (h0 : Kept kq kn s) :
    Kept kq kn (State.attnForwardCmd s env c ring) := by
  unfold State.attnForwardCmd
  repeat' first
    | with_reducible assumption
    | with_reducible refine State.withSaves_kept ?_ ?_
    | with_reducible refine State.attnForward_kept ?_
    | with_reducible refine State.addWrap_kept ?_
    | with_reducible refine State.attnFlags_kept ?_
    | with_reducible refine State.complete_kept ?_
    | with_reducible refine State.finish_kept ?_
    | split
    | dsimp only
    | intro _

theorem execAttnForward_kept {kq : List Instr} {kn : Nat} {n : ℕ} {env : Env} {s : State} (h2 : Kept kq kn s) :
    ∀ v, execAttnForward n env s = .next v → Kept kq kn v := by
  unfold execAttnForward
  repeat' first
    | with_reducible assumption
    | with_reducible refine State.work_kept ?_ ?_
    | with_reducible refine State.finish_kept ?_
    | with_reducible refine State.attnForwardCmd_kept ?_
    | with_reducible refine Kept.next_intro ?_
    | split
    | intro _

theorem State.gradRow_kept {kq : List Instr} {kn : Nat} {s : State} {c : Cmd} {t : Tensor} {row : ℕ} {token : ℕ} {d : ℕ} {heads : ℕ} {pos : ℕ} {scaled : Bool} {rotate : Bool} {x : List Val} {a : State × List Write × Flags} (h0 : Kept kq kn s) (h11 : Kept kq kn a.1) :
    Kept kq kn (State.gradRow s c t row token d heads pos scaled rotate x a).1 := by
  unfold State.gradRow
  repeat' first | with_reducible assumption | with_reducible refine State.outputRow_kept ?_ | with_reducible refine Kept.ite_fst ?_ ?_

theorem State.backWrites_kept {kq : List Instr} {kn : Nat} {s : State} {c : Cmd} {q : Tensor} {dq : Tensor} {dk : Tensor} {dv : Tensor} {d : ℕ} {kv : ℕ} {len : ℕ} {rows : List BackRow} {ksum : ℕ → ℕ → ℕ → Flags → VF} {vsum : ℕ → ℕ → ℕ → Flags → VF} {f : Flags} (h0 : Kept kq kn s) :
    Kept kq kn (State.backWrites s c q dq dk dv d kv len rows ksum vsum f).1 := by
  unfold State.backWrites
  repeat' first
    | with_reducible assumption
    | with_reducible refine State.gradRow_kept ?_ ?_
    | with_reducible refine Kept.foldl_fst ?_ ?_
    | split
    | dsimp only
    | intro _

theorem State.attnBackwardCmd_kept {kq : List Instr} {kn : Nat} {s : State} {env : Env} {c : Cmd} {ring : List RingStep} (h0 : Kept kq kn s) :
    Kept kq kn (State.attnBackwardCmd s env c ring) := by
  unfold State.attnBackwardCmd
  repeat' first
    | with_reducible assumption
    | with_reducible refine State.withSaves_kept ?_ ?_
    | with_reducible refine State.backWrites_kept ?_
    | with_reducible refine State.complete_kept ?_
    | with_reducible refine State.attnFlags_kept ?_
    | with_reducible refine State.finish_kept ?_
    | split
    | dsimp only
    | intro _

theorem execAttnBackward_kept {kq : List Instr} {kn : Nat} {n : ℕ} {env : Env} {s : State} (h2 : Kept kq kn s) :
    ∀ v, execAttnBackward n env s = .next v → Kept kq kn v := by
  unfold execAttnBackward
  repeat' first
    | with_reducible assumption
    | with_reducible refine State.work_kept ?_ ?_
    | with_reducible refine State.finish_kept ?_
    | with_reducible refine State.attnBackwardCmd_kept ?_
    | with_reducible refine Kept.next_intro ?_
    | split
    | intro _

theorem State.ringForward_kept {kq : List Instr} {kn : Nat} {s : State} {c : Cmd} {d : ℕ} {kv : ℕ} {b : Bank} {ring : List RingStep} {ps : List Partial} {k : ℕ} (h0 : Kept kq kn s) :
    Kept kq kn (State.ringForward s c d kv b ring ps k) := by
  unfold State.ringForward
  repeat' first | with_reducible assumption | with_reducible refine State.collSend_kept ?_

theorem State.ringGoesOn_kept {kq : List Instr} {kn : Nat} {s : State} {env : Env} {c : Cmd} {landed : List RingStep} (h0 : Kept kq kn s) :
    Kept kq kn (State.ringGoesOn s env c landed) := by
  unfold State.ringGoesOn
  repeat' first
    | with_reducible assumption
    | with_reducible refine State.finish_kept ?_
    | with_reducible refine State.ringForward_kept ?_
    | with_reducible refine State.park_kept ?_
    | with_reducible refine State.attnBackwardCmd_kept ?_
    | with_reducible refine State.attnForwardCmd_kept ?_
    | with_reducible refine Kept.ite ?_ ?_
    | with_reducible refine Kept.foldl ?_ ?_
    | split
    | dsimp only
    | intro _
    | fail_if_no_progress refine Kept.upd ?_ rfl rfl rfl rfl rfl rfl rfl

theorem execRingAttention_kept {kq : List Instr} {kn : Nat} {n : ℕ} {env : Env} {landed : List RingStep} {s : State} (h3 : Kept kq kn s) :
    ∀ v, execRingAttention n env landed s = .next v → Kept kq kn v := by
  unfold execRingAttention
  repeat' first
    | with_reducible assumption
    | with_reducible refine State.resumeCmd_kept ?_ ?_
    | with_reducible refine State.ringGoesOn_kept ?_
    | with_reducible refine State.work_kept ?_ ?_
    | with_reducible refine State.finish_kept ?_
    | with_reducible refine Kept.ite ?_ ?_
    | with_reducible refine Kept.next_intro ?_
    | split
    | intro _

/-! ### Machine/Backward.lean -/

theorem State.clearSave_kept {kq : List Instr} {kn : Nat} {s : State} {h : ℕ} (h0 : Kept kq kn s) :
    Kept kq kn (State.clearSave s h) := by
  unfold State.clearSave
  exact h0.mapTens fun t ht => by split; exact Sparse.wf_nil; exact ht

theorem State.saveCompletes_kept {kq : List Instr} {kn : Nat} {s : State} {c : Cmd} (h0 : Kept kq kn s) :
    Kept kq kn (State.saveCompletes s c) := by
  unfold State.saveCompletes
  repeat' first
    | with_reducible assumption
    | with_reducible refine State.updTensor_kept ?_
    | with_reducible refine State.addSat_kept ?_
    | with_reducible refine State.clearSave_kept ?_
    | with_reducible refine State.dropImage_kept ?_
    | with_reducible refine Kept.ite ?_ ?_

theorem State.prefetchData_kept {kq : List Instr} {kn : Nat} {s : State} {c : Cmd} {b : List Byte} (h0 : Kept kq kn s) :
    Kept kq kn (State.prefetchData s c b) := by
  unfold State.prefetchData
  repeat' first
    | with_reducible assumption
    | with_reducible refine State.finish_kept ?_
    | with_reducible refine State.updTensor_kept ?_
    | with_reducible refine Kept.ite ?_ ?_
    | split

theorem State.freeSave_kept {kq : List Instr} {kn : Nat} {s : State} {h : ℕ} (h0 : Kept kq kn s) :
    Kept kq kn (State.freeSave s h) := by
  unfold State.freeSave
  repeat' first
    | with_reducible assumption
    | with_reducible refine State.updTensor_kept ?_
    | with_reducible refine State.clearSave_kept ?_
    | with_reducible refine State.dropImage_kept ?_

theorem State.applyFrees_kept {kq : List Instr} {kn : Nat} {s : State} (h0 : Kept kq kn s) :
    Kept kq kn (State.applyFrees s) := by
  unfold State.applyFrees
  repeat' first
    | with_reducible assumption
    | with_reducible refine State.freeSave_kept ?_
    | with_reducible refine Kept.foldl ?_ ?_
    | split
    | intro _

theorem State.putPaged_kept {kq : List Instr} {kn : Nat} {s : State} {pages : List ℕ} {d : List Byte} (h0 : Kept kq kn s) :
    Kept kq kn (State.putPaged s pages d) := by
  unfold State.putPaged
  repeat' first
    | with_reducible assumption
    | with_reducible refine State.clearPoison_kept ?_
    | with_reducible refine State.storeBytes_kept ?_
    | with_reducible refine Kept.foldl ?_ ?_
    | intro _

theorem State.saveBegins_kept {kq : List Instr} {kn : Nat} {s : State} {c : Cmd} {st : SaveState} {i : Image} (h0 : Kept kq kn s) :
    Kept kq kn (State.saveBegins s c st i) := by
  unfold State.saveBegins
  repeat' first
    | with_reducible assumption
    | with_reducible refine State.updCmd_kept ?_ ?_
    | with_reducible refine State.updTensor_kept ?_
    | rfl
    | dsimp only
    | intro _

theorem execOffload_kept {kq : List Instr} {kn : Nat} {n : ℕ} {env : Env} {s : State} (h2 : Kept kq kn s) :
    ∀ v, execOffload n env s = .next v → Kept kq kn v := by
  unfold execOffload
  repeat' first
    | with_reducible assumption
    | with_reducible refine State.work_kept ?_ ?_
    | with_reducible refine State.finish_kept ?_
    | with_reducible refine State.corrections_kept ?_
    | with_reducible refine State.envStop_kept ?_
    | with_reducible refine State.takePages_kept ?_
    | with_reducible refine State.putPaged_kept ?_
    | with_reducible refine State.saveBegins_kept ?_
    | with_reducible refine State.ifpWrite_kept ?_
    | with_reducible refine State.park_kept ?_
    | with_reducible refine Kept.next_intro ?_
    | split
    | dsimp only
    | intro _
    | refine Kept.of_some_fst ‹_ = some (_, _)› ?_

theorem State.backwardCompletes_kept {kq : List Instr} {kn : Nat} {s : State} {c : Cmd} (h0 : Kept kq kn s) :
    Kept kq kn (State.backwardCompletes s c) := by
  unfold State.backwardCompletes
  repeat' first
    | with_reducible assumption
    | with_reducible refine State.updTensor_kept ?_
    | with_reducible refine Kept.ite ?_ ?_
    | split

theorem execWgradReaderResume_kept {kq : List Instr} {kn : Nat} {n : ℕ} {s : State} (h1 : Kept kq kn s) :
    ∀ v, execWgradReaderResume n s = .next v → Kept kq kn v := by
  unfold execWgradReaderResume
  repeat' first
    | with_reducible assumption
    | with_reducible refine State.resumeCmd_kept ?_ ?_
    | with_reducible refine State.wake_kept ?_
    | with_reducible refine Kept.next_intro ?_
    | intro _

theorem execSaveWriteResume_kept {kq : List Instr} {kn : Nat} {n : ℕ} {s : State} (h1 : Kept kq kn s) :
    ∀ v, execSaveWriteResume n s = .next v → Kept kq kn v := by
  unfold execSaveWriteResume
  repeat' first
    | with_reducible assumption
    | with_reducible refine State.resumeCmd_kept ?_ ?_
    | with_reducible refine State.wake_kept ?_
    | with_reducible refine Kept.next_intro ?_
    | intro _

theorem State.latched_kept {kq : List Instr} {kn : Nat} {s : State} {c : Cmd} {f : State → State} (h0 : Kept kq kn s) (h2 : ∀ u0, Kept kq kn u0 → Kept kq kn (f u0)) :
    Kept kq kn (State.latched s c f) := by
  unfold State.latched
  repeat' first
    | with_reducible assumption
    | with_reducible refine State.finish_kept ?_
    | with_reducible refine h2 _ ?_
    | split

theorem State.backwardInput_kept {kq : List Instr} {kn : Nat} {s : State} {env : Env} {c : Cmd} (h0 : Kept kq kn s) :
    Kept kq kn (State.backwardInput s env c) := by
  unfold State.backwardInput
  repeat' first
    | with_reducible assumption
    | with_reducible refine State.withSaves_kept ?_ ?_
    | with_reducible refine State.outputRow_kept ?_
    | with_reducible refine State.complete_kept ?_
    | with_reducible refine State.arraysUsed_kept ?_
    | with_reducible refine State.finish_kept ?_
    | with_reducible refine Kept.foldl_fst ?_ ?_
    | split
    | dsimp only
    | intro _

theorem State.backwardWeight_kept {kq : List Instr} {kn : Nat} {s : State} {env : Env} {c : Cmd} (h0 : Kept kq kn s) :
    Kept kq kn (State.backwardWeight s env c) := by
  unfold State.backwardWeight
  repeat' first
    | with_reducible assumption
    | with_reducible refine State.complete_kept ?_
    | with_reducible refine State.arraysUsed_kept ?_
    | with_reducible refine State.finish_kept ?_
    | split

theorem execBackwardInput_kept {kq : List Instr} {kn : Nat} {n : ℕ} {env : Env} {s : State} (h2 : Kept kq kn s) :
    ∀ v, execBackwardInput n env s = .next v → Kept kq kn v := by
  unfold execBackwardInput
  repeat' first
    | with_reducible assumption
    | with_reducible refine State.work_kept ?_ ?_
    | with_reducible refine State.latched_kept ?_ ?_
    | with_reducible refine State.backwardInput_kept ?_
    | with_reducible refine Kept.next_intro ?_
    | split
    | intro _

theorem execDeferredPass_kept {kq : List Instr} {kn : Nat} {env : Env} {s : State} (h1 : Kept kq kn s) :
    ∀ v, execDeferredPass env s = .next v → Kept kq kn v := by
  unfold execDeferredPass
  repeat' first
    | with_reducible assumption
    | with_reducible refine State.finish_kept ?_
    | with_reducible refine State.onImposition_kept ?_ ?_
    | with_reducible refine State.backwardWeight_kept ?_
    | with_reducible refine Kept.ite ?_ ?_
    | with_reducible refine Kept.next_intro ?_
    | split
    | intro _

theorem execBackwardWeight_kept {kq : List Instr} {kn : Nat} {n : ℕ} {env : Env} {s : State} (h2 : Kept kq kn s) :
    ∀ v, execBackwardWeight n env s = .next v → Kept kq kn v := by
  unfold execBackwardWeight
  repeat' first
    | with_reducible assumption
    | with_reducible refine State.runCmd_kept ?_ ?_
    | with_reducible refine State.latched_kept ?_ ?_
    | with_reducible refine State.park_kept ?_
    | with_reducible refine State.finish_kept ?_
    | with_reducible refine State.backwardWeight_kept ?_
    | with_reducible refine Kept.next_intro ?_
    | split
    | intro _

theorem execPrefetch_kept {kq : List Instr} {kn : Nat} {n : ℕ} {env : Env} {s : State} (h2 : Kept kq kn s) :
    ∀ v, execPrefetch n env s = .next v → Kept kq kn v := by
  unfold execPrefetch
  repeat' first
    | with_reducible assumption
    | with_reducible refine State.work_kept ?_ ?_
    | with_reducible refine State.finish_kept ?_
    | with_reducible refine State.saveBegins_kept ?_
    | with_reducible refine State.corrections_kept ?_
    | with_reducible refine State.ifpRead_kept ?_
    | with_reducible refine State.park_kept ?_
    | with_reducible refine State.envStop_kept ?_
    | with_reducible refine State.stopEffect_kept ?_
    | with_reducible refine State.prefetchData_kept ?_
    | with_reducible refine Kept.next_intro ?_
    | split
    | dsimp only
    | intro _
    | refine Kept.of_some_fst ‹_ = some (_, _)› ?_

/-! ### Machine/Update.lean -/

theorem State.stepSizeCompletes_kept {kq : List Instr} {kn : Nat} {s : State} {c : Cmd} (h0 : Kept kq kn s) :
    Kept kq kn (State.stepSizeCompletes s c) := by
  unfold State.stepSizeCompletes
  repeat' first
    | with_reducible assumption
    | with_reducible refine State.updCmd_kept ?_ ?_
    | with_reducible refine State.setReg_kept ?_
    | with_reducible refine Kept.ite ?_ ?_
    | rfl
    | split
    | dsimp only
    | intro _

theorem execRetireEdition_kept {kq : List Instr} {kn : Nat} {n : ℕ} {s : State} (h1 : Kept kq kn s) :
    ∀ v, execRetireEdition n s = .next v → Kept kq kn v := by
  unfold execRetireEdition
  repeat' first
    | with_reducible assumption
    | with_reducible refine State.work_kept ?_ ?_
    | with_reducible refine State.finish_kept ?_
    | with_reducible refine State.retire_kept ?_
    | with_reducible refine State.updTensor_kept ?_
    | with_reducible refine Kept.next_intro ?_
    | split
    | dsimp only
    | intro _

theorem State.toPeers_kept {kq : List Instr} {kn : Nat} {s : State} {m : CollMsg} (h0 : Kept kq kn s) :
    Kept kq kn (State.toPeers s m) := by
  unfold State.toPeers
  repeat' first
    | with_reducible assumption
    | with_reducible refine State.collSend_kept ?_
    | with_reducible refine Kept.foldl ?_ ?_
    | intro _

theorem State.awaitEdition_kept {kq : List Instr} {kn : Nat} {s : State} {c : Cmd} {w : Tensor} (h0 : Kept kq kn s) :
    Kept kq kn (State.awaitEdition s c w) := by
  unfold State.awaitEdition
  repeat' first
    | with_reducible assumption
    | with_reducible refine State.updCmd_kept ?_ ?_
    | with_reducible refine State.park_kept ?_
    | rfl
    | split
    | dsimp only
    | intro _

theorem State.runRule_kept {kq : List Instr} {kn : Nat} {s : State} {c : Cmd} {w : Tensor} {g : Tensor} (h0 : Kept kq kn s) :
    Kept kq kn (State.runRule s c w g).1 := by
  unfold State.runRule
  repeat' first
    | with_reducible assumption
    | with_reducible refine State.updTensor_kept ?_
    | with_reducible refine State.addSat_kept ?_
    | with_reducible refine State.raiseFlags_kept ?_
    | with_reducible refine State.arraysUsed_kept ?_
    | with_reducible refine Kept.ite ?_ ?_

theorem State.updateStopped_kept {kq : List Instr} {kn : Nat} {s : State} {c : Cmd} {w : Tensor} {d : ℕ} (h0 : Kept kq kn s) :
    Kept kq kn (State.updateStopped s c w d) := by
  unfold State.updateStopped
  repeat' first
    | with_reducible assumption
    | with_reducible refine State.free_kept ?_
    | with_reducible refine State.updTensor_kept ?_
    | with_reducible refine State.finish_kept ?_
    | with_reducible refine State.toPeers_kept ?_
    | with_reducible refine Kept.ite ?_ ?_

theorem State.updateProceed_kept {kq : List Instr} {kn : Nat} {s : State} {env : Env} {c : Cmd} (h0 : Kept kq kn s) :
    Kept kq kn (State.updateProceed s env c) := by
  unfold State.updateProceed
  repeat' first
    | with_reducible assumption
    | with_reducible refine State.awaitEdition_kept ?_
    | with_reducible refine State.finish_kept ?_
    | with_reducible refine State.toPeers_kept ?_
    | with_reducible refine State.addSat_kept ?_
    | with_reducible refine State.runRule_kept ?_
    | with_reducible refine State.corrections_kept ?_
    | with_reducible refine State.envStop_kept ?_
    | with_reducible refine State.updateStopped_kept ?_
    | with_reducible refine State.updTensor_kept ?_
    | with_reducible refine Kept.ite ?_ ?_
    | split
    | dsimp only
    | refine Kept.of_some_fst ‹_ = some (_, _)› ?_

theorem State.weighVerdicts_kept {kq : List Instr} {kn : Nat} {s : State} {env : Env} {c : Cmd} (h0 : Kept kq kn s) :
    Kept kq kn (State.weighVerdicts s env c) := by
  unfold State.weighVerdicts
  repeat' first
    | with_reducible assumption
    | with_reducible refine State.finish_kept ?_
    | with_reducible refine State.updateProceed_kept ?_
    | with_reducible refine State.park_kept ?_
    | with_reducible refine Kept.ite ?_ ?_
    | split
    | dsimp only

theorem execUpdate_kept {kq : List Instr} {kn : Nat} {n : ℕ} {env : Env} {s : State} (h2 : Kept kq kn s) :
    ∀ v, execUpdate n env s = .next v → Kept kq kn v := by
  unfold execUpdate
  repeat' first
    | with_reducible assumption
    | with_reducible refine State.work_kept ?_ ?_
    | with_reducible refine State.addSat_kept ?_
    | with_reducible refine State.finish_kept ?_
    | with_reducible refine State.toPeers_kept ?_
    | with_reducible refine State.weighVerdicts_kept ?_
    | with_reducible refine Kept.next_intro ?_
    | split
    | dsimp only
    | intro _

theorem execVerdict_kept {kq : List Instr} {kn : Nat} {n : ℕ} {rank : ℕ} {status : ℕ} {env : Env} {s : State} (h4 : Kept kq kn s) :
    ∀ v, execVerdict n rank status env s = .next v → Kept kq kn v := by
  unfold execVerdict
  repeat' first
    | with_reducible assumption
    | with_reducible refine State.weighVerdicts_kept ?_
    | with_reducible refine State.finish_kept ?_
    | with_reducible refine Kept.ite ?_ ?_
    | with_reducible refine Kept.next_intro ?_
    | split
    | dsimp only
    | fail_if_no_progress refine Kept.upd ?_ rfl rfl rfl rfl rfl rfl rfl

theorem State.pieceBad_kept {kq : List Instr} {kn : Nat} {s : State} {c : Cmd} {w : Tensor} {first : ℕ} {n : ℕ} (h0 : Kept kq kn s) :
    Kept kq kn (State.pieceBad s c w first n) := by
  unfold State.pieceBad
  repeat' first
    | with_reducible assumption
    | with_reducible refine State.addSat_kept ?_
    | with_reducible refine State.finish_kept ?_
    | with_reducible refine State.toPeers_kept ?_
    | with_reducible refine State.collSend_kept ?_
    | with_reducible refine State.park_kept ?_
    | with_reducible refine Kept.ite ?_ ?_

theorem execPeerLimit_kept {kq : List Instr} {kn : Nat} {n : ℕ} {s : State} (h1 : Kept kq kn s) :
    ∀ v, execPeerLimit n s = .next v → Kept kq kn v := by
  unfold execPeerLimit
  repeat' first
    | with_reducible assumption
    | with_reducible refine State.resumeCmd_kept ?_ ?_
    | with_reducible refine State.finish_kept ?_
    | with_reducible refine State.toPeers_kept ?_
    | with_reducible refine Kept.next_intro ?_
    | split
    | intro _

theorem State.editionWhole_kept {kq : List Instr} {kn : Nat} {s : State} {c : Cmd} {w : Tensor} {buf : List Byte} {report : ℕ} (h0 : Kept kq kn s) :
    Kept kq kn (State.editionWhole s c w buf report) := by
  unfold State.editionWhole
  repeat' first | with_reducible assumption | with_reducible refine State.finish_kept ?_ | with_reducible refine State.updTensor_kept ?_

theorem State.pieceArrives_kept {kq : List Instr} {kn : Nat} {s : State} {c : Cmd} {w : Tensor} {first : ℕ} {report : ℕ} {bytes : List Byte} (h0 : Kept kq kn s) :
    Kept kq kn (State.pieceArrives s c w first report bytes) := by
  unfold State.pieceArrives
  repeat' first
    | with_reducible assumption
    | with_reducible refine State.updCmd_kept ?_ ?_
    | with_reducible refine State.pieceBad_kept ?_
    | with_reducible refine State.park_kept ?_
    | with_reducible refine State.editionWhole_kept ?_
    | with_reducible refine Kept.ite ?_ ?_
    | rfl
    | dsimp only
    | intro _

theorem State.editionPiece_kept {kq : List Instr} {kn : Nat} {s : State} {c : Cmd} {first : ℕ} {skipped : Bool} {report : ℕ} {bytes : List Byte} (h0 : Kept kq kn s) :
    Kept kq kn (State.editionPiece s c first skipped report bytes) := by
  unfold State.editionPiece
  repeat' first
    | with_reducible assumption
    | with_reducible refine State.finish_kept ?_
    | with_reducible refine State.addSat_kept ?_
    | with_reducible refine State.awaitEdition_kept ?_
    | with_reducible refine State.pieceArrives_kept ?_
    | with_reducible refine Kept.ite ?_ ?_
    | split
    | dsimp only

theorem execSetStepSize_kept {kq : List Instr} {kn : Nat} {n : ℕ} {s : State} (h1 : Kept kq kn s) :
    ∀ v, execSetStepSize n s = .next v → Kept kq kn v := by
  unfold execSetStepSize
  repeat' first
    | with_reducible assumption
    | with_reducible refine State.work_kept ?_ ?_
    | with_reducible refine State.finish_kept ?_
    | with_reducible refine Kept.next_intro ?_
    | split
    | intro _

theorem State.updateCompletes_kept {kq : List Instr} {kn : Nat} {s : State} {c : Cmd} (h0 : Kept kq kn s) :
    Kept kq kn (State.updateCompletes s c) := by
  unfold State.updateCompletes
  repeat' first
    | with_reducible assumption
    | with_reducible refine State.updTensor_kept ?_
    | with_reducible refine State.addSat_kept ?_
    | with_reducible refine State.tallyAdd_kept ?_
    | with_reducible refine Kept.ite ?_ ?_
    | split
    | dsimp only
    | fail_if_no_progress refine Kept.upd ?_ rfl rfl rfl rfl rfl rfl rfl

theorem State.pieceAgain_kept {kq : List Instr} {kn : Nat} {s : State} {h : ℕ} {first : ℕ} {n : ℕ} {rank : ℕ} {bad : Bool} (h0 : Kept kq kn s) :
    Kept kq kn (State.pieceAgain s h first n rank bad) := by
  unfold State.pieceAgain
  repeat' first
    | with_reducible assumption
    | with_reducible refine State.collSend_kept ?_
    | with_reducible refine State.collSendVia_kept ?_
    | with_reducible refine Kept.ite ?_ ?_
    | split

end Sys2Proof.Machine
end

