-- ==== Sys2Proof/Laws/KeptDevice.lean ====
section
/-! SUPPORT. The operations of collectives, rings, power, declarations, proofs, start-up, security, the Feeder, register writes and the consoles keep a state as `Kept` says. -/

set_option Elab.async false

namespace Sys2Proof.Machine

/-! ### Machine/Collective.lean -/

theorem State.updColl_kept {kq : List Instr} {kn : Nat} {s : State} {id : ℕ} {f : Coll → Coll} (h0 : Kept kq kn s) :
    Kept kq kn (State.updColl s id f) := by
  unfold State.updColl
  repeat' first | with_reducible assumption | dsimp only | fail_if_no_progress refine Kept.upd ?_ rfl rfl rfl rfl rfl rfl rfl

theorem State.transmit_kept {kq : List Instr} {kn : Nat} {s : State} {x : Coll} {k : ChunkKey} {d : List Byte} (h0 : Kept kq kn s) :
    Kept kq kn (State.transmit s x k d) := by
  unfold State.transmit
  repeat' first | with_reducible assumption | with_reducible refine State.collSendVia_kept ?_ | with_reducible refine State.updColl_kept ?_

theorem State.nextRound_kept {kq : List Instr} {kn : Nat} {s : State} {id : ℕ} (h0 : Kept kq kn s) :
    Kept kq kn (State.nextRound s id) := by
  unfold State.nextRound
  repeat' first
    | with_reducible assumption
    | with_reducible refine State.transmit_kept ?_
    | with_reducible refine State.updColl_kept ?_
    | with_reducible refine Kept.foldl ?_ ?_
    | split
    | intro _

theorem State.wakeGathers_kept {kq : List Instr} {kn : Nat} {s : State} (h0 : Kept kq kn s) :
    Kept kq kn (State.wakeGathers s) := by
  refine h0.mapCmds fun c => ?_
  split
  · split <;> rfl
  · rfl

theorem State.collWake_kept {kq : List Instr} {kn : Nat} {s : State} (h0 : Kept kq kn s) :
    Kept kq kn (State.collWake s) := by
  unfold State.collWake
  repeat' first | with_reducible assumption | with_reducible refine State.wakeAll_kept ?_ | with_reducible refine State.wakeGathers_kept ?_

theorem execCollAbort_kept {kq : List Instr} {kn : Nat} {a0 : ℕ} {s : State} (h1 : Kept kq kn s) :
    ∀ v, execCollAbort a0 s = .next v → Kept kq kn v := by
  unfold execCollAbort
  repeat' first
    | with_reducible assumption
    | with_reducible refine State.whenUp_kept ?_ ?_
    | with_reducible refine State.collWake_kept ?_
    | with_reducible refine State.abortStep_kept ?_
    | with_reducible refine Kept.next_intro ?_
    | intro _

theorem State.collFail_kept {kq : List Instr} {kn : Nat} {s : State} {x : Coll} {detail : ℕ} {tell : Bool} (h0 : Kept kq kn s) :
    Kept kq kn (State.collFail s x detail tell) := by
  unfold State.collFail
  repeat' first
    | with_reducible assumption
    | with_reducible refine State.collWake_kept ?_
    | with_reducible refine State.abortStep_kept ?_
    | with_reducible refine State.collEnd_kept ?_

theorem State.writeChunk_kept {kq : List Instr} {kn : Nat} {s : State} {x : Coll} {k : ChunkKey} {d : List Byte} (h0 : Kept kq kn s) :
    Kept kq kn (State.writeChunk s x k d) := by
  unfold State.writeChunk
  repeat' first
    | with_reducible assumption
    | with_reducible refine State.writeData_kept ?_
    | with_reducible refine State.updColl_kept ?_
    | split

theorem State.sendChunk_kept {kq : List Instr} {kn : Nat} {s : State} {x : Coll} {k : ChunkKey} {d : List Byte} (h0 : Kept kq kn s) :
    Kept kq kn (State.sendChunk s x k d) := by
  unfold State.sendChunk
  repeat' first
    | with_reducible assumption
    | with_reducible refine State.transmit_kept ?_
    | with_reducible refine State.updColl_kept ?_
    | with_reducible refine Kept.ite ?_ ?_

theorem State.passOn_kept {kq : List Instr} {kn : Nat} {s : State} {x : Coll} {k : ChunkKey} {d : List Byte} (h0 : Kept kq kn s) :
    Kept kq kn (State.passOn s x k d) := by
  unfold State.passOn
  repeat' first | with_reducible assumption | with_reducible refine State.sendChunk_kept ?_ | with_reducible refine Kept.ite ?_ ?_

theorem State.useData_kept {kq : List Instr} {kn : Nat} {s : State} {x : Coll} {k : ChunkKey} {d : List Byte} (h0 : Kept kq kn s) :
    Kept kq kn (State.useData s x k d) := by
  unfold State.useData
  repeat' first
    | with_reducible assumption
    | with_reducible refine State.writeChunk_kept ?_
    | with_reducible refine State.passOn_kept ?_
    | with_reducible refine Kept.ite ?_ ?_

theorem State.reduceChunk_kept {kq : List Instr} {kn : Nat} {s : State} {x : Coll} {k : ChunkKey} {acc : Option (List Byte)} (h0 : Kept kq kn s) :
    Kept kq kn (State.reduceChunk s x k acc) := by
  unfold State.reduceChunk
  repeat' first
    | with_reducible assumption
    | with_reducible refine State.updColl_kept ?_
    | with_reducible refine State.useData_kept ?_
    | with_reducible refine State.sendChunk_kept ?_
    | with_reducible refine Kept.ite ?_ ?_

theorem State.collCommit_kept {kq : List Instr} {kn : Nat} {s : State} {x : Coll} {flags : ℕ} (h0 : Kept kq kn s) :
    Kept kq kn (State.collCommit s x flags) := by
  unfold State.collCommit
  repeat' first
    | with_reducible assumption
    | with_reducible refine State.addSat_kept ?_
    | with_reducible refine State.setFld_kept ?_
    | with_reducible refine State.tallyAdd_kept ?_
    | with_reducible refine State.collWake_kept ?_
    | with_reducible refine Kept.ite ?_ ?_
    | dsimp only
    | fail_if_no_progress refine Kept.updMap ?_ rfl rfl rfl rfl rfl rfl rfl
    | fail_if_no_progress refine Kept.upd ?_ rfl rfl rfl rfl rfl rfl rfl

theorem State.tryCommit_kept {kq : List Instr} {kn : Nat} {s : State} {x : Coll} (h0 : Kept kq kn s) :
    Kept kq kn (State.tryCommit s x) := by
  unfold State.tryCommit
  repeat' first
    | with_reducible assumption
    | with_reducible refine State.collCommit_kept ?_
    | with_reducible refine State.collSend_kept ?_
    | with_reducible refine Kept.ite ?_ ?_
    | with_reducible refine Kept.foldl ?_ ?_
    | intro _

theorem State.holdDone_kept {kq : List Instr} {kn : Nat} {s : State} {d : DoneMsg} (h0 : Kept kq kn s) :
    Kept kq kn (State.holdDone s d) := by
  unfold State.holdDone
  repeat' first
    | with_reducible assumption
    | with_reducible refine Kept.ite ?_ ?_
    | dsimp only
    | fail_if_no_progress refine Kept.upd ?_ rfl rfl rfl rfl rfl rfl rfl

theorem State.collSettle_kept {kq : List Instr} {kn : Nat} {s : State} {id : ℕ} (h0 : Kept kq kn s) :
    Kept kq kn (State.collSettle s id) := by
  unfold State.collSettle
  repeat' first
    | with_reducible assumption
    | with_reducible refine State.nextRound_kept ?_
    | with_reducible refine State.updColl_kept ?_
    | with_reducible refine State.finish_kept ?_
    | with_reducible refine State.tryCommit_kept ?_
    | with_reducible refine State.holdDone_kept ?_
    | with_reducible refine State.collSend_kept ?_
    | with_reducible refine Kept.ite ?_ ?_
    | split
    | dsimp only

theorem State.collBegin_kept {kq : List Instr} {kn : Nat} {s : State} {x : Coll} (h0 : Kept kq kn s) :
    Kept kq kn (State.collBegin s x) := by
  unfold State.collBegin
  repeat' first
    | with_reducible assumption
    | with_reducible refine State.reduceChunk_kept ?_
    | with_reducible refine State.useData_kept ?_
    | with_reducible refine State.wakeGathers_kept ?_
    | with_reducible refine State.collSettle_kept ?_
    | with_reducible refine Kept.foldl ?_ ?_
    | intro _

theorem State.collTake_kept {kq : List Instr} {kn : Nat} {s : State} {env : Env} {c : Cmd} {x : Coll} {slot : ℕ} (h0 : Kept kq kn s) :
    Kept kq kn (State.collTake s env c x slot) := by
  unfold State.collTake
  repeat' first
    | with_reducible assumption
    | with_reducible refine State.updCmd_kept ?_ ?_
    | with_reducible refine State.takeSaves_kept ?_
    | with_reducible refine State.finish_kept ?_
    | with_reducible refine State.corrections_kept ?_
    | with_reducible refine State.envStop_kept ?_
    | with_reducible refine State.collFail_kept ?_
    | with_reducible refine State.updColl_kept ?_
    | with_reducible refine State.markOutputs_kept ?_
    | with_reducible refine State.collBegin_kept ?_
    | rfl
    | split
    | dsimp only
    | intro _
    | refine Kept.of_some ‹_ = some _› ?_
    | refine Kept.of_some_fst ‹_ = some (_, _)› ?_
    | fail_if_no_progress refine Kept.updMap ?_ rfl rfl rfl rfl rfl rfl rfl
    | fail_if_no_progress refine Kept.upd ?_ rfl rfl rfl rfl rfl rfl rfl

theorem State.collTry_kept {kq : List Instr} {kn : Nat} {s : State} {env : Env} {c : Cmd} (h0 : Kept kq kn s) :
    Kept kq kn (State.collTry s env c) := by
  unfold State.collTry
  repeat' first
    | with_reducible assumption
    | with_reducible refine State.collTake_kept ?_
    | with_reducible refine State.park_kept ?_
    | with_reducible refine Kept.ite ?_ ?_
    | split

theorem State.collective_kept {kq : List Instr} {kn : Nat} {s : State} {n : ℕ} {opcode : ℕ} {env : Env} (h0 : Kept kq kn s) :
    Kept kq kn (State.collective s n opcode env) := by
  unfold State.collective
  repeat' first
    | with_reducible assumption
    | with_reducible refine State.work_kept ?_ ?_
    | with_reducible refine State.finish_kept ?_
    | with_reducible refine State.collTry_kept ?_
    | split
    | intro _

theorem execReduceScatter_kept {kq : List Instr} {kn : Nat} {n : ℕ} {env : Env} {s : State} (h2 : Kept kq kn s) :
    ∀ v, execReduceScatter n env s = .next v → Kept kq kn v := by
  unfold execReduceScatter
  repeat' first | with_reducible assumption | with_reducible refine State.collective_kept ?_ | with_reducible refine Kept.next_intro ?_

theorem execFail_kept {kq : List Instr} {kn : Nat} {axis : ℕ} {seq : ℕ} {detail : ℕ} {s : State} (h3 : Kept kq kn s) :
    ∀ v, execFail axis seq detail s = .next v → Kept kq kn v := by
  unfold execFail
  repeat' first
    | with_reducible assumption
    | with_reducible refine State.collFail_kept ?_
    | with_reducible refine Kept.next_intro ?_
    | split

theorem State.retainedStop_kept {kq : List Instr} {kn : Nat} {s : State} {env : Env} {x : Coll} {k : ChunkKey} (h0 : Kept kq kn s) :
    ∀ v, State.retainedStop s env x k = some v → Kept kq kn v := by
  unfold State.retainedStop
  repeat' first
    | with_reducible assumption
    | with_reducible refine State.stopEffect_kept ?_
    | with_reducible refine Kept.some_intro ?_
    | with_reducible refine Kept.none_intro
    | split
    | dsimp only

theorem execReRequest_kept {kq : List Instr} {kn : Nat} {axis : ℕ} {seq : ℕ} {phase : ℕ} {shard : ℕ} {chunk : ℕ} {dest : ℕ} {rank : ℕ} {bad : Bool} {env : Env} {s : State} (h9 : Kept kq kn s) :
    ∀ v, execReRequest axis seq phase shard chunk dest rank bad env s = .next v → Kept kq kn v := by
  unfold execReRequest
  repeat' first
    | with_reducible assumption
    | with_reducible refine State.corrections_kept ?_
    | with_reducible refine State.pieceAgain_kept ?_
    | with_reducible refine State.retainedStop_kept ?_
    | with_reducible refine State.collFail_kept ?_
    | with_reducible refine State.collSendVia_kept ?_
    | with_reducible refine Kept.ite ?_ ?_
    | with_reducible refine Kept.next_intro ?_
    | split
    | dsimp only
    | refine Kept.of_some ‹_ = some _› ?_

theorem execBroadcast_kept {kq : List Instr} {kn : Nat} {n : ℕ} {env : Env} {s : State} (h2 : Kept kq kn s) :
    ∀ v, execBroadcast n env s = .next v → Kept kq kn v := by
  unfold execBroadcast
  repeat' first | with_reducible assumption | with_reducible refine State.collective_kept ?_ | with_reducible refine Kept.next_intro ?_

theorem execMarkWaitEnd_kept {kq : List Instr} {kn : Nat} {n : ℕ} {s : State} (h1 : Kept kq kn s) :
    ∀ v, execMarkWaitEnd n s = .next v → Kept kq kn v := by
  unfold execMarkWaitEnd
  repeat' first
    | with_reducible assumption
    | with_reducible refine State.resumeCmd_kept ?_ ?_
    | with_reducible refine State.wake_kept ?_
    | with_reducible refine State.onImposition_kept ?_ ?_
    | with_reducible refine State.finish_kept ?_
    | with_reducible refine State.toPeers_kept ?_
    | with_reducible refine State.collFail_kept ?_
    | with_reducible refine Kept.next_intro ?_
    | split
    | intro _

theorem execCommit_kept {kq : List Instr} {kn : Nat} {axis : ℕ} {seq : ℕ} {flags : ℕ} {s : State} (h3 : Kept kq kn s) :
    ∀ v, execCommit axis seq flags s = .next v → Kept kq kn v := by
  unfold execCommit
  repeat' first
    | with_reducible assumption
    | with_reducible refine State.collCommit_kept ?_
    | with_reducible refine Kept.next_intro ?_
    | split

theorem State.chunkBad_kept {kq : List Instr} {kn : Nat} {s : State} {x : Coll} {phase : ℕ} {k : ChunkKey} (h0 : Kept kq kn s) :
    Kept kq kn (State.chunkBad s x phase k) := by
  unfold State.chunkBad
  repeat' first
    | with_reducible assumption
    | with_reducible refine State.addSat_kept ?_
    | with_reducible refine State.collFail_kept ?_
    | with_reducible refine State.collSend_kept ?_
    | with_reducible refine State.updColl_kept ?_
    | with_reducible refine Kept.ite ?_ ?_

theorem State.chunkPassed_kept {kq : List Instr} {kn : Nat} {s : State} {x : Coll} {k : ChunkKey} {d : List Byte} (h0 : Kept kq kn s) :
    Kept kq kn (State.chunkPassed s x k d) := by
  unfold State.chunkPassed
  repeat' first
    | with_reducible assumption
    | with_reducible refine State.updColl_kept ?_
    | with_reducible refine State.collSend_kept ?_
    | with_reducible refine State.reduceChunk_kept ?_
    | with_reducible refine State.useData_kept ?_
    | with_reducible refine State.wakeGathers_kept ?_
    | with_reducible refine State.collSettle_kept ?_
    | with_reducible refine Kept.ite ?_ ?_

theorem State.collChunkArrives_kept {kq : List Instr} {kn : Nat} {s : State} {dest : ℕ} {m : List Byte} (h0 : Kept kq kn s) :
    Kept kq kn (State.collChunkArrives s dest m) := by
  unfold State.collChunkArrives
  repeat' first
    | with_reducible assumption
    | with_reducible refine State.collFail_kept ?_
    | with_reducible refine State.chunkBad_kept ?_
    | with_reducible refine State.chunkPassed_kept ?_
    | with_reducible refine Kept.ite ?_ ?_
    | split

theorem execChunk_kept {kq : List Instr} {kn : Nat} {m : ChunkMsg} {s : State} (h1 : Kept kq kn s) :
    ∀ v, execChunk m s = .next v → Kept kq kn v := by
  unfold execChunk
  repeat' first
    | with_reducible assumption
    | with_reducible refine State.collChunkArrives_kept ?_
    | with_reducible refine State.onImposition_kept ?_ ?_
    | with_reducible refine State.editionPiece_kept ?_
    | with_reducible refine Kept.next_intro ?_
    | split
    | intro _

theorem execAllReduce_kept {kq : List Instr} {kn : Nat} {n : ℕ} {env : Env} {s : State} (h2 : Kept kq kn s) :
    ∀ v, execAllReduce n env s = .next v → Kept kq kn v := by
  unfold execAllReduce
  repeat' first | with_reducible assumption | with_reducible refine State.collective_kept ?_ | with_reducible refine Kept.next_intro ?_

theorem execPermute_kept {kq : List Instr} {kn : Nat} {n : ℕ} {env : Env} {s : State} (h2 : Kept kq kn s) :
    ∀ v, execPermute n env s = .next v → Kept kq kn v := by
  unfold execPermute
  repeat' first | with_reducible assumption | with_reducible refine State.collective_kept ?_ | with_reducible refine Kept.next_intro ?_

theorem execCollectiveStart_kept {kq : List Instr} {kn : Nat} {n : ℕ} {env : Env} {s : State} (h2 : Kept kq kn s) :
    ∀ v, execCollectiveStart n env s = .next v → Kept kq kn v := by
  unfold execCollectiveStart
  repeat' first
    | with_reducible assumption
    | with_reducible refine State.resumeCmd_kept ?_ ?_
    | with_reducible refine State.collTry_kept ?_
    | with_reducible refine Kept.next_intro ?_
    | split
    | intro _

theorem State.collLost_kept {kq : List Instr} {kn : Nat} {s : State} {node : ℕ} {cls : ℕ} (h0 : Kept kq kn s) :
    Kept kq kn (State.collLost s node cls) := by
  unfold State.collLost
  repeat' first
    | with_reducible assumption
    | with_reducible refine State.collFail_kept ?_
    | with_reducible refine Kept.ite ?_ ?_
    | with_reducible refine Kept.foldl ?_ ?_
    | split
    | intro _

theorem execAllToAll_kept {kq : List Instr} {kn : Nat} {n : ℕ} {env : Env} {s : State} (h2 : Kept kq kn s) :
    ∀ v, execAllToAll n env s = .next v → Kept kq kn v := by
  unfold execAllToAll
  repeat' first | with_reducible assumption | with_reducible refine State.collective_kept ?_ | with_reducible refine Kept.next_intro ?_

theorem execAllGather_kept {kq : List Instr} {kn : Nat} {n : ℕ} {env : Env} {s : State} (h2 : Kept kq kn s) :
    ∀ v, execAllGather n env s = .next v → Kept kq kn v := by
  unfold execAllGather
  repeat' first | with_reducible assumption | with_reducible refine State.collective_kept ?_ | with_reducible refine Kept.next_intro ?_

theorem execPeerSilent_kept {kq : List Instr} {kn : Nat} {n : ℕ} {s : State} (h1 : Kept kq kn s) :
    ∀ v, execPeerSilent n s = .next v → Kept kq kn v := by
  unfold execPeerSilent
  repeat' first
    | with_reducible assumption
    | with_reducible refine State.collFail_kept ?_
    | with_reducible refine Kept.ite ?_ ?_
    | with_reducible refine Kept.next_intro ?_
    | split

theorem State.collChecked_kept {kq : List Instr} {kn : Nat} {s : State} {axis : ℕ} {seq : ℕ} {k : ChunkKey} (h0 : Kept kq kn s) :
    Kept kq kn (State.collChecked s axis seq k) := by
  unfold State.collChecked
  repeat' first
    | with_reducible assumption
    | with_reducible refine State.collSettle_kept ?_
    | with_reducible refine State.updColl_kept ?_
    | split

theorem execDone_kept {kq : List Instr} {kn : Nat} {axis : ℕ} {seq : ℕ} {rank : ℕ} {flags : ℕ} {s : State} (h4 : Kept kq kn s) :
    ∀ v, execDone axis seq rank flags s = .next v → Kept kq kn v := by
  unfold execDone
  repeat' first
    | with_reducible assumption
    | with_reducible refine State.holdDone_kept ?_
    | with_reducible refine State.tryCommit_kept ?_
    | with_reducible refine Kept.ite ?_ ?_
    | with_reducible refine Kept.next_intro ?_
    | split
    | dsimp only

/-! ### Machine/Commands.lean -/

theorem execReadReg_kept {kq : List Instr} {kn : Nat} {n : ℕ} {s : State} (h1 : Kept kq kn s) :
    ∀ v, execReadReg n s = .next v → Kept kq kn v := by
  unfold execReadReg
  repeat' first
    | with_reducible assumption
    | with_reducible refine State.runCmd_kept ?_ ?_
    | with_reducible refine State.finish_kept ?_
    | with_reducible refine State.readReg_kept ?_
    | with_reducible refine Kept.next_intro ?_
    | split
    | dsimp only
    | intro _

theorem State.onRing_kept {kq : List Instr} {kn : Nat} {s : State} {n : ℕ} {f : State → State} (h0 : Kept kq kn s) (h2 : ∀ u0, Kept kq kn u0 → Kept kq kn (f u0)) :
    Kept kq kn (State.onRing s n f) := by
  unfold State.onRing
  repeat' first
    | with_reducible assumption
    | with_reducible refine State.whenUp_kept ?_ ?_
    | split
    | intro _

theorem execReplyHeadWrite_kept {kq : List Instr} {kn : Nat} {ring : ℕ} {head : ℕ} {s : State} (h2 : Kept kq kn s) :
    ∀ v, execReplyHeadWrite ring head s = .next v → Kept kq kn v := by
  unfold execReplyHeadWrite
  repeat' first
    | with_reducible assumption
    | with_reducible refine State.onRing_kept ?_ ?_
    | with_reducible refine State.replyHead_kept ?_
    | with_reducible refine Kept.next_intro ?_
    | intro _

theorem State.endDrain_kept {kq : List Instr} {kn : Nat} {s : State} {f : ℕ} {forDisable : Outcome} {forEnable : Outcome} (h0 : Kept kq kn s) :
    Kept kq kn (State.endDrain s f forDisable forEnable) := by
  unfold State.endDrain
  repeat' first
    | with_reducible assumption
    | with_reducible refine State.finish_kept ?_
    | with_reducible refine Kept.foldl ?_ ?_
    | intro _

theorem State.setDisabled_kept {kq : List Instr} {kn : Nat} {s : State} {f : ℕ} {a2 : ℕ} (h0 : Kept kq kn s) :
    Kept kq kn (State.setDisabled s f a2) := by
  unfold State.setDisabled
  repeat' first | with_reducible assumption | with_reducible refine State.setReg_kept ?_

theorem execDisableFunction_kept {kq : List Instr} {kn : Nat} {n : ℕ} {s : State} (h1 : Kept kq kn s) :
    ∀ v, execDisableFunction n s = .next v → Kept kq kn v := by
  unfold execDisableFunction
  repeat' first
    | with_reducible assumption
    | with_reducible refine State.runCmd_kept ?_ ?_
    | with_reducible refine State.finish_kept ?_
    | with_reducible refine State.park_kept ?_
    | with_reducible refine State.endDrain_kept ?_
    | with_reducible refine State.setDisabled_kept ?_
    | with_reducible refine Kept.next_intro ?_
    | split
    | dsimp only
    | intro _

theorem execDoorbell_kept {kq : List Instr} {kn : Nat} {ring : ℕ} {tail : ℕ} {s : State} (h2 : Kept kq kn s) :
    ∀ v, execDoorbell ring tail s = .next v → Kept kq kn v := by
  unfold execDoorbell
  repeat' first
    | with_reducible assumption
    | with_reducible refine State.onRing_kept ?_ ?_
    | with_reducible refine State.doorbell_kept ?_
    | with_reducible refine Kept.next_intro ?_
    | intro _

theorem State.validate_kept {kq : List Instr} {kn : Nat} {s : State} {n : ℕ} {p : List Byte} (h0 : Kept kq kn s) :
    Kept kq kn (State.validate s n p) := by
  unfold State.validate
  extract_lets tagUsed slots h size s1 s2 s3
  have h2 : Kept kq kn s2 := State.setFld_kept (State.updRing_kept h0)
  clear_value s2
  exact State.attachHead_kept (State.nextTick_kept (h2.setCmds rfl (h2.sound.numbers.append rfl)))

theorem State.drainCheck_kept {kq : List Instr} {kn : Nat} {s : State} {f : ℕ} (h0 : Kept kq kn s) :
    Kept kq kn (State.drainCheck s f) := by
  unfold State.drainCheck
  repeat' first
    | with_reducible assumption
    | with_reducible refine State.endDrain_kept ?_
    | with_reducible refine State.setDisabled_kept ?_
    | with_reducible refine Kept.ite ?_ ?_

theorem execHeaderValidation_kept {kq : List Instr} {kn : Nat} {s : State} (h0 : Kept kq kn s) :
    ∀ v, execHeaderValidation s = .next v → Kept kq kn v := by
  unfold execHeaderValidation
  repeat' first
    | with_reducible assumption
    | with_reducible refine State.validate_kept ?_
    | with_reducible refine Kept.next_intro ?_
    | split

theorem execWaitNotice_kept {kq : List Instr} {kn : Nat} {notices : List (ℕ × ℕ)} {s : State} (h1 : Kept kq kn s) :
    ∀ v, execWaitNotice notices s = .next v → Kept kq kn v := by
  unfold execWaitNotice
  repeat' first
    | with_reducible assumption
    | with_reducible refine State.noticeOne_kept ?_
    | with_reducible refine State.nextTick_kept ?_
    | with_reducible refine Kept.ite ?_ ?_
    | with_reducible refine Kept.foldl ?_ ?_
    | with_reducible refine Kept.next_intro ?_
    | intro _

theorem execWaitLimit_kept {kq : List Instr} {kn : Nat} {n : ℕ} {s : State} (h1 : Kept kq kn s) :
    ∀ v, execWaitLimit n s = .next v → Kept kq kn v := by
  unfold execWaitLimit
  repeat' first
    | with_reducible assumption
    | with_reducible refine State.detach_kept ?_
    | with_reducible refine State.attachHead_kept ?_
    | with_reducible refine State.finish_kept ?_
    | with_reducible refine State.nextTick_kept ?_
    | with_reducible refine Kept.ite ?_ ?_
    | with_reducible refine Kept.next_intro ?_
    | split

theorem execWriteReg_kept {kq : List Instr} {kn : Nat} {n : ℕ} {s : State} (h1 : Kept kq kn s) :
    ∀ v, execWriteReg n s = .next v → Kept kq kn v := by
  unfold execWriteReg
  repeat' first
    | with_reducible assumption
    | with_reducible refine State.runCmd_kept ?_ ?_
    | with_reducible refine State.finish_kept ?_
    | with_reducible refine State.regWrite_kept ?_
    | with_reducible refine Kept.next_intro ?_
    | split
    | intro _

theorem execNop_kept {kq : List Instr} {kn : Nat} {n : ℕ} {s : State} (h1 : Kept kq kn s) :
    ∀ v, execNop n s = .next v → Kept kq kn v := by
  unfold execNop
  repeat' first
    | with_reducible assumption
    | with_reducible refine State.runCmd_kept ?_ ?_
    | with_reducible refine State.finish_kept ?_
    | with_reducible refine Kept.next_intro ?_
    | intro _

theorem execEnableFunction_kept {kq : List Instr} {kn : Nat} {n : ℕ} {s : State} (h1 : Kept kq kn s) :
    ∀ v, execEnableFunction n s = .next v → Kept kq kn v := by
  unfold execEnableFunction
  repeat' first
    | with_reducible assumption
    | with_reducible refine State.runCmd_kept ?_ ?_
    | with_reducible refine State.finish_kept ?_
    | with_reducible refine State.park_kept ?_
    | with_reducible refine Kept.next_intro ?_
    | split
    | dsimp only
    | intro _

theorem execRingEnable_kept {kq : List Instr} {kn : Nat} {ring : ℕ} {cfg : Word64} {s : State} (h2 : Kept kq kn s) :
    ∀ v, execRingEnable ring cfg s = .next v → Kept kq kn v := by
  unfold execRingEnable
  repeat' first
    | with_reducible assumption
    | with_reducible refine State.onRing_kept ?_ ?_
    | with_reducible refine State.writeRingCfg_kept ?_
    | with_reducible refine Kept.next_intro ?_
    | intro _

theorem execDrainLimit_kept {kq : List Instr} {kn : Nat} {n : ℕ} {s : State} (h1 : Kept kq kn s) :
    ∀ v, execDrainLimit n s = .next v → Kept kq kn v := by
  unfold execDrainLimit
  repeat' first
    | with_reducible assumption
    | with_reducible refine State.resumeCmd_kept ?_ ?_
    | with_reducible refine State.setReg_kept ?_
    | with_reducible refine State.setDisabled_kept ?_
    | with_reducible refine State.endDrain_kept ?_
    | with_reducible refine Kept.next_intro ?_
    | split
    | dsimp only
    | intro _

theorem execFullReset_kept {kq : List Instr} {kn : Nat} {n : ℕ} {s : State} (h1 : Kept kq kn s) :
    ∀ v, execFullReset n s = .next v → Kept kq kn v := by
  unfold execFullReset
  repeat' first
    | with_reducible assumption
    | with_reducible refine State.runCmd_kept ?_ ?_
    | with_reducible refine State.finish_kept ?_
    | with_reducible refine Kept.next_intro ?_
    | dsimp only
    | intro _
    | fail_if_no_progress refine Kept.upd ?_ rfl rfl rfl rfl rfl rfl rfl

theorem execRingDisable_kept {kq : List Instr} {kn : Nat} {ring : ℕ} {cfg : Word64} {s : State} (h2 : Kept kq kn s) :
    ∀ v, execRingDisable ring cfg s = .next v → Kept kq kn v := by
  unfold execRingDisable
  repeat' first
    | with_reducible assumption
    | with_reducible refine State.onRing_kept ?_ ?_
    | with_reducible refine State.writeRingCfg_kept ?_
    | with_reducible refine Kept.next_intro ?_
    | intro _

theorem execIdentify_kept {kq : List Instr} {kn : Nat} {n : ℕ} {s : State} (h1 : Kept kq kn s) :
    ∀ v, execIdentify n s = .next v → Kept kq kn v := by
  unfold execIdentify
  repeat' first
    | with_reducible assumption
    | with_reducible refine State.runCmd_kept ?_ ?_
    | with_reducible refine State.finish_kept ?_
    | with_reducible refine Kept.next_intro ?_
    | intro _

/-! ### Machine/Power.lean -/

theorem execResetRelease_kept {kq : List Instr} {kn : Nat} {s : State} (h0 : Kept kq kn s) :
    ∀ v, execResetRelease s = .next v → Kept kq kn v := by
  unfold execResetRelease
  repeat' first
    | with_reducible assumption
    | with_reducible refine Kept.ite ?_ ?_
    | with_reducible refine Kept.next_intro ?_
    | dsimp only
    | fail_if_no_progress refine Kept.upd ?_ rfl rfl rfl rfl rfl rfl rfl

theorem execPowerLoss_kept {kq : List Instr} {kn : Nat} {s : State} (h0 : Kept kq kn s) :
    ∀ v, execPowerLoss s = .next v → Kept kq kn v := by
  exact Kept.next_intro (Kept.afterReset h0 h0.fresh (by decide) (by decide) rfl rfl (by decide) rfl)

theorem State.wakeCopse_kept {kq : List Instr} {kn : Nat} {s : State} {c : ℕ} (h0 : Kept kq kn s) :
    Kept kq kn (State.wakeCopse s c) := by
  unfold State.wakeCopse
  repeat' first | with_reducible assumption | dsimp only | fail_if_no_progress refine Kept.upd ?_ rfl rfl rfl rfl rfl rfl rfl

theorem execWakeComplete_kept {kq : List Instr} {kn : Nat} {c : ℕ} {s : State} (h1 : Kept kq kn s) :
    ∀ v, execWakeComplete c s = .next v → Kept kq kn v := by
  unfold execWakeComplete
  repeat' first
    | with_reducible assumption
    | with_reducible refine State.wakeCopse_kept ?_
    | with_reducible refine Kept.ite ?_ ?_
    | with_reducible refine Kept.next_intro ?_

theorem execPowerOn_kept {kq : List Instr} {kn : Nat} {s : State} (h0 : Kept kq kn s) :
    ∀ v, execPowerOn s = .next v → Kept kq kn v := by
  refine Kept.next_intro (Kept.ite h0 ?_)
  exact Kept.afterReset h0 h0.fresh (by decide) (by decide) rfl rfl (by decide) rfl

theorem execResetNDeassert_kept {kq : List Instr} {kn : Nat} {s : State} (h0 : Kept kq kn s) :
    ∀ v, execResetNDeassert s = .next v → Kept kq kn v := by
  unfold execResetNDeassert
  repeat' first
    | with_reducible assumption
    | with_reducible refine Kept.next_intro ?_
    | dsimp only
    | fail_if_no_progress refine Kept.upd ?_ rfl rfl rfl rfl rfl rfl rfl

theorem State.requestRate_kept {kq : List Instr} {kn : Nat} {s : State} (h0 : Kept kq kn s) :
    Kept kq kn (State.requestRate s) := by
  unfold State.requestRate
  repeat' first | with_reducible assumption | with_reducible refine State.setFld_kept ?_

theorem State.writeAclkCap_kept {kq : List Instr} {kn : Nat} {s : State} {a1 : ℕ} (h0 : Kept kq kn s) :
    Kept kq kn (State.writeAclkCap s a1) := by
  unfold State.writeAclkCap
  repeat' first | with_reducible assumption | with_reducible refine State.requestRate_kept ?_ | with_reducible refine State.setFld_kept ?_

theorem execAclkCapWrite_kept {kq : List Instr} {kn : Nat} {a0 : ℕ} {s : State} (h1 : Kept kq kn s) :
    ∀ v, execAclkCapWrite a0 s = .next v → Kept kq kn v := by
  unfold execAclkCapWrite
  repeat' first
    | with_reducible assumption
    | with_reducible refine State.whenUp_kept ?_ ?_
    | with_reducible refine State.writeAclkCap_kept ?_
    | with_reducible refine Kept.next_intro ?_
    | intro _

theorem execSeamPortRetrained_kept {kq : List Instr} {kn : Nat} {port : ℕ} {s : State} (h1 : Kept kq kn s) :
    ∀ v, execSeamPortRetrained port s = .next v → Kept kq kn v := by
  unfold execSeamPortRetrained
  repeat' first
    | with_reducible assumption
    | with_reducible refine Kept.next_intro ?_
    | dsimp only
    | fail_if_no_progress refine Kept.upd ?_ rfl rfl rfl rfl rfl rfl rfl

theorem State.passTime_kept {kq : List Instr} {kn : Nat} {s : State} (h0 : Kept kq kn s) :
    Kept kq kn (State.passTime s) := by
  unfold State.passTime
  repeat' first
    | with_reducible assumption
    | with_reducible refine State.whenUp_kept ?_ ?_
    | with_reducible refine State.elapse_kept ?_
    | split
    | intro _

theorem State.beginReset_kept {kq : List Instr} {kn : Nat} {s : State} {cause : ℕ} (h0 : Kept kq kn s) :
    Kept kq kn (State.beginReset s cause) := by
  unfold State.beginReset
  refine Kept.ite h0 (Kept.ite (State.setReg_kept h0) (State.setReg_kept ?_))
  refine Kept.afterReset h0 (Nat.le_succ_of_le h0.fresh) ?_ (by decide) rfl rfl rfl rfl
  show Sparse.wf memDefault s.hbmAfterReset.1 = true
  unfold State.hbmAfterReset
  generalize (List.filter _ s.mem.bytes).zipIdx = l
  suffices h : ∀ m, Sparse.wf memDefault m = true → Sparse.wf memDefault (l.foldl (fun l b =>
      Sparse.set memDefault l b.1.1 (BitVec.ofNat 8 (s.free.1 / 2 ^ (8 * b.2)))) m) = true from h [] Sparse.wf_nil
  induction l with
  | nil => exact fun m h => h
  | cons x l ih => exact fun m h => ih _ (Sparse.set_wf h)

theorem execFullResetBegin_kept {kq : List Instr} {kn : Nat} {cause : ℕ} {s : State} (h1 : Kept kq kn s) :
    ∀ v, execFullResetBegin cause s = .next v → Kept kq kn v := by
  unfold execFullResetBegin
  repeat' first
    | with_reducible assumption
    | with_reducible refine State.beginReset_kept ?_
    | with_reducible refine Kept.ite ?_ ?_
    | with_reducible refine Kept.next_intro ?_

theorem execWatchdogRestart_kept {kq : List Instr} {kn : Nat} {s : State} (h0 : Kept kq kn s) :
    ∀ v, execWatchdogRestart s = .next v → Kept kq kn v := by
  unfold execWatchdogRestart
  repeat' first
    | with_reducible assumption
    | with_reducible refine Kept.ite ?_ ?_
    | with_reducible refine Kept.next_intro ?_
    | dsimp only
    | fail_if_no_progress refine Kept.upd ?_ rfl rfl rfl rfl rfl rfl rfl

theorem State.abortImposition_kept {kq : List Instr} {kn : Nat} {s : State} (h0 : Kept kq kn s) :
    Kept kq kn (State.abortImposition s) := h0.mapCmds fun c => by split <;> rfl

theorem execSeamReset_kept {kq : List Instr} {kn : Nat} {port : ℕ} {s : State} (h1 : Kept kq kn s) :
    ∀ v, execSeamReset port s = .next v → Kept kq kn v := by
  unfold execSeamReset
  repeat' first
    | with_reducible assumption
    | with_reducible refine State.whenUp_kept ?_ ?_
    | with_reducible refine State.beginReset_kept ?_
    | with_reducible refine State.abortSteps_kept ?_
    | with_reducible refine State.abortImposition_kept ?_
    | with_reducible refine Kept.next_intro ?_
    | split
    | dsimp only
    | intro _
    | fail_if_no_progress refine Kept.upd ?_ rfl rfl rfl rfl rfl rfl rfl

theorem State.whenPowered_kept {kq : List Instr} {kn : Nat} {s : State} {f : State → State} (h0 : Kept kq kn s) (h1 : ∀ u0, Kept kq kn u0 → Kept kq kn (f u0)) :
    Kept kq kn (State.whenPowered s f) := by
  unfold State.whenPowered
  repeat' first | with_reducible assumption | with_reducible refine Kept.ite ?_ ?_ | with_reducible refine h1 _ ?_

theorem execInputInRange_kept {kq : List Instr} {kn : Nat} {s : State} (h0 : Kept kq kn s) :
    ∀ v, execInputInRange s = .next v → Kept kq kn v := by
  unfold execInputInRange
  repeat' first
    | with_reducible assumption
    | with_reducible refine State.whenPowered_kept ?_ ?_
    | with_reducible refine Kept.next_intro ?_
    | dsimp only
    | intro _
    | fail_if_no_progress refine Kept.upd ?_ rfl rfl rfl rfl rfl rfl rfl

theorem execRetainEntry_kept {kq : List Instr} {kn : Nat} {c : ℕ} {s : State} (h1 : Kept kq kn s) :
    ∀ v, execRetainEntry c s = .next v → Kept kq kn v := by
  unfold execRetainEntry
  repeat' first
    | with_reducible assumption
    | with_reducible refine Kept.ite ?_ ?_
    | with_reducible refine Kept.next_intro ?_
    | dsimp only
    | fail_if_no_progress refine Kept.upd ?_ rfl rfl rfl rfl rfl rfl rfl

theorem execMemoryControllerRetrained_kept {kq : List Instr} {kn : Nat} {ch : ℕ} {s : State} (h1 : Kept kq kn s) :
    ∀ v, execMemoryControllerRetrained ch s = .next v → Kept kq kn v := by
  unfold execMemoryControllerRetrained
  repeat' first
    | with_reducible assumption
    | with_reducible refine Kept.next_intro ?_
    | dsimp only
    | fail_if_no_progress refine Kept.upd ?_ rfl rfl rfl rfl rfl rfl rfl

theorem execInput_kept {kq : List Instr} {kn : Nat} {s : State} (h0 : Kept kq kn s) :
    ∀ v, execInput s = .next v → Kept kq kn v := by
  unfold execInput
  repeat' first
    | with_reducible assumption
    | with_reducible refine State.whenPowered_kept ?_ ?_
    | with_reducible refine State.beginReset_kept ?_
    | with_reducible refine Kept.next_intro ?_
    | dsimp only
    | intro _
    | fail_if_no_progress refine Kept.upd ?_ rfl rfl rfl rfl rfl rfl rfl

theorem execPowerCheck_kept {kq : List Instr} {kn : Nat} {avg1 : ℕ} {avg100 : ℕ} {s : State} (h2 : Kept kq kn s) :
    ∀ v, execPowerCheck avg1 avg100 s = .next v → Kept kq kn v := by
  unfold execPowerCheck
  repeat' first
    | with_reducible assumption
    | with_reducible refine State.whenPowered_kept ?_ ?_
    | with_reducible refine State.setFld_kept ?_
    | with_reducible refine State.requestRate_kept ?_
    | with_reducible refine Kept.next_intro ?_
    | split
    | dsimp only
    | intro _
    | fail_if_no_progress refine Kept.upd ?_ rfl rfl rfl rfl rfl rfl rfl

theorem execWatchdog_kept {kq : List Instr} {kn : Nat} {s : State} (h0 : Kept kq kn s) :
    ∀ v, execWatchdog s = .next v → Kept kq kn v := by
  unfold execWatchdog
  repeat' first
    | with_reducible assumption
    | with_reducible refine State.beginReset_kept ?_
    | with_reducible refine Kept.ite ?_ ?_
    | with_reducible refine Kept.next_intro ?_

theorem execWake_kept {kq : List Instr} {kn : Nat} {c : ℕ} {s : State} (h1 : Kept kq kn s) :
    ∀ v, execWake c s = .next v → Kept kq kn v := by
  unfold execWake
  repeat' first
    | with_reducible assumption
    | with_reducible refine Kept.ite ?_ ?_
    | with_reducible refine Kept.next_intro ?_
    | dsimp only
    | fail_if_no_progress refine Kept.upd ?_ rfl rfl rfl rfl rfl rfl rfl

theorem State.writeResetCtrl_kept {kq : List Instr} {kn : Nat} {s : State} {a1 : ℕ} (h0 : Kept kq kn s) :
    Kept kq kn (State.writeResetCtrl s a1) := by
  unfold State.writeResetCtrl
  repeat' first | with_reducible assumption | with_reducible refine State.beginReset_kept ?_ | with_reducible refine Kept.ite ?_ ?_

theorem execResetCtrl_kept {kq : List Instr} {kn : Nat} {a0 : ℕ} {s : State} (h1 : Kept kq kn s) :
    ∀ v, execResetCtrl a0 s = .next v → Kept kq kn v := by
  unfold execResetCtrl
  repeat' first | with_reducible assumption | with_reducible refine State.writeResetCtrl_kept ?_ | with_reducible refine Kept.next_intro ?_

theorem execCommandResetDelay_kept {kq : List Instr} {kn : Nat} {s : State} (h0 : Kept kq kn s) :
    ∀ v, execCommandResetDelay s = .next v → Kept kq kn v := by
  unfold execCommandResetDelay
  repeat' first
    | with_reducible assumption
    | with_reducible refine State.beginReset_kept ?_
    | with_reducible refine Kept.ite ?_ ?_
    | with_reducible refine Kept.next_intro ?_

theorem execResetNAssert_kept {kq : List Instr} {kn : Nat} {s : State} (h0 : Kept kq kn s) :
    ∀ v, execResetNAssert s = .next v → Kept kq kn v := by
  unfold execResetNAssert
  repeat' first
    | with_reducible assumption
    | with_reducible refine State.beginReset_kept ?_
    | with_reducible refine Kept.next_intro ?_
    | dsimp only
    | fail_if_no_progress refine Kept.upd ?_ rfl rfl rfl rfl rfl rfl rfl

theorem execGateEntry_kept {kq : List Instr} {kn : Nat} {c : ℕ} {s : State} (h1 : Kept kq kn s) :
    ∀ v, execGateEntry c s = .next v → Kept kq kn v := by
  unfold execGateEntry
  repeat' first
    | with_reducible assumption
    | with_reducible refine Kept.ite ?_ ?_
    | with_reducible refine Kept.next_intro ?_
    | dsimp only
    | fail_if_no_progress refine Kept.upd ?_ rfl rfl rfl rfl rfl rfl rfl

theorem execJunctionRead_kept {kq : List Instr} {kn : Nat} {grove : ℕ} {l : List Reading} {s : State} (h2 : Kept kq kn s) :
    ∀ v, execJunctionRead grove l s = .next v → Kept kq kn v := by
  unfold execJunctionRead
  repeat' first
    | with_reducible assumption
    | with_reducible refine State.setFld_kept ?_
    | with_reducible refine State.irq_kept ?_
    | with_reducible refine State.alarmRose_kept ?_ ?_
    | with_reducible refine State.requestRate_kept ?_
    | with_reducible refine State.beginReset_kept ?_
    | with_reducible refine Kept.ite ?_ ?_
    | with_reducible refine Kept.next_intro ?_
    | dsimp only
    | fail_if_no_progress refine Kept.upd ?_ rfl rfl rfl rfl rfl rfl rfl

theorem execMemoryControllerReset_kept {kq : List Instr} {kn : Nat} {ch : ℕ} {reads : List ℕ} {s : State} (h2 : Kept kq kn s) :
    ∀ v, execMemoryControllerReset ch reads s = .next v → Kept kq kn v := by
  unfold execMemoryControllerReset
  repeat' first
    | with_reducible assumption
    | with_reducible refine State.whenUp_kept ?_ ?_
    | with_reducible refine State.beginReset_kept ?_
    | with_reducible refine State.queueChannel_kept ?_
    | with_reducible refine State.hbmUncorrectable_kept ?_
    | with_reducible refine Kept.foldl ?_ ?_
    | with_reducible refine Kept.next_intro ?_
    | split
    | dsimp only
    | intro _
    | fail_if_no_progress refine Kept.upd ?_ rfl rfl rfl rfl rfl rfl rfl

/-! ### Machine/Declare.lean -/

theorem State.wgradIn_kept {kq : List Instr} {kn : Nat} {s : State} {t : Tensor} (h0 : Kept kq kn s) :
    Kept kq kn (State.wgradIn s t) := by
  unfold State.wgradIn
  repeat' first
    | with_reducible assumption
    | with_reducible refine State.updTensor_kept ?_
    | with_reducible refine State.givePages_kept ?_
    | with_reducible refine Kept.ite ?_ ?_

theorem State.wgradOut_kept {kq : List Instr} {kn : Nat} {s : State} {t : Tensor} (h0 : Kept kq kn s) :
    ∀ v, State.wgradOut s t = some v → Kept kq kn v := by
  unfold State.wgradOut
  repeat' first
    | with_reducible assumption
    | with_reducible refine State.takePages_kept ?_
    | with_reducible refine State.updTensor_kept ?_
    | with_reducible refine Kept.some_intro ?_
    | with_reducible refine Kept.none_intro
    | split
    | dsimp only

theorem State.wgradSplit_kept {kq : List Instr} {kn : Nat} {a0 : List Tensor} {a1 : ℕ} {a2 : State} (h2 : Kept kq kn a2) :
    ∀ v, State.wgradSplit a0 a1 a2 = some v → Kept kq kn v := by
  induction a0 generalizing a1 a2 with
  | nil => exact Kept.some_intro h2
  | cons t ts ih =>
    unfold State.wgradSplit
    dsimp only
    split
    · exact ih (State.wgradIn_kept h2)
    · exact Kept.bind_some fun u hu => ih (State.wgradOut_kept h2 u hu)

theorem State.unstageTensor_kept {kq : List Instr} {kn : Nat} {s : State} {h : ℕ} (h0 : Kept kq kn s) :
    Kept kq kn (State.unstageTensor s h) := by
  unfold State.unstageTensor
  repeat' first
    | with_reducible assumption
    | with_reducible refine State.givePages_kept ?_
    | split
    | dsimp only
    | fail_if_no_progress refine Kept.upd ?_ rfl rfl rfl rfl rfl rfl rfl

theorem State.dropTensor_kept {kq : List Instr} {kn : Nat} {s : State} {t : Tensor} (h0 : Kept kq kn s) :
    Kept kq kn (State.dropTensor s t) := by
  have h1 := State.givePages_kept (l := t.pages) (State.dropImage_kept (h := t.handle)
    (State.unstageTensor_kept (h := t.handle) h0))
  exact h1.updTens fun u hu => h1.sound.elements u (List.mem_filter.1 hu).1

theorem State.applyReleases_kept {kq : List Instr} {kn : Nat} {s : State} (h0 : Kept kq kn s) :
    Kept kq kn (State.applyReleases s) := by
  unfold State.applyReleases
  repeat' first
    | with_reducible assumption
    | with_reducible refine State.dropTensor_kept ?_
    | with_reducible refine Kept.foldl ?_ ?_
    | split
    | intro _

theorem State.placeTensor_kept {kq : List Instr} {kn : Nat} {s : State} {t : Tensor} (h0 : Kept kq kn s) :
    ∀ v, State.placeTensor s t = some v → Kept kq kn v := by
  unfold State.placeTensor
  repeat' first
    | with_reducible assumption
    | with_reducible refine State.takePages_kept ?_
    | with_reducible refine State.updTensor_kept ?_
    | with_reducible refine Kept.some_intro ?_
    | with_reducible refine Kept.none_intro
    | split
    | dsimp only

theorem State.addTensor_kept {kq : List Instr} {kn : Nat} {s : State} {c : Cmd} (h0 : Kept kq kn s) :
    Kept kq kn (State.addTensor s c) := by
  unfold State.addTensor
  extract_lets t l
  refine Kept.upd (s := { s with tens := s.tens ++ l }) (h0.updTens fun u hu => ?_) rfl rfl rfl rfl rfl rfl rfl
  rcases List.mem_append.1 hu with h | h
  · exact h0.sound.elements u h
  · have : u.data = [] := by
      unfold l at h; split at h <;> simp at h
      · rcases h with rfl | rfl <;> rfl
      · subst h; rfl
    rw [this]; exact Sparse.wf_nil

theorem State.placeAll_kept {kq : List Instr} {kn : Nat} {s : State} (h0 : Kept kq kn s) :
    ∀ v, State.placeAll s = some v → Kept kq kn v := by
  unfold State.placeAll
  repeat' first
    | with_reducible assumption
    | with_reducible refine State.placeTensor_kept ?_
    | with_reducible refine Kept.foldl_some ?_ ?_
    | with_reducible refine Kept.bind_some ?_
    | with_reducible refine Kept.some_intro ?_
    | split
    | intro _
    | refine Kept.of_some ‹_ = some _› ?_

theorem State.account_kept {kq : List Instr} {kn : Nat} {s : State} (h0 : Kept kq kn s) :
    ∀ v, State.account s = .ok v → Kept kq kn v := by
  unfold State.account
  split
  · exact Kept.error_intro
  · split
    · rename_i u hu
      exact Kept.ok_intro (Kept.of_some hu (Kept.bind_some fun w hw => State.wgradSplit_kept (State.placeAll_kept h0 w hw)))
    · exact Kept.error_intro

theorem execDeclareTensor_kept {kq : List Instr} {kn : Nat} {n : ℕ} {s : State} (h1 : Kept kq kn s) :
    ∀ v, execDeclareTensor n s = .next v → Kept kq kn v := by
  unfold execDeclareTensor
  repeat' first
    | with_reducible assumption
    | with_reducible refine State.runCmd_kept ?_ ?_
    | with_reducible refine State.finish_kept ?_
    | with_reducible refine State.addTensor_kept ?_
    | with_reducible refine State.account_kept ?_
    | with_reducible refine Kept.next_intro ?_
    | split
    | dsimp only
    | intro _
    | refine Kept.of_ok ‹_ = Except.ok _› ?_

theorem execDeclareOp_kept {kq : List Instr} {kn : Nat} {n : ℕ} {s : State} (h1 : Kept kq kn s) :
    ∀ v, execDeclareOp n s = .next v → Kept kq kn v := by
  unfold execDeclareOp
  repeat' first
    | with_reducible assumption
    | with_reducible refine State.runCmd_kept ?_ ?_
    | with_reducible refine State.finish_kept ?_
    | with_reducible refine Kept.next_intro ?_
    | split
    | dsimp only
    | intro _
    | fail_if_no_progress refine Kept.upd ?_ rfl rfl rfl rfl rfl rfl rfl

theorem execReleaseTensor_kept {kq : List Instr} {kn : Nat} {n : ℕ} {s : State} (h1 : Kept kq kn s) :
    ∀ v, execReleaseTensor n s = .next v → Kept kq kn v := by
  unfold execReleaseTensor
  repeat' first
    | with_reducible assumption
    | with_reducible refine State.runCmd_kept ?_ ?_
    | with_reducible refine State.finish_kept ?_
    | with_reducible refine Kept.next_intro ?_
    | split
    | intro _

/-! ### Machine/Proofs.lean -/

theorem State.calendarCounter_kept {kq : List Instr} {kn : Nat} {s : State} (h0 : Kept kq kn s) :
    Kept kq kn (State.calendarCounter s).2 := by
  unfold State.calendarCounter
  repeat' first | with_reducible assumption | with_reducible refine State.free_kept ?_

theorem execProofPullEnd_kept {kq : List Instr} {kn : Nat} {s : State} (h0 : Kept kq kn s) :
    ∀ v, execProofPullEnd s = .next v → Kept kq kn v := by
  unfold execProofPullEnd
  repeat' first
    | with_reducible assumption
    | with_reducible refine Kept.ite ?_ ?_
    | with_reducible refine Kept.next_intro ?_
    | dsimp only
    | fail_if_no_progress refine Kept.upd ?_ rfl rfl rfl rfl rfl rfl rfl

theorem State.releaseImage_kept {kq : List Instr} {kn : Nat} {s : State} (h0 : Kept kq kn s) :
    Kept kq kn (State.releaseImage s) := by
  unfold State.releaseImage
  repeat' first
    | with_reducible assumption
    | with_reducible refine State.setFld_kept ?_
    | dsimp only
    | fail_if_no_progress refine Kept.upd ?_ rfl rfl rfl rfl rfl rfl rfl

theorem execProofRelease_kept {kq : List Instr} {kn : Nat} {s : State} (h0 : Kept kq kn s) :
    ∀ v, execProofRelease s = .next v → Kept kq kn v := by
  unfold execProofRelease
  repeat' first
    | with_reducible assumption
    | with_reducible refine State.whenUp_kept ?_ ?_
    | with_reducible refine State.releaseImage_kept ?_
    | with_reducible refine Kept.next_intro ?_
    | intro _

theorem State.proofEnds_kept {kq : List Instr} {kn : Nat} {s : State} {k : ℕ} {o : Outcome} (h0 : Kept kq kn s) :
    Kept kq kn (State.proofEnds s k o) := by
  unfold State.proofEnds
  repeat' first | with_reducible assumption | with_reducible refine State.finish_kept ?_ | split

theorem State.reply_kept {kq : List Instr} {kn : Nat} {s : State} {r : UartReply} (h0 : Kept kq kn s) :
    Kept kq kn (State.reply s r) := by
  unfold State.reply
  repeat' first | with_reducible assumption | dsimp only | fail_if_no_progress refine Kept.upd ?_ rfl rfl rfl rfl rfl rfl rfl

theorem State.stampProof_kept {kq : List Instr} {kn : Nat} {s : State} (h0 : Kept kq kn s) :
    Kept kq kn (State.stampProof s) := by
  unfold State.stampProof
  repeat' first | with_reducible assumption | with_reducible refine State.calendarCounter_kept ?_ | with_reducible refine State.setReg_kept ?_

theorem State.fire_kept {kq : List Instr} {kn : Nat} {s : State} {l : List ℕ} (h0 : Kept kq kn s) :
    Kept kq kn (State.fire s l) := by
  unfold State.fire
  repeat' first
    | with_reducible assumption
    | with_reducible refine State.addSat_kept ?_
    | with_reducible refine State.proofEnds_kept ?_
    | with_reducible refine State.free_kept ?_
    | with_reducible refine State.reply_kept ?_
    | with_reducible refine State.setFld_kept ?_
    | with_reducible refine State.stampProof_kept ?_
    | with_reducible refine Kept.ite ?_ ?_
    | split
    | dsimp only
    | fail_if_no_progress refine Kept.upd ?_ rfl rfl rfl rfl rfl rfl rfl

theorem State.idleStep_kept {kq : List Instr} {kn : Nat} {s : State} (h0 : Kept kq kn s) :
    Kept kq kn (State.idleStep s) := by
  unfold State.idleStep
  repeat' first
    | with_reducible assumption
    | with_reducible refine State.whenUp_kept ?_ ?_
    | with_reducible refine State.passTime_kept ?_
    | with_reducible refine State.fire_kept ?_
    | split
    | intro _

theorem execProofAtTime_kept {kq : List Instr} {kn : Nat} {n : ℕ} {s : State} (h1 : Kept kq kn s) :
    ∀ v, execProofAtTime n s = .next v → Kept kq kn v := by
  unfold execProofAtTime
  repeat' first
    | with_reducible assumption
    | with_reducible refine State.runCmd_kept ?_ ?_
    | with_reducible refine State.finish_kept ?_
    | with_reducible refine State.park_kept ?_
    | with_reducible refine Kept.next_intro ?_
    | split
    | dsimp only
    | intro _

theorem execProofRead_kept {kq : List Instr} {kn : Nat} {n : ℕ} {s : State} (h1 : Kept kq kn s) :
    ∀ v, execProofRead n s = .next v → Kept kq kn v := by
  unfold execProofRead
  repeat' first
    | with_reducible assumption
    | with_reducible refine State.runCmd_kept ?_ ?_
    | with_reducible refine State.finish_kept ?_
    | with_reducible refine State.deliver_kept ?_
    | with_reducible refine Kept.next_intro ?_
    | split
    | intro _

theorem execProofPinEdge_kept {kq : List Instr} {kn : Nat} {s : State} (h0 : Kept kq kn s) :
    ∀ v, execProofPinEdge s = .next v → Kept kq kn v := by
  unfold execProofPinEdge
  repeat' first
    | with_reducible assumption
    | with_reducible refine Kept.ite ?_ ?_
    | with_reducible refine Kept.next_intro ?_
    | dsimp only
    | fail_if_no_progress refine Kept.upd ?_ rfl rfl rfl rfl rfl rfl rfl

theorem execProofFire_kept {kq : List Instr} {kn : Nat} {sources : List ℕ} {s : State} (h1 : Kept kq kn s) :
    ∀ v, execProofFire sources s = .next v → Kept kq kn v := by
  unfold execProofFire
  repeat' first
    | with_reducible assumption
    | with_reducible refine State.fire_kept ?_
    | with_reducible refine Kept.ite ?_ ?_
    | with_reducible refine Kept.next_intro ?_

theorem execProofNow_kept {kq : List Instr} {kn : Nat} {n : ℕ} {s : State} (h1 : Kept kq kn s) :
    ∀ v, execProofNow n s = .next v → Kept kq kn v := by
  unfold execProofNow
  repeat' first
    | with_reducible assumption
    | with_reducible refine State.runCmd_kept ?_ ?_
    | with_reducible refine State.park_kept ?_
    | with_reducible refine Kept.next_intro ?_
    | intro _

theorem State.snapshot_kept {kq : List Instr} {kn : Nat} {s : State} {c : Cmd} {f : State → State} (h0 : Kept kq kn s) (h2 : ∀ u0, Kept kq kn u0 → Kept kq kn (f u0)) :
    Kept kq kn (State.snapshot s c f) := by
  unfold State.snapshot
  repeat' first
    | with_reducible assumption
    | with_reducible refine State.rangeGate_kept ?_
    | with_reducible refine Kept.ite ?_ ?_
    | with_reducible refine h2 _ ?_
    | split
    | refine Kept.of_some ‹_ = some _› ?_

theorem execCountersRead_kept {kq : List Instr} {kn : Nat} {n : ℕ} {s : State} (h1 : Kept kq kn s) :
    ∀ v, execCountersRead n s = .next v → Kept kq kn v := by
  unfold execCountersRead
  repeat' first
    | with_reducible assumption
    | with_reducible refine State.runCmd_kept ?_ ?_
    | with_reducible refine State.finish_kept ?_
    | with_reducible refine State.snapshot_kept ?_ ?_
    | with_reducible refine State.clearRC_kept ?_
    | with_reducible refine State.deliver_kept ?_
    | with_reducible refine Kept.foldl ?_ ?_
    | with_reducible refine Kept.next_intro ?_
    | split
    | dsimp only
    | intro _

/-! ### Machine/Completion.lean -/

theorem State.atCompletion_kept {kq : List Instr} {kn : Nat} {s : State} {c : Cmd} (h0 : Kept kq kn s) :
    Kept kq kn (State.atCompletion s c) := by
  unfold State.atCompletion
  repeat' first
    | with_reducible assumption
    | with_reducible refine State.updCmd_kept ?_ ?_
    | with_reducible refine State.setDisabled_kept ?_
    | with_reducible refine State.setReg_kept ?_
    | with_reducible refine State.endWalks_kept ?_
    | with_reducible refine State.backwardCompletes_kept ?_
    | with_reducible refine State.saveCompletes_kept ?_
    | with_reducible refine State.stepSizeCompletes_kept ?_
    | with_reducible refine State.updateCompletes_kept ?_
    | with_reducible refine State.cancelWatch_kept ?_
    | with_reducible refine State.releaseImage_kept ?_
    | with_reducible refine Kept.ite ?_ ?_
    | rfl
    | split
    | dsimp only
    | intro _

theorem State.afterCompletion_kept {kq : List Instr} {kn : Nat} {s : State} {c : Cmd} (h0 : Kept kq kn s) :
    Kept kq kn (State.afterCompletion s c) := by
  unfold State.afterCompletion
  repeat' first
    | with_reducible assumption
    | with_reducible refine State.collWake_kept ?_
    | with_reducible refine State.wakeAll_kept ?_
    | with_reducible refine State.retire_kept ?_
    | with_reducible refine State.applyReleases_kept ?_
    | with_reducible refine State.applyFrees_kept ?_
    | with_reducible refine State.drainCheck_kept ?_

theorem State.completes_kept {kq : List Instr} {kn : Nat} {s : State} {c : Cmd} (h0 : Kept kq kn s) :
    Kept kq kn (State.completes s c) := by
  unfold State.completes
  repeat' first
    | with_reducible assumption
    | with_reducible refine State.updCmd_kept ?_ ?_
    | with_reducible refine State.atCompletion_kept ?_
    | with_reducible refine State.applySignals_kept ?_
    | with_reducible refine State.afterCompletion_kept ?_
    | with_reducible refine State.report_kept ?_
    | with_reducible refine Kept.ite ?_ ?_
    | rfl
    | dsimp only
    | intro _

theorem execCompletionReport_kept {kq : List Instr} {kn : Nat} {n : ℕ} {s : State} (h1 : Kept kq kn s) :
    ∀ v, execCompletionReport n s = .next v → Kept kq kn v := by
  unfold execCompletionReport
  repeat' first
    | with_reducible assumption
    | with_reducible refine State.completes_kept ?_
    | with_reducible refine Kept.ite ?_ ?_
    | with_reducible refine Kept.next_intro ?_
    | split

/-! ### Machine/Startup.lean -/

theorem State.floorFor_kept {kq : List Instr} {kn : Nat} {s : State} {kind : ℕ} {o : List Byte} (h0 : Kept kq kn s) :
    Kept kq kn (State.floorFor s kind o) := by
  unfold State.floorFor
  repeat' first | with_reducible assumption | with_reducible refine State.raiseFloor_kept ?_ | with_reducible refine Kept.ite ?_ ?_

theorem State.stage_kept {kq : List Instr} {kn : Nat} {s : State} {k : ℕ} {d : ℕ} {f : State → State} (h0 : Kept kq kn s) (h3 : ∀ u0, Kept kq kn u0 → Kept kq kn (f u0)) :
    Kept kq kn (State.stage s k d f) := by
  unfold State.stage
  repeat' first
    | with_reducible assumption
    | with_reducible refine State.elapse_kept ?_
    | with_reducible refine State.setReg_kept ?_
    | with_reducible refine State.setFld_kept ?_
    | with_reducible refine Kept.ite ?_ ?_
    | with_reducible refine h3 _ ?_
    | split
    | dsimp only
    | fail_if_no_progress refine Kept.upd ?_ rfl rfl rfl rfl rfl rfl rfl

theorem State.bootFail_kept {kq : List Instr} {kn : Nat} {s : State} {k : ℕ} {code : ℕ} (h0 : Kept kq kn s) :
    Kept kq kn (State.bootFail s k code) := by
  unfold State.bootFail
  repeat' first | with_reducible assumption | with_reducible refine State.setFld_kept ?_

theorem State.bootStop_kept {kq : List Instr} {kn : Nat} {s : State} {k : ℕ} {code : ℕ} (h0 : Kept kq kn s) :
    Kept kq kn (State.bootStop s k code) := by
  unfold State.bootStop
  repeat' first
    | with_reducible assumption
    | with_reducible refine State.setFld_kept ?_
    | with_reducible refine State.bootFail_kept ?_
    | dsimp only
    | fail_if_no_progress refine Kept.upd ?_ rfl rfl rfl rfl rfl rfl rfl

theorem execFalosteoStage_kept {kq : List Instr} {kn : Nat} {d : ℕ} {ok : Bool} {s : State} (h2 : Kept kq kn s) :
    ∀ v, execFalosteoStage d ok s = .next v → Kept kq kn v := by
  unfold execFalosteoStage
  repeat' first
    | with_reducible assumption
    | with_reducible refine State.stage_kept ?_ ?_
    | with_reducible refine State.bootStop_kept ?_
    | with_reducible refine Kept.next_intro ?_
    | split
    | dsimp only
    | intro _
    | fail_if_no_progress refine Kept.upd ?_ rfl rfl rfl rfl rfl rfl rfl

theorem State.stageFatal_kept {kq : List Instr} {kn : Nat} {s : State} {k : ℕ} {code : ℕ} (h0 : Kept kq kn s) :
    Kept kq kn (State.stageFatal s k code) := by
  unfold State.stageFatal
  repeat' first | with_reducible assumption | with_reducible refine State.fatal_kept ?_ | with_reducible refine State.bootFail_kept ?_

theorem State.gclTrained_kept {kq : List Instr} {kn : Nat} {s : State} {t : GclTraining} (h0 : Kept kq kn s) :
    Kept kq kn (State.gclTrained s t) := by
  unfold State.gclTrained
  repeat' first | with_reducible assumption | with_reducible refine State.setReg_kept ?_

theorem execGclTrainingStage_kept {kq : List Instr} {kn : Nat} {d : ℕ} {t : Option GclTraining} {s : State} (h2 : Kept kq kn s) :
    ∀ v, execGclTrainingStage d t s = .next v → Kept kq kn v := by
  unfold execGclTrainingStage
  repeat' first
    | with_reducible assumption
    | with_reducible refine State.stage_kept ?_ ?_
    | with_reducible refine State.stageFatal_kept ?_
    | with_reducible refine State.gclTrained_kept ?_
    | with_reducible refine State.gclFlush_kept ?_
    | with_reducible refine State.setFld_kept ?_
    | with_reducible refine Kept.next_intro ?_
    | split
    | dsimp only
    | intro _
    | fail_if_no_progress refine Kept.upd ?_ rfl rfl rfl rfl rfl rfl rfl

theorem State.zeroCores_kept {kq : List Instr} {kn : Nat} {s : State} (h0 : Kept kq kn s) :
    Kept kq kn (State.zeroCores s) := by
  exact h0.updMem (Sparse.filter_wf h0.sound.mem)

theorem execStartUp_kept {kq : List Instr} {kn : Nat} {d : ℕ} {s : State} (h1 : Kept kq kn s) :
    ∀ v, execStartUp d s = .next v → Kept kq kn v := by
  unfold execStartUp
  repeat' first
    | with_reducible assumption
    | with_reducible refine State.stage_kept ?_ ?_
    | with_reducible refine Kept.next_intro ?_
    | intro _
    | fail_if_no_progress refine Kept.upd ?_ rfl rfl rfl rfl rfl rfl rfl

theorem execBootRomStage_kept {kq : List Instr} {kn : Nat} {d : ℕ} {ok : Bool} {s : State} (h2 : Kept kq kn s) :
    ∀ v, execBootRomStage d ok s = .next v → Kept kq kn v := by
  unfold execBootRomStage
  repeat' first
    | with_reducible assumption
    | with_reducible refine State.stage_kept ?_ ?_
    | with_reducible refine State.bootStop_kept ?_
    | with_reducible refine Kept.next_intro ?_
    | split
    | intro _

theorem State.excludeChannel_kept {kq : List Instr} {kn : Nat} {s : State} {ch : ℕ} (h0 : Kept kq kn s) :
    Kept kq kn (State.excludeChannel s ch) := by
  unfold State.excludeChannel
  repeat' first
    | with_reducible assumption
    | with_reducible refine State.setFld_kept ?_
    | with_reducible refine Kept.ite ?_ ?_
    | dsimp only
    | fail_if_no_progress refine Kept.upd ?_ rfl rfl rfl rfl rfl rfl rfl

theorem State.scrub_kept {kq : List Instr} {kn : Nat} {s : State} (h0 : Kept kq kn s) :
    Kept kq kn (State.scrub s) := by
  exact h0.updMem (Sparse.filter_wf h0.sound.mem)

theorem execHbmTrainingStage_kept {kq : List Instr} {kn : Nat} {d : ℕ} {failed : List ℕ} {s : State} (h2 : Kept kq kn s) :
    ∀ v, execHbmTrainingStage d failed s = .next v → Kept kq kn v := by
  refine Kept.next_intro (State.stage_kept h2 fun u hu => ?_)
  extract_lets old new v w _ _ x
  have hv : Kept kq kn v := Kept.foldl hu fun w a hw => State.addRepair_kept hw
  have hw : Kept kq kn w := Kept.foldl hv fun w a hw => State.excludeChannel_kept hw
  have hx : Kept kq kn x := by
    unfold x
    clear_value v w
    exact Kept.upd hw rfl rfl rfl rfl rfl rfl rfl
  clear_value x
  exact Kept.ite (State.stageFatal_kept hu) (Kept.ite (State.setFld_kept (State.scrub_kept hx)) hx)

theorem State.slotTested_kept {kq : List Instr} {kn : Nat} {s : State} {p : ℕ} {kind : ℕ} {pass : Bool} (h0 : Kept kq kn s) :
    Kept kq kn (State.slotTested s p kind pass) := by
  unfold State.slotTested
  repeat' first
    | with_reducible assumption
    | with_reducible refine State.addSat_kept ?_
    | with_reducible refine State.setFld_kept ?_
    | with_reducible refine Kept.ite ?_ ?_

theorem State.routerBad_kept {kq : List Instr} {kn : Nat} {s : State} {copse : ℕ} (h0 : Kept kq kn s) :
    Kept kq kn (State.routerBad s copse) := by
  unfold State.routerBad
  repeat' first | with_reducible assumption | with_reducible refine State.setFld_kept ?_

theorem State.mapCopse_kept {kq : List Instr} {kn : Nat} {bad : List ℕ} {s : State} {c : ℕ} (h1 : Kept kq kn s) :
    Kept kq kn (State.mapCopse bad s c) := by
  unfold State.mapCopse
  repeat' first
    | with_reducible assumption
    | with_reducible refine State.setReg_kept ?_
    | with_reducible refine State.setFld_kept ?_
    | with_reducible refine State.retireCopse_kept ?_
    | with_reducible refine Kept.ite ?_ ?_

theorem State.trainLink_kept {kq : List Instr} {kn : Nat} {s : State} {n : ℕ} {t : LinkTraining} (h0 : Kept kq kn s) :
    Kept kq kn (State.trainLink s n t) := by
  unfold State.trainLink
  repeat' first | with_reducible assumption | with_reducible refine State.setReg_kept ?_ | with_reducible refine State.updLink_kept ?_

theorem State.chosen_kept {kq : List Instr} {kn : Nat} {s : State} {f : ℕ × Bool × List Byte} {p : ℕ × Bool × List Byte} (h0 : Kept kq kn s) :
    Kept kq kn (State.chosen s f p) := by
  unfold State.chosen
  repeat' first
    | with_reducible assumption
    | with_reducible refine State.floorFor_kept ?_
    | with_reducible refine State.setFld_kept ?_
    | with_reducible refine State.setReg_kept ?_
    | dsimp only
    | fail_if_no_progress refine Kept.upd ?_ rfl rfl rfl rfl rfl rfl rfl

theorem State.engineBad_kept {kq : List Instr} {kn : Nat} {s : State} {g : ℕ} (h0 : Kept kq kn s) :
    Kept kq kn (State.engineBad s g) := by
  unfold State.engineBad
  repeat' first | with_reducible assumption | with_reducible refine State.setFld_kept ?_

theorem State.factorySeeds_kept {kq : List Instr} {kn : Nat} {s : State} (h0 : Kept kq kn s) :
    Kept kq kn (State.factorySeeds s) := by
  unfold State.factorySeeds
  repeat' first
    | with_reducible assumption
    | with_reducible refine State.setReg_kept ?_
    | with_reducible refine State.setFld_kept ?_
    | with_reducible refine Kept.foldl ?_ ?_
    | dsimp only
    | intro _
    | fail_if_no_progress refine Kept.upd ?_ rfl rfl rfl rfl rfl rfl rfl

theorem execSelfTestStage_kept {kq : List Instr} {kn : Nat} {d : ℕ} {slots : List ℕ} {routers : List ℕ} {engines : List ℕ} {s : State} (h4 : Kept kq kn s) :
    ∀ v, execSelfTestStage d slots routers engines s = .next v → Kept kq kn v := by
  unfold execSelfTestStage
  repeat' first
    | with_reducible assumption
    | with_reducible refine State.stage_kept ?_ ?_
    | with_reducible refine State.stageFatal_kept ?_
    | with_reducible refine State.routerBad_kept ?_
    | with_reducible refine State.slotTested_kept ?_
    | with_reducible refine State.mapCopse_kept ?_
    | with_reducible refine State.factorySeeds_kept ?_
    | with_reducible refine State.zeroCores_kept ?_
    | with_reducible refine State.engineBad_kept ?_
    | with_reducible refine Kept.foldl ?_ ?_
    | with_reducible refine Kept.next_intro ?_
    | split
    | dsimp only
    | intro _

theorem execVerificationStage_kept {kq : List Instr} {kn : Nat} {d : ℕ} {s : State} (h1 : Kept kq kn s) :
    ∀ v, execVerificationStage d s = .next v → Kept kq kn v := by
  unfold execVerificationStage
  repeat' first
    | with_reducible assumption
    | with_reducible refine State.stage_kept ?_ ?_
    | with_reducible refine State.chosen_kept ?_
    | with_reducible refine State.bootStop_kept ?_
    | with_reducible refine Kept.next_intro ?_
    | split
    | intro _

theorem State.drawNonce_kept {kq : List Instr} {kn : Nat} {s : State} (h0 : Kept kq kn s) :
    Kept kq kn (State.drawNonce s) := by
  unfold State.drawNonce
  repeat' first | with_reducible assumption | with_reducible refine State.free_kept ?_ | with_reducible refine State.setReg_kept ?_

theorem execPufStage_kept {kq : List Instr} {kn : Nat} {d : ℕ} {ok : Bool} {s : State} (h2 : Kept kq kn s) :
    ∀ v, execPufStage d ok s = .next v → Kept kq kn v := by
  unfold execPufStage
  repeat' first
    | with_reducible assumption
    | with_reducible refine State.stage_kept ?_ ?_
    | with_reducible refine State.drawNonce_kept ?_
    | with_reducible refine State.setReg_kept ?_
    | with_reducible refine State.stageFatal_kept ?_
    | with_reducible refine Kept.next_intro ?_
    | split
    | intro _

theorem State.applyLink_kept {kq : List Instr} {kn : Nat} {s : State} {n : ℕ} (h0 : Kept kq kn s) :
    Kept kq kn (State.applyLink s n) := by
  unfold State.applyLink
  repeat' first | with_reducible assumption | with_reducible refine State.setReg_kept ?_ | with_reducible refine Kept.ite ?_ ?_

theorem execLinkTrainingStage_kept {kq : List Instr} {kn : Nat} {d : ℕ} {l : List (ℕ × LinkTraining)} {s : State} (h2 : Kept kq kn s) :
    ∀ v, execLinkTrainingStage d l s = .next v → Kept kq kn v := by
  unfold execLinkTrainingStage
  repeat' first
    | with_reducible assumption
    | with_reducible refine State.stage_kept ?_ ?_
    | with_reducible refine State.applyLink_kept ?_
    | with_reducible refine State.trainLink_kept ?_
    | with_reducible refine State.setFld_kept ?_
    | with_reducible refine Kept.foldl ?_ ?_
    | with_reducible refine Kept.next_intro ?_
    | split
    | dsimp only
    | intro _

/-! ### Machine/Security.lean -/

theorem State.unlock_kept {kq : List Instr} {kn : Nat} {s : State} {o : List Byte} (h0 : Kept kq kn s) :
    ∀ v, State.unlock s o = .ok v → Kept kq kn v := by
  unfold State.unlock
  repeat' first
    | with_reducible assumption
    | with_reducible refine State.drawNonce_kept ?_
    | with_reducible refine State.setReg_kept ?_
    | with_reducible refine Kept.ok_intro ?_
    | with_reducible refine Kept.error_intro
    | split

theorem State.debugUnlock_kept {kq : List Instr} {kn : Nat} {s : State} {c : Cmd} {o : List Byte} (h0 : Kept kq kn s) :
    Kept kq kn (State.debugUnlock s c o) := by
  unfold State.debugUnlock
  repeat' first
    | with_reducible assumption
    | with_reducible refine State.unlock_kept ?_
    | with_reducible refine State.finish_kept ?_
    | split
    | refine Kept.of_ok ‹_ = Except.ok _› ?_

theorem State.secure_kept {kq : List Instr} {kn : Nat} {s : State} {n : ℕ} {opcode : ℕ} {f : Cmd → State → State} (h0 : Kept kq kn s) (h3 : ∀ u0 u1, Kept kq kn u1 → Kept kq kn (f u0 u1)) :
    Kept kq kn (State.secure s n opcode f) := by
  unfold State.secure
  repeat' first
    | with_reducible assumption
    | with_reducible refine State.runCmd_kept ?_ ?_
    | with_reducible refine h3 _ _ ?_
    | split
    | intro _

theorem State.activate_kept {kq : List Instr} {kn : Nat} {s : State} {kind : ℕ} (h0 : Kept kq kn s) :
    ∀ v, State.activate s kind = .ok v → Kept kq kn v.1 := by
  unfold State.activate
  repeat' first
    | with_reducible assumption
    | with_reducible refine State.writeSelector_kept ?_
    | with_reducible refine Kept.ok_intro ?_
    | with_reducible refine Kept.error_intro
    | split
    | dsimp only

theorem execActivateImage_kept {kq : List Instr} {kn : Nat} {n : ℕ} {flashFail : Bool} {s : State} (h2 : Kept kq kn s) :
    ∀ v, execActivateImage n flashFail s = .next v → Kept kq kn v := by
  unfold execActivateImage
  repeat' first
    | with_reducible assumption
    | with_reducible refine State.secure_kept ?_ ?_
    | with_reducible refine State.finish_kept ?_
    | with_reducible refine State.activate_kept ?_
    | with_reducible refine State.flashErase_kept ?_
    | with_reducible refine Kept.next_intro ?_
    | split
    | dsimp only
    | intro _
    | refine Kept.of_ok_fst ‹_ = Except.ok (_, _)› ?_

theorem execAttest_kept {kq : List Instr} {kn : Nat} {n : ℕ} {s : State} (h1 : Kept kq kn s) :
    ∀ v, execAttest n s = .next v → Kept kq kn v := by
  unfold execAttest
  repeat' first
    | with_reducible assumption
    | with_reducible refine State.secure_kept ?_ ?_
    | with_reducible refine State.deliver_kept ?_
    | with_reducible refine Kept.next_intro ?_
    | intro _

theorem State.withSource_kept {kq : List Instr} {kn : Nat} {s : State} {env : Env} {c : Cmd} {a : ℕ} {n : ℕ} {flag : ℕ} {f : List Byte → State → State} (h0 : Kept kq kn s) (h6 : ∀ u0 u1, Kept kq kn u1 → Kept kq kn (f u0 u1)) :
    Kept kq kn (State.withSource s env c a n flag f) := by
  unfold State.withSource
  repeat' first
    | with_reducible assumption
    | with_reducible refine State.faulted_kept ?_
    | with_reducible refine State.park_kept ?_
    | with_reducible refine State.fetchSource_kept ?_
    | with_reducible refine State.fetch_kept ?_ ?_
    | with_reducible refine Kept.ite ?_ ?_

theorem execDebugUnlock_kept {kq : List Instr} {kn : Nat} {n : ℕ} {env : Env} {s : State} (h2 : Kept kq kn s) :
    ∀ v, execDebugUnlock n env s = .next v → Kept kq kn v := by
  unfold execDebugUnlock
  repeat' first
    | with_reducible assumption
    | with_reducible refine State.secure_kept ?_ ?_
    | with_reducible refine State.finish_kept ?_
    | with_reducible refine State.withSource_kept ?_ ?_
    | with_reducible refine State.debugUnlock_kept ?_
    | with_reducible refine Kept.next_intro ?_
    | split
    | intro _

theorem State.stageImage_kept {kq : List Instr} {kn : Nat} {s : State} {c : Cmd} {o : List Byte} {flashFail : Bool} (h0 : Kept kq kn s) :
    Kept kq kn (State.stageImage s c o flashFail) := by
  unfold State.stageImage
  repeat' first
    | with_reducible assumption
    | with_reducible refine State.finish_kept ?_
    | with_reducible refine State.flashErase_kept ?_
    | with_reducible refine State.free_kept ?_
    | with_reducible refine State.flashPut_kept ?_
    | split
    | dsimp only

theorem execStageImage_kept {kq : List Instr} {kn : Nat} {n : ℕ} {env : Env} {flashFail : Bool} {s : State} (h3 : Kept kq kn s) :
    ∀ v, execStageImage n env flashFail s = .next v → Kept kq kn v := by
  unfold execStageImage
  repeat' first
    | with_reducible assumption
    | with_reducible refine State.secure_kept ?_ ?_
    | with_reducible refine State.finish_kept ?_
    | with_reducible refine State.withSource_kept ?_ ?_
    | with_reducible refine State.stageImage_kept ?_
    | with_reducible refine Kept.next_intro ?_
    | split
    | dsimp only
    | intro _

theorem State.securityData_kept {kq : List Instr} {kn : Nat} {s : State} {c : Cmd} (h0 : Kept kq kn s) :
    Kept kq kn (State.securityData s c) := by
  unfold State.securityData
  repeat' first
    | with_reducible assumption
    | with_reducible refine State.debugUnlock_kept ?_
    | with_reducible refine State.stageImage_kept ?_
    | with_reducible refine Kept.ite ?_ ?_

theorem execGetCertificate_kept {kq : List Instr} {kn : Nat} {n : ℕ} {s : State} (h1 : Kept kq kn s) :
    ∀ v, execGetCertificate n s = .next v → Kept kq kn v := by
  unfold execGetCertificate
  repeat' first
    | with_reducible assumption
    | with_reducible refine State.secure_kept ?_ ?_
    | with_reducible refine State.deliver_kept ?_
    | with_reducible refine State.finish_kept ?_
    | with_reducible refine Kept.next_intro ?_
    | split
    | intro _

/-! ### Machine/Convolution.lean -/

theorem execGlobalAvgPool_kept {kq : List Instr} {kn : Nat} {n : ℕ} {env : Env} {s : State} (h2 : Kept kq kn s) :
    ∀ v, execGlobalAvgPool n env s = .next v → Kept kq kn v := by
  unfold execGlobalAvgPool
  repeat' first
    | with_reducible assumption
    | with_reducible refine State.work_kept ?_ ?_
    | with_reducible refine State.finish_kept ?_
    | with_reducible refine State.complete_kept ?_
    | with_reducible refine State.raiseFlags_kept ?_
    | with_reducible refine Kept.next_intro ?_
    | split
    | dsimp only
    | intro _

theorem State.convRows_kept {kq : List Instr} {kn : Nat} {s : State} {c : Cmd} {x : Tensor} {w : Tensor} {y : Tensor} (h0 : Kept kq kn s) :
    Kept kq kn (State.convRows s c x w y).1 := by
  unfold State.convRows
  repeat' first
    | with_reducible assumption
    | with_reducible refine State.outputRow_kept ?_
    | with_reducible refine Kept.foldl_fst ?_ ?_
    | split
    | dsimp only
    | intro _

theorem State.conv_kept {kq : List Instr} {kn : Nat} {s : State} {env : Env} {c : Cmd} (h0 : Kept kq kn s) :
    Kept kq kn (State.conv s env c) := by
  unfold State.conv
  repeat' first
    | with_reducible assumption
    | with_reducible refine State.finish_kept ?_
    | with_reducible refine State.withSaves_kept ?_ ?_
    | with_reducible refine State.convRows_kept ?_
    | with_reducible refine State.complete_kept ?_
    | with_reducible refine State.arraysRan_kept ?_
    | split
    | dsimp only
    | intro _

theorem execMarginBypass_kept {kq : List Instr} {kn : Nat} {a0 : ℕ} {s : State} (h1 : Kept kq kn s) :
    ∀ v, execMarginBypass a0 s = .next v → Kept kq kn v := by
  unfold execMarginBypass
  repeat' first
    | with_reducible assumption
    | with_reducible refine State.whenUp_kept ?_ ?_
    | with_reducible refine State.setFld_kept ?_
    | with_reducible refine Kept.next_intro ?_
    | intro _

theorem execMarginLayer_kept {kq : List Instr} {kn : Nat} {n : ℕ} {env : Env} {fault : Option ℕ} {s : State} (h3 : Kept kq kn s) :
    ∀ v, execMarginLayer n env fault s = .next v → Kept kq kn v := by
  unfold execMarginLayer
  repeat' first
    | with_reducible assumption
    | with_reducible refine State.work_kept ?_ ?_
    | with_reducible refine State.finish_kept ?_
    | with_reducible refine State.withSaves_kept ?_ ?_
    | with_reducible refine State.addSat_kept ?_
    | with_reducible refine State.convRows_kept ?_
    | with_reducible refine State.raiseAt_kept ?_
    | with_reducible refine State.corrections_kept ?_
    | with_reducible refine State.countPasses_kept ?_
    | with_reducible refine State.setFld_kept ?_
    | with_reducible refine State.markOutputs_kept ?_
    | with_reducible refine State.writeSome_kept ?_
    | with_reducible refine State.complete_kept ?_
    | with_reducible refine Kept.next_intro ?_
    | split
    | dsimp only
    | intro _

theorem execConvGrouped_kept {kq : List Instr} {kn : Nat} {n : ℕ} {env : Env} {s : State} (h2 : Kept kq kn s) :
    ∀ v, execConvGrouped n env s = .next v → Kept kq kn v := by
  unfold execConvGrouped
  repeat' first
    | with_reducible assumption
    | with_reducible refine State.work_kept ?_ ?_
    | with_reducible refine State.conv_kept ?_
    | with_reducible refine Kept.next_intro ?_
    | intro _

theorem execConv_kept {kq : List Instr} {kn : Nat} {n : ℕ} {env : Env} {s : State} (h2 : Kept kq kn s) :
    ∀ v, execConv n env s = .next v → Kept kq kn v := by
  unfold execConv
  repeat' first
    | with_reducible assumption
    | with_reducible refine State.work_kept ?_ ?_
    | with_reducible refine State.conv_kept ?_
    | with_reducible refine Kept.next_intro ?_
    | intro _

/-! ### Machine/Feeder.lean -/

theorem State.wakeFeed_kept {kq : List Instr} {kn : Nat} {s : State} (h0 : Kept kq kn s) :
    Kept kq kn (State.wakeFeed s) := by
  exact h0.mapCmds fun c => by split <;> rfl

theorem State.feedEnd_kept {kq : List Instr} {kn : Nat} {s : State} {n : ℕ} {o : Outcome} (h0 : Kept kq kn s) :
    Kept kq kn (State.feedEnd s n o) := by
  unfold State.feedEnd
  repeat' first | with_reducible assumption | with_reducible refine State.wakeFeed_kept ?_ | with_reducible refine State.finish_kept ?_

theorem State.updStream_kept {kq : List Instr} {kn : Nat} {s : State} {n : ℕ} {f : FeedStream → FeedStream} (h0 : Kept kq kn s) :
    Kept kq kn (State.updStream s n f) := by
  unfold State.updStream
  repeat' first | with_reducible assumption | dsimp only | fail_if_no_progress refine Kept.upd ?_ rfl rfl rfl rfl rfl rfl rfl

theorem State.logSkip_kept {kq : List Instr} {kn : Nat} {s : State} {x : FeedStream} {e : ℕ × ℕ × ℕ} (h0 : Kept kq kn s) :
    Kept kq kn (State.logSkip s x e).1 := by
  unfold State.logSkip
  repeat' first | with_reducible assumption | with_reducible refine State.addSat_kept ?_ | with_reducible refine Kept.ite_fst ?_ ?_

theorem State.showStream_kept {kq : List Instr} {kn : Nat} {s : State} {x : FeedStream} (h0 : Kept kq kn s) :
    Kept kq kn (State.showStream s x) := by
  unfold State.showStream
  repeat' first | with_reducible assumption | with_reducible refine State.setReg_kept ?_ | with_reducible refine State.setFld_kept ?_

theorem State.putStream_kept {kq : List Instr} {kn : Nat} {s : State} {x : FeedStream} (h0 : Kept kq kn s) :
    Kept kq kn (State.putStream s x) := by
  unfold State.putStream
  repeat' first | with_reducible assumption | with_reducible refine State.showStream_kept ?_ | with_reducible refine State.updStream_kept ?_

theorem State.emit_kept {kq : List Instr} {kn : Nat} {s : State} {c : Cmd} {x : FeedStream} {p : Pack} {pos : ℕ} {off : ℕ} {atEnd : Bool} (h0 : Kept kq kn s) :
    Kept kq kn (State.emit s c x p pos off atEnd) := by
  unfold State.emit
  repeat' first
    | with_reducible assumption
    | with_reducible refine State.writeData_kept ?_
    | with_reducible refine State.markOutputs_kept ?_
    | with_reducible refine State.logSkip_kept ?_
    | with_reducible refine State.putStream_kept ?_
    | with_reducible refine State.addSat_kept ?_
    | with_reducible refine State.feedEnd_kept ?_
    | with_reducible refine Kept.ite ?_ ?_
    | with_reducible refine Kept.foldl_fst ?_ ?_
    | split
    | dsimp only
    | intro _

theorem State.feedAdvance_kept {kq : List Instr} {kn : Nat} {s : State} {c : Cmd} (h0 : Kept kq kn s) :
    Kept kq kn (State.feedAdvance s c) := by
  unfold State.feedAdvance
  repeat' first
    | with_reducible assumption
    | with_reducible refine State.feedEnd_kept ?_
    | with_reducible refine State.updStream_kept ?_
    | with_reducible refine State.emit_kept ?_
    | with_reducible refine Kept.ite ?_ ?_
    | split

theorem State.feedResume_kept {kq : List Instr} {kn : Nat} {s : State} {stream : ℕ} (h0 : Kept kq kn s) :
    Kept kq kn (State.feedResume s stream) := by
  unfold State.feedResume
  repeat' first | with_reducible assumption | with_reducible refine State.feedAdvance_kept ?_ | split

theorem State.checkWorkers_kept {kq : List Instr} {kn : Nat} {s : State} (h0 : Kept kq kn s) :
    Kept kq kn (State.checkWorkers s) := by
  unfold State.checkWorkers
  repeat' first
    | with_reducible assumption
    | with_reducible refine State.feedResume_kept ?_
    | with_reducible refine Kept.ite ?_ ?_
    | with_reducible refine Kept.foldl ?_ ?_
    | intro _

theorem execWorkerBypass_kept {kq : List Instr} {kn : Nat} {grove : ℕ} {a1 : ℕ} {s : State} (h2 : Kept kq kn s) :
    ∀ v, execWorkerBypass grove a1 s = .next v → Kept kq kn v := by
  unfold execWorkerBypass
  repeat' first
    | with_reducible assumption
    | with_reducible refine State.whenUp_kept ?_ ?_
    | with_reducible refine State.checkWorkers_kept ?_
    | with_reducible refine State.setReg_kept ?_
    | with_reducible refine Kept.next_intro ?_
    | intro _

theorem State.feedBytes_kept {kq : List Instr} {kn : Nat} {s : State} {env : Env} {a : ℕ} {n : ℕ} {given : List Byte} (h0 : Kept kq kn s) :
    Kept kq kn (State.feedBytes s env a n given).1 := by
  unfold State.feedBytes
  repeat' first
    | with_reducible assumption
    | with_reducible refine State.stopEffect_kept ?_
    | with_reducible refine State.fabricErr_kept ?_
    | with_reducible refine Kept.ite_fst ?_ ?_
    | split

theorem execWorkerFault_kept {kq : List Instr} {kn : Nat} {grove : ℕ} {worker : ℕ} {s : State} (h2 : Kept kq kn s) :
    ∀ v, execWorkerFault grove worker s = .next v → Kept kq kn v := by
  unfold execWorkerFault
  repeat' first
    | with_reducible assumption
    | with_reducible refine State.checkWorkers_kept ?_
    | with_reducible refine State.addSat_kept ?_
    | with_reducible refine State.setFld_kept ?_
    | with_reducible refine Kept.next_intro ?_

theorem execDeadline_kept {kq : List Instr} {kn : Nat} {stream : ℕ} {s : State} (h1 : Kept kq kn s) :
    ∀ v, execDeadline stream s = .next v → Kept kq kn v := by
  unfold execDeadline
  repeat' first
    | with_reducible assumption
    | with_reducible refine State.feedResume_kept ?_
    | with_reducible refine State.updStream_kept ?_
    | with_reducible refine Kept.ite ?_ ?_
    | with_reducible refine Kept.next_intro ?_
    | split

theorem execDecodeDone_kept {kq : List Instr} {kn : Nat} {stream : ℕ} {pos : ℕ} {entry : List Byte} {bytes : List Byte} {env : Env} {s : State} (h5 : Kept kq kn s) :
    ∀ v, execDecodeDone stream pos entry bytes env s = .next v → Kept kq kn v := by
  unfold execDecodeDone
  repeat' first
    | with_reducible assumption
    | with_reducible refine State.feedBytes_kept ?_
    | with_reducible refine State.corrections_kept ?_
    | with_reducible refine State.feedResume_kept ?_
    | with_reducible refine State.updStream_kept ?_
    | with_reducible refine Kept.ite ?_ ?_
    | with_reducible refine Kept.next_intro ?_
    | split
    | dsimp only

theorem State.writeEntries_kept {kq : List Instr} {kn : Nat} {s : State} {stream : ℕ} {a2 : ℕ} (h0 : Kept kq kn s) :
    Kept kq kn (State.writeEntries s stream a2) := by
  unfold State.writeEntries
  repeat' first
    | with_reducible assumption
    | with_reducible refine State.setFld_kept ?_
    | with_reducible refine State.showStream_kept ?_
    | with_reducible refine Kept.ite ?_ ?_
    | split
    | dsimp only

theorem execFeedClose_kept {kq : List Instr} {kn : Nat} {n : ℕ} {s : State} (h1 : Kept kq kn s) :
    ∀ v, execFeedClose n s = .next v → Kept kq kn v := by
  unfold execFeedClose
  repeat' first
    | with_reducible assumption
    | with_reducible refine State.work_kept ?_ ?_
    | with_reducible refine State.park_kept ?_
    | with_reducible refine State.finish_kept ?_
    | with_reducible refine State.givePages_kept ?_
    | with_reducible refine State.setReg_kept ?_
    | with_reducible refine State.setFld_kept ?_
    | with_reducible refine State.feedEnd_kept ?_
    | with_reducible refine Kept.next_intro ?_
    | split
    | dsimp only
    | intro _
    | fail_if_no_progress refine Kept.upd ?_ rfl rfl rfl rfl rfl rfl rfl

theorem execFeedEpoch_kept {kq : List Instr} {kn : Nat} {n : ℕ} {s : State} (h1 : Kept kq kn s) :
    ∀ v, execFeedEpoch n s = .next v → Kept kq kn v := by
  unfold execFeedEpoch
  repeat' first
    | with_reducible assumption
    | with_reducible refine State.work_kept ?_ ?_
    | with_reducible refine State.park_kept ?_
    | with_reducible refine State.finish_kept ?_
    | with_reducible refine State.feedEnd_kept ?_
    | with_reducible refine State.putStream_kept ?_
    | with_reducible refine Kept.next_intro ?_
    | split
    | dsimp only
    | intro _

theorem execFeedOpen_kept {kq : List Instr} {kn : Nat} {n : ℕ} {s : State} (h1 : Kept kq kn s) :
    ∀ v, execFeedOpen n s = .next v → Kept kq kn v := by
  unfold execFeedOpen
  repeat' first
    | with_reducible assumption
    | with_reducible refine State.work_kept ?_ ?_
    | with_reducible refine State.finish_kept ?_
    | with_reducible refine State.takePages_kept ?_
    | with_reducible refine State.showStream_kept ?_
    | with_reducible refine State.setReg_kept ?_
    | with_reducible refine Kept.next_intro ?_
    | split
    | dsimp only
    | intro _
    | fail_if_no_progress refine Kept.upd ?_ rfl rfl rfl rfl rfl rfl rfl

theorem execFeedSkipLog_kept {kq : List Instr} {kn : Nat} {n : ℕ} {s : State} (h1 : Kept kq kn s) :
    ∀ v, execFeedSkipLog n s = .next v → Kept kq kn v := by
  unfold execFeedSkipLog
  repeat' first
    | with_reducible assumption
    | with_reducible refine State.work_kept ?_ ?_
    | with_reducible refine State.finish_kept ?_
    | with_reducible refine State.deliver_kept ?_
    | with_reducible refine State.putStream_kept ?_
    | with_reducible refine Kept.next_intro ?_
    | split
    | dsimp only
    | intro _

theorem execFeedRows_kept {kq : List Instr} {kn : Nat} {n : ℕ} {bad : List ℕ} {s : State} (h2 : Kept kq kn s) :
    ∀ v, execFeedRows n bad s = .next v → Kept kq kn v := by
  unfold execFeedRows
  repeat' first
    | with_reducible assumption
    | with_reducible refine State.work_kept ?_ ?_
    | with_reducible refine State.park_kept ?_
    | with_reducible refine State.feedEnd_kept ?_
    | with_reducible refine State.addSat_kept ?_
    | with_reducible refine State.feedAdvance_kept ?_
    | with_reducible refine Kept.next_intro ?_
    | split
    | dsimp only
    | intro _

/-! ### Machine/Writes.lean -/

theorem State.ackIrq_kept {kq : List Instr} {kn : Nat} {s : State} {a1 : ℕ} (h0 : Kept kq kn s) :
    Kept kq kn (State.ackIrq s a1) := by
  unfold State.ackIrq
  repeat' first
    | with_reducible assumption
    | with_reducible refine State.setReg_kept ?_
    | with_reducible refine State.irqSend_kept ?_
    | with_reducible refine Kept.foldl ?_ ?_
    | split
    | dsimp only
    | intro _
    | fail_if_no_progress refine Kept.upd ?_ rfl rfl rfl rfl rfl rfl rfl

theorem execGclIrqAck_kept {kq : List Instr} {kn : Nat} {a0 : ℕ} {s : State} (h1 : Kept kq kn s) :
    ∀ v, execGclIrqAck a0 s = .next v → Kept kq kn v := by
  unfold execGclIrqAck
  repeat' first
    | with_reducible assumption
    | with_reducible refine State.whenUp_kept ?_ ?_
    | with_reducible refine State.ackIrq_kept ?_
    | with_reducible refine Kept.next_intro ?_
    | intro _

theorem State.writeReg_kept {kq : List Instr} {kn : Nat} {s : State} {off : ℕ} {first : ℕ} {count : ℕ} {a4 : ℕ} (h0 : Kept kq kn s) :
    Kept kq kn (State.writeReg s off first count a4) := by
  unfold State.writeReg
  repeat' first
    | with_reducible assumption
    | with_reducible refine State.writeRingCfg_kept ?_
    | with_reducible refine State.writeReplyCfg_kept ?_
    | with_reducible refine State.doorbell_kept ?_
    | with_reducible refine State.replyHead_kept ?_
    | with_reducible refine State.clearArrayFlags_kept ?_
    | with_reducible refine State.mapOut_kept ?_
    | with_reducible refine State.collWake_kept ?_
    | with_reducible refine State.abortStep_kept ?_
    | with_reducible refine State.checkWorkers_kept ?_
    | with_reducible refine State.writeSpan_kept ?_
    | with_reducible refine State.writeEntries_kept ?_
    | with_reducible refine State.ackIrq_kept ?_
    | with_reducible refine State.gclErrSet_kept ?_
    | with_reducible refine State.writeResetCtrl_kept ?_
    | with_reducible refine State.writeAclkCap_kept ?_
    | with_reducible refine State.releaseImage_kept ?_
    | with_reducible refine State.launchWaiting_kept ?_
    | with_reducible refine Kept.ite ?_ ?_

theorem State.regWrite_kept {kq : List Instr} {kn : Nat} {s : State} {o : ℕ} {n : ℕ} {a3 : ℕ} (h0 : Kept kq kn s) :
    Kept kq kn (State.regWrite s o n a3) := by
  unfold State.regWrite
  repeat' first
    | with_reducible assumption
    | with_reducible refine State.writeReg_kept ?_
    | with_reducible refine Kept.foldl ?_ ?_
    | intro _

theorem execReadClear_kept {kq : List Instr} {kn : Nat} {o : ℕ} {n : ℕ} {s : State} (h2 : Kept kq kn s) :
    ∀ v, execReadClear o n s = .next v → Kept kq kn v := by
  unfold execReadClear
  repeat' first
    | with_reducible assumption
    | with_reducible refine State.whenUp_kept ?_ ?_
    | with_reducible refine State.readReg_kept ?_
    | with_reducible refine Kept.next_intro ?_
    | split
    | intro _

theorem execRegisterWrite_kept {kq : List Instr} {kn : Nat} {o : ℕ} {n : ℕ} {a2 : ℕ} {s : State} (h3 : Kept kq kn s) :
    ∀ v, execRegisterWrite o n a2 s = .next v → Kept kq kn v := by
  unfold execRegisterWrite
  repeat' first
    | with_reducible assumption
    | with_reducible refine State.regWrite_kept ?_
    | with_reducible refine Kept.ite ?_ ?_
    | with_reducible refine Kept.next_intro ?_

theorem State.regAtDispatch_kept {kq : List Instr} {kn : Nat} {s : State} {c : Cmd} (h0 : Kept kq kn s) :
    Kept kq kn (State.regAtDispatch s c) := by
  unfold State.regAtDispatch
  repeat' first
    | with_reducible assumption
    | with_reducible refine State.updCmd_kept ?_ ?_
    | with_reducible refine State.readReg_kept ?_
    | with_reducible refine State.regWrite_kept ?_
    | with_reducible refine Kept.ite ?_ ?_
    | rfl
    | dsimp only
    | intro _

theorem execDispatch_kept {kq : List Instr} {kn : Nat} {s : State} (h0 : Kept kq kn s) :
    ∀ v, execDispatch s = .next v → Kept kq kn v := by
  unfold execDispatch
  repeat' first
    | with_reducible assumption
    | with_reducible refine State.regAtDispatch_kept ?_
    | with_reducible refine State.dispatchCmd_kept ?_
    | with_reducible refine Kept.next_intro ?_
    | split

/-! ### Machine/Console.lean -/

theorem State.replyOpen_kept {kq : List Instr} {kn : Nat} {s : State} (h0 : Kept kq kn s) :
    Kept kq kn (State.replyOpen s) := by
  unfold State.replyOpen
  repeat' first | with_reducible assumption | with_reducible refine State.free_kept ?_ | with_reducible refine State.reply_kept ?_

theorem State.monitorRecovery_kept {kq : List Instr} {kn : Nat} {s : State} {f : State → State} (h0 : Kept kq kn s) (h1 : ∀ u0, Kept kq kn u0 → Kept kq kn (f u0)) :
    Kept kq kn (State.monitorRecovery s f) := by
  unfold State.monitorRecovery
  repeat' first
    | with_reducible assumption
    | with_reducible refine State.reply_kept ?_
    | with_reducible refine State.replyOpen_kept ?_
    | with_reducible refine Kept.ite ?_ ?_
    | with_reducible refine h1 _ ?_
    | split

theorem execColophonActivate_kept {kq : List Instr} {kn : Nat} {kind : ℕ} {flashFail : Bool} {s : State} (h2 : Kept kq kn s) :
    ∀ v, execColophonActivate kind flashFail s = .next v → Kept kq kn v := by
  unfold execColophonActivate
  repeat' first
    | with_reducible assumption
    | with_reducible refine State.monitorRecovery_kept ?_ ?_
    | with_reducible refine State.reply_kept ?_
    | with_reducible refine State.activate_kept ?_
    | with_reducible refine State.flashErase_kept ?_
    | with_reducible refine Kept.next_intro ?_
    | split
    | intro _
    | refine Kept.of_ok_fst ‹_ = Except.ok (_, _)› ?_

theorem State.monitorCmd_kept {kq : List Instr} {kn : Nat} {s : State} {always : Bool} {f : State → State} (h0 : Kept kq kn s) (h2 : ∀ u0, Kept kq kn u0 → Kept kq kn (f u0)) :
    Kept kq kn (State.monitorCmd s always f) := by
  unfold State.monitorCmd
  repeat' first
    | with_reducible assumption
    | with_reducible refine State.replyOpen_kept ?_
    | with_reducible refine State.reply_kept ?_
    | with_reducible refine Kept.ite ?_ ?_
    | with_reducible refine h2 _ ?_
    | split

theorem execColophonUnlock_kept {kq : List Instr} {kn : Nat} {token : List Byte} {s : State} (h1 : Kept kq kn s) :
    ∀ v, execColophonUnlock token s = .next v → Kept kq kn v := by
  unfold execColophonUnlock
  repeat' first
    | with_reducible assumption
    | with_reducible refine State.monitorCmd_kept ?_ ?_
    | with_reducible refine State.reply_kept ?_
    | with_reducible refine State.unlock_kept ?_
    | with_reducible refine Kept.next_intro ?_
    | split
    | intro _
    | refine Kept.of_ok ‹_ = Except.ok _› ?_

theorem State.tapInstr_kept {kq : List Instr} {kn : Nat} {s : State} {ir : ℕ} (h0 : Kept kq kn s) :
    Kept kq kn (State.tapInstr s ir) := by
  unfold State.tapInstr
  repeat' first
    | with_reducible assumption
    | with_reducible refine State.whenPowered_kept ?_ ?_
    | dsimp only
    | intro _
    | fail_if_no_progress refine Kept.upd ?_ rfl rfl rfl rfl rfl rfl rfl

theorem execBypass_kept {kq : List Instr} {kn : Nat} {s : State} (h0 : Kept kq kn s) :
    ∀ v, execBypass s = .next v → Kept kq kn v := by
  unfold execBypass
  repeat' first | with_reducible assumption | with_reducible refine State.tapInstr_kept ?_ | with_reducible refine Kept.next_intro ?_

theorem execColophonPr_kept {kq : List Instr} {kn : Nat} {o : ℕ} {n : ℕ} {s : State} (h2 : Kept kq kn s) :
    ∀ v, execColophonPr o n s = .next v → Kept kq kn v := by
  unfold execColophonPr
  repeat' first
    | with_reducible assumption
    | with_reducible refine State.monitorCmd_kept ?_ ?_
    | with_reducible refine State.reply_kept ?_
    | with_reducible refine State.replyOpen_kept ?_
    | with_reducible refine Kept.next_intro ?_
    | split
    | intro _

theorem execSamplePreload_kept {kq : List Instr} {kn : Nat} {pins : ℕ} {cells : ℕ} {s : State} (h2 : Kept kq kn s) :
    ∀ v, execSamplePreload pins cells s = .next v → Kept kq kn v := by
  unfold execSamplePreload
  repeat' first
    | with_reducible assumption
    | with_reducible refine State.whenPowered_kept ?_ ?_
    | with_reducible refine Kept.next_intro ?_
    | dsimp only
    | intro _
    | fail_if_no_progress refine Kept.upd ?_ rfl rfl rfl rfl rfl rfl rfl

theorem State.smbReply_kept {kq : List Instr} {kn : Nat} {s : State} {status : ℕ} {a2 : ℕ} (h0 : Kept kq kn s) :
    Kept kq kn (State.smbReply s status a2) := by
  unfold State.smbReply
  repeat' first | with_reducible assumption | dsimp only | fail_if_no_progress refine Kept.upd ?_ rfl rfl rfl rfl rfl rfl rfl

theorem execSmbusProcessCall_kept {kq : List Instr} {kn : Nat} {off : ℕ} {s : State} (h1 : Kept kq kn s) :
    ∀ v, execSmbusProcessCall off s = .next v → Kept kq kn v := by
  unfold execSmbusProcessCall
  repeat' first
    | with_reducible assumption
    | with_reducible refine State.whenPowered_kept ?_ ?_
    | with_reducible refine State.free_kept ?_
    | with_reducible refine State.smbReply_kept ?_
    | with_reducible refine State.readReg_kept ?_
    | with_reducible refine Kept.next_intro ?_
    | split
    | dsimp only
    | intro _

theorem execTapReset_kept {kq : List Instr} {kn : Nat} {s : State} (h0 : Kept kq kn s) :
    ∀ v, execTapReset s = .next v → Kept kq kn v := by
  unfold execTapReset
  repeat' first | with_reducible assumption | with_reducible refine State.tapInstr_kept ?_ | with_reducible refine Kept.next_intro ?_

theorem execColophonProof_kept {kq : List Instr} {kn : Nat} {s : State} (h0 : Kept kq kn s) :
    ∀ v, execColophonProof s = .next v → Kept kq kn v := by
  unfold execColophonProof
  repeat' first
    | with_reducible assumption
    | with_reducible refine State.monitorCmd_kept ?_ ?_
    | with_reducible refine Kept.next_intro ?_
    | dsimp only
    | intro _
    | fail_if_no_progress refine Kept.upd ?_ rfl rfl rfl rfl rfl rfl rfl

theorem State.monitorAny_kept {kq : List Instr} {kn : Nat} {s : State} {f : State → State} (h0 : Kept kq kn s) (h1 : ∀ u0, Kept kq kn u0 → Kept kq kn (f u0)) :
    Kept kq kn (State.monitorAny s f) := by
  unfold State.monitorAny
  repeat' first | with_reducible assumption | with_reducible refine Kept.ite ?_ ?_ | with_reducible refine h1 _ ?_

theorem execColophonId_kept {kq : List Instr} {kn : Nat} {s : State} (h0 : Kept kq kn s) :
    ∀ v, execColophonId s = .next v → Kept kq kn v := by
  unfold execColophonId
  repeat' first
    | with_reducible assumption
    | with_reducible refine State.monitorAny_kept ?_ ?_
    | with_reducible refine State.reply_kept ?_
    | with_reducible refine Kept.next_intro ?_
    | split
    | intro _

theorem execColophonReset_kept {kq : List Instr} {kn : Nat} {s : State} (h0 : Kept kq kn s) :
    ∀ v, execColophonReset s = .next v → Kept kq kn v := by
  unfold execColophonReset
  repeat' first
    | with_reducible assumption
    | with_reducible refine State.monitorAny_kept ?_ ?_
    | with_reducible refine State.reply_kept ?_
    | with_reducible refine State.beginReset_kept ?_
    | with_reducible refine Kept.next_intro ?_
    | intro _

theorem execColophonMr_kept {kq : List Instr} {kn : Nat} {a : ℕ} {n : ℕ} {s : State} (h2 : Kept kq kn s) :
    ∀ v, execColophonMr a n s = .next v → Kept kq kn v := by
  unfold execColophonMr
  repeat' first
    | with_reducible assumption
    | with_reducible refine State.monitorCmd_kept ?_ ?_
    | with_reducible refine State.reply_kept ?_
    | with_reducible refine State.loadBytes_kept ?_
    | with_reducible refine State.replyOpen_kept ?_
    | with_reducible refine Kept.next_intro ?_
    | split
    | intro _
    | refine Kept.of_fst ‹_ = (_, _)› ?_

theorem execColophonLoad_kept {kq : List Instr} {kn : Nat} {kind : ℕ} {o : ℕ} {d : List Byte} {flashFail : Bool} {s : State} (h4 : Kept kq kn s) :
    ∀ v, execColophonLoad kind o d flashFail s = .next v → Kept kq kn v := by
  unfold execColophonLoad
  repeat' first
    | with_reducible assumption
    | with_reducible refine State.monitorRecovery_kept ?_ ?_
    | with_reducible refine State.reply_kept ?_
    | with_reducible refine State.flashErase_kept ?_
    | with_reducible refine State.free_kept ?_
    | with_reducible refine State.flashPut_kept ?_
    | with_reducible refine Kept.next_intro ?_
    | split
    | dsimp only
    | intro _

theorem execColophonStatus_kept {kq : List Instr} {kn : Nat} {s : State} (h0 : Kept kq kn s) :
    ∀ v, execColophonStatus s = .next v → Kept kq kn v := by
  unfold execColophonStatus
  repeat' first
    | with_reducible assumption
    | with_reducible refine State.monitorAny_kept ?_ ?_
    | with_reducible refine State.reply_kept ?_
    | with_reducible refine Kept.next_intro ?_
    | intro _

theorem execColophonOverflow_kept {kq : List Instr} {kn : Nat} {s : State} (h0 : Kept kq kn s) :
    ∀ v, execColophonOverflow s = .next v → Kept kq kn v := by
  unfold execColophonOverflow
  repeat' first
    | with_reducible assumption
    | with_reducible refine State.monitorAny_kept ?_ ?_
    | with_reducible refine State.reply_kept ?_
    | with_reducible refine Kept.next_intro ?_
    | intro _

theorem execColophonRd_kept {kq : List Instr} {kn : Nat} {off : ℕ} {s : State} (h1 : Kept kq kn s) :
    ∀ v, execColophonRd off s = .next v → Kept kq kn v := by
  unfold execColophonRd
  repeat' first
    | with_reducible assumption
    | with_reducible refine State.monitorCmd_kept ?_ ?_
    | with_reducible refine State.reply_kept ?_
    | with_reducible refine State.readReg_kept ?_
    | with_reducible refine Kept.next_intro ?_
    | split
    | dsimp only
    | intro _

theorem execIdcode_kept {kq : List Instr} {kn : Nat} {s : State} (h0 : Kept kq kn s) :
    ∀ v, execIdcode s = .next v → Kept kq kn v := by
  unfold execIdcode
  repeat' first | with_reducible assumption | with_reducible refine State.tapInstr_kept ?_ | with_reducible refine Kept.next_intro ?_

theorem execSmbusBlockWrite_kept {kq : List Instr} {kn : Nat} {off : ℕ} {a1 : Word64} {s : State} (h2 : Kept kq kn s) :
    ∀ v, execSmbusBlockWrite off a1 s = .next v → Kept kq kn v := by
  unfold execSmbusBlockWrite
  repeat' first
    | with_reducible assumption
    | with_reducible refine State.whenPowered_kept ?_ ?_
    | with_reducible refine State.regWrite_kept ?_
    | with_reducible refine Kept.next_intro ?_
    | split
    | intro _

theorem execColophonNonce_kept {kq : List Instr} {kn : Nat} {s : State} (h0 : Kept kq kn s) :
    ∀ v, execColophonNonce s = .next v → Kept kq kn v := by
  unfold execColophonNonce
  repeat' first
    | with_reducible assumption
    | with_reducible refine State.monitorCmd_kept ?_ ?_
    | with_reducible refine State.reply_kept ?_
    | with_reducible refine Kept.next_intro ?_
    | intro _

theorem execExtest_kept {kq : List Instr} {kn : Nat} {s : State} (h0 : Kept kq kn s) :
    ∀ v, execExtest s = .next v → Kept kq kn v := by
  unfold execExtest
  repeat' first | with_reducible assumption | with_reducible refine State.tapInstr_kept ?_ | with_reducible refine Kept.next_intro ?_

theorem execColophonWr_kept {kq : List Instr} {kn : Nat} {off : ℕ} {a1 : ℕ} {s : State} (h2 : Kept kq kn s) :
    ∀ v, execColophonWr off a1 s = .next v → Kept kq kn v := by
  unfold execColophonWr
  repeat' first
    | with_reducible assumption
    | with_reducible refine State.monitorCmd_kept ?_ ?_
    | with_reducible refine State.reply_kept ?_
    | with_reducible refine State.regWrite_kept ?_
    | with_reducible refine Kept.next_intro ?_
    | split
    | intro _

end Sys2Proof.Machine
end

