-- ==== Sys2Proof/Laws/KeptLinks.lean ====
section
/-! SUPPORT. The operations of the host link, the fabric, the Imposer, the links, RoCE, the sweep and the tests keep a state as `Kept` says. -/

set_option Elab.async false

namespace Sys2Proof.Machine

/-! ### Machine/Port.lean -/

theorem State.windowWake_kept {kq : List Instr} {kn : Nat} {s : State} {a : ℕ} (h0 : Kept kq kn s) :
    Kept kq kn (State.windowWake s a) := by
  unfold State.windowWake
  repeat' first | with_reducible assumption | with_reducible refine State.wakeCopse_kept ?_ | with_reducible refine Kept.ite ?_ ?_

theorem State.rocePost_kept {kq : List Instr} {kn : Nat} {s : State} {m : RoceMsg} (h0 : Kept kq kn s) :
    Kept kq kn (State.rocePost s m) := by
  unfold State.rocePost
  repeat' first | with_reducible assumption | with_reducible refine State.roceEmit_kept ?_ | split

theorem State.unlessHeld_kept {kq : List Instr} {kn : Nat} {s : State} {f : State → State} (h0 : Kept kq kn s) (h1 : ∀ u0, Kept kq kn u0 → Kept kq kn (f u0)) :
    Kept kq kn (State.unlessHeld s f) := by
  unfold State.unlessHeld
  repeat' first | with_reducible assumption | with_reducible refine Kept.ite ?_ ?_ | with_reducible refine h1 _ ?_

theorem State.serveStore_kept {kq : List Instr} {kn : Nat} {s : State} {a : ℕ} {d : List Byte} (h0 : Kept kq kn s) :
    Kept kq kn (State.serveStore s a d).1 := by
  unfold State.serveStore
  repeat' first
    | with_reducible assumption
    | with_reducible refine State.regWrite_kept ?_
    | with_reducible refine State.tallySet_kept ?_
    | with_reducible refine State.saveBytes_kept ?_
    | with_reducible refine State.windowWake_kept ?_
    | with_reducible refine Kept.ite_fst ?_ ?_
    | split

theorem State.ifpError_kept {kq : List Instr} {kn : Nat} {s : State} {node : ℕ} {num : ℕ} {a : ℕ} {fault : ℕ} (h0 : Kept kq kn s) :
    Kept kq kn (State.ifpError s node num a fault) := by
  unfold State.ifpError
  repeat' first | with_reducible assumption | with_reducible refine State.ifpSend_kept ?_

theorem State.serveLoad_kept {kq : List Instr} {kn : Nat} {s : State} {a : ℕ} {n : ℕ} (h0 : Kept kq kn s) :
    Kept kq kn (State.serveLoad s a n).1 := by
  unfold State.serveLoad
  repeat' first
    | with_reducible assumption
    | with_reducible refine State.readReg_kept ?_
    | with_reducible refine State.loadBytes_kept ?_
    | with_reducible refine State.windowWake_kept ?_
    | with_reducible refine Kept.ite_fst ?_ ?_
    | split

theorem State.readResponse_kept {kq : List Instr} {kn : Nat} {s : State} {node : ℕ} {cls : ℕ} {num : ℕ} {a : ℕ} {d : List Byte} (h0 : Kept kq kn s) :
    Kept kq kn (State.readResponse s node cls num a d) := by
  unfold State.readResponse
  repeat' first | with_reducible assumption | with_reducible refine State.ifpFrames_kept ?_

theorem State.frameVisible_kept {kq : List Instr} {kn : Nat} {s : State} {node : ℕ} {cls : ℕ} {seq : ℕ} (h0 : Kept kq kn s) :
    Kept kq kn (State.frameVisible s node cls seq) := by
  unfold State.frameVisible
  repeat' first | with_reducible assumption | with_reducible refine State.setConnRx_kept ?_ | split

theorem State.fabricStore_kept {kq : List Instr} {kn : Nat} {s : State} {node : ℕ} {cls : ℕ} {num : ℕ} {a : ℕ} {d : List Byte} (h0 : Kept kq kn s) :
    Kept kq kn (State.fabricStore s node cls num a d) := by
  unfold State.fabricStore
  repeat' first
    | with_reducible assumption
    | with_reducible refine State.stall_kept ?_
    | with_reducible refine State.snoopFor_kept ?_
    | with_reducible refine State.serveStore_kept ?_
    | with_reducible refine State.frameVisible_kept ?_
    | with_reducible refine State.unlessHeld_kept ?_ ?_
    | with_reducible refine State.ifpError_kept ?_
    | with_reducible refine Kept.ite ?_ ?_
    | split
    | dsimp only
    | intro _

theorem State.roceStore_kept {kq : List Instr} {kn : Nat} {s : State} {i : ℕ} {num : ℕ} {a : ℕ} {d : List Byte} (h0 : Kept kq kn s) :
    Kept kq kn (State.roceStore s i num a d) := by
  unfold State.roceStore
  repeat' first
    | with_reducible assumption
    | with_reducible refine State.stall_kept ?_
    | with_reducible refine State.snoopFor_kept ?_
    | with_reducible refine State.serveStore_kept ?_
    | with_reducible refine State.rocePost_kept ?_
    | with_reducible refine Kept.ite ?_ ?_
    | split
    | refine Kept.of_fst ‹_ = (_, _)› ?_

theorem State.fabricLoad_kept {kq : List Instr} {kn : Nat} {s : State} {node : ℕ} {cls : ℕ} {num : ℕ} {a : ℕ} {n : ℕ} (h0 : Kept kq kn s) :
    Kept kq kn (State.fabricLoad s node cls num a n) := by
  unfold State.fabricLoad
  repeat' first
    | with_reducible assumption
    | with_reducible refine State.stall_kept ?_
    | with_reducible refine State.snoopFor_kept ?_
    | with_reducible refine State.serveLoad_kept ?_
    | with_reducible refine State.unlessHeld_kept ?_ ?_
    | with_reducible refine State.readResponse_kept ?_
    | with_reducible refine State.ifpError_kept ?_
    | with_reducible refine Kept.ite ?_ ?_
    | split
    | intro _
    | refine Kept.of_fst ‹_ = (_, _)› ?_

theorem State.gclFault_kept {kq : List Instr} {kn : Nat} {s : State} {tag : ℕ} {fault : ℕ} {node : ℕ} {a : ℕ} (h0 : Kept kq kn s) :
    Kept kq kn (State.gclFault s tag fault node a) := by
  unfold State.gclFault
  repeat' first | with_reducible assumption | with_reducible refine State.gclSend_kept ?_ | with_reducible refine State.fabricErr_kept ?_

theorem State.roceLoad_kept {kq : List Instr} {kn : Nat} {s : State} {i : ℕ} {psn : ℕ} {a : ℕ} {n : ℕ} (h0 : Kept kq kn s) :
    Kept kq kn (State.roceLoad s i psn a n) := by
  unfold State.roceLoad
  repeat' first
    | with_reducible assumption
    | with_reducible refine State.stall_kept ?_
    | with_reducible refine State.snoopFor_kept ?_
    | with_reducible refine State.serveLoad_kept ?_
    | with_reducible refine State.rocePost_kept ?_
    | with_reducible refine Kept.ite ?_ ?_
    | with_reducible refine Kept.foldl ?_ ?_
    | split
    | intro _
    | refine Kept.of_fst ‹_ = (_, _)› ?_

/-! ### Machine/Fabric.lean -/

theorem State.deferredSignals_kept {kq : List Instr} {kn : Nat} {s : State} {status : ℕ} {pkt : List Byte} (h0 : Kept kq kn s) :
    Kept kq kn (State.deferredSignals s status pkt) := by
  unfold State.deferredSignals
  repeat' first | with_reducible assumption | with_reducible refine State.applySignals_kept ?_ | with_reducible refine Kept.ite ?_ ?_

theorem State.reportEnds_kept {kq : List Instr} {kn : Nat} {s : State} {k : ℕ} {status : ℕ} (h0 : Kept kq kn s) :
    Kept kq kn (State.reportEnds s k status) := by
  unfold State.reportEnds
  repeat' first
    | with_reducible assumption
    | with_reducible refine State.setFld_kept ?_
    | with_reducible refine State.deferredSignals_kept ?_
    | with_reducible refine Kept.ite ?_ ?_
    | with_reducible refine Kept.foldl ?_ ?_
    | dsimp only
    | intro _
    | fail_if_no_progress refine Kept.upd ?_ rfl rfl rfl rfl rfl rfl rfl

theorem State.purposeAcked_kept {kq : List Instr} {kn : Nat} {s : State} {p : IfpPurpose} (h0 : Kept kq kn s) :
    Kept kq kn (State.purposeAcked s p) := by
  unfold State.purposeAcked
  repeat' first
    | with_reducible assumption
    | with_reducible refine State.finish_kept ?_
    | with_reducible refine State.gclSend_kept ?_
    | with_reducible refine State.reportEnds_kept ?_
    | with_reducible refine Kept.ite ?_ ?_
    | split

theorem State.framesAcked_kept {kq : List Instr} {kn : Nat} {s : State} {node : ℕ} {cls : ℕ} {ack : ℕ} (h0 : Kept kq kn s) :
    Kept kq kn (State.framesAcked s node cls ack) := by
  unfold State.framesAcked
  repeat' first
    | with_reducible assumption
    | with_reducible refine State.setConnTx_kept ?_
    | with_reducible refine State.purposeAcked_kept ?_
    | with_reducible refine Kept.ite ?_ ?_
    | with_reducible refine Kept.foldl ?_ ?_
    | intro _

theorem execAckTimer_kept {kq : List Instr} {kn : Nat} {node : ℕ} {cls : ℕ} {s : State} (h2 : Kept kq kn s) :
    ∀ v, execAckTimer node cls s = .next v → Kept kq kn v := by
  unfold execAckTimer
  repeat' first
    | with_reducible assumption
    | with_reducible refine State.whenUp_kept ?_ ?_
    | with_reducible refine State.ifpBare_kept ?_
    | with_reducible refine Kept.next_intro ?_
    | split
    | intro _

theorem State.fabricEnd_kept {kq : List Instr} {kn : Nat} {s : State} {n : ℕ} {o : Cmd → Outcome} (h0 : Kept kq kn s) :
    Kept kq kn (State.fabricEnd s n o) := by
  unfold State.fabricEnd
  repeat' first
    | with_reducible assumption
    | with_reducible refine State.finish_kept ?_
    | with_reducible refine Kept.ite ?_ ?_
    | split
    | dsimp only
    | fail_if_no_progress refine Kept.upd ?_ rfl rfl rfl rfl rfl rfl rfl

theorem State.watchesGone_kept {kq : List Instr} {kn : Nat} {s : State} {node : ℕ} (h0 : Kept kq kn s) :
    Kept kq kn (State.watchesGone s node) := by
  unfold State.watchesGone
  repeat' first
    | with_reducible assumption
    | with_reducible refine State.detach_kept ?_
    | with_reducible refine State.finish_kept ?_
    | with_reducible refine Kept.foldl ?_ ?_
    | intro _

theorem State.epochSeen_kept {kq : List Instr} {kn : Nat} {s : State} {f : IfpFrame} (h0 : Kept kq kn s) :
    Kept kq kn (State.epochSeen s f) := by
  unfold State.epochSeen
  repeat' first
    | with_reducible assumption
    | with_reducible refine State.watchesGone_kept ?_
    | with_reducible refine State.setConnRx_kept ?_
    | with_reducible refine Kept.ite ?_ ?_

theorem State.rateCut_kept {kq : List Instr} {kn : Nat} {s : State} {node : ℕ} {cls : ℕ} (h0 : Kept kq kn s) :
    Kept kq kn (State.rateCut s node cls) := by
  unfold State.rateCut
  repeat' first | with_reducible assumption | with_reducible refine State.setConnTx_kept ?_ | with_reducible refine Kept.ite ?_ ?_

theorem State.purposeFault_kept {kq : List Instr} {kn : Nat} {s : State} {p : IfpPurpose} {fault : ℕ} (h0 : Kept kq kn s) :
    Kept kq kn (State.purposeFault s p fault) := by
  unfold State.purposeFault
  repeat' first
    | with_reducible assumption
    | with_reducible refine State.collFail_kept ?_
    | with_reducible refine State.fabricEnd_kept ?_
    | with_reducible refine State.gclSend_kept ?_
    | with_reducible refine State.reportEnds_kept ?_
    | with_reducible refine Kept.ite ?_ ?_
    | split

theorem State.gradLost_kept {kq : List Instr} {kn : Nat} {s : State} {node : ℕ} {cls : ℕ} (h0 : Kept kq kn s) :
    Kept kq kn (State.gradLost s node cls) := by
  unfold State.gradLost
  repeat' first
    | with_reducible assumption
    | with_reducible refine State.finish_kept ?_
    | with_reducible refine Kept.ite ?_ ?_
    | with_reducible refine Kept.foldl ?_ ?_
    | intro _

theorem State.connLost_kept {kq : List Instr} {kn : Nat} {s : State} {node : ℕ} {cls : ℕ} (h0 : Kept kq kn s) :
    Kept kq kn (State.connLost s node cls) := by
  unfold State.connLost
  repeat' first
    | with_reducible assumption
    | with_reducible refine State.addSat_kept ?_
    | with_reducible refine State.setFld_kept ?_
    | with_reducible refine State.setConnTx_kept ?_
    | with_reducible refine State.fabricErr_kept ?_
    | with_reducible refine State.purposeFault_kept ?_
    | with_reducible refine State.watchesGone_kept ?_
    | with_reducible refine State.gradLost_kept ?_
    | with_reducible refine State.collLost_kept ?_
    | with_reducible refine Kept.ite ?_ ?_
    | with_reducible refine Kept.foldl ?_ ?_
    | split
    | dsimp only
    | intro _
    | fail_if_no_progress refine Kept.upd ?_ rfl rfl rfl rfl rfl rfl rfl

theorem State.resendOne_kept {kq : List Instr} {kn : Nat} {s : State} {node : ℕ} {cls : ℕ} {seq : ℕ} (h0 : Kept kq kn s) :
    Kept kq kn (State.resendOne s node cls seq) := by
  unfold State.resendOne
  repeat' first
    | with_reducible assumption
    | with_reducible refine State.launch_kept ?_
    | with_reducible refine State.addSat_kept ?_
    | with_reducible refine State.setConnTx_kept ?_
    | split
    | dsimp only

theorem State.resend_kept {kq : List Instr} {kn : Nat} {s : State} {node : ℕ} {cls : ℕ} {p : Unacked → Bool} (h0 : Kept kq kn s) :
    Kept kq kn (State.resend s node cls p) := by
  unfold State.resend
  repeat' first
    | with_reducible assumption
    | with_reducible refine State.connLost_kept ?_
    | with_reducible refine State.resendOne_kept ?_
    | with_reducible refine Kept.ite ?_ ?_
    | with_reducible refine Kept.foldl ?_ ?_
    | intro _

theorem State.readArrives_kept {kq : List Instr} {kn : Nat} {s : State} {f : IfpFrame} (h0 : Kept kq kn s) :
    Kept kq kn (State.readArrives s f) := by
  unfold State.readArrives
  repeat' first
    | with_reducible assumption
    | with_reducible refine State.updCmd_kept ?_ ?_
    | with_reducible refine State.gclSend_kept ?_
    | with_reducible refine State.park_kept ?_
    | with_reducible refine State.prefetchData_kept ?_
    | with_reducible refine State.finish_kept ?_
    | with_reducible refine State.memoryData_kept ?_
    | with_reducible refine State.securityData_kept ?_
    | with_reducible refine Kept.ite ?_ ?_
    | rfl
    | split
    | dsimp only
    | intro _
    | fail_if_no_progress refine Kept.upd ?_ rfl rfl rfl rfl rfl rfl rfl

theorem State.remoteAdd_kept {kq : List Instr} {kn : Nat} {s : State} {f : IfpFrame} (h0 : Kept kq kn s) :
    Kept kq kn (State.remoteAdd s f) := by
  unfold State.remoteAdd
  repeat' first
    | with_reducible assumption
    | with_reducible refine State.tallyAdd_kept ?_
    | with_reducible refine State.ifpError_kept ?_
    | split

theorem State.remoteWatch_kept {kq : List Instr} {kn : Nat} {s : State} {f : IfpFrame} (h0 : Kept kq kn s) :
    Kept kq kn (State.remoteWatch s f) := by
  unfold State.remoteWatch
  repeat' first
    | with_reducible assumption
    | with_reducible refine State.ifpError_kept ?_
    | with_reducible refine State.tallyWait_kept ?_
    | with_reducible refine Kept.ite ?_ ?_
    | split

theorem State.watchMet_kept {kq : List Instr} {kn : Nat} {s : State} {f : IfpFrame} (h0 : Kept kq kn s) :
    Kept kq kn (State.watchMet s f) := by
  unfold State.watchMet
  repeat' first
    | with_reducible assumption
    | with_reducible refine State.updCmd_kept ?_ ?_
    | with_reducible refine State.finish_kept ?_
    | with_reducible refine State.free_kept ?_
    | with_reducible refine Kept.ite ?_ ?_
    | rfl
    | split
    | dsimp only
    | intro _

theorem State.watchDropped_kept {kq : List Instr} {kn : Nat} {s : State} {f : IfpFrame} (h0 : Kept kq kn s) :
    Kept kq kn (State.watchDropped s f) := by
  unfold State.watchDropped
  repeat' first | with_reducible assumption | with_reducible refine State.detach_kept ?_

theorem State.schedStore_kept {kq : List Instr} {kn : Nat} {s : State} {f : IfpFrame} (h0 : Kept kq kn s) :
    Kept kq kn (State.schedStore s f) := by
  unfold State.schedStore
  repeat' first | with_reducible assumption | with_reducible refine State.writeData_kept ?_ | split

theorem State.scheduled_kept {kq : List Instr} {kn : Nat} {s : State} {f : IfpFrame} (h0 : Kept kq kn s) :
    Kept kq kn (State.scheduled s f) := by
  unfold State.scheduled
  repeat' first
    | with_reducible assumption
    | with_reducible refine State.addSat_kept ?_
    | with_reducible refine State.setConnRx_kept ?_
    | with_reducible refine State.schedStore_kept ?_
    | with_reducible refine Kept.ite ?_ ?_
    | split
    | dsimp only
    | fail_if_no_progress refine Kept.upd ?_ rfl rfl rfl rfl rfl rfl rfl

theorem State.errorArrives_kept {kq : List Instr} {kn : Nat} {s : State} {f : IfpFrame} (h0 : Kept kq kn s) :
    Kept kq kn (State.errorArrives s f) := by
  unfold State.errorArrives
  repeat' first
    | with_reducible assumption
    | with_reducible refine State.fabricErr_kept ?_
    | with_reducible refine State.purposeFault_kept ?_
    | split
    | dsimp only
    | fail_if_no_progress refine Kept.upd ?_ rfl rfl rfl rfl rfl rfl rfl

theorem State.frameApply_kept {kq : List Instr} {kn : Nat} {s : State} {f : IfpFrame} (h0 : Kept kq kn s) :
    Kept kq kn (State.frameApply s f) := by
  unfold State.frameApply
  repeat' first
    | with_reducible assumption
    | with_reducible refine State.setConnRx_kept ?_
    | with_reducible refine State.fabricStore_kept ?_
    | with_reducible refine State.fabricLoad_kept ?_
    | with_reducible refine State.readArrives_kept ?_
    | with_reducible refine State.remoteAdd_kept ?_
    | with_reducible refine State.remoteWatch_kept ?_
    | with_reducible refine State.watchMet_kept ?_
    | with_reducible refine State.watchDropped_kept ?_
    | with_reducible refine State.scheduled_kept ?_
    | with_reducible refine State.errorArrives_kept ?_
    | split

theorem State.frameTurn_kept {kq : List Instr} {kn : Nat} {s : State} {f : IfpFrame} (h0 : Kept kq kn s) :
    Kept kq kn (State.frameTurn s f) := by
  unfold State.frameTurn
  repeat' first
    | with_reducible assumption
    | with_reducible refine State.stall_kept ?_
    | with_reducible refine State.setConnRx_kept ?_
    | with_reducible refine State.frameApply_kept ?_
    | with_reducible refine Kept.ite ?_ ?_
    | split

theorem State.heldApply_kept {kq : List Instr} {kn : Nat} {node : ℕ} {cls : ℕ} {a2 : ℕ} {a3 : State} (h3 : Kept kq kn a3) :
    Kept kq kn (State.heldApply node cls a2 a3) := by
  fun_induction State.heldApply node cls a2 a3
  all_goals
    repeat' first
      | with_reducible assumption
      | with_reducible refine State.setConnRx_kept ?_
      | with_reducible refine State.frameTurn_kept ?_
      | with_reducible apply_assumption

theorem State.owesAck_kept {kq : List Instr} {kn : Nat} {s : State} {node : ℕ} {cls : ℕ} (h0 : Kept kq kn s) :
    Kept kq kn (State.owesAck s node cls) := by
  unfold State.owesAck
  repeat' first
    | with_reducible assumption
    | with_reducible refine State.setConnRx_kept ?_
    | with_reducible refine State.ifpBare_kept ?_
    | with_reducible refine Kept.ite ?_ ?_
    | split

theorem State.frameNumbered_kept {kq : List Instr} {kn : Nat} {s : State} {f : IfpFrame} (h0 : Kept kq kn s) :
    Kept kq kn (State.frameNumbered s f) := by
  unfold State.frameNumbered
  repeat' first
    | with_reducible assumption
    | with_reducible refine State.setConnRx_kept ?_
    | with_reducible refine State.heldApply_kept ?_
    | with_reducible refine State.frameTurn_kept ?_
    | with_reducible refine State.unlessHeld_kept ?_ ?_
    | with_reducible refine State.owesAck_kept ?_
    | with_reducible refine State.ifpBare_kept ?_
    | with_reducible refine Kept.ite ?_ ?_
    | intro _

theorem State.ceSeen_kept {kq : List Instr} {kn : Nat} {s : State} {node : ℕ} {cls : ℕ} (h0 : Kept kq kn s) :
    Kept kq kn (State.ceSeen s node cls) := by
  unfold State.ceSeen
  repeat' first
    | with_reducible assumption
    | with_reducible refine State.setConnRx_kept ?_
    | with_reducible refine State.ifpBare_kept ?_
    | with_reducible refine Kept.ite ?_ ?_
    | split

theorem State.frameHere_kept {kq : List Instr} {kn : Nat} {s : State} {f : IfpFrame} {ce : Bool} (h0 : Kept kq kn s) :
    Kept kq kn (State.frameHere s f ce) := by
  unfold State.frameHere
  repeat' first
    | with_reducible assumption
    | with_reducible refine State.framesAcked_kept ?_
    | with_reducible refine State.epochSeen_kept ?_
    | with_reducible refine State.rateCut_kept ?_
    | with_reducible refine State.resend_kept ?_
    | with_reducible refine State.frameNumbered_kept ?_
    | with_reducible refine State.ceSeen_kept ?_
    | with_reducible refine Kept.ite ?_ ?_
    | split

theorem State.onLink_kept {kq : List Instr} {kn : Nat} {s : State} {n : ℕ} {f : State → State} (h0 : Kept kq kn s) (h2 : ∀ u0, Kept kq kn u0 → Kept kq kn (f u0)) :
    Kept kq kn (State.onLink s n f) := by
  unfold State.onLink
  repeat' first
    | with_reducible assumption
    | with_reducible refine State.whenUp_kept ?_ ?_
    | with_reducible refine h2 _ ?_
    | split
    | intro _

theorem State.ethDrop_kept {kq : List Instr} {kn : Nat} {s : State} {n : ℕ} (h0 : Kept kq kn s) :
    Kept kq kn (State.ethDrop s n) := by
  unfold State.ethDrop
  repeat' first | with_reducible assumption | with_reducible refine State.addSat_kept ?_

theorem State.frameIn_kept {kq : List Instr} {kn : Nat} {s : State} {n : ℕ} {f : IfpFrame} {ce : Bool} (h0 : Kept kq kn s) :
    Kept kq kn (State.frameIn s n f ce) := by
  unfold State.frameIn
  repeat' first
    | with_reducible assumption
    | with_reducible refine State.countTraffic_kept ?_
    | with_reducible refine State.ethDrop_kept ?_
    | with_reducible refine State.addSat_kept ?_
    | with_reducible refine State.launch_kept ?_
    | with_reducible refine State.frameHere_kept ?_
    | with_reducible refine Kept.ite ?_ ?_

theorem State.frameRow_kept {kq : List Instr} {kn : Nat} {s : State} {typ : ℕ} {n : ℕ} {f : IfpFrame} {ce : Bool} (h0 : Kept kq kn s) :
    Kept kq kn (State.frameRow s typ n f ce) := by
  unfold State.frameRow
  repeat' first
    | with_reducible assumption
    | with_reducible refine State.onLink_kept ?_ ?_
    | with_reducible refine State.frameIn_kept ?_
    | split
    | intro _

theorem execWatch_kept {kq : List Instr} {kn : Nat} {n : ℕ} {f : IfpFrame} {ce : Bool} {s : State} (h3 : Kept kq kn s) :
    ∀ v, execWatch n f ce s = .next v → Kept kq kn v := by
  unfold execWatch
  repeat' first | with_reducible assumption | with_reducible refine State.frameRow_kept ?_ | with_reducible refine Kept.next_intro ?_

theorem execIfpAck_kept {kq : List Instr} {kn : Nat} {n : ℕ} {f : IfpFrame} {ce : Bool} {s : State} (h3 : Kept kq kn s) :
    ∀ v, execIfpAck n f ce s = .next v → Kept kq kn v := by
  unfold execIfpAck
  repeat' first | with_reducible assumption | with_reducible refine State.frameRow_kept ?_ | with_reducible refine Kept.next_intro ?_

theorem execWatchCancel_kept {kq : List Instr} {kn : Nat} {n : ℕ} {f : IfpFrame} {ce : Bool} {s : State} (h3 : Kept kq kn s) :
    ∀ v, execWatchCancel n f ce s = .next v → Kept kq kn v := by
  unfold execWatchCancel
  repeat' first | with_reducible assumption | with_reducible refine State.frameRow_kept ?_ | with_reducible refine Kept.next_intro ?_

theorem execSched_kept {kq : List Instr} {kn : Nat} {n : ℕ} {f : IfpFrame} {ce : Bool} {s : State} (h3 : Kept kq kn s) :
    ∀ v, execSched n f ce s = .next v → Kept kq kn v := by
  unfold execSched
  repeat' first | with_reducible assumption | with_reducible refine State.frameRow_kept ?_ | with_reducible refine Kept.next_intro ?_

theorem State.controlReport_kept {kq : List Instr} {kn : Nat} {s : State} {r : List ℕ} (h0 : Kept kq kn s) :
    Kept kq kn (State.controlReport s r) := by
  unfold State.controlReport
  repeat' first | with_reducible assumption | with_reducible refine State.collChecked_kept ?_ | split

theorem execControl_kept {kq : List Instr} {kn : Nat} {n : ℕ} {f : IfpFrame} {ce : Bool} {report : List ℕ} {s : State} (h4 : Kept kq kn s) :
    ∀ v, execControl n f ce report s = .next v → Kept kq kn v := by
  unfold execControl
  repeat' first
    | with_reducible assumption
    | with_reducible refine State.onLink_kept ?_ ?_
    | with_reducible refine State.frameIn_kept ?_
    | with_reducible refine State.controlReport_kept ?_
    | with_reducible refine Kept.next_intro ?_
    | split
    | dsimp only
    | intro _

theorem execRateIncrease_kept {kq : List Instr} {kn : Nat} {node : ℕ} {cls : ℕ} {s : State} (h2 : Kept kq kn s) :
    ∀ v, execRateIncrease node cls s = .next v → Kept kq kn v := by
  unfold execRateIncrease
  repeat' first
    | with_reducible assumption
    | with_reducible refine State.whenUp_kept ?_ ?_
    | with_reducible refine State.updQp_kept ?_
    | with_reducible refine State.setConnTx_kept ?_
    | with_reducible refine Kept.next_intro ?_
    | split
    | intro _

theorem execIfpNack_kept {kq : List Instr} {kn : Nat} {n : ℕ} {f : IfpFrame} {ce : Bool} {s : State} (h3 : Kept kq kn s) :
    ∀ v, execIfpNack n f ce s = .next v → Kept kq kn v := by
  unfold execIfpNack
  repeat' first | with_reducible assumption | with_reducible refine State.frameRow_kept ?_ | with_reducible refine Kept.next_intro ?_

theorem execNoRouteTimeout_kept {kq : List Instr} {kn : Nat} {node : ℕ} {cls : ℕ} {s : State} (h2 : Kept kq kn s) :
    ∀ v, execNoRouteTimeout node cls s = .next v → Kept kq kn v := by
  unfold execNoRouteTimeout
  repeat' first
    | with_reducible assumption
    | with_reducible refine State.whenUp_kept ?_ ?_
    | with_reducible refine State.connLost_kept ?_
    | with_reducible refine Kept.next_intro ?_
    | split
    | intro _

theorem execIfpTallyAdd_kept {kq : List Instr} {kn : Nat} {n : ℕ} {f : IfpFrame} {ce : Bool} {s : State} (h3 : Kept kq kn s) :
    ∀ v, execIfpTallyAdd n f ce s = .next v → Kept kq kn v := by
  unfold execIfpTallyAdd
  repeat' first | with_reducible assumption | with_reducible refine State.frameRow_kept ?_ | with_reducible refine Kept.next_intro ?_

theorem execCnp_kept {kq : List Instr} {kn : Nat} {n : ℕ} {f : IfpFrame} {ce : Bool} {s : State} (h3 : Kept kq kn s) :
    ∀ v, execCnp n f ce s = .next v → Kept kq kn v := by
  unfold execCnp
  repeat' first | with_reducible assumption | with_reducible refine State.frameRow_kept ?_ | with_reducible refine Kept.next_intro ?_

theorem execWrite_kept {kq : List Instr} {kn : Nat} {n : ℕ} {f : IfpFrame} {ce : Bool} {s : State} (h3 : Kept kq kn s) :
    ∀ v, execWrite n f ce s = .next v → Kept kq kn v := by
  unfold execWrite
  repeat' first | with_reducible assumption | with_reducible refine State.frameRow_kept ?_ | with_reducible refine Kept.next_intro ?_

theorem execRetransmissionTimeout_kept {kq : List Instr} {kn : Nat} {node : ℕ} {cls : ℕ} {seq : ℕ} {s : State} (h3 : Kept kq kn s) :
    ∀ v, execRetransmissionTimeout node cls seq s = .next v → Kept kq kn v := by
  unfold execRetransmissionTimeout
  repeat' first
    | with_reducible assumption
    | with_reducible refine State.whenUp_kept ?_ ?_
    | with_reducible refine State.resend_kept ?_
    | with_reducible refine Kept.next_intro ?_
    | intro _

theorem execIfpError_kept {kq : List Instr} {kn : Nat} {n : ℕ} {f : IfpFrame} {ce : Bool} {s : State} (h3 : Kept kq kn s) :
    ∀ v, execIfpError n f ce s = .next v → Kept kq kn v := by
  unfold execIfpError
  repeat' first | with_reducible assumption | with_reducible refine State.frameRow_kept ?_ | with_reducible refine Kept.next_intro ?_

theorem execReadResp_kept {kq : List Instr} {kn : Nat} {n : ℕ} {f : IfpFrame} {ce : Bool} {s : State} (h3 : Kept kq kn s) :
    ∀ v, execReadResp n f ce s = .next v → Kept kq kn v := by
  unfold execReadResp
  repeat' first | with_reducible assumption | with_reducible refine State.frameRow_kept ?_ | with_reducible refine Kept.next_intro ?_

theorem execWatchNotify_kept {kq : List Instr} {kn : Nat} {n : ℕ} {f : IfpFrame} {ce : Bool} {s : State} (h3 : Kept kq kn s) :
    ∀ v, execWatchNotify n f ce s = .next v → Kept kq kn v := by
  unfold execWatchNotify
  repeat' first | with_reducible assumption | with_reducible refine State.frameRow_kept ?_ | with_reducible refine Kept.next_intro ?_

theorem execReadReq_kept {kq : List Instr} {kn : Nat} {n : ℕ} {f : IfpFrame} {ce : Bool} {s : State} (h3 : Kept kq kn s) :
    ∀ v, execReadReq n f ce s = .next v → Kept kq kn v := by
  unfold execReadReq
  repeat' first | with_reducible assumption | with_reducible refine State.frameRow_kept ?_ | with_reducible refine Kept.next_intro ?_

/-! ### Machine/Lines.lean -/

theorem State.gclRead_kept {kq : List Instr} {kn : Nat} {s : State} {tag : ℕ} {a : ℕ} {n : ℕ} (h0 : Kept kq kn s) :
    Kept kq kn (State.gclRead s tag a n) := by
  unfold State.gclRead
  repeat' first
    | with_reducible assumption
    | with_reducible refine State.gclFault_kept ?_
    | with_reducible refine State.stall_kept ?_
    | with_reducible refine State.snoopFor_kept ?_
    | with_reducible refine State.serveLoad_kept ?_
    | with_reducible refine State.gclSend_kept ?_
    | with_reducible refine State.ifpRead_kept ?_
    | with_reducible refine Kept.ite ?_ ?_
    | split
    | refine Kept.of_fst ‹_ = (_, _)› ?_

theorem State.gclStore_kept {kq : List Instr} {kn : Nat} {s : State} {tag : Option ℕ} {a : ℕ} {d : List Byte} (h0 : Kept kq kn s) :
    Kept kq kn (State.gclStore s tag a d) := by
  unfold State.gclStore
  repeat' first
    | with_reducible assumption
    | with_reducible refine State.gclFault_kept ?_
    | with_reducible refine State.fabricErr_kept ?_
    | with_reducible refine State.stall_kept ?_
    | with_reducible refine State.snoopFor_kept ?_
    | with_reducible refine State.serveStore_kept ?_
    | with_reducible refine State.unlessHeld_kept ?_ ?_
    | with_reducible refine State.gclSend_kept ?_
    | with_reducible refine State.ifpWrite_kept ?_
    | with_reducible refine Kept.ite ?_ ?_
    | split
    | intro _
    | refine Kept.of_fst ‹_ = (_, _)› ?_

theorem State.lineGrant_kept {kq : List Instr} {kn : Nat} {s : State} {own : Bool} {tag : ℕ} {line : ℕ} (h0 : Kept kq kn s) :
    Kept kq kn (State.lineGrant s own tag line) := by
  unfold State.lineGrant
  repeat' first
    | with_reducible assumption
    | with_reducible refine State.stall_kept ?_
    | with_reducible refine State.gclSend_kept ?_
    | with_reducible refine State.gclErrSet_kept ?_
    | with_reducible refine State.serveLoad_kept ?_
    | with_reducible refine State.gclFault_kept ?_
    | with_reducible refine State.setDir_kept ?_
    | with_reducible refine Kept.ite ?_ ?_
    | split
    | refine Kept.of_fst ‹_ = (_, _)› ?_

theorem State.lineRequest_kept {kq : List Instr} {kn : Nat} {s : State} {own : Bool} {tag : ℕ} {a : ℕ} (h0 : Kept kq kn s) :
    Kept kq kn (State.lineRequest s own tag a) := by
  unfold State.lineRequest
  repeat' first
    | with_reducible assumption
    | with_reducible refine State.gclSend_kept ?_
    | with_reducible refine State.gclFault_kept ?_
    | with_reducible refine State.snoopFor_kept ?_
    | with_reducible refine State.lineGrant_kept ?_
    | with_reducible refine Kept.ite ?_ ?_

theorem State.lineRun_kept {kq : List Instr} {kn : Nat} {s : State} {w : LineWork} (h0 : Kept kq kn s) :
    Kept kq kn (State.lineRun s w) := by
  unfold State.lineRun
  repeat' first
    | with_reducible assumption
    | with_reducible refine State.roceLoad_kept ?_
    | with_reducible refine State.fabricLoad_kept ?_
    | with_reducible refine State.roceStore_kept ?_
    | with_reducible refine State.fabricStore_kept ?_
    | with_reducible refine State.gclRead_kept ?_
    | with_reducible refine State.gclStore_kept ?_
    | with_reducible refine State.lineRequest_kept ?_
    | with_reducible refine State.frameApply_kept ?_
    | with_reducible refine State.frameVisible_kept ?_
    | with_reducible refine State.lineWake_kept ?_
    | with_reducible refine Kept.ite ?_ ?_
    | split

theorem State.takeTurn_kept {kq : List Instr} {kn : Nat} {s : State} {w : LineWork} (h0 : Kept kq kn s) :
    Kept kq kn (State.takeTurn s w) := by
  unfold State.takeTurn
  exact Kept.ite (State.stall_kept h0) (State.lineRun_kept h0)

theorem State.restart_kept {kq : List Instr} {kn : Nat} {s : State} (h0 : Kept kq kn s) :
    Kept kq kn (State.restart s) := by
  unfold State.restart
  repeat' first
    | with_reducible assumption
    | with_reducible refine State.takeTurn_kept ?_
    | with_reducible refine Kept.foldl ?_ ?_
    | split
    | dsimp only
    | intro _
    | fail_if_no_progress refine Kept.upd ?_ rfl rfl rfl rfl rfl rfl rfl

theorem State.memoryGoesOn_kept {kq : List Instr} {kn : Nat} {s : State} (h0 : Kept kq kn s) :
    Kept kq kn (State.memoryGoesOn s) := by
  unfold State.memoryGoesOn
  repeat' first | with_reducible assumption | with_reducible refine State.restart_kept ?_ | with_reducible refine State.wakeAll_kept ?_

theorem execStackTempRead_kept {kq : List Instr} {kn : Nat} {stack : ℕ} {r : Reading} {s : State} (h2 : Kept kq kn s) :
    ∀ v, execStackTempRead stack r s = .next v → Kept kq kn v := by
  unfold execStackTempRead
  repeat' first
    | with_reducible assumption
    | with_reducible refine State.setFld_kept ?_
    | with_reducible refine State.irq_kept ?_
    | with_reducible refine State.alarmRose_kept ?_ ?_
    | with_reducible refine State.memoryGoesOn_kept ?_
    | with_reducible refine Kept.ite ?_ ?_
    | with_reducible refine Kept.next_intro ?_

theorem State.snoopDone_kept {kq : List Instr} {kn : Nat} {s : State} {x : Snoop} (h0 : Kept kq kn s) :
    Kept kq kn (State.snoopDone s x) := by
  unfold State.snoopDone
  repeat' first
    | with_reducible assumption
    | with_reducible refine State.gclTagFreed_kept ?_
    | with_reducible refine State.setDir_kept ?_
    | with_reducible refine State.restart_kept ?_
    | with_reducible refine State.lineRun_kept ?_
    | with_reducible refine Kept.foldl ?_ ?_
    | dsimp only
    | intro _
    | fail_if_no_progress refine Kept.upd ?_ rfl rfl rfl rfl rfl rfl rfl

theorem State.lineWrite_kept {kq : List Instr} {kn : Nat} {s : State} {line : ℕ} {d : List Byte} (h0 : Kept kq kn s) :
    Kept kq kn (State.lineWrite s line d).1 := by
  unfold State.lineWrite
  repeat' first | with_reducible assumption | with_reducible refine State.serveStore_kept ?_

/-! ### Machine/HostLink.lean -/

theorem State.snoopAck_kept {kq : List Instr} {kn : Nat} {s : State} {tag : ℕ} (h0 : Kept kq kn s) :
    Kept kq kn (State.snoopAck s tag) := by
  unfold State.snoopAck
  repeat' first | with_reducible assumption | with_reducible refine State.snoopDone_kept ?_ | split

theorem State.onGcl_kept {kq : List Instr} {kn : Nat} {s : State} {f : State → State} (h0 : Kept kq kn s) (h1 : ∀ u0, Kept kq kn u0 → Kept kq kn (f u0)) :
    Kept kq kn (State.onGcl s f) := by
  unfold State.onGcl
  repeat' first
    | with_reducible assumption
    | with_reducible refine State.whenUp_kept ?_ ?_
    | with_reducible refine h1 _ ?_
    | split
    | intro _

theorem State.gclWriteBack_kept {kq : List Instr} {kn : Nat} {s : State} {tag : ℕ} {a : ℕ} {d : List Byte} (h0 : Kept kq kn s) :
    Kept kq kn (State.gclWriteBack s tag a d) := by
  unfold State.gclWriteBack
  repeat' first
    | with_reducible assumption
    | with_reducible refine State.gclSend_kept ?_
    | with_reducible refine State.gclErrSet_kept ?_
    | with_reducible refine State.lineWrite_kept ?_
    | with_reducible refine State.setDir_kept ?_
    | with_reducible refine State.gclFault_kept ?_
    | with_reducible refine Kept.ite ?_ ?_
    | split
    | refine Kept.of_fst ‹_ = (_, _)› ?_

theorem execWrBack_kept {kq : List Instr} {kn : Nat} {tag : ℕ} {a : ℕ} {d : List Byte} {s : State} (h3 : Kept kq kn s) :
    ∀ v, execWrBack tag a d s = .next v → Kept kq kn v := by
  unfold execWrBack
  repeat' first
    | with_reducible assumption
    | with_reducible refine State.onGcl_kept ?_ ?_
    | with_reducible refine State.gclWriteBack_kept ?_
    | with_reducible refine Kept.next_intro ?_
    | intro _

theorem State.gclRetire_kept {kq : List Instr} {kn : Nat} {s : State} {tag : ℕ} (h0 : Kept kq kn s) :
    Kept kq kn (State.gclRetire s tag) := by
  unfold State.gclRetire
  repeat' first
    | with_reducible assumption
    | with_reducible refine State.gclTagFreed_kept ?_
    | dsimp only
    | fail_if_no_progress refine Kept.upd ?_ rfl rfl rfl rfl rfl rfl rfl

theorem State.gclData_kept {kq : List Instr} {kn : Nat} {s : State} {tag : ℕ} {d : List Byte} (h0 : Kept kq kn s) :
    Kept kq kn (State.gclData s tag d) := by
  unfold State.gclData
  repeat' first
    | with_reducible assumption
    | with_reducible refine State.gclRetire_kept ?_
    | with_reducible refine State.fetchAll_kept ?_
    | with_reducible refine State.updRing_kept ?_
    | with_reducible refine Kept.ite ?_ ?_
    | split

theorem execCmpData_kept {kq : List Instr} {kn : Nat} {tag : ℕ} {d : List Byte} {s : State} (h2 : Kept kq kn s) :
    ∀ v, execCmpData tag d s = .next v → Kept kq kn v := by
  unfold execCmpData
  repeat' first
    | with_reducible assumption
    | with_reducible refine State.onGcl_kept ?_ ?_
    | with_reducible refine State.gclData_kept ?_
    | with_reducible refine Kept.next_intro ?_
    | intro _

theorem State.gclError_kept {kq : List Instr} {kn : Nat} {s : State} {tag : ℕ} (h0 : Kept kq kn s) :
    Kept kq kn (State.gclError s tag) := by
  unfold State.gclError
  repeat' first
    | with_reducible assumption
    | with_reducible refine State.hostFault_kept ?_
    | with_reducible refine State.gclRetire_kept ?_
    | with_reducible refine State.replyPump_kept ?_
    | with_reducible refine State.freeTag_kept ?_
    | split
    | dsimp only

theorem State.gclNack_kept {kq : List Instr} {kn : Nat} {s : State} (h0 : Kept kq kn s) :
    Kept kq kn (State.gclNack s) := by
  unfold State.gclNack
  repeat' first | with_reducible assumption | dsimp only | fail_if_no_progress refine Kept.upd ?_ rfl rfl rfl rfl rfl rfl rfl

theorem State.gclAcked_kept {kq : List Instr} {kn : Nat} {s : State} {ack : ℕ} (h0 : Kept kq kn s) :
    Kept kq kn (State.gclAcked s ack) := by
  unfold State.gclAcked
  repeat' first
    | with_reducible assumption
    | with_reducible refine State.gclFlush_kept ?_
    | with_reducible refine Kept.ite ?_ ?_
    | dsimp only
    | fail_if_no_progress refine Kept.upd ?_ rfl rfl rfl rfl rfl rfl rfl

theorem State.gclReplay_kept {kq : List Instr} {kn : Nat} {s : State} {seq : ℕ} (h0 : Kept kq kn s) :
    Kept kq kn (State.gclReplay s seq) := by
  unfold State.gclReplay
  repeat' first
    | with_reducible assumption
    | with_reducible refine State.gclAcked_kept ?_
    | with_reducible refine State.addSat_kept ?_
    | with_reducible refine State.flitSend_kept ?_
    | with_reducible refine Kept.ite ?_ ?_
    | with_reducible refine Kept.foldl ?_ ?_
    | dsimp only
    | intro _
    | fail_if_no_progress refine Kept.upd ?_ rfl rfl rfl rfl rfl rfl rfl

theorem State.gclLost_kept {kq : List Instr} {kn : Nat} {s : State} (h0 : Kept kq kn s) :
    Kept kq kn (State.gclLost s) := by
  unfold State.gclLost
  refine Kept.foldl (Kept.poisoned (State.fatal_kept (State.setFld_kept h0))) fun w x hw => ?_
  split
  · exact State.snoopDone_kept hw
  · exact hw

theorem State.gclDown_kept {kq : List Instr} {kn : Nat} {s : State} {signalled : Bool} (h0 : Kept kq kn s) :
    Kept kq kn (State.gclDown s signalled) := by
  unfold State.gclDown
  repeat' first
    | with_reducible assumption
    | with_reducible refine State.beginReset_kept ?_
    | with_reducible refine State.gclLost_kept ?_
    | with_reducible refine State.setFld_kept ?_
    | with_reducible refine Kept.ite ?_ ?_

theorem State.gclNacked_kept {kq : List Instr} {kn : Nat} {s : State} {seq : ℕ} (h0 : Kept kq kn s) :
    Kept kq kn (State.gclNacked s seq) := by
  unfold State.gclNacked
  repeat' first
    | with_reducible assumption
    | with_reducible refine State.gclReplay_kept ?_
    | with_reducible refine State.gclDown_kept ?_
    | with_reducible refine Kept.ite ?_ ?_

theorem State.gclCredit_kept {kq : List Instr} {kn : Nat} {s : State} {cls : ℕ} {n : ℕ} (h0 : Kept kq kn s) :
    Kept kq kn (State.gclCredit s cls n) := by
  unfold State.gclCredit
  repeat' first
    | with_reducible assumption
    | with_reducible refine State.gclFlush_kept ?_
    | dsimp only
    | fail_if_no_progress refine Kept.upd ?_ rfl rfl rfl rfl rfl rfl rfl

theorem State.gclEvict_kept {kq : List Instr} {kn : Nat} {s : State} {tag : ℕ} {a : ℕ} (h0 : Kept kq kn s) :
    Kept kq kn (State.gclEvict s tag a) := by
  unfold State.gclEvict
  repeat' first
    | with_reducible assumption
    | with_reducible refine State.gclSend_kept ?_
    | with_reducible refine State.gclErrSet_kept ?_
    | with_reducible refine State.setDir_kept ?_
    | with_reducible refine Kept.ite ?_ ?_

theorem State.gclComplete_kept {kq : List Instr} {kn : Nat} {s : State} {tag : ℕ} (h0 : Kept kq kn s) :
    Kept kq kn (State.gclComplete s tag) := by
  unfold State.gclComplete
  repeat' first
    | with_reducible assumption
    | with_reducible refine State.fetchAll_kept ?_
    | with_reducible refine State.writeCompleted_kept ?_
    | with_reducible refine State.gclRetire_kept ?_
    | split

theorem State.snoopData_kept {kq : List Instr} {kn : Nat} {s : State} {tag : ℕ} {d : List Byte} (h0 : Kept kq kn s) :
    Kept kq kn (State.snoopData s tag d) := by
  unfold State.snoopData
  repeat' first
    | with_reducible assumption
    | with_reducible refine State.snoopDone_kept ?_
    | with_reducible refine State.lineWrite_kept ?_
    | split

theorem State.gclMessage_kept {kq : List Instr} {kn : Nat} {s : State} {m : List Byte} (h0 : Kept kq kn s) :
    Kept kq kn (State.gclMessage s m) := by
  unfold State.gclMessage
  repeat' first
    | with_reducible assumption
    | with_reducible refine State.takeTurn_kept ?_
    | with_reducible refine State.gclWriteBack_kept ?_
    | with_reducible refine State.gclEvict_kept ?_
    | with_reducible refine State.gclComplete_kept ?_
    | with_reducible refine State.snoopAck_kept ?_
    | with_reducible refine State.gclError_kept ?_
    | with_reducible refine State.gclData_kept ?_
    | with_reducible refine State.snoopData_kept ?_
    | split

theorem State.gclSlot_kept {kq : List Instr} {kn : Nat} {s : State} {b : List Byte} (h0 : Kept kq kn s) :
    Kept kq kn (State.gclSlot s b) := by
  unfold State.gclSlot
  repeat' first
    | with_reducible assumption
    | with_reducible refine State.onGcl_kept ?_ ?_
    | with_reducible refine State.gclMessage_kept ?_
    | with_reducible refine Kept.ite ?_ ?_
    | split
    | dsimp only
    | intro _
    | fail_if_no_progress refine Kept.upd ?_ rfl rfl rfl rfl rfl rfl rfl

theorem State.gclTake_kept {kq : List Instr} {kn : Nat} {s : State} {b : List Byte} (h0 : Kept kq kn s) :
    Kept kq kn (State.gclTake s b) := by
  unfold State.gclTake
  repeat' first
    | with_reducible assumption
    | with_reducible refine State.gclNacked_kept ?_
    | with_reducible refine State.gclNack_kept ?_
    | with_reducible refine State.gclCredit_kept ?_
    | with_reducible refine State.gclAcked_kept ?_
    | with_reducible refine State.onGcl_kept ?_ ?_
    | with_reducible refine State.gclSlot_kept ?_
    | with_reducible refine State.flitIdle_kept ?_
    | with_reducible refine Kept.ite ?_ ?_
    | with_reducible refine Kept.foldl ?_ ?_
    | split
    | dsimp only
    | intro _
    | fail_if_no_progress refine Kept.upd ?_ rfl rfl rfl rfl rfl rfl rfl

theorem execGclDataFlit_kept {kq : List Instr} {kn : Nat} {b : List Byte} {s : State} (h1 : Kept kq kn s) :
    ∀ v, execGclDataFlit b s = .next v → Kept kq kn v := by
  unfold execGclDataFlit
  repeat' first
    | with_reducible assumption
    | with_reducible refine State.onGcl_kept ?_ ?_
    | with_reducible refine State.addSat_kept ?_
    | with_reducible refine State.gclNack_kept ?_
    | with_reducible refine State.gclTake_kept ?_
    | with_reducible refine Kept.next_intro ?_
    | split
    | dsimp only
    | intro _

theorem execWrPosted_kept {kq : List Instr} {kn : Nat} {a : ℕ} {d : List Byte} {s : State} (h2 : Kept kq kn s) :
    ∀ v, execWrPosted a d s = .next v → Kept kq kn v := by
  unfold execWrPosted
  repeat' first
    | with_reducible assumption
    | with_reducible refine State.onGcl_kept ?_ ?_
    | with_reducible refine State.takeTurn_kept ?_
    | with_reducible refine Kept.next_intro ?_
    | intro _

theorem execGclDown_kept {kq : List Instr} {kn : Nat} {signalled : Bool} {s : State} (h1 : Kept kq kn s) :
    ∀ v, execGclDown signalled s = .next v → Kept kq kn v := by
  unfold execGclDown
  repeat' first
    | with_reducible assumption
    | with_reducible refine State.onGcl_kept ?_ ?_
    | with_reducible refine State.gclDown_kept ?_
    | with_reducible refine Kept.next_intro ?_
    | intro _

theorem execGclLossTimeout_kept {kq : List Instr} {kn : Nat} {s : State} (h0 : Kept kq kn s) :
    ∀ v, execGclLossTimeout s = .next v → Kept kq kn v := by
  unfold execGclLossTimeout
  repeat' first
    | with_reducible assumption
    | with_reducible refine State.whenUp_kept ?_ ?_
    | with_reducible refine State.gclLost_kept ?_
    | with_reducible refine Kept.next_intro ?_
    | split
    | intro _

theorem execRdShared_kept {kq : List Instr} {kn : Nat} {tag : ℕ} {a : ℕ} {s : State} (h2 : Kept kq kn s) :
    ∀ v, execRdShared tag a s = .next v → Kept kq kn v := by
  unfold execRdShared
  repeat' first
    | with_reducible assumption
    | with_reducible refine State.onGcl_kept ?_ ?_
    | with_reducible refine State.takeTurn_kept ?_
    | with_reducible refine Kept.next_intro ?_
    | intro _

theorem execGclNackFlit_kept {kq : List Instr} {kn : Nat} {seq : ℕ} {s : State} (h1 : Kept kq kn s) :
    ∀ v, execGclNackFlit seq s = .next v → Kept kq kn v := by
  unfold execGclNackFlit
  repeat' first
    | with_reducible assumption
    | with_reducible refine State.onGcl_kept ?_ ?_
    | with_reducible refine State.gclNacked_kept ?_
    | with_reducible refine Kept.next_intro ?_
    | intro _

theorem execRdNc_kept {kq : List Instr} {kn : Nat} {tag : ℕ} {a : ℕ} {n : ℕ} {s : State} (h3 : Kept kq kn s) :
    ∀ v, execRdNc tag a n s = .next v → Kept kq kn v := by
  unfold execRdNc
  repeat' first
    | with_reducible assumption
    | with_reducible refine State.onGcl_kept ?_ ?_
    | with_reducible refine State.takeTurn_kept ?_
    | with_reducible refine Kept.next_intro ?_
    | intro _

theorem execRdOwn_kept {kq : List Instr} {kn : Nat} {tag : ℕ} {a : ℕ} {s : State} (h2 : Kept kq kn s) :
    ∀ v, execRdOwn tag a s = .next v → Kept kq kn v := by
  unfold execRdOwn
  repeat' first
    | with_reducible assumption
    | with_reducible refine State.onGcl_kept ?_ ?_
    | with_reducible refine State.takeTurn_kept ?_
    | with_reducible refine Kept.next_intro ?_
    | intro _

theorem execSnpData_kept {kq : List Instr} {kn : Nat} {tag : ℕ} {d : List Byte} {s : State} (h2 : Kept kq kn s) :
    ∀ v, execSnpData tag d s = .next v → Kept kq kn v := by
  unfold execSnpData
  repeat' first
    | with_reducible assumption
    | with_reducible refine State.onGcl_kept ?_ ?_
    | with_reducible refine State.snoopData_kept ?_
    | with_reducible refine Kept.next_intro ?_
    | intro _

theorem execSnpAck_kept {kq : List Instr} {kn : Nat} {tag : ℕ} {s : State} (h1 : Kept kq kn s) :
    ∀ v, execSnpAck tag s = .next v → Kept kq kn v := by
  unfold execSnpAck
  repeat' first
    | with_reducible assumption
    | with_reducible refine State.onGcl_kept ?_ ?_
    | with_reducible refine State.snoopAck_kept ?_
    | with_reducible refine Kept.next_intro ?_
    | intro _

theorem execEvictClean_kept {kq : List Instr} {kn : Nat} {tag : ℕ} {a : ℕ} {s : State} (h2 : Kept kq kn s) :
    ∀ v, execEvictClean tag a s = .next v → Kept kq kn v := by
  unfold execEvictClean
  repeat' first
    | with_reducible assumption
    | with_reducible refine State.onGcl_kept ?_ ?_
    | with_reducible refine State.gclEvict_kept ?_
    | with_reducible refine Kept.next_intro ?_
    | intro _

theorem execErr_kept {kq : List Instr} {kn : Nat} {tag : ℕ} {_code : ℕ} {s : State} (h2 : Kept kq kn s) :
    ∀ v, execErr tag _code s = .next v → Kept kq kn v := by
  unfold execErr
  repeat' first
    | with_reducible assumption
    | with_reducible refine State.onGcl_kept ?_ ?_
    | with_reducible refine State.gclError_kept ?_
    | with_reducible refine Kept.next_intro ?_
    | intro _

theorem execCmp_kept {kq : List Instr} {kn : Nat} {tag : ℕ} {s : State} (h1 : Kept kq kn s) :
    ∀ v, execCmp tag s = .next v → Kept kq kn v := by
  unfold execCmp
  repeat' first
    | with_reducible assumption
    | with_reducible refine State.onGcl_kept ?_ ?_
    | with_reducible refine State.gclComplete_kept ?_
    | with_reducible refine Kept.next_intro ?_
    | intro _

theorem execWrNc_kept {kq : List Instr} {kn : Nat} {tag : ℕ} {a : ℕ} {d : List Byte} {s : State} (h3 : Kept kq kn s) :
    ∀ v, execWrNc tag a d s = .next v → Kept kq kn v := by
  unfold execWrNc
  repeat' first
    | with_reducible assumption
    | with_reducible refine State.onGcl_kept ?_ ?_
    | with_reducible refine State.takeTurn_kept ?_
    | with_reducible refine Kept.next_intro ?_
    | intro _

theorem execGclRetrained_kept {kq : List Instr} {kn : Nat} {t : GclTraining} {s : State} (h1 : Kept kq kn s) :
    ∀ v, execGclRetrained t s = .next v → Kept kq kn v := by
  unfold execGclRetrained
  repeat' first
    | with_reducible assumption
    | with_reducible refine State.whenUp_kept ?_ ?_
    | with_reducible refine State.gclErrSet_kept ?_
    | with_reducible refine State.gclTrained_kept ?_
    | with_reducible refine State.gclReplay_kept ?_
    | with_reducible refine State.fetchAll_kept ?_
    | with_reducible refine State.gclFlush_kept ?_
    | with_reducible refine Kept.next_intro ?_
    | split
    | dsimp only
    | intro _
    | fail_if_no_progress refine Kept.upd ?_ rfl rfl rfl rfl rfl rfl rfl

/-! ### Machine/Publish.lean -/

theorem State.setOut_kept {kq : List Instr} {kn : Nat} {s : State} {c : ℕ} {retired : Option ℕ → Option ℕ} {vacated : Option ℕ → Option ℕ} (h0 : Kept kq kn s) :
    Kept kq kn (State.setOut s c retired vacated) := by
  unfold State.setOut
  repeat' first
    | with_reducible assumption
    | split
    | dsimp only
    | fail_if_no_progress refine Kept.upd ?_ rfl rfl rfl rfl rfl rfl rfl

theorem State.movePages_kept {kq : List Instr} {kn : Nat} {a0 : List ℕ} {a1 : State} (h1 : Kept kq kn a1) :
    ∀ v, State.movePages a0 a1 = some v → Kept kq kn v := by
  induction a0 generalizing a1 with
  | nil => exact Kept.some_intro h1
  | cons p ps ih =>
    unfold State.movePages
    split
    · exact Kept.none_intro
    · exact ih (Kept.upd (State.pickPage_kept h1) rfl rfl rfl rfl rfl rfl rfl)

theorem State.evacuate_kept {kq : List Instr} {kn : Nat} {s : State} {ch : ℕ} (h0 : Kept kq kn s) :
    ∀ v, State.evacuate s ch = some v → Kept kq kn v := by
  unfold State.evacuate
  intro v hv
  rw [Option.map_eq_some_iff] at hv
  obtain ⟨w, hw, rfl⟩ := hv
  have h : Kept kq kn { s with mem := { s.mem with outChannels := s.mem.outChannels ++ [ch] } } :=
    Kept.upd h0 rfl rfl rfl rfl rfl rfl rfl
  exact State.setFld_kept (State.addRepair_kept (State.setFld_kept (State.movePages_kept h w hw)))

theorem State.applyChange_kept {kq : List Instr} {kn : Nat} {s : State} {x : ℕ × Change} (h0 : Kept kq kn s) :
    ∀ v, State.applyChange s x = some v → Kept kq kn v := by
  unfold State.applyChange
  repeat' first
    | with_reducible assumption
    | with_reducible refine State.wakeCopse_kept ?_
    | with_reducible refine State.setFld_kept ?_
    | with_reducible refine State.setOut_kept ?_
    | with_reducible refine State.evacuate_kept ?_
    | with_reducible refine State.movePages_kept ?_
    | with_reducible refine Kept.some_intro ?_
    | split
    | dsimp only
    | fail_if_no_progress refine Kept.upd ?_ rfl rfl rfl rfl rfl rfl rfl

theorem State.applyChanges_kept {kq : List Instr} {kn : Nat} {l : List (ℕ × Change)} {s : State} (h1 : Kept kq kn s) :
    ∀ v, State.applyChanges l s = some v → Kept kq kn v := by
  unfold State.applyChanges
  repeat' first
    | with_reducible assumption
    | with_reducible refine State.applyChange_kept ?_
    | with_reducible refine Kept.foldl_some ?_ ?_
    | with_reducible refine Kept.bind_some ?_
    | with_reducible refine Kept.some_intro ?_
    | intro _
    | refine Kept.of_some ‹_ = some _› ?_

theorem State.imposed_kept {kq : List Instr} {kn : Nat} {s : State} {c : Cmd} {i : Imposition} (h0 : Kept kq kn s) :
    ∀ v, State.imposed s c i = .ok v → Kept kq kn v := by
  unfold State.imposed
  repeat' first
    | with_reducible assumption
    | with_reducible refine State.account_kept ?_
    | with_reducible refine State.setReg_kept ?_
    | with_reducible refine Kept.foldl ?_ ?_
    | with_reducible refine Kept.ok_intro ?_
    | with_reducible refine Kept.error_intro
    | split
    | dsimp only
    | intro _
    | refine Kept.of_ok ‹_ = Except.ok _› ?_
    | fail_if_no_progress refine Kept.upd ?_ rfl rfl rfl rfl rfl rfl rfl

theorem State.replaced_kept {kq : List Instr} {kn : Nat} {s : State} {c : Cmd} {due : List (ℕ × Change)} (h0 : Kept kq kn s) :
    ∀ v, State.replaced s c due = .ok v → Kept kq kn v := by
  unfold State.replaced
  repeat' first
    | with_reducible assumption
    | with_reducible refine State.applyChanges_kept ?_
    | with_reducible refine State.imposed_kept ?_
    | with_reducible refine Kept.error_intro
    | split
    | dsimp only
    | refine Kept.of_some ‹_ = some _› ?_
    | fail_if_no_progress refine Kept.upd ?_ rfl rfl rfl rfl rfl rfl rfl

theorem State.supersede_kept {kq : List Instr} {kn : Nat} {s : State} {old : State} {c : Cmd} {hi : ℕ} {changed : Bool} (h0 : Kept kq kn s) (h1 : Kept kq kn old) :
    Kept kq kn (State.supersede s old c hi changed) := by
  unfold State.supersede
  repeat' first
    | with_reducible assumption
    | with_reducible refine State.raiseAll_kept ?_
    | with_reducible refine State.tallyAdd_kept ?_
    | with_reducible refine Kept.ite ?_ ?_
    | split
    | dsimp only
    | fail_if_no_progress refine Kept.upd ?_ rfl rfl rfl rfl rfl rfl rfl

theorem State.publish_kept {kq : List Instr} {kn : Nat} {s : State} {c : Cmd} {lo : ℕ} {hi : ℕ} (h0 : Kept kq kn s) :
    ∀ v, State.publish s c lo hi = .ok v → Kept kq kn v.1 := by
  unfold State.publish
  repeat' first
    | with_reducible assumption
    | with_reducible refine State.replaced_kept ?_
    | with_reducible refine State.supersede_kept ?_ ?_
    | with_reducible refine Kept.ok_intro ?_
    | with_reducible refine Kept.error_intro
    | split
    | dsimp only
    | refine Kept.of_ok ‹_ = Except.ok _› ?_
    | fail_if_no_progress refine Kept.upd ?_ rfl rfl rfl rfl rfl rfl rfl

/-! ### Machine/Imposer.lean -/

theorem State.clearIdle_kept {kq : List Instr} {kn : Nat} {s : State} (h0 : Kept kq kn s) :
    Kept kq kn (State.clearIdle s) := by
  exact h0.updRegs (Sparse.filter_wf h0.sound.regs)

theorem execImpositionDrained_kept {kq : List Instr} {kn : Nat} {s : State} (h0 : Kept kq kn s) :
    ∀ v, execImpositionDrained s = .next v → Kept kq kn v := by
  unfold execImpositionDrained
  repeat' first
    | with_reducible assumption
    | with_reducible refine State.raiseAll_kept ?_
    | with_reducible refine Kept.ite ?_ ?_
    | with_reducible refine Kept.next_intro ?_
    | split
    | dsimp only
    | fail_if_no_progress refine Kept.upd ?_ rfl rfl rfl rfl rfl rfl rfl

theorem State.setMove_kept {kq : List Instr} {kn : Nat} {s : State} {m : Move} {n : Move} (h0 : Kept kq kn s) :
    Kept kq kn (State.setMove s m n) := by
  unfold State.setMove
  repeat' first | with_reducible assumption | dsimp only | fail_if_no_progress refine Kept.upd ?_ rfl rfl rfl rfl rfl rfl rfl

theorem State.carry_kept {kq : List Instr} {kn : Nat} {s : State} {m : Move} (h0 : Kept kq kn s) :
    Kept kq kn (State.carry s m).2 := by
  have h : Kept kq kn (if bit (s.reg (Reg.copseState (m.src / 16))) (s.slotOf (m.src / 16) (m.src % 16)) = 0
      then s.free.2 else s) := Kept.ite (State.free_kept h0) h0
  unfold State.carry
  simp only [decide_eq_true_eq]
  exact h.updRegs (Sparse.filter_wf h.sound.regs)

theorem execPlacementMove_kept {kq : List Instr} {kn : Nat} {kind : MoveKind} {s : State} (h1 : Kept kq kn s) :
    ∀ v, execPlacementMove kind s = .next v → Kept kq kn v := by
  unfold execPlacementMove
  repeat' first
    | with_reducible assumption
    | with_reducible refine State.setMove_kept ?_
    | with_reducible refine State.carry_kept ?_
    | with_reducible refine State.wakeCopse_kept ?_
    | with_reducible refine Kept.ite ?_ ?_
    | with_reducible refine Kept.next_intro ?_
    | split

theorem State.request_kept {kq : List Instr} {kn : Nat} {s : State} {l : List Change} (h0 : Kept kq kn s) :
    Kept kq kn (State.request s l) := by
  unfold State.request
  repeat' first
    | with_reducible assumption
    | with_reducible refine State.tallyAdd_kept ?_
    | split
    | dsimp only
    | fail_if_no_progress refine Kept.upd ?_ rfl rfl rfl rfl rfl rfl rfl

theorem State.permuteOut_kept {kq : List Instr} {kn : Nat} {s : State} {x : ℕ × ℕ} (h0 : Kept kq kn s) :
    Kept kq kn (State.permuteOut s x) := by
  unfold State.permuteOut
  repeat' first
    | with_reducible assumption
    | with_reducible refine State.collSendVia_kept ?_
    | with_reducible refine Kept.ite ?_ ?_
    | split
    | dsimp only

theorem State.unstage_kept {kq : List Instr} {kn : Nat} {s : State} (h0 : Kept kq kn s) :
    Kept kq kn (State.unstage s) := by
  unfold State.unstage
  repeat' first
    | with_reducible assumption
    | with_reducible refine State.givePages_kept ?_
    | with_reducible refine Kept.foldl ?_ ?_
    | dsimp only
    | intro _
    | fail_if_no_progress refine Kept.upd ?_ rfl rfl rfl rfl rfl rfl rfl

theorem State.exchange_kept {kq : List Instr} {kn : Nat} {s : State} {x : ℕ × ℕ} {d : List Byte} (h0 : Kept kq kn s) :
    Kept kq kn (State.exchange s x d) := by
  unfold State.exchange
  repeat' first
    | with_reducible assumption
    | with_reducible refine State.givePages_kept ?_
    | with_reducible refine State.updTensor_kept ?_
    | with_reducible refine State.writeScales_kept ?_
    | with_reducible refine Kept.ite ?_ ?_
    | split

theorem State.reshardNow_kept {kq : List Instr} {kn : Nat} {s : State} {c : Cmd} {last : ℕ} {shards : Option (List (List Byte))} (h0 : Kept kq kn s) :
    Kept kq kn (State.reshardNow s c last shards) := by
  unfold State.reshardNow
  repeat' first
    | with_reducible assumption
    | with_reducible refine State.park_kept ?_
    | with_reducible refine State.permuteOut_kept ?_
    | with_reducible refine State.wakeAll_kept ?_
    | with_reducible refine State.finish_kept ?_
    | with_reducible refine State.unstage_kept ?_
    | with_reducible refine State.exchange_kept ?_
    | with_reducible refine Kept.ite ?_ ?_
    | with_reducible refine Kept.foldl ?_ ?_
    | split
    | dsimp only
    | intro _
    | fail_if_no_progress refine Kept.upd ?_ rfl rfl rfl rfl rfl rfl rfl

theorem State.published_kept {kq : List Instr} {kn : Nat} {s : State} {c : Cmd} {last : ℕ} {shards : Option (List (List Byte))} (h0 : Kept kq kn s) :
    Kept kq kn (State.published s c last shards) := by
  unfold State.published
  repeat' first
    | with_reducible assumption
    | with_reducible refine State.reshardNow_kept ?_
    | with_reducible refine State.park_kept ?_
    | with_reducible refine State.finish_kept ?_
    | with_reducible refine Kept.ite ?_ ?_

theorem State.publishNow_kept {kq : List Instr} {kn : Nat} {s : State} {c : Cmd} {lo : ℕ} {hi : ℕ} {shards : Option (List (List Byte))} (h0 : Kept kq kn s) :
    Kept kq kn (State.publishNow s c lo hi shards) := by
  unfold State.publishNow
  repeat' first
    | with_reducible assumption
    | with_reducible refine State.finish_kept ?_
    | with_reducible refine State.publish_kept ?_
    | with_reducible refine State.published_kept ?_
    | split
    | dsimp only
    | refine Kept.of_ok_fst ‹_ = Except.ok (_, _)› ?_
    | fail_if_no_progress refine Kept.upd ?_ rfl rfl rfl rfl rfl rfl rfl

theorem execMigrate_kept {kq : List Instr} {kn : Nat} {n : ℕ} {s : State} (h1 : Kept kq kn s) :
    ∀ v, execMigrate n s = .next v → Kept kq kn v := by
  unfold execMigrate
  repeat' first
    | with_reducible assumption
    | with_reducible refine State.runCmd_kept ?_ ?_
    | with_reducible refine State.finish_kept ?_
    | with_reducible refine State.request_kept ?_
    | with_reducible refine State.park_kept ?_
    | with_reducible refine State.publishNow_kept ?_
    | with_reducible refine Kept.next_intro ?_
    | split
    | dsimp only
    | intro _
    | fail_if_no_progress refine Kept.upd ?_ rfl rfl rfl rfl rfl rfl rfl

theorem State.reserveHalf_kept {kq : List Instr} {kn : Nat} {s : State} {h : ℕ} (h0 : Kept kq kn s) :
    ∀ v, State.reserveHalf s h = some v → Kept kq kn v := by
  unfold State.reserveHalf
  repeat' first
    | with_reducible assumption
    | with_reducible refine State.takePages_kept ?_
    | with_reducible refine Kept.some_intro ?_
    | with_reducible refine Kept.none_intro
    | split
    | dsimp only
    | fail_if_no_progress refine Kept.upd ?_ rfl rfl rfl rfl rfl rfl rfl

theorem State.giveIdle_kept {kq : List Instr} {kn : Nat} {s : State} {c : Cmd} {a : ℕ} (h0 : Kept kq kn s) :
    Kept kq kn (State.giveIdle s c a) := by
  unfold State.giveIdle
  repeat' first
    | with_reducible assumption
    | with_reducible refine State.deliver_kept ?_
    | with_reducible refine State.clearIdle_kept ?_
    | with_reducible refine Kept.ite ?_ ?_

theorem execReadIdle_kept {kq : List Instr} {kn : Nat} {n : ℕ} {s : State} (h1 : Kept kq kn s) :
    ∀ v, execReadIdle n s = .next v → Kept kq kn v := by
  unfold execReadIdle
  repeat' first
    | with_reducible assumption
    | with_reducible refine State.runCmd_kept ?_ ?_
    | with_reducible refine State.finish_kept ?_
    | with_reducible refine State.giveIdle_kept ?_
    | with_reducible refine State.rangeGate_kept ?_
    | with_reducible refine Kept.next_intro ?_
    | split
    | dsimp only
    | intro _
    | refine Kept.of_some ‹_ = some _› ?_

theorem State.loseElements_kept {kq : List Instr} {kn : Nat} {s : State} {t : Tensor} {first n : ℕ} (h0 : Kept kq kn s) :
    Kept kq kn (State.loseElements s t first n) := by
  unfold State.loseElements
  exact State.writeData_kept (State.free_kept (State.free_kept h0)) fun d hd =>
    foldCodes_wf (fun c i hc => by split; exact setCode_wf hc; exact hc) hd

theorem State.loseRows_kept {kq : List Instr} {kn : Nat} {s : State} {m : Move} (h0 : Kept kq kn s) :
    Kept kq kn (State.loseRows s m) := by
  unfold State.loseRows
  repeat' first
    | with_reducible assumption
    | with_reducible refine State.loseElements_kept ?_
    | with_reducible refine Kept.foldl ?_ ?_
    | split
    | intro _

theorem State.arrive_kept {kq : List Instr} {kn : Nat} {s : State} {m : Move} (h0 : Kept kq kn s) :
    Kept kq kn (State.arrive s m) := by
  unfold State.arrive
  refine State.loseRows_kept (Kept.foldl (Kept.dropRegs (Kept.foldl (Kept.dropBytes h0) fun u a hu =>
    State.putBytes_kept hu)) fun u a hu => ?_)
  exact State.setReg_kept hu

theorem State.channelEmpty_kept {kq : List Instr} {kn : Nat} {s : State} {m : Move} (h0 : Kept kq kn s) :
    Kept kq kn (State.channelEmpty s m) := by
  unfold State.channelEmpty
  repeat' first | with_reducible assumption | with_reducible refine State.setFld_kept ?_ | with_reducible refine Kept.ite ?_ ?_

theorem execPlacementMoveEnd_kept {kq : List Instr} {kn : Nat} {kind : MoveKind} {s : State} (h1 : Kept kq kn s) :
    ∀ v, execPlacementMoveEnd kind s = .next v → Kept kq kn v := by
  unfold execPlacementMoveEnd
  repeat' first
    | with_reducible assumption
    | with_reducible refine State.arrive_kept ?_
    | with_reducible refine State.setMove_kept ?_
    | with_reducible refine State.channelEmpty_kept ?_
    | with_reducible refine State.frameVisible_kept ?_
    | with_reducible refine State.schedStore_kept ?_
    | with_reducible refine State.memoryGoesOn_kept ?_
    | with_reducible refine Kept.ite ?_ ?_
    | with_reducible refine Kept.foldl ?_ ?_
    | with_reducible refine Kept.next_intro ?_
    | split
    | dsimp only
    | intro _
    | fail_if_no_progress refine Kept.upd ?_ rfl rfl rfl rfl rfl rfl rfl

theorem State.stageReshard_kept {kq : List Instr} {kn : Nat} {s : State} {c : Cmd} {l : List (ℕ × ℕ × ℕ)} (h0 : Kept kq kn s) :
    Kept kq kn (State.stageReshard s c l) := by
  unfold State.stageReshard
  repeat' first
    | with_reducible assumption
    | with_reducible refine State.finish_kept ?_
    | with_reducible refine State.reserveHalf_kept ?_
    | with_reducible refine Kept.foldl_some ?_ ?_
    | with_reducible refine Kept.bind_some ?_
    | with_reducible refine Kept.some_intro ?_
    | split
    | dsimp only
    | intro _
    | refine Kept.of_some ‹_ = some _› ?_
    | fail_if_no_progress refine Kept.upd ?_ rfl rfl rfl rfl rfl rfl rfl

theorem execReshard_kept {kq : List Instr} {kn : Nat} {n : ℕ} {s : State} (h1 : Kept kq kn s) :
    ∀ v, execReshard n s = .next v → Kept kq kn v := by
  unfold execReshard
  repeat' first
    | with_reducible assumption
    | with_reducible refine State.runCmd_kept ?_ ?_
    | with_reducible refine State.finish_kept ?_
    | with_reducible refine State.fetch_kept ?_ ?_
    | with_reducible refine State.stageReshard_kept ?_
    | with_reducible refine Kept.next_intro ?_
    | split
    | dsimp only
    | intro _

theorem execPendingPublication_kept {kq : List Instr} {kn : Nat} {n : ℕ} {shards : Option (List (List Byte))} {s : State} (h2 : Kept kq kn s) :
    ∀ v, execPendingPublication n shards s = .next v → Kept kq kn v := by
  unfold execPendingPublication
  repeat' first
    | with_reducible assumption
    | with_reducible refine State.resumeCmd_kept ?_ ?_
    | with_reducible refine State.publishNow_kept ?_
    | with_reducible refine State.reshardNow_kept ?_
    | with_reducible refine State.published_kept ?_
    | with_reducible refine Kept.next_intro ?_
    | split
    | intro _

theorem execImpose_kept {kq : List Instr} {kn : Nat} {n : ℕ} {shards : Option (List (List Byte))} {s : State} (h2 : Kept kq kn s) :
    ∀ v, execImpose n shards s = .next v → Kept kq kn v := by
  unfold execImpose
  repeat' first
    | with_reducible assumption
    | with_reducible refine State.runCmd_kept ?_ ?_
    | with_reducible refine State.finish_kept ?_
    | with_reducible refine State.park_kept ?_
    | with_reducible refine State.publishNow_kept ?_
    | with_reducible refine Kept.next_intro ?_
    | split
    | intro _

theorem execQueryImposition_kept {kq : List Instr} {kn : Nat} {n : ℕ} {s : State} (h1 : Kept kq kn s) :
    ∀ v, execQueryImposition n s = .next v → Kept kq kn v := by
  unfold execQueryImposition
  repeat' first
    | with_reducible assumption
    | with_reducible refine State.runCmd_kept ?_ ?_
    | with_reducible refine State.deliver_kept ?_
    | with_reducible refine State.finish_kept ?_
    | with_reducible refine Kept.next_intro ?_
    | split
    | intro _

/-! ### Machine/Links.lean -/

theorem State.onD128_kept {kq : List Instr} {kn : Nat} {s : State} {n : ℕ} {f : State → State} (h0 : Kept kq kn s) (h2 : ∀ u0, Kept kq kn u0 → Kept kq kn (f u0)) :
    Kept kq kn (State.onD128 s n f) := by
  unfold State.onD128
  repeat' first
    | with_reducible assumption
    | with_reducible refine State.onLink_kept ?_ ?_
    | with_reducible refine h2 _ ?_
    | split
    | intro _

theorem State.linkCredit_kept {kq : List Instr} {kn : Nat} {s : State} {n : ℕ} {c : ℕ} (h0 : Kept kq kn s) :
    Kept kq kn (State.linkCredit s n c) := by
  unfold State.linkCredit
  repeat' first | with_reducible assumption | with_reducible refine State.linkFlush_kept ?_ | with_reducible refine State.updLink_kept ?_

theorem State.blocksAcked_kept {kq : List Instr} {kn : Nat} {s : State} {n : ℕ} {ack : ℕ} (h0 : Kept kq kn s) :
    Kept kq kn (State.blocksAcked s n ack) := by
  unfold State.blocksAcked
  repeat' first
    | with_reducible assumption
    | with_reducible refine State.linkFlush_kept ?_
    | with_reducible refine State.updLink_kept ?_
    | with_reducible refine Kept.ite ?_ ?_

theorem State.blockHeader_kept {kq : List Instr} {kn : Nat} {s : State} {n : ℕ} {ack : ℕ} {credit : ℕ} (h0 : Kept kq kn s) :
    Kept kq kn (State.blockHeader s n ack credit) := by
  unfold State.blockHeader
  repeat' first | with_reducible assumption | with_reducible refine State.linkCredit_kept ?_ | with_reducible refine State.blocksAcked_kept ?_

theorem execD128IdleBlock_kept {kq : List Instr} {kn : Nat} {n : ℕ} {ack : ℕ} {credit : ℕ} {s : State} (h3 : Kept kq kn s) :
    ∀ v, execD128IdleBlock n ack credit s = .next v → Kept kq kn v := by
  unfold execD128IdleBlock
  repeat' first
    | with_reducible assumption
    | with_reducible refine State.onD128_kept ?_ ?_
    | with_reducible refine State.blockHeader_kept ?_
    | with_reducible refine Kept.next_intro ?_
    | split
    | intro _

theorem State.relaunch_kept {kq : List Instr} {kn : Nat} {s : State} {f : IfpFrame} (h0 : Kept kq kn s) :
    Kept kq kn (State.relaunch s f) := by
  unfold State.relaunch
  repeat' first
    | with_reducible assumption
    | with_reducible refine State.launch_kept ?_
    | with_reducible refine Kept.ite ?_ ?_
    | dsimp only
    | fail_if_no_progress refine Kept.upd ?_ rfl rfl rfl rfl rfl rfl rfl

theorem State.onE100_kept {kq : List Instr} {kn : Nat} {s : State} {n : ℕ} {f : State → State} (h0 : Kept kq kn s) (h2 : ∀ u0, Kept kq kn u0 → Kept kq kn (f u0)) :
    Kept kq kn (State.onE100 s n f) := by
  unfold State.onE100
  repeat' first
    | with_reducible assumption
    | with_reducible refine State.onLink_kept ?_ ?_
    | with_reducible refine h2 _ ?_
    | split
    | intro _

theorem State.retrainEnds_kept {kq : List Instr} {kn : Nat} {s : State} {n : ℕ} {owner : Option ℕ} {ok : Bool} (h0 : Kept kq kn s) :
    Kept kq kn (State.retrainEnds s n owner ok) := by
  unfold State.retrainEnds
  repeat' first
    | with_reducible assumption
    | with_reducible refine State.updCmd_kept ?_ ?_
    | with_reducible refine State.updLink_kept ?_
    | with_reducible refine State.finish_kept ?_
    | with_reducible refine Kept.ite ?_ ?_
    | rfl
    | split
    | dsimp only
    | intro _

theorem execPauseFrame_kept {kq : List Instr} {kn : Nat} {n : ℕ} {s : State} (h1 : Kept kq kn s) :
    ∀ v, execPauseFrame n s = .next v → Kept kq kn v := by
  unfold execPauseFrame
  repeat' first
    | with_reducible assumption
    | with_reducible refine State.onE100_kept ?_ ?_
    | with_reducible refine State.addSat_kept ?_
    | with_reducible refine Kept.next_intro ?_
    | intro _

theorem State.linkEvent_kept {kq : List Instr} {kn : Nat} {s : State} {n : ℕ} (h0 : Kept kq kn s) :
    Kept kq kn (State.linkEvent s n) := by
  unfold State.linkEvent
  repeat' first | with_reducible assumption | with_reducible refine State.tallyAdd_kept ?_ | with_reducible refine Kept.ite ?_ ?_

theorem State.linkDown_kept {kq : List Instr} {kn : Nat} {s : State} {n : ℕ} {cause : ℕ} (h0 : Kept kq kn s) :
    Kept kq kn (State.linkDown s n cause) := by
  unfold State.linkDown
  repeat' first
    | with_reducible assumption
    | with_reducible refine State.beginReset_kept ?_
    | with_reducible refine State.addSat_kept ?_
    | with_reducible refine State.setFld_kept ?_
    | with_reducible refine State.updLink_kept ?_
    | with_reducible refine State.linkEvent_kept ?_
    | with_reducible refine State.relaunch_kept ?_
    | with_reducible refine Kept.ite ?_ ?_
    | with_reducible refine Kept.foldl ?_ ?_
    | dsimp only
    | intro _
    | fail_if_no_progress refine Kept.upd ?_ rfl rfl rfl rfl rfl rfl rfl

theorem State.linkTrained_kept {kq : List Instr} {kn : Nat} {s : State} {n : ℕ} {t : Option LinkTraining} (h0 : Kept kq kn s) :
    Kept kq kn (State.linkTrained s n t) := by
  unfold State.linkTrained
  repeat' first
    | with_reducible assumption
    | with_reducible refine State.retrainEnds_kept ?_
    | with_reducible refine State.launchWaiting_kept ?_
    | with_reducible refine State.linkEvent_kept ?_
    | with_reducible refine State.trainLink_kept ?_
    | with_reducible refine State.unlessHeld_kept ?_ ?_
    | with_reducible refine State.linkDown_kept ?_
    | split
    | intro _

theorem execLossOfSignal_kept {kq : List Instr} {kn : Nat} {n : ℕ} {s : State} (h1 : Kept kq kn s) :
    ∀ v, execLossOfSignal n s = .next v → Kept kq kn v := by
  unfold execLossOfSignal
  repeat' first
    | with_reducible assumption
    | with_reducible refine State.onLink_kept ?_ ?_
    | with_reducible refine State.linkDown_kept ?_
    | with_reducible refine Kept.next_intro ?_
    | intro _

theorem State.blockNack_kept {kq : List Instr} {kn : Nat} {s : State} {n : ℕ} (h0 : Kept kq kn s) :
    Kept kq kn (State.blockNack s n) := by
  unfold State.blockNack
  repeat' first | with_reducible assumption | with_reducible refine State.blockSend_kept ?_ | with_reducible refine State.updLink_kept ?_

theorem State.blockBad_kept {kq : List Instr} {kn : Nat} {s : State} {n : ℕ} (h0 : Kept kq kn s) :
    Kept kq kn (State.blockBad s n) := by
  unfold State.blockBad
  repeat' first
    | with_reducible assumption
    | with_reducible refine State.blockNack_kept ?_
    | with_reducible refine State.updLink_kept ?_
    | with_reducible refine State.linkDown_kept ?_
    | with_reducible refine Kept.ite ?_ ?_

theorem State.blockPayload_kept {kq : List Instr} {kn : Nat} {s : State} {n : ℕ} {start : ℕ} {p : List Byte} (h0 : Kept kq kn s) :
    Kept kq kn (State.blockPayload s n start p) := by
  unfold State.blockPayload
  repeat' first
    | with_reducible assumption
    | with_reducible refine State.onD128_kept ?_ ?_
    | with_reducible refine State.frameIn_kept ?_
    | with_reducible refine State.updLink_kept ?_
    | with_reducible refine Kept.foldl ?_ ?_
    | intro _

theorem execFrameDrops_kept {kq : List Instr} {kn : Nat} {n : ℕ} {h : RxHeader} {s : State} (h2 : Kept kq kn s) :
    ∀ v, execFrameDrops n h s = .next v → Kept kq kn v := by
  unfold execFrameDrops
  repeat' first
    | with_reducible assumption
    | with_reducible refine State.onE100_kept ?_ ?_
    | with_reducible refine State.ethDrop_kept ?_
    | with_reducible refine Kept.next_intro ?_
    | split
    | intro _

theorem State.blockReplay_kept {kq : List Instr} {kn : Nat} {s : State} {n : ℕ} {seq : ℕ} (h0 : Kept kq kn s) :
    Kept kq kn (State.blockReplay s n seq) := by
  unfold State.blockReplay
  repeat' first
    | with_reducible assumption
    | with_reducible refine State.blocksAcked_kept ?_
    | with_reducible refine State.addSat_kept ?_
    | with_reducible refine State.updLink_kept ?_
    | with_reducible refine State.blockSend_kept ?_
    | with_reducible refine State.linkDown_kept ?_
    | with_reducible refine Kept.ite ?_ ?_
    | with_reducible refine Kept.foldl ?_ ?_
    | intro _

theorem execD128NackBlock_kept {kq : List Instr} {kn : Nat} {n : ℕ} {seq : ℕ} {s : State} (h2 : Kept kq kn s) :
    ∀ v, execD128NackBlock n seq s = .next v → Kept kq kn v := by
  unfold execD128NackBlock
  repeat' first
    | with_reducible assumption
    | with_reducible refine State.onD128_kept ?_ ?_
    | with_reducible refine State.blockReplay_kept ?_
    | with_reducible refine Kept.next_intro ?_
    | intro _

theorem State.blockIdle_kept {kq : List Instr} {kn : Nat} {s : State} {n : ℕ} (h0 : Kept kq kn s) :
    Kept kq kn (State.blockIdle s n) := by
  unfold State.blockIdle
  repeat' first | with_reducible assumption | with_reducible refine State.blockSend_kept ?_

theorem State.blockTake_kept {kq : List Instr} {kn : Nat} {s : State} {n : ℕ} {d : List Byte} (h0 : Kept kq kn s) :
    Kept kq kn (State.blockTake s n d) := by
  unfold State.blockTake
  repeat' first
    | with_reducible assumption
    | with_reducible refine State.blockReplay_kept ?_
    | with_reducible refine State.blockHeader_kept ?_
    | with_reducible refine State.blockNack_kept ?_
    | with_reducible refine State.addSat_kept ?_
    | with_reducible refine State.updLink_kept ?_
    | with_reducible refine State.onD128_kept ?_ ?_
    | with_reducible refine State.blockPayload_kept ?_
    | with_reducible refine State.blockIdle_kept ?_
    | with_reducible refine Kept.ite ?_ ?_
    | split
    | dsimp only
    | intro _

theorem execLinkRetrainTimer_kept {kq : List Instr} {kn : Nat} {n : ℕ} {s : State} (h1 : Kept kq kn s) :
    ∀ v, execLinkRetrainTimer n s = .next v → Kept kq kn v := by
  unfold execLinkRetrainTimer
  repeat' first
    | with_reducible assumption
    | with_reducible refine State.whenUp_kept ?_ ?_
    | with_reducible refine State.setFld_kept ?_
    | with_reducible refine Kept.next_intro ?_
    | split
    | intro _

theorem execLinkTrained_kept {kq : List Instr} {kn : Nat} {n : ℕ} {t : Option LinkTraining} {s : State} (h2 : Kept kq kn s) :
    ∀ v, execLinkTrained n t s = .next v → Kept kq kn v := by
  unfold execLinkTrained
  repeat' first
    | with_reducible assumption
    | with_reducible refine State.whenUp_kept ?_ ?_
    | with_reducible refine State.linkTrained_kept ?_
    | with_reducible refine Kept.next_intro ?_
    | split
    | intro _

theorem execPriorityFlowControl_kept {kq : List Instr} {kn : Nat} {n : ℕ} {pause : Bool} {s : State} (h2 : Kept kq kn s) :
    ∀ v, execPriorityFlowControl n pause s = .next v → Kept kq kn v := by
  unfold execPriorityFlowControl
  repeat' first
    | with_reducible assumption
    | with_reducible refine State.onE100_kept ?_ ?_
    | with_reducible refine State.linkFlush_kept ?_
    | with_reducible refine Kept.next_intro ?_
    | split
    | dsimp only
    | intro _
    | fail_if_no_progress refine Kept.upd ?_ rfl rfl rfl rfl rfl rfl rfl

theorem execD128DataBlock_kept {kq : List Instr} {kn : Nat} {n : ℕ} {b : List Byte} {s : State} (h2 : Kept kq kn s) :
    ∀ v, execD128DataBlock n b s = .next v → Kept kq kn v := by
  unfold execD128DataBlock
  repeat' first
    | with_reducible assumption
    | with_reducible refine State.onD128_kept ?_ ?_
    | with_reducible refine State.addSat_kept ?_
    | with_reducible refine State.blockBad_kept ?_
    | with_reducible refine State.blockTake_kept ?_
    | with_reducible refine Kept.next_intro ?_
    | split
    | dsimp only
    | intro _

/-! ### Machine/Roce.lean -/

theorem State.onPtp_kept {kq : List Instr} {kn : Nat} {s : State} {transport : ℕ} {domain : ℕ} {f : State → State} (h0 : Kept kq kn s) (h3 : ∀ u0, Kept kq kn u0 → Kept kq kn (f u0)) :
    Kept kq kn (State.onPtp s transport domain f) := by
  unfold State.onPtp
  repeat' first
    | with_reducible assumption
    | with_reducible refine State.whenUp_kept ?_ ?_
    | with_reducible refine State.onE100_kept ?_ ?_
    | split
    | intro _

theorem State.delayRequest_kept {kq : List Instr} {kn : Nat} {s : State} (h0 : Kept kq kn s) :
    Kept kq kn (State.delayRequest s) := by
  unfold State.delayRequest
  repeat' first | with_reducible assumption | dsimp only | fail_if_no_progress refine Kept.upd ?_ rfl rfl rfl rfl rfl rfl rfl

theorem State.ptpOffset_kept {kq : List Instr} {kn : Nat} {s : State} {o : ℤ} (h0 : Kept kq kn s) :
    Kept kq kn (State.ptpOffset s o) := by
  unfold State.ptpOffset
  repeat' first
    | with_reducible assumption
    | with_reducible refine State.setFld_kept ?_
    | split
    | dsimp only
    | fail_if_no_progress refine Kept.upd ?_ rfl rfl rfl rfl rfl rfl rfl

theorem State.ptpTimes_kept {kq : List Instr} {kn : Nat} {s : State} {origin : ℕ} {received : ℕ} {correction : ℤ} (h0 : Kept kq kn s) :
    Kept kq kn (State.ptpTimes s origin received correction) := by
  unfold State.ptpTimes
  repeat' first
    | with_reducible assumption
    | with_reducible refine State.ptpOffset_kept ?_
    | dsimp only
    | fail_if_no_progress refine Kept.upd ?_ rfl rfl rfl rfl rfl rfl rfl

theorem execPtpSync_kept {kq : List Instr} {kn : Nat} {transport : ℕ} {domain : ℕ} {seq : ℕ} {twoStep : Bool} {origin : ℕ} {correction : ℤ} {s : State} (h6 : Kept kq kn s) :
    ∀ v, execPtpSync transport domain seq twoStep origin correction s = .next v → Kept kq kn v := by
  unfold execPtpSync
  repeat' first
    | with_reducible assumption
    | with_reducible refine State.onPtp_kept ?_ ?_
    | with_reducible refine State.ptpTimes_kept ?_
    | with_reducible refine Kept.next_intro ?_
    | split
    | dsimp only
    | intro _
    | fail_if_no_progress refine Kept.upd ?_ rfl rfl rfl rfl rfl rfl rfl

theorem State.onQp_kept {kq : List Instr} {kn : Nat} {s : State} {i : ℕ} {ce : Bool} {f : QueuePair → State → State} (h0 : Kept kq kn s) (h3 : ∀ u0 u1, Kept kq kn u1 → Kept kq kn (f u0 u1)) :
    Kept kq kn (State.onQp s i ce f) := by
  unfold State.onQp
  repeat' first
    | with_reducible assumption
    | with_reducible refine State.whenUp_kept ?_ ?_
    | with_reducible refine State.onE100_kept ?_ ?_
    | with_reducible refine State.rocePost_kept ?_
    | with_reducible refine h3 _ _ ?_
    | split
    | intro _

theorem State.roceSettle_kept {kq : List Instr} {kn : Nat} {s : State} {cmds : List ℕ} (h0 : Kept kq kn s) :
    Kept kq kn (State.roceSettle s cmds) := by
  unfold State.roceSettle
  repeat' first
    | with_reducible assumption
    | with_reducible refine State.purposeAcked_kept ?_
    | with_reducible refine Kept.foldl ?_ ?_
    | split
    | intro _

theorem State.roceAcked_kept {kq : List Instr} {kn : Nat} {s : State} {q : QueuePair} {psn : ℕ} (h0 : Kept kq kn s) :
    Kept kq kn (State.roceAcked s q psn) := by
  unfold State.roceAcked
  repeat' first | with_reducible assumption | with_reducible refine State.updQp_kept ?_ | with_reducible refine State.roceSettle_kept ?_

theorem State.qpError_kept {kq : List Instr} {kn : Nat} {s : State} {i : ℕ} (h0 : Kept kq kn s) :
    Kept kq kn (State.qpError s i) := by
  unfold State.qpError
  repeat' first
    | with_reducible assumption
    | with_reducible refine State.updQp_kept ?_
    | with_reducible refine State.putBytes_kept ?_
    | with_reducible refine State.fabricEnd_kept ?_
    | with_reducible refine Kept.foldl ?_ ?_
    | split
    | intro _

theorem State.roceAgain_kept {kq : List Instr} {kn : Nat} {s : State} {i : ℕ} {psn : ℕ} (h0 : Kept kq kn s) :
    Kept kq kn (State.roceAgain s i psn) := by
  unfold State.roceAgain
  repeat' first
    | with_reducible assumption
    | with_reducible refine State.rocePost_kept ?_
    | with_reducible refine Kept.foldl ?_ ?_
    | split
    | intro _

theorem State.roceRetry_kept {kq : List Instr} {kn : Nat} {s : State} {q : QueuePair} {psn : ℕ} {rnr : Bool} (h0 : Kept kq kn s) :
    Kept kq kn (State.roceRetry s q psn rnr) := by
  unfold State.roceRetry
  repeat' first
    | with_reducible assumption
    | with_reducible refine State.qpError_kept ?_
    | with_reducible refine State.roceAgain_kept ?_
    | with_reducible refine State.updQp_kept ?_
    | with_reducible refine Kept.ite ?_ ?_

theorem State.roceRefused_kept {kq : List Instr} {kn : Nat} {s : State} {q : QueuePair} {psn : ℕ} (h0 : Kept kq kn s) :
    Kept kq kn (State.roceRefused s q psn) := by
  unfold State.roceRefused
  repeat' first
    | with_reducible assumption
    | with_reducible refine State.updQp_kept ?_
    | with_reducible refine State.fabricEnd_kept ?_
    | with_reducible refine State.fabricErr_kept ?_
    | split

theorem State.qpCut_kept {kq : List Instr} {kn : Nat} {s : State} {q : QueuePair} (h0 : Kept kq kn s) :
    Kept kq kn (State.qpCut s q) := by
  unfold State.qpCut
  repeat' first | with_reducible assumption | with_reducible refine State.updQp_kept ?_ | with_reducible refine Kept.ite ?_ ?_

theorem execRoceAcknowledge_kept {kq : List Instr} {kn : Nat} {i : ℕ} {psn : ℕ} {kind : ℕ} {s : State} (h3 : Kept kq kn s) :
    ∀ v, execRoceAcknowledge i psn kind s = .next v → Kept kq kn v := by
  unfold execRoceAcknowledge
  repeat' first
    | with_reducible assumption
    | with_reducible refine State.onQp_kept ?_ ?_
    | with_reducible refine State.roceAcked_kept ?_
    | with_reducible refine State.roceRetry_kept ?_
    | with_reducible refine State.roceRefused_kept ?_
    | with_reducible refine State.qpCut_kept ?_
    | with_reducible refine Kept.next_intro ?_
    | split
    | dsimp only
    | intro _

theorem State.nextPsn_kept {kq : List Instr} {kn : Nat} {s : State} {i : ℕ} {n : ℕ} (h0 : Kept kq kn s) :
    Kept kq kn (State.nextPsn s i n) := by
  unfold State.nextPsn
  repeat' first | with_reducible assumption | with_reducible refine State.updQp_kept ?_

theorem execQpReady_kept {kq : List Instr} {kn : Nat} {i : ℕ} {s : State} (h1 : Kept kq kn s) :
    ∀ v, execQpReady i s = .next v → Kept kq kn v := by
  unfold execQpReady
  repeat' first
    | with_reducible assumption
    | with_reducible refine State.whenUp_kept ?_ ?_
    | with_reducible refine State.serveStore_kept ?_
    | with_reducible refine Kept.next_intro ?_
    | split
    | intro _

theorem execRdmaReadResponse_kept {kq : List Instr} {kn : Nat} {i : ℕ} {last : Bool} {d : List Byte} {ce : Bool} {s : State} (h4 : Kept kq kn s) :
    ∀ v, execRdmaReadResponse i last d ce s = .next v → Kept kq kn v := by
  unfold execRdmaReadResponse
  repeat' first
    | with_reducible assumption
    | with_reducible refine State.updCmd_kept ?_ ?_
    | with_reducible refine State.onQp_kept ?_ ?_
    | with_reducible refine State.roceAcked_kept ?_
    | with_reducible refine State.updQp_kept ?_
    | with_reducible refine State.memoryData_kept ?_
    | with_reducible refine Kept.next_intro ?_
    | rfl
    | split
    | dsimp only
    | intro _

theorem State.inOrder_kept {kq : List Instr} {kn : Nat} {s : State} {q : QueuePair} {psn : ℕ} {f : State → State} (h0 : Kept kq kn s) (h3 : ∀ u0, Kept kq kn u0 → Kept kq kn (f u0)) :
    Kept kq kn (State.inOrder s q psn f) := by
  unfold State.inOrder
  repeat' first
    | with_reducible assumption
    | with_reducible refine State.updQp_kept ?_
    | with_reducible refine State.rocePost_kept ?_
    | with_reducible refine Kept.ite ?_ ?_
    | with_reducible refine h3 _ ?_

theorem execRdmaReadRequest_kept {kq : List Instr} {kn : Nat} {i : ℕ} {psn : ℕ} {vaddr : ℕ} {rkey : ℕ} {len : ℕ} {ce : Bool} {s : State} (h6 : Kept kq kn s) :
    ∀ v, execRdmaReadRequest i psn vaddr rkey len ce s = .next v → Kept kq kn v := by
  unfold execRdmaReadRequest
  repeat' first
    | with_reducible assumption
    | with_reducible refine State.onQp_kept ?_ ?_
    | with_reducible refine State.inOrder_kept ?_ ?_
    | with_reducible refine State.rocePost_kept ?_
    | with_reducible refine State.roceLoad_kept ?_
    | with_reducible refine State.nextPsn_kept ?_
    | with_reducible refine Kept.next_intro ?_
    | split
    | intro _

theorem execFollowUp_kept {kq : List Instr} {kn : Nat} {transport : ℕ} {domain : ℕ} {seq : ℕ} {origin : ℕ} {correction : ℤ} {s : State} (h5 : Kept kq kn s) :
    ∀ v, execFollowUp transport domain seq origin correction s = .next v → Kept kq kn v := by
  unfold execFollowUp
  repeat' first
    | with_reducible assumption
    | with_reducible refine State.onPtp_kept ?_ ?_
    | with_reducible refine State.ptpTimes_kept ?_
    | with_reducible refine Kept.next_intro ?_
    | split
    | intro _

theorem State.recvSend_kept {kq : List Instr} {kn : Nat} {s : State} {q : QueuePair} {psn : ℕ} {kind : ℕ} {d : List Byte} (h0 : Kept kq kn s) :
    Kept kq kn (State.recvSend s q psn kind d) := by
  unfold State.recvSend
  repeat' first
    | with_reducible assumption
    | with_reducible refine State.rocePost_kept ?_
    | with_reducible refine State.roceStore_kept ?_
    | with_reducible refine State.nextPsn_kept ?_
    | with_reducible refine State.updQp_kept ?_
    | with_reducible refine State.tallyAdd_kept ?_
    | with_reducible refine Kept.ite ?_ ?_

theorem execRoceAckTimeout_kept {kq : List Instr} {kn : Nat} {i : ℕ} {s : State} (h1 : Kept kq kn s) :
    ∀ v, execRoceAckTimeout i s = .next v → Kept kq kn v := by
  unfold execRoceAckTimeout
  repeat' first
    | with_reducible assumption
    | with_reducible refine State.whenUp_kept ?_ ?_
    | with_reducible refine State.roceRetry_kept ?_
    | with_reducible refine Kept.next_intro ?_
    | split
    | intro _

theorem execRdmaWrite_kept {kq : List Instr} {kn : Nat} {i : ℕ} {psn : ℕ} {kind : ℕ} {vaddr : ℕ} {rkey : ℕ} {len : ℕ} {d : List Byte} {ce : Bool} {s : State} (h8 : Kept kq kn s) :
    ∀ v, execRdmaWrite i psn kind vaddr rkey len d ce s = .next v → Kept kq kn v := by
  unfold execRdmaWrite
  repeat' first
    | with_reducible assumption
    | with_reducible refine State.onQp_kept ?_ ?_
    | with_reducible refine State.inOrder_kept ?_ ?_
    | with_reducible refine State.rocePost_kept ?_
    | with_reducible refine State.updQp_kept ?_
    | with_reducible refine State.roceStore_kept ?_
    | with_reducible refine State.nextPsn_kept ?_
    | with_reducible refine Kept.next_intro ?_
    | split
    | dsimp only
    | intro _

theorem execNakInvalidRequest_kept {kq : List Instr} {kn : Nat} {i : ℕ} {psn : ℕ} {s : State} (h2 : Kept kq kn s) :
    ∀ v, execNakInvalidRequest i psn s = .next v → Kept kq kn v := by
  unfold execNakInvalidRequest
  repeat' first
    | with_reducible assumption
    | with_reducible refine State.onQp_kept ?_ ?_
    | with_reducible refine State.rocePost_kept ?_
    | with_reducible refine Kept.next_intro ?_
    | intro _

theorem execPtpDelayResponse_kept {kq : List Instr} {kn : Nat} {transport : ℕ} {domain : ℕ} {seq : ℕ} {received : ℕ} {correction : ℤ} {s : State} (h5 : Kept kq kn s) :
    ∀ v, execPtpDelayResponse transport domain seq received correction s = .next v → Kept kq kn v := by
  unfold execPtpDelayResponse
  repeat' first
    | with_reducible assumption
    | with_reducible refine State.onPtp_kept ?_ ?_
    | with_reducible refine Kept.next_intro ?_
    | split
    | dsimp only
    | intro _
    | fail_if_no_progress refine Kept.upd ?_ rfl rfl rfl rfl rfl rfl rfl

theorem execSend_kept {kq : List Instr} {kn : Nat} {i : ℕ} {psn : ℕ} {kind : ℕ} {d : List Byte} {ce : Bool} {s : State} (h5 : Kept kq kn s) :
    ∀ v, execSend i psn kind d ce s = .next v → Kept kq kn v := by
  unfold execSend
  repeat' first
    | with_reducible assumption
    | with_reducible refine State.onQp_kept ?_ ?_
    | with_reducible refine State.inOrder_kept ?_ ?_
    | with_reducible refine State.recvSend_kept ?_
    | with_reducible refine Kept.next_intro ?_
    | intro _

/-! ### Machine/Sweep.lean -/

theorem State.setSweep_kept {kq : List Instr} {kn : Nat} {s : State} {c : ℕ} {p : Option SweepPhase} (h0 : Kept kq kn s) :
    Kept kq kn (State.setSweep s c p) := by
  unfold State.setSweep
  repeat' first | with_reducible assumption | dsimp only | fail_if_no_progress refine Kept.upd ?_ rfl rfl rfl rfl rfl rfl rfl

theorem State.slotFails_kept {kq : List Instr} {kn : Nat} {s : State} {p : ℕ} (h0 : Kept kq kn s) :
    Kept kq kn (State.slotFails s p) := by
  unfold State.slotFails
  repeat' first
    | with_reducible assumption
    | with_reducible refine State.setReg_kept ?_
    | with_reducible refine State.setFld_kept ?_
    | with_reducible refine State.copseShort_kept ?_
    | with_reducible refine Kept.ite ?_ ?_
    | split
    | dsimp only
    | fail_if_no_progress refine Kept.upd ?_ rfl rfl rfl rfl rfl rfl rfl

theorem execSlotTestEnd_kept {kq : List Instr} {kn : Nat} {c : ℕ} {pass : Bool} {s : State} (h2 : Kept kq kn s) :
    ∀ v, execSlotTestEnd c pass s = .next v → Kept kq kn v := by
  unfold execSlotTestEnd
  repeat' first
    | with_reducible assumption
    | with_reducible refine State.slotTested_kept ?_
    | with_reducible refine State.setSweep_kept ?_
    | with_reducible refine State.slotFails_kept ?_
    | with_reducible refine State.addSat_kept ?_
    | with_reducible refine Kept.ite ?_ ?_
    | with_reducible refine Kept.next_intro ?_
    | split

theorem execRouterFault_kept {kq : List Instr} {kn : Nat} {copse : ℕ} {s : State} (h1 : Kept kq kn s) :
    ∀ v, execRouterFault copse s = .next v → Kept kq kn v := by
  unfold execRouterFault
  repeat' first
    | with_reducible assumption
    | with_reducible refine State.whenUp_kept ?_ ?_
    | with_reducible refine State.fatal_kept ?_
    | with_reducible refine State.routerBad_kept ?_
    | with_reducible refine Kept.next_intro ?_
    | split
    | intro _

theorem State.sweepCopse_kept {kq : List Instr} {kn : Nat} {j : ℕ} {s : State} {c : ℕ} (h1 : Kept kq kn s) :
    Kept kq kn (State.sweepCopse j s c) := by
  unfold State.sweepCopse
  repeat' first
    | with_reducible assumption
    | with_reducible refine State.wakeCopse_kept ?_
    | with_reducible refine Kept.ite ?_ ?_
    | split
    | dsimp only
    | fail_if_no_progress refine Kept.upd ?_ rfl rfl rfl rfl rfl rfl rfl

theorem execSweepEvent_kept {kq : List Instr} {kn : Nat} {s : State} (h0 : Kept kq kn s) :
    ∀ v, execSweepEvent s = .next v → Kept kq kn v := by
  unfold execSweepEvent
  repeat' first
    | with_reducible assumption
    | with_reducible refine State.setFld_kept ?_
    | with_reducible refine State.addSat_kept ?_
    | with_reducible refine State.sweepCopse_kept ?_
    | with_reducible refine Kept.ite ?_ ?_
    | with_reducible refine Kept.foldl ?_ ?_
    | with_reducible refine Kept.next_intro ?_
    | intro _

theorem State.weightsLeft_kept {kq : List Instr} {kn : Nat} {s : State} {core : ℕ} (h0 : Kept kq kn s) :
    Kept kq kn (State.weightsLeft s core) := by
  unfold State.weightsLeft
  repeat' first
    | with_reducible assumption
    | with_reducible refine State.free_kept ?_
    | dsimp only
    | fail_if_no_progress refine Kept.upd ?_ rfl rfl rfl rfl rfl rfl rfl

theorem execSweepMoveEnd_kept {kq : List Instr} {kn : Nat} {c : ℕ} {s : State} (h1 : Kept kq kn s) :
    ∀ v, execSweepMoveEnd c s = .next v → Kept kq kn v := by
  unfold execSweepMoveEnd
  repeat' first
    | with_reducible assumption
    | with_reducible refine State.weightsLeft_kept ?_
    | with_reducible refine State.setSweep_kept ?_
    | with_reducible refine State.setFld_kept ?_
    | with_reducible refine Kept.ite ?_ ?_
    | with_reducible refine Kept.next_intro ?_
    | split

theorem execSweepControl_kept {kq : List Instr} {kn : Nat} {n : ℕ} {s : State} (h1 : Kept kq kn s) :
    ∀ v, execSweepControl n s = .next v → Kept kq kn v := by
  unfold execSweepControl
  repeat' first
    | with_reducible assumption
    | with_reducible refine State.runCmd_kept ?_ ?_
    | with_reducible refine State.finish_kept ?_
    | with_reducible refine State.setFld_kept ?_
    | with_reducible refine Kept.next_intro ?_
    | split
    | dsimp only
    | intro _

/-! ### Machine/SelfTest.lean -/

theorem State.retrain_kept {kq : List Instr} {kn : Nat} {s : State} {n : ℕ} (h0 : Kept kq kn s) :
    Kept kq kn (State.retrain s n) := by
  unfold State.retrain
  repeat' first
    | with_reducible assumption
    | with_reducible refine State.unlessHeld_kept ?_ ?_
    | with_reducible refine State.linkDown_kept ?_
    | with_reducible refine State.setFld_kept ?_
    | intro _

theorem execLinkRetrainOne_kept {kq : List Instr} {kn : Nat} {n : ℕ} {s : State} (h1 : Kept kq kn s) :
    ∀ v, execLinkRetrainOne n s = .next v → Kept kq kn v := by
  unfold execLinkRetrainOne
  repeat' first
    | with_reducible assumption
    | with_reducible refine State.runCmd_kept ?_ ?_
    | with_reducible refine State.finish_kept ?_
    | with_reducible refine State.unlessHeld_kept ?_ ?_
    | with_reducible refine State.retrain_kept ?_
    | with_reducible refine State.updLink_kept ?_
    | with_reducible refine State.park_kept ?_
    | with_reducible refine Kept.foldl ?_ ?_
    | with_reducible refine Kept.next_intro ?_
    | split
    | dsimp only
    | intro _

theorem State.deferTest_kept {kq : List Instr} {kn : Nat} {s : State} {kind : ℕ} {pkt : List Byte} (h0 : Kept kq kn s) :
    Kept kq kn (State.deferTest s kind pkt) := by
  unfold State.deferTest
  repeat' first
    | with_reducible assumption
    | with_reducible refine Kept.ite ?_ ?_
    | dsimp only
    | fail_if_no_progress refine Kept.upd ?_ rfl rfl rfl rfl rfl rfl rfl

theorem State.arrayTest_kept {kq : List Instr} {kn : Nat} {s : State} {r : Findings} (h0 : Kept kq kn s) :
    Kept kq kn (State.arrayTest s r) := by
  unfold State.arrayTest
  repeat' first
    | with_reducible assumption
    | with_reducible refine State.slotTested_kept ?_
    | with_reducible refine State.slotFails_kept ?_
    | with_reducible refine State.engineBad_kept ?_
    | with_reducible refine State.fatal_kept ?_
    | with_reducible refine State.routerBad_kept ?_
    | with_reducible refine Kept.ite ?_ ?_
    | with_reducible refine Kept.foldl ?_ ?_
    | split
    | intro _

theorem State.recal_kept {kq : List Instr} {kn : Nat} {s : State} {l : List ℕ} (h0 : Kept kq kn s) :
    Kept kq kn (State.recal s l) := by
  unfold State.recal
  repeat' first
    | with_reducible assumption
    | with_reducible refine State.queueChannel_kept ?_
    | with_reducible refine Kept.foldl ?_ ?_
    | intro _

theorem State.retrained_kept {kq : List Instr} {kn : Nat} {s : State} {r : Findings} {n : ℕ} (h0 : Kept kq kn s) :
    Kept kq kn (State.retrained s r n) := by
  unfold State.retrained
  repeat' first
    | with_reducible assumption
    | with_reducible refine State.unlessHeld_kept ?_ ?_
    | with_reducible refine State.retrain_kept ?_
    | with_reducible refine State.linkTrained_kept ?_
    | intro _

theorem State.testWork_kept {kq : List Instr} {kn : Nat} {s : State} {kind : ℕ} {r : Findings} (h0 : Kept kq kn s) :
    Kept kq kn (State.testWork s kind r).1 := by
  unfold State.testWork
  repeat' first
    | with_reducible assumption
    | with_reducible refine State.arrayTest_kept ?_
    | with_reducible refine State.recal_kept ?_
    | with_reducible refine State.unlessHeld_kept ?_ ?_
    | with_reducible refine State.retrained_kept ?_
    | with_reducible refine Kept.foldl ?_ ?_
    | split
    | intro _

theorem State.wholeTest_kept {kq : List Instr} {kn : Nat} {s : State} {kind : ℕ} {r : Findings} {c : Cmd} (h0 : Kept kq kn s) :
    Kept kq kn (State.wholeTest s kind r c) := by
  unfold State.wholeTest
  repeat' first
    | with_reducible assumption
    | with_reducible refine State.finish_kept ?_
    | with_reducible refine State.deferTest_kept ?_
    | with_reducible refine State.testWork_kept ?_
    | with_reducible refine State.unlessHeld_kept ?_ ?_
    | with_reducible refine State.deliver_kept ?_
    | with_reducible refine Kept.ite ?_ ?_
    | split
    | intro _

theorem execLinkRetrainAll_kept {kq : List Instr} {kn : Nat} {n : ℕ} {r : Findings} {s : State} (h2 : Kept kq kn s) :
    ∀ v, execLinkRetrainAll n r s = .next v → Kept kq kn v := by
  unfold execLinkRetrainAll
  repeat' first
    | with_reducible assumption
    | with_reducible refine State.runCmd_kept ?_ ?_
    | with_reducible refine State.wholeTest_kept ?_
    | with_reducible refine Kept.next_intro ?_
    | intro _

theorem execHbmRecalChannel_kept {kq : List Instr} {kn : Nat} {n : ℕ} {pass : Bool} {s : State} (h2 : Kept kq kn s) :
    ∀ v, execHbmRecalChannel n pass s = .next v → Kept kq kn v := by
  unfold execHbmRecalChannel
  repeat' first
    | with_reducible assumption
    | with_reducible refine State.runCmd_kept ?_ ?_
    | with_reducible refine State.finish_kept ?_
    | with_reducible refine State.queueChannel_kept ?_
    | with_reducible refine Kept.next_intro ?_
    | split
    | dsimp only
    | intro _

theorem execIdleBoundary_kept {kq : List Instr} {kn : Nat} {s : State} (h0 : Kept kq kn s) :
    ∀ v, execIdleBoundary s = .next v → Kept kq kn v := by
  unfold execIdleBoundary
  repeat' first
    | with_reducible assumption
    | with_reducible refine Kept.ite ?_ ?_
    | with_reducible refine Kept.next_intro ?_
    | dsimp only
    | fail_if_no_progress refine Kept.upd ?_ rfl rfl rfl rfl rfl rfl rfl

theorem execArraySelfTest_kept {kq : List Instr} {kn : Nat} {n : ℕ} {r : Findings} {s : State} (h2 : Kept kq kn s) :
    ∀ v, execArraySelfTest n r s = .next v → Kept kq kn v := by
  unfold execArraySelfTest
  repeat' first
    | with_reducible assumption
    | with_reducible refine State.runCmd_kept ?_ ?_
    | with_reducible refine State.rangeGate_kept ?_
    | with_reducible refine State.wholeTest_kept ?_
    | with_reducible refine Kept.none_intro
    | with_reducible refine Kept.next_intro ?_
    | split
    | intro _
    | refine Kept.of_some ‹_ = some _› ?_

theorem State.sendReport_kept {kq : List Instr} {kn : Nat} {s : State} {d : List Byte} {pkt : List Byte} (h0 : Kept kq kn s) :
    Kept kq kn (State.sendReport s d pkt) := by
  unfold State.sendReport
  repeat' first
    | with_reducible assumption
    | with_reducible refine State.reportEnds_kept ?_
    | with_reducible refine State.fabricErr_kept ?_
    | with_reducible refine State.ifpWrite_kept ?_
    | with_reducible refine State.saveBytes_kept ?_
    | with_reducible refine Kept.ite ?_ ?_
    | split
    | dsimp only
    | refine Kept.of_fst ‹_ = (_, _)› ?_
    | fail_if_no_progress refine Kept.upd ?_ rfl rfl rfl rfl rfl rfl rfl

theorem State.testEnds_kept {kq : List Instr} {kn : Nat} {s : State} {kind : ℕ} {w : TestWork} {d : List Byte} {us : ℕ} (h0 : Kept kq kn s) :
    Kept kq kn (State.testEnds s kind w d us) := by
  unfold State.testEnds
  repeat' first
    | with_reducible assumption
    | with_reducible refine State.setReg_kept ?_
    | with_reducible refine State.sendReport_kept ?_
    | with_reducible refine State.deferredSignals_kept ?_
    | with_reducible refine Kept.ite ?_ ?_
    | with_reducible refine Kept.foldl ?_ ?_
    | intro _

theorem execHbmRecalAll_kept {kq : List Instr} {kn : Nat} {n : ℕ} {r : Findings} {s : State} (h2 : Kept kq kn s) :
    ∀ v, execHbmRecalAll n r s = .next v → Kept kq kn v := by
  unfold execHbmRecalAll
  repeat' first
    | with_reducible assumption
    | with_reducible refine State.runCmd_kept ?_ ?_
    | with_reducible refine State.wholeTest_kept ?_
    | with_reducible refine Kept.next_intro ?_
    | intro _

theorem execDeferredWorkEnd_kept {kq : List Instr} {kn : Nat} {kind : ℕ} {r : Findings} {us : ℕ} {s : State} (h3 : Kept kq kn s) :
    ∀ v, execDeferredWorkEnd kind r us s = .next v → Kept kq kn v := by
  unfold execDeferredWorkEnd
  repeat' first
    | with_reducible assumption
    | with_reducible refine State.unlessHeld_kept ?_ ?_
    | with_reducible refine State.testWork_kept ?_
    | with_reducible refine State.setReg_kept ?_
    | with_reducible refine State.testEnds_kept ?_
    | with_reducible refine Kept.ite ?_ ?_
    | with_reducible refine Kept.next_intro ?_
    | split
    | dsimp only
    | intro _
    | fail_if_no_progress refine Kept.upd ?_ rfl rfl rfl rfl rfl rfl rfl

end Sys2Proof.Machine
end

