-- ==== Sys2Proof/Laws/State.lean ====
section
/-! SUPPORT. The small lemmas of State: for each update, the fields it leaves as they are; what is read after a
    write; and
what the frames of a command (`dispatched`, `runCmd`, `finish`) do. -/

set_option Elab.async false

namespace Sys2Proof.Machine

@[simp] theorem State.setReg_fields (s : State) (off : Nat) (v : Nat) :
    (s.setReg off v).pending = s.pending ∧ (s.setReg off v).freeCtr = s.freeCtr ∧ (s.setReg off v).time = s.time ∧
    (s.setReg off v).node = s.node ∧ (s.setReg off v).mem = s.mem ∧ (s.setReg off v).cmd = s.cmd ∧ (s.setReg off
    v).tally = s.tally ∧ (s.setReg off v).gcl = s.gcl ∧ (s.setReg off v).fab = s.fab ∧ (s.setReg off v).tens = s.tens
    ∧ (s.setReg off v).imp = s.imp ∧ (s.setReg off v).core = s.core ∧ (s.setReg off v).attn = s.attn ∧ (s.setReg off
    v).coll = s.coll ∧ (s.setReg off v).feed = s.feed ∧ (s.setReg off v).boot = s.boot ∧ (s.setReg off v).pwr = s.pwr
    ∧ (s.setReg off v).obs = s.obs :=
  ⟨rfl, rfl, rfl, rfl, rfl, rfl, rfl, rfl, rfl, rfl, rfl, rfl, rfl, rfl, rfl, rfl, rfl, rfl⟩

@[simp] theorem State.setFld_fields (s : State) (off : Nat) (hi : Nat) (lo : Nat) (x : Nat) :
    (s.setFld off hi lo x).pending = s.pending ∧ (s.setFld off hi lo x).freeCtr = s.freeCtr ∧ (s.setFld off hi lo
    x).time = s.time ∧ (s.setFld off hi lo x).node = s.node ∧ (s.setFld off hi lo x).mem = s.mem ∧ (s.setFld off hi
    lo x).cmd = s.cmd ∧ (s.setFld off hi lo x).tally = s.tally ∧ (s.setFld off hi lo x).gcl = s.gcl ∧ (s.setFld off
    hi lo x).fab = s.fab ∧ (s.setFld off hi lo x).tens = s.tens ∧ (s.setFld off hi lo x).imp = s.imp ∧ (s.setFld off
    hi lo x).core = s.core ∧ (s.setFld off hi lo x).attn = s.attn ∧ (s.setFld off hi lo x).coll = s.coll ∧ (s.setFld
    off hi lo x).feed = s.feed ∧ (s.setFld off hi lo x).boot = s.boot ∧ (s.setFld off hi lo x).pwr = s.pwr ∧
    (s.setFld off hi lo x).obs = s.obs :=
  ⟨rfl, rfl, rfl, rfl, rfl, rfl, rfl, rfl, rfl, rfl, rfl, rfl, rfl, rfl, rfl, rfl, rfl, rfl⟩

@[simp] theorem State.addSat_fields (s : State) (off : Nat) (hi : Nat) (lo : Nat) (n : Nat) :
    (s.addSat off hi lo n).pending = s.pending ∧ (s.addSat off hi lo n).freeCtr = s.freeCtr ∧ (s.addSat off hi lo
    n).time = s.time ∧ (s.addSat off hi lo n).node = s.node ∧ (s.addSat off hi lo n).mem = s.mem ∧ (s.addSat off hi
    lo n).cmd = s.cmd ∧ (s.addSat off hi lo n).tally = s.tally ∧ (s.addSat off hi lo n).gcl = s.gcl ∧ (s.addSat off
    hi lo n).fab = s.fab ∧ (s.addSat off hi lo n).tens = s.tens ∧ (s.addSat off hi lo n).imp = s.imp ∧ (s.addSat off
    hi lo n).core = s.core ∧ (s.addSat off hi lo n).attn = s.attn ∧ (s.addSat off hi lo n).coll = s.coll ∧ (s.addSat
    off hi lo n).feed = s.feed ∧ (s.addSat off hi lo n).boot = s.boot ∧ (s.addSat off hi lo n).pwr = s.pwr ∧
    (s.addSat off hi lo n).obs = s.obs :=
  ⟨rfl, rfl, rfl, rfl, rfl, rfl, rfl, rfl, rfl, rfl, rfl, rfl, rfl, rfl, rfl, rfl, rfl, rfl⟩

@[simp] theorem State.addWrap_fields (s : State) (off : Nat) (hi : Nat) (lo : Nat) (n : Nat) :
    (s.addWrap off hi lo n).pending = s.pending ∧ (s.addWrap off hi lo n).freeCtr = s.freeCtr ∧ (s.addWrap off hi lo
    n).time = s.time ∧ (s.addWrap off hi lo n).node = s.node ∧ (s.addWrap off hi lo n).mem = s.mem ∧ (s.addWrap off
    hi lo n).cmd = s.cmd ∧ (s.addWrap off hi lo n).tally = s.tally ∧ (s.addWrap off hi lo n).gcl = s.gcl ∧ (s.addWrap
    off hi lo n).fab = s.fab ∧ (s.addWrap off hi lo n).tens = s.tens ∧ (s.addWrap off hi lo n).imp = s.imp ∧
    (s.addWrap off hi lo n).core = s.core ∧ (s.addWrap off hi lo n).attn = s.attn ∧ (s.addWrap off hi lo n).coll =
    s.coll ∧ (s.addWrap off hi lo n).feed = s.feed ∧ (s.addWrap off hi lo n).boot = s.boot ∧ (s.addWrap off hi lo
    n).pwr = s.pwr ∧ (s.addWrap off hi lo n).obs = s.obs :=
  ⟨rfl, rfl, rfl, rfl, rfl, rfl, rfl, rfl, rfl, rfl, rfl, rfl, rfl, rfl, rfl, rfl, rfl, rfl⟩

@[simp] theorem State.elapse_fields (s : State) (d : Nat) :
    (s.elapse d).pending = s.pending ∧ (s.elapse d).freeCtr = s.freeCtr ∧ (s.elapse d).regs = s.regs ∧ (s.elapse
    d).node = s.node ∧ (s.elapse d).mem = s.mem ∧ (s.elapse d).cmd = s.cmd ∧ (s.elapse d).tally = s.tally ∧ (s.elapse
    d).gcl = s.gcl ∧ (s.elapse d).tens = s.tens ∧ (s.elapse d).imp = s.imp ∧ (s.elapse d).core = s.core ∧ (s.elapse
    d).attn = s.attn ∧ (s.elapse d).coll = s.coll ∧ (s.elapse d).feed = s.feed ∧ (s.elapse d).boot = s.boot ∧
    (s.elapse d).pwr = s.pwr ∧ (s.elapse d).obs = s.obs :=
  ⟨rfl, rfl, rfl, rfl, rfl, rfl, rfl, rfl, rfl, rfl, rfl, rfl, rfl, rfl, rfl, rfl, rfl⟩

@[simp] theorem State.updCmd_fields (s : State) (n : Nat) (f : Cmd → Cmd) :
    (s.updCmd n f).pending = s.pending ∧ (s.updCmd n f).freeCtr = s.freeCtr ∧ (s.updCmd n f).regs = s.regs ∧
    (s.updCmd n f).time = s.time ∧ (s.updCmd n f).node = s.node ∧ (s.updCmd n f).mem = s.mem ∧ (s.updCmd n f).tally =
    s.tally ∧ (s.updCmd n f).gcl = s.gcl ∧ (s.updCmd n f).fab = s.fab ∧ (s.updCmd n f).tens = s.tens ∧ (s.updCmd n
    f).imp = s.imp ∧ (s.updCmd n f).core = s.core ∧ (s.updCmd n f).attn = s.attn ∧ (s.updCmd n f).coll = s.coll ∧
    (s.updCmd n f).feed = s.feed ∧ (s.updCmd n f).boot = s.boot ∧ (s.updCmd n f).pwr = s.pwr ∧ (s.updCmd n f).obs =
    s.obs :=
  ⟨rfl, rfl, rfl, rfl, rfl, rfl, rfl, rfl, rfl, rfl, rfl, rfl, rfl, rfl, rfl, rfl, rfl, rfl⟩

@[simp] theorem State.nextTick_fields (s : State) :
    (s.nextTick).pending = s.pending ∧ (s.nextTick).freeCtr = s.freeCtr ∧ (s.nextTick).regs = s.regs ∧
    (s.nextTick).time = s.time ∧ (s.nextTick).node = s.node ∧ (s.nextTick).mem = s.mem ∧ (s.nextTick).tally = s.tally
    ∧ (s.nextTick).gcl = s.gcl ∧ (s.nextTick).fab = s.fab ∧ (s.nextTick).tens = s.tens ∧ (s.nextTick).imp = s.imp ∧
    (s.nextTick).core = s.core ∧ (s.nextTick).attn = s.attn ∧ (s.nextTick).coll = s.coll ∧ (s.nextTick).feed = s.feed
    ∧ (s.nextTick).boot = s.boot ∧ (s.nextTick).pwr = s.pwr ∧ (s.nextTick).obs = s.obs :=
  ⟨rfl, rfl, rfl, rfl, rfl, rfl, rfl, rfl, rfl, rfl, rfl, rfl, rfl, rfl, rfl, rfl, rfl, rfl⟩

@[simp] theorem State.updRing_fields (s : State) (n : Nat) (f : RingSt → RingSt) :
    (s.updRing n f).pending = s.pending ∧ (s.updRing n f).freeCtr = s.freeCtr ∧ (s.updRing n f).regs = s.regs ∧
    (s.updRing n f).time = s.time ∧ (s.updRing n f).node = s.node ∧ (s.updRing n f).mem = s.mem ∧ (s.updRing n
    f).tally = s.tally ∧ (s.updRing n f).gcl = s.gcl ∧ (s.updRing n f).fab = s.fab ∧ (s.updRing n f).tens = s.tens ∧
    (s.updRing n f).imp = s.imp ∧ (s.updRing n f).core = s.core ∧ (s.updRing n f).attn = s.attn ∧ (s.updRing n
    f).coll = s.coll ∧ (s.updRing n f).feed = s.feed ∧ (s.updRing n f).boot = s.boot ∧ (s.updRing n f).pwr = s.pwr ∧
    (s.updRing n f).obs = s.obs :=
  ⟨rfl, rfl, rfl, rfl, rfl, rfl, rfl, rfl, rfl, rfl, rfl, rfl, rfl, rfl, rfl, rfl, rfl, rfl⟩

@[simp] theorem State.finish_fields (s : State) (n : Nat) (o : Outcome) :
    (s.finish n o).pending = s.pending ∧ (s.finish n o).freeCtr = s.freeCtr ∧ (s.finish n o).regs = s.regs ∧
    (s.finish n o).time = s.time ∧ (s.finish n o).node = s.node ∧ (s.finish n o).mem = s.mem ∧ (s.finish n o).tally =
    s.tally ∧ (s.finish n o).gcl = s.gcl ∧ (s.finish n o).fab = s.fab ∧ (s.finish n o).tens = s.tens ∧ (s.finish n
    o).imp = s.imp ∧ (s.finish n o).core = s.core ∧ (s.finish n o).attn = s.attn ∧ (s.finish n o).coll = s.coll ∧
    (s.finish n o).feed = s.feed ∧ (s.finish n o).boot = s.boot ∧ (s.finish n o).pwr = s.pwr ∧ (s.finish n o).obs =
    s.obs :=
  ⟨rfl, rfl, rfl, rfl, rfl, rfl, rfl, rfl, rfl, rfl, rfl, rfl, rfl, rfl, rfl, rfl, rfl, rfl⟩

@[simp] theorem State.park_fields (s : State) (n : Nat) (aux : List Nat) :
    (s.park n aux).pending = s.pending ∧ (s.park n aux).freeCtr = s.freeCtr ∧ (s.park n aux).regs = s.regs ∧ (s.park
    n aux).time = s.time ∧ (s.park n aux).node = s.node ∧ (s.park n aux).mem = s.mem ∧ (s.park n aux).tally = s.tally
    ∧ (s.park n aux).gcl = s.gcl ∧ (s.park n aux).fab = s.fab ∧ (s.park n aux).tens = s.tens ∧ (s.park n aux).imp =
    s.imp ∧ (s.park n aux).core = s.core ∧ (s.park n aux).attn = s.attn ∧ (s.park n aux).coll = s.coll ∧ (s.park n
    aux).feed = s.feed ∧ (s.park n aux).boot = s.boot ∧ (s.park n aux).pwr = s.pwr ∧ (s.park n aux).obs = s.obs :=
  ⟨rfl, rfl, rfl, rfl, rfl, rfl, rfl, rfl, rfl, rfl, rfl, rfl, rfl, rfl, rfl, rfl, rfl, rfl⟩

@[simp] theorem State.gclPut_fields (s : State) (m : GclMsg) :
    (s.gclPut m).pending = s.pending ∧ (s.gclPut m).freeCtr = s.freeCtr ∧ (s.gclPut m).regs = s.regs ∧ (s.gclPut
    m).time = s.time ∧ (s.gclPut m).node = s.node ∧ (s.gclPut m).mem = s.mem ∧ (s.gclPut m).cmd = s.cmd ∧ (s.gclPut
    m).tally = s.tally ∧ (s.gclPut m).fab = s.fab ∧ (s.gclPut m).tens = s.tens ∧ (s.gclPut m).imp = s.imp ∧ (s.gclPut
    m).core = s.core ∧ (s.gclPut m).attn = s.attn ∧ (s.gclPut m).coll = s.coll ∧ (s.gclPut m).feed = s.feed ∧
    (s.gclPut m).boot = s.boot ∧ (s.gclPut m).pwr = s.pwr ∧ (s.gclPut m).obs = s.obs :=
  ⟨rfl, rfl, rfl, rfl, rfl, rfl, rfl, rfl, rfl, rfl, rfl, rfl, rfl, rfl, rfl, rfl, rfl, rfl⟩

@[simp] theorem State.setConnTx_fields (s : State) (c : ConnTx) :
    (s.setConnTx c).pending = s.pending ∧ (s.setConnTx c).freeCtr = s.freeCtr ∧ (s.setConnTx c).regs = s.regs ∧
    (s.setConnTx c).time = s.time ∧ (s.setConnTx c).node = s.node ∧ (s.setConnTx c).mem = s.mem ∧ (s.setConnTx c).cmd
    = s.cmd ∧ (s.setConnTx c).tally = s.tally ∧ (s.setConnTx c).gcl = s.gcl ∧ (s.setConnTx c).tens = s.tens ∧
    (s.setConnTx c).imp = s.imp ∧ (s.setConnTx c).core = s.core ∧ (s.setConnTx c).attn = s.attn ∧ (s.setConnTx
    c).coll = s.coll ∧ (s.setConnTx c).feed = s.feed ∧ (s.setConnTx c).boot = s.boot ∧ (s.setConnTx c).pwr = s.pwr ∧
    (s.setConnTx c).obs = s.obs :=
  ⟨rfl, rfl, rfl, rfl, rfl, rfl, rfl, rfl, rfl, rfl, rfl, rfl, rfl, rfl, rfl, rfl, rfl, rfl⟩

@[simp] theorem State.setConnRx_fields (s : State) (c : ConnRx) :
    (s.setConnRx c).pending = s.pending ∧ (s.setConnRx c).freeCtr = s.freeCtr ∧ (s.setConnRx c).regs = s.regs ∧
    (s.setConnRx c).time = s.time ∧ (s.setConnRx c).node = s.node ∧ (s.setConnRx c).mem = s.mem ∧ (s.setConnRx c).cmd
    = s.cmd ∧ (s.setConnRx c).tally = s.tally ∧ (s.setConnRx c).gcl = s.gcl ∧ (s.setConnRx c).tens = s.tens ∧
    (s.setConnRx c).imp = s.imp ∧ (s.setConnRx c).core = s.core ∧ (s.setConnRx c).attn = s.attn ∧ (s.setConnRx
    c).coll = s.coll ∧ (s.setConnRx c).feed = s.feed ∧ (s.setConnRx c).boot = s.boot ∧ (s.setConnRx c).pwr = s.pwr ∧
    (s.setConnRx c).obs = s.obs :=
  ⟨rfl, rfl, rfl, rfl, rfl, rfl, rfl, rfl, rfl, rfl, rfl, rfl, rfl, rfl, rfl, rfl, rfl, rfl⟩

@[simp] theorem State.updLink_fields (s : State) (n : Nat) (f : LinkSt → LinkSt) :
    (s.updLink n f).pending = s.pending ∧ (s.updLink n f).freeCtr = s.freeCtr ∧ (s.updLink n f).regs = s.regs ∧
    (s.updLink n f).time = s.time ∧ (s.updLink n f).node = s.node ∧ (s.updLink n f).mem = s.mem ∧ (s.updLink n f).cmd
    = s.cmd ∧ (s.updLink n f).tally = s.tally ∧ (s.updLink n f).gcl = s.gcl ∧ (s.updLink n f).tens = s.tens ∧
    (s.updLink n f).imp = s.imp ∧ (s.updLink n f).core = s.core ∧ (s.updLink n f).attn = s.attn ∧ (s.updLink n
    f).coll = s.coll ∧ (s.updLink n f).feed = s.feed ∧ (s.updLink n f).boot = s.boot ∧ (s.updLink n f).pwr = s.pwr ∧
    (s.updLink n f).obs = s.obs :=
  ⟨rfl, rfl, rfl, rfl, rfl, rfl, rfl, rfl, rfl, rfl, rfl, rfl, rfl, rfl, rfl, rfl, rfl, rfl⟩

@[simp] theorem State.putBytes_fields (s : State) (a : Nat) (d : List Byte) :
    (s.putBytes a d).pending = s.pending ∧ (s.putBytes a d).freeCtr = s.freeCtr ∧ (s.putBytes a d).regs = s.regs ∧
    (s.putBytes a d).time = s.time ∧ (s.putBytes a d).node = s.node ∧ (s.putBytes a d).cmd = s.cmd ∧ (s.putBytes a
    d).tally = s.tally ∧ (s.putBytes a d).gcl = s.gcl ∧ (s.putBytes a d).fab = s.fab ∧ (s.putBytes a d).tens = s.tens
    ∧ (s.putBytes a d).imp = s.imp ∧ (s.putBytes a d).core = s.core ∧ (s.putBytes a d).attn = s.attn ∧ (s.putBytes a
    d).coll = s.coll ∧ (s.putBytes a d).feed = s.feed ∧ (s.putBytes a d).boot = s.boot ∧ (s.putBytes a d).pwr = s.pwr
    ∧ (s.putBytes a d).obs = s.obs :=
  ⟨rfl, rfl, rfl, rfl, rfl, rfl, rfl, rfl, rfl, rfl, rfl, rfl, rfl, rfl, rfl, rfl, rfl, rfl⟩

@[simp] theorem State.clearPoison_fields (s : State) (a : Nat) (n : Nat) :
    (s.clearPoison a n).pending = s.pending ∧ (s.clearPoison a n).freeCtr = s.freeCtr ∧ (s.clearPoison a n).regs =
    s.regs ∧ (s.clearPoison a n).time = s.time ∧ (s.clearPoison a n).node = s.node ∧ (s.clearPoison a n).cmd = s.cmd
    ∧ (s.clearPoison a n).tally = s.tally ∧ (s.clearPoison a n).gcl = s.gcl ∧ (s.clearPoison a n).fab = s.fab ∧
    (s.clearPoison a n).tens = s.tens ∧ (s.clearPoison a n).imp = s.imp ∧ (s.clearPoison a n).core = s.core ∧
    (s.clearPoison a n).attn = s.attn ∧ (s.clearPoison a n).coll = s.coll ∧ (s.clearPoison a n).feed = s.feed ∧
    (s.clearPoison a n).boot = s.boot ∧ (s.clearPoison a n).pwr = s.pwr ∧ (s.clearPoison a n).obs = s.obs :=
  ⟨rfl, rfl, rfl, rfl, rfl, rfl, rfl, rfl, rfl, rfl, rfl, rfl, rfl, rfl, rfl, rfl, rfl, rfl⟩

@[simp] theorem State.updTensor_fields (s : State) (h : Nat) (f : Tensor → Tensor) :
    (s.updTensor h f).pending = s.pending ∧ (s.updTensor h f).freeCtr = s.freeCtr ∧ (s.updTensor h f).regs = s.regs ∧
    (s.updTensor h f).time = s.time ∧ (s.updTensor h f).node = s.node ∧ (s.updTensor h f).mem = s.mem ∧ (s.updTensor
    h f).cmd = s.cmd ∧ (s.updTensor h f).tally = s.tally ∧ (s.updTensor h f).gcl = s.gcl ∧ (s.updTensor h f).fab =
    s.fab ∧ (s.updTensor h f).imp = s.imp ∧ (s.updTensor h f).core = s.core ∧ (s.updTensor h f).attn = s.attn ∧
    (s.updTensor h f).coll = s.coll ∧ (s.updTensor h f).feed = s.feed ∧ (s.updTensor h f).boot = s.boot ∧
    (s.updTensor h f).pwr = s.pwr ∧ (s.updTensor h f).obs = s.obs :=
  ⟨rfl, rfl, rfl, rfl, rfl, rfl, rfl, rfl, rfl, rfl, rfl, rfl, rfl, rfl, rfl, rfl, rfl, rfl⟩

@[simp] theorem State.setDir_fields (s : State) (line : Nat) (d : DirState) :
    (s.setDir line d).pending = s.pending ∧ (s.setDir line d).freeCtr = s.freeCtr ∧ (s.setDir line d).regs = s.regs ∧
    (s.setDir line d).time = s.time ∧ (s.setDir line d).node = s.node ∧ (s.setDir line d).mem = s.mem ∧ (s.setDir
    line d).cmd = s.cmd ∧ (s.setDir line d).tally = s.tally ∧ (s.setDir line d).fab = s.fab ∧ (s.setDir line d).tens
    = s.tens ∧ (s.setDir line d).imp = s.imp ∧ (s.setDir line d).core = s.core ∧ (s.setDir line d).attn = s.attn ∧
    (s.setDir line d).coll = s.coll ∧ (s.setDir line d).feed = s.feed ∧ (s.setDir line d).boot = s.boot ∧ (s.setDir
    line d).pwr = s.pwr ∧ (s.setDir line d).obs = s.obs :=
  ⟨rfl, rfl, rfl, rfl, rfl, rfl, rfl, rfl, rfl, rfl, rfl, rfl, rfl, rfl, rfl, rfl, rfl, rfl⟩

@[simp] theorem State.detach_fields (s : State) (p : WaitOwner → Bool) :
    (s.detach p).pending = s.pending ∧ (s.detach p).freeCtr = s.freeCtr ∧ (s.detach p).regs = s.regs ∧ (s.detach
    p).time = s.time ∧ (s.detach p).node = s.node ∧ (s.detach p).mem = s.mem ∧ (s.detach p).cmd = s.cmd ∧ (s.detach
    p).gcl = s.gcl ∧ (s.detach p).fab = s.fab ∧ (s.detach p).tens = s.tens ∧ (s.detach p).imp = s.imp ∧ (s.detach
    p).core = s.core ∧ (s.detach p).attn = s.attn ∧ (s.detach p).coll = s.coll ∧ (s.detach p).feed = s.feed ∧
    (s.detach p).boot = s.boot ∧ (s.detach p).pwr = s.pwr ∧ (s.detach p).obs = s.obs :=
  ⟨rfl, rfl, rfl, rfl, rfl, rfl, rfl, rfl, rfl, rfl, rfl, rfl, rfl, rfl, rfl, rfl, rfl, rfl⟩

@[simp] theorem State.updTable_fields (s : State) (n : Nat) (f : GTable → GTable) :
    (s.updTable n f).pending = s.pending ∧ (s.updTable n f).freeCtr = s.freeCtr ∧ (s.updTable n f).regs = s.regs ∧
    (s.updTable n f).time = s.time ∧ (s.updTable n f).node = s.node ∧ (s.updTable n f).mem = s.mem ∧ (s.updTable n
    f).cmd = s.cmd ∧ (s.updTable n f).tally = s.tally ∧ (s.updTable n f).gcl = s.gcl ∧ (s.updTable n f).fab = s.fab ∧
    (s.updTable n f).tens = s.tens ∧ (s.updTable n f).imp = s.imp ∧ (s.updTable n f).core = s.core ∧ (s.updTable n
    f).coll = s.coll ∧ (s.updTable n f).feed = s.feed ∧ (s.updTable n f).boot = s.boot ∧ (s.updTable n f).pwr = s.pwr
    ∧ (s.updTable n f).obs = s.obs :=
  ⟨rfl, rfl, rfl, rfl, rfl, rfl, rfl, rfl, rfl, rfl, rfl, rfl, rfl, rfl, rfl, rfl, rfl, rfl⟩

@[simp] theorem State.updGalley_fields (s : State) (g : Nat) (f : Galley → Galley) :
    (s.updGalley g f).pending = s.pending ∧ (s.updGalley g f).freeCtr = s.freeCtr ∧ (s.updGalley g f).regs = s.regs ∧
    (s.updGalley g f).time = s.time ∧ (s.updGalley g f).node = s.node ∧ (s.updGalley g f).mem = s.mem ∧ (s.updGalley
    g f).cmd = s.cmd ∧ (s.updGalley g f).tally = s.tally ∧ (s.updGalley g f).gcl = s.gcl ∧ (s.updGalley g f).fab =
    s.fab ∧ (s.updGalley g f).tens = s.tens ∧ (s.updGalley g f).imp = s.imp ∧ (s.updGalley g f).core = s.core ∧
    (s.updGalley g f).coll = s.coll ∧ (s.updGalley g f).feed = s.feed ∧ (s.updGalley g f).boot = s.boot ∧
    (s.updGalley g f).pwr = s.pwr ∧ (s.updGalley g f).obs = s.obs :=
  ⟨rfl, rfl, rfl, rfl, rfl, rfl, rfl, rfl, rfl, rfl, rfl, rfl, rfl, rfl, rfl, rfl, rfl, rfl⟩

@[simp] theorem State.setDisabled_fields (s : State) (f : Nat) (v : Nat) :
    (s.setDisabled f v).pending = s.pending ∧ (s.setDisabled f v).freeCtr = s.freeCtr ∧ (s.setDisabled f v).time =
    s.time ∧ (s.setDisabled f v).node = s.node ∧ (s.setDisabled f v).mem = s.mem ∧ (s.setDisabled f v).cmd = s.cmd ∧
    (s.setDisabled f v).tally = s.tally ∧ (s.setDisabled f v).gcl = s.gcl ∧ (s.setDisabled f v).fab = s.fab ∧
    (s.setDisabled f v).tens = s.tens ∧ (s.setDisabled f v).imp = s.imp ∧ (s.setDisabled f v).core = s.core ∧
    (s.setDisabled f v).attn = s.attn ∧ (s.setDisabled f v).coll = s.coll ∧ (s.setDisabled f v).feed = s.feed ∧
    (s.setDisabled f v).boot = s.boot ∧ (s.setDisabled f v).pwr = s.pwr ∧ (s.setDisabled f v).obs = s.obs :=
  ⟨rfl, rfl, rfl, rfl, rfl, rfl, rfl, rfl, rfl, rfl, rfl, rfl, rfl, rfl, rfl, rfl, rfl, rfl⟩

@[simp] theorem State.updColl_fields (s : State) (id : Nat) (f : Coll → Coll) :
    (s.updColl id f).pending = s.pending ∧ (s.updColl id f).freeCtr = s.freeCtr ∧ (s.updColl id f).regs = s.regs ∧
    (s.updColl id f).time = s.time ∧ (s.updColl id f).node = s.node ∧ (s.updColl id f).mem = s.mem ∧ (s.updColl id
    f).cmd = s.cmd ∧ (s.updColl id f).tally = s.tally ∧ (s.updColl id f).gcl = s.gcl ∧ (s.updColl id f).fab = s.fab ∧
    (s.updColl id f).tens = s.tens ∧ (s.updColl id f).imp = s.imp ∧ (s.updColl id f).core = s.core ∧ (s.updColl id
    f).attn = s.attn ∧ (s.updColl id f).feed = s.feed ∧ (s.updColl id f).boot = s.boot ∧ (s.updColl id f).pwr = s.pwr
    ∧ (s.updColl id f).obs = s.obs :=
  ⟨rfl, rfl, rfl, rfl, rfl, rfl, rfl, rfl, rfl, rfl, rfl, rfl, rfl, rfl, rfl, rfl, rfl, rfl⟩

@[simp] theorem State.updStream_fields (s : State) (n : Nat) (f : FeedStream → FeedStream) :
    (s.updStream n f).pending = s.pending ∧ (s.updStream n f).freeCtr = s.freeCtr ∧ (s.updStream n f).regs = s.regs ∧
    (s.updStream n f).time = s.time ∧ (s.updStream n f).node = s.node ∧ (s.updStream n f).mem = s.mem ∧ (s.updStream
    n f).cmd = s.cmd ∧ (s.updStream n f).tally = s.tally ∧ (s.updStream n f).gcl = s.gcl ∧ (s.updStream n f).fab =
    s.fab ∧ (s.updStream n f).tens = s.tens ∧ (s.updStream n f).imp = s.imp ∧ (s.updStream n f).core = s.core ∧
    (s.updStream n f).attn = s.attn ∧ (s.updStream n f).coll = s.coll ∧ (s.updStream n f).boot = s.boot ∧
    (s.updStream n f).pwr = s.pwr ∧ (s.updStream n f).obs = s.obs :=
  ⟨rfl, rfl, rfl, rfl, rfl, rfl, rfl, rfl, rfl, rfl, rfl, rfl, rfl, rfl, rfl, rfl, rfl, rfl⟩

@[simp] theorem State.reply_fields (s : State) (r : UartReply) :
    (s.reply r).pending = s.pending ∧ (s.reply r).freeCtr = s.freeCtr ∧ (s.reply r).regs = s.regs ∧ (s.reply r).time
    = s.time ∧ (s.reply r).node = s.node ∧ (s.reply r).mem = s.mem ∧ (s.reply r).cmd = s.cmd ∧ (s.reply r).tally =
    s.tally ∧ (s.reply r).gcl = s.gcl ∧ (s.reply r).fab = s.fab ∧ (s.reply r).tens = s.tens ∧ (s.reply r).imp = s.imp
    ∧ (s.reply r).core = s.core ∧ (s.reply r).attn = s.attn ∧ (s.reply r).coll = s.coll ∧ (s.reply r).feed = s.feed ∧
    (s.reply r).boot = s.boot ∧ (s.reply r).pwr = s.pwr :=
  ⟨rfl, rfl, rfl, rfl, rfl, rfl, rfl, rfl, rfl, rfl, rfl, rfl, rfl, rfl, rfl, rfl, rfl, rfl⟩

@[simp] theorem State.setMove_fields (s : State) (m : Move) (n : Move) :
    (s.setMove m n).pending = s.pending ∧ (s.setMove m n).freeCtr = s.freeCtr ∧ (s.setMove m n).regs = s.regs ∧
    (s.setMove m n).time = s.time ∧ (s.setMove m n).node = s.node ∧ (s.setMove m n).mem = s.mem ∧ (s.setMove m n).cmd
    = s.cmd ∧ (s.setMove m n).tally = s.tally ∧ (s.setMove m n).gcl = s.gcl ∧ (s.setMove m n).fab = s.fab ∧
    (s.setMove m n).tens = s.tens ∧ (s.setMove m n).core = s.core ∧ (s.setMove m n).attn = s.attn ∧ (s.setMove m
    n).coll = s.coll ∧ (s.setMove m n).feed = s.feed ∧ (s.setMove m n).boot = s.boot ∧ (s.setMove m n).pwr = s.pwr ∧
    (s.setMove m n).obs = s.obs :=
  ⟨rfl, rfl, rfl, rfl, rfl, rfl, rfl, rfl, rfl, rfl, rfl, rfl, rfl, rfl, rfl, rfl, rfl, rfl⟩

@[simp] theorem State.unbackedHit_fields (s : State) :
    (s.unbackedHit).pending = s.pending ∧ (s.unbackedHit).freeCtr = s.freeCtr ∧ (s.unbackedHit).time = s.time ∧
    (s.unbackedHit).node = s.node ∧ (s.unbackedHit).mem = s.mem ∧ (s.unbackedHit).cmd = s.cmd ∧ (s.unbackedHit).tally
    = s.tally ∧ (s.unbackedHit).gcl = s.gcl ∧ (s.unbackedHit).fab = s.fab ∧ (s.unbackedHit).tens = s.tens ∧
    (s.unbackedHit).imp = s.imp ∧ (s.unbackedHit).core = s.core ∧ (s.unbackedHit).attn = s.attn ∧
    (s.unbackedHit).coll = s.coll ∧ (s.unbackedHit).feed = s.feed ∧ (s.unbackedHit).boot = s.boot ∧
    (s.unbackedHit).pwr = s.pwr ∧ (s.unbackedHit).obs = s.obs :=
  ⟨rfl, rfl, rfl, rfl, rfl, rfl, rfl, rfl, rfl, rfl, rfl, rfl, rfl, rfl, rfl, rfl, rfl, rfl⟩

@[simp] theorem State.givePages_fields (s : State) (l : List Nat) :
    (s.givePages l).pending = s.pending ∧ (s.givePages l).freeCtr = s.freeCtr ∧ (s.givePages l).regs = s.regs ∧
    (s.givePages l).time = s.time ∧ (s.givePages l).node = s.node ∧ (s.givePages l).cmd = s.cmd ∧ (s.givePages
    l).tally = s.tally ∧ (s.givePages l).gcl = s.gcl ∧ (s.givePages l).fab = s.fab ∧ (s.givePages l).tens = s.tens ∧
    (s.givePages l).imp = s.imp ∧ (s.givePages l).core = s.core ∧ (s.givePages l).attn = s.attn ∧ (s.givePages
    l).coll = s.coll ∧ (s.givePages l).feed = s.feed ∧ (s.givePages l).boot = s.boot ∧ (s.givePages l).pwr = s.pwr ∧
    (s.givePages l).obs = s.obs :=
  ⟨rfl, rfl, rfl, rfl, rfl, rfl, rfl, rfl, rfl, rfl, rfl, rfl, rfl, rfl, rfl, rfl, rfl, rfl⟩

@[simp] theorem State.writeData_fields (s : State) (h : Nat) (f : Codes → Codes) :
    (s.writeData h f).pending = s.pending ∧ (s.writeData h f).freeCtr = s.freeCtr ∧ (s.writeData h f).regs = s.regs ∧
    (s.writeData h f).time = s.time ∧ (s.writeData h f).node = s.node ∧ (s.writeData h f).mem = s.mem ∧ (s.writeData
    h f).cmd = s.cmd ∧ (s.writeData h f).tally = s.tally ∧ (s.writeData h f).gcl = s.gcl ∧ (s.writeData h f).fab =
    s.fab ∧ (s.writeData h f).imp = s.imp ∧ (s.writeData h f).core = s.core ∧ (s.writeData h f).attn = s.attn ∧
    (s.writeData h f).coll = s.coll ∧ (s.writeData h f).feed = s.feed ∧ (s.writeData h f).boot = s.boot ∧
    (s.writeData h f).pwr = s.pwr ∧ (s.writeData h f).obs = s.obs :=
  ⟨rfl, rfl, rfl, rfl, rfl, rfl, rfl, rfl, rfl, rfl, rfl, rfl, rfl, rfl, rfl, rfl, rfl, rfl⟩

@[simp] theorem State.updQp_fields (s : State) (i : Nat) (f : QueuePair → QueuePair) :
    (s.updQp i f).pending = s.pending ∧ (s.updQp i f).freeCtr = s.freeCtr ∧ (s.updQp i f).regs = s.regs ∧ (s.updQp i
    f).time = s.time ∧ (s.updQp i f).node = s.node ∧ (s.updQp i f).mem = s.mem ∧ (s.updQp i f).cmd = s.cmd ∧ (s.updQp
    i f).tally = s.tally ∧ (s.updQp i f).gcl = s.gcl ∧ (s.updQp i f).tens = s.tens ∧ (s.updQp i f).imp = s.imp ∧
    (s.updQp i f).core = s.core ∧ (s.updQp i f).attn = s.attn ∧ (s.updQp i f).coll = s.coll ∧ (s.updQp i f).feed =
    s.feed ∧ (s.updQp i f).boot = s.boot ∧ (s.updQp i f).pwr = s.pwr ∧ (s.updQp i f).obs = s.obs :=
  ⟨rfl, rfl, rfl, rfl, rfl, rfl, rfl, rfl, rfl, rfl, rfl, rfl, rfl, rfl, rfl, rfl, rfl, rfl⟩


@[simp] theorem State.free_fields (s : State) : s.free.2.pending = s.pending ∧ s.free.2.regs = s.regs ∧
    s.free.2.mem = s.mem ∧ s.free.2.cmd = s.cmd ∧ s.free.2.tally = s.tally ∧ s.free.2.freeCtr = s.freeCtr + 1 :=
  ⟨rfl, rfl, rfl, rfl, rfl, rfl⟩

/-! ### What is read after a write -/

variable {s t : State} {n m : Nat}

/-- A register just set holds the word, in 64 bits. -/
theorem State.reg_setReg_same (hs : s.Sound) {off v : Nat} : (s.setReg off v).reg off = v % 2 ^ 64 := by
  simp [State.reg, State.setReg, Sparse.get_set_same hs.regs]

/-- Setting a register leaves every other. -/
theorem State.reg_setReg_other {off o v : Nat} (h : o ≠ off) : (s.setReg off v).reg o = s.reg o := by
  simp only [State.reg, State.setReg, Sparse.get_set_other h]

theorem State.reg_lt {off : Nat} : s.reg off < 2 ^ 64 := (Sparse.get _ s.regs off).isLt

/-- A field just set holds what was put there. -/
theorem State.fld_setFld_same (hs : s.Sound) {off hi lo x : Nat} (h : lo ≤ hi) (hw : hi < 64) :
    (s.setFld off hi lo x).fld off hi lo = x % 2 ^ (hi + 1 - lo) := by
  unfold State.fld State.setFld
  rw [State.reg_setReg_same hs, Nat.mod_eq_of_lt (putBits_lt h hw State.reg_lt), bits_putBits_same h]

/-- A field above the one set. -/
theorem State.fld_setFld_above (hs : s.Sound) {off hi lo x b a : Nat} (h : lo ≤ hi) (hw : hi < 64) (ha : hi < a) :
    (s.setFld off hi lo x).fld off b a = s.fld off b a := by
  unfold State.fld State.setFld
  rw [State.reg_setReg_same hs, Nat.mod_eq_of_lt (putBits_lt h hw State.reg_lt), bits_putBits_above h ha]

/-- A field below the one set. -/
theorem State.fld_setFld_below (hs : s.Sound) {off hi lo x b a : Nat} (h : lo ≤ hi) (hw : hi < 64) (hb : b < lo)
    (hab : a ≤ b) : (s.setFld off hi lo x).fld off b a = s.fld off b a := by
  unfold State.fld State.setFld
  rw [State.reg_setReg_same hs, Nat.mod_eq_of_lt (putBits_lt h hw State.reg_lt), bits_putBits_below h hb hab]

/-- Setting a field of a register leaves every other register. -/
theorem State.reg_setFld_other {off o hi lo x : Nat} (h : o ≠ off) : (s.setFld off hi lo x).reg o = s.reg o :=
  State.reg_setReg_other h

theorem State.fld_setFld_other {off o hi lo x b a : Nat} (h : o ≠ off) :
    (s.setFld off hi lo x).fld o b a = s.fld o b a := by simp only [State.fld, State.reg_setFld_other h]

/-- A tally just given a value holds it, in 64 bits. -/
theorem State.tallyVal_set_same (hs : s.Sound) {i v : Nat} {w : List Waiter} :
    State.tallyVal { s with tally := ⟨Sparse.set (fun _ => (0 : Word64)) s.tally.values i (BitVec.ofNat 64 v), w⟩ } i =
      v % 2 ^ 64 := by
  have e : Sparse.get (fun _ => (0 : Word64)) (Sparse.set (fun _ => 0) s.tally.values i (BitVec.ofNat 64 v)) i =
      BitVec.ofNat 64 v := Sparse.get_set_same hs.tallies
  simp only [State.tallyVal]
  rw [e]
  simp

/-- A byte of memory after bytes were put: theirs where they lie, the old one elsewhere. -/
theorem State.byteAt_putBytes (hs : s.Sound) {a i : Nat} {d : List Byte} :
    (s.putBytes a d).byteAt i = if a ≤ i ∧ i < a + d.length then d.getD (i - a) 0 else s.byteAt i :=
  Sparse.get_setMany hs.mem

theorem State.reg_congr {off : Nat} (h : t.regs = s.regs) : t.reg off = s.reg off := by simp [State.reg, h]

theorem State.byteAt_congr {a : Nat} (h : t.mem = s.mem) : t.byteAt a = s.byteAt a := by simp [State.byteAt, h]

theorem State.tallyVal_congr {i : Nat} (h : t.tally = s.tally) : t.tallyVal i = s.tallyVal i := by
  simp [State.tallyVal, h]

/-! ### Messages and interrupts -/

@[simp] theorem State.gclSend_fields (s : State) (m : GclMsg) :
    (s.gclSend m).pending = s.pending ∧ (s.gclSend m).freeCtr = s.freeCtr ∧ (s.gclSend m).regs = s.regs ∧
    (s.gclSend m).time = s.time ∧ (s.gclSend m).node = s.node ∧ (s.gclSend m).mem = s.mem ∧ (s.gclSend m).cmd =
    s.cmd ∧ (s.gclSend m).tally = s.tally ∧ (s.gclSend m).fab = s.fab ∧ (s.gclSend m).tens = s.tens ∧ (s.gclSend
    m).imp = s.imp ∧ (s.gclSend m).core = s.core ∧ (s.gclSend m).attn = s.attn ∧ (s.gclSend m).coll = s.coll ∧
    (s.gclSend m).feed = s.feed ∧ (s.gclSend m).boot = s.boot ∧ (s.gclSend m).pwr = s.pwr ∧ (s.gclSend m).obs =
    s.obs := by
  unfold State.gclSend
  split <;> simp

@[simp] theorem State.irq_fields (s : State) (v : Nat) :
    (s.irq v).pending = s.pending ∧ (s.irq v).freeCtr = s.freeCtr ∧ (s.irq v).time = s.time ∧ (s.irq v).node =
    s.node ∧ (s.irq v).mem = s.mem ∧ (s.irq v).cmd = s.cmd ∧ (s.irq v).tally = s.tally ∧ (s.irq v).fab = s.fab ∧
    (s.irq v).tens = s.tens ∧ (s.irq v).imp = s.imp ∧ (s.irq v).core = s.core ∧ (s.irq v).attn = s.attn ∧ (s.irq
    v).coll = s.coll ∧ (s.irq v).feed = s.feed ∧ (s.irq v).boot = s.boot ∧ (s.irq v).pwr = s.pwr ∧ (s.irq v).obs =
    s.obs := by
  unfold State.irq State.irqSend
  split
  · simp
  · split <;> simp

/-- An interrupt writes no register but GCL_IRQ_ACK. -/
theorem State.reg_irq_other {o v : Nat} (h : o ≠ Reg.gclIrqAck) : (s.irq v).reg o = s.reg o := by
  unfold State.irq State.irqSend
  split
  · rfl
  · split
    · rfl
    · rw [State.reg_congr (by simp : _ = (s.setReg Reg.gclIrqAck (putBits (s.reg Reg.gclIrqAck) v v 1)).regs),
        State.reg_setReg_other h]

@[simp] theorem State.proofEvent_fields (s : State) (i : Nat) :
    (s.proofEvent i).pending = s.pending ∧ (s.proofEvent i).freeCtr = s.freeCtr ∧ (s.proofEvent i).regs = s.regs ∧
    (s.proofEvent i).time = s.time ∧ (s.proofEvent i).node = s.node ∧ (s.proofEvent i).mem = s.mem ∧ (s.proofEvent
    i).cmd = s.cmd ∧ (s.proofEvent i).tally = s.tally ∧ (s.proofEvent i).fab = s.fab ∧ (s.proofEvent i).tens =
    s.tens ∧ (s.proofEvent i).imp = s.imp ∧ (s.proofEvent i).core = s.core ∧ (s.proofEvent i).attn = s.attn ∧
    (s.proofEvent i).coll = s.coll ∧ (s.proofEvent i).feed = s.feed ∧ (s.proofEvent i).boot = s.boot ∧
    (s.proofEvent i).pwr = s.pwr ∧ (s.proofEvent i).gcl = s.gcl := by
  unfold State.proofEvent
  split <;> simp

@[simp] theorem State.gclRequest_fields (s : State) (p : GclPurpose) (m : GclMsg) :
    (s.gclRequest p m).pending = s.pending ∧ (s.gclRequest p m).freeCtr = s.freeCtr ∧ (s.gclRequest p m).regs =
    s.regs ∧ (s.gclRequest p m).time = s.time ∧ (s.gclRequest p m).node = s.node ∧ (s.gclRequest p m).mem = s.mem
    ∧ (s.gclRequest p m).tally = s.tally ∧ (s.gclRequest p m).fab = s.fab ∧ (s.gclRequest p m).tens = s.tens ∧
    (s.gclRequest p m).imp = s.imp ∧ (s.gclRequest p m).core = s.core ∧ (s.gclRequest p m).attn = s.attn ∧
    (s.gclRequest p m).coll = s.coll ∧ (s.gclRequest p m).feed = s.feed ∧ (s.gclRequest p m).boot = s.boot ∧
    (s.gclRequest p m).pwr = s.pwr ∧ (s.gclRequest p m).obs = s.obs ∧ (s.gclRequest p m).cmd = s.cmd := by
  unfold State.gclRequest
  split <;> simp

/-- Fetching changes what is on its way over the GCL and where the ring fetches next; nothing else. -/
theorem State.fetchLoop_fields (n : Nat) (k : Nat) (s : State) :
    (State.fetchLoop n k s).pending = s.pending ∧ (State.fetchLoop n k s).freeCtr = s.freeCtr ∧ (State.fetchLoop n
    k s).regs = s.regs ∧ (State.fetchLoop n k s).time = s.time ∧ (State.fetchLoop n k s).node = s.node ∧
    (State.fetchLoop n k s).mem = s.mem ∧ (State.fetchLoop n k s).tally = s.tally ∧ (State.fetchLoop n k s).fab =
    s.fab ∧ (State.fetchLoop n k s).tens = s.tens ∧ (State.fetchLoop n k s).imp = s.imp ∧ (State.fetchLoop n k
    s).core = s.core ∧ (State.fetchLoop n k s).attn = s.attn ∧ (State.fetchLoop n k s).coll = s.coll ∧
    (State.fetchLoop n k s).feed = s.feed ∧ (State.fetchLoop n k s).boot = s.boot ∧ (State.fetchLoop n k s).pwr =
    s.pwr ∧ (State.fetchLoop n k s).obs = s.obs ∧ (State.fetchLoop n k s).cmd.cmds = s.cmd.cmds := by
  induction k generalizing s with
  | zero => simp [State.fetchLoop]
  | succ k ih =>
    unfold State.fetchLoop
    dsimp only
    split
    · simp
    · obtain ⟨h0, h1, h2, h3, h4, h5, h6, h7, h8, h9, h10, h11, h12, h13, h14, h15, h16, h17⟩ := ih (State.updRing (s.gclRequest (.fetch n (s.ring n).fetchPtr)
        (.rdNc 0 (s.slotAddr n (s.ring n).fetchPtr) 32)) n fun r => { r with fetchPtr := (r.fetchPtr + 1) %
          (s.gclRequest (.fetch n (s.ring n).fetchPtr) (.rdNc 0 (s.slotAddr n (s.ring n).fetchPtr) 32)).ringSize n })
      refine ⟨h0.trans (by simp), h1.trans (by simp), h2.trans (by simp), h3.trans (by simp), h4.trans (by simp), h5.trans (by simp), h6.trans (by simp), h7.trans (by simp), h8.trans (by simp), h9.trans (by simp), h10.trans (by simp), h11.trans (by simp), h12.trans (by simp), h13.trans (by simp), h14.trans (by simp), h15.trans (by simp), h16.trans (by simp), h17.trans ?_⟩
      simp [State.updRing]

@[simp] theorem State.fetchRing_fields (s : State) (n : Nat) :
    (s.fetchRing n).pending = s.pending ∧ (s.fetchRing n).freeCtr = s.freeCtr ∧ (s.fetchRing n).regs = s.regs ∧
    (s.fetchRing n).time = s.time ∧ (s.fetchRing n).node = s.node ∧ (s.fetchRing n).mem = s.mem ∧ (s.fetchRing
    n).tally = s.tally ∧ (s.fetchRing n).fab = s.fab ∧ (s.fetchRing n).tens = s.tens ∧ (s.fetchRing n).imp = s.imp
    ∧ (s.fetchRing n).core = s.core ∧ (s.fetchRing n).attn = s.attn ∧ (s.fetchRing n).coll = s.coll ∧ (s.fetchRing
    n).feed = s.feed ∧ (s.fetchRing n).boot = s.boot ∧ (s.fetchRing n).pwr = s.pwr ∧ (s.fetchRing n).obs = s.obs ∧
    (s.fetchRing n).cmd.cmds = s.cmd.cmds := by
  unfold State.fetchRing
  split
  · exact State.fetchLoop_fields n _ s
  · simp

/-! ### Commands -/

/-- The command with a number after an update of it. -/
theorem State.cmdOf_updCmd {c : Cmd} {f : Cmd → Cmd} (hf : (f c).id = c.id) (h : s.cmdOf n = some c) :
    (s.updCmd n f).cmdOf n = some (f c) := by
  unfold State.cmdOf at h
  simp only [State.cmdOf, State.updCmd]
  generalize s.cmd.cmds = l at h ⊢
  induction l with
  | nil => cases h
  | cons d l ih =>
    simp only [List.map_cons, List.find?_cons] at h ⊢
    by_cases hd : d.id = n
    · simp only [hd, decide_true, Option.some.injEq] at h
      subst h
      simp [hd, hf]
    · simp only [hd, decide_false] at h
      simpa [hd] using ih h

/-- Every other command after an update of one. -/
theorem State.cmdOf_updCmd_other {f : Cmd → Cmd} (hf : ∀ c, (f c).id = c.id) (h : m ≠ n) :
    (s.updCmd n f).cmdOf m = s.cmdOf m := by
  simp only [State.cmdOf, State.updCmd, List.find?_map]
  have e : ((fun c : Cmd => decide (c.id = m)) ∘ fun c => if c.id = n then f c else c) = fun c => decide (c.id = m) := by
    funext c
    simp only [Function.comp]
    split <;> simp [hf]
  rw [e]
  cases e : List.find? (fun c => decide (c.id = m)) s.cmd.cmds with
  | none => rfl
  | some c =>
    have hc : c.id = m := by simpa using List.find?_some e
    simp [hc, h]

/-- In a sound state a command in flight is the one with its number. -/
theorem State.Sound.cmdOf_mem (hs : s.Sound) {c : Cmd} (h : c ∈ s.cmd.cmds) : s.cmdOf c.id = some c := by
  have hp := (List.pairwise_append.1 hs.numbers).1
  unfold State.cmdOf
  generalize s.cmd.cmds = l at h hp
  induction l with
  | nil => cases h
  | cons d l ih =>
    rw [List.map_cons, List.pairwise_cons] at hp
    rcases List.mem_cons.1 h with rfl | h
    · simp
    · have : d.id ≠ c.id := (hp.1 c.id (List.mem_map.2 ⟨c, h, rfl⟩)).ne
      rw [List.find?_cons_of_neg (by simpa using this), ih h hp.2]

/-- A command that finishes has ended with its outcome. -/
theorem State.finish_ended {c : Cmd} {o : Outcome} (h : s.cmdOf n = some c) : (s.finish n o).Ended n o :=
  ⟨_, State.cmdOf_updCmd (f := fun c => { c with
    phase := .done, status := o.status, detail := o.detail, result := o.result % 2 ^ 128, time := s.time % 2 ^ 48 })
    rfl h, rfl, rfl, rfl, rfl⟩

/-- A command that parks waits with its reason. -/
theorem State.cmdOf_park {c : Cmd} {a : List Nat} (h : s.cmdOf n = some c) :
    (s.park n a).cmdOf n = some { c with phase := .waiting, aux := a } :=
  State.cmdOf_updCmd (f := fun c => { c with phase := .waiting, aux := a }) rfl h

/-- Work of a command that holds no DRAINING imposition. -/
theorem State.onImposition_current {c : Cmd} {f : State → State}
    (h : ∀ d, s.imp.draining = some d → functionOf c.opcode < 10 → c.latch.imposition ≠ d.imp.number) :
    s.onImposition c f = f s := by
  unfold State.onImposition
  split
  · rfl
  · rw [if_neg fun x => h _ (by assumption) x.1 x.2]

/-- A command whose turn it is runs. -/
theorem State.Ready.run {op : Nat} {c : Cmd} {f : Cmd → State → State} (h : s.Ready n op c) : s.runCmd n op f = f c s := by
  simp only [State.runCmd, State.dispatched, h.found, h.phase, h.opcode, and_self, if_true, h.turn]
  exact State.onImposition_current h.units

/-- A command whose turn it is and that nothing holds back begins its work. -/
theorem State.Ready.work {op : Nat} {c : Cmd} {f : Cmd → State → State} (h : s.Ready n op c)
    (hh : s.Begins c) : s.work n op f = f c s := by
  rw [State.work, h.run, hh.1, hh.2]; rfl

/-- A command that uses a failed slot ends ABORTED (01 R16, R28). -/
theorem State.Ready.work_failed {op : Nat} {c : Cmd} {f : Cmd → State → State} (h : s.Ready n op c)
    (hh : s.holdReason c = none) (hf : s.usesFailed c = true) : s.work n op f = s.finish c.id (Outcome.aborted 0) := by
  rw [State.work, h.run, hh, hf]; rfl

/-- A waiting command resumes. -/
theorem State.Waits.resume {c : Cmd} {f : Cmd → State → State} (h : s.Waits n c) : s.resumeCmd n f = f c s := by
  simp only [State.resumeCmd, h.found, h.phase, if_true]
  exact State.onImposition_current h.units

theorem State.Up.when {f : State → State} (h : s.Up) : s.whenUp f = f s := by simp [State.whenUp, h.1, h.2]

theorem State.Ready.id {op : Nat} {c : Cmd} (h : s.Ready n op c) : c.id = n := by simpa using List.find?_some h.found

theorem State.Waits.id {c : Cmd} (h : s.Waits n c) : c.id = n := by simpa using List.find?_some h.found

end Sys2Proof.Machine
end

