-- ==== Sys2Proof/Laws/Rings.lean ====
section
/-! SUPPORT. What the operations of the rings leave as they are: the pump of a reply ring, and the head of a ring's
dispatch when it attaches its waits. -/

set_option Elab.async false

namespace Sys2Proof.Machine

/-- The row of RING_CFG_n. -/
theorem ringFamily : ∀ r < 16, regFamily (Reg.ringCfg r) =
    some ⟨"RING_CFG_n", 0x10000, [(0x40, 16)], 8, [⟨63, 12, .rw, 0x0⟩, ⟨7, 4, .rw, 0x0⟩, ⟨0, 0, .rw, 0x0⟩]⟩ := by decide

/-- A write of the 8 bytes of RING_CFG_n. -/
theorem ringSpan {s : State} {r v : Nat} (hr : r < 16) : s.writeSpan (Reg.ringCfg r) 0 8 v =
    s.setReg (Reg.ringCfg r) (putBits (putBits (putBits (s.reg (Reg.ringCfg r)) 63 12 (bits v 63 12)) 7 4 (bits v 7 4)) 0 0 (bits v 0 0)) := by
  have hg : s.coreRegGone (Reg.ringCfg r) = false := by
    have : Reg.ringCfg r < 0x100000 := by simp only [Reg.ringCfg]; omega
    simp [State.coreRegGone]; omega
  simp [State.writeSpan, ringFamily r hr, hg, writeField]

/-- A word made of the fields of RING_CFG_n is one of 64 bits. -/
theorem ringCfg_word {s : State} {r : Nat} (x y z : Nat) : putBits (putBits (putBits (s.reg (Reg.ringCfg r)) 63 12 x) 7 4 y) 0 0 z < 2 ^ 64 :=
  putBits_lt (by decide) (by decide) (putBits_lt (by decide) (by decide) (putBits_lt (by decide) (by decide) State.reg_lt))

/-- The pump of a reply ring leaves registers, memory, tallies and tensors. -/
theorem replyPump_fields (s : State) (n : Nat) : (s.replyPump n).regs = s.regs ∧ (s.replyPump n).mem = s.mem ∧ (s.replyPump n).tally = s.tally ∧ (s.replyPump n).tens = s.tens := by
  unfold State.replyPump
  dsimp only
  split
  · simp
  · split <;> simp

/-- What attaching a header wait leaves. -/
theorem headerWait_fields (s : State) (c : Cmd) (i : Nat) : (s.tallyWait (c.waiter i)).regs = s.regs ∧ (s.tallyWait (c.waiter i)).mem = s.mem ∧
    (s.tallyWait (c.waiter i)).tally.values = s.tally.values ∧ (s.tallyWait (c.waiter i)).tens = s.tens ∧
    (s.tallyWait (c.waiter i)).cmd.nextId = s.cmd.nextId ∧ (s.tallyWait (c.waiter i)).cmd.lastServed = s.cmd.lastServed ∧
    (s.tallyWait (c.waiter i)).cmd.lastDispatch = s.cmd.lastDispatch ∧
    (s.tallyWait (c.waiter i)).cmd.tick = s.cmd.tick ∧ (s.tallyWait (c.waiter i)).cmd.cmds.length = s.cmd.cmds.length := by
  unfold State.tallyWait
  split
  · simp [State.notify, Cmd.waiter, State.updCmd]
  · simp

/-- What the head of a ring leaves when it attaches its waits. -/
theorem attachHead_fields (s : State) (n : Nat) : (s.attachHead n).regs = s.regs ∧ (s.attachHead n).mem = s.mem ∧
    (s.attachHead n).tally.values = s.tally.values ∧ (s.attachHead n).tens = s.tens ∧
    (s.attachHead n).cmd.nextId = s.cmd.nextId ∧ (s.attachHead n).cmd.lastServed = s.cmd.lastServed ∧
    (s.attachHead n).cmd.lastDispatch = s.cmd.lastDispatch ∧
    (s.attachHead n).cmd.tick = s.cmd.tick ∧ (s.attachHead n).cmd.cmds.length = s.cmd.cmds.length := by
  unfold State.attachHead
  split
  · simp
  · split
    · simp
    · split
      · simp [State.updCmd]
      · rename_i c _ _ _
        generalize c.waits = l
        suffices h : ∀ u : State, (u.regs = s.regs ∧ u.mem = s.mem ∧ u.tally.values = s.tally.values ∧ u.tens = s.tens ∧ u.cmd.nextId = s.cmd.nextId ∧ u.cmd.lastServed = s.cmd.lastServed ∧ u.cmd.lastDispatch = s.cmd.lastDispatch ∧ u.cmd.tick = s.cmd.tick ∧ u.cmd.cmds.length = s.cmd.cmds.length) →
            ((l.foldl (fun s i => s.tallyWait (c.waiter i)) u).regs = s.regs ∧ (l.foldl (fun s i => s.tallyWait (c.waiter i)) u).mem = s.mem ∧ (l.foldl (fun s i => s.tallyWait (c.waiter i)) u).tally.values = s.tally.values ∧ (l.foldl (fun s i => s.tallyWait (c.waiter i)) u).tens = s.tens ∧ (l.foldl (fun s i => s.tallyWait (c.waiter i)) u).cmd.nextId = s.cmd.nextId ∧ (l.foldl (fun s i => s.tallyWait (c.waiter i)) u).cmd.lastServed = s.cmd.lastServed ∧ (l.foldl (fun s i => s.tallyWait (c.waiter i)) u).cmd.lastDispatch = s.cmd.lastDispatch ∧ (l.foldl (fun s i => s.tallyWait (c.waiter i)) u).cmd.tick = s.cmd.tick ∧ (l.foldl (fun s i => s.tallyWait (c.waiter i)) u).cmd.cmds.length = s.cmd.cmds.length) by
          exact h _ (by simp [State.updCmd])
        induction l with
        | nil => exact fun u h => h
        | cons i l ih =>
          intro u h
          refine ih _ ?_
          obtain ⟨a1, a2, a3, a4, a5, a6, a7, a8, a9⟩ := headerWait_fields u c i
          obtain ⟨b1, b2, b3, b4, b5, b6, b7, b8, b9⟩ := h
          exact ⟨a1.trans b1, a2.trans b2, a3.trans b3, a4.trans b4, a5.trans b5, a6.trans b6, a7.trans b7, a8.trans b8, a9.trans b9⟩

/-- Attaching the waits of a command leaves every other command. -/
theorem waits_foldl_cmdOf {c : Cmd} {m : Nat} (hm : m ≠ c.id) (l : List Nat) (s : State) :
    (l.foldl (fun s i => s.tallyWait (c.waiter i)) s).cmdOf m = s.cmdOf m := by
  induction l generalizing s with
  | nil => rfl
  | cons i l ih =>
    rw [List.foldl_cons, ih]
    unfold State.tallyWait
    split
    · exact State.cmdOf_updCmd_other (fun _ => rfl) hm
    · rfl

/-- A command that is no longer waiting to be validated is left as it is. -/
theorem attachHead_cmdOf {s : State} (hs : s.Sound) {r m : Nat} {d : Cmd} (h : s.cmdOf m = some d)
    (hp : d.phase ≠ .validated) : (s.attachHead r).cmdOf m = some d := by
  unfold State.attachHead
  split
  · exact h
  · rename_i c hc
    split
    · exact h
    · rename_i hv
      have hcm := hs.cmdOf_mem (List.mem_of_find?_eq_some hc)
      have hm : m ≠ c.id := by
        rintro rfl
        rw [hcm] at h; cases h; simp at hv; exact hp hv
      split
      · exact (State.cmdOf_updCmd_other (by intro _; rfl) hm).trans h
      · dsimp only
        exact (waits_foldl_cmdOf hm _ _).trans ((State.cmdOf_updCmd_other (by intro _; rfl) hm).trans h)

end Sys2Proof.Machine
end

