-- ==== Sys2Proof/Laws/Fabric.lean ====
section
/-! SUPPORT. What sending over the links leaves as it is, and what the operations of a tally do. -/

set_option Elab.async false

namespace Sys2Proof.Machine

/-- Two states that differ at most in the links and their traffic counters: in `fab` and `regs`. -/
structure SameButLinks (s t : State) : Prop where
  pending : t.pending = s.pending
  fresh : t.freeCtr = s.freeCtr
  time : t.time = s.time
  node : t.node = s.node
  mem : t.mem = s.mem
  cmd : t.cmd = s.cmd
  tally : t.tally = s.tally
  gcl : t.gcl = s.gcl
  tens : t.tens = s.tens
  imp : t.imp = s.imp
  core : t.core = s.core
  attn : t.attn = s.attn
  coll : t.coll = s.coll
  feed : t.feed = s.feed
  boot : t.boot = s.boot
  pwr : t.pwr = s.pwr
  obs : t.obs = s.obs
  regs : ∀ o, (∀ n, o ≠ Reg.linkTraffic n) → t.reg o = s.reg o

theorem SameButLinks.refl (s : State) : SameButLinks s s := ⟨rfl, rfl, rfl, rfl, rfl, rfl, rfl, rfl, rfl, rfl, rfl, rfl, rfl, rfl, rfl, rfl, rfl, fun _ _ => rfl⟩

theorem SameButLinks.trans {s t u : State} (a : SameButLinks s t) (b : SameButLinks t u) : SameButLinks s u :=
  ⟨b.1.trans a.1, b.2.trans a.2, b.3.trans a.3, b.4.trans a.4, b.5.trans a.5, b.6.trans a.6, b.7.trans a.7, b.8.trans a.8,
    b.9.trans a.9, b.10.trans a.10, b.11.trans a.11, b.12.trans a.12, b.13.trans a.13, b.14.trans a.14, b.15.trans a.15,
    b.16.trans a.16, b.17.trans a.17, fun o h => (b.18 o h).trans (a.18 o h)⟩

variable {s : State}

/-- A change of the links alone. -/
theorem SameButLinks.fab (f : FabSt) : SameButLinks s { s with fab := f } := ⟨rfl, rfl, rfl, rfl, rfl, rfl, rfl, rfl, rfl, rfl, rfl, rfl, rfl, rfl, rfl, rfl, rfl, fun _ _ => rfl⟩

theorem countTraffic_same (n b : Nat) (x : Bool) : SameButLinks s (s.countTraffic n b x) := by
  unfold State.countTraffic
  cases x <;>
  exact (SameButLinks.fab _).trans ⟨rfl, rfl, rfl, rfl, rfl, rfl, rfl, rfl, rfl, rfl, rfl, rfl, rfl, rfl, rfl, rfl, rfl,
    fun o h => State.reg_setFld_other (h _)⟩

/-- A fold of steps that change only the links and their traffic counters. -/
theorem SameButLinks.foldl {α : Type} {l : List α} {f : State → α → State} (hf : ∀ u a, SameButLinks u (f u a)) :
    ∀ s, SameButLinks s (l.foldl f s) := by
  induction l with
  | nil => exact fun s => .refl s
  | cons a l ih => exact fun s => (hf s a).trans (ih _)

theorem updLink_same (n : Nat) (f : LinkSt → LinkSt) : SameButLinks s (s.updLink n f) := SameButLinks.fab _

theorem blocksOut_same (n : Nat) (fs : List IfpFrame) : SameButLinks s (s.blocksOut n fs) := by
  unfold State.blocksOut
  exact (updLink_same n _).trans (SameButLinks.foldl (fun _ _ => (updLink_same n _).trans (updLink_same n _)) _)

theorem linkPut_same (n : Nat) (fs : List IfpFrame) : SameButLinks s (s.linkPut n fs) := by
  unfold State.linkPut
  have put : ∀ u : State, SameButLinks u (fs.foldl (fun s f =>
      ({ s with fab := { s.fab with out := s.fab.out ++ [(n, f)] } }).countTraffic n f.payload.length true) u) :=
    SameButLinks.foldl fun _ _ => (SameButLinks.fab _).trans (countTraffic_same _ _ _)
  split
  · exact (blocksOut_same n fs).trans (put _)
  · exact (SameButLinks.fab _).trans (put _)

theorem linkSend_same (n : Nat) (f : IfpFrame) : SameButLinks s (s.linkSend n f) := by
  unfold State.linkSend
  dsimp only
  split
  · exact linkPut_same _ _
  · exact SameButLinks.fab _

theorem launch_same (f : IfpFrame) : SameButLinks s (s.launch f).1 := by
  unfold State.launch
  split
  · exact linkSend_same _ _
  · exact .refl s

theorem ackCarried_same (node cls : Nat) : SameButLinks s (s.ackCarried node cls) := by
  unfold State.ackCarried
  split
  · exact SameButLinks.fab _
  · exact .refl s

/-- Sending a frame changes only the links and their traffic counters. -/
theorem ifpSend_same (node cls typ msgId : Nat) (last : Bool) (addr aux : Nat) (d : List Byte) (p : IfpPurpose) :
    SameButLinks s (s.ifpSend node cls typ msgId last addr aux d p) := by
  unfold State.ifpSend State.ifpSendVia
  exact ((launch_same _).trans (SameButLinks.fab _)).trans (ackCarried_same _ _)

/-- Sending a message of one frame changes only the links and their traffic counters. -/
theorem ifpMessage_same (node cls typ addr aux : Nat) (d : List Byte) (p : IfpPurpose) :
    SameButLinks s (s.ifpMessage node cls typ addr aux d p) := by
  unfold State.ifpMessage
  exact (SameButLinks.fab _).trans (ifpSend_same _ _ _ _ _ _ _ _ _)

/-- Sending the frames of a long message. -/
theorem ifpFrames_same (s : State) (node cls typ m : Nat) (p : IfpPurpose) (k : Nat) (addr : Nat) (d : List Byte) :
    SameButLinks s (State.ifpFrames node cls typ m p k s addr d) := by
  induction k generalizing s addr d with
  | zero => exact .refl s
  | succ k ih =>
    unfold State.ifpFrames
    split
    · exact ifpSend_same _ _ _ _ _ _ _ _ _
    · exact (ifpSend_same _ _ _ _ _ _ _ _ _).trans (ih _ _ _)

/-- A WRITE of bytes to another node changes only the links and their traffic counters here. -/
theorem ifpWrite_same (node addr : Nat) (d : List Byte) (p : IfpPurpose) : SameButLinks s (s.ifpWrite node addr d p) := by
  unfold State.ifpWrite
  exact (SameButLinks.fab _).trans (ifpFrames_same _ _ _ _ _ _ _ _ _)

/-- Requesting a read of another node. -/
theorem ifpRead_same (node addr n : Nat) (p : IfpPurpose) : SameButLinks s (s.ifpRead node addr n p) := by
  unfold State.ifpRead
  exact ((SameButLinks.fab _).trans (ifpSend_same _ _ _ _ _ _ _ _ _)).trans (SameButLinks.fab _)

/-- Notifying the owner of a wait leaves memory, tallies, tensors and every register but the links' counters. -/
theorem notify_fields (w : Waiter) (x : Nat) : (s.notify w x).tally = s.tally ∧ (s.notify w x).mem = s.mem ∧
    (s.notify w x).tens = s.tens ∧ (∀ o, (∀ n, o ≠ Reg.linkTraffic n) → (s.notify w x).reg o = s.reg o) ∧
    (∀ m, ((s.notify w x).cmdOf m).isSome = (s.cmdOf m).isSome) := by
  have upd : ∀ (k : Nat) (f : Cmd → Cmd), (∀ c, (f c).id = c.id) → ∀ m, ((s.updCmd k f).cmdOf m).isSome = (s.cmdOf m).isSome := by
    intro k f hf m
    by_cases h : m = k
    · subst h
      cases e : s.cmdOf m with
      | none =>
        have : (s.updCmd m f).cmdOf m = none := by
          simp only [State.cmdOf, State.updCmd, List.find?_eq_none] at e ⊢
          intro d hd
          obtain ⟨c, hc, rfl⟩ := List.mem_map.1 hd
          have := e c hc
          split <;> simp_all
        rw [this]
      | some c => rw [State.cmdOf_updCmd (hf c) e]; rfl
    · rw [State.cmdOf_updCmd_other hf h]
  unfold State.notify
  split
  · exact ⟨rfl, rfl, rfl, fun _ _ => rfl, upd _ _ (fun _ => rfl)⟩
  · exact ⟨rfl, rfl, rfl, fun _ _ => rfl, upd _ _ (fun _ => rfl)⟩
  · rename_i node k _
    have h := ifpMessage_same (s := s) node 1 6 0 0 (leBytes 2 k) .plain
    exact ⟨h.tally, h.mem, h.tens, h.regs, fun m => by simp [State.cmdOf, h.cmd]⟩

/-- Presenting a value leaves values, memory, tensors and every register but the links' counters. -/
theorem present_fields (i x : Nat) (l : List Waiter) (s : State) : (State.present i x l s).tally.values = s.tally.values ∧
    (State.present i x l s).mem = s.mem ∧ (State.present i x l s).tens = s.tens ∧
    (∀ o, (∀ n, o ≠ Reg.linkTraffic n) → (State.present i x l s).reg o = s.reg o) ∧
    (∀ m, ((State.present i x l s).cmdOf m).isSome = (s.cmdOf m).isSome) := by
  induction l generalizing s with
  | nil => exact ⟨rfl, rfl, rfl, fun _ _ => rfl, fun _ => rfl⟩
  | cons w l ih =>
    unfold State.present
    split
    · obtain ⟨a1, a2, a3, a4, a5⟩ := ih ({ s with tally := { s.tally with waiters := s.tally.waiters.erase w } }.notify w x)
      obtain ⟨b1, b2, b3, b4, b5⟩ := notify_fields (s := { s with tally := { s.tally with waiters := s.tally.waiters.erase w } }) w x
      exact ⟨by rw [a1, b1], by rw [a2, b2], by rw [a3, b3], fun o h => by rw [a4 o h, b4 o h]; rfl, fun m => by rw [a5, b5]; rfl⟩
    · exact ih s

/-- How often a wait is attached after a value is presented to some of the waits: a met one once less for each time it
stands among them. -/
theorem present_count (i x : Nat) (l : List Waiter) (s : State) (w : Waiter) :
    (State.present i x l s).tally.waiters.count w =
      if w.tally = i ∧ w.metBy x = true then s.tally.waiters.count w - l.count w else s.tally.waiters.count w := by
  induction l generalizing s with
  | nil => simp [State.present]
  | cons v l ih =>
    unfold State.present
    split
    · rename_i hv
      rw [ih, (notify_fields v x).1]
      dsimp only
      by_cases e : v = w
      · subst e
        rw [if_pos hv, if_pos hv, List.count_erase_self, List.count_cons_self]; omega
      · rw [List.count_erase_of_ne (Ne.symm e), List.count_cons_of_ne e]
    · rename_i hv
      rw [ih]
      by_cases e : v = w
      · subst e; rw [if_neg hv, if_neg hv]
      · rw [List.count_cons_of_ne e]

end Sys2Proof.Machine
end

