-- ==== Sys2Proof/WellFormed.lean ====
section
/-! DEFINITION. Which commands are well formed: operands within the ranges the spec gives them. Meanings are total and
answer on every operand; the checks say which terms stand for something the device can meet. -/

namespace Sys2Proof

/-- Whether what moves exists: a part of a logical core, or one of the pages of 384 GiB. -/
def MoveKind.inMachine : MoveKind → Bool
  | .unit core part => decide (core < 4096 ∧ part < 4096)
  | .page p => decide (p < 0x6000000)

/-- The checks, by name. -/
inductive Check where
  /-- a ring number is below 16 (R29) -/
  | ring
  /-- a command has header waits 0 and 1 (R37) -/
  | headerWait
  /-- a core number is below 4,096 (R17); what moves exists -/
  | core
  /-- a core has four arrays (R95) -/
  | array
  /-- a rank is below 1,024 -/
  | rank
  /-- a torus axis is 1 to 4 (R239) -/
  | axis
  /-- a register value fits its register (R6) -/
  | word64
  /-- a stream is 0 to 3 (R336) -/
  | stream
  /-- a manifest entry has 32 bytes (R336) -/
  | manifestEntry
  /-- a grove is 0 to 3 (R12) -/
  | grove
  /-- a Feeder has 64 workers -/
  | worker
  /-- a proof source is one of R422's five -/
  | proofSource
  /-- a kind of deferred work is 0 to 2 (R259) -/
  | testKind
  /-- a copse is below 256 (R12) -/
  | copse
  /-- a channel is below 256 (R14) -/
  | channel
  /-- a stack is below 16 (R14) -/
  | stack
  /-- there are four seams of eight ports (R13) -/
  | seamPort
  /-- a link is below 64 (R285) -/
  | link
  /-- a D128 block has 272 bytes (R290) -/
  | block
  /-- a block number has 10 bits (R290) -/
  | blockNumber
  /-- the frame carries the TYPE of its row (Table 11.6) -/
  | frameType
  /-- a node number has 16 bits (R281) -/
  | node
  /-- a class is 0 to 2 (Table 11.5) -/
  | frameClass
  /-- a queue pair is below 256 (R306) -/
  | queuePair
  /-- a PSN has 24 bits (R305) -/
  | psn
  /-- a GCL flit has 256 bytes (R367) -/
  | flit
  /-- a flit number has 10 bits (R367) -/
  | flitNumber
  /-- a GCL tag has 12 bits (Table 15.6) -/
  | gclTag
  /-- a reset cause is 1 to 8 -/
  | resetCause
  /-- an image is firmware or a profile (R395) -/
  | imageKind
  /-- a register access is 4 or 8 aligned bytes (R280) -/
  | registerAccess
  deriving DecidableEq, Repr

/-- The checks of a command, and whether it passes each. -/
def Instr.checks : Instr → List (Check × Bool)
  | .doorbell ring _ => [(.ring, decide (ring < 16))]
  | .ringEnable ring _ => [(.ring, decide (ring < 16))]
  | .ringDisable ring _ => [(.ring, decide (ring < 16))]
  | .replyHeadWrite ring _ => [(.ring, decide (ring < 16))]
  | .headerValidation => []
  | .waitNotice notices => [(.headerWait, notices.all (fun x => decide (x.2 < 2)))]
  | .dispatch => []
  | .waitLimit _ => []
  | .completionReport _ => []
  | .nop _ => []
  | .identify _ => []
  | .readReg _ => []
  | .writeReg _ => []
  | .disableFunction _ => []
  | .drainLimit _ => []
  | .enableFunction _ => []
  | .fullReset _ => []
  | .commandResetDelay => []
  | .copy _ _ => []
  | .fill _ _ => []
  | .copy2d _ _ => []
  | .checksum _ _ => []
  | .declareTensor _ => []
  | .releaseTensor _ => []
  | .declareOp _ => []
  | .impose _ _ => []
  | .queryImposition _ => []
  | .migrate _ => []
  | .reshard _ => []
  | .readIdle _ => []
  | .matmul _ _ => []
  | .matmulGather _ _ => []
  | .matmulPacked _ _ => []
  | .setMatrixMode _ => []
  | .shadowLoad core array _ _ _ _ => [(.core, decide (core < 4096)), (.array, decide (array < 4))]
  | .swap core tiles _ _ => [(.core, decide (core < 4096)), (.array, tiles.all (fun x => decide (x < 4)))]
  | .rippleFront core array _ _ _ _ => [(.core, decide (core < 4096)), (.array, decide (array < 4))]
  | .vectorProgram _ _ => []
  | .ld core _ _ _ => [(.core, decide (core < 4096))]
  | .st core _ _ _ => [(.core, decide (core < 4096))]
  | .ldi core _ _ _ => [(.core, decide (core < 4096))]
  | .add core _ _ _ => [(.core, decide (core < 4096))]
  | .sub core _ _ _ => [(.core, decide (core < 4096))]
  | .mul core _ _ _ => [(.core, decide (core < 4096))]
  | .fma core _ _ _ => [(.core, decide (core < 4096))]
  | .min core _ _ _ => [(.core, decide (core < 4096))]
  | .max core _ _ _ => [(.core, decide (core < 4096))]
  | .abs core _ _ _ => [(.core, decide (core < 4096))]
  | .neg core _ _ _ => [(.core, decide (core < 4096))]
  | .cmplt core _ _ _ => [(.core, decide (core < 4096))]
  | .sel core _ _ _ => [(.core, decide (core < 4096))]
  | .sfu core _ _ _ => [(.core, decide (core < 4096))]
  | .rand core _ _ _ => [(.core, decide (core < 4096))]
  | .randu core _ _ _ => [(.core, decide (core < 4096))]
  | .vectorNop core _ _ _ => [(.core, decide (core < 4096))]
  | .rowStats _ _ => []
  | .gatedAct _ _ => []
  | .loadSeedTable _ => []
  | .seedBankSwitch _ => []
  | .seedGenerators _ => []
  | .attnForward _ _ => []
  | .attnBackward _ _ => []
  | .walkEnd _ => []
  | .galleyWaiterResume _ _ => []
  | .galleyAppend _ _ => []
  | .galleyEdit _ => []
  | .galleyPublish _ => []
  | .verifyTree _ _ => []
  | .ringAttention _ _ _ => []
  | .backwardInput _ _ => []
  | .backwardWeight _ _ => []
  | .deferredPass _ => []
  | .wgradReaderResume _ => []
  | .offload _ _ => []
  | .saveWriteResume _ => []
  | .prefetch _ _ => []
  | .setStepSize _ => []
  | .update _ _ => []
  | .verdict _ rank _ _ => [(.rank, decide (rank < 1024))]
  | .peerLimit _ => []
  | .retireEdition _ => []
  | .allReduce _ _ => []
  | .reduceScatter _ _ => []
  | .allGather _ _ => []
  | .broadcast _ _ => []
  | .allToAll _ _ => []
  | .permute _ _ => []
  | .collectiveStart _ _ => []
  | .chunk _ => []
  | .reRequest axis _ _ _ _ _ rank _ _ => [(.axis, decide (1 ≤ axis ∧ axis ≤ 4)), (.rank, decide (rank < 1024))]
  | .done axis _ rank _ => [(.axis, decide (1 ≤ axis ∧ axis ≤ 4)), (.rank, decide (rank < 1024))]
  | .commit axis _ _ => [(.axis, decide (1 ≤ axis ∧ axis ≤ 4))]
  | .fail axis _ _ => [(.axis, decide (1 ≤ axis ∧ axis ≤ 4))]
  | .peerSilent _ => []
  | .collAbort v => [(.word64, decide (v < 2 ^ 64))]
  | .markWaitEnd _ => []
  | .feedOpen _ => []
  | .feedEpoch _ => []
  | .feedRows _ _ => []
  | .decodeDone stream _ entry _ _ => [(.stream, decide (stream < 4)), (.manifestEntry, decide (entry.length = 32))]
  | .deadline stream => [(.stream, decide (stream < 4))]
  | .feedSkipLog _ => []
  | .feedClose _ => []
  | .workerFault grove worker => [(.grove, decide (grove < 4)), (.worker, decide (worker < 64))]
  | .workerBypass grove v => [(.grove, decide (grove < 4)), (.word64, decide (v < 2 ^ 64))]
  | .conv _ _ => []
  | .convGrouped _ _ => []
  | .globalAvgPool _ _ => []
  | .marginLayer _ _ _ => []
  | .marginBypass v => [(.word64, decide (v < 2 ^ 64))]
  | .tallyAdd _ => []
  | .tallySet _ => []
  | .tallyWaitGe _ => []
  | .tallyWaitEq _ => []
  | .tallyLimit _ => []
  | .tallyRead _ => []
  | .proofNow _ => []
  | .proofAtTime _ => []
  | .proofFire sources => [(.proofSource, sources.all (fun x => decide (x < 5)))]
  | .proofPinEdge => []
  | .proofPullEnd => []
  | .proofRead _ => []
  | .proofRelease => []
  | .countersRead _ => []
  | .arraySelfTest _ _ => []
  | .hbmRecalAll _ _ => []
  | .hbmRecalChannel _ _ => []
  | .linkRetrainAll _ _ => []
  | .linkRetrainOne _ => []
  | .sweepControl _ => []
  | .idleBoundary => []
  | .deferredWorkEnd kind _ _ => [(.testKind, decide (kind < 3))]
  | .attest _ => []
  | .getCertificate _ => []
  | .debugUnlock _ _ => []
  | .stageImage _ _ _ => []
  | .activateImage _ _ => []
  | .sweepEvent => []
  | .sweepMoveEnd copse => [(.copse, decide (copse < 256))]
  | .slotTestEnd copse _ => [(.copse, decide (copse < 256))]
  | .placementMove kind => [(.core, kind.inMachine)]
  | .placementMoveEnd kind => [(.core, kind.inMachine)]
  | .impositionDrained => []
  | .pendingPublication _ _ => []
  | .routerFault copse => [(.copse, decide (copse < 256))]
  | .mapOutRequest channel => [(.channel, decide (channel < 256))]
  | .refreshSubslot => []
  | .stackTempRead stack _ => [(.stack, decide (stack < 16))]
  | .junctionRead grove _ => [(.grove, decide (grove < 4))]
  | .powerCheck _ _ => []
  | .aclkCapWrite v => [(.word64, decide (v < 2 ^ 64))]
  | .aclkRateChange => []
  | .gateEntry copse => [(.copse, decide (copse < 256))]
  | .retainEntry copse => [(.copse, decide (copse < 256))]
  | .wake copse => [(.copse, decide (copse < 256))]
  | .wakeComplete copse => [(.copse, decide (copse < 256))]
  | .memoryControllerReset channel _ => [(.channel, decide (channel < 256))]
  | .seamReset port => [(.seamPort, decide (port < 32))]
  | .d128DataBlock n b => [(.link, decide (n < 64)), (.block, decide (b.length = 272))]
  | .d128IdleBlock n ack _ => [(.link, decide (n < 64)), (.blockNumber, decide (ack < 1024))]
  | .d128NackBlock n seq => [(.link, decide (n < 64)), (.blockNumber, decide (seq < 1024))]
  | .lossOfSignal n => [(.link, decide (n < 64))]
  | .linkRetrainTimer n => [(.link, decide (n < 64))]
  | .linkTrained n _ => [(.link, decide (n < 64))]
  | .write n f _ => [(.link, decide (n < 64)), (.frameType, decide (f.typ = 1))]
  | .readReq n f _ => [(.link, decide (n < 64)), (.frameType, decide (f.typ = 2))]
  | .readResp n f _ => [(.link, decide (n < 64)), (.frameType, decide (f.typ = 3))]
  | .ifpTallyAdd n f _ => [(.link, decide (n < 64)), (.frameType, decide (f.typ = 4))]
  | .watch n f _ => [(.link, decide (n < 64)), (.frameType, decide (f.typ = 5))]
  | .watchNotify n f _ => [(.link, decide (n < 64)), (.frameType, decide (f.typ = 6))]
  | .watchCancel n f _ => [(.link, decide (n < 64)), (.frameType, decide (f.typ = 7))]
  | .sched n f _ => [(.link, decide (n < 64)), (.frameType, decide (f.typ = 8))]
  | .ifpAck n f _ => [(.link, decide (n < 64)), (.frameType, decide (f.typ = 9))]
  | .ifpNack n f _ => [(.link, decide (n < 64)), (.frameType, decide (f.typ = 10))]
  | .ifpError n f _ => [(.link, decide (n < 64)), (.frameType, decide (f.typ = 11))]
  | .cnp n f _ => [(.link, decide (n < 64)), (.frameType, decide (f.typ = 12))]
  | .control n f _ _ => [(.link, decide (n < 64)), (.frameType, decide (f.typ = 13))]
  | .ackTimer node cls => [(.node, decide (node < 65536)), (.frameClass, decide (cls < 3))]
  | .retransmissionTimeout node cls _ => [(.node, decide (node < 65536)), (.frameClass, decide (cls < 3))]
  | .noRouteTimeout node cls => [(.node, decide (node < 65536)), (.frameClass, decide (cls < 3))]
  | .rateIncrease node cls => [(.node, decide (node < 65536)), (.frameClass, decide (cls < 3))]
  | .pauseFrame n => [(.link, decide (n < 64))]
  | .send i psn _ _ _ => [(.queuePair, decide (i < 256)), (.psn, decide (psn < 2 ^ 24))]
  | .rdmaWrite i psn _ _ _ _ _ _ => [(.queuePair, decide (i < 256)), (.psn, decide (psn < 2 ^ 24))]
  | .rdmaReadRequest i psn _ _ _ _ => [(.queuePair, decide (i < 256)), (.psn, decide (psn < 2 ^ 24))]
  | .rdmaReadResponse i _ _ _ => [(.queuePair, decide (i < 256))]
  | .roceAcknowledge i psn _ => [(.queuePair, decide (i < 256)), (.psn, decide (psn < 2 ^ 24))]
  | .roceAckTimeout i => [(.queuePair, decide (i < 256))]
  | .qpReady i => [(.queuePair, decide (i < 256))]
  | .ptpSync _ _ _ _ _ _ => []
  | .ptpDelayResponse _ _ _ _ _ => []
  | .gclDataFlit b => [(.flit, decide (b.length = 256))]
  | .gclNackFlit seq => [(.flitNumber, decide (seq < 1024))]
  | .rdNc tag _ _ => [(.gclTag, decide (tag < 4096))]
  | .rdShared tag _ => [(.gclTag, decide (tag < 4096))]
  | .rdOwn tag _ => [(.gclTag, decide (tag < 4096))]
  | .wrNc tag _ _ => [(.gclTag, decide (tag < 4096))]
  | .wrPosted _ _ => []
  | .wrBack tag _ _ => [(.gclTag, decide (tag < 4096))]
  | .evictClean tag _ => [(.gclTag, decide (tag < 4096))]
  | .snpAck tag => [(.gclTag, decide (tag < 4096))]
  | .snpData tag _ => [(.gclTag, decide (tag < 4096))]
  | .cmp tag => [(.gclTag, decide (tag < 4096))]
  | .cmpData tag _ => [(.gclTag, decide (tag < 4096))]
  | .err tag _ => [(.gclTag, decide (tag < 4096))]
  | .gclDown _ => []
  | .gclRetrained _ => []
  | .gclLossTimeout => []
  | .gclIrqAck v => [(.word64, decide (v < 2 ^ 64))]
  | .resetCtrl v => [(.word64, decide (v < 2 ^ 64))]
  | .watchdogRestart => []
  | .watchdog => []
  | .powerOn => []
  | .input => []
  | .powerLoss => []
  | .resetNAssert => []
  | .fullResetBegin cause => [(.resetCause, decide (1 ≤ cause ∧ cause ≤ 8))]
  | .resetRelease => []
  | .startUp _ => []
  | .bootRomStage _ _ => []
  | .verificationStage _ => []
  | .falosteoStage _ _ => []
  | .pufStage _ _ => []
  | .selfTestStage _ _ _ _ => []
  | .hbmTrainingStage _ _ => []
  | .linkTrainingStage _ _ => []
  | .gclTrainingStage _ _ => []
  | .colophonId => []
  | .colophonStatus => []
  | .colophonNonce => []
  | .colophonUnlock _ => []
  | .colophonReset => []
  | .colophonRd _ => []
  | .colophonWr _ _ => []
  | .colophonMr _ _ => []
  | .colophonProof => []
  | .colophonPr _ _ => []
  | .colophonLoad kind _ _ _ => [(.imageKind, decide (kind < 2))]
  | .colophonActivate kind _ => [(.imageKind, decide (kind < 2))]
  | .colophonOverflow => []
  | .smbusBlockWrite _ _ => []
  | .smbusProcessCall _ => []
  | .tapReset => []
  | .idcode => []
  | .extest => []
  | .samplePreload _ _ => []
  | .bypass => []
  | .arithFlagsClear v => [(.word64, decide (v < 2 ^ 64))]
  | .readClear offset size => [(.registerAccess, decide ((size = 4 ∨ size = 8) ∧ offset % size = 0))]
  | .registerWrite offset size value => [(.registerAccess, decide ((size = 4 ∨ size = 8) ∧ offset % size = 0)), (.word64, decide (value < 2 ^ (8 * size)))]
  | .inputInRange => []
  | .resetNDeassert => []
  | .seamPortRetrained port => [(.seamPort, decide (port < 32))]
  | .memoryControllerRetrained channel => [(.channel, decide (channel < 256))]
  | .priorityFlowControl n _ => [(.link, decide (n < 64))]
  | .followUp _ _ _ _ _ => []
  | .frameDrops n _ => [(.link, decide (n < 64))]
  | .nakInvalidRequest i psn => [(.queuePair, decide (i < 256)), (.psn, decide (psn < 2 ^ 24))]

/-- The checks that refuse a command. -/
def Instr.refusedBy (i : Instr) : List Check := i.checks.filterMap fun c => if c.2 then none else some c.1

/-- Whether a command is well formed. -/
def Instr.wf (i : Instr) : Bool := i.refusedBy.isEmpty

end Sys2Proof
end

