-- ==== Sys2Proof/Tests/Slice0.lean ====
section
/-! SUPPORT. Tests: an ill-formed command for each check, single steps whose results the spec gives, and for every
statement with hypotheses a concrete state and operands that meet them. -/

set_option Elab.async false

namespace Sys2Proof.Tests

open Sys2Proof Sys2Proof.Machine

/-! ### Small states -/

/-- A device that has started: power on, no reset held, start-up complete. -/
def up : State :=
  { State.reset with
    pwr := { PwrSt.reset with held := false, inRange := true, pinLow := false }
    boot := { BootSt.reset with next := 10 } }

/-- Bytes with a field written in. -/
def field (p : List Byte) (x : Nat × Nat × Nat) : List Byte := p.take x.1 ++ leBytes x.2.1 x.2.2 ++ p.drop (x.1 + x.2.1)

/-- A packet of 160 bytes with its opcode and fields (offset, bytes, value). -/
def packet (op : Nat) (fields : List (Nat × Nat × Nat)) : List Byte := ((0, 2, op) :: fields).foldl field (List.replicate 160 0)

/-- Command 0 of ring 0, dispatched. -/
def cmd (op : Nat) (fields : List (Nat × Nat × Nat)) (extra : List Nat := []) : Cmd :=
  { id := 0, ring := 0, pkt := packet op fields, tagHeld := true, phase := .dispatched, met := [], noticed := [], stamp := 1,
    latch := ⟨1, 0, 0, [], extra⟩, status := 0, detail := 0, result := 0, time := 0, aux := [], buf := [] }

/-- The command waits, with what `aux` says. -/
def parked (c : Cmd) (aux : List Nat) : Cmd := { c with phase := .waiting, aux := aux }

/-- The command has ended with a status. -/
def ended (c : Cmd) (status : Nat) : Cmd := { c with phase := .done, status := status }

/-- A state with one command in flight. -/
def one (s : State) (c : Cmd) : State := { s with cmd := { s.cmd with cmds := [c], nextId := 1, tick := 1 } }

/-- A tensor of rank 2 on module, with no data. -/
def tensor (h fmt role rows width : Nat) : Tensor :=
  { handle := h, fmt := fmt, role := role, dims := [rows, width], blockAxis := 0, cutAxis := 0, cutTorus := 0, slots := 0,
    layer := 0, microbatch := 0, scaleOf := none, elemOf := none, placed := true, pages := [], spilled := false, data := [],
    editions := [], updates := 0, ord := 0, opt := OptState.none, next := none, marks := [], save := .free, image := none,
    record := [], wgCount := 0, wgBase := 0, releasing := none, freeing := none }

/-- The next state that an outcome answers. -/
def next? (o : Host.Outcome State Fault Refusal) : Option State :=
  match o with
  | .next t => some t
  | _ => none

/-! ### Predicates by evaluation -/

theorem up_of {s : State} (h : (s.pwr.powered && ! s.pwr.held) = true) : s.Up := by
  simpa [State.Up] using h

theorem ready_of {s : State} {n op : Nat} {c : Cmd} (h : decide (s.cmdOf n = some c ∧ c.phase = .dispatched ∧ c.opcode = op ∧
    s.mayStart c = true ∧ s.imp.draining = none) = true) : s.Ready n op c := by
  obtain ⟨a, b, d, e, f⟩ := of_decide_eq_true h
  exact ⟨a, b, d, e, by simp [f]⟩

theorem waits_of {s : State} {n : Nat} {c : Cmd} (h : decide (s.cmdOf n = some c ∧ c.phase = .waiting ∧
    s.imp.draining = none) = true) : s.Waits n c := by
  obtain ⟨a, b, f⟩ := of_decide_eq_true h
  exact ⟨a, b, by simp [f]⟩

theorem begins_of {s : State} {c : Cmd} (h : decide (s.holdReason c = none ∧ s.busyCores = [] ∧
    ∀ r ∈ s.localRanges c, regionOf r.1 ≠ .window) = true) : s.Begins c := by
  obtain ⟨a, b, d⟩ := of_decide_eq_true h
  refine ⟨a, ?_⟩
  have e : ∀ k, s.usesCore c k = false := by
    intro k
    simp only [State.usesCore, b, List.contains_nil, Bool.and_false, Bool.false_or, List.any_eq_false]
    intro r hr
    simp [d r hr]
  simp [State.usesFailed, e]

/-- The same where units are placed, with no copse retiring. -/
theorem begins_placed {s : State} {c : Cmd} (h : (decide (s.holdReason c = none) &&
    (List.range 256).all fun k => decide (s.fld (Reg.copseState k) 31 28 ≠ 4)) = true) : s.Begins c := by
  simp only [Bool.and_eq_true, decide_eq_true_eq, List.all_eq_true, List.mem_range] at h
  obtain ⟨a, b⟩ := h
  refine ⟨a, ?_⟩
  simp only [State.usesFailed, Bool.and_eq_false_iff, List.any_eq_false, List.mem_range]
  refine .inr fun k hk => ?_
  have := b (k / 16) (by omega)
  simp [State.slotFailed, this]

theorem clean_of {s : State} (h : decide (s.mem.poison = [] ∧ s.mem.flaws = []) = true) : s.Clean :=
  let ⟨a, b⟩ := of_decide_eq_true h
  ⟨a, b⟩

theorem quiet_good : Env.Quiet Env.good := ⟨rfl, rfl, rfl, rfl, rfl⟩

theorem sound_of {s : State} (h : (Memory.wf s.mem && Sparse.wf (fun k => BitVec.ofNat 64 (regReset k)) s.regs &&
    Sparse.wf (fun _ => (0 : Word64)) s.tally.values && Sparse.wf flashDefault s.boot.flash &&
    decide (s.cmd.rings.length = 16 ∧ s.fab.links.length = 64) &&
    decide ((s.cmd.cmds.map (·.id) ++ [s.cmd.nextId]).Pairwise (· < ·)) &&
    Sparse.wf (fun _ => (0 : BitVec 32)) s.core.vregs && s.tens.all fun t => Sparse.wf codeDefault t.data) = true) : s.Sound := by
  simp only [Bool.and_eq_true, decide_eq_true_eq, List.all_eq_true] at h
  exact ⟨h.1.1.1.1.1.1.1, h.1.1.1.1.1.1.2, h.1.1.1.1.1.2, h.1.1.1.1.2, h.1.1.1.2.1, h.1.1.1.2.2, h.1.1.2, h.1.2, h.2⟩

/-- Registers set, in order. -/
def regs (s : State) (l : List (Nat × Nat)) : State := l.foldl (fun s x => s.setReg x.1 x.2) s

/-- Tensors declared, under their handles. -/
def tens (s : State) (l : List Tensor) : State := { s with tens := l }

/-- The device with ring 0 enabled: 64 slots, 64 reply entries. -/
def rung : State := regs up [(Reg.ringCfg 0, 0x61), (Reg.replyCfg 0, 0x60)]

theorem crc32_lt (l : List Byte) : crc32 l < 2 ^ 32 := by
  have bits : ∀ n c, c < 2 ^ 32 → crc32Bits n c < 2 ^ 32 := by
    intro n
    induction n with
    | zero => exact fun c h => h
    | succ n ih =>
      intro c h
      simp only [crc32Bits]
      split
      · exact ih _ (Nat.xor_lt_two_pow (by omega) (by decide))
      · exact ih _ (by omega)
  have all : ∀ (l : List Byte) c, c < 2 ^ 32 → l.foldl crc32Byte c < 2 ^ 32 := by
    intro l
    induction l with
    | nil => exact fun c h => h
    | cons b l ih =>
      intro c h
      exact ih _ (bits 8 _ (Nat.xor_lt_two_pow h (by have := b.isLt; omega)))
  exact Nat.xor_lt_two_pow (all l _ (by decide)) (by decide)

/-! ### Ill-formed commands -/

/-- A frame of a type for this node. -/
def frame (typ : Nat) : IfpFrame :=
  { version := 1, hops := 0, typ := typ, cls := 2, ece := false, last := true, retx := false, epoch := 0, src := 5, dst := 0,
    msgId := 7, seq := 0, ack := 0, addr := 0, aux := 0, payload := [], icrc := 0 }

/-- Each check refuses a command that is ill formed in its way alone: rings to arrays and ranks, entries, copses (R12,
R17, R29, R95, R239, R336). -/
theorem test_ill_formed_numbers :
    [(Instr.doorbell 16 0, [Check.ring]), (.waitNotice [(0, 2)], [.headerWait]), (.ld 4096 0 0 0, [.core]),
      (.placementMove (.page 0x6000000), [.core]), (.rippleFront 0 4 0 0 0 true, [.array]), (.verdict 0 1024 0 Env.good, [.rank]),
      (.commit 0 0 0, [.axis]), (.commit 5 0 0, [.axis]), (.collAbort (2 ^ 64), [.word64]), (.deadline 4, [.stream]),
      (.decodeDone 0 0 [] [] Env.good, [.manifestEntry]), (.workerBypass 4 0, [.grove]), (.workerFault 0 64, [.worker]),
      (.proofFire [5], [.proofSource]), (.deferredWorkEnd 3 ⟨[], [], [], [], [], []⟩ 0, [.testKind]), (.wake 256, [.copse]),
      (.mapOutRequest 256, [.channel]), (.stackTempRead 16 .failed, [.stack]), (.seamReset 32, [.seamPort]),
      (.fullResetBegin 9, [.resetCause]), (.colophonActivate 2 false, [.imageKind]), (.readClear 4 8, [.registerAccess]),
      (.readClear 0 2, [.registerAccess])].all (fun x => x.1.refusedBy = x.2) = true := by decide +kernel

/-- The same of links, frames, queue pairs and the GCL (R281, R285, R290, R295, R305, R306, R367). -/
theorem test_ill_formed_links :
    [(Instr.lossOfSignal 64, [Check.link]), (.d128DataBlock 0 [], [.block]), (.d128NackBlock 0 1024, [.blockNumber]),
      (.write 0 (frame 2) false, [.frameType]), (.ackTimer 65536 0, [.node]), (.ackTimer 0 3, [.frameClass]),
      (.roceAckTimeout 256, [.queuePair]), (.nakInvalidRequest 0 (2 ^ 24), [.psn]), (.gclDataFlit [], [.flit]),
      (.gclNackFlit 1024, [.flitNumber]), (.cmp 4096, [.gclTag])].all (fun x => x.1.refusedBy = x.2) = true := by decide +kernel

/-- Commands at the end of their ranges are well formed. -/
theorem test_well_formed :
    [Instr.doorbell 15 0, .ld 4095 0 0 0, .commit 4 0 0, .collAbort (2 ^ 64 - 1), .fullResetBegin 8, .readClear 8 8,
      .gclNackFlit 1023, .write 63 (frame 1) false].all (·.wf) = true := by decide +kernel

/-! ### Witnesses: the whole machine, rings and dispatch -/

/-- `EveryStepKeepsTheMachineSound`, `ResetIsSound`, `StepRunsTheFrontCommand`. -/
theorem test_meets_step : (one rung (cmd 0x0100 [])).Sound ∧
    next? (step { one rung (cmd 0x0100 []) with pending := [.nop 0] }) = some ((one rung (cmd 0x0100 [])).finish 0 (Outcome.ok 0)) ∧
    next? (step State.reset) = some State.reset.idleStep := by
  refine ⟨sound_of (by decide +kernel), ?_, ?_⟩ <;> decide +kernel

/-- `ComputeLeavesTheRest`, `VectorRowsLeaveTheRest`: each of their commands answers a next state, in quiet surroundings. -/
theorem test_meets_calm : Env.Quiet Env.good ∧ up.Clean ∧
    (∀ c ∈ [Instr.matmul 0 Env.good, .matmulPacked 0 Env.good, .rowStats 0 Env.good, .gatedAct 0 Env.good, .seedGenerators 0,
      .attnForward 0 Env.good, .attnBackward 0 Env.good, .backwardInput 0 Env.good, .conv 0 Env.good, .convGrouped 0 Env.good,
      .globalAvgPool 0 Env.good, .marginLayer 0 Env.good none, .nop 0, .identify 0], next? (exec c up) = some up) ∧
    ∀ c ∈ [Instr.ld 0 0 0 0, .st 0 0 0 0, .ldi 0 0 0 0, .add 0 0 0 0, .sub 0 0 0 0, .mul 0 0 0 0, .fma 0 0 0 0, .min 0 0 0 0,
      .max 0 0 0 0, .abs 0 0 0 0, .neg 0 0 0 0, .cmplt 0 0 0 0, .sel 0 0 0 0, .sfu 0 0 0 0, .rand 0 0 0 0, .randu 0 0 0 0,
      .vectorNop 0 0 0 0], next? (exec c up) = some up := by
  refine ⟨quiet_good, clean_of (by decide +kernel), ?_, ?_⟩ <;> decide +kernel

/-- `NothingMovesInAHeldReset`. -/
theorem test_meets_held : State.reset.pwr.held = true ∧ { State.reset with pwr := { PwrSt.reset with powered := false } }.pwr.powered =
    false := by decide

/-- `AFatalFaultEndsEveryCommand`: commands in each of its three cases. -/
theorem test_meets_fatal : (one rung (cmd 0x0100 [])).Sound ∧ ((one rung (cmd 0x0100 [])).cmdOf 0).map (·.phase.unfinished) = some true ∧
    ((one rung (ended (cmd 0x0100 []) 0)).cmdOf 0).map (fun c => (c.phase, c.tagHeld)) = some (.done, true) ∧
    ((one rung { ended (cmd 0x0100 []) 0 with tagHeld := false }).cmdOf 0).map (fun c => (c.phase.unfinished, c.tagHeld)) =
      some (false, false) := by
  refine ⟨sound_of (by decide +kernel), ?_, ?_, ?_⟩ <;> decide +kernel

/-- `DoorbellMovesTheTail`, `RingEnableStartsAtZero`, `RingDisableOnlyStopsFetching`, `ReplyHeadFreesEntries`: TAIL and HEAD
at the size and below it, size fields at their least and below it. -/
theorem test_meets_rings : rung.Up ∧ rung.Sound ∧ up.ringOn 15 = false ∧ up.Sound ∧ rung.ringOn 0 = true ∧
    rung.ringSize 0 ≤ 64 % 65536 ∧ 63 % 65536 < rung.ringSize 0 ∧ rung.replySize 0 ≤ 64 % 65536 ∧ 63 % 65536 < rung.replySize 0 ∧
    6 ≤ bits (0x61 : Word64).toNat 7 4 ∧ 6 ≤ (regs up [(Reg.replyCfg 15, 0x60)]).fld (Reg.replyCfg 15) 7 4 ∧
    (regs up [(Reg.replyCfg 15, 0x60)]).Sound ∧ bits (0x51 : Word64).toNat 7 4 < 6 := by
  refine ⟨up_of ?_, sound_of ?_, ?_, sound_of ?_, ?_, ?_, ?_, ?_, ?_, ?_, ?_, sound_of ?_, ?_⟩ <;> decide +kernel

/-- A ring with the packet of a NOP in its last slot, fetched, and the GCL up. -/
def fetched : State :=
  ((regs rung [(Reg.gclState, 2 * 2 ^ 29), (Reg.ringPtr 0, 63 * 2 ^ 16)]).updRing 0
    fun r => { r with slots := [(63, (packet 0x0100 [(4, 2, 1)]).take 32)] })

/-- `HeaderValidationTakesThePacket`. -/
theorem test_meets_header : fetched.Sound ∧ fetched.nextRing = some 0 ∧ (fetched.packetAt 0).isSome = true := by
  refine ⟨sound_of ?_, ?_, ?_⟩ <;> decide +kernel

/-- A command attached to its header wait, which is met. -/
def attached : Cmd := { cmd 0x0100 [(2, 2, 1)] with phase := .attached, met := [0] }

/-- `WaitsMakeEligibleOrTimeOut`. -/
theorem test_meets_waits : (one up attached).cmdOf 0 = some attached ∧ attached.phase = .attached ∧ 0 ∈ attached.met ∧
    0 ∉ attached.noticed ∧ (one (regs up [(Reg.ringTimeout 0, 1)]) { attached with met := [] }).Sound ∧
    { attached with met := [] }.allMet = false ∧ (one (regs up [(Reg.ringTimeout 0, 1)]) { attached with met := [] }).reg
      (Reg.ringTimeout 0) ≠ 0 := by
  refine ⟨?_, ?_, ?_, ?_, sound_of ?_, ?_, ?_⟩ <;> decide +kernel

/-- An eligible command. -/
def eligible (op : Nat) (fields : List (Nat × Nat × Nat)) : Cmd := { cmd op fields with phase := .eligible }

/-- `DispatchOfADisabledFunction` (of function 1, wedged and not) and `DispatchLatches`. -/
theorem test_meets_dispatch : (one (regs up [(Reg.funcState, 2)]) (eligible 0x0401 [])).Sound ∧
    (one (regs up [(Reg.funcState, 2)]) (eligible 0x0401 [])).pickDispatch = some (eligible 0x0401 []) ∧
    (one (regs up [(Reg.funcState, 2)]) (eligible 0x0401 [])).isDisabled (functionOf (eligible 0x0401 []).opcode) = true ∧
    (regs up [(Reg.funcState, 0x20002)]).isWedged 1 = true ∧ (one up (eligible 0x0100 [])).Sound ∧
    (one up (eligible 0x0100 [])).pickDispatch = some (eligible 0x0100 []) ∧ (eligible 0x0100 []).opcode / 256 = 1 := by
  refine ⟨sound_of ?_, ?_, ?_, ?_, sound_of ?_, ?_, ?_⟩ <;> decide +kernel

/-- `QuietCompletionFreesTheTag`: a report that is QUIET and OK, and one that is QUIET and not. -/
theorem test_meets_report : (one up (ended (cmd 0x0100 [(2, 2, 0x200)]) stOK)).cmdOf 0 = some (ended (cmd 0x0100 [(2, 2, 0x200)]) stOK) ∧
    (one up (ended (cmd 0x0100 [(2, 2, 0x200)]) stOK)).lazyHeld (ended (cmd 0x0100 [(2, 2, 0x200)]) stOK) = false ∧
    bit (ended (cmd 0x0100 [(2, 2, 0x200)]) stOK).flags 9 = 1 ∧ (ended (cmd 0x0100 [(2, 2, 0x200)]) stOK).tagHeld = true ∧
    stBadParam ≠ stOK ∧ bit (ended (cmd 0x0100 []) stBadParam).flags 9 = 0 ∧
    (cmd 0x0100 []).flags % 2 ^ 9 = (cmd 0x0100 [(2, 2, 0x200)]).flags % 2 ^ 9 := by decide +kernel

/-! ### Witnesses: admin, registers, tallies -/

/-- `NopIdentifyAndFullResetAnswer`, `SomeFunctionsCannotBeDisabled` (10, 13 and 14). -/
theorem test_meets_admin : (one up (cmd 0x0100 [])).Ready 0 0x0100 (cmd 0x0100 []) ∧
    (one up (cmd 0x0101 [])).Ready 0 0x0101 (cmd 0x0101 []) ∧ (one up (cmd 0x0106 [])).Ready 0 0x0106 (cmd 0x0106 []) ∧
    (one up (cmd 0x0104 [(32, 1, 13)])).Ready 0 0x0104 (cmd 0x0104 [(32, 1, 13)]) ∧ (cmd 0x0104 [(32, 1, 13)]).par 32 1 ≤ 13 ∧
    (one up (cmd 0x0105 [(32, 1, 14)])).Ready 0 0x0105 (cmd 0x0105 [(32, 1, 14)]) ∧ 13 < (cmd 0x0105 [(32, 1, 14)]).par 32 1 ∧
    (cmd 0x0104 [(32, 1, 10)]).par 32 1 = 10 := by
  refine ⟨ready_of ?_, ready_of ?_, ready_of ?_, ready_of ?_, ?_, ready_of ?_, ?_, ?_⟩ <;> decide +kernel

/-- Two commands in flight: a drain of function 1 that waits, and the command it waits for. -/
def drained : State :=
  { up with cmd := { CmdSt.reset with cmds := [parked (cmd 0x0104 [(32, 1, 1)]) [1], { cmd 0x0401 [] with id := 1 }], nextId := 2 } }

/-- `FunctionsAreDisabledAndEnabled`, of function 9 and of function 1. -/
theorem test_meets_functions : (one up (cmd 0x0104 [(32, 1, 9)])).Sound ∧
    (one up (cmd 0x0104 [(32, 1, 9)])).Ready 0 0x0104 (cmd 0x0104 [(32, 1, 9)]) ∧ up.isDisabled 9 = false ∧
    (one up (cmd 0x0104 [(32, 1, 9)])).draining 9 = false ∧ drained.Sound ∧ drained.draining 1 = true ∧
    drained.Waits 0 (parked (cmd 0x0104 [(32, 1, 1)]) [1]) ∧ drained.isDisabled 1 = false ∧
    { drained with cmd := { drained.cmd with cmds := drained.cmd.cmds.set 0 (cmd 0x0104 [(32, 1, 1)]) } }.Ready 0 0x0104
      (cmd 0x0104 [(32, 1, 1)]) ∧ (one up (cmd 0x0105 [(32, 1, 9)])).Ready 0 0x0105 (cmd 0x0105 [(32, 1, 9)]) ∧
    (parked (cmd 0x0105 [(32, 1, 9)]) [9]).status = stOK ∧ up.isWedged 9 = false := by
  refine ⟨sound_of ?_, ready_of ?_, ?_, ?_, sound_of ?_, ?_, waits_of ?_, ?_, ready_of ?_, ready_of ?_, ?_, ?_⟩ <;> decide +kernel

/-- `RegistersAreReadAndWritten`: ORG_SHAPE of 4 bytes, RING_TIMEOUT_15, and an offset that holds no register. -/
theorem test_meets_registers :
    (one up (eligible 0x0102 [(32, 4, 0x100), (36, 1, 4)])).pickDispatch = some (eligible 0x0102 [(32, 4, 0x100), (36, 1, 4)]) ∧
    regOperandFault 0x100 4 = none ∧ regOperandFault 0x1000000 4 = some 0x0100 ∧ regOperandFault (Reg.ringTimeout 15) 4 = none ∧
    (one up (eligible 0x0103 [(32, 4, Reg.ringTimeout 15), (36, 1, 4), (40, 8, 7)])).pickDispatch =
      some (eligible 0x0103 [(32, 4, Reg.ringTimeout 15), (36, 1, 4), (40, 8, 7)]) ∧
    (one up (cmd 0x0102 [(32, 4, 0x100), (36, 1, 4)])).Ready 0 0x0102 (cmd 0x0102 [(32, 4, 0x100), (36, 1, 4)]) ∧
    (one up (cmd 0x0103 [(36, 1, 3)])).Ready 0 0x0103 (cmd 0x0103 [(36, 1, 3)]) ∧ up.Up ∧ up.Sound := by
  refine ⟨?_, ?_, ?_, ?_, ?_, ready_of ?_, ready_of ?_, up_of ?_, sound_of ?_⟩ <;> decide +kernel

/-- `TalliesAddSetAndWait`: a value that wraps and one that does not, waits met and unmet. -/
theorem test_meets_tallies : (up.tallySet 0 (2 ^ 64 - 1)).Sound ∧ 2 ^ 64 ≤ (up.tallySet 0 (2 ^ 64 - 1)).tallyVal 0 + 1 ∧
    (up.tallySet 0 (2 ^ 64 - 2)).tallyVal 0 + 1 < 2 ^ 64 ∧ (⟨0, false, 0, .command 0⟩ : Waiter).metBy (up.tallyVal 0) = true ∧
    (⟨0, true, 1, .command 0⟩ : Waiter).metBy (up.tallyVal 0) = false := by
  refine ⟨sound_of ?_, ?_, ?_, ?_, ?_⟩ <;> decide +kernel

/-- A tally command on the last tally of this node, to be compared with 1. -/
def onTally (op : Nat) : Cmd := cmd op [(32, 8, 0x21000007FFF8), (40, 8, 1), (48, 4, 9)]

/-- `TallyCommandsActAtHome`, with the value met, unmet, and a TALLY that is none. -/
theorem test_meets_tally_commands : tallyIndex ((onTally 0x0B01).par 32 8) = some 65535 ∧
    (onTally 0x0B01).par 32 8 / 2 ^ 48 = up.node ∧ (one up (onTally 0x0B01)).Ready 0 0x0B01 (onTally 0x0B01) ∧
    (one up (onTally 0x0B02)).Ready 0 0x0B02 (onTally 0x0B02) ∧ (one up (onTally 0x0B05)).Ready 0 0x0B05 (onTally 0x0B05) ∧
    (one up (onTally 0x0B03)).Ready 0 0x0B03 (onTally 0x0B03) ∧ (one up (onTally 0x0B04)).Ready 0 0x0B04 (onTally 0x0B04) ∧
    (onTally 0x0B03).par 40 8 ≤ (up.tallySet 65535 1).tallyVal 65535 ∧ up.tallyVal 65535 < (onTally 0x0B03).par 40 8 ∧
    (one up (parked (onTally 0x0B03) [])).Waits 0 (parked (onTally 0x0B03) []) ∧ (onTally 0x0B03).par 48 4 ≠ 0 ∧
    tallyIndex 0x210000080000 = none ∧ tallyIndex 0x20FFFFFFFFF8 = none ∧ tallyIndex 0x210000000001 = none := by
  refine ⟨?_, ?_, ready_of ?_, ready_of ?_, ready_of ?_, ready_of ?_, ready_of ?_, ?_, ?_, waits_of ?_, ?_, ?_, ?_, ?_⟩ <;>
    decide +kernel

/-! ### Witnesses: memory and the Imposer -/

/-- COPY of 8 bytes within HBM; FILL of 8 bytes at its end; COPY_2D of two rows; CHECKSUM. -/
def copy8 : Cmd := cmd 0x0201 [(32, 8, 0), (40, 8, 4096), (48, 8, 8)]
def fill8 : Cmd := cmd 0x0202 [(32, 8, 0x5FFFFFFFF8), (40, 8, 8), (48, 8, 1)]
def rows2 : Cmd := cmd 0x0203 [(40, 8, 4096), (48, 8, 16), (56, 8, 16), (64, 4, 8), (68, 4, 2)]
def sum8 : Cmd := cmd 0x0204 [(32, 8, 0), (40, 8, 8)]

theorem test_no_queue_pair : ∀ i, up.qpIsReady i = false := by intro i; rfl

/-- `CopyAndFillWriteTheirDestination`. -/
theorem test_meets_copy : (one up copy8).Sound ∧ (one up copy8).Begins copy8 ∧ (one up copy8).Clean ∧
    (∀ i, (one up copy8).qpIsReady i = false) ∧ (one up copy8).Ready 0 0x0201 copy8 ∧ (one up copy8).copyFault copy8 = none ∧
    nodeOf (copy8.par 32 8) = up.node ∧ nodeOf (copy8.par 40 8) = up.node ∧
    (one up copy8).rangeGate copy8 [(localOf (copy8.par 32 8), copy8.par 48 8)] [(localOf (copy8.par 40 8), copy8.par 48 8)] = none := by
  refine ⟨sound_of ?_, begins_of ?_, clean_of ?_, fun _ => rfl, ready_of ?_, ?_, ?_, ?_, ?_⟩ <;> decide +kernel

theorem test_meets_fill : (one up fill8).Sound ∧ (one up fill8).Begins fill8 ∧ (one up fill8).Ready 0 0x0202 fill8 ∧
    fill8.par 40 8 % 8 = 0 ∧ 0 < fill8.par 40 8 ∧ fill8.par 40 8 ≤ 2 ^ 40 ∧ fill8.par 32 8 % 8 = 0 ∧ nodeOf (fill8.par 32 8) = up.node ∧
    (one up fill8).copyRange (fill8.par 32 8) (fill8.par 40 8) = true ∧ (one up fill8).copyHole (fill8.par 32 8) (fill8.par 40 8) = false ∧
    (one up fill8).rangeGate fill8 [] [(localOf (fill8.par 32 8), fill8.par 40 8)] = none := by
  refine ⟨sound_of ?_, begins_of ?_, ready_of ?_, ?_, ?_, ?_, ?_, ?_, ?_, ?_, ?_⟩ <;> decide +kernel

/-- `Copy2dAndChecksumComplete`, with one that its checks refuse (a row of no bytes). -/
theorem test_meets_copy2d : (one up rows2).Begins rows2 ∧ (one up rows2).Clean ∧ (one up rows2).Ready 0 0x0203 rows2 ∧
    (one up rows2).copyFault rows2 = none ∧ (∀ x ∈ segments rows2, nodeOf x.1 = up.node ∧ nodeOf x.2.1 = up.node) ∧
    (one up rows2).rangeGate rows2 ((segments rows2).map fun x => (localOf x.1, x.2.2))
      ((segments rows2).map fun x => (localOf x.2.1, x.2.2)) = none ∧
    ((one up rows2).putOut rows2 (segments rows2)
      ((segments rows2).map fun x => (one up rows2).bytesAt (localOf x.1) x.2.2).flatten).2 = none ∧
    (one up (cmd 0x0203 [])).Ready 0 0x0203 (cmd 0x0203 []) ∧ (one up (cmd 0x0203 [])).copyFault (cmd 0x0203 []) = some 0x0106 := by
  refine ⟨begins_of ?_, clean_of ?_, ready_of ?_, ?_, ?_, ?_, ?_, ready_of ?_, ?_⟩ <;> decide +kernel

theorem test_meets_checksum : (one up sum8).Begins sum8 ∧ (one up sum8).Ready 0 0x0204 sum8 ∧ sum8.par 40 8 ≤ 2 ^ 40 ∧
    0 < sum8.par 40 8 ∧ nodeOf (sum8.par 32 8) = up.node ∧ (one up sum8).copyRange (sum8.par 32 8) (sum8.par 40 8) = true ∧
    (one up sum8).copyHole (sum8.par 32 8) (sum8.par 40 8) = false ∧
    (one up sum8).rangeGate sum8 [(localOf (sum8.par 32 8), sum8.par 40 8)] [] = none := by
  refine ⟨begins_of ?_, ready_of ?_, ?_, ?_, ?_, ?_, ?_, ?_⟩ <;> decide +kernel

/-- `MemoryEventsTakePlace`: channel 255 in service, a refresh within a period and its last, stack 15 below 85 °C. -/
theorem test_meets_memory_events : up.Up ∧ up.Sound ∧ up.fld (Reg.channelState 255) 63 62 = 0 ∧ up.imp.capTally = none ∧
    { up with mem := { MemSt.reset with trained := true } }.Sound ∧ up.mem.subslot ≠ 31 ∧
    { up with mem := { MemSt.reset with trained := true, subslot := 31 } }.mem.subslot = 31 ∧ up.fld (Reg.stackTemp 15) 30 28 = 0 := by
  refine ⟨up_of ?_, sound_of ?_, ?_, ?_, sound_of ?_, ?_, ?_, ?_⟩ <;> decide +kernel

/-- An FP32 tensor of 64 by 64, and one of an undeclared role; an operation of MATMUL. -/
def decl : Cmd := cmd 0x0301 [(32, 1, 0), (33, 1, 0), (34, 1, 2), (48, 4, 64), (52, 4, 64)]
def declOp : Cmd := cmd 0x0303 [(32, 2, 0x0401), (34, 2, 1), (36, 4, 0xFFFFFFFF), (40, 4, 0xFFFFFFFF), (44, 4, 0xFFFFFFFF),
  (48, 4, 0xFFFFFFFF), (52, 1, 1)]

/-- `DeclarationsEnterTheTables`. -/
theorem test_meets_declare : (one up decl).Ready 0 0x0301 decl ∧ (one up decl).declareFault decl = none ∧ up.imp.cur = none ∧
    up.tens.length + 2 ≤ 65536 ∧ up.imp.nextHandle + 2 ≤ noHandle ∧
    (one up (cmd 0x0301 [(33, 1, 7)])).declareFault (cmd 0x0301 [(33, 1, 7)]) ≠ none ∧
    (one up declOp).Ready 0 0x0303 declOp ∧ (one up declOp).declareOpFault declOp = none ∧
    (one up (cmd 0x0302 [] [0])).Ready 0 0x0302 (cmd 0x0302 [] [0]) ∧ (cmd 0x0302 [] [0]).latch.extra = [0] ∧
    (cmd 0x0302 [] [1, 0x0100]).latch.extra = [1, 0x0100] := by
  refine ⟨ready_of ?_, ?_, ?_, ?_, ?_, ?_, ready_of ?_, ?_, ready_of ?_, ?_, ?_⟩ <;> decide +kernel

/-- IMPOSE NEW of 64 tokens on one logical core, axes of one member each. -/
def impose64 : Cmd := cmd 0x0304 [(38, 2, 1), (40, 4, 64), (44, 2, 1), (46, 2, 1), (48, 2, 1), (50, 2, 1)]

/-- A device with its 4,096 positions in service. -/
def roomy : State := regs up [(Reg.imposerCapacity, 4096 * 2 ^ 16)]

/-- `SliversAreTheLeastThatFit`: 64 tokens, and 65 on one core. -/
theorem test_meets_slivers : impose64.isNew = true ∧ 0 < impose64.par 40 4 ∧ 0 < impose64.par 38 2 ∧
    ((one roomy impose64).nextImposition impose64).toOption.map (fun i => (i.sliver, i.cores)) = some (64, 1) ∧
    ((one roomy impose64).nextImposition (cmd 0x0304 [(38, 2, 1), (40, 4, 65), (44, 2, 1), (46, 2, 1), (48, 2, 1), (50, 2, 1)])).toOption.map
      (fun i => (i.sliver, i.cores)) = some (128, 1) := by decide +kernel

/-- What IMPOSE makes of `roomy` before tensors are placed. -/
def planned (c : Cmd) : State :=
  { one roomy c with imp := { (one roomy c).imp with
      cur := some ⟨1, 64, 1, 64, 32, [1, 1, 1, 1], [0, 0, 0, 0], []⟩, nextNumber := 2 } }

/-- With nothing declared, what a core needs is the transit pool and its work space (a free value: log 13). -/
theorem test_account (s : State) (ht : s.tens = []) (hp : s.poolSize = 131072) (h : Config.workSpace s.opShapes ≤ 655360) :
    s.account = .ok s := by
  have : ¬ (sramBytes < s.sramUsed ∨ accumBytes < s.accumUsed) := by
    simp [State.sramUsed, State.accumUsed, ht, hp, sramBytes, accumBytes]; omega
  simp [State.account, this, State.placeAll, State.wgradSplit, ht]

/-- IMPOSE publishes, wherever the work space of no operation fits in a core. -/
theorem test_publishes (h : Config.workSpace [] ≤ 655360) : ∃ t m d,
    (one roomy impose64).publish impose64 0 0 = .ok (t, m, d) ∧ t.imp.reshard = none ∧
      t.evacuationStopped ((t.imp.cur.map (·.number)).getD 0) = false := by
  have hr : (one roomy impose64).replaced impose64 ((one roomy impose64).due 0 0) = (planned impose64).imposed impose64
    ⟨1, 64, 1, 64, 32, [1, 1, 1, 1], [0, 0, 0, 0], []⟩ := by rfl
  rw [State.publish, hr, State.imposed, if_neg (by decide +kernel), if_neg (by decide +kernel)]
  have ha := test_account { planned impose64 with imp := { (planned impose64).imp with
    schedApplied := (planned impose64).reg Reg.schedCfg } } rfl (by decide +kernel) (by exact h)
  simp only [ha]
  exact ⟨_, _, _, rfl, rfl, rfl⟩

/-- The same command, waiting for its publication. -/
def imposing : Cmd := parked impose64 [25, 0, 0]

/-- So does one that has waited. -/
theorem test_publishes_later (h : Config.workSpace [] ≤ 655360) : ∃ t m d,
    (one roomy imposing).publish imposing 0 0 = .ok (t, m, d) ∧ t.imp.reshard = none ∧
      t.evacuationStopped ((t.imp.cur.map (·.number)).getD 0) = false := by
  have hr : (one roomy imposing).replaced imposing ((one roomy imposing).due 0 0) = (planned imposing).imposed imposing
    ⟨1, 64, 1, 64, 32, [1, 1, 1, 1], [0, 0, 0, 0], []⟩ := by rfl
  rw [State.publish, hr, State.imposed, if_neg (by decide +kernel), if_neg (by decide +kernel)]
  have ha := test_account { planned imposing with imp := { (planned imposing).imp with
    schedApplied := (planned imposing).reg Reg.schedCfg } } rfl (by decide +kernel) (by exact h)
  simp only [ha]
  exact ⟨_, _, _, rfl, rfl, rfl⟩

/-- A device with imposition 1 in force: 64 tokens on one core. -/
def imposed : State :=
  { up with imp := { ImpSt.reset with cur := some ⟨1, 64, 1, 64, 1, [1, 1, 1, 1], [0, 0, 0, 0], []⟩, nextNumber := 2 } }

/-- MIGRATE of copse 255 out, RESHARD of one entry, QUERY_IMPOSITION and READ_IDLE. -/
def migrate1 : Cmd := cmd 0x0306 [(32, 4, 1), (38, 1, 1), (40, 2, 255)]
def reshard1 : Cmd := cmd 0x0307 [(32, 4, 1), (36, 4, 1)]
def idle1 : Cmd := cmd 0x0308 []

/-- `ImposerCommandsTakePlace`. -/
theorem test_meets_impose : (one roomy impose64).Ready 0 0x0304 impose64 ∧ (one roomy impose64).imposeFault impose64 = none ∧
    (one roomy impose64).publicationWaits impose64 = false ∧
    { one roomy impose64 with cmd := { CmdSt.reset with cmds := [impose64, { parked impose64 [25, 0, 0] with id := 1, stamp := 0 }] } }.publicationWaits
      impose64 = true ∧ (one imposed (cmd 0x0304 [(32, 1, 1), (60, 4, 2)])).Ready 0 0x0304 (cmd 0x0304 [(32, 1, 1), (60, 4, 2)]) ∧
    imposed.imp.cur.map (·.number) = some 1 ∧ (cmd 0x0304 [(32, 1, 1), (60, 4, 2)]).par 60 4 = 2 ∧
    (one roomy imposing).Waits 0 imposing ∧
    (one imposed (parked impose64 [28, 1])).Waits 0 (parked impose64 [28, 1]) ∧ imposed.evacuationStopped 1 = false := by
  refine ⟨ready_of ?_, ?_, ?_, ?_, ready_of ?_, ?_, ?_, waits_of ?_, waits_of ?_, ?_⟩ <;> decide +kernel

theorem test_meets_migrate : (one imposed migrate1).Ready 0 0x0306 migrate1 ∧ (one imposed migrate1).migrateFault migrate1 = none ∧
    migrate1.par 36 1 = 0 ∧ (one imposed reshard1).Ready 0 0x0307 reshard1 ∧ (one imposed reshard1).reshardFault reshard1 = none ∧
    (one imposed reshard1).rangeFault (reshard1.par 40 8) (8 * reshard1.par 36 4) = none ∧
    (one imposed reshard1).rangeGate reshard1 [(localOf (reshard1.par 40 8), 8 * reshard1.par 36 4)] [] = none ∧
    (one imposed reshard1).readStop 0 8 = .none ∧ ((one imposed reshard1).loadBytes 0 8).2.toOption.isSome = true ∧
    (one imposed (cmd 0x0305 [])).Ready 0 0x0305 (cmd 0x0305 []) ∧ (cmd 0x0305 []).par 40 1 % 2 = 0 ∧
    (one imposed idle1).Ready 0 0x0308 idle1 ∧ idle1.par 32 8 % 8 = 0 ∧ nodeOf (idle1.par 32 8) = imposed.node ∧
    (one imposed idle1).rangeFault (idle1.par 32 8) 294912 = none ∧
    (one imposed idle1).rangeGate idle1 [] [(localOf (idle1.par 32 8), 294912)] = none := by
  refine ⟨ready_of ?_, ?_, ?_, ready_of ?_, ?_, ?_, ?_, ?_, ?_, ready_of ?_, ?_, ready_of ?_, ?_, ?_, ?_, ?_⟩ <;> decide +kernel

/-- Page 5 moves from channel 5 to channel 6. -/
def move5 (begun : Bool) : Move :=
  { kind := .page 5, number := 1, src := 5, dst := 6, begun := begun, ended := false, cells := [], regs := [], lost := 0, heldDeliveries := [] }

/-- A device with moves under way. -/
def moving (s : State) (l : List Move) : State := { s with imp := { s.imp with moves := l } }

/-- `MovesBeginAndEnd`: a move that begins, one that ends, with the channel evacuating and not, and a drain that ends. -/
theorem test_meets_moves : (moving up [move5 false]).mayMove (move5 false) = true ∧
    ((moving up [move5 false]).imp.moves.find? fun x => x.kind = .page 5 ∧ ! x.begun) = some (move5 false) ∧
    (moving up [move5 true]).Sound ∧ (moving up [move5 true]).moveStopped (move5 true) = false ∧
    ((moving up [move5 true]).imp.moves.find? fun x => x.kind = .page 5 ∧ x.begun ∧ ! x.ended) = some (move5 true) ∧
    up.fld (Reg.channelState (5 % 256)) 63 62 ≠ 2 ∧
    (regs up [(Reg.channelState 5, 2 * 2 ^ 62)]).fld (Reg.channelState (5 % 256)) 63 62 = 2 ∧
    (∀ x ∈ (moving up [move5 true]).imp.moves, x ≠ move5 true → x.src % 256 ≠ (move5 true).src % 256) ∧
    { up with imp := { ImpSt.reset with draining := some ⟨⟨1, 64, 1, 64, 1, [], [], []⟩, [], []⟩ } }.holders 1 = 0 ∧
    { up with imp := { ImpSt.reset with draining := some ⟨⟨1, 64, 1, 64, 1, [], [], []⟩, [], []⟩ } }.inTransit 1 = false := by
  refine ⟨?_, ?_, sound_of ?_, ?_, ?_, ?_, ?_, ?_, ?_, ?_⟩ <;> decide +kernel

/-- `TheSweepGoesOn`, for the last copse and slots at both ends. -/
theorem test_meets_sweep : (one up (cmd 0x0D06 [(32, 1, 2), (34, 2, 1)])).Sound ∧
    (one up (cmd 0x0D06 [(32, 1, 2), (34, 2, 1)])).Ready 0 0x0D06 (cmd 0x0D06 [(32, 1, 2), (34, 2, 1)]) ∧
    (cmd 0x0D06 [(32, 1, 2), (34, 2, 1)]).par 32 1 ≤ 2 ∧ (cmd 0x0D06 [(32, 1, 2), (34, 2, 1)]).par 34 2 ≠ 0 ∧
    (regs up [(Reg.sweepState, 2 ^ 31)]).fld Reg.sweepState 31 31 = 1 ∧ (∀ t ∈ up.obs.tests, t.kind = 0 → t.running = false) ∧
    ([(255, SweepPhase.movingOut 16)].find? fun x => x.1 = 255) = some (255, .movingOut 16) ∧
    { up with imp := { ImpSt.reset with sweep := [(255, .movingOut 15)] } }.sweepMayMove = true ∧ up.fld (Reg.copseState 255) 31 28 = 0 ∧
    ([(0, SweepPhase.testing 15)].find? fun x => x.1 = 0) = some (0, .testing 15) := by
  refine ⟨sound_of ?_, ready_of ?_, ?_, ?_, ?_, ?_, ?_, ?_, ?_, ?_⟩ <;> decide +kernel

/-! ### Witnesses: arrays and the vector engine -/

/-- BF16 tensors 1 and 2 of 2 by 2, and the accumulator tensor 3. -/
def trio (s : State) : State := tens s [tensor 1 1 0 2 2, tensor 2 1 6 2 2, tensor 3 0 5 2 2]

/-- The product of tensors 1 and 2 into accumulator 3. -/
def matmul (op : Nat) (extra : List Nat) : Cmd :=
  cmd op [(32, 4, 1), (36, 4, 2), (40, 4, 3), (44, 1, 1), (45, 1, 1), (46, 1, 0), (47, 1, 8)] extra

/-- `MatmulWritesItsProducts`, `MatrixCommandsComplete`. -/
theorem test_meets_matmul : (one (trio up) (matmul 0x0401 [])).Sound ∧ (one (trio up) (matmul 0x0401 [])).Begins (matmul 0x0401 []) ∧
    (one (trio up) (matmul 0x0401 [])).Clean ∧ (one (trio up) (matmul 0x0401 [])).matmulFault (matmul 0x0401 []) = none ∧
    (one (trio up) (matmul 0x0401 [])).readable (matmul 0x0401 []) 1 = some (tensor 1 1 0 2 2) ∧
    (one (trio up) (matmul 0x0401 [])).readable (matmul 0x0401 []) 2 = some (tensor 2 1 6 2 2) ∧
    (one (trio up) (matmul 0x0401 [])).tensor 3 = some (tensor 3 0 5 2 2) ∧ (matmul 0x0401 []).accOut = true ∧
    ((one (trio up) (matmul 0x0401 [])).matmulRecord (matmul 0x0401 []) (tensor 1 1 0 2 2) (tensor 2 1 6 2 2)).bind
      (·.takeSaves (matmul 0x0401 [])) = some (one (trio up) (matmul 0x0401 [])) ∧
    (productOf (matmul 0x0401 []) (tensor 1 1 0 2 2) (tensor 2 1 6 2 2)).nCount = 2 ∧
    (one (trio up) (matmul 0x0401 [])).Ready 0 0x0401 (matmul 0x0401 []) := by
  refine ⟨sound_of ?_, begins_of ?_, clean_of ?_, ?_, ?_, ?_, ?_, ?_, ?_, ?_, ready_of ?_⟩ <;> decide +kernel

/-- A collective that has not started. -/
def coll (id op : Nat) (pkt : List Byte) : Coll :=
  { id := id, stamp := 0, opcode := op, tag := 0, axis := 1, seq := 3, slot := none, share := 0, members := 4, rank := 1, pkt := pkt,
    descCheck := 77, input := [], retained := [], queued := [], crcs := [], expect := [], toWrite := [], unchecked := [], asked := [],
    written := 0, reRequests := 0, flags := 0, localDone := false }

/-- MATMUL_GATHER of an ALL_GATHER that has ended, failed, or not started. -/
theorem test_meets_gather : (one (trio up) (matmul 0x0402 [0, 9])).Begins (matmul 0x0402 [0, 9]) ∧
    (one (trio up) (matmul 0x0402 [0, 9])).Ready 0 0x0402 (matmul 0x0402 [0, 9]) ∧
    (one (trio up) (matmul 0x0402 [0, 9])).matmulFault (matmul 0x0402 [0, 9]) = none ∧ 9 ∉ up.coll.failed ∧
    (∀ y ∈ up.coll.colls, y.id ≠ 9) ∧ 9 ∈ { CollSt.reset with failed := [9] }.failed ∧
    (∃ y ∈ { CollSt.reset with colls := [coll 9 0x0803 []] }.colls, y.id = 9 ∧ (y.slot = none ∨ y.toWrite ≠ [])) := by
  refine ⟨begins_of ?_, ready_of ?_, ?_, ?_, ?_, ?_, ⟨_, List.mem_singleton.2 rfl, rfl, .inl rfl⟩⟩ <;> decide +kernel

/-- A packed product of one problem. -/
def packed : Cmd := cmd 0x0403 [(32, 4, 1), (36, 4, 2), (40, 4, 3), (44, 1, 1), (45, 1, 1), (47, 1, 0x20), (48, 4, 1), (52, 4, 1), (56, 4, 1)]

def cube (h fmt role : Nat) : Tensor := { tensor h fmt role 1 1 with dims := [1, 1, 1] }

theorem test_meets_packed :
    (one (tens up [cube 1 1 0, cube 2 1 6, cube 3 0 5]) packed).Ready 0 0x0403 packed ∧
    (one (tens up [cube 1 1 0, cube 2 1 6, cube 3 0 5]) packed).packFault packed = none ∧
    ((one (tens up [cube 1 1 0, cube 2 1 6, cube 3 0 5]) packed).takeSaves packed).isSome = true ∧
    (one up (cmd 0x0404 [(32, 4, 0x10002)])).Ready 0 0x0404 (cmd 0x0404 [(32, 4, 0x10002)]) ∧
    (cmd 0x0404 [(32, 4, 0x10002)]).par 32 4 % 4 ≠ 0 ∧ bits ((cmd 0x0404 [(32, 4, 0x10002)]).par 32 4) 15 4 = 0 ∧
    bits ((cmd 0x0404 [(32, 4, 0x10002)]).par 32 4) 31 17 = 0 ∧ (cmd 0x0404 [(32, 4, 0x10000)]).par 32 4 % 4 = 0 ∧
    (one up (ended (cmd 0x0404 [(32, 4, 2)]) stOK)).cmdOf 0 = some (ended (cmd 0x0404 [(32, 4, 2)]) stOK) := by
  refine ⟨ready_of ?_, ?_, ?_, ready_of ?_, ?_, ?_, ?_, ?_, ?_⟩ <;> decide +kernel

/-- A product in RIPPLE mode. -/
def rippling : Cmd := { matmul 0x0401 [] with latch := ⟨0x10001, 0, 0, [], []⟩ }

/-- The last array, its landing buffer full of the next tile or its front at the last row. -/
def lastArray (a : ArraySt) (v : Nat) (c : Cmd) : State :=
  let s := one (trio (regs up [(Reg.arrayState 4095 3, v)])) c
  { s with core := { CoreSt.reset with arrays := [a] } }

/-- `WeightsMoveThroughTheArrays`, for the last array of the last core. -/
theorem test_meets_weights : (one (trio up) (matmul 0x0401 [])).Sound ∧ up.isRetired (4095 / 16) = false ∧
    ((one (trio up) (matmul 0x0401 [])).loader 0 false).map (·.1) = some (matmul 0x0401 []) ∧
    up.fld (Reg.arrayState 4095 3) 30 30 = 0 ∧ up.fld (Reg.arrayState 4095 3) 29 29 = 0 ∧
    ((lastArray ⟨16383, [], [], tileBytes 1 1 false (up.tileCode (matmul 0x0401 []) (tensor 1 1 0 2 2) (tensor 2 1 6 2 2) false 0 0), 0⟩
      (2 ^ 29) (matmul 0x0401 [])).arraySt 16383).landing =
        tileBytes 1 1 false (up.tileCode (matmul 0x0401 []) (tensor 1 1 0 2 2) (tensor 2 1 6 2 2) false 0 0) ∧
    (lastArray ⟨16383, [], [], [], 0⟩ (2 ^ 30) (matmul 0x0401 [])).fld (Reg.arrayState 4095 3) 30 30 = 1 ∧
    ((one (trio up) rippling).loader 0 true).map (·.1) = some rippling ∧
    ((lastArray ⟨16383, List.replicate 1024 0, [], [], 31⟩ 0 rippling).arraySt 16383).active.length = 1024 ∧
    ((lastArray ⟨16383, List.replicate 1024 0, [], [], 31⟩ 0 rippling).arraySt 16383).front = 31 := by
  refine ⟨sound_of ?_, ?_, ?_, ?_, ?_, ?_, ?_, ?_, ?_, ?_⟩ <;> decide +kernel

/-- A device whose vector engines run a program with tensor 1 as slot 0. -/
def vectoring : State :=
  { tens up [tensor 1 0 0 2 64] with core := { CoreSt.reset with vjob := some ⟨0, [1], 0, []⟩ } }

/-- `VectorInstructionsWriteTheirRegister`, `StoreOfARegisterIsExact`: a word of each operation. -/
theorem test_meets_vector : vectoring.Sound ∧ vectoring.core.vjob.map (·.bank) = some 0 ∧ vectoring.core.vjob.isSome = true ∧
    (∀ op ∈ [0x01, 0x02, 0x03, 0x10, 0x11, 0x12, 0x13, 0x14, 0x15, 0x16, 0x17, 0x18, 0x19, 0x20, 0x30, 0x31, 0x3F],
      vecOk (op * 2 ^ 56) = true ∧ vecOp (op * 2 ^ 56) = op) ∧ vectoring.slotTensor 0 = some (tensor 1 0 0 2 64, 1) ∧
    (tensor 1 0 0 2 64).fmt = 0 ∧ 1 < (tensor 1 0 0 2 64).rows := by
  refine ⟨sound_of ?_, ?_, ?_, ?_, ?_, ?_, ?_⟩ <;> decide +kernel

/-- A program of one VECTOR_NOP at address 0, over tensor 1. -/
def program1 : Cmd := cmd 0x0501 ([(40, 2, 1), (44, 4, 1)] ++ (List.range 5).map fun i => (48 + 4 * i, 4, 0xFFFFFFFF))
def withProgram : State := { tens up [tensor 1 0 0 2 2] with mem := { MemSt.reset with bytes := [(7, 0x3F)] } }

/-- `VectorCommandsComplete`: VECTOR_PROGRAM. -/
theorem test_meets_program : (one withProgram program1).Sound ∧ (one withProgram program1).Begins program1 ∧
    (one withProgram program1).Ready 0 0x0501 program1 ∧ programRange program1 = none ∧
    (one withProgram program1).rangeFault (program1.par 32 8 % 2 ^ 48) (8 * program1.par 40 2) = none ∧
    (one withProgram program1).rangeGate program1 [(localOf (program1.par 32 8 % 2 ^ 48), 8 * program1.par 40 2)] [] = none ∧
    (match (one withProgram program1).loadBytes 0 8 with
      | (r, .ok d) => decide (r.programFault program1 (programWords d) = none) && (r.tensor 1).isSome && (r.takeSaves program1).isSome
      | _ => false) = true := by
  refine ⟨sound_of ?_, begins_of ?_, ready_of ?_, ?_, ?_, ?_, ?_⟩ <;> decide +kernel

/-- ROW_STATS of tensor 1 into tensor 2; GATED_ACT of tensors 1 and 2 into tensor 3. -/
def stats : Cmd := cmd 0x0502 [(32, 4, 1), (36, 4, 2)]
def gated : Cmd := cmd 0x0503 [(32, 4, 1), (36, 4, 2), (40, 4, 3), (44, 1, 2), (45, 1, 1)]

theorem test_meets_row_stats : (one (tens up [tensor 1 1 0 2 2, tensor 2 0 6 2 4]) stats).Ready 0 0x0502 stats ∧
    (one (tens up [tensor 1 1 0 2 2, tensor 2 0 6 2 4]) stats).readable stats 1 = some (tensor 1 1 0 2 2) ∧
    (one (tens up [tensor 1 1 0 2 2, tensor 2 0 6 2 4]) stats).tensor 2 = some (tensor 2 0 6 2 4) ∧
    (tensor 2 0 6 2 4).shape = ((tensor 1 1 0 2 2).rows, 4) ∧
    ((one (tens up [tensor 1 1 0 2 2, tensor 2 0 6 2 4]) stats).takeSaves stats).isSome = true ∧
    (one (tens up [tensor 1 1 0 2 2, tensor 2 1 0 2 2, tensor 3 1 0 2 2]) gated).Ready 0 0x0503 gated ∧
    (one (tens up [tensor 1 1 0 2 2, tensor 2 1 0 2 2, tensor 3 1 0 2 2]) gated).readable gated 2 = some (tensor 2 1 0 2 2) ∧
    (one (tens up [tensor 1 1 0 2 2, tensor 2 1 0 2 2, tensor 3 1 0 2 2]) gated).tensor 3 = some (tensor 3 1 0 2 2) ∧
    storable (tensor 3 1 0 2 2) = true ∧ gated.par 45 1 = 1 ∧ gated.par 44 1 ≤ 2 ∧
    ((one (tens up [tensor 1 1 0 2 2, tensor 2 1 0 2 2, tensor 3 1 0 2 2]) gated).takeSaves gated).isSome = true := by
  refine ⟨ready_of ?_, ?_, ?_, ?_, ?_, ready_of ?_, ?_, ?_, ?_, ?_, ?_, ?_⟩ <;> decide +kernel

/-- LOAD_SEED_TABLE of the factory's table 0 (1 / x), with its check value. -/
def seedTable (check : Nat) : Cmd := cmd 0x0504 [(40, 1, 0), (41, 1, 1), (44, 4, check)]

theorem test_meets_seed : (one up (seedTable 0)).Ready 0 0x0504 (seedTable 0) ∧ (seedTable 0).par 40 1 ≤ 9 ∧
    (one up (cmd 0x0504 [(40, 1, 10)])).Ready 0 0x0504 (cmd 0x0504 [(40, 1, 10)]) ∧ 9 < (cmd 0x0504 [(40, 1, 10)]).par 40 1 ∧
    (one up (parked (seedTable 5) [15])).Waits 0 (parked (seedTable 5) [15]) ∧
    (one up (parked (seedTable 5) [15])).bankUsers 1 = 0 ∧ up.inactiveBank = 1 ∧
    ((one up (parked (seedTable 5) [15])).earlier (parked (seedTable 5) [15]) fun d => d.opcode = 0x0504) = false ∧
    (one up (cmd 0x0505 [(40, 8, 2 ^ 46 - 1)])).Ready 0 0x0505 (cmd 0x0505 [(40, 8, 2 ^ 46 - 1)]) ∧
    (cmd 0x0505 [(40, 8, 2 ^ 46 - 1)]).par 40 8 < 2 ^ 46 ∧ 2 ^ 46 ≤ (cmd 0x0505 [(40, 8, 2 ^ 46)]).par 40 8 := by
  refine ⟨ready_of ?_, ?_, ready_of ?_, ?_, waits_of ?_, ?_, ?_, ?_, ready_of ?_, ?_, ?_⟩ <;> decide +kernel

/-- The check value of an image is 32 bits: some LOAD_SEED_TABLE gives it, and some another. -/
theorem test_meets_seed_check : (∃ v, crc32 (imageBytes (factoryTable 0)) = (seedTable v).par 44 4) ∧
    ∃ v, crc32 (imageBytes (factoryTable 0)) ≠ (seedTable v).par 44 4 := by
  have hb : ∀ v, (seedTable v).par 44 4 = v % 2 ^ 32 := fun v => leNat_leBytes (n := 4) (v := v)
  have hl : crc32 (imageBytes (factoryTable 0)) < 2 ^ 32 := crc32_lt _
  refine ⟨⟨_, (hb _).symm ▸ (Nat.mod_eq_of_lt hl).symm⟩, crc32 (imageBytes (factoryTable 0)) + 1, ?_⟩
  rw [hb]; omega

/-! ### Witnesses: attention and galleys -/

/-- A galley table of one KV head and one block, with walks of commands on its published bank. -/
def table (n : Nat) (walks : List Nat) (pub sec : Bank) : GTable :=
  { number := n, kvHeads := 1, maxBlocks := 1, generation := 1, published := pub, second := sec, draining := false, changed := true,
    destroying := false, walks := walks, drainWalks := [] }

/-- A store of four galleys of head dimension 64, with tables. -/
def stored (s : State) (galleys : List Galley) (l : List GTable) : State :=
  { s with attn := { AttnSt.reset with store := some (64, 4), galleys := galleys, tables := l } }

/-- Queries 1, output 2 and statistics 3 of `rows` rows, gradients 4 to 7, on table 0. -/
def attnTensors (rows : Nat) : List Tensor :=
  [tensor 1 1 0 rows 64, tensor 2 1 0 rows 64, tensor 3 0 0 rows 2, tensor 4 1 0 rows 64, tensor 5 1 0 rows 64, tensor 6 1 0 rows 64,
    tensor 7 1 0 rows 64]

def attn (op : Nat) (more : List (Nat × Nat × Nat)) : Cmd :=
  cmd op ([(32, 4, 1), (36, 2, 0), (40, 4, 2), (44, 4, 3), (48, 1, 1), (49, 1, 1), (50, 1, 1), (52, 1, 1)] ++
    ([68, 72, 76, 80, 84, 92, 96].map fun i => (i, 4, 0xFFFFFFFF)) ++ [(144, 4, 4), (148, 4, 5), (152, 4, 6), (156, 4, 7)] ++ more)

/-- Table 0 holds `len` tokens; a walk of command 0 is on it. -/
def walked (rows len : Nat) (c : Cmd) : State :=
  one (tens (stored up [] [table 0 [0] ⟨len, []⟩ ⟨len, []⟩]) (attnTensors rows)) c

/-- `AttentionCommandsComplete`: forward and backward. -/
theorem test_meets_attention : (walked 2 0 (attn 0x0601 [])).Sound ∧ (walked 2 0 (attn 0x0601 [])).Clean ∧
    (walked 2 0 (attn 0x0601 [])).Begins (attn 0x0601 []) ∧ (walked 2 0 (attn 0x0601 [])).attnFault (attn 0x0601 []) = none ∧
    ((walked 2 0 (attn 0x0601 [])).takeSaves (attn 0x0601 [])).isSome = true ∧
    (walked 2 0 (attn 0x0601 [])).heldBank (attn 0x0601 []) 0 = some (table 0 [0] ⟨0, []⟩ ⟨0, []⟩, ⟨0, []⟩, 1) ∧
    (walked 2 0 (attn 0x0601 [])).Ready 0 0x0601 (attn 0x0601 []) ∧
    (walked 2 0 (attn 0x0602 [])).attnFault (attn 0x0602 []) = none ∧ (walked 2 0 (attn 0x0602 [])).Begins (attn 0x0602 []) ∧
    (walked 2 0 (attn 0x0602 [])).Ready 0 0x0602 (attn 0x0602 []) := by
  refine ⟨sound_of ?_, clean_of ?_, begins_of ?_, ?_, ?_, ?_, ready_of ?_, ?_, begins_of ?_, ready_of ?_⟩ <;> decide +kernel

/-- RING_ATTENTION among `n` modules of two segments of 128 tokens. -/
def ringing (n : Nat) : Cmd := attn 0x0607 [(128, 4, n), (132, 4, 128)]
def ringState (n : Nat) (c : Cmd) : State :=
  { walked 256 256 c with imp := { ImpSt.reset with cur := some ⟨1, 256, 1, 256, 1, [1, 1, n, 1], [0, 0, 0, 0], []⟩, nextNumber := 2 } }

/-- RING_ATTENTION with all the steps it needs (of a ring of one), with too few, and with its route lost. -/
theorem test_meets_ring : (ringState 1 (ringing 1)).attnFault (ringing 1) = none ∧ (ringing 1).ringNeeds = 0 ∧
    (ringState 2 (ringing 2)).attnFault (ringing 2) = none ∧ (ringing 2).ringNeeds = 1 ∧
    ((ringState 2 (ringing 2)).ringSteps 0).length = 0 ∧ 1 < (ringing 2).ringSize ∧ Env.good.lost = false ∧
    (ringState 2 (ringing 2)).Begins (ringing 2) ∧ (ringState 2 (ringing 2)).Ready 0 0x0607 (ringing 2) ∧
    (ringState 2 (parked (ringing 2) [22])).Waits 0 (parked (ringing 2) [22]) ∧ Env.Quiet { Env.good with lost := true } := by
  refine ⟨?_, ?_, ?_, ?_, ?_, ?_, ?_, begins_placed ?_, ready_of ?_, waits_of ?_, ⟨rfl, rfl, rfl, rfl, rfl⟩⟩ <;> decide +kernel

/-- GALLEY_APPEND of keys 1 and values 2, one token, to table 0. -/
def append1 : Cmd := cmd 0x0603 ([(36, 4, 1), (40, 4, 2)] ++ [44, 48, 52].map fun i => (i, 4, 0xFFFFFFFF))
def withKeys (s : State) : State := tens s [tensor 1 1 0 1 64, tensor 2 1 0 1 64]
/-- The shadow holds one token, in galley 0, and no other bank does. -/
def halfFull : State := one (withKeys (stored up [⟨0, [], [], []⟩] [table 0 [] ⟨0, []⟩ ⟨1, [(0, 0)]⟩])) append1
/-- No galley is left. -/
def noneLeft : State :=
  let s := one (withKeys (stored up [] [table 0 [] ⟨0, []⟩ ⟨0, []⟩])) append1
  { s with attn := { s.attn with store := some (64, 0) } }

/-- `GalleyEditsWorkOnTheShadow`: GALLEY_APPEND with space and without. -/
theorem test_meets_append : halfFull.Clean ∧ halfFull.Begins append1 ∧ halfFull.Ready 0 0x0603 append1 ∧
    halfFull.appendFault append1 = none ∧ halfFull.noShadow append1 = false ∧
    (match halfFull.readable append1 1, halfFull.readable append1 2, halfFull.liveTable 0 with
      | some k, some v, some t => (halfFull.appendTokens append1 t k v).isSome
      | _, _, _ => false) = true ∧
    noneLeft.appendFault append1 = none ∧
    (match noneLeft.readable append1 1, noneLeft.readable append1 2, noneLeft.liveTable 0 with
      | some k, some v, some t => (noneLeft.appendTokens append1 t k v).isNone
      | _, _, _ => false) = true := by
  refine ⟨clean_of ?_, begins_of ?_, ready_of ?_, ?_, ?_, ?_, ?_, ?_⟩ <;> decide +kernel

/-- GALLEY_EDIT: CREATE of table 65,535, FORK of table 1 to table 0, TRUNCATE of table 0. -/
def create : Cmd := cmd 0x0604 [(32, 1, 1), (33, 1, 1), (36, 4, 65535), (48, 4, 1)]
def fork : Cmd := cmd 0x0604 [(32, 1, 2), (36, 4, 0), (40, 4, 1), (44, 4, 1)]
def truncate : Cmd := cmd 0x0604 [(32, 1, 3), (36, 4, 0), (44, 4, 1)]
def twoTables (c : Cmd) : State :=
  one (stored up [⟨0, [], [], []⟩] [table 0 [] ⟨0, []⟩ ⟨2, []⟩, table 1 [] ⟨2, [(0, 0)]⟩ ⟨2, [(0, 0)]⟩]) c

theorem test_meets_edit : (twoTables create).Ready 0 0x0604 create ∧ (twoTables create).editFault create = none ∧
    (twoTables create).noShadow create = false ∧ (twoTables create).Begins create ∧ (twoTables fork).Ready 0 0x0604 fork ∧
    (twoTables fork).editFault fork = none ∧ ((twoTables fork).gtable 0).map (fun t => (twoTables fork).shareLimit t
      ((twoTables fork).forkBank fork)) = some false ∧ (twoTables truncate).Ready 0 0x0604 truncate ∧
    (twoTables truncate).editFault truncate = none ∧ (twoTables (parked truncate [11])).Waits 0 (parked truncate [11]) ∧
    (one (stored up [] [{ table 0 [] ⟨0, []⟩ ⟨2, []⟩ with draining := true }]) truncate).noShadow truncate = true := by
  refine ⟨ready_of ?_, ?_, ?_, begins_of ?_, ready_of ?_, ?_, ?_, ready_of ?_, ?_, waits_of ?_, ?_⟩ <;> decide +kernel

/-- GALLEY_PUBLISH of table 0; VERIFY_TREE of one candidate, accepted. -/
def publish0 : Cmd := cmd 0x0605 [(40, 4, 1)]
def verify1 : Cmd := cmd 0x0606 [(36, 4, 1), (40, 4, 1), (44, 4, 2), (48, 4, 3), (52, 1, 1)]
def candidates : State :=
  one (tens (stored up [] [table 0 [] ⟨1, []⟩ ⟨1, []⟩]) [{ tensor 1 0 0 1 2 with data := [(0, 1)] },
    { tensor 2 0 0 1 1 with data := [(0, 5)] }, { tensor 3 0 0 1 2 with data := [(0, 5), (1, 7)] }]) verify1

/-- `PublicationKeepsWhatWalksRead`: with no walk on the bank and with one; a walk that ends; a tree whose candidate stands. -/
theorem test_meets_tables : (twoTables publish0).Begins publish0 ∧ (twoTables publish0).Ready 0 0x0605 publish0 ∧
    (twoTables publish0).attn.store.isSome = true ∧ publish0.par 40 4 = 1 ∧
    (twoTables publish0).liveTable 0 = some (table 0 [] ⟨0, []⟩ ⟨2, []⟩) ∧
    (walked 2 0 publish0).liveTable 0 = some (table 0 [0] ⟨0, []⟩ ⟨0, []⟩) ∧
    (walked 2 0 (ended (attn 0x0601 []) 0)).walkMayEnd (ended (attn 0x0601 []) 0) = true ∧
    ((twoTables publish0).attn.tables.map (·.number)).Nodup ∧ candidates.Ready 0 0x0606 verify1 ∧ candidates.Begins verify1 ∧
    candidates.treeFault verify1 = none ∧ candidates.noShadow verify1 = false ∧
    acceptPath (candidates.treeMasks 1 1) ((List.range 1).map fun i => wordAt (candidates.named 2) i 0)
      ((List.range 2).map fun i => wordAt (candidates.named 3) i 0) 1 none [] = List.range 1 ∧
    (candidates.gtable 0).map (·.second.length) = some (0 + verify1.par 52 1) := by
  refine ⟨begins_of ?_, ready_of ?_, ?_, ?_, ?_, ?_, ?_, ?_, ready_of ?_, begins_of ?_, ?_, ?_, ?_, ?_⟩ <;> decide +kernel

/-! ### Witnesses: backward passes, residency, update -/

/-- Tensors of a backward pass: 1 the gradient, 2 a weight, 3 what is written, 4 a weight gradient. -/
def backTensors (s : State) : State := tens s [tensor 1 1 0 2 2, tensor 2 1 1 2 2, tensor 3 1 0 2 2, tensor 4 0 4 2 2]
def backInput (extra : List Nat) : Cmd := cmd 0x0701 [(32, 4, 1), (36, 4, 2), (44, 4, 3), (48, 4, 0xFFFFFFFF)] extra
def backWeight (defer : Nat) : Cmd := cmd 0x0702 [(32, 4, 1), (36, 4, 3), (40, 4, 2), (44, 4, 4), (50, 1, defer)] [0, 1, 1, 0]

/-- `BackwardCommandsComplete`. -/
theorem test_meets_backward_input : (one (backTensors up) (backInput [0, 1])).Sound ∧ (one (backTensors up) (backInput [0, 1])).Clean ∧
    (one (backTensors up) (backInput [0, 1])).Ready 0 0x0701 (backInput [0, 1]) ∧
    (one (backTensors up) (backInput [0, 1])).Begins (backInput [0, 1]) ∧ (one (backTensors up) (backInput [0, 1])).accTurn (backInput [0, 1]) = true ∧
    (one (backTensors up) (backInput [0, 1])).readable (backInput [0, 1]) 1 = some (tensor 1 1 0 2 2) ∧
    (one (backTensors up) (backInput [0, 1])).tensor (if bit ((backInput [0, 1]).par 54 1) 1 = 1 then (backInput [0, 1]).par 48 4 else
      (backInput [0, 1]).par 44 4) = some (tensor 3 1 0 2 2) ∧ ((one (backTensors up) (backInput [0, 1])).takeSaves (backInput [0, 1])).isSome = true ∧
    (one (backTensors up) (backInput [1, 0x0107])).Ready 0 0x0701 (backInput [1, 0x0107]) := by
  refine ⟨sound_of ?_, clean_of ?_, ready_of ?_, begins_of ?_, ?_, ?_, ?_, ?_, ready_of ?_⟩ <;> decide +kernel

theorem test_meets_backward_weight : (one (backTensors up) (backWeight 1)).Ready 0 0x0702 (backWeight 1) ∧
    bit ((backWeight 1).par 50 1) 0 = 1 ∧ (one (backTensors up) (backWeight 0)).Ready 0 0x0702 (backWeight 0) ∧
    bit ((backWeight 0).par 50 1) 0 = 0 ∧ (one (backTensors up) (backWeight 0)).Begins (backWeight 0) ∧
    (one (backTensors up) (backWeight 0)).gradTurn (backWeight 0) = true ∧
    (one (backTensors up) (parked (backWeight 1) [13])).firstDeferred = some (parked (backWeight 1) [13]) ∧
    (one (backTensors up) (parked (backWeight 1) [13])).Waits 0 (parked (backWeight 1) [13]) ∧
    (one (backTensors up) (parked (backWeight 1) [13])).passReady = false ∧
    (one (backTensors up) (parked (backWeight 1) [13])).Begins (parked (backWeight 1) [13]) ∧
    (one (backTensors up) (parked (backWeight 1) [13])).gradTurn (parked (backWeight 1) [13]) = true ∧
    ([1, 3, 2, 4].map fun h => ((one (backTensors up) (backWeight 0)).readable (backWeight 0) h).isSome) = [true, true, true, true] ∧
    (one up (parked (cmd 0x0201 []) [7])).Waits 0 (parked (cmd 0x0201 []) [7]) ∧ functionOf 0x0201 < 10 ∧
    (one up (parked (cmd 0x0201 []) [7])).holdReason (parked (cmd 0x0201 []) [7]) = none ∧
    (one up (parked (cmd 0x0201 []) [6])).Waits 0 (parked (cmd 0x0201 []) [6]) := by
  refine ⟨ready_of ?_, ?_, ready_of ?_, ?_, begins_of ?_, ?_, ?_, waits_of ?_, ?_, begins_of ?_, ?_, ?_, waits_of ?_, ?_, ?_,
    waits_of ?_⟩ <;> decide +kernel

/-- A save of eight bytes, in core SRAM or off-loaded to pages 7 and 8. -/
def save (x : SaveState) (size : Nat) : Tensor := { tensor 1 1 3 2 2 with save := x, image := some ⟨false, 0, 0, [7, 8], size⟩ }
def offload (remote : Nat) : Cmd := cmd 0x0703 [(32, 4, 1), (38, 1, remote), (40, 8, 4096)]
def prefetch : Cmd := cmd 0x0704 [(32, 4, 1)]
def saved (c : Cmd) : State := one (tens up [save .inSram 0]) c
def away (size byte : Nat) : State :=
  { one (tens up [save .offloaded size]) prefetch with mem := { MemSt.reset with bytes := [(4096 * 7, BitVec.ofNat 8 byte)] } }

/-- `SavesLeaveAndReturn`: with pages and without; an image whose CRC fits and one whose CRC does not. -/
theorem test_meets_saves : (saved (offload 0)).Clean ∧ (saved (offload 0)).Begins (offload 0) ∧
    (saved (offload 0)).tensor 1 = some (save .inSram 0) ∧ (saved (offload 0)).Ready 0 0x0703 (offload 0) ∧
    (saved (offload 0)).offloadFault (offload 0) = none ∧ bit ((offload 0).par 38 1) 0 = 0 ∧
    pagesFor (imageSize ((saved (offload 0)).saveData (save .inSram 0)).length) ≤ (saved (offload 0)).freePages ∧
    ({ saved (offload 0) with mem := { MemSt.reset with outChannels := List.range 256 } }).freePages = 0 ∧
    0 < pagesFor (imageSize ((saved (offload 0)).saveData (save .inSram 0)).length) ∧
    (saved (offload 1)).offloadFault (offload 1) = none ∧ (saved (offload 1)).Begins (offload 1) ∧ bit ((offload 1).par 38 1) 0 = 1 ∧
    (away 0 1).Ready 0 0x0704 prefetch ∧ (away 0 1).prefetchFault prefetch = none ∧ (away 0 1).Begins prefetch ∧
    (away 0 1).tensor 1 = some (save .offloaded 0) ∧ (away 0 1).scaleTensor (save .offloaded 0) = none ∧
    imageOk 8 ((away 0 1).getPaged [7, 8] 0) = true ∧ imageOk 8 ((away 1 1).getPaged [7, 8] 1) = false := by
  refine ⟨clean_of ?_, begins_of ?_, ?_, ready_of ?_, ?_, ?_, ?_, ?_, ?_, ?_, begins_of ?_, ?_, ready_of ?_, ?_, begins_of ?_,
    ?_, ?_, ?_, ?_⟩ <;> decide +kernel

/-- UPDATE of weight 1 by gradient 2, with SKIP, as its dispatch found it. -/
def update (extra : List Nat) : Cmd := cmd 0x0706 [(32, 4, 1), (36, 4, 2), (40, 4, 0xFFFFFFFF), (45, 1, 16)] extra
def sound : List Nat := [0, 0, 0, 0, 0, 0]
def learning (s : State) (g : Nat) : State :=
  tens s [{ tensor 1 1 1 2 2 with slots := 3, editions := [⟨1, [], [], 1, none⟩] }, { tensor 2 0 4 2 2 with data := if g = 0 then [] else [(0, BitVec.ofNat 32 g)] }]
/-- `n` members in the D group, this one rank 0. -/
def group (n : Nat) : State := { imposed with imp := { imposed.imp with cur := some ⟨1, 64, 1, 64, 1, [n, 1, 1, 1], [0, 0, 0, 0], []⟩ } }

/-- `UpdatesAwaitTheirVerdicts`: alone, with a gradient that is finite and one that is not; a check it fails; a larger group. -/
theorem test_meets_update : (one (learning up 0) (update sound)).Sound ∧ (one (learning up 0) (update sound)).Clean ∧
    (one (learning up 0) (update sound)).Begins (update sound) ∧ (one (learning up 0) (update sound)).Ready 0 0x0706 (update sound) ∧
    (one (learning up 0) (update sound)).dGroup = (1, 0) ∧ (one (learning up 0) (update sound)).ownVerdict (update sound) = none ∧
    (one (learning up 0) (update sound)).verdictsOn 0 = [] ∧
    ((one (learning up 0) (update sound)).tensor 2).map ((one (learning up 0) (update sound)).gradBad ·) = some false ∧
    ((one (learning up 0x7F800000) (update sound)).tensor 2).map ((one (learning up 0x7F800000) (update sound)).gradBad ·) = some true ∧
    (update sound).uSkip = true ∧ (one (learning up 0) (update [0, 0, 0, 0, 0, 1, 6, 0x0180])).ownVerdict (update [0, 0, 0, 0, 0, 1, 6, 0x0180]) =
      some ⟨6, 0x0180, 0⟩ := by
  refine ⟨sound_of ?_, clean_of ?_, begins_of ?_, ready_of ?_, ?_, ?_, ?_, ?_, ?_, ?_, ?_⟩ <;> decide +kernel

theorem test_meets_verdicts : (one (learning (group 3) 0) (update sound)).Ready 0 0x0706 (update sound) ∧
    (one (learning (group 3) 0) (update sound)).Begins (update sound) ∧
    (one (learning (group 3) 0) (update sound)).dPeers = [1, 2] ∧
    (one (learning (group 3) 0) (parked (update sound) [16])).Waits 0 (parked (update sound) [16]) ∧
    (∀ v ∈ (one (learning (group 3) 0) (parked (update sound) [16])).verdictsOn 0, v.status = stOK ∧ v.rank ≠ 2) ∧ stTimeout ≠ stOK ∧
    (regs up [(Reg.ringTimeout 0, 1)]).reg (Reg.ringTimeout 0) ≠ 0 := by
  refine ⟨ready_of ?_, begins_placed ?_, ?_, waits_of ?_, ?_, ?_, ?_⟩ <;> decide +kernel

/-- SET_STEP_SIZE of slots 15 and 16, and RETIRE_EDITION of the current edition of weight 1. -/
def step (slot : Nat) : Cmd := cmd 0x0705 [(32, 1, slot)]
def retire (n take : Nat) : Cmd := cmd 0x0707 [(32, 4, 1), (36, 4, 0xFFFFFFFF), (40, 2, n), (42, 1, take)]

/-- `StepSizesAndEditionHolds`. -/
theorem test_meets_step_sizes : (one up (step 15)).Sound ∧ (one up (step 15)).Begins (step 15) ∧ (one up (step 15)).Ready 0 0x0705 (step 15) ∧
    (step 15).par 32 1 ≤ 15 ∧ 15 < (step 16).par 32 1 ∧ (ended (step 15) stOK).status = stOK ∧
    (one (learning up 0) (retire 1 0)).Begins (retire 1 0) ∧ (one (learning up 0) (retire 1 0)).Ready 0 0x0707 (retire 1 0) ∧
    ((one (learning up 0) (retire 1 0)).tensor 1).bind (fun w => w.edition (if (retire 1 0).par 36 4 = noHandle then w.currentEdition
      else (retire 1 0).par 36 4)) = some ⟨1, [], [], 1, none⟩ ∧ bit ((retire 1 0).par 42 1) 0 = 0 ∧ (retire 1 0).par 40 2 ≤ 1 ∧
    bit ((retire 65534 1).par 42 1) 0 = 1 ∧ 1 + (retire 65534 1).par 40 2 ≤ 65535 ∧ (retire 0 0).par 40 2 = 0 ∧ 1 < (retire 2 0).par 40 2 := by
  refine ⟨sound_of ?_, begins_of ?_, ready_of ?_, ?_, ?_, ?_, begins_of ?_, ready_of ?_, ?_, ?_, ?_, ?_, ?_, ?_, ?_⟩ <;> decide +kernel

/-! ### Witnesses: collectives -/

/-- A collective of two members, this one rank 0, from tensor 1 to tensor 2, of step 7, committed to tally 9. -/
def collCmd (op : Nat) (extra : List Nat) : Cmd :=
  cmd op [(32, 4, 1), (36, 4, 2), (42, 1, 12), (43, 1, 1), (44, 2, 9), (46, 2, 1), (54, 2, 1), (56, 4, 7)] extra
def collOn (op : Nat) : Coll := { coll 0 op (collCmd op []).pkt with stamp := 1, members := 2, rank := 0 }
def collTensors (s : State) : State := tens s [tensor 1 1 0 2 2, tensor 2 1 0 2 4]
def withColls (l : List Coll) (s : State) : State := { s with coll := { s.coll with colls := l } }
def six : List Nat := [0x0801, 0x0802, 0x0803, 0x0804, 0x0805, 0x0806]

/-- `CollectivesStartOrWait`, of all six: refused, aborted, waiting for space, and starting with chunks to await. -/
theorem test_meets_collectives : (∀ op ∈ six, let s := withColls [collOn op] (one (collTensors up) (collCmd op [0]))
    s.cmdOf 0 = some (collCmd op [0]) ∧ (collCmd op [0]).opcode = op ∧ s.mayStart (collCmd op [0]) = true ∧
      s.holdReason (collCmd op [0]) = none ∧ s.collOf 0 = some (collOn op) ∧ s.freeSlot = some 0 ∧
      collShare (collCmd op [0]) ≤ s.storeFree ∧ s.earlierWaits (collCmd op [0]) = false ∧
      (s.takeSaves (collCmd op [0])).isSome = true ∧ s.tensor 1 = some (tensor 1 1 0 2 2) ∧
      { collOn op with input := List.replicate 8 0 }.awaits ≠ []) ∧
    (one up (collCmd 0x0803 [1, 0x0100])).Ready 0 0x0803 (collCmd 0x0803 [1, 0x0100]) ∧
    (one up (collCmd 0x0803 [1, 0x0100])).Begins (collCmd 0x0803 [1, 0x0100]) ∧
    (one up (collCmd 0x0803 [2])).Ready 0 0x0803 (collCmd 0x0803 [2]) ∧
    (withColls [{ collOn 0x0803 with id := 5, share := 2 ^ 26 }] up).storeFree < collShare (collCmd 0x0803 [0]) ∧
    (one up (parked (collCmd 0x0803 [0]) [21])).Waits 0 (parked (collCmd 0x0803 [0]) [21]) := by
  refine ⟨?_, ready_of ?_, begins_of ?_, ready_of ?_, ?_, waits_of ?_⟩ <;> decide +kernel

/-- A chunk of eight zero bytes from rank 1, with a CRC-64 (that of zeros is 0); the collective awaits it and another. -/
def chunkMsg (crc : Nat) : List Byte :=
  [(0, 4, 3), (4, 4, 77), (12, 2, 1), (14, 1, 1), (15, 1, 1), (16, 4, 8), (40, 8, crc)].foldl field (List.replicate 48 0)
def running : Coll :=
  { collOn 0x0803 with slot := some 0, input := List.replicate 8 0, expect := [⟨1, 1, 0, 0⟩, ⟨1, 1, 1, 0⟩] }
def collRuns (x : Coll) : State := withColls [x] (one (collTensors up) (parked (collCmd 0x0803 []) [22]))

/-- `ChunksAreCheckedAndCommitted`: a chunk that fails and one that passes. -/
theorem test_meets_chunk : (collRuns running).Sound ∧ (collRuns running).collBySeq (fieldAt (chunkMsg 0) 15 1) (fieldAt (chunkMsg 0) 0 4) = some running ∧
    (collRuns running).collOf 0 = some running ∧ fieldAt (chunkMsg 0) 4 4 = running.descCheck ∧ running.slot.isSome = true ∧
    running.arriving (fieldAt (chunkMsg 0) 14 1) ⟨fieldAt (chunkMsg 0) 14 1, fieldAt (chunkMsg 0) 12 2, fieldAt (chunkMsg 0) 8 4, 0⟩ =
      some ⟨1, 1, 0, 0⟩ ∧ running.addressed = false ∧ running.opcode ≠ 0x0806 ∧ fieldAt (chunkMsg 0) 16 4 = running.len ⟨1, 1, 0, 0⟩ ∧
    (((chunkMsg 0).drop 32).take 8).length = 8 ∧ crc64 (((chunkMsg 0).drop 32).take 8) = fieldAt (chunkMsg 0) 40 8 ∧
    crc64 (((chunkMsg 1).drop 32).take 8) ≠ fieldAt (chunkMsg 1) 40 8 ∧ ⟨1, 1, 0, 0⟩ ∈ running.writesOut ∧
    (collRuns running).declared (running.par 36 4) = some (tensor 2 1 0 2 4) ∧ running.next ⟨1, 1, 0, 0⟩ = running.origin ⟨1, 1, 0, 0⟩ ∧
    running.expect.erase ⟨1, 1, 0, 0⟩ ≠ [] ∧ running.queued = [] := by
  refine ⟨sound_of ?_, ?_, ?_, ?_, ?_, ?_, ?_, ?_, ?_, ?_, ?_, ?_, ?_, ?_, ?_, ?_, ?_⟩ <;> decide +kernel

/-- A re-request of a chunk of this member's own, whose copy meets its CRC or not; a DONE and a COMMIT. -/
theorem test_meets_commit : (collRuns running).Clean ∧ (collRuns running).collBySeq 1 3 = some running ∧
    (collRuns running).retainedCopy running ⟨1, 0, 0, 0⟩ = some (List.replicate 8 0) ∧
    (∀ r ∈ running.crcs, r.1 = ⟨1, 0, 0, 0⟩ → r.2 = crc64 (List.replicate 8 0)) ∧
    (∃ r ∈ { running with crcs := [(⟨1, 0, 0, 0⟩, 1)] }.crcs, r.1 = ⟨1, 0, 0, 0⟩ ∧ r.2 ≠ crc64 (List.replicate 8 0)) ∧
    (group 2).axis 1 = some (2, 0) ∧ (group 2).collBySeq 1 3 = none ∧ (group 2).coll.dones = [] ∧
    bit (running.par 43 1) 0 = 1 ∧ bit ({ running with pkt := packet 0x0803 [] }.par 43 1) 0 = 0 := by
  refine ⟨clean_of ?_, ?_, ?_, ?_, ⟨_, List.mem_singleton.2 rfl, rfl, ?_⟩, ?_, ?_, ?_, ?_, ?_⟩ <;> decide +kernel

/-- A command that reads tensor 1 or 2, whose marks name collective 9. -/
def marked (failed : List Nat) (c : Cmd) : State :=
  let s := one (learning up 0) c
  { s with tens := s.tens.map (fun t => { t with marks := [9] }), coll := { CollSt.reset with failed := failed } }

/-- `AFailedCollectiveEndsItsStep`. -/
theorem test_meets_failure : (collRuns running).cmdOf 0 = some (parked (collCmd 0x0803 []) [22]) ∧
    (parked (collCmd 0x0803 []) [22]).phase.unfinished = true ∧ running.localDone = false ∧ (collRuns running).tally.waiters = [] ∧
    (regs (collRuns running) [(Reg.collTimeout, 1)]).fld Reg.collTimeout 31 0 ≠ 0 ∧ up.Up ∧
    (marked [9] (parked (update sound) [5])).Waits 0 (parked (update sound) [5]) ∧
    (∃ m ∈ (marked [9] (parked (update sound) [5])).readMarks (parked (update sound) [5]), m ∈ [9]) ∧
    (marked [9] (parked (matmul 0x0401 []) [5])).readMarks (parked (matmul 0x0401 []) [5]) = [9] ∧
    (marked [9] (parked (matmul 0x0401 []) [5])).collOf 0 = none ∧
    (marked [9] (parked (collCmd 0x0803 []) [5])).readMarks (parked (collCmd 0x0803 []) [5]) = [9] ∧
    (∀ m ∈ (marked [] (parked (matmul 0x0401 []) [5])).readMarks (parked (matmul 0x0401 []) [5]), m ∉ up.coll.failed) ∧
    (marked [] (parked (matmul 0x0401 []) [5])).holdReason (parked (matmul 0x0401 []) [5]) ≠ some 5 ∧
    (one up (parked (matmul 0x0401 []) [20])).holdReason (parked (matmul 0x0401 []) [20]) ≠ some 20 := by
  refine ⟨?_, ?_, ?_, ?_, ?_, up_of ?_, waits_of ?_, ⟨9, ?_, List.mem_singleton.2 rfl⟩, ?_, ?_, ?_, ?_, ?_, ?_⟩ <;> decide +kernel

/-! ### Witnesses: the Feeder, convolution, proofs, tests -/

/-- Stream 3, open on text, its epoch begun or not, at a position of its order. -/
def stream3 (started : Bool) (pos : Nat) : FeedStream :=
  { number := 3, imgC := 0, imgH := 0, imgW := 0, manifest := 0, vocab := 0, cacheGib := 0, cachePages := [], started := started,
    shuffled := false, deadline := true, pad := false, epoch := 0, seed := 0, entries := 0, shardCount := 1, shardIndex := 0, nextPos := pos,
    nextOffset := 0, decoded := [], log := [(0, 0, 0, 9)], cache := [] }
def feeding (l : List FeedStream) (c : Cmd) : State :=
  { one (tens up [tensor 1 0 6 1 64, tensor 2 1 6 1 64]) c with feed := ⟨l⟩ }
def feed (op : Nat) (fields : List (Nat × Nat × Nat)) (extra : List Nat := []) : Cmd := cmd op ((32, 1, 3) :: fields) extra
def rows1 (count : Nat) : Cmd := feed 0x0903 [(36, 4, 1), (40, 4, 2), (44, 4, 0xFFFFFFFF), (48, 4, 1), (52, 4, 64)] [count]

/-- `FeederCommandsComplete`: opening without a cache and with the largest, an epoch, and closing. -/
theorem test_meets_feeder : (feeding [] (feed 0x0901 [(44, 4, 1)])).Sound ∧ (feeding [] (feed 0x0901 [(44, 4, 1)])).Begins (feed 0x0901 [(44, 4, 1)]) ∧
    (feeding [] (feed 0x0901 [(44, 4, 1)])).Ready 0 0x0901 (feed 0x0901 [(44, 4, 1)]) ∧ (feeding [] (feed 0x0901 [(44, 4, 1)])).stream 3 = none ∧
    (feed 0x0901 [(44, 4, 1)]).par 35 1 = 0 ∧ bit ((feed 0x0901 [(33, 1, 1), (34, 1, 64), (44, 4, 1)]).par 33 1) 0 = 1 ∧
    pagesFor ((feed 0x0901 [(33, 1, 1), (34, 1, 64)]).par 34 1 * 2 ^ 30) ≤ (feeding [] (feed 0x0901 [])).freePages ∧
    (feeding [stream3 false 0] (feed 0x0902 [(48, 4, 1)] [1])).Ready 0 0x0902 (feed 0x0902 [(48, 4, 1)] [1]) ∧
    (feeding [stream3 false 0] (feed 0x0902 [(48, 4, 1)] [1])).feedBusy (feed 0x0902 [(48, 4, 1)] [1]) (fun d => d.opcode = 0x0903) = false ∧
    (feed 0x0902 [(48, 4, 1)] [1]).par 56 4 % 1 = (feed 0x0902 [(48, 4, 1)] [1]).par 52 4 ∧
    (feeding [stream3 false 0] (feed 0x0905 [])).Ready 0 0x0905 (feed 0x0905 []) ∧
    (feeding [stream3 false 0] (feed 0x0905 [])).feedBusy (feed 0x0905 []) (fun _ => true) = false := by
  refine ⟨sound_of ?_, begins_of ?_, ready_of ?_, ?_, ?_, ?_, ?_, ready_of ?_, ?_, ?_, ready_of ?_, ?_⟩ <;> decide +kernel

/-- FEED_ROWS that needs a sample, and one at the end of its epoch; FEED_SKIP_LOG of one entry. -/
def skipLog : Cmd := feed 0x0904 [(33, 1, 1), (48, 4, 4096)]

theorem test_meets_feed_rows : (feeding [stream3 true 0] (rows1 10)).Ready 0 0x0903 (rows1 10) ∧
    (feeding [stream3 true 0] (rows1 10)).Begins (rows1 10) ∧ (feeding [stream3 true 0] (rows1 10)).rowsFault (rows1 10) = none ∧
    (feeding [stream3 true 0] (rows1 10)).noWorkers = false ∧
    (stream3 true 0).progress (parked (rows1 10) [19]) = .needs 0 ∧
    (∃ p, (stream3 true 10).progress (parked (rows1 10) [19]) = .done p 10 0 true) ∧
    (feeding [stream3 true 0] skipLog).Ready 0 0x0904 skipLog ∧ (feeding [stream3 true 0] skipLog).Begins skipLog ∧ skipLog.par 48 4 ≤ 4096 ∧
    (feeding [stream3 true 0] skipLog).rangeFault (skipLog.par 40 8) 16 = none ∧
    (feeding [stream3 true 0] skipLog).rangeGate skipLog [] [(localOf (skipLog.par 40 8), 16)] = none ∧
    ((feeding [stream3 true 0] skipLog).saveBytes 0 (List.replicate 16 1)).2 = none := by
  refine ⟨ready_of ?_, begins_of ?_, ?_, ?_, ?_, ⟨⟨0, 0, 0, [], [], [], 0, false⟩, ?_⟩, ready_of ?_, begins_of ?_, ?_, ?_, ?_, ?_⟩ <;>
    decide +kernel

/-- No memory stands still in a device that is cool and moves nothing. -/
theorem test_nothing_stalled (a m : Nat) : up.feedStalled a m = false := by
  have h : ∀ k < 16, up.stackStopped k = false := by decide +kernel
  have p : ∀ q, up.pageStopped q = false := fun q => h _ (by simp [State.channelOf, show up.mem.remap = [] from rfl]; omega)
  have e : up.imp.moves = [] := rfl
  simp [State.feedStalled, State.stalledRange, p, e]

/-- `FeederWorkersDecode`: the last position of the window; the position at the head, past its deadline. -/
theorem test_meets_workers :
    ({ regs up [(Reg.feedEntries 3, 5000)] with feed := ⟨[stream3 true 0]⟩ }).stream 3 = some (stream3 true 0) ∧
    ({ regs up [(Reg.feedEntries 3, 5000)] with feed := ⟨[stream3 true 0]⟩ }).noWorkers = false ∧
    up.feedRunning 3 = none ∧ (∀ e ∈ (stream3 true 0).decoded, e.1 ≠ 4096) ∧ 4096 - (stream3 true 0).nextPos ≤ 4096 * (stream3 true 0).shardCount ∧
    4096 % (stream3 true 0).shardCount = (stream3 true 0).shardIndex ∧ 4096 < (regs up [(Reg.feedEntries 3, 5000)]).fld (Reg.feedEntries 3) 31 0 ∧
    (stream3 true 0).started = true ∧ (stream3 true 0).deadline = true ∧ up.Up ∧ up.Sound := by
  refine ⟨?_, ?_, ?_, ?_, ?_, ?_, ?_, ?_, ?_, up_of ?_, sound_of ?_⟩ <;> decide +kernel

/-- A convolution of one pixel by one tap, and a pooling of it. -/
def conv1 (op : Nat) (extra : List Nat) : Cmd :=
  cmd op [(32, 4, 1), (36, 4, 2), (40, 4, 3), (44, 1, 1), (45, 1, 1), (46, 1, 0), (47, 1, 2), (48, 2, 1), (50, 2, 1), (52, 1, 1), (53, 1, 1),
    (54, 1, 0x11), (55, 1, 0x11), (60, 4, 1), (64, 4, 1), (68, 4, 1)] extra
def pool1 : Cmd := cmd 0x0A03 [(32, 4, 1), (36, 4, 4), (40, 2, 1), (42, 2, 1), (44, 4, 1)]
def pixel (s : State) : State := tens s [tensor 1 1 0 1 1, tensor 2 1 2 1 1, tensor 3 0 5 1 1, tensor 4 0 6 1 1]

/-- `ConvolutionCommandsComplete`. -/
theorem test_meets_convolution : (∀ op ∈ [0x0A01, 0x0A02, 0x0A04], let s := one (pixel imposed) (conv1 op [0])
    s.convFault (conv1 op [0]) = none ∧ s.takeSaves (conv1 op [0]) = some s ∧ s.holdReason (conv1 op [0]) = none ∧
      s.cmdOf 0 = some (conv1 op [0]) ∧ (conv1 op [0]).opcode = op ∧ s.mayStart (conv1 op [0]) = true) ∧
    (one (pixel imposed) (conv1 0x0A01 [0])).Sound ∧ (one (pixel imposed) (conv1 0x0A01 [0])).Clean ∧
    (one (pixel imposed) (conv1 0x0A01 [0])).Begins (conv1 0x0A01 [0]) ∧ (conv1 0x0A01 [0]).cAccOut = true ∧
    (((one (pixel imposed) (conv1 0x0A04 [0])).shareGroves 1).filter fun g => bit 0 g = 0 ∧ bit 0 (8 + g) = 0) = [0] ∧
    (one (pixel imposed) pool1).Ready 0 0x0A03 pool1 ∧ (one (pixel imposed) pool1).poolFault pool1 = none ∧
    (one (pixel imposed) pool1).Begins pool1 := by
  refine ⟨?_, sound_of ?_, clean_of ?_, begins_placed ?_, ?_, ?_, ready_of ?_, ?_, begins_placed ?_⟩ <;> decide +kernel

/-- A PROOF_NOW that has waited; a PROOF_AT_TIME whose time has come, and one whose time has not. -/
def proofs (c : Cmd) : State := one up c
def now23 : Cmd := parked (cmd 0x0C01 []) [23]
def at24 (t : Nat) : Cmd := parked (cmd 0x0C02 []) [24, t, 1]

/-- `TriggersMakeProofs`. -/
theorem test_meets_triggers : (one up (cmd 0x0C01 [])).Sound ∧ (one up (cmd 0x0C01 [])).Ready 0 0x0C01 (cmd 0x0C01 []) ∧
    (one up (cmd 0x0C02 [])).Ready 0 0x0C02 (cmd 0x0C02 []) ∧ (proofs now23).proofWaiter 23 = some now23 ∧ now23.id = 0 ∧
    up.fld Reg.proofState 31 31 = 0 ∧ (regs up [(Reg.proofState, 2 ^ 31)]).fld Reg.proofState 31 31 = 1 ∧
    (proofs (at24 0)).proofWaiter 24 = some (at24 0) ∧ (at24 0).aux.getD 1 0 ≤ up.fab.ptp.now / 1000 ∧ (at24 0).aux.getD 2 0 = 1 ∧
    (proofs (at24 1)).proofWaiter 24 = some (at24 1) ∧ up.fab.ptp.now / 1000 < (at24 1).aux.getD 1 0 ∧
    (regs up [(Reg.proofCfg, 2 ^ 31)]).fld Reg.proofCfg 31 31 = 1 ∧ up.obs.pull = false ∧ up.obs.deaf ≤ up.time ∧ up.pwr.held = false ∧
    up.fld Reg.proofCfg 31 31 = 0 ∧ ({ ObsSt.reset with pull := true }).pull = true ∧ up.Up := by
  refine ⟨sound_of ?_, ready_of ?_, ready_of ?_, ?_, ?_, ?_, ?_, ?_, ?_, ?_, ?_, ?_, ?_, ?_, ?_, ?_, ?_, ?_, up_of ?_⟩ <;> decide +kernel

/-- Eight bytes of the register region, to the start of HBM, with CLEAR. -/
def read8 (op : Nat) : Cmd := cmd op [(44, 4, 8), (48, 1, 1)]
def pictured : State := { one up (read8 0x0C03) with obs := { ObsSt.reset with image := some ⟨1, [], []⟩ } }
def cleared : State := (List.range 1).foldl (fun s i => (regSpans (8 * i) 8).foldl State.clearRC s) (one up (read8 0x0C04))

/-- `ReadsOfProofsAndCounters`. -/
theorem test_meets_reads : pictured.Ready 0 0x0C03 (read8 0x0C03) ∧ pictured.obs.image = some ⟨1, [], []⟩ ∧ pictured.rangeOk (read8 0x0C03) = true ∧
    nodeOf ((read8 0x0C03).par 32 8) = pictured.node ∧ pictured.rangeFault 0 8 = none ∧
    pictured.rangeGate (read8 0x0C03) [] [(0, 8)] = none ∧ 0 < (read8 0x0C03).readBytes ∧
    (pictured.saveBytes 0 (regionBytes (⟨1, [], []⟩ : ProofImage).reg 0 8)).2 = none ∧ (one up (read8 0x0C03)).obs.image = none ∧
    (one up (read8 0x0C04)).Ready 0 0x0C04 (read8 0x0C04) ∧ (one up (read8 0x0C04)).rangeOk (read8 0x0C04) = true ∧
    cleared.rangeFault 0 8 = none ∧ cleared.rangeGate (read8 0x0C04) [] [(0, 8)] = none ∧ cleared.node = up.node ∧
    (cleared.saveBytes 0 (regionBytes (one up (read8 0x0C04)).regView 0 8)).2 = none ∧
    (one up (cmd 0x0C04 [(44, 4, 4)])).rangeOk (cmd 0x0C04 [(44, 4, 4)]) = false := by
  refine ⟨ready_of ?_, ?_, ?_, ?_, ?_, ?_, ?_, ?_, ?_, ready_of ?_, ?_, ?_, ?_, ?_, ?_, ?_⟩ <;> decide +kernel

/-- Link 63 on D128, its resets SIGNALLED. -/
def linked : State := regs up [(Reg.linkCfg 63, 2 ^ 30), (Reg.cdcRstmode, 15)]
def test (op : Nat) : Cmd := cmd op [(32, 8, 2 ^ 64 - 1)]

/-- `TestsRunOrAreDeferred`. -/
theorem test_meets_tests : imposed.imp.cur.isSome = true ∧ bit (cmd 0x0D01 [(2, 2, 0x100)]).flags 8 = 1 ∧ bit (test 0x0D01).flags 8 = 0 ∧
    (∀ op ∈ [0x0D01, 0x0D02, 0x0D04], (one up (test op)).cmdOf 0 = some (test op) ∧ (test op).opcode = op) ∧
    (one up (test 0x0D01)).Ready 0 0x0D01 (test 0x0D01) ∧ up.imp.cur = none ∧ up.isFatal = false ∧ up.imp.capTally = none ∧
    (one up (test 0x0D01)).Sound ∧ reportAddr (test 0x0D01).pkt = 2 ^ 64 - 1 ∧ up.assigned = [] ∧
    (one up (cmd 0x0D03 [(32, 1, 255)])).Sound ∧ (one up (cmd 0x0D03 [(32, 1, 255)])).Ready 0 0x0D03 (cmd 0x0D03 [(32, 1, 255)]) ∧
    up.mem.outChannels.contains 255 = false ∧ ({ MemSt.reset with outChannels := [255] }).outChannels.contains 255 = true ∧
    up.fld (Reg.channelState 255) 63 62 = 0 ∧ (one up (cmd 0x0D05 [(32, 1, 64)])).Ready 0 0x0D05 (cmd 0x0D05 [(32, 1, 64)]) ∧
    (one linked (cmd 0x0D05 [(32, 1, 63)])).Ready 0 0x0D05 (cmd 0x0D05 [(32, 1, 63)]) ∧ linked.fld (Reg.linkCfg 63) 31 30 = 1 ∧
    (linked.link 63).retraining = none ∧ linked.fld Reg.cdcRstmode 2 2 = 1 ∧ linked.fld Reg.linkEventCfg 31 31 = 0 ∧ up.idle = true ∧
    (([⟨1, [], true⟩] : List TestWork).find? fun t => t.kind = 1 ∧ t.running) = some ⟨1, [], true⟩ := by
  refine ⟨?_, ?_, ?_, ?_, ready_of ?_, ?_, ?_, ?_, sound_of ?_, ?_, ?_, sound_of ?_, ready_of ?_, ?_, ?_, ?_, ready_of ?_, ready_of ?_,
    ?_, ?_, ?_, ?_, ?_, ?_⟩ <;> decide +kernel

/-! ### Witnesses: start-up, power and reset, links -/

/-- A device at a stage of start-up. -/
def stage (k : Nat) : State := { up with boot := { BootSt.reset with next := k } }

/-- `StartUpStagesPass`: the stages, and the profile fields their clauses turn on. What the signatures of the flash slots
and the identity of the device are, the opaque functions of Config decide: the clauses of stage 3 cover every answer. -/
theorem test_meets_start_up : (stage 1).Up ∧ (stage 1).Sound ∧ (∀ k ∈ [1, 2, 3, 4, 5, 6, 7, 8, 9], (stage k).boot.next = k) ∧
    bit (fieldAt (stage 7).boot.profile 2 1) 0 = 0 ∧ bit (fieldAt [0, 0, (1 : Byte)] 2 1) 0 = 1 ∧
    profileMode ([0, 0, 0, 0, 1] : List Byte) 0 = 1 ∧ ([(0, (⟨1, 0, false⟩ : LinkTraining))].find? (fun x => x.1 = 0)).isSome = true ∧
    (stage 9).gcl.queued = [] := by
  refine ⟨up_of ?_, sound_of ?_, ?_, ?_, ?_, ?_, ?_, ?_⟩ <;> decide +kernel

theorem test_meets_slots (s : State) : (∃ f p, s.chooseSlot 1 = some f ∧ s.chooseSlot 2 = some p) ∨ s.chooseSlot 1 = none ∨
    ∃ f, s.chooseSlot 1 = some f ∧ s.chooseSlot 2 = none := by
  cases s.chooseSlot 1 <;> cases s.chooseSlot 2 <;> simp

/-- A device at stage 7 with no repair recorded. -/
def unrepaired : State :=
  { up with boot := { BootSt.reset with next := 7, flash := Sparse.setMany flashDefault [] 0x10000 (List.replicate 8 0xFF) } }

theorem test_meets_repairs : unrepaired.repairs = [] ∧ Sparse.wf flashDefault unrepaired.boot.flash = true := by
  have hw : Sparse.wf flashDefault ([] : List (Nat × Byte)) = true := Sparse.wf_nil
  have h : unrepaired.flashNat repairOffset 8 = 2 ^ 64 - 1 := by
    simp only [State.flashNat, State.flashBytes, unrepaired, Sparse.getMany, repairOffset, Sparse.get_setMany hw]
    decide +kernel
  exact ⟨by simp [State.repairs, State.repairEntries, h], Sparse.setMany_wf hw⟩

/-- `ClockPowerAndResetEventsTakePlace`: each cause of a full reset and each event of the clocks and copses, at the ends of
its ranges. -/
theorem test_meets_resets : up.Sound ∧ up.Up ∧ { up with cmd := { CmdSt.reset with resetPhase := 2 } }.cmd.resetPhase = 2 ∧
    bits 0x52530000 31 16 = 0x5253 ∧ up.fld Reg.cdcRstmode 0 0 = 0 ∧ up.fld Reg.cdcRstmode 1 1 = 0 ∧ 4 < up.boot.next ∧
    (regs up [(Reg.watchdog, 2 ^ 31 + 50)]).fld Reg.watchdog 31 31 = 1 ∧
    { regs up [(Reg.watchdog, 2 ^ 31 + 50)] with time := 5000000 }.watchdogOut = true ∧ State.reset.pwr.powered = true ∧
    State.reset.pwr.held = true ∧ { PwrSt.reset with pinLow := false, inRange := true }.pinLow = false ∧ (∀ c ∈ PwrSt.reset.temps, c < 100) ∧
    { PwrSt.reset with powered := false }.powered = false := by
  refine ⟨sound_of ?_, up_of ?_, ?_, ?_, ?_, ?_, ?_, ?_, ?_, ?_, ?_, ?_, ?_, ?_⟩ <;> decide +kernel

theorem test_meets_power : junctionLevel (up.fld (Reg.junction 3) 30 29) (groveReading [.value 97]) ≠ 3 ∧
    junctionLevel (up.fld (Reg.junction 3) 30 29) (groveReading [.failed]) = 3 ∧
    (regs up [(Reg.clkState, 2 ^ 27)]).fld Reg.clkState 27 27 = 1 ∧ { MemSt.reset with trained := true, subslot := 31 }.subslot = 31 ∧
    (regs up [(Reg.gateCfg, 1)]).fld Reg.gateCfg 15 0 ≠ 0 ∧ up.isRetired 255 = false ∧ up.isGated 255 = false ∧ up.copseWorks 255 = false ∧
    (∀ x ∈ up.imp.sweep, x.1 ≠ 255) ∧ (255, 1) ∈ { PwrSt.reset with gates := [(255, 1)] }.gates ∧ 255 ∉ up.pwr.waking ∧
    (regs up [(Reg.gateCfg, 2 ^ 31)]).fld Reg.gateCfg 31 31 = 1 ∧ up.carriesUnit 255 = false ∧
    { up with pwr := { up.pwr with gates := [(255, 1)] } }.isGated 255 = true ∧ 255 ∈ { PwrSt.reset with waking := [255] }.waking ∧
    (regs up [(Reg.cdcRstmode, 3)]).fld Reg.cdcRstmode 0 0 = 1 ∧ (regs up [(Reg.cdcRstmode, 3)]).fld Reg.cdcRstmode 1 1 = 1 ∧
    up.fld (Reg.channelState 255) 63 62 = 0 ∧ up.coll.colls = [] := by decide +kernel

/-- Link 63 in a state (2 UP, 1 training, 0 DOWN), in a mode (1 D128, 2 Ethernet), its resets SIGNALLED. -/
def link63 (st mode : Nat) : State :=
  regs up [(Reg.linkCfg 63, mode * 2 ^ 30), (Reg.linkState 63, st * 2 ^ 29), (Reg.cdcRstmode, 15)]

/-- A block whose parity is wrong throughout, and one of padding in its turn. -/
def badBlock : List Byte := (List.range 272).map fun i => BitVec.ofNat 8 (i * i + 1)
def padBlock : List Byte := d128Block 0 127 0 0 0 (List.replicate 256 0)

/-- `LinkEventsTakePlace`. -/
theorem test_meets_links : (link63 2 1).Up ∧ (link63 2 1).Sound ∧ (link63 2 1).fld (Reg.linkState 63) 31 29 = 2 ∧
    (link63 2 1).fld (Reg.linkCfg 63) 31 30 = 1 ∧ ((link63 2 1).link 63).queued = [] ∧ ((link63 2 1).link 63).awaiting = false ∧
    (∀ u ∈ [(⟨0, 0, [], []⟩ : LinkBlock)], seqBefore u.seq (0 % 1024) = false) ∧ ((link63 2 1).link 63).replayCount ≠ 15 ∧
    ((link63 2 1).link 63).badBlocks.length < 65535 ∧ ((link63 2 1).link 63).partials = [] ∧ (link63 2 1).fld Reg.cdcRstmode 2 2 = 1 ∧
    (link63 2 1).fld Reg.linkEventCfg 31 31 = 0 ∧ (regs (link63 2 1) [(Reg.cdcRstmode, 0)]).fld Reg.cdcRstmode 2 2 = 0 ∧
    (link63 0 1).fld (Reg.linkState 63) 31 29 = 0 ∧ (link63 0 1).fld (Reg.linkCfg 63) 23 23 = 0 ∧
    (link63 1 1).fld (Reg.linkState 63) 31 29 = 1 ∧ ((link63 1 1).link 63).retraining = none ∧
    (∀ c ∈ (link63 1 1).fab.tx, ∀ u ∈ c.unacked, u.sent = true) ∧ 2 ≤ (link63 2 2).fld (Reg.linkCfg 63) 31 30 := by
  refine ⟨up_of ?_, sound_of ?_, ?_, ?_, ?_, ?_, ?_, ?_, ?_, ?_, ?_, ?_, ?_, ?_, ?_, ?_, ?_, ?_, ?_⟩ <;> decide +kernel

theorem test_meets_bad_block : badBlock.length = 272 ∧ (blockDecode badBlock).1 = none := by decide +kernel

theorem test_meets_block : padBlock.length = 272 ∧ (blockDecode padBlock).1.map (fun d => (bits (fieldAt d 0 4) 21 20,
    bits (fieldAt d 0 4) 9 0, bits (fieldAt d 0 4) 28 22)) = some (0, 0, 127) := by decide +kernel

/-- The class that a port maps its pauses to, if any, is an opaque choice of Config: the clauses cover each. -/
theorem test_meets_pfc (n : Nat) : Config.pfcClass n = none ∨ ∃ k, Config.pfcClass n = some k := by
  cases Config.pfcClass n <;> simp

/-! ### Witnesses: the fabric, queue pairs and the clock -/

theorem comes_of {s : State} {n : Nat} {f : IfpFrame} (h : (s.pwr.powered && ! s.pwr.held && decide (n < 64 ∧
    s.fld (Reg.linkState n) 31 29 = 2 ∧ f.dst = s.node ∧ f.icrc = crc32 (ifpHeader f ++ f.payload) ∧ f.ece = false)) = true) :
    s.Comes n f := by
  simp only [Bool.and_eq_true, decide_eq_true_eq] at h
  exact ⟨up_of (by simpa using h.1), h.2.1, h.2.2.1, h.2.2.2.1, h.2.2.2.2.1, h.2.2.2.2.2⟩

theorem in_turn_of {s : State} {f : IfpFrame} {r : ConnRx} (h : decide (s.connRx f.src f.cls = some r ∧ r.epoch = f.epoch ∧
    r.expected = f.seq ∧ r.held = [] ∧ s.connBusy f.src f.cls = false ∧ r.sinceAck < 15 ∧
    (s.connTx f.src f.cls).unacked = []) = true) : s.InTurn f r := by
  obtain ⟨a, b, c, d, e, g, k⟩ := of_decide_eq_true h
  exact ⟨a, b, c, d, e, g, k⟩

/-- A whole frame of node 5 for node 0. -/
def ifpOf (typ cls msg addr aux : Nat) (d : List Byte) : IfpFrame :=
  let f : IfpFrame :=
    { version := 1, hops := 3, typ := typ, cls := cls, ece := false, last := true, retx := false, epoch := 0, src := 5,
      dst := 0, msgId := msg, seq := 2 ^ 32 - 1, ack := 1, addr := addr, aux := aux, payload := d, icrc := 0 }
  { f with icrc := crc32 (ifpHeader f ++ d) }

/-- What node 0 has received of a connection of node 5, at the last SEQ before the wrap. -/
def heard (cls epoch : Nat) : ConnRx :=
  { node := 5, cls := cls, epoch := epoch, expected := 2 ^ 32 - 1, held := [], sinceAck := 14, waiting := [], eceDue := false,
    lastCnp := 0, cnpYet := false }

/-- The device with link 63 up and three connections of node 5. -/
def joined : State :=
  let s := regs up [(Reg.linkCfg 63, 2 ^ 30), (Reg.linkState 63, 2 ^ 30)]
  { s with fab := { s.fab with rx := [heard 2 0, heard 1 0, heard 0 0] } }

/-- `FabricFramesTakePlace`, WRITE, READ_REQ, TALLY_ADD, WATCH, WATCH_CANCEL, and the rows of each class: the last byte of
HBM, 1 byte and 4,096, the last tally. -/
theorem test_meets_frames : joined.Sound ∧ joined.Comes 63 (ifpOf 1 2 7 0x5FFFFFFFFF 0 [9]) ∧
    joined.InTurn (ifpOf 1 2 7 0x5FFFFFFFFF 0 [9]) (heard 2 0) ∧ joined.Comes 63 (ifpOf 2 2 7 0x1000 4096 []) ∧
    joined.InTurn (ifpOf 2 2 7 0x1000 4096 []) (heard 2 0) ∧ joined.Clean := by
  refine ⟨sound_of ?_, comes_of ?_, in_turn_of ?_, comes_of ?_, in_turn_of ?_, clean_of ?_⟩ <;> decide +kernel

theorem test_meets_frame_memory : regionOf (localOf 0x5FFFFFFFFF) = .hbm ∧ joined.storeBlocks 0x5FFFFFFFFF 1 = [] ∧
    joined.memFault 0x5FFFFFFFFF 1 = none ∧ (∀ i, joined.qpIsReady i = false) ∧ joined.stalledRange 0x5FFFFFFFFF 1 = false ∧
    (pages 0x5FFFFFFFFF 1).any joined.unbackedPage = false ∧ regionOf (localOf 0x1000) = .hbm ∧
    joined.loadBlocks 0x1000 4096 = [] ∧ joined.memFault 0x1000 4096 = none ∧ joined.stalledRange 0x1000 4096 = false ∧
    (pages 0x1000 4096).any joined.unbackedPage = false := by
  refine ⟨?_, ?_, ?_, fun i => rfl, ?_, ?_, ?_, ?_, ?_, ?_, ?_⟩ <;> decide +kernel

/-- READ_RESP: an 8-byte read of a TALLY_READ, the last response of one read. -/
def asked (p : IfpPurpose) (c : Cmd) : State :=
  let s := one joined c
  { s with fab := { s.fab with reads := [{ node := 5, msgId := 7, addr := 5 * 2 ^ 48 + 64, total := 8, data := [], purpose := p }] } }

def tallyReader : Cmd := parked (cmd 0x0B05 []) [2]

theorem test_meets_read_resp : (asked (.cmd 0) tallyReader).Sound ∧
    (asked (.cmd 0) tallyReader).Comes 63 (ifpOf 3 2 7 0 0 (leBytes 8 99)) ∧
    (asked (.cmd 0) tallyReader).InTurn (ifpOf 3 2 7 0 0 (leBytes 8 99)) (heard 2 0) ∧
    ((asked (.cmd 0) tallyReader).fab.reads.find? (fun x => x.node = 5 ∧ x.msgId = 7)).map (·.purpose) = some (.cmd 0) ∧
    (asked (.cmd 0) tallyReader).cmdOf 0 = some tallyReader ∧ tallyReader.opcode = 0x0B05 := by
  refine ⟨sound_of ?_, comes_of ?_, in_turn_of ?_, ?_, ?_, ?_⟩ <;> decide +kernel

/-- TALLY_ADD and WATCH of tally 65,535 with no waiter, and a WATCH of a value it does not have. -/
theorem test_meets_tally_frames : tallyIndex 0x21000007FFF8 = some 65535 ∧ (∀ w ∈ joined.tally.waiters, w.tally ≠ 65535) ∧
    joined.watchCount < 1024 ∧ (⟨65535, true, 7, .watch 5 3⟩ : Waiter).metBy (joined.tallyVal 65535) = false ∧
    joined.Comes 63 (ifpOf 4 2 7 0x21000007FFF8 0 (leBytes 8 3)) ∧
    joined.Comes 63 (ifpOf 5 2 7 0x21000007FFF8 0 (leBytes 8 7 ++ [1, 0, 3, 0])) ∧ joined.Comes 63 (ifpOf 7 2 7 0 0 [3, 0]) ∧
    joined.InTurn (ifpOf 4 2 7 0x21000007FFF8 0 (leBytes 8 3)) (heard 2 0) ∧
    joined.InTurn (ifpOf 5 2 7 0x21000007FFF8 0 (leBytes 8 7 ++ [1, 0, 3, 0])) (heard 2 0) ∧
    joined.InTurn (ifpOf 7 2 7 0 0 [3, 0]) (heard 2 0) := by
  refine ⟨?_, ?_, ?_, ?_, comes_of ?_, comes_of ?_, comes_of ?_, in_turn_of ?_, in_turn_of ?_, in_turn_of ?_⟩ <;> decide +kernel

/-- A TALLY_WAIT that watches a tally of node 5 under number 3. -/
def watcher : Cmd := parked (cmd 0x0B04 [(40, 8, 2 ^ 64 - 1)]) [3, 5, 3]

theorem test_meets_notify : (one joined watcher).Sound ∧ (one joined watcher).Comes 63 (ifpOf 6 2 7 0 0 [3, 0]) ∧
    (one joined watcher).InTurn (ifpOf 6 2 7 0 0 [3, 0]) (heard 2 0) ∧ (one joined watcher).cmd.cmds.find?
      (fun c => c.phase = .waiting ∧ c.aux = [3, 5, fieldAt [(3 : Byte), 0] 0 2]) = some watcher := by
  refine ⟨sound_of ?_, comes_of ?_, in_turn_of ?_, ?_⟩ <;> decide +kernel

/-- SCHED: 64 bytes of tensor 9, with an imposition in force; an ERROR of a node that does not answer a COPY; CONTROL. -/
def fed : State :=
  { tens joined [tensor 9 0 2 16 16] with imp := imposed.imp }

def copier : Cmd := parked (cmd 0x0201 []) [2]

theorem test_meets_sched : fed.Sound ∧ fed.Comes 63 (ifpOf 8 0 7 (9 * 2 ^ 32 + 15) 0 (List.replicate 64 1)) ∧
    fed.InTurn (ifpOf 8 0 7 (9 * 2 ^ 32 + 15) 0 (List.replicate 64 1)) (heard 0 0) ∧
    fed.tensor ((9 * 2 ^ 32 + 15) / 2 ^ 32 % 2 ^ 32) = some (tensor 9 0 2 16 16) ∧ fed.imp.cur.isSome = true ∧ fed.imp.moves = [] := by
  refine ⟨sound_of ?_, comes_of ?_, in_turn_of ?_, ?_, ?_, ?_⟩ <;> decide +kernel

theorem test_meets_error : (asked (.cmd 0) copier).Sound ∧ (asked (.cmd 0) copier).Comes 63 (ifpOf 11 1 7 64 0 (leBytes 8 6)) ∧
    (asked (.cmd 0) copier).InTurn (ifpOf 11 1 7 64 0 (leBytes 8 6)) (heard 1 0) ∧ (asked (.cmd 0) copier).cmdOf 0 = some copier ∧
    copier.opcode / 256 = 2 ∧ fieldAt (leBytes 8 6) 0 1 ≠ faultUnreachable ∧ fieldAt (leBytes 8 6) 0 1 ≠ 0 ∧
    (asked (.cmd 0) copier).fld Reg.fabricErr 0 0 = 0 ∧ joined.Comes 63 (ifpOf 13 1 7 0 0 []) ∧
    joined.InTurn (ifpOf 13 1 7 0 0 []) (heard 1 0) := by
  refine ⟨sound_of ?_, comes_of ?_, in_turn_of ?_, ?_, ?_, ?_, ?_, ?_, comes_of ?_, in_turn_of ?_⟩ <;> decide +kernel

/-- A node that comes back under a new EPOCH, and a TALLY_WAIT that watches a tally of it. -/
theorem test_meets_new_epoch : (one joined watcher).Comes 63 (ifpOf 9 2 7 0 0 []) ∧
    (one { joined with fab := { joined.fab with rx := [heard 2 255] } } watcher).connRx 5 2 = some (heard 2 255) ∧
    (heard 2 255).epoch ≠ (ifpOf 9 2 7 0 0 []).epoch ∧ ((one joined watcher).connTx 5 2).unacked = [] ∧
    (one { joined with fab := { joined.fab with rx := [heard 2 255] } } watcher).Sound ∧
    (one { joined with fab := { joined.fab with rx := [heard 2 255] } } watcher).Comes 63 (ifpOf 9 2 7 0 0 []) := by
  refine ⟨comes_of ?_, ?_, ?_, ?_, sound_of ?_, comes_of ?_⟩ <;> decide +kernel

/-- What node 0 has sent to node 5: one frame, SEQ 1, not acknowledged. -/
def sending : Unacked := ⟨{ ifpOf 1 2 7 0 0 [1] with src := 0, dst := 5, seq := 1 }, 0, .plain, true⟩
def told (cls : Nat) (l : List Unacked) : State :=
  { joined with fab := { joined.fab with
      tx := [{ node := 5, cls := cls, epoch := 255, seq := 1, msgId := 8, unacked := l, rate := 8, lastCut := 5, cutYet := false }] } }

theorem test_meets_answers : (told 2 [sending]).Sound ∧ (told 2 [sending]).Comes 63 (ifpOf 9 2 7 0 0 []) ∧
    (∀ r, (told 2 [sending]).connRx 5 2 = some r → r.epoch = 0) ∧
    (((told 2 [sending]).connTx 5 2).seq + 2 ^ 32 - 1) % 2 ^ 32 < 2 ^ 31 ∧ ((told 2 [sending]).connTx 5 2).unacked = [sending] ∧
    sending.purpose = .plain ∧ (told 2 [sending]).Comes 63 (ifpOf 10 2 7 0 0 []) ∧ sending.frame.seq = (ifpOf 10 2 7 0 0 []).ack ∧
    sending.retries < (told 2 [sending]).retryLimit ∧ (told 2 []).Sound ∧ (told 2 []).Comes 63 (ifpOf 12 2 7 0 0 []) ∧
    ((told 2 []).connTx 5 2).unacked = [] ∧ ((told 2 []).connTx 5 2).cutYet = false := by
  have key : (told 2 [sending]).connRx 5 2 = some (heard 2 0) := by decide +kernel
  refine ⟨sound_of ?_, comes_of ?_, fun r h => ?_, ?_, ?_, ?_, comes_of ?_, ?_, ?_, sound_of ?_, comes_of ?_, ?_, ?_⟩
  case refine_3 => rw [key] at h; cases h; rfl
  all_goals decide +kernel

/-- The timers of a connection: frames to acknowledge, one unacknowledged, no route, a rate to raise. -/
theorem test_meets_timers : (told 0 [sending]).Up ∧ (told 0 [sending]).Sound ∧ joined.connRx 5 2 = some (heard 2 0) ∧
    0 < (heard 2 0).sinceAck ∧ sending.sent = true ∧ sending.retries < (told 2 [sending]).retryLimit ∧
    (told 0 [sending]).routeGroup 5 = none ∧ (told 0 [sending]).fab.tx.any (fun x => decide (x.node = 5 ∧ x.cls = 0)) = true ∧
    (told 0 [sending]).coll.colls = [] ∧ (told 0 [sending]).gradWaiters 5 = [] ∧ (told 0 [sending]).ringWaiters 5 = [] ∧
    0 ≠ roceClass := by
  refine ⟨up_of ?_, sound_of ?_, ?_, ?_, ?_, ?_, ?_, ?_, ?_, ?_, ?_, ?_⟩ <;> decide +kernel

/-- A context of a queue pair on port 62, its receive ring of two descriptors at 0x100 (Table 11.17). -/
def qpCtx : List Byte :=
  [(0, 2, 7), (2, 1, 1), (7, 1, 62), (11, 1, 7), (44, 8, 0x100), (52, 1, 1), (53, 1, 1), (54, 2, 65535)].foldl field (List.replicate 64 0)

/-- Queue pair 255, ready. -/
def pair (l : List (Nat × RoceMsg × Nat)) (ctx : List Byte := qpCtx) : QueuePair :=
  { index := 255, ctx := ctx, state := 1, sqPsn := 9, rqPsn := 2 ^ 24 - 1, unacked := l, retries := 6, rnrRetries := 0, recvIdx := 0,
    recvLen := 0, recvWrite := none, nakSent := false, rate := 8, lastCut := 5, cutYet := false }

/-- Port 62 an Ethernet port that is up, 256 contexts at 0x2000, one window at 0x3000 over addresses 64 to 127 with both
rights, and a descriptor at 0x100 of 16 bytes at 0x1000. -/
def wired (l : List QueuePair) : State :=
  let s := regs up [(Reg.linkCfg 62, 2 * 2 ^ 30), (Reg.linkState 62, 2 ^ 30), (Reg.roceCfg, 0x2000 + 256), (Reg.roceWin, 0x3001)]
  { s with
    fab := { s.fab with qps := l }
    mem := { s.mem with bytes := [(0x101, 0x10), (0x108, 16), (0x3000, 64), (0x3008, 64), (0x3010, 5), (0x3014, 3)] } }

/-- `QueuePairsAndClockFollow`: a SEND, an RDMA WRITE and an RDMA READ request in turn. -/
theorem test_meets_pair : (wired [pair []]).Up ∧ (wired [pair []]).Sound ∧ (wired [pair []]).qp 255 = some (pair []) ∧
    fieldAt qpCtx 7 1 = 62 ∧ (wired [pair []]).fld (Reg.linkState 62) 31 29 = 2 ∧ 2 ≤ (wired [pair []]).fld (Reg.linkCfg 62) 31 30 ∧
    recvDescriptor (pair []) = 0x100 ∧ bit (fieldAt ((wired [pair []]).bytesAt 0x100 16) 12 4) 31 = 0 ∧
    fieldAt ((wired [pair []]).bytesAt 0x100 16) 8 4 = 16 ∧ (wired [pair []]).windowOk 64 64 5 0 = true ∧
    (wired [pair []]).windowOk 127 1 5 1 = true ∧ bit (fieldAt qpCtx 53 1) 0 = 1 ∧ fieldAt qpCtx 54 2 = 65535 := by
  refine ⟨up_of ?_, sound_of ?_, ?_, ?_, ?_, ?_, ?_, ?_, ?_, ?_, ?_, ?_, ?_⟩ <;> decide +kernel

/-- A read of 8 bytes for CHECKSUM, and the last write of a COPY. -/
def reading : QueuePair := pair [(9, .readReq 255 9 64 5 8, 0)]
def writing : QueuePair := pair [(9, .write 255 9 3 64 5 8 (List.replicate 8 1), 0)]
def summer : Cmd := parked (cmd 0x0204 [(40, 8, 8)]) [2]
def writer : Cmd := parked (cmd 0x0201 []) [1, 8]

theorem test_meets_requests : (wired [reading]).Up ∧ reading.index = 255 ∧ reading.state = 1 ∧
    (RoceMsg.readReq 255 9 64 5 8).isRead = true ∧ (one (wired [reading]) summer).cmdOf 0 = some summer ∧ summer.opcode = 0x0204 ∧
    (summer.buf ++ List.replicate 8 (7 : Byte)).length = summer.par 40 8 ∧ 0 < summer.par 40 8 ∧
    (one (wired [reading]) summer).fab.qps = [reading] ∧ (RoceMsg.write 255 9 3 64 5 8 (List.replicate 8 1)).isRead = false ∧
    (one (wired [writing]) writer).cmdOf 0 = some writer ∧ (one (wired [writing]) writer).purposeOpen (.cmd 0) = false ∧
    (RoceMsg.write 255 9 3 64 5 8 (List.replicate 8 1)).qp = 255 ∧ writing.retries < bits (fieldAt qpCtx 11 1) 2 0 ∧
    (wired [writing]).fld (Reg.linkState 62) 31 29 = 2 := by
  refine ⟨up_of ?_, ?_, ?_, ?_, ?_, ?_, ?_, ?_, ?_, ?_, ?_, ?_, ?_, ?_, ?_⟩ <;> decide +kernel

/-- A context whose STATE is written 1: the last one. -/
theorem test_meets_ready : (wired []).Sound ∧ (wired []).Clean ∧ 255 < (wired []).qpCount ∧ regionOf ((wired []).qpContext 255 + 2) = .hbm ∧
    (wired []).memFault ((wired []).qpContext 255 + 2) 1 = none ∧ (wired []).unbackedPage (((wired []).qpContext 255 + 2) / 4096) = false ∧
    (wired []).qpIsReady 255 = false := by
  refine ⟨sound_of ?_, clean_of ?_, ?_, ?_, ?_, ?_, ?_⟩ <;> decide +kernel

/-- PTP enabled in domain 255 on port 62: a one-step Sync, a Follow_Up of Sync 65,535, a Delay_Resp. -/
def clock : State :=
  let s := regs (wired []) [(Reg.ptpCfg, 2 ^ 31 + 2 ^ 29 + 62 * 2 ^ 8 + 255)]
  { s with fab := { s.fab with ptp := { s.fab.ptp with pendingSync := some (65535, 7, -3), delayReq := some (65535, 9) } } }

theorem test_meets_clock : clock.Up ∧ clock.Sound ∧ clock.fld Reg.ptpCfg 31 31 = 1 ∧ clock.fld Reg.ptpCfg 7 0 = 255 ∧
    clock.fld Reg.ptpCfg 30 29 = 1 ∧ clock.fld Reg.ptpCfg 13 8 = 62 ∧ clock.fld (Reg.linkState 62) 31 29 = 2 ∧
    2 ≤ clock.fld (Reg.linkCfg 62) 31 30 ∧ clock.fab.ptp.pendingSync = some (65535, 7, -3) ∧
    clock.fab.ptp.delayReq = some (65535, 9) := by
  refine ⟨up_of ?_, sound_of ?_, ?_, ?_, ?_, ?_, ?_, ?_, ?_, ?_⟩ <;> decide +kernel

/-! ### Witnesses: the companion -/

/-- The GCL up, no reset on loss, 64 MiB of coherent window at 0x4000000; its lines and its requests as given. -/
def hosted (dir : List (Nat × DirState)) (reqs : List (Nat × GclPurpose)) (snoops : List Snoop) : State :=
  let s := regs up [(Reg.gclState, 2 ^ 30), (Reg.cdcRstmode, 15), (Reg.gclCohBase, 0x4000000), (Reg.gclCohSize, 1)]
  { s with gcl := { s.gcl with dir := dir, reqs := reqs, snoops := snoops } }

/-- A load or a store that meets no fault. -/
def isOk {α : Type} : Except Nat α → Bool
  | .ok _ => true
  | .error _ => false

theorem load_of {x : State × Except Nat (List Byte)} (h : isOk x.2 = true) : ∃ u d, x = (u, .ok d) := by
  obtain ⟨u, r⟩ := x
  cases r with
  | ok d => exact ⟨u, d, rfl⟩
  | error e => exact absurd h (by simp [isOk])

theorem store_of {x : State × Option Nat} (h : x.2 = none) : ∃ u, x = (u, none) := by
  obtain ⟨u, r⟩ := x
  exact ⟨u, by rw [← h]⟩

/-- `CompanionMessagesTakePlace`: RD_NC, WR_NC and WR_POSTED of 64 bytes and of one, here and on another node. -/
theorem test_meets_requests_here : (hosted [] [] []).Up ∧ (hosted [] [] []).Sound ∧ (hosted [] [] []).gclUp = true ∧
    (hosted [] [] []).connBusy 0 gclClass = false ∧
    (hosted [] [] [⟨0x100000, true, [.read 3 0x4000000 8]⟩]).connBusy 0 gclClass = true ∧
    sizeOk 0 64 = true ∧ sizeOk 63 1 = true ∧ nodeOf 63 = (hosted [] [] []).node ∧
    (hosted [] [] []).stalledRange (localOf 63) 1 = false ∧ (hosted [] [] []).snoopOf 0 = none ∧
    (∃ u d, (hosted [] [] []).serveLoad (localOf 63) 1 = (u, .ok d)) ∧
    (∃ u, (hosted [] [] []).serveStore (localOf 0) (List.replicate 64 1) = (u, none)) ∧
    ((hosted [] [] []).serveStore (localOf 0) (List.replicate 64 1)).1.pwr.held = false ∧
    sizeOk (5 * 2 ^ 48) 64 = true ∧ nodeOf (5 * 2 ^ 48) ≠ (hosted [] [] []).node ∧
    (hosted [] [] []).aliasQp (nodeOf (5 * 2 ^ 48)) = none := by
  refine ⟨up_of ?_, sound_of ?_, ?_, ?_, ?_, ?_, ?_, ?_, ?_, ?_, load_of ?_, store_of ?_, ?_, ?_, ?_, ?_⟩ <;> decide +kernel

/-- Lines: the first of the window INV and asked for; EXCL and given up. -/
theorem test_meets_lines : (hosted [] [] []).coherent 0x4000000 = true ∧ (hosted [] [] []).inDirectory 0x4000000 = false ∧
    (hosted [] [] []).snoopOf 0x100000 = none ∧ (hosted [] [] []).dirOf 0x100000 ≠ .excl ∧
    (hosted [] [] []).stalledRange (64 * 0x100000) 64 = false ∧
    (∃ u d, (hosted [] [] []).serveLoad (64 * 0x100000) 64 = (u, .ok d)) ∧
    (hosted [(0x100000, .shared)] [] []).dirOf 0x100000 = .shared ∧ (hosted [(0x100000, .excl)] [] []).dirOf 0x100000 = .excl ∧
    (hosted [(0x100000, .excl)] [] []).coherent 0x4000000 = true ∧
    (∃ u, (hosted [(0x100000, .excl)] [] []).lineWrite 0x100000 (List.replicate 64 1) = (u, none)) := by
  refine ⟨?_, ?_, ?_, ?_, ?_, load_of ?_, ?_, ?_, ?_, store_of ?_⟩ <;> decide +kernel

/-- Requests of the device in flight: a snoop, the last reply write of a command, a fetch of slot 3 of ring 0. -/
def snooping : State := hosted [(0x100000, .excl)] [(4095, .snoop 0x100000)] [⟨0x100000, true, []⟩]
def fetching : State :=
  let s := hosted [] [(4095, .fetch 0 3)] []
  { s.setReg (Reg.ringCfg 0) 0x61 with cmd := { s.cmd with rings := s.cmd.rings.set 0 ⟨4, [], false, false⟩ } }

theorem test_meets_tags : snooping.Sound ∧ snooping.snoopTagged 4095 = some ⟨0x100000, true, []⟩ ∧ snooping.gcl.waiting = [] ∧
    snooping.mem.stalled = [] ∧ (∃ u, snooping.lineWrite 0x100000 (List.replicate 64 1) = (u, none)) ∧
    (hosted [] [(0, .reply 9 true)] []).gclPurpose 0 = some (.reply 9 true) ∧ fetching.Sound ∧
    fetching.gclPurpose 4095 = some (.fetch 0 3) ∧ (fetching.gclRetire 4095).fetchWanted 0 3 = true := by
  refine ⟨sound_of ?_, ?_, ?_, ?_, store_of ?_, ?_, sound_of ?_, ?_, ?_⟩ <;> decide +kernel

/-- A flit in its turn that acknowledges SEQ 0, and the flits the device has sent. -/
def goodFlit : List Byte := gclFlit 15 3 0 1 0 []
def flits : State :=
  { hosted [] [] [] with gcl := { (hosted [] [] []).gcl with unacked := [(0, .cmp 4095), (1, .cmp 4094)], replayCount := 14 } }

theorem test_meets_flits : flits.Sound ∧ (∀ u ∈ flits.gcl.unacked, seqBefore u.1 (0 % 1024) = false) ∧ flits.gcl.unacked ≠ [] ∧
    flits.gcl.replayCount ≠ 15 ∧ flits.gcl.queued = [] ∧ flits.gcl.partials = [] ∧ goodFlit.length = 256 ∧
    flits.fld Reg.cdcRstmode 3 3 = 1 ∧ flits.gcl.snoops = [] ∧ (regs flits [(Reg.cdcRstmode, 0)]).fld Reg.cdcRstmode 3 3 = 0 ∧
    (regs flits [(Reg.gclState, 2 ^ 29)]).fld Reg.gclState 31 29 = 1 := by
  refine ⟨sound_of ?_, ?_, ?_, ?_, ?_, ?_, ?_, ?_, ?_, ?_, ?_⟩ <;> decide +kernel

theorem test_meets_good_flit : (flitDecode goodFlit).1.map (fun d => (decide (crc32 (d.take 244) = fieldAt d 244 4),
    bits (fieldAt d 0 4) 21 20, bits (fieldAt d 0 4) 9 0, (List.range 15).all fun i => fieldAt ((d.drop (4 + 16 * i)).take 16) 0 1 = 0)) =
    some (true, 0, flits.gcl.seqRx, true) := by decide +kernel

/-- A flit of zeros: its parity holds, its CRC does not. -/
theorem test_meets_bad_flit : ((flitDecode (List.replicate 256 0)).1.map fun d =>
    decide (crc32 (d.take 244) = fieldAt d 244 4)) = some false := by decide +kernel

/-! ### Witnesses: security, the monitor, SMBus and JTAG -/

/-- ATTEST and the certificates, written to 0x1000; the report as dispatch found it is 368 bytes. -/
def attest : Cmd := { cmd 0x0E01 [(64, 8, 0x1000)] with buf := List.replicate 368 0 }
def certify (k : Nat) : Cmd := cmd 0x0E02 [(32, 1, k), (40, 8, 0x1000)]

theorem sized_length (n : Nat) (d : List Byte) : (sized n d).length = n := by
  simp only [sized, List.length_take, List.length_append, List.length_replicate]
  omega

theorem report_length : (signedReport attest.buf).length = 3741 := by
  have h : attest.buf.length = 368 := List.length_replicate
  simp only [signedReport, List.length_append, sized_length, h]

theorem many_length (l : List (Nat × Byte)) : ∀ n o, (Sparse.getMany flashDefault l o n).length = n
  | 0, _ => rfl
  | n + 1, o => by simp [Sparse.getMany, many_length l n]

theorem cert_length (s : State) : s.deviceCert.length = certLen ∧ s.makerCert.length = certLen ∧
    (sized certLen s.boot.ownerCert).length = certLen := by
  refine ⟨?_, ?_, sized_length _ _⟩ <;> exact many_length _ _ _

theorem save_of (s : State) (a : Nat) (d : List Byte) (h : s.mergeStops a d.length = []) : ∃ u, s.saveBytes a d = (u, none) :=
  store_of (by simp [State.saveBytes, h])

/-- `SecurityAndConsoleAnswer`: the report and a certificate. -/
theorem test_meets_reports : ((one up attest).earlier attest fun d => decide (functionOf d.opcode = 13) && d.phase.unfinished) = false ∧
    (one up attest).Ready 0 0x0E01 attest ∧ attest.par 64 8 = 0x1000 ∧ (one up (certify 2)).Ready 0 0x0E02 (certify 2) ∧
    (certify 2).par 40 8 = 0x1000 ∧ (certify 2).par 32 1 = 2 ∧ nodeOf 0x1000 = up.node ∧ up.rangeFault 0x1000 3741 = none ∧
    up.rangeFault 0x1000 certLen = none ∧ (one up attest).rangeGate attest [] [(localOf 0x1000, 3741)] = none ∧
    (one up (certify 2)).rangeGate (certify 2) [] [(localOf 0x1000, certLen)] = none := by
  refine ⟨?_, ready_of ?_, ?_, ready_of ?_, ?_, ?_, ?_, ?_, ?_, ?_, ?_⟩ <;> decide +kernel

theorem test_meets_report_stores : (∃ u, (one up attest).saveBytes (localOf 0x1000) (signedReport attest.buf) = (u, none)) ∧
    ∃ u, (one up (certify 2)).saveBytes (localOf 0x1000) (sized certLen (one up (certify 2)).boot.ownerCert) = (u, none) := by
  refine ⟨save_of _ _ _ ?_, save_of _ _ _ ?_⟩
  · rw [report_length]; decide +kernel
  · rw [(cert_length _).2.2]; decide +kernel

/-- A token, a firmware and a profile to read at 0x1000: of the last two, the header of an object with no body. -/
def present (op k len : Nat) : Cmd := cmd op [(32, 8, 0x1000), (40, 4, len), (44, 1, k)]
def objectIn (k : Nat) : State :=
  { up with mem := { up.mem with bytes := [(0x1000, 0x43), (0x1001, 0x4C), (0x1002, 0x53), (0x1003, 0x47), (0x1004, BitVec.ofNat 8 k)] } }

theorem test_meets_token : (one up (present 0x0E03 0 tokenLen)).Ready 0 0x0E03 (present 0x0E03 0 tokenLen) ∧
    (one up (present 0x0E03 0 tokenLen)).Clean ∧ up.rangeFault 0x1000 tokenLen = none ∧ (present 0x0E03 0 tokenLen).par 40 4 = tokenLen ∧
    (one up (present 0x0E03 0 tokenLen)).rangeGate (present 0x0E03 0 tokenLen) [(localOf 0x1000, tokenLen)] [] = none ∧
    ∃ u d, (one up (present 0x0E03 0 tokenLen)).loadBytes (localOf 0x1000) tokenLen = (u, .ok d) := by
  refine ⟨ready_of ?_, clean_of ?_, ?_, ?_, ?_, load_of ?_⟩ <;> decide +kernel

/-- Whether a token or an image holds, the opaque functions of Config decide: each clause is of one answer. -/
theorem test_meets_answers_of_objects (s : State) (k : Nat) (d : List Byte) : ((∃ t, s.unlock d = .ok t) ∨ ∃ o, s.unlock d = .error o) ∧
    ((∃ t svn slot, s.activate k = .ok (t, svn, slot)) ∨ ∃ e, s.activate k = .error e) ∧
    (s.tokenFault d = none ∨ s.tokenFault d ≠ none) := by
  refine ⟨?_, ?_, Classical.em _⟩
  · cases s.unlock d <;> simp
  · cases h : s.activate k with
    | ok x => exact .inl ⟨x.1, x.2.1, x.2.2, rfl⟩
    | error e => exact .inr ⟨e, rfl⟩

theorem test_meets_stage : (one (objectIn 2) (present 0x0E04 2 3405)).Ready 0 0x0E04 (present 0x0E04 2 3405) ∧
    (one (objectIn 2) (present 0x0E04 2 3405)).Clean ∧ (present 0x0E04 2 3405).par 44 1 = 2 ∧ 3405 ≤ slotSize 2 ∧
    (objectIn 2).rangeFault 0x1000 3405 = none ∧
    (one (objectIn 2) (present 0x0E04 2 3405)).rangeGate (present 0x0E04 2 3405) [(localOf 0x1000, 3405)] [] = none ∧
    ((one (objectIn 2) (present 0x0E04 2 3405)).readStop (localOf 0x1000) 3405) = .none := by
  refine ⟨ready_of ?_, clean_of ?_, ?_, ?_, ?_, ?_, ?_⟩ <;> decide +kernel

/-- The object loaded there is well-formed. -/
theorem test_meets_staged : stageFault 2 ((objectIn 2).shownBytes 0x1000 3405) = none := by decide +kernel

/-- ACTIVATE_IMAGE of either kind. -/
theorem test_meets_activate : (one up (cmd 0x0E05 [(32, 1, 1)])).Ready 0 0x0E05 (cmd 0x0E05 [(32, 1, 1)]) ∧
    (cmd 0x0E05 [(32, 1, 1)]).par 32 1 = 1 ∧ (one up (cmd 0x0E05 [(32, 1, 2)])).Ready 0 0x0E05 (cmd 0x0E05 [(32, 1, 2)]) ∧
    (cmd 0x0E05 [(32, 1, 2)]).par 32 1 = 2 := by
  refine ⟨ready_of ?_, ?_, ready_of ?_, ?_⟩ <;> decide +kernel

/-- The monitor in its modes, locked and unlocked; registers, memory at the ends of HBM and of the window, a retained proof. -/
def unlocked : State := { up with regs := [(Reg.secState, 3)], obs := { up.obs with image := some ⟨1, [], []⟩ } }

theorem test_meets_monitor : up.Sound ∧ up.monitor = .normal ∧ up.locked = true ∧ unlocked.Sound ∧ unlocked.monitor = .normal ∧
    unlocked.locked = false ∧ { up with boot := { BootSt.reset with next := 0 } }.monitor = .recovery ∧ (List.replicate tokenLen (0 : Byte)).length = tokenLen ∧
    (consoleSize Reg.deviceId).isSome = true ∧ rangeIn .hbm 0x5FFFFFFFFF 1 = true ∧ rangeIn .window 0x100000000000 256 = true ∧
    (∃ u d, unlocked.loadBytes 0x5FFFFFFFFF 1 = (u, .ok d)) ∧ (∃ u d, unlocked.loadBytes 0x100000000000 256 = (u, .ok d)) ∧
    0xFFFFFF + 1 ≤ 0x1000000 ∧ unlocked.obs.image.isSome = true ∧ 0xFFFF + 1 ≤ slotSize 2 ∧ 0xFFF800 + 2048 ≤ slotSize 1 ∧
    up.pwr.powered = true := by
  refine ⟨sound_of ?_, ?_, ?_, sound_of ?_, ?_, ?_, ?_, List.length_replicate, ?_, ?_, ?_, load_of ?_, load_of ?_, ?_, ?_, ?_, ?_, ?_⟩ <;>
    decide +kernel

/-! ### Results that the spec gives

Expected values from its tables and worked examples, one step or one function each. -/

/-- Table 5.6, the spot values of the factory seed tables. -/
theorem test_seed_spots : factorySeed 0 0 = 0xFF8040 ∧ factorySeed 0 255 = 0x802008 ∧ factorySeed 3 0 = 0x800000 ∧
    factorySeed 4 0 = 0 ∧ factorySeed 8 0 = 0 ∧ factorySeed 9 0 = 0x800000 := by decide +kernel

theorem test_seed_spot_exp : factorySeed 3 128 = 0xB504F3 := by decide +kernel

/-- An unscaled element of a format. -/
def elem (fmt code : Nat) : Elem := ⟨decodeElem fmt code, 127, code⟩

/-- 03, the example after R79: E5M2 operands in one step. -/
theorem test_dot_e5m2 : (dot ⟨1, false, false⟩ 4 4 ((elem 4 0x4C, elem 4 0x4C) :: List.replicate 31 (elem 4 0x27, elem 4 0x04))
    (.fin false 0)) = (fp32.decode 0x43800001, Flags.none) := by decide +kernel

/-- 03, the example after R83: an overflow in one step and a NaN in the next, NV and OF set. -/
theorem test_dot_bf16 : ((dot ⟨1, false, false⟩ 1 1 ((List.range 32).map fun k =>
    if k = 5 then (elem 1 0x7F00, elem 1 0x4000) else if k = 20 then (elem 1 0x7FC1, elem 1 0x3F80)
    else (elem 1 0x3F80, elem 1 0x3F80)) (.fin false 0))) = (.nan, ⟨true, true, false, false⟩) := by decide +kernel

/-- 03, the example after R81: the parts of 0x3F802001. -/
theorem test_split : split32 0x3F802001 = (0x3F80, 0x3A80) := by decide +kernel

/-- 03, the example after R85: an MXFP4 block of 7.9 and -0.3. -/
theorem test_block_fp4 : (blockIn 0x17 ((.fin false (79 / 10), .rne) :: (.fin true (3 / 10), .rne) ::
    List.replicate 30 (.fin false 0, .rne))) = (0x7F, 0x7 :: 0x9 :: List.replicate 30 0, Flags.none) := by decide +kernel

/-- 12, the example after R319: the chain of four members, forward and back. -/
theorem test_reduce_chain : ([0x33800000, 0x33800000, 0x33800000].foldl (fun a x => (reduceElem 0 (some a) x).1)
      (reduceElem 0 none 0x3F800000).1 = 0x3F800000) ∧
    ([0x33800000, 0x33800000, 0x3F800000].foldl (fun a x => (reduceElem 0 (some a) x).1)
      (reduceElem 0 none 0x33800000).1 = 0x3F800002) := by decide +kernel

/-- 08, the example of R225: three missed steps of decay base 1 - 2^-9. -/
theorem test_pow : pow32 (.fin false (511 / 512)) 3 Flags.none = (fp32.decode 0x3F7E80C0, Flags.none) ∧ missed 11 7 = 3 := by
  decide +kernel

/-- 10, the example of Table 10.2: the place of HBM address 0x225A40. -/
theorem test_hbm_place : up.hbmPlace 0x225A40 = (37, ⟨1, 20, 2, 0, 0⟩) ∧ refreshedBank 4 1 = 20 := by decide +kernel

/-- 09, the example of R240: 491,520 tokens over 4,096 positions. -/
theorem test_imposition : ((one roomy impose64).nextImposition (cmd 0x0304 [(40, 4, 491520)])).toOption.map
    (fun i => (i.sliver, i.cores, i.spread)) = some (128, 3840, 1) := by decide +kernel

/-- 02, the example of a MATMUL on ring 2: its header and the first bytes of its reply. -/
def tagged : Cmd :=
  { cmd 0x0401 [] with
    ring := 2
    pkt := [0x01, 0x04, 0x11, 0x00, 0x03, 0x00, 0x2A, 0x00, 0x11, 0, 0, 0, 0x12, 0, 0, 0, 0x04] ++ List.replicate 79 0 }

theorem test_reply : tagged.opcode = 0x0401 ∧ tagged.tag = 0x2A ∧
    (replyBytes tagged true).take 10 = [0x01, 0x04, 0x00, 0x00, 0x2A, 0x80, 0x02, 0x00, 0x00, 0x00] := by decide +kernel

/-- TALLY_ADD wraps at 2^64 (02 R46), and ends OK. -/
theorem test_tally_add_wraps : (next? (exec (.tallyAdd 0) (one { rung with tally := { rung.tally with values := [(9, 2 ^ 64 - 1)] } }
    (cmd 0x0B01 [(32, 8, 0x210000000048), (40, 8, 3)])))).map (fun t => (t.tallyVal 9, t.cmd.cmds.map (·.status))) =
    some (2, [0]) := by decide +kernel

/-- FILL writes its pattern from the least significant byte (10 R284). -/
theorem test_fill : (next? (exec (.fill 0 Env.good) (one rung (cmd 0x0202 [(32, 8, 0x1000), (40, 8, 8), (48, 8, 0x807060504030201)])))).map
    (fun t => t.bytesAt 0xFFF 10) = some [0, 1, 2, 3, 4, 5, 6, 7, 8, 0] := by decide +kernel

/-- COPY of three bytes over itself reads all before it writes. -/
theorem test_copy : (next? (exec (.copy 0 Env.good) (one { rung with mem := { rung.mem with bytes := [(0x40, 1), (0x41, 2), (0x42, 3)] } }
    (cmd 0x0201 [(32, 8, 0x40), (40, 8, 0x1001), (48, 8, 3)])))).map (fun t => t.bytesAt 0x1000 5) = some [0, 1, 2, 3, 0] := by
  decide +kernel

/-- A step takes the command at the front of the queue and leaves the rest. -/
theorem test_step : (next? (Machine.step { up with pending := [.doorbell 0 5, .idcode] })).map (·.pending) = some [.idcode] := by
  decide +kernel

end Sys2Proof.Tests
end

section
/-! SUPPORT and PROOF. Registers by their offset (00 R9, 02 R62): the one register that an access to RING_TIMEOUT_n or
to ATTN_EMPTY_ROWS covers, what the access does to it and to the rest of the state, and the accesses made at a dispatch. -/

namespace Sys2Proof.Machine

/-! ### The rows that access registers -/

theorem exec_dispatch (s : State) : exec .dispatch s = execDispatch s := rfl
theorem exec_registerWrite (o n v : Nat) (s : State) : exec (.registerWrite o n v) s = execRegisterWrite o n v s :=
  rfl
theorem exec_readClear (o n : Nat) (s : State) : exec (.readClear o n) s = execReadClear o n s := rfl

/-! ### Shared facts of register accesses -/

/-- A register after one of its fields is set. -/
theorem State.reg_setFld_same {s : State} (hs : s.Sound) {off hi lo x : Nat} (h : lo ≤ hi) (hw : hi < 64) :
    (s.setFld off hi lo x).reg off = putBits (s.reg off) hi lo x := by
  rw [State.setFld, State.reg_setReg_same hs, Nat.mod_eq_of_lt (putBits_lt h hw State.reg_lt)]

/-- A register whose whole word is one field holds 0 once the field is set to 0. -/
theorem State.reg_setFld_whole_zero {s : State} (hs : s.Sound) {off : Nat} : (s.setFld off 63 0 0).reg off = 0 := by
  have h := State.fld_setFld_same (x := 0) hs (off := off) (Nat.zero_le 63) (by decide)
  rwa [State.fld, bits_eq, pow_zero, Nat.div_one, Nat.mod_eq_of_lt State.reg_lt] at h

/-- The registers below those of the cores belong to no copse, so that a clearing leaves them. -/
theorem State.coreRegGone_below_cores {s : State} {off : Nat} (h : off < 0x100000) : s.coreRegGone off = false := by
  simp [State.coreRegGone, Nat.not_le.2 h]

/-- A write of an access that covers one register is the write of that register alone. -/
theorem State.regWrite_one {s : State} {o n v a first count : Nat} (h : regSpans o n = [(a, first, count)]) :
    s.regWrite o n v = s.writeReg a first count (v / 2 ^ (8 * (a + first - o)) * 2 ^ (8 * first)) := by
  rw [State.regWrite, h, List.foldl_cons, List.foldl_nil]

/-- A read that covers one register clears the RC fields of that register alone. -/
theorem State.readReg_one {s : State} {o n : Nat} {x : Nat × Nat × Nat} (h : regSpans o n = [x]) :
    (s.readReg o n).2 = s.clearRC x := by
  rw [State.readReg, h, List.foldl_cons, List.foldl_nil]

/-- An offset below a family is none of its registers. -/
theorem inFamily_below {off base stride n : Nat} (h : off < base) : inFamily off base stride n = false := by
  simp [inFamily, Nat.not_le.2 h]

/-- Below the summaries of the arrays only RING_CFG_n, REPLY_CFG_n, the doorbell and the head of the replies have an
effect of their own: any other write there is the write of the register's fields. -/
theorem State.writeReg_eq_writeSpan {s : State} {off first count v : Nat} (hu : s.Up) (hlt : off < Reg.arithFlagsSummary)
    (hring : ∀ base ∈ [0x10000, 0x10008, 0x10010, 0x10014], inFamily off base 0x40 16 = false) :
    s.writeReg off first count v = s.writeSpan off first count v := by
  obtain ⟨hpow, hheld⟩ := hu
  have hne : ∀ o, Reg.arithFlagsSummary ≤ o → off ≠ o := fun o ho => (hlt.trans_le ho).ne
  have hbelow : ∀ base stride n, Reg.arithFlagsSummary ≤ base → inFamily off base stride n = false :=
    fun base _ _ hb => inFamily_below (hlt.trans_le hb)
  simp only [List.forall_mem_cons] at hring
  obtain ⟨hcfg, hreply, hbell, hhead, -⟩ := hring
  have hplain : off ≠ Reg.arithFlagsSummary ∧ off ≠ Reg.hbmMapOut ∧ off ≠ Reg.collAbort ∧ off ≠ Reg.gclIrqAck ∧
      off ≠ Reg.gclCohBase ∧ off ≠ Reg.gclCohSize ∧ off ≠ Reg.resetCtrl ∧ off ≠ Reg.aclkCap ∧ off ≠ Reg.proofState ∧
      off ≠ Reg.nodeMapBase := by
    refine ⟨?_, ?_, ?_, ?_, ?_, ?_, ?_, ?_, ?_, ?_⟩ <;> exact hne _ (by decide)
  have hfam : inFamily off 0xD0020 8 4 = false ∧ inFamily off 0xD0110 0x40 4 = false ∧
      inFamily off 0x240000 8 8192 = false ∧ inFamily off 0xB1028 0x40 64 = false ∧
      inFamily off 0xB1030 0x40 64 = false := by
    refine ⟨?_, ?_, ?_, ?_, ?_⟩ <;> exact hbelow _ _ _ (by decide)
  simp [State.writeReg, hpow, hheld, hcfg, hreply, hbell, hhead, hplain, hfam]

/-! ### RING_TIMEOUT_n, all of it RW -/

/-- The row of RING_TIMEOUT_n. -/
theorem ringTimeoutFamily : ∀ r < 16, regFamily (Reg.ringTimeout r) =
    some ⟨"RING_TIMEOUT_n", 0x10020, [(0x40, 16)], 4, [⟨31, 0, .rw, 0x0⟩]⟩ := by decide

/-- An access of the 4 bytes of RING_TIMEOUT_n covers that register and no other. -/
theorem ringTimeoutSpans : ∀ r < 16, regSpans (Reg.ringTimeout r) 4 = [(Reg.ringTimeout r, 0, 4)] := by decide

theorem ringTimeoutAccessOk : ∀ r < 16, regAccessOk (Reg.ringTimeout r) 4 = true := by decide

/-- RING_TIMEOUT_n lies in its ring's block beside the four registers whose writes have an effect of their own. -/
theorem ringTimeout_no_effect : ∀ r < 16, ∀ base ∈ [0x10000, 0x10008, 0x10010, 0x10014],
    inFamily (Reg.ringTimeout r) base 0x40 16 = false := by decide

/-- A write of the 4 bytes of RING_TIMEOUT_n puts the value in bits 31:0 and leaves everything else. -/
theorem writeReg_ringTimeout {s : State} {r v : Nat} (hu : s.Up) (hr : r < 16) :
    s.writeReg (Reg.ringTimeout r) 0 4 v = s.setFld (Reg.ringTimeout r) 31 0 (bits v 31 0) := by
  have hlt : Reg.ringTimeout r < Reg.arithFlagsSummary := by simp only [Reg.ringTimeout, Reg.arithFlagsSummary]; omega
  rw [State.writeReg_eq_writeSpan hu hlt (ringTimeout_no_effect r hr)]
  simp [State.writeSpan, ringTimeoutFamily r hr, State.coreRegGone_below_cores (hlt.trans (by decide)), writeField,
    State.setFld]

/-- The write of an access to RING_TIMEOUT_n. -/
theorem regWrite_ringTimeout {s : State} {r v : Nat} (hu : s.Up) (hr : r < 16) :
    s.regWrite (Reg.ringTimeout r) 4 (v % 2 ^ (8 * 4)) = s.setFld (Reg.ringTimeout r) 31 0 (v % 2 ^ 32) := by
  rw [State.regWrite_one (ringTimeoutSpans r hr), writeReg_ringTimeout hu hr]
  simp [bits]

theorem exec_registerWrite_ringTimeout {s : State} {r v : Nat} (hu : s.Up) (hr : r < 16) :
    exec (.registerWrite (Reg.ringTimeout r) 4 v) s = .next (s.setFld (Reg.ringTimeout r) 31 0 (v % 2 ^ 32)) := by
  rw [exec_registerWrite, execRegisterWrite, if_pos (ringTimeoutAccessOk r hr), regWrite_ringTimeout hu hr]

/-! ### ATTN_EMPTY_ROWS, all of it RC -/

/-- The row of ATTN_EMPTY_ROWS. -/
theorem attnEmptyRowsFamily : regFamily Reg.attnEmptyRows =
    some ⟨"ATTN_EMPTY_ROWS", 0x60018, [], 8, [⟨63, 0, .rc, 0x0⟩]⟩ := by decide

/-- An access of the 8 bytes of ATTN_EMPTY_ROWS covers that register and no other. -/
theorem attnEmptyRowsSpans : regSpans Reg.attnEmptyRows 8 = [(Reg.attnEmptyRows, 0, 8)] := by decide

/-- A read of all of ATTN_EMPTY_ROWS clears its field and leaves everything else. -/
theorem readReg_attnEmptyRows {s : State} :
    (s.readReg Reg.attnEmptyRows 8).2 = s.setFld Reg.attnEmptyRows 63 0 0 := by
  have hcore : s.coreRegGone Reg.attnEmptyRows = false := State.coreRegGone_below_cores (by decide)
  simp [State.readReg_one attnEmptyRowsSpans, State.clearRC, attnEmptyRowsFamily, hcore]

theorem exec_readClear_attnEmptyRows {s : State} (hu : s.Up) :
    exec (.readClear Reg.attnEmptyRows 8) s = .next (s.setFld Reg.attnEmptyRows 63 0 0) := by
  rw [exec_readClear, execReadClear, hu.when, if_pos (by decide), readReg_attnEmptyRows]

/-! ### READ_REG and WRITE_REG -/

/-- READ_REG reads at its dispatch and keeps the value for its reply. -/
theorem State.regAtDispatch_read {s : State} {c : Cmd} (hop : c.opcode = 0x0102)
    (hok : regOperandFault (c.par 32 4) (c.par 36 1) = none) :
    s.regAtDispatch c = (s.readReg (c.par 32 4) (c.par 36 1)).2.updCmd c.id fun d =>
      { d with latch := { d.latch with extra := [(s.readReg (c.par 32 4) (c.par 36 1)).1] } } := by
  simp [State.regAtDispatch, hop, hok]

/-- WRITE_REG writes at its dispatch. -/
theorem State.regAtDispatch_write {s : State} {c : Cmd} (hop : c.opcode = 0x0103)
    (hok : regOperandFault (c.par 32 4) (c.par 36 1) = none) :
    s.regAtDispatch c = s.regWrite (c.par 32 4) (c.par 36 1) (c.par 40 8 % 2 ^ (8 * c.par 36 1)) := by
  simp [State.regAtDispatch, hop, hok]

/-- The command picked is dispatched, and makes its register access. -/
theorem exec_dispatch_picked {s : State} {c : Cmd} (h : s.pickDispatch = some c) :
    exec .dispatch s = .next ((s.dispatchCmd c).regAtDispatch c) := by
  rw [exec_dispatch, execDispatch, h]

/-- Settles O20: READ_REG and WRITE_REG make their access at the dispatch and end at their row; RING_TIMEOUT_n and
ATTN_EMPTY_ROWS stand alone in the bytes accessed, so that the access comes to one field set. -/
theorem registersAreReadAndWritten : Obligations.RegistersAreReadAndWritten := by
  unfold Obligations.RegistersAreReadAndWritten
  refine ⟨?read, ?write, ?timeout, ?rows⟩
  case read =>
    intro s u n c hop
    refine ⟨?_, ?_⟩
    · rintro hpick rfl hok
      rw [exec_dispatch_picked hpick, State.regAtDispatch_read hop hok]
    · intro hready
      obtain rfl := hready.id
      exact congrArg Host.Outcome.next hready.run
  case write =>
    intro s n c hop
    refine ⟨?_, ?_⟩
    · intro hpick hok
      rw [exec_dispatch_picked hpick, State.regAtDispatch_write hop hok]
    · intro hready
      obtain rfl := hready.id
      exact congrArg Host.Outcome.next hready.run
  case timeout =>
    intro s r v hup hs hr
    exact ⟨_, exec_registerWrite_ringTimeout hup hr, State.reg_setFld_same hs (by decide) (by decide),
      fun o ho => State.reg_setFld_other ho, by simp⟩
  case rows =>
    intro s hup hs
    exact ⟨_, exec_readClear_attnEmptyRows hup, State.reg_setFld_whole_zero hs, fun o ho => State.reg_setFld_other ho,
      by simp⟩

end Sys2Proof.Machine
end

section
/-! SUPPORT and PROOF. Every row keeps a state as `Kept` says, so every step keeps the machine sound (02 R30, R45). -/

namespace Sys2Proof.Machine

/-- Every row of the table keeps a state as `Kept` says. -/
theorem exec_kept {q : List Instr} {n : Nat} {s t : State} (h : Kept q n s) :
    ∀ i : Instr, exec i s = .next t → Kept q n t
  | .doorbell .. => execDoorbell_kept h t
  | .ringEnable .. => execRingEnable_kept h t
  | .ringDisable .. => execRingDisable_kept h t
  | .replyHeadWrite .. => execReplyHeadWrite_kept h t
  | .headerValidation => execHeaderValidation_kept h t
  | .waitNotice .. => execWaitNotice_kept h t
  | .dispatch => execDispatch_kept h t
  | .waitLimit .. => execWaitLimit_kept h t
  | .completionReport .. => execCompletionReport_kept h t
  | .nop .. => execNop_kept h t
  | .identify .. => execIdentify_kept h t
  | .readReg .. => execReadReg_kept h t
  | .writeReg .. => execWriteReg_kept h t
  | .disableFunction .. => execDisableFunction_kept h t
  | .drainLimit .. => execDrainLimit_kept h t
  | .enableFunction .. => execEnableFunction_kept h t
  | .fullReset .. => execFullReset_kept h t
  | .commandResetDelay => execCommandResetDelay_kept h t
  | .copy .. => execCopy_kept h t
  | .fill .. => execFill_kept h t
  | .copy2d .. => execCopy2d_kept h t
  | .checksum .. => execChecksum_kept h t
  | .declareTensor .. => execDeclareTensor_kept h t
  | .releaseTensor .. => execReleaseTensor_kept h t
  | .declareOp .. => execDeclareOp_kept h t
  | .impose .. => execImpose_kept h t
  | .queryImposition .. => execQueryImposition_kept h t
  | .migrate .. => execMigrate_kept h t
  | .reshard .. => execReshard_kept h t
  | .readIdle .. => execReadIdle_kept h t
  | .matmul .. => execMatmul_kept h t
  | .matmulGather .. => execMatmulGather_kept h t
  | .matmulPacked .. => execMatmulPacked_kept h t
  | .setMatrixMode .. => execSetMatrixMode_kept h t
  | .shadowLoad .. => execShadowLoad_kept h t
  | .swap .. => execSwap_kept h t
  | .rippleFront .. => execRippleFront_kept h t
  | .vectorProgram .. => execVectorProgram_kept h t
  | .ld .. => execLd_kept h t
  | .st .. => execSt_kept h t
  | .ldi .. => execLdi_kept h t
  | .add .. => execAdd_kept h t
  | .sub .. => execSub_kept h t
  | .mul .. => execMul_kept h t
  | .fma .. => execFma_kept h t
  | .min .. => execMin_kept h t
  | .max .. => execMax_kept h t
  | .abs .. => execAbs_kept h t
  | .neg .. => execNeg_kept h t
  | .cmplt .. => execCmplt_kept h t
  | .sel .. => execSel_kept h t
  | .sfu .. => execSfu_kept h t
  | .rand .. => execRand_kept h t
  | .randu .. => execRandu_kept h t
  | .vectorNop .. => execVectorNop_kept h t
  | .rowStats .. => execRowStats_kept h t
  | .gatedAct .. => execGatedAct_kept h t
  | .loadSeedTable .. => execLoadSeedTable_kept h t
  | .seedBankSwitch .. => execSeedBankSwitch_kept h t
  | .seedGenerators .. => execSeedGenerators_kept h t
  | .attnForward .. => execAttnForward_kept h t
  | .attnBackward .. => execAttnBackward_kept h t
  | .walkEnd .. => execWalkEnd_kept h t
  | .galleyWaiterResume .. => execGalleyWaiterResume_kept h t
  | .galleyAppend .. => execGalleyAppend_kept h t
  | .galleyEdit .. => execGalleyEdit_kept h t
  | .galleyPublish .. => execGalleyPublish_kept h t
  | .verifyTree .. => execVerifyTree_kept h t
  | .ringAttention .. => execRingAttention_kept h t
  | .backwardInput .. => execBackwardInput_kept h t
  | .backwardWeight .. => execBackwardWeight_kept h t
  | .deferredPass .. => execDeferredPass_kept h t
  | .wgradReaderResume .. => execWgradReaderResume_kept h t
  | .offload .. => execOffload_kept h t
  | .saveWriteResume .. => execSaveWriteResume_kept h t
  | .prefetch .. => execPrefetch_kept h t
  | .setStepSize .. => execSetStepSize_kept h t
  | .update .. => execUpdate_kept h t
  | .verdict .. => execVerdict_kept h t
  | .peerLimit .. => execPeerLimit_kept h t
  | .retireEdition .. => execRetireEdition_kept h t
  | .allReduce .. => execAllReduce_kept h t
  | .reduceScatter .. => execReduceScatter_kept h t
  | .allGather .. => execAllGather_kept h t
  | .broadcast .. => execBroadcast_kept h t
  | .allToAll .. => execAllToAll_kept h t
  | .permute .. => execPermute_kept h t
  | .collectiveStart .. => execCollectiveStart_kept h t
  | .chunk .. => execChunk_kept h t
  | .reRequest .. => execReRequest_kept h t
  | .done .. => execDone_kept h t
  | .commit .. => execCommit_kept h t
  | .fail .. => execFail_kept h t
  | .peerSilent .. => execPeerSilent_kept h t
  | .collAbort .. => execCollAbort_kept h t
  | .markWaitEnd .. => execMarkWaitEnd_kept h t
  | .feedOpen .. => execFeedOpen_kept h t
  | .feedEpoch .. => execFeedEpoch_kept h t
  | .feedRows .. => execFeedRows_kept h t
  | .decodeDone .. => execDecodeDone_kept h t
  | .deadline .. => execDeadline_kept h t
  | .feedSkipLog .. => execFeedSkipLog_kept h t
  | .feedClose .. => execFeedClose_kept h t
  | .workerFault .. => execWorkerFault_kept h t
  | .workerBypass .. => execWorkerBypass_kept h t
  | .conv .. => execConv_kept h t
  | .convGrouped .. => execConvGrouped_kept h t
  | .globalAvgPool .. => execGlobalAvgPool_kept h t
  | .marginLayer .. => execMarginLayer_kept h t
  | .marginBypass .. => execMarginBypass_kept h t
  | .tallyAdd .. => execTallyAdd_kept h t
  | .tallySet .. => execTallySet_kept h t
  | .tallyWaitGe .. => execTallyWaitGe_kept h t
  | .tallyWaitEq .. => execTallyWaitEq_kept h t
  | .tallyLimit .. => execTallyLimit_kept h t
  | .tallyRead .. => execTallyRead_kept h t
  | .proofNow .. => execProofNow_kept h t
  | .proofAtTime .. => execProofAtTime_kept h t
  | .proofFire .. => execProofFire_kept h t
  | .proofPinEdge => execProofPinEdge_kept h t
  | .proofPullEnd => execProofPullEnd_kept h t
  | .proofRead .. => execProofRead_kept h t
  | .proofRelease => execProofRelease_kept h t
  | .countersRead .. => execCountersRead_kept h t
  | .arraySelfTest .. => execArraySelfTest_kept h t
  | .hbmRecalAll .. => execHbmRecalAll_kept h t
  | .hbmRecalChannel .. => execHbmRecalChannel_kept h t
  | .linkRetrainAll .. => execLinkRetrainAll_kept h t
  | .linkRetrainOne .. => execLinkRetrainOne_kept h t
  | .sweepControl .. => execSweepControl_kept h t
  | .idleBoundary => execIdleBoundary_kept h t
  | .deferredWorkEnd .. => execDeferredWorkEnd_kept h t
  | .attest .. => execAttest_kept h t
  | .getCertificate .. => execGetCertificate_kept h t
  | .debugUnlock .. => execDebugUnlock_kept h t
  | .stageImage .. => execStageImage_kept h t
  | .activateImage .. => execActivateImage_kept h t
  | .sweepEvent => execSweepEvent_kept h t
  | .sweepMoveEnd .. => execSweepMoveEnd_kept h t
  | .slotTestEnd .. => execSlotTestEnd_kept h t
  | .placementMove .. => execPlacementMove_kept h t
  | .placementMoveEnd .. => execPlacementMoveEnd_kept h t
  | .impositionDrained => execImpositionDrained_kept h t
  | .pendingPublication .. => execPendingPublication_kept h t
  | .routerFault .. => execRouterFault_kept h t
  | .mapOutRequest .. => execMapOutRequest_kept h t
  | .refreshSubslot => execRefreshSubslot_kept h t
  | .stackTempRead .. => execStackTempRead_kept h t
  | .junctionRead .. => execJunctionRead_kept h t
  | .powerCheck .. => execPowerCheck_kept h t
  | .aclkCapWrite .. => execAclkCapWrite_kept h t
  | .aclkRateChange => execAclkRateChange_kept h t
  | .gateEntry .. => execGateEntry_kept h t
  | .retainEntry .. => execRetainEntry_kept h t
  | .wake .. => execWake_kept h t
  | .wakeComplete .. => execWakeComplete_kept h t
  | .memoryControllerReset .. => execMemoryControllerReset_kept h t
  | .seamReset .. => execSeamReset_kept h t
  | .d128DataBlock .. => execD128DataBlock_kept h t
  | .d128IdleBlock .. => execD128IdleBlock_kept h t
  | .d128NackBlock .. => execD128NackBlock_kept h t
  | .lossOfSignal .. => execLossOfSignal_kept h t
  | .linkRetrainTimer .. => execLinkRetrainTimer_kept h t
  | .linkTrained .. => execLinkTrained_kept h t
  | .write .. => execWrite_kept h t
  | .readReq .. => execReadReq_kept h t
  | .readResp .. => execReadResp_kept h t
  | .ifpTallyAdd .. => execIfpTallyAdd_kept h t
  | .watch .. => execWatch_kept h t
  | .watchNotify .. => execWatchNotify_kept h t
  | .watchCancel .. => execWatchCancel_kept h t
  | .sched .. => execSched_kept h t
  | .ifpAck .. => execIfpAck_kept h t
  | .ifpNack .. => execIfpNack_kept h t
  | .ifpError .. => execIfpError_kept h t
  | .cnp .. => execCnp_kept h t
  | .control .. => execControl_kept h t
  | .ackTimer .. => execAckTimer_kept h t
  | .retransmissionTimeout .. => execRetransmissionTimeout_kept h t
  | .noRouteTimeout .. => execNoRouteTimeout_kept h t
  | .rateIncrease .. => execRateIncrease_kept h t
  | .pauseFrame .. => execPauseFrame_kept h t
  | .send .. => execSend_kept h t
  | .rdmaWrite .. => execRdmaWrite_kept h t
  | .rdmaReadRequest .. => execRdmaReadRequest_kept h t
  | .rdmaReadResponse .. => execRdmaReadResponse_kept h t
  | .roceAcknowledge .. => execRoceAcknowledge_kept h t
  | .roceAckTimeout .. => execRoceAckTimeout_kept h t
  | .qpReady .. => execQpReady_kept h t
  | .ptpSync .. => execPtpSync_kept h t
  | .ptpDelayResponse .. => execPtpDelayResponse_kept h t
  | .gclDataFlit .. => execGclDataFlit_kept h t
  | .gclNackFlit .. => execGclNackFlit_kept h t
  | .rdNc .. => execRdNc_kept h t
  | .rdShared .. => execRdShared_kept h t
  | .rdOwn .. => execRdOwn_kept h t
  | .wrNc .. => execWrNc_kept h t
  | .wrPosted .. => execWrPosted_kept h t
  | .wrBack .. => execWrBack_kept h t
  | .evictClean .. => execEvictClean_kept h t
  | .snpAck .. => execSnpAck_kept h t
  | .snpData .. => execSnpData_kept h t
  | .cmp .. => execCmp_kept h t
  | .cmpData .. => execCmpData_kept h t
  | .err _ code => execErr_kept (_code := code) h t
  | .gclDown .. => execGclDown_kept h t
  | .gclRetrained .. => execGclRetrained_kept h t
  | .gclLossTimeout => execGclLossTimeout_kept h t
  | .gclIrqAck .. => execGclIrqAck_kept h t
  | .resetCtrl .. => execResetCtrl_kept h t
  | .watchdogRestart => execWatchdogRestart_kept h t
  | .watchdog => execWatchdog_kept h t
  | .powerOn => execPowerOn_kept h t
  | .input => execInput_kept h t
  | .powerLoss => execPowerLoss_kept h t
  | .resetNAssert => execResetNAssert_kept h t
  | .fullResetBegin .. => execFullResetBegin_kept h t
  | .resetRelease => execResetRelease_kept h t
  | .startUp .. => execStartUp_kept h t
  | .bootRomStage .. => execBootRomStage_kept h t
  | .verificationStage .. => execVerificationStage_kept h t
  | .falosteoStage .. => execFalosteoStage_kept h t
  | .pufStage .. => execPufStage_kept h t
  | .selfTestStage .. => execSelfTestStage_kept h t
  | .hbmTrainingStage .. => execHbmTrainingStage_kept h t
  | .linkTrainingStage .. => execLinkTrainingStage_kept h t
  | .gclTrainingStage .. => execGclTrainingStage_kept h t
  | .colophonId => execColophonId_kept h t
  | .colophonStatus => execColophonStatus_kept h t
  | .colophonNonce => execColophonNonce_kept h t
  | .colophonUnlock .. => execColophonUnlock_kept h t
  | .colophonReset => execColophonReset_kept h t
  | .colophonRd .. => execColophonRd_kept h t
  | .colophonWr .. => execColophonWr_kept h t
  | .colophonMr .. => execColophonMr_kept h t
  | .colophonProof => execColophonProof_kept h t
  | .colophonPr .. => execColophonPr_kept h t
  | .colophonLoad .. => execColophonLoad_kept h t
  | .colophonActivate .. => execColophonActivate_kept h t
  | .colophonOverflow => execColophonOverflow_kept h t
  | .smbusBlockWrite .. => execSmbusBlockWrite_kept h t
  | .smbusProcessCall .. => execSmbusProcessCall_kept h t
  | .tapReset => execTapReset_kept h t
  | .idcode => execIdcode_kept h t
  | .extest => execExtest_kept h t
  | .samplePreload .. => execSamplePreload_kept h t
  | .bypass => execBypass_kept h t
  | .arithFlagsClear .. => execArithFlagsClear_kept h t
  | .readClear .. => execReadClear_kept h t
  | .registerWrite .. => execRegisterWrite_kept h t
  | .inputInRange => execInputInRange_kept h t
  | .resetNDeassert => execResetNDeassert_kept h t
  | .seamPortRetrained .. => execSeamPortRetrained_kept h t
  | .memoryControllerRetrained .. => execMemoryControllerRetrained_kept h t
  | .priorityFlowControl .. => execPriorityFlowControl_kept h t
  | .followUp .. => execFollowUp_kept h t
  | .frameDrops .. => execFrameDrops_kept h t
  | .nakInvalidRequest .. => execNakInvalidRequest_kept h t

/-- A step keeps a sound state, leaves the rest of the queue, and never lowers the counter of free values. -/
theorem step_kept {s t : State} (hs : s.Sound) (h : step s = .next t) : Kept s.pending.tail s.freeCtr t := by
  have hk : Kept s.pending.tail s.freeCtr { s with pending := s.pending.tail } :=
    ⟨rfl, le_rfl, ⟨hs.mem, hs.regs, hs.tallies, hs.flash, hs.rings, hs.links, hs.numbers, hs.vregs, hs.elements⟩⟩
  cases hp : s.pending with
  | nil =>
    have ht : s.idleStep = t := by simpa [step, hp] using h
    have hi : Kept [] s.freeCtr s := ⟨hp, le_rfl, hs⟩
    exact ht ▸ State.idleStep_kept hi
  | cons c rest =>
    rw [step, hp] at h
    rw [hp] at hk
    exact exec_kept hk c h

/-- Settles O1: what `Kept` says of the row at the front of the queue, or of an idle step. -/
theorem everyStepKeepsTheMachineSound : Obligations.EveryStepKeepsTheMachineSound := by
  unfold Obligations.EveryStepKeepsTheMachineSound
  intro s t hs h
  have hk := step_kept hs h
  exact ⟨hk.sound, hk.queue, hk.fresh⟩

end Sys2Proof.Machine
end

section
/-! SUPPORT and PROOF. The writes of the registers of a ring: DOORBELL, RING_ENABLE, RING_DISABLE and REPLY_HEAD_WRITE (02
R31 to R35). -/

namespace Sys2Proof.Machine

variable {s t : State} {r : Nat}

theorem State.Sound.kept (hs : s.Sound) : Kept s.pending s.freeCtr s := ⟨rfl, le_rfl, hs⟩

theorem State.Sound.setReg (hs : s.Sound) {off v : Nat} : (s.setReg off v).Sound := (State.setReg_kept hs.kept).sound

theorem State.Sound.setFld (hs : s.Sound) {off hi lo x : Nat} : (s.setFld off hi lo x).Sound := hs.setReg

/-- A field reads alike in states that hold the same word in its register. -/
theorem State.fld_congr {off hi lo : Nat} (h : t.reg off = s.reg off) : t.fld off hi lo = s.fld off hi lo := by
  rw [State.fld, State.fld, h]

/-! ### The rows that write the registers of a ring -/

/-- A write to the registers of one of the 16 rings takes place while the device is up. -/
theorem State.Up.onRing (hu : s.Up) (hr : r < 16) {f : State → State} : s.onRing r f = f s := by
  rw [State.onRing, hu.when, if_pos hr]

theorem exec_doorbell (hu : s.Up) (hr : r < 16) (tail : Nat) :
    exec (.doorbell r tail) s = .next (s.doorbell r (tail % 65536)) := congrArg Host.Outcome.next (hu.onRing hr)

theorem exec_ringEnable (hu : s.Up) (hr : r < 16) (cfg : Word64) :
    exec (.ringEnable r cfg) s = .next (s.writeRingCfg r 0 8 (putBits cfg.toNat 0 0 1)) :=
  congrArg Host.Outcome.next (hu.onRing hr)

theorem exec_ringDisable (hu : s.Up) (hr : r < 16) (cfg : Word64) :
    exec (.ringDisable r cfg) s = .next (s.writeRingCfg r 0 8 (putBits cfg.toNat 0 0 0)) :=
  congrArg Host.Outcome.next (hu.onRing hr)

theorem exec_replyHeadWrite (hu : s.Up) (hr : r < 16) (head : Nat) :
    exec (.replyHeadWrite r head) s = .next (s.replyHead r (head % 65536)) := congrArg Host.Outcome.next (hu.onRing hr)

/-! ### The registers of a ring are apart -/

@[simp] theorem ringCfg_ne_ringPtr {m : Nat} : Reg.ringCfg m ≠ Reg.ringPtr r := by
  simp only [Reg.ringCfg, Reg.ringPtr]; omega

@[simp] theorem ringCfg_ne_replyPtr {m : Nat} : Reg.ringCfg m ≠ Reg.replyPtr r := by
  simp only [Reg.ringCfg, Reg.replyPtr]; omega

@[simp] theorem ringCfg_ne_ringStatus {m : Nat} : Reg.ringCfg m ≠ Reg.ringStatus r := by
  simp only [Reg.ringCfg, Reg.ringStatus]; omega

@[simp] theorem ringPtr_ne_ringCfg {m : Nat} : Reg.ringPtr m ≠ Reg.ringCfg r := ringCfg_ne_ringPtr.symm

@[simp] theorem ringPtr_ne_replyPtr {m : Nat} : Reg.ringPtr m ≠ Reg.replyPtr r := by
  simp only [Reg.ringPtr, Reg.replyPtr]; omega

@[simp] theorem ringPtr_ne_ringStatus {m : Nat} : Reg.ringPtr m ≠ Reg.ringStatus r := by
  simp only [Reg.ringPtr, Reg.ringStatus]; omega

@[simp] theorem replyCfg_ne_ringCfg {m : Nat} : Reg.replyCfg m ≠ Reg.ringCfg r := by
  simp only [Reg.replyCfg, Reg.ringCfg]; omega

/-! ### DOORBELL (R31, R33) -/

/-- A TAIL in range is written, and fetching goes on. -/
theorem State.doorbell_inRange {tail : Nat} (hon : s.ringOn r = true) (ht : tail < s.ringSize r) :
    s.doorbell r tail = (s.setFld (Reg.ringPtr r) 15 0 tail).fetchRing r := by
  simp [State.doorbell, hon, Nat.not_le.2 ht]

/-- Settles O8: outside its two turned-away cases the doorbell sets one field of RING_PTR_n, and fetching changes no
register and no command. -/
theorem doorbellMovesTheTail : Obligations.DoorbellMovesTheTail := by
  unfold Obligations.DoorbellMovesTheTail
  intro s r tail hu hs hr
  rw [exec_doorbell hu hr]
  refine ⟨?disabled, ?outOfRange, ?inRange⟩
  case disabled =>
    intro hoff
    simp [State.doorbell, hoff]
  case outOfRange =>
    intro hon hle
    simp [State.doorbell, hon, hle]
  case inRange =>
    intro hon hlt
    rw [State.doorbell_inRange hon hlt]
    have hreg : ∀ o, ((s.setFld (Reg.ringPtr r) 15 0 (tail % 65536)).fetchRing r).reg o =
        (s.setFld (Reg.ringPtr r) 15 0 (tail % 65536)).reg o := fun o => State.reg_congr (by simp)
    refine ⟨_, rfl, ?_, ?_, fun o ho => (hreg o).trans (State.reg_setFld_other ho), by simp⟩
    · calc
        _ = (s.setFld (Reg.ringPtr r) 15 0 (tail % 65536)).fld (Reg.ringPtr r) 15 0 := State.fld_congr (hreg _)
        _ = tail % 65536 % 2 ^ 16 := State.fld_setFld_same hs (by decide) (by decide)
        _ = tail % 65536 := by omega
    · exact (State.fld_congr (hreg _)).trans (State.fld_setFld_above hs (by decide) (by decide) (by decide))

/-! ### RING_ENABLE and RING_DISABLE (R33, R34) -/

/-- The word of RING_CFG_n after a write of its 8 bytes. -/
def ringCfgWord (old v : Nat) : Nat := putBits (putBits (putBits old 63 12 (bits v 63 12)) 7 4 (bits v 7 4)) 0 0 (bits v 0 0)

theorem bits_enable_ringCfgWord {old v : Nat} : bits (ringCfgWord old v) 0 0 = bits v 0 0 := by
  rw [ringCfgWord, bits_putBits_same (by decide), Nat.mod_eq_of_lt bits_lt]

theorem bits_size_ringCfgWord {old v : Nat} : bits (ringCfgWord old v) 7 4 = bits v 7 4 := by
  rw [ringCfgWord, bits_putBits_above (by decide) (by decide), bits_putBits_same (by decide), Nat.mod_eq_of_lt bits_lt]

theorem writeSpan_ringCfg {v : Nat} (hr : r < 16) :
    s.writeSpan (Reg.ringCfg r) 0 8 v = s.setReg (Reg.ringCfg r) (ringCfgWord (s.reg (Reg.ringCfg r)) v) := ringSpan hr

theorem reg_ringCfg_written (hs : s.Sound) {v : Nat} :
    (s.setReg (Reg.ringCfg r) (ringCfgWord (s.reg (Reg.ringCfg r)) v)).reg (Reg.ringCfg r) =
      ringCfgWord (s.reg (Reg.ringCfg r)) v :=
  (State.reg_setReg_same hs).trans (Nat.mod_eq_of_lt (ringCfg_word _ _ _))

theorem State.ringOn_iff : s.ringOn r = true ↔ bit (s.reg (Reg.ringCfg r)) 0 = 1 := by
  rw [State.ringOn, State.fld, bit_eq_bits, decide_eq_true_iff]

/-- An enabled ring takes nothing of a write to RING_CFG_n but ENABLE. -/
theorem State.writeRingCfg_enabled (hs : s.Sound) (hr : r < 16) (hon : s.ringOn r = true) (v : Nat) :
    s.writeRingCfg r 0 8 v =
      (s.setReg (Reg.ringCfg r) (ringCfgWord (s.reg (Reg.ringCfg r)) v)).setReg (Reg.ringCfg r)
        (putBits (s.reg (Reg.ringCfg r)) 0 0 (bits v 0 0)) := by
  rw [State.writeRingCfg, writeSpan_ringCfg hr, if_pos (State.ringOn_iff.1 hon), State.fld, reg_ringCfg_written hs,
    bits_enable_ringCfgWord]

/-- A ring enabled anew: its pointers are at zero, and the next reply's phase bit is 1. -/
def State.startRing (t : State) (r : Nat) : State :=
  ((t.setReg (Reg.ringPtr r) 0).setReg (Reg.replyPtr r) 0).updRing r fun _ => { RingSt.reset with replyPhase := true }

theorem State.reg_startRing {o : Nat} (hp : o ≠ Reg.ringPtr r) (hq : o ≠ Reg.replyPtr r) :
    (t.startRing r).reg o = t.reg o := by
  calc
    _ = ((t.setReg (Reg.ringPtr r) 0).setReg (Reg.replyPtr r) 0).reg o := rfl
    _ = t.reg o := by rw [State.reg_setReg_other hq, State.reg_setReg_other hp]

theorem State.pointers_startRing (ht : t.Sound) :
    (t.startRing r).reg (Reg.ringPtr r) = 0 ∧ (t.startRing r).reg (Reg.replyPtr r) = 0 := by
  refine ⟨?_, State.reg_setReg_same ht.setReg⟩
  calc
    _ = ((t.setReg (Reg.ringPtr r) 0).setReg (Reg.replyPtr r) 0).reg (Reg.ringPtr r) := rfl
    _ = 0 := by rw [State.reg_setReg_other ringPtr_ne_replyPtr, State.reg_setReg_same ht, Nat.zero_mod]

theorem State.ring_startRing (ht : t.Sound) (hr : r < 16) : (t.startRing r).ring r = ⟨0, [], true, false⟩ := by
  have hlen : r < t.cmd.rings.length := ht.rings ▸ hr
  simp [State.ring, State.startRing, State.updRing, RingSt.reset, hlen]

/-- A disabled ring written with ENABLE set is enabled with its pointers at zero, or sets CFG_ERR. -/
theorem State.writeRingCfg_enables (hs : s.Sound) (hr : r < 16) (hoff : s.ringOn r = false) {v : Nat}
    (hv : bits v 0 0 = 1) {t : State} (ht : t = s.setReg (Reg.ringCfg r) (ringCfgWord (s.reg (Reg.ringCfg r)) v)) :
    s.writeRingCfg r 0 8 v = if 6 ≤ bits v 7 4 ∧ 6 ≤ s.fld (Reg.replyCfg r) 7 4 then
        t.startRing r
      else (t.setFld (Reg.ringCfg r) 0 0 0).setFld (Reg.ringStatus r) 1 1 1 := by
  have hbit : bit (s.reg (Reg.ringCfg r)) 0 ≠ 1 := fun h => by simp [State.ringOn_iff.2 h] at hoff
  have hcfg : t.reg (Reg.ringCfg r) = ringCfgWord (s.reg (Reg.ringCfg r)) v := ht ▸ reg_ringCfg_written hs
  have hreply : t.fld (Reg.replyCfg r) 7 4 = s.fld (Reg.replyCfg r) 7 4 :=
    State.fld_congr (ht ▸ State.reg_setReg_other replyCfg_ne_ringCfg)
  have hon : t.fld (Reg.ringCfg r) 0 0 = 1 := by rw [State.fld, hcfg, bits_enable_ringCfgWord, hv]
  have hsize : t.fld (Reg.ringCfg r) 7 4 = bits v 7 4 := by rw [State.fld, hcfg, bits_size_ringCfgWord]
  simp only [State.writeRingCfg, writeSpan_ringCfg hr, ← ht, if_neg hbit, hon, one_ne_zero, if_false, State.sizesOk, hsize,
    hreply, Bool.and_eq_true, decide_eq_true_eq, State.startRing]

/-- Settles O9: the two outcomes of enabling a disabled ring, told apart by its size fields. -/
theorem ringEnableStartsAtZero : Obligations.RingEnableStartsAtZero := by
  unfold Obligations.RingEnableStartsAtZero
  intro s r cfg hu hs hr hoff
  have hset : bits (putBits cfg.toNat 0 0 1) 0 0 = 1 := bits_putBits_same (by decide)
  have hlog : bits (putBits cfg.toNat 0 0 1) 7 4 = bits cfg.toNat 7 4 := bits_putBits_above (by decide) (by decide)
  rw [exec_ringEnable hu hr, State.writeRingCfg_enables hs hr hoff hset rfl, hlog]
  set t := s.setReg (Reg.ringCfg r) (ringCfgWord (s.reg (Reg.ringCfg r)) (putBits cfg.toNat 0 0 1))
  have hts : t.Sound := hs.setReg
  have hcfg : t.reg (Reg.ringCfg r) = ringCfgWord (s.reg (Reg.ringCfg r)) (putBits cfg.toNat 0 0 1) :=
    reg_ringCfg_written hs
  refine ⟨fun hslots hentries => ?enabled, fun hslots => ?refused⟩
  case enabled =>
    rw [if_pos ⟨hslots, hentries⟩]
    have hreg : (t.startRing r).reg (Reg.ringCfg r) = ringCfgWord (s.reg (Reg.ringCfg r)) (putBits cfg.toNat 0 0 1) :=
      (State.reg_startRing ringCfg_ne_ringPtr ringCfg_ne_replyPtr).trans hcfg
    obtain ⟨hptr, hreply⟩ := State.pointers_startRing (r := r) hts
    refine ⟨_, rfl, ?_, ?_, hptr, hreply, State.ring_startRing hts hr, rfl, rfl, rfl⟩
    · rw [State.ringOn, State.fld, hreg, bits_enable_ringCfgWord, hset, decide_eq_true rfl]
    · rw [State.ringSize, State.fld, hreg, bits_size_ringCfgWord, hlog]
  case refused =>
    rw [if_neg fun h => absurd h.1 (Nat.not_le.2 hslots)]
    have hcleared : (t.setFld (Reg.ringCfg r) 0 0 0).fld (Reg.ringCfg r) 0 0 = 0 :=
      State.fld_setFld_same hts (by decide) (by decide)
    refine ⟨_, rfl, ?_, ?_, ?_, by simp [t]⟩
    · rw [State.ringOn, State.fld_setFld_other ringCfg_ne_ringStatus, hcleared]; rfl
    · exact State.fld_setFld_same hts.setFld (by decide) (by decide)
    · rw [State.reg_setFld_other ringPtr_ne_ringStatus, State.reg_setFld_other ringPtr_ne_ringCfg,
        State.reg_setReg_other ringPtr_ne_ringCfg]

/-- A disabled ring fetches nothing. -/
theorem State.mayFetch_of_off (h : s.ringOn r = false) : s.mayFetch r = false := by simp [State.mayFetch, h]

/-- Settles O10: an enabled ring takes ENABLE alone. -/
theorem ringDisableOnlyStopsFetching : Obligations.RingDisableOnlyStopsFetching := by
  unfold Obligations.RingDisableOnlyStopsFetching
  intro s r cfg hu hs hr hon
  have hclear : bits (putBits cfg.toNat 0 0 0) 0 0 = 0 := bits_putBits_same (by decide)
  rw [exec_ringDisable hu hr, State.writeRingCfg_enabled hs hr hon, hclear]
  refine ⟨_, rfl, ?_⟩
  set t := State.setReg _ _ (putBits (s.reg (Reg.ringCfg r)) 0 0 0) with ht
  have hcfg : t.reg (Reg.ringCfg r) = putBits (s.reg (Reg.ringCfg r)) 0 0 0 := by
    rw [ht, State.reg_setReg_same hs.setReg, Nat.mod_eq_of_lt (putBits_lt (by decide) (by decide) State.reg_lt)]
  have hoff : t.ringOn r = false := by rw [State.ringOn, State.fld, hcfg, bits_putBits_same (by decide)]; rfl
  refine ⟨hoff, State.mayFetch_of_off hoff, ?_, fun o ho => ?_, rfl, rfl, rfl, rfl⟩
  · rw [State.fld, hcfg, bits_putBits_above (by decide) (by decide), State.fld]
  · rw [ht, State.reg_setReg_other ho, State.reg_setReg_other ho]

/-! ### REPLY_HEAD_WRITE (R35) -/

/-- Settles O11: outside its turned-away case the write sets one field of REPLY_PTR_n, and the pump of the reply ring
changes no register. -/
theorem replyHeadFreesEntries : Obligations.ReplyHeadFreesEntries := by
  unfold Obligations.ReplyHeadFreesEntries
  intro s r head hu hs hr hon
  rw [exec_replyHeadWrite hu hr]
  refine ⟨fun hle => ?outOfRange, fun hlt => ?inRange⟩
  case outOfRange => simp [State.replyHead, hon, hle]
  case inRange =>
    have hput : s.replyHead r (head % 65536) = (s.setFld (Reg.replyPtr r) 15 0 (head % 65536)).replyPump r := by
      simp [State.replyHead, hon, Nat.not_le.2 hlt]
    obtain ⟨hregs, hmem, htally, htens⟩ := replyPump_fields (s.setFld (Reg.replyPtr r) 15 0 (head % 65536)) r
    rw [hput]
    refine ⟨_, rfl, ?_, ?_, fun o ho => (State.reg_congr hregs).trans (State.reg_setFld_other ho), hmem, htally, htens⟩
    · calc
        _ = (s.setFld (Reg.replyPtr r) 15 0 (head % 65536)).fld (Reg.replyPtr r) 15 0 := State.fld_congr (State.reg_congr hregs)
        _ = head % 65536 % 2 ^ 16 := State.fld_setFld_same hs (by decide) (by decide)
        _ = head % 65536 := by omega
    · exact (State.fld_congr (State.reg_congr hregs)).trans
        (State.fld_setFld_above hs (by decide) (by decide) (by decide))

end Sys2Proof.Machine
end

section
/-! SUPPORT and PROOF. A command on its way: validation, header waits, dispatch, and the end that a fatal fault gives it (02
R32, R39, R51, R52, R56, R57, R59). -/

namespace Sys2Proof.Machine

variable {s t : State} {n r : Nat} {c : Cmd}

theorem exec_headerValidation (s : State) : exec .headerValidation s = execHeaderValidation s := rfl

theorem exec_waitNotice (l : List (Nat × Nat)) (s : State) : exec (.waitNotice l) s = execWaitNotice l s := rfl

theorem exec_waitLimit (n : Nat) (s : State) : exec (.waitLimit n) s = execWaitLimit n s := rfl

/-! ### HEADER_VALIDATION (R32, R39) -/

/-- Settles O12: the packet's command joins those in flight and RING_PTR_n.HEAD is set; the head of the ring then attaches
its waits, which changes neither registers nor the count of commands. -/
theorem headerValidationTakesThePacket : Obligations.HeaderValidationTakesThePacket := by
  unfold Obligations.HeaderValidationTakesThePacket
  intro s r p hs hr hnext hpacket
  have hexec : exec .headerValidation s = .next (s.validate r p) := by
    simp only [exec_headerValidation, execHeaderValidation, hnext, hpacket]
  obtain ⟨u, hu, hregs, hmem, hvalues, htens, hid, hserved, htick, hcmds⟩ : ∃ u : State, s.validate r p = u.attachHead r ∧
      u.regs = (s.setFld (Reg.ringPtr r) 31 16 ((s.head r + p.length / 32) % s.ringSize r)).regs ∧ u.mem = s.mem ∧
      u.tally.values = s.tally.values ∧ u.tens = s.tens ∧ u.cmd.nextId = s.cmd.nextId + 1 ∧ u.cmd.lastServed = r ∧
      u.cmd.tick = s.cmd.tick + 1 ∧ u.cmd.cmds.length = s.cmd.cmds.length + 1 :=
    ⟨_, rfl, rfl, rfl, rfl, rfl, rfl, rfl, rfl, List.length_append⟩
  obtain ⟨aregs, amem, avalues, atens, aid, aserved, -, atick, acmds⟩ := attachHead_fields u r
  have hreg : ∀ o, (u.attachHead r).reg o =
      (s.setFld (Reg.ringPtr r) 31 16 ((s.head r + p.length / 32) % s.ringSize r)).reg o :=
    fun o => State.reg_congr (aregs.trans hregs)
  rw [hexec, hu]
  refine ⟨_, rfl, ?_, ?_, acmds.trans hcmds, aid.trans hid, aserved.trans hserved, atick.trans htick,
    fun o ho => (hreg o).trans (State.reg_setFld_other ho), amem.trans hmem, avalues.trans hvalues, atens.trans htens⟩
  · exact (State.fld_congr (hreg _)).trans (State.fld_setFld_same hs (by decide) (by decide))
  · exact (State.fld_congr (hreg _)).trans (State.fld_setFld_below hs (by decide) (by decide) (by decide) (by decide))

/-! ### WAIT_NOTICE and WAIT_LIMIT (R51, R52) -/

/-- A notice that is new changes its command. -/
theorem State.noticeOne_new {i : Nat} (hc : s.cmdOf n = some c) (hp : c.phase = .attached) (hmet : i ∈ c.met)
    (hnew : i ∉ c.noticed) : s.noticeOne (n, i) = s.updCmd n fun d =>
      { d with
        noticed := i :: c.noticed
        phase := if d.waits.all (· ∈ i :: c.noticed) then .eligible else .attached
        stamp := s.cmd.tick } := by
  simp only [State.noticeOne, hc, hp, hmet, hnew, not_false_eq_true, and_self, if_true]

/-- A notice that is new reaches the master by itself. -/
theorem exec_waitNotice_one {i : Nat} (hc : s.cmdOf n = some c) (hp : c.phase = .attached) (hmet : i ∈ c.met)
    (hnew : i ∉ c.noticed) : exec (.waitNotice [(n, i)]) s = .next (s.nextTick.noticeOne (n, i)) := by
  have hany : [(n, i)].any s.noticeNew = true := by simp [State.noticeNew, hc, hp, hmet, hnew]
  rw [exec_waitNotice, execWaitNotice, if_pos hany, List.foldl_cons, List.foldl_nil]

/-- A command whose limit expires in time ends with TIMEOUT, and the next of its ring reaches the head. -/
theorem exec_waitLimit_expired (hc : s.cmdOf n = some c) (hp : c.phase = .attached) (hmet : c.allMet = false)
    (ht : s.reg (Reg.ringTimeout c.ring) ≠ 0) : ∃ p, exec (.waitLimit n) s =
      .next (((s.detach p).nextTick.finish n ⟨stTimeout, 0x0005, 0⟩).attachHead c.ring) := by
  rw [exec_waitLimit, execWaitLimit, hc]
  exact ⟨_, congrArg Host.Outcome.next (if_pos ⟨hp, hmet, ht⟩)⟩

/-- A command that has ended stays ended when the head of a ring attaches its waits. -/
theorem State.Ended.attachHead {o : Outcome} (hs : s.Sound) (h : s.Ended n o) : (s.attachHead r).Ended n o := by
  obtain ⟨d, hd, hphase, hrest⟩ := h
  exact ⟨d, attachHead_cmdOf hs hd (by rw [hphase]; decide), hphase, hrest⟩

/-- Settles O13: both rows update one command; the other ends of the clauses are what the update leaves. -/
theorem waitsMakeEligibleOrTimeOut : Obligations.WaitsMakeEligibleOrTimeOut := by
  unfold Obligations.WaitsMakeEligibleOrTimeOut
  refine ⟨?notice, ?limit⟩
  case notice =>
    intro s n i c hc hp hmet hnew
    have hc' : s.nextTick.cmdOf n = some c := hc
    rw [exec_waitNotice_one hc hp hmet hnew, State.noticeOne_new hc' hp hmet hnew]
    exact ⟨_, rfl, State.cmdOf_updCmd (by rfl) hc', fun m hm => State.cmdOf_updCmd_other (fun _ => rfl) hm, rfl, rfl, rfl⟩
  case limit =>
    intro s n c hs hc hp hmet ht
    obtain ⟨p, hexec⟩ := exec_waitLimit_expired hc hp hmet ht
    have hd : (s.detach p).nextTick.cmdOf n = some c := hc
    have hsound : ((s.detach p).nextTick.finish n ⟨stTimeout, 0x0005, 0⟩).Sound :=
      (State.finish_kept (State.nextTick_kept (State.detach_kept hs.kept))).sound
    obtain ⟨aregs, amem, avalues, -⟩ := attachHead_fields ((s.detach p).nextTick.finish n ⟨stTimeout, 0x0005, 0⟩) c.ring
    exact ⟨_, hexec, (State.finish_ended hd).attachHead hsound, aregs.trans rfl, amem.trans rfl, avalues.trans rfl⟩

/-! ### DISPATCH (R51, R56, R57) -/

/-- A fold that keeps its best or takes the next element yields its start or an element. -/
theorem foldl_pick_mem {α : Type} {f : Option α → α → Option α} (hf : ∀ b a, f b a = b ∨ f b a = some a) {x : α}
    {l : List α} {b : Option α} (h : l.foldl f b = some x) : b = some x ∨ x ∈ l := by
  induction l generalizing b with
  | nil => exact .inl h
  | cons a l ih =>
    rcases ih h with hb | hl
    · rcases hf b a with hkeep | htake
      · exact .inl (hkeep ▸ hb)
      · exact .inr (List.mem_cons.2 (.inl (Option.some.inj (htake.symm.trans hb)).symm))
    · exact .inr (List.mem_cons_of_mem _ hl)

/-- The command dispatched next is in flight. -/
theorem State.mem_of_pickDispatch (h : s.pickDispatch = some c) : c ∈ s.cmd.cmds := by
  have hmem : c ∈ s.cmd.cmds.filter s.dispatchable := by
    refine (foldl_pick_mem (fun b a => ?_) h).resolve_left (by simp)
    cases b with
    | none => exact .inr rfl
    | some b => dsimp only; split <;> simp
  exact (List.mem_filter.1 hmem).1

/-- A dispatch begun: the turn is the command's ring's, in the next event of the device's order. -/
def State.takesTurn (s : State) (c : Cmd) : State := { s with cmd := { s.cmd with lastDispatch := c.ring } }.nextTick

theorem State.takesTurn_kept (hs : s.Sound) : Kept s.pending s.freeCtr (s.takesTurn c) :=
  State.nextTick_kept (hs.kept.upd rfl rfl rfl rfl rfl rfl rfl)

/-- A command of a disabled function ends with DISABLED. -/
theorem State.dispatchCmd_disabled (h : s.isDisabled (functionOf c.opcode) = true) : s.dispatchCmd c =
    ((s.takesTurn c).finish c.id ⟨stDisabled, if s.isWedged (functionOf c.opcode) then 0x0006 else 0, 0⟩).attachHead
      c.ring := congrArg (State.attachHead · c.ring) (if_pos (.inl h))

/-- A dispatch accesses no register but for READ_REG and WRITE_REG. -/
theorem State.regAtDispatch_other (hread : c.opcode ≠ 0x0102) (hwrite : c.opcode ≠ 0x0103) : s.regAtDispatch c = s :=
  if_pos (.inl ⟨hread, hwrite⟩)

/-- The admin, Imposer, tally and security groups are never disabled (R58). -/
theorem State.isDisabled_of_le {f : Nat} (h : 10 ≤ f) : s.isDisabled f = false := by
  simp [State.isDisabled, Nat.not_lt.2 h]

/-- Settles O14: the command ends at once, so that only the next of its ring is left to reach the head. READ_REG and
WRITE_REG are of the admin group, which is never disabled. -/
theorem dispatchOfADisabledFunction : Obligations.DispatchOfADisabledFunction := by
  unfold Obligations.DispatchOfADisabledFunction
  intro s c hs hpick hdis
  have hadmin : ∀ op, c.opcode = op → functionOf op = 10 → False := by
    rintro op rfl h
    rw [h, State.isDisabled_of_le le_rfl] at hdis
    cases hdis
  rw [exec_dispatch_picked hpick, State.dispatchCmd_disabled hdis,
    State.regAtDispatch_other (fun h => hadmin _ h rfl) (fun h => hadmin _ h rfl)]
  set u := (s.takesTurn c).finish c.id _
  have hsound : u.Sound := (State.finish_kept (State.takesTurn_kept hs)).sound
  have hfound : (s.takesTurn c).cmdOf c.id = some c := hs.cmdOf_mem (State.mem_of_pickDispatch hpick)
  obtain ⟨aregs, amem, avalues, -, -, -, adispatch, -, -⟩ := attachHead_fields u c.ring
  exact ⟨_, rfl, (State.finish_ended hfound).attachHead hsound, adispatch.trans rfl, aregs.trans rfl, amem.trans rfl,
    avalues.trans rfl⟩

/-- The packet of an admin command names no tensor. -/
theorem handleFields_admin {op : Nat} (h : op / 256 = 1) : handleFields op = [] := by
  unfold handleFields
  split
  pick_goal -1
  · rfl
  all_goals omega

/-- Nothing further takes place at the dispatch of an admin command. -/
theorem State.onDispatch_admin (hop : c.opcode / 256 = 1) (hc : s.cmdOf c.id = some c) : s.onDispatch c = s := by
  have hforget : s.forget c = s := by simp [State.forget, handleFields_admin hop]
  have hkeep : s.opDispatch c = s := by
    unfold State.opDispatch
    split
    pick_goal -1
    · exact if_neg (by omega)
    all_goals omega
  simp only [State.onDispatch, hforget, hc, hkeep]

theorem functionOf_admin {op : Nat} (h : op / 256 = 1) : functionOf op = 10 := by simp only [functionOf, h]

/-- A command dispatched: at an event of the device's order, with what it latches. -/
def Cmd.dispatchedAt (tick : Nat) (l : Latch) (c : Cmd) : Cmd := { c with phase := .dispatched, stamp := tick, latch := l }

/-- An admin command that is dispatched latches what is in force, and nothing else takes place. -/
theorem State.dispatchCmd_admin (hop : c.opcode / 256 = 1) (hc : s.cmdOf c.id = some c) : s.dispatchCmd c =
    ((s.takesTurn c).updCmd c.id (Cmd.dispatchedAt (s.cmd.tick + 1) ((s.takesTurn c).latchFor c))).attachHead c.ring := by
  have hf := functionOf_admin hop
  have hon : ¬ ((s.takesTurn c).isDisabled 10 ∨ (10 < 10 ∧ (s.takesTurn c).drainers 10 ≠ [])) := by
    simp [State.isDisabled_of_le]
  have hholds : c.holds = false := by simp [Cmd.holds, hf]
  let d := Cmd.dispatchedAt (s.cmd.tick + 1) ((s.takesTurn c).latchFor c) c
  have hd : ((s.takesTurn c).updCmd c.id (Cmd.dispatchedAt (s.cmd.tick + 1) ((s.takesTurn c).latchFor c))).cmdOf d.id =
      some d := State.cmdOf_updCmd rfl hc
  rw [State.dispatchCmd, hf]
  refine congrArg (State.attachHead · c.ring) ((if_neg hon).trans ?_)
  simp only [hholds, Bool.false_eq_true, if_false]
  split
  · rename_i x hx
    obtain rfl : d = x := Option.some.inj (hd.symm.trans hx)
    exact State.onDispatch_admin hop hd
  · rename_i hx
    exact absurd (hd.symm.trans hx) (by simp)

/-- Settles O15: an admin command latches what is in force and is left as it is when the next of its ring reaches the
head. -/
theorem dispatchLatches : Obligations.DispatchLatches := by
  unfold Obligations.DispatchLatches
  intro s c hs hpick hop hread hwrite
  have hc := hs.cmdOf_mem (State.mem_of_pickDispatch hpick)
  rw [exec_dispatch_picked hpick, State.dispatchCmd_admin hop hc, State.regAtDispatch_other hread hwrite]
  set u := (s.takesTurn c).updCmd c.id _
  have hsound : u.Sound := (State.updCmd_kept (f := Cmd.dispatchedAt _ _) (fun _ => rfl) (State.takesTurn_kept hs)).sound
  have hd : u.cmdOf c.id = some (Cmd.dispatchedAt (s.cmd.tick + 1) ((s.takesTurn c).latchFor c) c) :=
    State.cmdOf_updCmd rfl hc
  obtain ⟨aregs, amem, avalues, -, -, -, adispatch, -, -⟩ := attachHead_fields u c.ring
  exact ⟨_, _, rfl, attachHead_cmdOf hsound hd (by simp [Cmd.dispatchedAt]), rfl, rfl, rfl, rfl, rfl, adispatch.trans rfl,
    aregs.trans rfl, amem.trans rfl, avalues.trans rfl⟩

end Sys2Proof.Machine
end

section
/-! SUPPORT and PROOF. The ends of commands: a fatal fault ends every command in flight (02 R59); a completion report frees
a tag or begins a reply (02 R38, R53, R55). -/

namespace Sys2Proof.Machine

variable {s t : State} {n r : Nat} {c : Cmd}

/-! ### A fatal fault (R59) -/

/-- A command as a fatal fault leaves it, at a time. -/
def Cmd.endFatal (time : Nat) (c : Cmd) : Cmd :=
  if c.phase.unfinished ∨ (c.phase = .done ∧ c.tagHeld = true) then
    { c with phase := .done, status := stFatal, detail := 0, result := 0, time := time % 2 ^ 48 }
  else c

@[simp] theorem Cmd.endFatal_id (time : Nat) (c : Cmd) : (c.endFatal time).id = c.id := by
  rw [Cmd.endFatal]; split <;> rfl

/-- After a fatal fault no command is left unfinished. -/
theorem Cmd.endFatal_finished (time : Nat) (c : Cmd) : (c.endFatal time).phase.unfinished = false := by
  rw [Cmd.endFatal]
  split
  · rfl
  · rename_i h
    simpa using fun hu => h (.inl hu)

/-- What a fatal fault raises before it ends the commands. -/
def State.fatalRaised (s : State) : State :=
  if s.fld Reg.cmdStatus 30 30 = 1 then s
  else (((s.setFld Reg.cmdStatus 30 30 1).irq 16).proofEvent 0).proofEvent 2

theorem State.fatalRaised_fields : s.fatalRaised.cmd = s.cmd ∧ s.fatalRaised.time = s.time ∧ s.fatalRaised.mem = s.mem ∧
    s.fatalRaised.tally = s.tally ∧ s.fatalRaised.tens = s.tens := by
  unfold State.fatalRaised
  split <;> simp

/-- CMD_STATUS.FATAL is set, and the interrupt raised with it leaves that register. -/
theorem State.isFatal_fatalRaised (hs : s.Sound) : s.fatalRaised.isFatal = true := by
  unfold State.fatalRaised
  split
  · rename_i hset
    exact decide_eq_true hset
  · have hreg : ((((s.setFld Reg.cmdStatus 30 30 1).irq 16).proofEvent 0).proofEvent 2).reg Reg.cmdStatus =
        (s.setFld Reg.cmdStatus 30 30 1).reg Reg.cmdStatus :=
      (State.reg_congr (t := State.proofEvent _ 2) (by simp)).trans (State.reg_irq_other (v := 16) (by decide))
    exact decide_eq_true ((State.fld_congr hreg).trans (State.fld_setFld_same hs (by decide) (by decide)))

theorem State.cmds_fatal : s.fatal.cmd.cmds = s.cmd.cmds.map (Cmd.endFatal s.time) := by
  obtain ⟨hcmd, htime, -⟩ := State.fatalRaised_fields (s := s)
  calc
    _ = s.fatalRaised.cmd.cmds.map (Cmd.endFatal s.fatalRaised.time) := rfl
    _ = _ := by rw [hcmd, htime]

/-- The waits that stay attached are those of watches. -/
theorem State.owner_of_mem_fatal {w : Waiter} (h : w ∈ s.fatal.tally.waiters) : ∃ node k, w.owner = .watch node k := by
  obtain ⟨-, howner⟩ := List.mem_filter.1 h
  split at howner
  · exact ⟨_, _, by assumption⟩
  · cases howner

/-- A command after every command is changed by a function that keeps its number. -/
theorem State.cmdOf_map {f : Cmd → Cmd} (ht : t.cmd.cmds = s.cmd.cmds.map f) (hf : ∀ c, (f c).id = c.id) :
    t.cmdOf n = (s.cmdOf n).map f := by
  have hid : ((fun c => decide (c.id = n)) ∘ f) = fun c => decide (c.id = n) := funext fun c => by simp [hf]
  rw [State.cmdOf, ht, List.find?_map, hid, State.cmdOf]

/-- With FATAL set no ring is fetched, so that no packet is taken. -/
theorem State.mayFetch_of_fatal (h : s.isFatal = true) : s.mayFetch r = false := by simp [State.mayFetch, h]

theorem State.nextRing_eq_none (h : ∀ r, s.mayFetch r = false) : s.nextRing = none := by
  simp [State.nextRing, h]

/-- Settles O7: FATAL set stops every fetch, and each command in flight is as `Cmd.endFatal` leaves it. -/
theorem aFatalFaultEndsEveryCommand : Obligations.AFatalFaultEndsEveryCommand := by
  unfold Obligations.AFatalFaultEndsEveryCommand
  intro s hs
  have hfatal : s.fatal.isFatal = true := State.isFatal_fatalRaised hs
  obtain ⟨-, -, hmem, htally, htens⟩ := State.fatalRaised_fields (s := s)
  have hvalues : s.fatalRaised.tally.values = s.tally.values := congrArg TallySt.values htally
  have hfetch : ∀ r, s.fatal.mayFetch r = false := fun r => State.mayFetch_of_fatal hfatal
  have hcmd : ∀ n c, s.cmdOf n = some c → s.fatal.cmdOf n = some (c.endFatal s.time) := fun n c hc => by
    rw [State.cmdOf_map State.cmds_fatal (Cmd.endFatal_id _), hc, Option.map_some]
  refine ⟨hfatal, ?finished, ?ended, ?kept, fun w => State.owner_of_mem_fatal, hmem,
    hvalues, htens, hfetch, ?taken⟩
  case finished =>
    intro c hc
    obtain ⟨d, -, rfl⟩ := List.mem_map.1 (State.cmds_fatal ▸ hc)
    exact Cmd.endFatal_finished _ d
  case ended =>
    intro n c hc hopen
    refine ⟨_, hcmd n c hc, ?_⟩
    rw [Cmd.endFatal, if_pos hopen]
    exact ⟨rfl, rfl, rfl, rfl⟩
  case kept =>
    intro n c hc hfin hrep
    have hclosed : ¬ (c.phase.unfinished = true ∨ c.phase = .done ∧ c.tagHeld = true) := by
      rintro (hu | ⟨hd, htag⟩)
      · rw [hfin] at hu; cases hu
      · rcases hrep with h | h
        · exact h hd
        · rw [htag] at h; cases h
    rw [hcmd n c hc, Cmd.endFatal, if_neg hclosed]
  case taken =>
    simp only [exec_headerValidation, execHeaderValidation, State.nextRing_eq_none hfetch]

/-! ### What freeing a tag does (R38, R40) -/

/-- Two states alike in the numbers of the commands in flight, in what goes over the GCL, and in memory. -/
structure SameInFlight (s t : State) : Prop where
  ids : t.cmd.cmds.map (·.id) = s.cmd.cmds.map (·.id)
  gcl : t.gcl = s.gcl
  mem : t.mem = s.mem

theorem SameInFlight.refl (s : State) : SameInFlight s s := ⟨rfl, rfl, rfl⟩

theorem SameInFlight.trans {u : State} (a : SameInFlight s t) (b : SameInFlight t u) : SameInFlight s u :=
  ⟨b.ids.trans a.ids, b.gcl.trans a.gcl, b.mem.trans a.mem⟩

theorem SameInFlight.of_eq (hc : t.cmd = s.cmd) (hg : t.gcl = s.gcl) (hm : t.mem = s.mem) : SameInFlight s t :=
  ⟨by rw [hc], hg, hm⟩

/-- The start replaced by a state alike in what counts. -/
theorem SameInFlight.of_start {u : State} (h : SameInFlight u t) (hc : u.cmd = s.cmd) (hg : u.gcl = s.gcl)
    (hm : u.mem = s.mem) : SameInFlight s t := (SameInFlight.of_eq hc hg hm).trans h

theorem SameInFlight.updCmd {f : Cmd → Cmd} (hf : ∀ c, (f c).id = c.id) : SameInFlight s (s.updCmd n f) := by
  refine ⟨?_, rfl, rfl⟩
  simp only [State.updCmd, List.map_map]
  refine List.map_congr_left fun c _ => ?_
  simp only [Function.comp]
  split
  · exact hf c
  · rfl

theorem SameInFlight.foldl {α : Type} {f : State → α → State} (hf : ∀ u a, SameInFlight u (f u a)) (l : List α) :
    ∀ s, SameInFlight s (l.foldl f s) := by
  induction l with
  | nil => exact fun s => .refl s
  | cons a l ih => exact fun s => (hf s a).trans (ih _)

/-- The owner of a met wait is told by a change of its command, or over the links. -/
theorem State.notify_sameInFlight (w : Waiter) (x : Nat) : SameInFlight s (s.notify w x) := by
  unfold State.notify
  split
  · exact .updCmd fun _ => rfl
  · exact .updCmd fun _ => rfl
  · rename_i node k _
    have h := ifpMessage_same (s := s) node 1 6 0 0 (leBytes 2 k) .plain
    exact .of_eq h.cmd h.gcl h.mem

theorem State.present_sameInFlight (i x : Nat) (l : List Waiter) (s : State) : SameInFlight s (State.present i x l s) := by
  induction l generalizing s with
  | nil => exact .refl s
  | cons w l ih =>
    unfold State.present
    split
    · refine .trans ?_ (ih _)
      exact (State.notify_sameInFlight w x).of_start rfl rfl rfl
    · exact ih s

theorem State.tallyTakes_sameInFlight (i x : Nat) : SameInFlight s (s.tallyTakes i x) :=
  (State.present_sameInFlight i x _ _).of_start rfl rfl rfl

theorem State.tallyAdd_sameInFlight (i v : Nat) : SameInFlight s (s.tallyAdd i v) := by
  unfold State.tallyAdd
  refine .trans ?_ (State.tallyTakes_sameInFlight _ _)
  split
  · exact .of_eq (by simp) (by simp) (by simp)
  · exact .refl s

theorem State.retire_sameInFlight (s : State) : SameInFlight s s.retire := by
  refine SameInFlight.foldl (fun u t => ?_) s.tens s
  split
  · unfold State.retireOf
    dsimp only
    split
    · exact .refl u
    · exact (SameInFlight.foldl (fun u i => State.tallyAdd_sameInFlight i 1) _ _).of_start (by simp) (by simp) (by simp)
  · exact .refl u

/-- A state that differs in fetches begun: every request in flight or waiting that the first does not have is a fetch. -/
structure FetchesMore (s t : State) : Prop where
  cmds : t.cmd.cmds = s.cmd.cmds
  mem : t.mem = s.mem
  reqs : ∀ r ∈ t.gcl.reqs, r ∈ s.gcl.reqs ∨ ∃ ring slot, r.2 = .fetch ring slot
  waiting : ∀ r ∈ t.gcl.waiting, r ∈ s.gcl.waiting ∨ ∃ ring slot, r.1 = .fetch ring slot

theorem FetchesMore.refl (s : State) : FetchesMore s s := ⟨rfl, rfl, fun _ => .inl, fun _ => .inl⟩

theorem FetchesMore.trans {u : State} (a : FetchesMore s t) (b : FetchesMore t u) : FetchesMore s u :=
  ⟨b.cmds.trans a.cmds, b.mem.trans a.mem, fun r hr => (b.reqs r hr).elim (a.reqs r) .inr,
    fun r hr => (b.waiting r hr).elim (a.waiting r) .inr⟩

/-- Sending a message uses credits and the link; it neither makes nor ends a request. -/
theorem State.gclSend_requests (m : GclMsg) :
    (s.gclSend m).gcl.reqs = s.gcl.reqs ∧ (s.gclSend m).gcl.waiting = s.gcl.waiting := by
  unfold State.gclSend
  split <;> exact ⟨rfl, rfl⟩

theorem State.gclRequest_fetch (ring slot : Nat) (m : GclMsg) : FetchesMore s (s.gclRequest (.fetch ring slot) m) := by
  refine ⟨by simp, by simp, fun x hx => ?_, fun x hx => ?_⟩ <;> unfold State.gclRequest at hx <;> split at hx
  · exact .inl hx
  · rw [(State.gclSend_requests _).1] at hx
    exact (List.mem_append.1 hx).imp_right fun h => ⟨ring, slot, by rw [List.mem_singleton.1 h]⟩
  · exact (List.mem_append.1 hx).imp_right fun h => ⟨ring, slot, by rw [List.mem_singleton.1 h]⟩
  · rw [(State.gclSend_requests _).2] at hx
    exact .inl hx

theorem State.fetchLoop_fetches (r k : Nat) (s : State) : FetchesMore s (State.fetchLoop r k s) := by
  induction k generalizing s with
  | zero => exact .refl s
  | succ k ih =>
    unfold State.fetchLoop
    dsimp only
    split
    · exact .refl s
    · have hring : ∀ (u : State) (f : RingSt → RingSt), FetchesMore u (u.updRing r f) :=
        fun u f => ⟨rfl, rfl, fun _ => .inl, fun _ => .inl⟩
      exact ((State.gclRequest_fetch _ _ _).trans (hring _ _)).trans (ih _)

theorem State.fetchAll_fetches (s : State) : FetchesMore s s.fetchAll := by
  have hring : ∀ (u : State) (r : Nat), FetchesMore u (u.fetchRing r) := fun u r => by
    unfold State.fetchRing
    split
    · exact State.fetchLoop_fetches _ _ u
    · exact .refl u
  have hall : ∀ (l : List Nat) (u : State), FetchesMore u (l.foldl State.fetchRing u) := fun l => by
    induction l with
    | nil => exact .refl
    | cons r l ih => exact fun u => (hring u r).trans (ih _)
  exact hall _ s

/-- A freed tag's command has left flight; what its freeing adds to the requests are fetches. -/
theorem State.freeTag_spec (s : State) (c : Cmd) : (∀ d ∈ (s.freeTag c).cmd.cmds, d.id ≠ c.id) ∧
    (∀ r ∈ (s.freeTag c).gcl.reqs, r ∈ s.gcl.reqs ∨ ∃ ring slot, r.2 = .fetch ring slot) ∧
    (∀ r ∈ (s.freeTag c).gcl.waiting, r ∈ s.gcl.waiting ∨ ∃ ring slot, r.1 = .fetch ring slot) ∧
    (s.freeTag c).mem = s.mem := by
  obtain ⟨u, hu, hcmds, hgcl, hmem⟩ : ∃ u : State, s.freeTag c = u.retire.fetchAll ∧
      u.cmd.cmds = s.cmd.cmds.filter (fun d => d.id ≠ c.id) ∧ u.gcl = s.gcl ∧ u.mem = s.mem := ⟨_, rfl, rfl, rfl, rfl⟩
  have hret := State.retire_sameInFlight u
  have hfetch := State.fetchAll_fetches u.retire
  rw [hu]
  refine ⟨fun d hd => ?_, ?_, ?_, hfetch.mem.trans (hret.mem.trans hmem)⟩
  · have hid : d.id ∈ u.cmd.cmds.map (·.id) := hret.ids ▸ List.mem_map_of_mem (hfetch.cmds ▸ hd)
    obtain ⟨e, he, hed⟩ := List.mem_map.1 (hcmds ▸ hid)
    rw [← hed]
    exact of_decide_eq_true (List.mem_filter.1 he).2
  · rw [← hgcl, ← hret.gcl]; exact hfetch.reqs
  · rw [← hgcl, ← hret.gcl]; exact hfetch.waiting

/-! ### COMPLETION_REPORT (R38, R53, R55) -/

/-- A command that has ended, and that no LAZY edition holds back, completes. -/
theorem exec_completionReport_done (hc : s.cmdOf n = some c) (hp : c.phase = .done)
    (hl : c.status ≠ stOK ∨ s.lazyHeld c = false) : exec (.completionReport n) s = .next (s.completes c) := by
  have hfree : ¬ (c.status = stOK ∧ s.lazyHeld c = true) := by
    rintro ⟨hok, hlazy⟩
    rcases hl with h | h
    · exact h hok
    · rw [hlazy] at h; cases h
  have hexec : exec (.completionReport n) s = execCompletionReport n s := rfl
  simp [hexec, execCompletionReport, hc, hp, hfree]

/-- A report that frees no tag joins the held completions of its ring. -/
theorem State.report_held (h : ¬ (bit c.flags 9 = 1 ∧ c.status = stOK ∧ c.tagHeld = true)) : s.report c =
    (s.updCmd c.id fun d => { d with phase := .held, stamp := s.cmd.tick }).nextTick.replyPump c.ring := if_neg h

/-- Settles O16: the report of QUIET and OK is the freeing of the tag; any other is the same for all commands of one number
and ring. -/
theorem quietCompletionFreesTheTag : Obligations.QuietCompletionFreesTheTag := by
  unfold Obligations.QuietCompletionFreesTheTag
  refine ⟨?completes, fun s c hquiet => ⟨?frees, ?replies⟩⟩
  case completes =>
    rintro s r u v n c d hc hp hl rfl rfl rfl rfl
    obtain rfl := State.cmdOf_id hc
    exact exec_completionReport_done hc hp hl
  case frees =>
    intro hok htag
    obtain ⟨hgone, hreqs, hwaiting, hmem⟩ := State.freeTag_spec s c
    exact ⟨_, if_pos ⟨hquiet, hok, htag⟩, hgone, hreqs, hwaiting, by rw [hmem]⟩
  case replies =>
    intro hbad d hflags hloud hid hring
    rw [State.report_held fun h => hbad h.2.1, State.report_held fun h => by omega, hid, hring]

end Sys2Proof.Machine
end

section
/-! SUPPORT and PROOF. Tallies at their home, and the commands of the tally group on them (02 R45, R46, R63 to R65). -/

namespace Sys2Proof.Machine

variable {s t : State} {n i : Nat} {c : Cmd}

/-! ### A tally that takes a value (R46) -/

/-- No counter of a link is CMD_STATUS. -/
theorem cmdStatus_ne_linkTraffic : ∀ k, Reg.cmdStatus ≠ Reg.linkTraffic k := by
  intro k
  simp only [Reg.cmdStatus, Reg.linkTraffic]
  omega

theorem State.tallyVal_lt : s.tallyVal i < 2 ^ 64 := (Sparse.get (fun _ => (0 : Word64)) s.tally.values i).isLt

/-- Presenting a value writes no register but the counters of links, and leaves memory and tensors. -/
theorem State.tallyTakes_fields (i x : Nat) : (s.tallyTakes i x).mem = s.mem ∧ (s.tallyTakes i x).tens = s.tens ∧
    (s.tallyTakes i x).reg Reg.cmdStatus = s.reg Reg.cmdStatus := by
  obtain ⟨-, hmem, htens, hreg, -⟩ := present_fields i x s.tally.waiters { s with tally := { s.tally with
    values := Sparse.set (fun _ => (0 : Word64)) s.tally.values i (BitVec.ofNat 64 x) } }
  exact ⟨hmem, htens, hreg _ cmdStatus_ne_linkTraffic⟩

theorem State.values_tallyTakes (i x : Nat) : (s.tallyTakes i x).tally.values =
    Sparse.set (fun _ => (0 : Word64)) s.tally.values i (BitVec.ofNat 64 x) := (present_fields _ _ _ _).1

theorem State.tallyVal_tallyTakes_same (hs : s.Sound) {x : Nat} (hx : x < 2 ^ 64) : (s.tallyTakes i x).tallyVal i = x := by
  rw [State.tallyVal, State.values_tallyTakes, Sparse.get_set_same hs.tallies, BitVec.toNat_ofNat, Nat.mod_eq_of_lt hx]

theorem State.tallyVal_tallyTakes_other {j x : Nat} (h : j ≠ i) : (s.tallyTakes i x).tallyVal j = s.tallyVal j := by
  rw [State.tallyVal, State.values_tallyTakes, Sparse.get_set_other h, State.tallyVal]

/-- The waits that stay attached are those on another tally, and those that the value does not meet. -/
theorem State.mem_waiters_tallyTakes {x : Nat} {w : Waiter} : w ∈ (s.tallyTakes i x).tally.waiters ↔
    w ∈ s.tally.waiters ∧ ¬ (w.tally = i ∧ w.metBy x = true) := by
  have hcount : (s.tallyTakes i x).tally.waiters.count w =
      if w.tally = i ∧ w.metBy x = true then s.tally.waiters.count w - s.tally.waiters.count w
      else s.tally.waiters.count w := present_count i x s.tally.waiters _ w
  rw [← List.count_pos_iff, hcount, ← List.count_pos_iff]
  split <;> rename_i h <;> simp [h]

/-- What a tally that takes a value does beside memory, tensors and other tallies: no attached wait that the value meets
stays attached, and every other does. The start may differ from the state compared with in its registers. -/
theorem State.tallyTakes_presents {u : State} {x : Nat} (hu : u.Sound) (hx : x < 2 ^ 64) (hmem : u.mem = s.mem)
    (htens : u.tens = s.tens) (htally : u.tally = s.tally) (ht : t = u.tallyTakes i x) :
    t.mem = s.mem ∧ t.tens = s.tens ∧ (∀ j, j ≠ i → t.tallyVal j = s.tallyVal j) ∧
      (∀ w ∈ t.tally.waiters, w.tally = i → w.metBy (t.tallyVal i) = false) ∧
      (∀ w ∈ s.tally.waiters, w.tally ≠ i ∨ w.metBy (t.tallyVal i) = false → w ∈ t.tally.waiters) ∧
      ∀ w ∈ t.tally.waiters, w ∈ s.tally.waiters := by
  subst ht
  obtain ⟨hm, ht, -⟩ := State.tallyTakes_fields (s := u) i x
  rw [State.tallyVal_tallyTakes_same hu hx, ← htally]
  refine ⟨hm.trans hmem, ht.trans htens,
    fun j hj => (State.tallyVal_tallyTakes_other hj).trans (State.tallyVal_congr htally), fun w hw hi => ?_,
    fun w hw h => State.mem_waiters_tallyTakes.2 ⟨hw, ?_⟩, fun w hw => (State.mem_waiters_tallyTakes.1 hw).1⟩
  · simpa [hi] using (State.mem_waiters_tallyTakes.1 hw).2
  · rintro ⟨hi, hmet⟩
    simp [hi, hmet] at h

/-- CMD_STATUS after an add: TALLY_WRAP is set when the sum is past the last value. -/
def State.wrapNoted (s : State) (i v : Nat) : State :=
  if 2 ^ 64 ≤ s.tallyVal i + v then s.setFld Reg.cmdStatus 31 31 1 else s

theorem State.tallyAdd_eq {v : Nat} (hv : v < 2 ^ 64) :
    s.tallyAdd i v = (s.wrapNoted i v).tallyTakes i ((s.tallyVal i + v) % 2 ^ 64) := by
  have hval := State.tallyVal_lt (s := s) (i := i)
  have hwrap : (s.tallyVal i + v) % 2 ^ 64 < v % 2 ^ 64 ↔ 2 ^ 64 ≤ s.tallyVal i + v := by omega
  simp only [State.tallyAdd, State.wrapNoted, hwrap]

theorem State.wrapNoted_fields (i v : Nat) : (s.wrapNoted i v).mem = s.mem ∧ (s.wrapNoted i v).tens = s.tens ∧
    (s.wrapNoted i v).tally = s.tally := by
  unfold State.wrapNoted
  split <;> simp

theorem State.wrapNoted_sound (hs : s.Sound) (i v : Nat) : (s.wrapNoted i v).Sound := by
  unfold State.wrapNoted
  split
  · exact hs.setFld
  · exact hs

/-- Settles O21: an add and a set both have the tally take a value, an add after it noted a wrap. -/
theorem talliesAddSetAndWait : Obligations.TalliesAddSetAndWait := by
  unfold Obligations.TalliesAddSetAndWait
  intro s i v hs hv
  have hadd := State.tallyAdd_eq (s := s) (i := i) hv
  have hset : s.tallySet i v = s.tallyTakes i v := by rw [State.tallySet, Nat.mod_eq_of_lt hv]
  have hsum : (s.tallyVal i + v) % 2 ^ 64 < 2 ^ 64 := Nat.mod_lt _ (by decide)
  have hwrapped := State.wrapNoted_sound hs i v
  obtain ⟨hmem, htens, htally⟩ := State.wrapNoted_fields (s := s) i v
  have hstatus : (s.tallyAdd i v).reg Reg.cmdStatus = (s.wrapNoted i v).reg Reg.cmdStatus := by
    rw [hadd]; exact (State.tallyTakes_fields _ _).2.2
  refine ⟨?sum, ?value, ?wraps, ?fits, ?takes, ?met, ?unmet, ?metBy⟩
  case sum => rw [hadd]; exact State.tallyVal_tallyTakes_same hwrapped hsum
  case value => rw [hset]; exact State.tallyVal_tallyTakes_same hs hv
  case wraps =>
    intro h
    rw [State.fld_congr hstatus, State.wrapNoted, if_pos h]
    exact State.fld_setFld_same hs (by decide) (by decide)
  case fits =>
    intro h
    rw [State.fld_congr hstatus, State.wrapNoted, if_neg (Nat.not_le.2 h)]
  case takes =>
    rintro t (rfl | rfl)
    · exact State.tallyTakes_presents hwrapped hsum hmem htens htally hadd
    · exact State.tallyTakes_presents hs hv rfl rfl rfl hset
  case met =>
    intro w h
    have hw : s.tallyWait w = s.notify w (s.tallyVal w.tally) := if_pos h
    exact ⟨hw, hw ▸ (notify_fields w _).1⟩
  case unmet => exact fun w h => if_neg (by simp [h])
  case metBy =>
    intro w x
    unfold Waiter.metBy
    split <;> simp

/-! ### The tally group on a tally of this node (R63 to R65) -/

theorem exec_tallyAdd (n : Nat) (s : State) : exec (.tallyAdd n) s = execTallyAdd n s := rfl
theorem exec_tallySet (n : Nat) (s : State) : exec (.tallySet n) s = execTallySet n s := rfl
theorem exec_tallyRead (n : Nat) (s : State) : exec (.tallyRead n) s = execTallyRead n s := rfl
theorem exec_tallyWaitGe (n : Nat) (s : State) : exec (.tallyWaitGe n) s = execTallyWaitGe n s := rfl
theorem exec_tallyWaitEq (n : Nat) (s : State) : exec (.tallyWaitEq n) s = execTallyWaitEq n s := rfl
theorem exec_tallyLimit (n : Nat) (s : State) : exec (.tallyLimit n) s = execTallyLimit n s := rfl

/-- A command on a tally of this node has its effect at home. -/
theorem State.tallyCmd_home {home away : Nat → State → State} (hi : tallyIndex (c.par 32 8) = some i)
    (hn : c.par 32 8 / 2 ^ 48 = s.node) : s.tallyCmd c home away = home i s := by
  simp only [State.tallyCmd, hi, hn, if_true]

/-- A command whose TALLY names no tally ends with BAD_TALLY (R63). -/
theorem State.tallyCmd_badTally {home away : Nat → State → State} (hi : tallyIndex (c.par 32 8) = none) :
    s.tallyCmd c home away = s.finish c.id (Outcome.bad 0x0100) := by
  simp only [State.tallyCmd, hi]

theorem State.tallyWaitCmd_home {isEq : Bool} (hi : tallyIndex (c.par 32 8) = some i) (hn : c.par 32 8 / 2 ^ 48 = s.node)
    (hid : c.id = n) :
    s.tallyWaitCmd c isEq = (s.park n []).tallyWait ⟨i, isEq, c.par 40 8, .command n⟩ := by
  subst hid
  rw [State.tallyWaitCmd, State.tallyCmd_home hi hn]

/-- What the wait of a TALLY_WAIT command comes to at home: an end with the value that meets it, or a wait attached. -/
theorem State.tallyWait_parked (hc : s.cmdOf n = some c) (isEq : Bool) (v : Nat) {w : Waiter}
    (hw : w = ⟨i, isEq, v, .command n⟩) : ∃ t, (s.park n []).tallyWait w = t ∧ t.mem = s.mem ∧
      t.tally.values = s.tally.values ∧
      (w.metBy (s.tallyVal i) = true → t.Ended n (Outcome.ok (s.tallyVal i)) ∧ t.tally = s.tally) ∧
      (w.metBy (s.tallyVal i) = false → t.cmdOf n = some { c with phase := .waiting, aux := [] } ∧
        t.tally.waiters = s.tally.waiters ++ [w]) := by
  have hp := State.cmdOf_park (a := []) hc
  have hval : (s.park n []).tallyVal i = s.tallyVal i := rfl
  subst hw
  unfold State.tallyWait
  rw [hval]
  split <;> rename_i h
  · exact ⟨_, rfl, rfl, rfl, fun _ => ⟨State.finish_ended hp, rfl⟩, fun hn => by simp [hn] at h⟩
  · exact ⟨_, rfl, rfl, rfl, fun hm => absurd hm h, fun _ => ⟨hp, rfl⟩⟩

/-- Settles O22: each command's row is its effect at home, once its turn has come. -/
theorem tallyCommandsActAtHome : Obligations.TallyCommandsActAtHome := by
  unfold Obligations.TallyCommandsActAtHome
  refine ⟨?home, ?limit, ?bad⟩
  case home =>
    intro s n i c hi hn
    refine ⟨?add, ?set, ?read, ?waitGe, ?waitEq⟩
    case add =>
      intro h
      rw [exec_tallyAdd, execTallyAdd, h.run, State.tallyCmd_home hi hn, h.id]
    case set =>
      intro h
      rw [exec_tallySet, execTallySet, h.run, State.tallyCmd_home hi hn, h.id]
    case read =>
      intro h
      rw [exec_tallyRead, execTallyRead, h.run, State.tallyCmd_home hi hn, h.id]
    case waitGe =>
      intro h
      rw [exec_tallyWaitGe, execTallyWaitGe, h.run, State.tallyWaitCmd_home hi hn h.id]
      obtain ⟨t, ht, hmem, hvalues, hmet, hunmet⟩ := State.tallyWait_parked (i := i) h.found false (c.par 40 8) rfl
      exact ⟨t, congrArg Host.Outcome.next ht, hmem, hvalues, fun hle => hmet (by simp [Waiter.metBy, hle]),
        fun hlt => hunmet (by simp [Waiter.metBy, hlt])⟩
    case waitEq =>
      intro h
      rw [exec_tallyWaitEq, execTallyWaitEq, h.run, State.tallyWaitCmd_home hi hn h.id]
      obtain ⟨t, ht, hmem, hvalues, hmet, hunmet⟩ := State.tallyWait_parked (i := i) h.found true (c.par 40 8) rfl
      exact ⟨t, congrArg Host.Outcome.next ht, hmem, hvalues, fun heq => hmet (by simp [Waiter.metBy, heq]),
        fun hne => hunmet (by simp [Waiter.metBy, hne])⟩
  case limit =>
    intro s n c h hop hlimit haux
    have hc : (s.detach fun o => decide (o = .command n)).cmdOf n = some c := h.found
    rw [exec_tallyLimit, execTallyLimit, h.resume]
    simp only [hop, hlimit, ne_eq, not_false_eq_true, and_self, if_true, State.cancelWatch, haux]
    exact ⟨_, rfl, State.finish_ended hc, rfl, rfl, fun w => by simp [State.detach]⟩
  case bad =>
    intro s n c hi
    refine ⟨?add, ?set, ?waitGe, ?waitEq, ?read⟩
    case add => intro h; rw [exec_tallyAdd, execTallyAdd, h.run, State.tallyCmd_badTally hi, h.id]
    case set => intro h; rw [exec_tallySet, execTallySet, h.run, State.tallyCmd_badTally hi, h.id]
    case waitGe =>
      intro h; rw [exec_tallyWaitGe, execTallyWaitGe, h.run, State.tallyWaitCmd, State.tallyCmd_badTally hi, h.id]
    case waitEq =>
      intro h; rw [exec_tallyWaitEq, execTallyWaitEq, h.run, State.tallyWaitCmd, State.tallyCmd_badTally hi, h.id]
    case read => intro h; rw [exec_tallyRead, execTallyRead, h.run, State.tallyCmd_badTally hi, h.id]

end Sys2Proof.Machine
end

section
/-! SUPPORT and PROOF. The admin group: NOP, IDENTIFY and FULL_RESET (02 R44, R61; 17 R416), and the functions that are
disabled, drained and enabled (02 R56 to R58). -/

namespace Sys2Proof.Machine

variable {s t : State} {n f g : Nat} {c : Cmd}

theorem exec_nop (n : Nat) (s : State) : exec (.nop n) s = execNop n s := rfl
theorem exec_identify (n : Nat) (s : State) : exec (.identify n) s = execIdentify n s := rfl
theorem exec_fullReset (n : Nat) (s : State) : exec (.fullReset n) s = execFullReset n s := rfl
theorem exec_disableFunction (n : Nat) (s : State) : exec (.disableFunction n) s = execDisableFunction n s := rfl
theorem exec_enableFunction (n : Nat) (s : State) : exec (.enableFunction n) s = execEnableFunction n s := rfl
theorem exec_drainLimit (n : Nat) (s : State) : exec (.drainLimit n) s = execDrainLimit n s := rfl

/-- Once a FULL_RESET is dispatched no ring is fetched (17 R416). -/
theorem State.mayFetch_of_resetPhase {r : Nat} (h : s.cmd.resetPhase ≠ 0) : s.mayFetch r = false := by
  simp [State.mayFetch, h]

/-- Settles O17: each row, in its turn, is the end of its command; FULL_RESET sets the reset phase before. -/
theorem nopIdentifyAndFullResetAnswer : Obligations.NopIdentifyAndFullResetAnswer := by
  unfold Obligations.NopIdentifyAndFullResetAnswer
  intro s n c
  refine ⟨fun h => ?nop, fun h => ?identify, fun h => ?fullReset⟩
  case nop => rw [exec_nop, execNop, h.run, h.id]
  case identify => rw [exec_identify, execIdentify, h.run, h.id]
  case fullReset =>
    have hc : State.cmdOf { s with cmd := { s.cmd with resetPhase := 1 } } n = some c := h.found
    rw [exec_fullReset, execFullReset, h.run, h.id]
    exact ⟨_, rfl, State.finish_ended hc, fun r => State.mayFetch_of_resetPhase one_ne_zero, rfl, rfl, rfl, rfl⟩

/-! ### Function numbers (R58) -/

theorem functionFault_of_le (h : 10 ≤ f) : functionFault f = some (if f ≤ 13 then 0x0007 else 0x0102) := by
  unfold functionFault
  by_cases hbig : 13 < f
  · rw [if_pos hbig, if_neg (Nat.not_le.2 hbig)]
  · rw [if_neg hbig, if_pos h, if_pos (Nat.not_lt.1 hbig)]

theorem functionFault_of_lt (h : f < 10) : functionFault f = none := by
  rw [functionFault, if_neg (by omega), if_neg (by omega)]

/-- Settles O18: the functions from 10 on have no bit in FUNC_STATE, and the check of a function number refuses them. -/
theorem someFunctionsCannotBeDisabled : Obligations.SomeFunctionsCannotBeDisabled := by
  unfold Obligations.SomeFunctionsCannotBeDisabled
  refine ⟨fun op => ⟨?admin, ?imposer, ?tally, ?security⟩, fun s f hf => State.isDisabled_of_le hf,
    fun s n c hf => ⟨fun h => ?disable, fun h => ?enable⟩⟩
  case admin => exact functionOf_admin
  case imposer => intro h; simp only [functionOf, h]
  case tally => intro h; simp only [functionOf, h]
  case security => intro h; simp only [functionOf, h]
  case disable => simp only [exec_disableFunction, execDisableFunction, h.run, functionFault_of_le hf, h.id]
  case enable => simp only [exec_enableFunction, execEnableFunction, h.run, functionFault_of_le hf, h.id]

/-! ### The bits of FUNC_STATE (R56, R57) -/

theorem bit_putBits_same {v x : Nat} : bit (putBits v f f x) f = x % 2 := by
  rw [bit_eq_bits, bits_putBits_same le_rfl, Nat.add_sub_cancel_left, pow_one]

theorem bit_putBits_other {v x : Nat} (h : g ≠ f) : bit (putBits v f f x) g = bit v g := by
  rw [bit_eq_bits, bit_eq_bits]
  rcases Nat.lt_or_gt_of_ne h with hlt | hgt
  · exact bits_putBits_below le_rfl hlt le_rfl
  · exact bits_putBits_above le_rfl hgt

theorem State.isDisabled_congr (h : t.regs = s.regs) : t.isDisabled f = s.isDisabled f := by
  rw [State.isDisabled, State.isDisabled, State.reg_congr h]

theorem State.isWedged_congr (h : t.regs = s.regs) : t.isWedged f = s.isWedged f := by
  rw [State.isWedged, State.isWedged, State.reg_congr h]

/-- A register with one bit put. -/
theorem State.reg_putBit (hs : s.Sound) {off x : Nat} (hf : f < 64) :
    (s.setReg off (putBits (s.reg off) f f x)).reg off = putBits (s.reg off) f f x :=
  State.reg_setFld_same hs le_rfl hf

theorem State.setDisabled_sound (hs : s.Sound) {x : Nat} : (s.setDisabled f x).Sound := hs.setReg

theorem State.isDisabled_setDisabled_same (hs : s.Sound) (hf : f < 10) {x : Nat} :
    (s.setDisabled f x).isDisabled f = decide (x % 2 = 1) := by
  rw [State.isDisabled, State.setDisabled, State.reg_putBit hs (by omega), bit_putBits_same]
  simp [hf]

theorem State.isDisabled_setDisabled_other (hs : s.Sound) (hf : f < 10) (h : g ≠ f) {x : Nat} :
    (s.setDisabled f x).isDisabled g = s.isDisabled g := by
  rw [State.isDisabled, State.setDisabled, State.reg_putBit hs (by omega), bit_putBits_other h, State.isDisabled]

theorem State.isWedged_setDisabled (hs : s.Sound) (hf : f < 10) {x : Nat} :
    (s.setDisabled f x).isWedged g = s.isWedged g := by
  rw [State.isWedged, State.setDisabled, State.reg_putBit hs (by omega), bit_putBits_other (by omega), State.isWedged]

/-- A function wedged: its bit of FUNC_STATE.WEDGED is set. -/
def State.setWedged (s : State) (f : Nat) : State :=
  s.setReg Reg.funcState (putBits (s.reg Reg.funcState) (16 + f) (16 + f) 1)

theorem State.isWedged_setWedged (hs : s.Sound) (hf : f < 10) : (s.setWedged f).isWedged f = true := by
  rw [State.isWedged, State.setWedged, State.reg_putBit hs (by omega), bit_putBits_same]
  simp [hf]

theorem State.isDisabled_setWedged (hs : s.Sound) (hf : f < 10) : (s.setWedged f).isDisabled f = s.isDisabled f := by
  rw [State.isDisabled, State.setWedged, State.reg_putBit hs (by omega), bit_putBits_other (by omega), State.isDisabled]

/-! ### The end of a drain (R56, R57) -/

/-- Commands that all end with one outcome. -/
def State.finishAll (s : State) (l : List Cmd) (o : Outcome) : State := l.foldl (fun s c => s.finish c.id o) s

theorem State.finishAll_fields (l : List Cmd) (o : Outcome) : (s.finishAll l o).regs = s.regs ∧
    (s.finishAll l o).mem = s.mem ∧ (s.finishAll l o).tally = s.tally := by
  induction l generalizing s with
  | nil => exact ⟨rfl, rfl, rfl⟩
  | cons c l ih => exact ih (s := s.finish c.id o)

theorem State.endDrain_fields (forDisable forEnable : Outcome) : (s.endDrain f forDisable forEnable).regs = s.regs ∧
    (s.endDrain f forDisable forEnable).mem = s.mem ∧ (s.endDrain f forDisable forEnable).tally = s.tally := by
  obtain ⟨dregs, dmem, dtally⟩ := State.finishAll_fields (s := s) (s.drainers f) forDisable
  obtain ⟨eregs, emem, etally⟩ := State.finishAll_fields (s := s.finishAll (s.drainers f) forDisable) (s.enablers f) forEnable
  exact ⟨eregs.trans dregs, emem.trans dmem, etally.trans dtally⟩

theorem State.cmdOf_finish_other {m : Nat} {o : Outcome} (h : m ≠ n) : (s.finish n o).cmdOf m = s.cmdOf m :=
  State.cmdOf_updCmd_other (by intro _; rfl) h

/-- A command that has ended with an outcome has so ended when another, or itself, ends with the same. -/
theorem State.Ended.finishAll {o : Outcome} (h : s.Ended n o) (l : List Cmd) : (s.finishAll l o).Ended n o := by
  induction l generalizing s with
  | nil => exact h
  | cons d l ih =>
    refine ih (s := s.finish d.id o) ?_
    obtain ⟨c, hc, hrest⟩ := h
    by_cases hd : n = d.id
    · subst hd
      exact State.finish_ended hc
    · exact ⟨c, (State.cmdOf_finish_other hd).trans hc, hrest⟩

/-- A command in flight ends with the outcome of those it stands among. -/
theorem State.ended_finishAll {o : Outcome} {l : List Cmd} (hl : c ∈ l) (hc : s.cmdOf c.id = some c) :
    (s.finishAll l o).Ended c.id o := by
  induction l generalizing s with
  | nil => cases hl
  | cons d l ih =>
    by_cases hd : c.id = d.id
    · rw [hd] at hc ⊢
      exact (State.finish_ended hc).finishAll l
    · have hmem : c ∈ l := (List.mem_cons.1 hl).resolve_left fun h => hd (h ▸ rfl)
      exact ih (s := s.finish d.id o) hmem ((State.cmdOf_finish_other hd).trans hc)

/-- A DISABLE_FUNCTION that is dispatched or waits takes part in its function's drain. -/
theorem State.mem_drainers (hc : s.cmdOf n = some c) (hop : c.opcode = 0x0104)
    (hp : c.phase = .dispatched ∨ c.phase = .waiting) : c ∈ s.drainers (c.par 32 1) :=
  List.mem_filter.2 ⟨List.mem_of_find?_eq_some hc, decide_eq_true ⟨hop, hp, rfl⟩⟩

/-- With nothing to drain, DISABLE_FUNCTION disables the function and ends the drain. -/
theorem exec_disableFunction_idle (h : s.Ready n 0x0104 c) (hf : c.par 32 1 < 10) (hdis : s.isDisabled (c.par 32 1) = false)
    (hdrain : s.draining (c.par 32 1) = false) : exec (.disableFunction n) s =
      .next ((s.setDisabled (c.par 32 1) 1).endDrain (c.par 32 1) (Outcome.ok 0) (Outcome.ok 0)) := by
  simp only [exec_disableFunction, execDisableFunction, h.run, functionFault_of_lt hf, hdis, hdrain, Bool.false_eq_true,
    if_false]

/-- Settles O19: every clause comes to bits put in FUNC_STATE, and to the end of the commands that take part in the
drain. -/
theorem functionsAreDisabledAndEnabled : Obligations.FunctionsAreDisabledAndEnabled := by
  unfold Obligations.FunctionsAreDisabledAndEnabled
  rintro s n f c hs rfl hf
  refine ⟨fun h hdis hdrain => ?disables, fun h hdis hdrain => ?drains, fun h hop hdrain => ?limit, fun h => ?enables,
    fun hop hok haux hwedge => ?completes⟩
  case disables =>
    rw [exec_disableFunction_idle h hf hdis hdrain]
    set u := s.setDisabled (c.par 32 1) 1
    have hu : u.cmdOf c.id = some c := h.id ▸ h.found
    have hmem : c ∈ u.drainers (c.par 32 1) := State.mem_drainers hu h.opcode (.inl h.phase)
    have hend : (u.endDrain (c.par 32 1) (Outcome.ok 0) (Outcome.ok 0)).Ended n (Outcome.ok 0) :=
      h.id ▸ (State.ended_finishAll hmem hu).finishAll (u.enablers (c.par 32 1))
    obtain ⟨hregs, hm, htally⟩ := State.endDrain_fields (s := u) (f := c.par 32 1) (Outcome.ok 0) (Outcome.ok 0)
    exact ⟨_, rfl, hend, (State.isDisabled_congr hregs).trans (State.isDisabled_setDisabled_same hs hf),
      fun g hg => (State.isDisabled_congr hregs).trans (State.isDisabled_setDisabled_other hs hf hg),
      fun g => (State.isWedged_congr hregs).trans (State.isWedged_setDisabled hs hf),
      fun o ho => (State.reg_congr hregs).trans (State.reg_setReg_other ho), hm, htally⟩
  case drains =>
    simp only [exec_disableFunction, execDisableFunction, h.run, functionFault_of_lt hf, hdis, hdrain, Bool.false_eq_true,
      if_false, if_true, h.id]
  case limit =>
    have hmem := State.mem_drainers h.found hop (.inr h.phase)
    have hd : (s.setDisabled (c.par 32 1) 1).Sound := State.setDisabled_sound hs
    refine ⟨(s.setDisabled (c.par 32 1) 1).setWedged (c.par 32 1), ?_,
      (State.isDisabled_setWedged hd hf).trans (State.isDisabled_setDisabled_same hs hf), State.isWedged_setWedged hd hf,
      rfl, rfl, rfl⟩
    simp only [exec_drainLimit, execDrainLimit, h.found, hmem, hf, hdrain, and_self, if_true, State.setWedged]
  case enables =>
    simp only [exec_enableFunction, execEnableFunction, h.run, functionFault_of_lt hf, h.id]
  case completes =>
    refine ⟨_, rfl, ?_⟩
    have hdo : s.atCompletion c = s.setDisabled (c.par 32 1) 0 := by
      simp [State.atCompletion, hop, hok, haux, hwedge]
    rw [hdo]
    exact ⟨State.isDisabled_setDisabled_same hs hf, fun g hg => State.isDisabled_setDisabled_other hs hf hg,
      fun o ho => State.reg_setReg_other ho, rfl, rfl⟩

end Sys2Proof.Machine
end

section
/-! SUPPORT and PROOF. The flags of the arrays (03 R88): what a write of ARITH_FLAGS_SUMMARY does to each ARRAY_FLAGS_s_a
register, and what it leaves. -/

namespace Sys2Proof.Machine

variable {s : State} {v m x core a i off : Nat}

/-! ### Clearing bits -/

theorem bit_zero : bit x 0 = x % 2 := rfl

theorem bit_succ : bit x (i + 1) = bit (x / 2) i := by simp only [bit, Nat.shiftRight_succ_inside]

/-- The low bit of what two numbers share. -/
theorem and_mod_two : (x &&& m) % 2 = if m % 2 = 1 then x % 2 else 0 := by
  rw [← pow_one 2, Nat.and_mod_two_pow, pow_one]
  rcases Nat.mod_two_eq_zero_or_one m with h | h <;> rcases Nat.mod_two_eq_zero_or_one x with h' | h' <;> simp [h, h']

/-- Taking from a number what it shares with a mask clears the bits of the mask, and borrows from no other bit. -/
theorem bit_sub_and : bit (x - (x &&& m)) i = if bit m i = 1 then 0 else bit x i := by
  have hle : (x &&& m) ≤ x := Nat.and_le_left
  have hlow : (x &&& m) % 2 = if m % 2 = 1 then x % 2 else 0 := and_mod_two
  induction i generalizing x m with
  | zero =>
    rw [bit_zero, bit_zero, bit_zero]
    split at hlow
    case isTrue hm => rw [if_pos hm]; omega
    case isFalse hm => rw [if_neg hm]; omega
  | succ i ih =>
    have hhalf : (x - (x &&& m)) / 2 = x / 2 - (x / 2 &&& m / 2) := by
      rw [← Nat.and_div_two]
      split at hlow <;> omega
    rw [bit_succ, bit_succ, bit_succ, hhalf, ih Nat.and_le_left and_mod_two]

/-- The low four bits of a number are those of its last hexadecimal digit. -/
theorem bit_mod_sixteen (hi : i < 4) : bit (v % 16) i = bit v i := by
  simp only [bit, Nat.shiftRight_eq_div_pow]
  interval_cases i <;> omega

/-! ### The registers of the cores -/

/-- One past the last offset at which a register of a family starts, or a bound above it. -/
def RegFamily.limit (f : RegFamily) : Nat :=
  f.base + match f.strides with
    | [] => 1
    | (a, n) :: _ => a * n

/-- The registers of a family start between its base and its limit. -/
theorem RegFamily.bounds_of_hit {f : RegFamily} (hpos : ∀ p ∈ f.strides, 0 < p.1) (h : f.hit off = true) :
    f.base ≤ off ∧ off < f.limit := by
  obtain ⟨name, base, strides, bytes, fields⟩ := f
  cases strides with
  | nil =>
    simp only [RegFamily.hit, RegFamily.limit, Bool.and_eq_true, decide_eq_true_eq] at h ⊢
    omega
  | cons p l =>
    obtain ⟨a, n⟩ := p
    obtain ⟨hbase, hrow⟩ : base ≤ off ∧ (off - base) / a < n := by
      cases l <;> simp only [RegFamily.hit, Bool.and_eq_true, decide_eq_true_eq] at h
      case nil =>
        obtain ⟨hbase, -, hrow⟩ := h
        exact ⟨hbase, hrow⟩
      case cons q l =>
        obtain ⟨hbase, hrow, -⟩ := h
        exact ⟨hbase, hrow⟩
    have hspan : off - base < a * n := Nat.mul_comm n a ▸ (Nat.div_lt_iff_lt_mul (hpos _ List.mem_cons_self)).1 hrow
    refine ⟨hbase, ?_⟩
    simp only [RegFamily.limit]
    omega

/-- Each family that resets to a word other than 0 lies below the registers of the cores or above them. -/
theorem regFamilies_reset_to_zero_or_off_core : ∀ f ∈ regFamilies, (∀ p ∈ f.strides, 0 < p.1) ∧
    (f.resetWord = 0 ∨ f.limit ≤ 0x100000 ∨ 0x200000 ≤ f.base) := by
  simp only [regFamilies, List.forall_mem_append]
  and_intros <;> decide

/-- Every register of a core resets to 0. -/
theorem regReset_core (hlo : 0x100000 ≤ off) (hhi : off < 0x200000) : regReset off = 0 := by
  unfold regReset
  split
  case h_2 => rfl
  case h_1 f hf =>
    obtain ⟨hpos, hreset⟩ := regFamilies_reset_to_zero_or_off_core f (List.mem_of_find?_eq_some hf)
    have hbounds := RegFamily.bounds_of_hit hpos (List.find?_some (p := fun f : RegFamily => f.hit off) hf)
    omega

/-- A key that is not listed reads as its default. -/
theorem Sparse.get_of_unlisted {α : Type} {d : Nat → α} {k : Nat} {l : List (Nat × α)} (h : k ∉ l.map (·.1)) :
    Sparse.get d l k = d k := by
  induction l with
  | nil => rfl
  | cons e l ih =>
    rw [List.map_cons, List.mem_cons, not_or] at h
    obtain ⟨hne, hl⟩ := h
    rw [Sparse.get, if_neg (Ne.symm hne), ih hl]

/-- A register that is not listed holds its reset word. -/
theorem State.reg_of_unlisted (h : off ∉ s.regs.map (·.1)) : s.reg off = regReset off % 2 ^ 64 := by
  rw [State.reg, Sparse.get_of_unlisted h, BitVec.toNat_ofNat]

/-! ### The flags of one array (R88, R119) -/

/-- What the clearing does for one of the registers listed: the step of the model's own fold. -/
def State.clearFlagsAt (v : Nat) (s : State) (off : Nat) : State :=
  if 0x100000 ≤ off ∧ off < 0x200000 ∧ off % 0x100 < 0x80 ∧ off % 0x20 = 0 then
    s.setReg off (s.reg off - (s.reg off &&& (v % 16)))
  else s

theorem State.clearArrayFlags_eq : s.clearArrayFlags v = (s.regs.map (·.1)).foldl (State.clearFlagsAt v) s := rfl

/-- At the flags of an array the bits written with 1 are taken out. -/
theorem State.clearFlagsAt_arrayFlags (hc : core < 4096) (ha : a < 4) :
    s.clearFlagsAt v (Reg.arrayFlags core a) = s.setReg (Reg.arrayFlags core a)
      (s.reg (Reg.arrayFlags core a) - (s.reg (Reg.arrayFlags core a) &&& (v % 16))) := by
  rw [State.clearFlagsAt, if_pos (by unfold Reg.arrayFlags; omega)]

/-- At any other register nothing is done. -/
theorem State.clearFlagsAt_of_ne (h : ∀ core < 4096, ∀ a < 4, off ≠ Reg.arrayFlags core a) :
    s.clearFlagsAt v off = s := by
  rw [State.clearFlagsAt, if_neg]
  intro hoff
  have := h ((off - 0x100000) / 0x100) (by omega) (off % 0x100 / 0x20) (by omega)
  unfold Reg.arrayFlags at this
  omega

theorem State.reg_clearFlagsAt_other {o : Nat} (h : o ≠ off) : (s.clearFlagsAt v off).reg o = s.reg o := by
  unfold State.clearFlagsAt
  split
  · exact State.reg_setReg_other h
  · rfl

theorem State.Sound.clearFlagsAt (hs : s.Sound) : (s.clearFlagsAt v off).Sound := by
  unfold State.clearFlagsAt
  split
  · exact hs.setReg
  · exact hs

/-- The flags of an array after the step for one register: those written with 1 are 0 if the register is theirs. -/
theorem State.bit_clearFlagsAt (hs : s.Sound) (hc : core < 4096) (ha : a < 4) (hi : i < 4) :
    bit ((s.clearFlagsAt v off).reg (Reg.arrayFlags core a)) i =
      if Reg.arrayFlags core a = off ∧ bit v i = 1 then 0 else bit (s.reg (Reg.arrayFlags core a)) i := by
  by_cases hoff : Reg.arrayFlags core a = off
  · subst hoff
    rw [State.clearFlagsAt_arrayFlags hc ha, State.reg_setReg_same hs,
      Nat.mod_eq_of_lt ((Nat.sub_le _ _).trans_lt State.reg_lt), bit_sub_and, bit_mod_sixteen hi]
    simp
  · rw [State.reg_clearFlagsAt_other hoff, if_neg fun h => hoff h.1]

/-! ### The flags of every array -/

/-- A flag after the steps for a list of registers: 0 if it is written with 1 and its register is listed. -/
theorem State.bit_foldl_clearFlagsAt (hc : core < 4096) (ha : a < 4) (hi : i < 4) (l : List Nat) (hs : s.Sound) :
    bit ((l.foldl (State.clearFlagsAt v) s).reg (Reg.arrayFlags core a)) i =
      if Reg.arrayFlags core a ∈ l ∧ bit v i = 1 then 0 else bit (s.reg (Reg.arrayFlags core a)) i := by
  induction l generalizing s with
  | nil => simp
  | cons off l ih =>
    rw [List.foldl_cons, ih hs.clearFlagsAt, State.bit_clearFlagsAt hs hc ha hi]
    simp only [List.mem_cons]
    split_ifs <;> tauto

/-- Every flag written with 1 is cleared, whether or not its register is listed: an unlisted one reads 0 already. -/
theorem State.bit_clearArrayFlags (hs : s.Sound) (hc : core < 4096) (ha : a < 4) (hi : i < 4) :
    bit ((s.clearArrayFlags v).reg (Reg.arrayFlags core a)) i =
      if bit v i = 1 then 0 else bit (s.reg (Reg.arrayFlags core a)) i := by
  rw [State.clearArrayFlags_eq, State.bit_foldl_clearFlagsAt hc ha hi _ hs]
  by_cases hmem : Reg.arrayFlags core a ∈ s.regs.map (·.1)
  · simp only [hmem, true_and]
  · have hreset : regReset (Reg.arrayFlags core a) = 0 := by
      apply regReset_core <;> unfold Reg.arrayFlags <;> omega
    have hzero : bit (s.reg (Reg.arrayFlags core a)) i = 0 := by
      rw [State.reg_of_unlisted hmem, hreset, bit, Nat.zero_mod, Nat.zero_shiftRight, Nat.zero_mod]
    rw [if_neg fun h => hmem h.1, hzero, ite_self]

/-- A register that holds no flags of an array is left. -/
theorem State.reg_foldl_clearFlagsAt {o : Nat} (h : ∀ core < 4096, ∀ a < 4, o ≠ Reg.arrayFlags core a) (l : List Nat) :
    (l.foldl (State.clearFlagsAt v) s).reg o = s.reg o := by
  induction l generalizing s with
  | nil => rfl
  | cons off l ih =>
    rw [List.foldl_cons, ih]
    by_cases ho : o = off
    · rw [← ho, State.clearFlagsAt_of_ne h]
    · exact State.reg_clearFlagsAt_other ho

theorem State.clearFlagsAt_eq_regs : ∃ regs, s.clearFlagsAt v off = { s with regs := regs } := by
  unfold State.clearFlagsAt
  split
  · exact ⟨_, rfl⟩
  · exact ⟨s.regs, rfl⟩

/-- Of the state nothing but the registers changes. -/
theorem State.clearArrayFlags_eq_regs : ∃ regs, s.clearArrayFlags v = { s with regs := regs } := by
  rw [State.clearArrayFlags_eq]
  generalize s.regs.map (·.1) = l
  induction l generalizing s with
  | nil => exact ⟨s.regs, rfl⟩
  | cons off l ih =>
    obtain ⟨regs, hregs⟩ := ih (s := s.clearFlagsAt v off)
    obtain ⟨_, hstep⟩ := State.clearFlagsAt_eq_regs (s := s) (v := v) (off := off)
    exact ⟨regs, by rw [List.foldl_cons, hregs, hstep]⟩

theorem exec_arithFlagsClear (v : Nat) (s : State) : exec (.arithFlagsClear v) s = execArithFlagsClear v s := rfl

/-- Settles O34: each listed register of flags loses the bits written, an unlisted one holds none, and every step of the
clearing sets that one register. -/
theorem clearingFlagsClearsEveryArray : Obligations.ClearingFlagsClearsEveryArray := by
  unfold Obligations.ClearingFlagsClearsEveryArray
  intro s v hu hs
  refine ⟨s.clearArrayFlags v, ?runs, fun core hc a ha i hi => State.bit_clearArrayFlags hs hc ha hi,
    fun off hoff => State.reg_foldl_clearFlagsAt hoff _, ?fields⟩
  case runs => rw [exec_arithFlagsClear, execArithFlagsClear, hu.when]
  case fields =>
    obtain ⟨regs, h⟩ := State.clearArrayFlags_eq_regs (s := s) (v := v)
    rw [h]
    exact ⟨rfl, rfl, rfl, rfl⟩

end Sys2Proof.Machine
end

section
/-! SUPPORT and PROOF. What the commands of the compute groups and the instructions of the vector engine leave as it is (04
R113, 05 R119, R123, 06 R164). -/

namespace Sys2Proof.Machine

/-- Settles O4: every row of the compute groups is `Calm` after what is `Calm`, and the state it starts in is. -/
theorem computeLeavesTheRest : Obligations.ComputeLeavesTheRest := by
  unfold Obligations.ComputeLeavesTheRest
  intro n e s t hq h
  have calm : Calm n s s := Calm.refl s
  obtain matmul | packed | stats | gated | seeds | attend | attendBack | back | conv | grouped | pool | margin | nop |
    identify := h
  · exact execMatmul_calm hq calm t matmul
  · exact execMatmulPacked_calm hq calm t packed
  · exact execRowStats_calm hq calm t stats
  · exact execGatedAct_calm hq calm t gated
  · exact execSeedGenerators_calm calm t seeds
  · exact execAttnForward_calm hq calm t attend
  · exact execAttnBackward_calm hq calm t attendBack
  · exact execBackwardInput_calm hq calm t back
  · exact execConv_calm hq calm t conv
  · exact execConvGrouped_calm hq calm t grouped
  · exact execGlobalAvgPool_calm hq calm t pool
  · exact execMarginLayer_calm (fault := none) hq calm t margin
  · exact execNop_calm calm t nop
  · exact execIdentify_calm calm t identify

/-- Settles O5: every instruction of a vector program runs as a row of one engine, which is `Calm` (log 12: a row run by
itself). -/
theorem vectorRowsLeaveTheRest : Obligations.VectorRowsLeaveTheRest := by
  unfold Obligations.VectorRowsLeaveTheRest
  intro n core t g w s u h
  have calm : Calm n s s := Calm.refl s
  obtain ld | st | ldi | add | sub | mul | fma | min | max | abs | neg | cmplt | sel | sfu | rand | randu | nop := h
  · exact execLd_calm calm u ld
  · exact execSt_calm calm u st
  · exact execLdi_calm calm u ldi
  · exact execAdd_calm calm u add
  · exact execSub_calm calm u sub
  · exact execMul_calm calm u mul
  · exact execFma_calm calm u fma
  · exact execMin_calm calm u min
  · exact execMax_calm calm u max
  · exact execAbs_calm calm u abs
  · exact execNeg_calm calm u neg
  · exact execCmplt_calm calm u cmplt
  · exact execSel_calm calm u sel
  · exact execSfu_calm calm u sfu
  · exact execRand_calm calm u rand
  · exact execRandu_calm calm u randu
  · exact execVectorNop_calm calm u nop

end Sys2Proof.Machine
end

section
/-! SUPPORT. What the work of a matrix command leaves, and how such a command ends (04 R113, R114, 03 R81). -/

namespace Sys2Proof.Machine

variable {s t u v r : State} {n k : Nat} {c : Cmd} {env : Env} {a b o w : Tensor} {l : List Write}

/-! ### Commands and tensors that stay -/

/-- What is `Calm` for every command number leaves every command. -/
theorem Calm.cmdOf (hc : s.Clean) (h : ∀ m, Calm m s t) : t.cmdOf n = s.cmdOf n :=
  (h (n + 1) hc.poison hc.flaws).others n n.succ_ne_self.symm

/-- What is `Calm` leaves the memories clean. -/
theorem State.Clean.calm (hc : s.Clean) (h : Calm n s t) : t.Clean :=
  have kept := h hc.poison hc.flaws
  ⟨kept.poison.trans hc.poison, kept.flaws.trans hc.flaws⟩

/-- A part of the state that no step of a fold changes, the fold leaves. -/
theorem State.foldl_leaves {α β : Type} (part : State → β) {f : State → α → State} (hf : ∀ u x, part (f u x) = part u)
    (l : List α) : part (l.foldl f s) = part s := by
  induction l generalizing s with
  | nil => rfl
  | cons x l ih => rw [List.foldl_cons, ih, hf]

/-- An update of a command that changes nothing of it. -/
theorem State.updCmd_of_fixed (hs : s.Sound) {f : Cmd → Cmd} (h : s.cmdOf n = some c) (hf : f c = c) :
    s.updCmd n f = s := by
  have hfix : ∀ d ∈ s.cmd.cmds, (if d.id = n then f d else d) = d := by
    intro d hd
    split
    case isFalse => rfl
    case isTrue hid =>
      obtain rfl : d = c := Option.some.inj ((hs.cmdOf_mem hd).symm.trans (hid ▸ h))
      exact hf
  rw [State.updCmd, List.map_congr_left hfix, List.map_id']

/-- The space of the saves does not depend on the command's number, and no command changes with it. -/
theorem State.takeSaves_calm_all (h : s.takeSaves c = some u) (m : Nat) : Calm m s u :=
  State.takeSaves_calm (c := { c with id := m }) rfl (Calm.refl s) u h

theorem State.matmulRecord_calm_all (h : s.matmulRecord c a b = some r) (m : Nat) : Calm m s r :=
  State.matmulRecord_calm (c := { c with id := m }) rfl (Calm.refl s) r h

theorem State.productRows_calm_all {accIn accOut ta tb : Bool} {p : Product} (m : Nat) :
    Calm m s (s.productRows c accIn accOut ta tb a b o p).1 :=
  State.productRows_calm (c := { c with id := m }) rfl (Calm.refl s)

theorem State.packedRows_calm_all (m : Nat) : Calm m s (s.packedRows c a b o).1 :=
  State.packedRows_calm (c := { c with id := m }) rfl (Calm.refl s)

/-! ### The end of a command that writes elements -/

theorem State.write_cmd {x : Write} : (s.write x).cmd = s.cmd := by
  unfold State.write State.writeScales
  repeat' split
  all_goals rfl

theorem State.writeAll_cmd : (s.writeAll l).cmd = s.cmd := State.foldl_leaves State.cmd (fun _ _ => State.write_cmd) l

theorem State.rewritten_cmd : (s.rewritten l).cmd = s.cmd :=
  State.foldl_leaves State.cmd (fun _ _ => by exact State.foldl_leaves State.cmd (fun _ _ => by rfl) _) _

theorem State.markOutputs_cmd {marks : List Nat} : (s.markOutputs c marks).cmd = s.cmd :=
  State.foldl_leaves State.cmd (fun _ _ => by rfl) _

/-- A command that writes elements ends as it was to end. -/
theorem State.complete_ended {d q : Nat} (hq : env.Quiet) (hv : v.Clean) (h : v.cmdOf n = some c) :
    (v.complete env c d l (Outcome.ok q)).Ended n (Outcome.ok q) := by
  obtain rfl : c.id = n := State.cmdOf_id h
  rw [State.complete_quiet hq hv.poison hv.flaws]
  have hcmd : (((v.writeAll l).rewritten l).markOutputs c (v.outMarks c)).cmd = v.cmd := by
    rw [State.markOutputs_cmd, State.rewritten_cmd, State.writeAll_cmd]
  exact State.finish_ended (c := c) (by rw [← h, State.cmdOf, State.cmdOf, hcmd])

/-! ### A product (R113) -/

/-- The state in which a product's elements are written: its rows are through, its blocks turned, and the arrays' flags and
counts are as it leaves them. -/
def State.productDone (u : State) (c : Cmd) (a b o : Tensor) : State :=
  let p := productOf c a b
  let r := u.productRows c c.accIn c.accOut c.transA c.turnB a b o p
  let t := if c.transA then r.1.turnBlocks a (u.operand c a).1 else r.1
  ((t.arraysRan c r.2.2 a.rows p.nCount (ceilDiv p.kCount (stepWidth a.fmt b.fmt)) (termCount c a.fmt b.fmt) false).productResult
    r.2.2 a.rows).2

/-- The elements that a product writes. -/
def State.productWrites (u : State) (c : Cmd) (a b o : Tensor) : List Write :=
  (u.productRows c c.accIn c.accOut c.transA c.turnB a b o (productOf c a b)).2.1

/-- A product with its record joined and its space taken writes its elements and ends OK. -/
theorem State.matmul_eq_complete (ha : s.readable c (c.par 32 4) = some a) (hb : s.readable c (c.par 36 4) = some b)
    (ho : s.tensor (c.par 40 4) = some o) (hr : s.matmulRecord c a b = some r) (hu : r.takeSaves c = some u) :
    ∃ q, s.matmul env c = (u.productDone c a b o).complete env c 0x0109 (u.productWrites c a b o) (Outcome.ok q) := by
  simp only [State.matmul, ha, hb, ho, hr, hu, State.withSaves, Option.isNone_some, Bool.false_eq_true, if_false]
  exact ⟨_, rfl⟩

theorem State.productDone_calm (m : Nat) : Calm m u (u.productDone c a b o) :=
  State.productResult_calm (State.arraysRan_calm
    (Calm.ite (State.turnBlocks_calm (State.productRows_calm_all m)) (State.productRows_calm_all m)))

/-- MATMUL once it may run: it writes its elements from a state in which only engines have changed, and ends OK. -/
theorem State.matmul_ended (hq : env.Quiet) (hc : s.Clean) (hn : s.cmdOf n = some c)
    (ha : s.readable c (c.par 32 4) = some a) (hb : s.readable c (c.par 36 4) = some b)
    (ho : s.tensor (c.par 40 4) = some o) (hr : s.matmulRecord c a b = some r) (hu : r.takeSaves c = some u) :
    ∃ q, s.matmul env c = (u.productDone c a b o).complete env c 0x0109 (u.productWrites c a b o) (Outcome.ok q) ∧
      (u.productDone c a b o).Clean ∧ (s.matmul env c).Ended n (Outcome.ok q) := by
  have hrc := hc.calm (State.matmulRecord_calm_all hr n)
  have huc := hrc.calm (State.takeSaves_calm_all hu n)
  have hdone := huc.calm (State.productDone_calm (c := c) (a := a) (b := b) (o := o) n)
  have hcmd : (u.productDone c a b o).cmdOf n = some c := by
    rw [Calm.cmdOf huc State.productDone_calm, Calm.cmdOf hrc (State.takeSaves_calm_all hu),
      Calm.cmdOf hc (State.matmulRecord_calm_all hr), hn]
  obtain ⟨q, h⟩ := State.matmul_eq_complete ha hb ho hr hu
  exact ⟨q, h, hdone, h ▸ State.complete_ended hq hdone hcmd⟩

/-! ### The rows of the matrix group -/

theorem exec_matmul (n : Nat) (env : Env) (s : State) : exec (.matmul n env) s = execMatmul n env s := rfl

theorem exec_matmulGather (n : Nat) (env : Env) (s : State) : exec (.matmulGather n env) s = execMatmulGather n env s := rfl

theorem exec_matmulPacked (n : Nat) (env : Env) (s : State) : exec (.matmulPacked n env) s = execMatmulPacked n env s := rfl

theorem exec_setMatrixMode (n : Nat) (s : State) : exec (.setMatrixMode n) s = execSetMatrixMode n s := rfl

/-- MATMUL whose checks pass. -/
theorem exec_matmul_of_ready (h : s.Ready n 0x0401 c) (hb : s.Begins c) (hf : s.matmulFault c = none) :
    exec (.matmul n env) s = .next (s.matmul env c) := by
  rw [exec_matmul, execMatmul, h.work hb, hf]

/-- A dispatched MATMUL_GATHER has not waited. -/
theorem State.gatherReady_of_dispatched (hs : s.Sound) (h : s.cmdOf n = some c) (hp : c.phase = .dispatched) :
    s.gatherReady n = s := by
  refine State.updCmd_of_fixed hs h ?_
  split
  · simp [hp]
  · rfl

/-- MATMUL_GATHER whose checks pass, by the state of the ALL_GATHER `x` that feeds it. -/
theorem exec_matmulGather_of_ready (hs : s.Sound) (h : s.Ready n 0x0402 c) (hb : s.Begins c)
    (hf : s.matmulFault c = none) {x : Nat} (hx : c.latch.extra = [0, x]) :
    exec (.matmulGather n env) s = .next (
      if x ∈ s.coll.failed then s.finish n (Outcome.aborted 0x010B)
      else if ∃ y ∈ s.coll.colls, y.id = x ∧ (y.slot = none ∨ y.toWrite ≠ []) then s.park n [14, x]
      else s.matmul env c) := by
  rw [exec_matmulGather, execMatmulGather, State.gatherReady_of_dispatched hs h.found h.phase, h.work hb, hf]
  simp only [hx, h.id, List.contains_iff_mem, List.any_eq_true, decide_eq_true_eq]

/-- MATMUL_GATHER whose ALL_GATHER has ended runs as MATMUL does. -/
theorem exec_matmulGather_of_gathered (hs : s.Sound) (h : s.Ready n 0x0402 c) (hb : s.Begins c)
    (hf : s.matmulFault c = none) {x : Nat} (hx : c.latch.extra = [0, x]) (hfail : x ∉ s.coll.failed)
    (hcolls : ∀ y ∈ s.coll.colls, y.id ≠ x) : exec (.matmulGather n env) s = .next (s.matmul env c) := by
  rw [exec_matmulGather_of_ready hs h hb hf hx, if_neg hfail, if_neg fun ⟨y, hy, hid, _⟩ => hcolls y hy hid]

end Sys2Proof.Machine
end

section
/-! SUPPORT and PROOF. MATMUL and MATMUL_GATHER into an accumulator: what each element of each tensor holds afterwards (04
R113, R114, 03 R81). -/

namespace Sys2Proof.Machine

variable {s t u v r : State} {n k : Nat} {c : Cmd} {env : Env} {a b o w : Tensor} {l : List Write}

/-! ### Tensors that stay -/

theorem State.rewritten_tens : (s.rewritten l).tens = s.tens :=
  State.foldl_leaves State.tens (fun _ _ => by exact State.foldl_leaves State.tens (fun _ _ => by rfl) _) _

theorem State.turnBlocks_tens {d : Codes} : (s.turnBlocks a d).tens = s.tens :=
  State.foldl_leaves State.tens (fun _ _ => by exact State.foldl_leaves State.tens (fun _ _ => by rfl) _) _

theorem State.raiseFlag_tens {places : List Nat} {i : Nat} : (s.raiseFlag places i).tens = s.tens :=
  State.foldl_leaves State.tens (fun _ _ => by split <;> rfl) _

theorem State.raiseIn_tens {places : List Nat} {f : Flags} {vector : Bool} : (s.raiseIn places f vector).tens = s.tens := by
  unfold State.raiseIn
  extract_lets t
  have ht : t.tens = s.tens :=
    State.foldl_leaves State.tens (fun _ _ => by split; exacts [rfl, State.raiseFlag_tens]) _
  split
  · simp only [State.proofEvent_fields, ht]
  · exact ht

theorem State.countRows_tens {core x rows swaps : Nat} : (s.countRows core x rows swaps).tens = s.tens := by
  simp only [State.countRows, State.addWrap_fields]

theorem State.countPasses_tens {keep : Nat → Bool} {rows cols steps terms : Nat} {swaps : Bool} :
    (s.countPasses keep rows cols steps terms swaps).tens = s.tens :=
  State.foldl_leaves State.tens (fun _ _ => by
    exact State.foldl_leaves State.tens (fun _ _ => by
      exact State.foldl_leaves State.tens (fun _ _ => State.countRows_tens) _) _) _

theorem State.arraysRan_tens {f : Flags} {rows cols steps terms : Nat} {swaps : Bool} :
    (s.arraysRan c f rows cols steps terms swaps).tens = s.tens := by
  simp only [State.arraysRan, State.countPasses_tens, State.raiseIn_tens, State.arraysTake]

/-! ### Elements written -/

/-- A tensor after element writes, in order: those that name it set its codes. -/
def Tensor.written (l : List Write) (w : Tensor) : Tensor :=
  { w with data := l.foldl (fun d x => if x.handle = w.handle then setCode d x.index x.code else d) w.data }

/-- Writing elements of data, and no scale, changes each tensor alone. -/
theorem State.writeAll_tens (hl : ∀ x ∈ l, x.scale = false) : (s.writeAll l).tens = s.tens.map (Tensor.written l) := by
  induction l generalizing s with
  | nil => exact (List.map_id' _).symm
  | cons x l ih =>
    have hx : (s.write x).tens = s.tens.map fun w => if w.handle = x.handle then
        { w with data := setCode w.data x.index x.code } else w := by
      rw [State.write, hl x List.mem_cons_self]
      rfl
    rw [State.writeAll, List.foldl_cons, ← State.writeAll, ih fun y hy => hl y (List.mem_cons_of_mem _ hy), hx, List.map_map]
    refine List.map_congr_left fun w _ => ?_
    by_cases hw : w.handle = x.handle
    · simp [Tensor.written, hw]
    · simp [Tensor.written, hw, Ne.symm hw]

/-- A code just set, in 32 bits, and the codes beside it. -/
theorem codeAt_setCode {d : Codes} {i x : Nat} (hd : Sparse.wf codeDefault d = true) :
    codeAt (setCode d i x) k = if k = i then x % 2 ^ 32 else codeAt d k := by
  rw [codeAt, setCode, Sparse.get_set hd]
  split <;> simp [codeAt]

/-- An element after one write, if it names the tensor. -/
theorem codeAt_write {d : Codes} {h : Nat} {y : Write} (hd : Sparse.wf codeDefault d = true) :
    codeAt (if y.handle = h then setCode d y.index y.code else d) k =
      if y.handle = h ∧ y.index = k then y.code % 2 ^ 32 else codeAt d k := by
  by_cases hh : y.handle = h
  · simp only [hh, if_true, true_and, codeAt_setCode hd, eq_comm]
  · simp only [hh, if_false, false_and]

/-- An element after writes that agree on it: what they write there, or, with none of it, what it held. -/
theorem Tensor.codeAt_written {x : Nat} (hw : Sparse.wf codeDefault w.data = true)
    (hl : ∀ y ∈ l, y.handle = w.handle → y.index = k → y.code % 2 ^ 32 = x) :
    codeAt (w.written l).data k = if ∃ y ∈ l, y.handle = w.handle ∧ y.index = k then x else codeAt w.data k := by
  simp only [Tensor.written]
  generalize w.data = d at hw
  induction l generalizing d with
  | nil => simp
  | cons y l ih =>
    have hset : Sparse.wf codeDefault (if y.handle = w.handle then setCode d y.index y.code else d) = true := by
      split
      exacts [Sparse.set_wf hw, hw]
    obtain ⟨hy, hrest⟩ := List.forall_mem_cons.1 hl
    rw [List.foldl_cons, ih hrest _ hset, codeAt_write hw]
    simp only [List.exists_mem_cons_iff]
    by_cases hhit : y.handle = w.handle ∧ y.index = k
    · rw [if_pos hhit, if_pos (Or.inl hhit), hy hhit.1 hhit.2, ite_self]
    · simp only [hhit, if_false, false_or]

/-- Marks change neither a tensor's handle nor its data. -/
theorem State.markOutputs_tens {marks : List Nat} : List.Forall₂ (fun w v => v.handle = w.handle ∧ v.data = w.data) s.tens
    (s.markOutputs c marks).tens := by
  unfold State.markOutputs
  generalize s.writes c = hs
  induction hs generalizing s with
  | nil => exact List.forall₂_same.2 fun _ _ => ⟨rfl, rfl⟩
  | cons h hs ih =>
    have hstep := ih (s := s.updTensor h fun t => { t with marks := marks })
    rw [State.updTensor, List.forall₂_map_left_iff] at hstep
    refine hstep.imp fun w v hv => ?_
    split at hv <;> exact hv

/-- The tensors after a command that writes elements of data: each is written alone. -/
theorem State.complete_tens {d : Nat} {x : Outcome} (hq : env.Quiet) (hv : v.Clean) (hl : ∀ x ∈ l, x.scale = false) :
    List.Forall₂ (fun w z => z.handle = w.handle ∧ z.data = (w.written l).data) v.tens (v.complete env c d l x).tens := by
  rw [State.complete_quiet hq hv.poison hv.flaws]
  have h := State.markOutputs_tens (s := (v.writeAll l).rewritten l) (c := c) (marks := v.outMarks c)
  rwa [State.rewritten_tens, State.writeAll_tens hl, List.forall₂_map_left_iff] at h

/-! ### The elements of a product -/

/-- The code of element (m, `nBegin` + j) of C: the reduction of row m of A by that column of B in FP32, begun at C's old
element or at zero (R81, R113). -/
def State.productCode (u : State) (c : Cmd) (a b o : Tensor) (m j : Nat) : Nat :=
  let p := productOf c a b
  fp32.encode (dotParts (ArithMode.ofWord c.latch.mode) a.fmt b.fmt (u.kParts c)
    (terms2 c.transA c.turnB a b (u.operand c a) (u.operand c b) m (p.nBegin + j) ((List.range p.kCount).map (p.kBegin + ·)))
    (accInit c.accIn o.data (m * o.width + (p.nBegin + j)))).1

/-- The write of element (m, `nBegin` + j) of C. -/
def State.productWrite (u : State) (c : Cmd) (a b o : Tensor) (m j : Nat) : Write :=
  ⟨o.handle, false, m * o.width + ((productOf c a b).nBegin + j), u.productCode c a b o m j⟩

/-- A fold whose steps append writes, and leave the state, appends the writes of every step. -/
theorem foldl_appends {ι : Type} {f : State × List Write × Flags → ι → State × List Write × Flags} {g : ι → List Write}
    (hf : ∀ x m, (f x m).1 = x.1 ∧ (f x m).2.1 = x.2.1 ++ g m) (ms : List ι) (x : State × List Write × Flags) :
    (ms.foldl f x).1 = x.1 ∧ (ms.foldl f x).2.1 = x.2.1 ++ ms.flatMap g := by
  induction ms generalizing x with
  | nil => simp
  | cons m ms ih =>
    obtain ⟨hstate, hwrites⟩ := ih (f x m)
    obtain ⟨hs, hw⟩ := hf x m
    rw [List.foldl_cons, hstate, hwrites, hs, hw, List.flatMap_cons, List.append_assoc]
    trivial

/-- With ACC_OUT the rows of a product leave the state and write each element. -/
theorem State.productRows_of_accOut (hacc : c.accOut = true) :
    (u.productRows c c.accIn c.accOut c.transA c.turnB a b o (productOf c a b)).1 = u ∧ u.productWrites c a b o =
      (List.range (productOf c a b).rows).flatMap fun m =>
        (List.range (productOf c a b).nCount).map (u.productWrite c a b o m) := by
  refine foldl_appends (fun x m => ?_) (List.range (productOf c a b).rows) (u, [], Flags.none)
  simp only [hacc, if_true, productRow, List.map_map]
  trivial

theorem State.mem_productWrites (hacc : c.accOut = true) {y : Write} : y ∈ u.productWrites c a b o ↔
    ∃ m < (productOf c a b).rows, ∃ j < (productOf c a b).nCount, u.productWrite c a b o m j = y := by
  rw [(State.productRows_of_accOut hacc).2]
  simp only [List.mem_flatMap, List.mem_map, List.mem_range]

theorem State.productDone_tens (hacc : c.accOut = true) : (u.productDone c a b o).tens = u.tens := by
  have hrows := (State.productRows_of_accOut (u := u) (a := a) (b := b) (o := o) hacc).1
  have hturn : (if c.transA then u.turnBlocks a (u.operand c a).1 else u).tens = u.tens := by
    split
    exacts [State.turnBlocks_tens, rfl]
  simp only [State.productDone, hrows]
  exact State.arraysRan_tens.trans hturn

/-- An index in a row-major layout names one row and one column. -/
theorem rowMajor_inj {width m m' i i' : Nat} (hi : i < width) (hi' : i' < width)
    (h : m * width + i = m' * width + i') : m = m' ∧ i = i' := by
  have hm : m = m' := by
    have := congrArg (· / width) h
    simpa [Nat.mul_comm _ width, Nat.mul_add_div (Nat.zero_lt_of_lt hi), Nat.div_eq_of_lt, hi, hi'] using this
  subst hm
  exact ⟨rfl, Nat.add_left_cancel h⟩

/-- The writes of one element of C agree: there is one. -/
theorem State.productWrite_inj {m m' j j' : Nat} (hwidth : (productOf c a b).nBegin + (productOf c a b).nCount ≤ o.width)
    (hj : j < (productOf c a b).nCount) (hj' : j' < (productOf c a b).nCount)
    (h : (u.productWrite c a b o m j).index = (u.productWrite c a b o m' j').index) : m = m' ∧ j = j' := by
  obtain ⟨hm, hn⟩ := rowMajor_inj (by omega) (by omega) h
  exact ⟨hm, Nat.add_left_cancel hn⟩

/-- Element (m, `nBegin` + j) of C after the writes of a product. -/
theorem State.codeAt_productWrites_same (hacc : c.accOut = true) (hw : Sparse.wf codeDefault w.data = true)
    (hwidth : (productOf c a b).nBegin + (productOf c a b).nCount ≤ o.width) (hh : w.handle = o.handle) {m j : Nat}
    (hm : m < (productOf c a b).rows) (hj : j < (productOf c a b).nCount) :
    codeAt (w.written (u.productWrites c a b o)).data (m * o.width + ((productOf c a b).nBegin + j)) =
      u.productCode c a b o m j % 2 ^ 32 := by
  have hagree : ∀ y ∈ u.productWrites c a b o, y.handle = w.handle →
      y.index = m * o.width + ((productOf c a b).nBegin + j) → y.code % 2 ^ 32 = u.productCode c a b o m j % 2 ^ 32 := by
    intro y hy _ hindex
    obtain ⟨m', _, j', hj', rfl⟩ := (State.mem_productWrites hacc).1 hy
    obtain ⟨rfl, rfl⟩ := State.productWrite_inj hwidth hj' hj hindex
    rfl
  rw [Tensor.codeAt_written hw hagree]
  exact if_pos ⟨_, (State.mem_productWrites hacc).2 ⟨m, hm, j, hj, rfl⟩, hh.symm, rfl⟩

/-- Every other element of every tensor after the writes of a product. -/
theorem State.codeAt_productWrites_other (hacc : c.accOut = true) (hw : Sparse.wf codeDefault w.data = true)
    (hk : w.handle = o.handle → ∀ m < (productOf c a b).rows, ∀ j < (productOf c a b).nCount,
      k ≠ m * o.width + ((productOf c a b).nBegin + j)) :
    codeAt (w.written (u.productWrites c a b o)).data k = codeAt w.data k := by
  have hmiss : ¬ ∃ y ∈ u.productWrites c a b o, y.handle = w.handle ∧ y.index = k := by
    rintro ⟨y, hy, hhandle, hindex⟩
    obtain ⟨m, hm, j, hj, rfl⟩ := (State.mem_productWrites hacc).1 hy
    exact hk hhandle.symm m hm j hj hindex.symm
  rw [Tensor.codeAt_written (x := 0) hw fun y hy hh hi => absurd ⟨y, hy, hh, hi⟩ hmiss, if_neg hmiss]

/-- Settles O31: MATMUL_GATHER runs as MATMUL once its ALL_GATHER has ended (log 71); the product writes each element of C
once, and what the arrays do beside it changes no tensor. -/
theorem matmulWritesItsProducts : Obligations.MatmulWritesItsProducts := by
  unfold Obligations.MatmulWritesItsProducts
  intro s r u n c env a b o i hs hq hbegins hclean hfault ha hb ho hacc hr hu hwidth hrow
  obtain ⟨hfound, hexec⟩ : s.cmdOf n = some c ∧ exec i s = .next (s.matmul env c) := by
    obtain ⟨hready, rfl⟩ | ⟨hready, rfl, x, hx, hfail, hcolls⟩ := hrow
    · exact ⟨hready.found, exec_matmul_of_ready hready hbegins hfault⟩
    · exact ⟨hready.found, exec_matmulGather_of_gathered hs hready hbegins hfault hx hfail hcolls⟩
  obtain ⟨q, heq, hdone, hend⟩ := State.matmul_ended hq hclean hfound ha hb ho hr hu
  have hsound : u.Sound := (State.takeSaves_kept (State.matmulRecord_kept hs.kept r hr) u hu).sound
  have hscale : ∀ y ∈ u.productWrites c a b o, y.scale = false := by
    intro y hy
    obtain ⟨m, _, j, _, rfl⟩ := (State.mem_productWrites hacc).1 hy
    rfl
  have htens := State.complete_tens (c := c) (d := 0x0109) (x := Outcome.ok q) hq hdone hscale
  rw [State.productDone_tens hacc, ← heq] at htens
  refine ⟨_, hexec, ⟨q, hend⟩, ((List.forall₂_and_left _ _).2 ⟨hsound.elements, htens⟩).imp ?_⟩
  rintro w v ⟨hw, hhandle, hdata⟩
  rw [hdata]
  exact ⟨hhandle, fun hh m hm j hj => State.codeAt_productWrites_same hacc hw hwidth hh hm hj,
    fun k hk => State.codeAt_productWrites_other hacc hw hk⟩

end Sys2Proof.Machine
end

section
/-! PROOF. How the commands of the matrix group end (04 R108, R113, R114, R115). -/

namespace Sys2Proof.Machine

variable {s t u v r : State} {n k : Nat} {c : Cmd} {env : Env} {a b o w : Tensor} {l : List Write}

/-- The state in which the elements of packed problems are written. -/
def State.packedDone (u : State) (c : Cmd) (a b o : Tensor) : State :=
  let p := u.packedRows c a b o
  ((p.1.packRan c p.2.2 (innerShape a).1 (c.par 48 4)).productResult p.2.2 o.rows).2

theorem State.packedDone_calm (m : Nat) : Calm m u (u.packedDone c a b o) :=
  State.productResult_calm (State.packRan_calm (State.packedRows_calm_all m))

/-- MATMUL_PACKED whose checks pass and whose saves have their space writes its elements and ends OK. -/
theorem exec_matmulPacked_of_ready (h : s.Ready n 0x0403 c) (hb : s.Begins c) (hf : s.packFault c = none)
    (hA : s.readable c (c.par 32 4) = some a) (hB : s.readable c (c.par 36 4) = some b)
    (hC : s.tensor (c.par 40 4) = some o) (hu : s.takeSaves c = some u) :
    ∃ q, exec (.matmulPacked n env) s =
      .next ((u.packedDone c a b o).complete env c 0x0109 (u.packedRows c a b o).2.1 (Outcome.ok q)) := by
  rw [exec_matmulPacked, execMatmulPacked, h.work hb, hf]
  simp only [hA, hB, hC, hu, State.withSaves]
  exact ⟨_, rfl⟩

/-- MATMUL_PACKED then ends OK. -/
theorem exec_matmulPacked_ended (hq : env.Quiet) (hc : s.Clean) (h : s.Ready n 0x0403 c) (hb : s.Begins c)
    (hf : s.packFault c = none) (hA : s.readable c (c.par 32 4) = some a) (hB : s.readable c (c.par 36 4) = some b)
    (hC : s.tensor (c.par 40 4) = some o) (hu : s.takeSaves c = some u) :
    ∃ t q, exec (.matmulPacked n env) s = .next t ∧ t.Ended n (Outcome.ok q) := by
  obtain ⟨q, hexec⟩ := exec_matmulPacked_of_ready (env := env) h hb hf hA hB hC hu
  have huc := hc.calm (State.takeSaves_calm_all hu n)
  have hcmd : (u.packedDone c a b o).cmdOf n = some c := by
    rw [Calm.cmdOf huc State.packedDone_calm, Calm.cmdOf hc (State.takeSaves_calm_all hu), h.found]
  exact ⟨_, q, hexec, State.complete_ended hq (huc.calm (State.packedDone_calm n)) hcmd⟩

/-! ### SET_MATRIX_MODE (R115) -/

/-- The row of SET_MATRIX_MODE judges the word alone. -/
theorem exec_setMatrixMode_of_ready (h : s.Ready n 0x0404 c) (hb : s.Begins c) : exec (.setMatrixMode n) s = .next (
    if c.par 32 4 % 4 = 0 ∨ bits (c.par 32 4) 15 4 ≠ 0 ∨ bits (c.par 32 4) 31 17 ≠ 0 then
      s.finish n (Outcome.bad 0x0108)
    else s.finish n (Outcome.ok 0)) := by
  rw [exec_setMatrixMode, execSetMatrixMode, h.work hb, h.id]

/-- A field of a packet has no more bits than its bytes. -/
theorem Cmd.par_lt {i m : Nat} : c.par i m < 2 ^ (8 * m) :=
  leNat_lt.trans_le (Nat.pow_le_pow_right (by decide) (Nat.mul_le_mul_left 8 (List.length_take_le _ _)))

/-- At the completion of a SET_MATRIX_MODE that is OK its word takes effect, and its RESULT has the word before. -/
theorem State.atCompletion_setMatrixMode (ho : c.opcode = 0x0404) (hok : c.status = stOK) :
    s.atCompletion c = (s.updCmd c.id fun d => { d with result := resultOf 0 0 0 (s.reg Reg.arithModeNow) 0 0 }).setReg
      Reg.arithModeNow (c.par 32 4) := by
  rw [State.atCompletion, ho]
  exact if_pos hok

/-- Settles O32: MATMUL_GATHER waits for its ALL_GATHER (log 71) and then is a MATMUL; both, and MATMUL_PACKED, end as they
write their elements. -/
theorem matrixCommandsComplete : Obligations.MatrixCommandsComplete := by
  unfold Obligations.MatrixCommandsComplete
  intro s r u n c env a b o hs hq hbegins hclean ha hb ho
  have hmatmul : s.cmdOf n = some c → s.matmulRecord c a b = some r → r.takeSaves c = some u →
      ∃ q, (s.matmul env c).Ended n (Outcome.ok q) := fun hfound hr hu =>
    have ⟨q, _, _, hend⟩ := State.matmul_ended hq hclean hfound ha hb ho hr hu
    ⟨q, hend⟩
  refine ⟨?matmul, ?gather, ?packed, ?mode, ?completion, ?refused⟩
  case matmul =>
    intro h hf hr hu
    obtain ⟨q, hend⟩ := hmatmul h.found hr hu
    exact ⟨_, q, exec_matmul_of_ready h hbegins hf, hend⟩
  case gather =>
    intro h hf hr hu x hx
    refine ⟨fun hfail => ?_, fun hfail hcolls => ?_, fun hfail hcoll => ?_⟩
    · rw [exec_matmulGather_of_ready hs h hbegins hf hx, if_pos hfail]
    · obtain ⟨q, hend⟩ := hmatmul h.found hr hu
      exact ⟨_, q, exec_matmulGather_of_gathered hs h hbegins hf hx hfail hcolls, hend⟩
    · rw [exec_matmulGather_of_ready hs h hbegins hf hx, if_neg hfail, if_pos hcoll]
  case packed => exact fun h hf hu => exec_matmulPacked_ended hq hclean h hbegins hf ha hb ho hu
  case mode =>
    intro h hmode hlow hhigh
    rw [exec_setMatrixMode_of_ready h hbegins, if_neg (by simp [hmode, hlow, hhigh])]
  case completion =>
    intro hop hok hfound
    rw [State.atCompletion_setMatrixMode hop hok]
    have hsound := (State.updCmd_kept (m := c.id)
      (f := fun d => { d with result := resultOf 0 0 0 (s.reg Reg.arithModeNow) 0 0 }) (fun _ => rfl) hs.kept).sound
    refine ⟨_, rfl, ?word, State.cmdOf_updCmd rfl hfound, fun o ho => State.reg_setReg_other ho, rfl, rfl, rfl⟩
    rw [State.reg_setReg_same hsound, Nat.mod_eq_of_lt (Cmd.par_lt.trans (by decide))]
  case refused =>
    intro h hbad
    rw [exec_setMatrixMode_of_ready h hbegins, if_pos hbad]

end Sys2Proof.Machine
end

section
/-! SUPPORT and PROOF. The weight registers of the arrays, and the events that move weights through them (04 R98 to R101, R103,
R105, R106). -/

namespace Sys2Proof.Machine

variable {s t : State} {core a i n k0 n0 hi lo off o x : Nat} {c : Cmd} {ta tb : Tensor} {turned : Bool}

/-! ### Counters (00 R10) -/

theorem State.Sound.addSat (hs : s.Sound) : (s.addSat off hi lo x).Sound := hs.setReg

theorem State.Sound.addWrap (hs : s.Sound) : (s.addWrap off hi lo x).Sound := hs.setReg

/-- A counter that saturates, raised. -/
theorem State.fld_addSat_same (hs : s.Sound) (h : lo ≤ hi) (hw : hi < 64) :
    (s.addSat off hi lo x).fld off hi lo = min (s.fld off hi lo + x) (2 ^ (hi + 1 - lo) - 1) := by
  rw [State.addSat, State.fld_setFld_same hs h hw, saturate, Nat.min_comm, Nat.mod_eq_of_lt]
  have := Nat.two_pow_pos (hi + 1 - lo)
  omega

/-- A counter that wraps, raised. -/
theorem State.fld_addWrap_same (hs : s.Sound) (h : lo ≤ hi) (hw : hi < 64) :
    (s.addWrap off hi lo x).fld off hi lo = (s.fld off hi lo + x) % 2 ^ (hi + 1 - lo) := State.fld_setFld_same hs h hw

theorem State.fld_addSat_other {p q : Nat} (h : o ≠ off) : (s.addSat off hi lo x).fld o p q = s.fld o p q :=
  State.fld_setFld_other h

theorem State.fld_addWrap_other {p q : Nat} (h : o ≠ off) : (s.addWrap off hi lo x).fld o p q = s.fld o p q :=
  State.fld_setFld_other h

/-! ### The weight registers of one array (Table 4.1) -/

/-- The weight registers read for an array are those of that array. -/
theorem State.arraySt_index : (s.arraySt i).index = i := by
  rw [State.arraySt]
  cases h : s.core.arrays.find? fun y => y.index = i with
  | none => rfl
  | some y => exact of_decide_eq_true (List.find?_some (p := fun y : ArraySt => decide (y.index = i)) h)

theorem State.arraySt_congr (h : t.core = s.core) : t.arraySt i = s.arraySt i := by rw [State.arraySt, h, State.arraySt]

theorem State.arraySt_setArraySt_same {y : ArraySt} (h : y.index = i) : (s.setArraySt y).arraySt i = y := by
  subst h
  have hnone : (s.core.arrays.filter fun z => z.index ≠ y.index).find? (fun z => z.index = y.index) = none :=
    List.find?_eq_none.2 fun z hz => by simpa using (List.mem_filter.1 hz).2
  rw [State.arraySt, State.setArraySt, List.find?_append, hnone, Option.none_or, List.find?_singleton,
    if_pos (decide_eq_true rfl), Option.getD_some]

theorem State.arraySt_setArraySt_other {y : ArraySt} (h : i ≠ y.index) : (s.setArraySt y).arraySt i = s.arraySt i := by
  have hfind : ((s.core.arrays.filter fun z => z.index ≠ y.index) ++ [y]).find? (fun z => z.index = i) =
      s.core.arrays.find? fun z => z.index = i := by
    rw [List.find?_append, List.find?_filter, List.find?_singleton, if_neg (by simpa using Ne.symm h), Option.or_none]
    congr 1
    funext z
    by_cases hz : z.index = i <;> simp [hz, h]
  rw [State.arraySt, State.setArraySt, hfind, State.arraySt]

/-- Registers of the device are apart from the weight registers. -/
theorem State.fld_setArraySt {y : ArraySt} {p q : Nat} : (s.setArraySt y).fld o p q = s.fld o p q := rfl

theorem State.Sound.setArraySt (hs : s.Sound) {y : ArraySt} : (s.setArraySt y).Sound :=
  (State.setArraySt_kept hs.kept).sound

theorem State.hasArray_of_inService (hc : core < 4096) (ha : a < 4) (hr : s.isRetired (core / 16) = false) :
    s.hasArray core a = true := by
  simp [State.hasArray, hc, ha, hr]

/-! ### SHADOW_LOAD (R99, R103) -/

theorem exec_shadowLoad (core a n k0 n0 : Nat) (behind : Option (Nat × Nat)) (s : State) :
    exec (.shadowLoad core a n k0 n0 behind) s = execShadowLoad core a n k0 n0 behind s := rfl

/-- An array with its weight registers put back, its shadow registers full, and its landing buffer full or not. -/
def State.shadowFilled (s : State) (core a : Nat) (y : ArraySt) (landed : Bool) : State :=
  ((s.setArraySt y).setFld (Reg.arrayState core a) 30 30 1).setFld (Reg.arrayState core a) 29 29 (ofBool landed)

/-- What the array holds then, and that the rest stays. -/
theorem State.shadowFilled_spec {y : ArraySt} {landed : Bool} (hs : s.Sound) (hy : y.index = 4 * core + a) :
    (s.shadowFilled core a y landed).arraySt (4 * core + a) = y ∧
    (s.shadowFilled core a y landed).fld (Reg.arrayState core a) 30 30 = 1 ∧
    (s.shadowFilled core a y landed).fld (Reg.arrayState core a) 29 29 = ofBool landed ∧
    (∀ i, i ≠ 4 * core + a → (s.shadowFilled core a y landed).arraySt i = s.arraySt i) ∧
    (s.shadowFilled core a y landed).mem = s.mem ∧ (s.shadowFilled core a y landed).tally = s.tally ∧
    (s.shadowFilled core a y landed).tens = s.tens := by
  have hcore : (s.shadowFilled core a y landed).core = (s.setArraySt y).core := by
    simp only [State.shadowFilled, State.setFld_fields]
  refine ⟨?cells, ?full, ?landing, fun i hi => ?others, ?_, ?_, ?_⟩
  case cells => exact (State.arraySt_congr hcore).trans (State.arraySt_setArraySt_same hy)
  case full =>
    rw [State.shadowFilled, State.fld_setFld_above hs.setArraySt.setFld (by decide) (by decide) (by decide),
      State.fld_setFld_same hs.setArraySt (by decide) (by decide)]
    rfl
  case landing =>
    rw [State.shadowFilled, State.fld_setFld_same hs.setArraySt.setFld (by decide) (by decide)]
    cases landed <;> rfl
  case others => exact (State.arraySt_congr hcore).trans (State.arraySt_setArraySt_other (hy ▸ hi))
  all_goals simp only [State.shadowFilled, State.setFld_fields, State.setArraySt]

/-- The weight registers of an array with a tile in its shadow registers, and in its landing buffer the tile behind it. -/
def State.withTile (s : State) (core a : Nat) (c : Cmd) (ta tb : Tensor) (turned : Bool) (k0 n0 : Nat)
    (behind : Option (Nat × Nat)) : ArraySt :=
  { s.arraySt (4 * core + a) with
    shadow := tileCells ta.fmt tb.fmt (s.tileCode c ta tb turned k0 n0)
    landing := (behind.map fun b => tileBytes ta.fmt tb.fmt turned (s.tileCode c ta tb turned b.1 b.2)).getD [] }

theorem State.withTile_index {behind : Option (Nat × Nat)} :
    (s.withTile core a c ta tb turned k0 n0 behind).index = 4 * core + a := by
  simp only [State.withTile, State.arraySt_index]

/-- With the shadow registers free, and the landing buffer free or holding this tile, the tile is loaded. -/
theorem exec_shadowLoad_of_free {behind : Option (Nat × Nat)} (harray : s.hasArray core a = true)
    (hload : s.loader n false = some (c, ta, tb, turned)) (hfree : s.fld (Reg.arrayState core a) 30 30 = 0)
    (hland : s.fld (Reg.arrayState core a) 29 29 = 0 ∨ (s.arraySt (4 * core + a)).landing =
      tileBytes ta.fmt tb.fmt turned (s.tileCode c ta tb turned k0 n0)) :
    exec (.shadowLoad core a n k0 n0 behind) s =
      .next (s.shadowFilled core a (s.withTile core a c ta tb turned k0 n0 behind) behind.isSome) := by
  rw [exec_shadowLoad, execShadowLoad, hload]
  simp only [harray, hfree, hland, and_self, if_true]
  rfl

/-! ### SWAP (R95, R98, R100, R101) -/

theorem exec_swap (core : Nat) (tiles : List Nat) (hazard waited : Nat) (s : State) :
    exec (.swap core tiles hazard waited) s = execSwap core tiles hazard waited s := rfl

/-- The wait for a late load counted in the arrays of a core, as stalls, and as link idle. -/
def State.lateLoad (s : State) (core waited : Nat) : State :=
  ((List.range 4).foldl (fun s b => s.addSat (Reg.arrayStalls core b) 31 0 waited) s).addWrap (Reg.idle core 2) 63 0 waited

/-- One array of a core swaps, after idle of its own and a wait of its core. -/
def State.idleSwap (s : State) (core a hazard waited : Nat) : State :=
  ((s.lateLoad core waited).addSat (Reg.arrayStalls core a) 63 32 (min 10 hazard)).swapArray core a

/-- One array named swaps once its shadow load is complete. -/
theorem exec_swap_one {hazard waited : Nat} (harray : s.hasArray core a = true)
    (hfull : s.fld (Reg.arrayState core a) 30 30 = 1) :
    exec (.swap core [a] hazard waited) s = .next (s.idleSwap core a hazard waited) := by
  rw [exec_swap, execSwap, if_pos (by simp [harray, hfull])]
  rfl

/-- A counter raised in each register of a list. -/
theorem State.fld_foldl_addSat {f : Nat → Nat} (hf : Function.Injective f) (h : lo ≤ hi) (hw : hi < 64) {b : Nat}
    (l : List Nat) (hl : l.Nodup) (hs : s.Sound) : (l.foldl (fun s j => s.addSat (f j) hi lo x) s).fld (f b) hi lo =
      if b ∈ l then min (s.fld (f b) hi lo + x) (2 ^ (hi + 1 - lo) - 1) else s.fld (f b) hi lo := by
  induction l generalizing s with
  | nil => rfl
  | cons j l ih =>
    obtain ⟨hj, hl⟩ := List.nodup_cons.1 hl
    rw [List.foldl_cons, ih hl hs.addSat]
    by_cases hb : b = j
    · subst hb
      rw [if_neg hj, if_pos List.mem_cons_self, State.fld_addSat_same hs h hw]
    · rw [State.fld_addSat_other (hf.ne hb)]
      simp only [List.mem_cons, hb, false_or]

theorem State.Sound.foldl_addSat {f : Nat → Nat} (hs : s.Sound) (l : List Nat) :
    (l.foldl (fun s j => s.addSat (f j) hi lo x) s).Sound := by
  induction l generalizing s with
  | nil => exact hs
  | cons j l ih => exact ih hs.addSat

/-- A field above the counters raised. -/
theorem State.fld_foldl_addSat_above {f : Nat → Nat} (h : lo ≤ hi) {p q : Nat} (hq : hi < q) (hw : hi < 64)
    (l : List Nat) (hs : s.Sound) : (l.foldl (fun s j => s.addSat (f j) hi lo x) s).fld o p q = s.fld o p q := by
  induction l generalizing s with
  | nil => rfl
  | cons j l ih =>
    rw [List.foldl_cons, ih hs.addSat]
    by_cases ho : o = f j
    · rw [ho, State.addSat, State.fld_setFld_above hs h hw hq]
    · exact State.fld_addSat_other ho

theorem State.fld_foldl_addSat_other {f : Nat → Nat} {p q : Nat} (l : List Nat) (ho : ∀ j ∈ l, o ≠ f j) :
    (l.foldl (fun s j => s.addSat (f j) hi lo x) s).fld o p q = s.fld o p q := by
  induction l generalizing s with
  | nil => rfl
  | cons j l ih =>
    obtain ⟨hj, hl⟩ := List.forall_mem_cons.1 ho
    rw [List.foldl_cons, ih hl, State.fld_addSat_other hj]

variable {hazard waited b : Nat}

theorem arrayStalls_injective : Function.Injective (Reg.arrayStalls core) := by
  intro x y h
  unfold Reg.arrayStalls at h
  omega

theorem State.Sound.lateLoad (hs : s.Sound) : (s.lateLoad core waited).Sound := (hs.foldl_addSat _).addWrap

/-- Every array of the core counts the wait for a late load. -/
theorem State.fld_lateLoad_stalls (hs : s.Sound) (hb : b < 4) : (s.lateLoad core waited).fld (Reg.arrayStalls core b) 31 0 =
    min (s.fld (Reg.arrayStalls core b) 31 0 + waited) (2 ^ 32 - 1) := by
  rw [State.lateLoad, State.fld_addWrap_other (by unfold Reg.arrayStalls Reg.idle; omega),
    State.fld_foldl_addSat arrayStalls_injective (by decide) (by decide) _ List.nodup_range hs, if_pos (List.mem_range.2 hb)]

/-- The other half of a stall register holds the idle before swaps. -/
theorem State.fld_lateLoad_hazards (hs : s.Sound) (hb : b < 4) : (s.lateLoad core waited).fld (Reg.arrayStalls core b) 63 32 =
    s.fld (Reg.arrayStalls core b) 63 32 := by
  rw [State.lateLoad, State.fld_addWrap_other (by unfold Reg.arrayStalls Reg.idle; omega),
    State.fld_foldl_addSat_above (by decide) (by decide) (by decide) _ hs]

theorem State.fld_lateLoad_count : (s.lateLoad core waited).fld (Reg.arrayCount core a) 63 32 =
    s.fld (Reg.arrayCount core a) 63 32 := by
  rw [State.lateLoad, State.fld_addWrap_other (by unfold Reg.arrayCount Reg.idle; omega), State.fld_foldl_addSat_other]
  intro j _
  unfold Reg.arrayCount Reg.arrayStalls
  omega

/-- Counting a late load changes nothing but registers. -/
theorem State.lateLoad_fields : (s.lateLoad core waited).core = s.core ∧ (s.lateLoad core waited).mem = s.mem ∧
    (s.lateLoad core waited).tally = s.tally ∧ (s.lateLoad core waited).tens = s.tens := by
  simp only [State.lateLoad, State.addWrap_fields]
  refine ⟨?_, ?_, ?_, ?_⟩
  · exact State.foldl_leaves State.core (fun _ _ => by simp only [State.addSat_fields]) _
  · exact State.foldl_leaves State.mem (fun _ _ => by simp only [State.addSat_fields]) _
  · exact State.foldl_leaves State.tally (fun _ _ => by simp only [State.addSat_fields]) _
  · exact State.foldl_leaves State.tens (fun _ _ => by simp only [State.addSat_fields]) _

/-- The part of one array in a swap: its registers, which are free afterwards, and its count. -/
theorem State.swapArray_spec (hs : s.Sound) :
    (s.swapArray core a).arraySt (4 * core + a) = { s.arraySt (4 * core + a) with active := (s.arraySt (4 * core + a)).shadow } ∧
    (s.swapArray core a).fld (Reg.arrayState core a) 30 30 = 0 ∧
    (s.swapArray core a).fld (Reg.arrayCount core a) 63 32 = (s.fld (Reg.arrayCount core a) 63 32 + 1) % 2 ^ 32 ∧
    (∀ i, i ≠ 4 * core + a → (s.swapArray core a).arraySt i = s.arraySt i) ∧
    (∀ o p q, o ≠ Reg.arrayState core a → o ≠ Reg.arrayCount core a → (s.swapArray core a).fld o p q = s.fld o p q) := by
  have hcore : (s.swapArray core a).core = (s.setArraySt { s.arraySt (4 * core + a) with
      active := (s.arraySt (4 * core + a)).shadow }).core := by simp only [State.swapArray, State.addWrap_fields, State.setFld_fields]
  have hne : Reg.arrayState core a ≠ Reg.arrayCount core a := by unfold Reg.arrayState Reg.arrayCount; omega
  refine ⟨?active, ?free, ?count, fun i hi => ?_, fun o p q hstate hcount => ?_⟩
  case active =>
    exact (State.arraySt_congr hcore).trans (State.arraySt_setArraySt_same State.arraySt_index)
  case free =>
    rw [State.swapArray, State.fld_addWrap_other hne, State.fld_setFld_same hs.setArraySt (by decide) (by decide), Nat.zero_mod]
  case count =>
    rw [State.swapArray, State.fld_addWrap_same hs.setArraySt.setFld (by decide) (by decide), State.fld_setFld_other hne.symm,
      State.fld_setArraySt]
  · rw [State.arraySt_congr hcore, State.arraySt_setArraySt_other (by rwa [State.arraySt_index])]
  · rw [State.swapArray, State.fld_addWrap_other hcount, State.fld_setFld_other hstate, State.fld_setArraySt]

theorem State.swapArray_fields : (s.swapArray core a).mem = s.mem ∧ (s.swapArray core a).tally = s.tally ∧
    (s.swapArray core a).tens = s.tens := by
  simp only [State.swapArray, State.addWrap_fields, State.setFld_fields, State.setArraySt, and_self]

/-- An array's part in a swap leaves every stall register. -/
theorem State.fld_swapArray_stalls {p q : Nat} (hs : s.Sound) :
    (s.swapArray core a).fld (Reg.arrayStalls core b) p q = s.fld (Reg.arrayStalls core b) p q := by
  obtain ⟨-, -, -, -, hfld⟩ := State.swapArray_spec (core := core) (a := a) hs
  exact hfld _ _ _ (by unfold Reg.arrayStalls Reg.arrayState; omega) (by unfold Reg.arrayStalls Reg.arrayCount; omega)

/-- One array swaps, with the wait of its core and its own idle counted. -/
theorem State.idleSwap_spec (hs : s.Sound) (ha : a < 4) (ht : t = s.idleSwap core a hazard waited) :
    t.arraySt (4 * core + a) = { s.arraySt (4 * core + a) with active := (s.arraySt (4 * core + a)).shadow } ∧
    t.fld (Reg.arrayState core a) 30 30 = 0 ∧
    t.fld (Reg.arrayCount core a) 63 32 = (s.fld (Reg.arrayCount core a) 63 32 + 1) % 2 ^ 32 ∧
    (∀ b < 4, t.fld (Reg.arrayStalls core b) 31 0 = min (s.fld (Reg.arrayStalls core b) 31 0 + waited) (2 ^ 32 - 1)) ∧
    t.fld (Reg.arrayStalls core a) 63 32 = min (s.fld (Reg.arrayStalls core a) 63 32 + min 10 hazard) (2 ^ 32 - 1) ∧
    (∀ i, i ≠ 4 * core + a → t.arraySt i = s.arraySt i) ∧ t.mem = s.mem ∧ t.tally = s.tally ∧ t.tens = s.tens := by
  have hlate : (s.lateLoad core waited).Sound := hs.lateLoad
  obtain ⟨v, hv⟩ : ∃ v, v = (s.lateLoad core waited).addSat (Reg.arrayStalls core a) 63 32 (min 10 hazard) := ⟨_, rfl⟩
  have hsound : v.Sound := hv ▸ hlate.addSat
  have hfields : v.core = s.core ∧ v.mem = s.mem ∧ v.tally = s.tally ∧ v.tens = s.tens := by
    simpa only [hv, State.addSat_fields] using State.lateLoad_fields
  obtain ⟨hcore, hmem, htally, htens⟩ := hfields
  rw [State.idleSwap, ← hv] at ht
  subst ht
  obtain ⟨hactive, hstate, hcount, hother, -⟩ := State.swapArray_spec (core := core) (a := a) hsound
  obtain ⟨hmem', htally', htens'⟩ := State.swapArray_fields (core := core) (a := a) (s := v)
  refine ⟨?active, hstate, ?count, fun b hb => ?stalls, ?idle, fun i hi => ?others, hmem'.trans hmem, htally'.trans htally,
    htens'.trans htens⟩
  case active => rw [hactive, State.arraySt_congr hcore]
  case others => rw [hother i hi, State.arraySt_congr hcore]
  case count =>
    rw [hcount, hv, State.fld_addSat_other (by unfold Reg.arrayCount Reg.arrayStalls; omega), State.fld_lateLoad_count]
  case stalls =>
    rw [State.fld_swapArray_stalls hsound, hv, ← State.fld_lateLoad_stalls hs hb]
    by_cases hab : b = a
    · rw [hab, State.addSat, State.fld_setFld_below hlate (by decide) (by decide) (by decide) (by decide)]
    · exact State.fld_addSat_other (arrayStalls_injective.ne hab)
  case idle =>
    rw [State.fld_swapArray_stalls hsound, hv, State.fld_addSat_same hlate (by decide) (by decide),
      State.fld_lateLoad_hazards hs ha]

/-! ### RIPPLE_FRONT (R105, R106) -/

theorem exec_rippleFront (core a n k0 n0 : Nat) (landed : Bool) (s : State) :
    exec (.rippleFront core a n k0 n0 landed) s = execRippleFront core a n k0 n0 landed s := rfl

@[simp] theorem tileCells_length {fa fb : Nat} {code : Nat → Nat → Nat} : (tileCells fa fb code).length = 1024 := by
  simp only [tileCells, List.length_map, List.length_range]

/-- Cell row `f` of some cells replaced by that row of a tile. -/
def withCellRow (f : Nat) (tile cells : List (BitVec 16)) : List (BitVec 16) :=
  cells.take (32 * f) ++ (tile.drop (32 * f)).take 32 ++ cells.drop (32 * f + 32)

/-- Within the row a cell is the tile's, outside it the old one. -/
theorem withCellRow_getD {f k : Nat} {tile cells : List (BitVec 16)} (htile : tile.length = 1024) (hcells : cells.length = 1024)
    (hf : f < 32) : (withCellRow f tile cells).getD k 0 = if k / 32 = f then tile.getD k 0 else cells.getD k 0 := by
  have hfront : (cells.take (32 * f)).length = 32 * f := by rw [List.length_take]; omega
  have hrow : ((tile.drop (32 * f)).take 32).length = 32 := by rw [List.length_take, List.length_drop]; omega
  simp only [List.getD_eq_getElem?_getD, withCellRow]
  rw [List.append_assoc]
  rcases Nat.lt_or_ge k (32 * f) with hk | hk
  · rw [List.getElem?_append_left (by omega), List.getElem?_take_of_lt hk, if_neg (by omega)]
  rw [List.getElem?_append_right (by omega), hfront]
  rcases Nat.lt_or_ge k (32 * f + 32) with hk' | hk'
  · rw [List.getElem?_append_left (by omega), List.getElem?_take_of_lt (by omega), List.getElem?_drop, if_pos (by omega),
      Nat.add_sub_cancel' hk]
  · rw [List.getElem?_append_right (by omega), hrow, List.getElem?_drop, if_neg (by omega)]
    congr 2
    omega

/-- An array after the front has written one cell row of a tile. -/
def State.frontMoved (s : State) (core a : Nat) (c : Cmd) (ta tb : Tensor) (turned : Bool) (k0 n0 : Nat) : State :=
  let x := s.arraySt (4 * core + a)
  s.setArraySt { x with
    active := withCellRow x.front (tileCells ta.fmt tb.fmt (s.tileCode c ta tb turned k0 n0)) x.active
    front := (x.front + 1) % 32 }

/-- The front of a tile moved on by a row, and the swap counted when that was the last. -/
def State.frontStep (s : State) (core a : Nat) (c : Cmd) (ta tb : Tensor) (turned : Bool) (k0 n0 : Nat) : State :=
  if (s.arraySt (4 * core + a)).front = 31
  then (s.frontMoved core a c ta tb turned k0 n0).addWrap (Reg.arrayCount core a) 63 32 1
  else s.frontMoved core a c ta tb turned k0 n0

/-- With its row of weights landed the front writes the row, and the last row counts a swap. -/
theorem exec_rippleFront_landed (harray : s.hasArray core a = true) (hload : s.loader n true = some (c, ta, tb, turned)) :
    exec (.rippleFront core a n k0 n0 true) s = .next (s.frontStep core a c ta tb turned k0 n0) := by
  rw [exec_rippleFront, execRippleFront, hload]
  simp only [harray, Bool.not_true, Bool.false_eq_true, if_false]
  rfl

/-- Counting the swap changes nothing but registers. -/
theorem State.frontStep_fields (ht : t = s.frontStep core a c ta tb turned k0 n0) :
    t.core = (s.frontMoved core a c ta tb turned k0 n0).core ∧ t.mem = s.mem ∧ t.tally = s.tally ∧ t.tens = s.tens := by
  rw [State.frontStep] at ht
  split at ht <;> simp only [ht, State.addWrap_fields, State.frontMoved, State.setArraySt, and_self]

theorem State.arraySt_frontStep_same (ht : t = s.frontStep core a c ta tb turned k0 n0) :
    t.arraySt (4 * core + a) = { s.arraySt (4 * core + a) with
      active := withCellRow (s.arraySt (4 * core + a)).front (tileCells ta.fmt tb.fmt (s.tileCode c ta tb turned k0 n0))
        (s.arraySt (4 * core + a)).active
      front := ((s.arraySt (4 * core + a)).front + 1) % 32 } := by
  obtain ⟨hcore, -⟩ := State.frontStep_fields ht
  rw [State.arraySt_congr hcore, State.frontMoved, State.arraySt_setArraySt_same]
  simp only [State.arraySt_index]

theorem State.arraySt_frontStep_other (ht : t = s.frontStep core a c ta tb turned k0 n0) (hi : i ≠ 4 * core + a) :
    t.arraySt i = s.arraySt i := by
  obtain ⟨hcore, -⟩ := State.frontStep_fields ht
  rw [State.arraySt_congr hcore, State.frontMoved, State.arraySt_setArraySt_other]
  simpa only [State.arraySt_index] using hi

/-- A swap is counted with the last row. -/
theorem State.fld_frontStep_count (hs : s.Sound) : (s.frontStep core a c ta tb turned k0 n0).fld (Reg.arrayCount core a) 63 32 =
    (s.fld (Reg.arrayCount core a) 63 32 + if (s.arraySt (4 * core + a)).front = 31 then 1 else 0) % 2 ^ 32 := by
  rw [State.frontStep]
  split
  · rw [State.frontMoved, State.fld_addWrap_same hs.setArraySt (by decide) (by decide), State.fld_setArraySt]
  · rw [State.frontMoved, State.fld_setArraySt, Nat.add_zero, State.fld, Nat.mod_eq_of_lt bits_lt]

/-- Without it the front halts. -/
theorem exec_rippleFront_halted (harray : s.hasArray core a = true) (hload : s.loader n true = some (c, ta, tb, turned)) :
    exec (.rippleFront core a n k0 n0 false) s = .next (s.addSat (Reg.arrayStalls core a) 31 0 1) := by
  rw [exec_rippleFront, execRippleFront, hload]
  simp only [harray, Bool.not_true, Bool.not_false, Bool.false_eq_true, if_false, if_true]

/-! ### The three events -/

/-- Settles O33: each event is written out as updates of the registers of one array and of its counters, with the cap of 10
idle ACLK of R98; the operands give the stalls (log 27). -/
theorem weightsMoveThroughTheArrays : Obligations.WeightsMoveThroughTheArrays := by
  unfold Obligations.WeightsMoveThroughTheArrays
  intro s core a n k0 n0 c x y turned hs hcore ha hretired
  have harray : s.hasArray core a = true := State.hasArray_of_inService hcore ha hretired
  refine ⟨?load, ?swap, ?front, ?halt⟩
  case load =>
    intro behind hload hfree hland
    obtain ⟨hcells, hrest⟩ := State.shadowFilled_spec (landed := behind.isSome) hs
      (State.withTile_index (c := c) (ta := x) (tb := y) (turned := turned) (k0 := k0) (n0 := n0) (behind := behind))
    refine ⟨_, exec_shadowLoad_of_free harray hload hfree hland, hcells.trans ?_, hrest⟩
    cases behind <;> rfl
  case swap =>
    intro hazard waited hfull
    exact ⟨_, exec_swap_one harray hfull, State.idleSwap_spec hs ha rfl⟩
  case front =>
    intro hload hlength hfront
    obtain ⟨t, ht⟩ : ∃ t, t = s.frontStep core a c x y turned k0 n0 := ⟨_, rfl⟩
    obtain ⟨-, hmem, htally, htens⟩ := State.frontStep_fields ht
    have hcells := State.arraySt_frontStep_same ht
    refine ⟨t, by rw [exec_rippleFront_landed harray hload, ht], by rw [hcells], by rw [hcells], fun k _ => ?_,
      fun i hi => State.arraySt_frontStep_other ht hi, hmem, htally, htens, ht ▸ State.fld_frontStep_count hs⟩
    rw [hcells]
    exact withCellRow_getD tileCells_length hlength hfront
  case halt =>
    intro hload
    exact ⟨_, exec_rippleFront_halted harray hload, State.fld_addSat_same hs (by decide) (by decide), rfl⟩

end Sys2Proof.Machine
end

section
/-! SUPPORT and PROOF. The vector registers of the engines, and what one instruction does to the register of its VD (05 R119,
R121, R124): what draws and flags leave, what a lane holds after a write, and the step of each operation. -/

namespace Sys2Proof.Machine

variable {s t u : State} {core lane d i k r g n m w : Nat} {f : Nat → Nat} {x : State × Flags}

/-! ### What flags, draws and stores leave -/

theorem State.raiseFlag_core {places : List Nat} : (s.raiseFlag places i).core = s.core :=
  State.foldl_leaves State.core (fun _ _ => by split <;> rfl) _

/-- Raising flags changes no engine. -/
theorem State.raiseIn_core {places : List Nat} {fl : Flags} {vector : Bool} : (s.raiseIn places fl vector).core = s.core := by
  unfold State.raiseIn
  extract_lets t
  have ht : t.core = s.core :=
    State.foldl_leaves State.core (fun _ _ => by split; exacts [rfl, State.raiseFlag_core]) _
  split
  · simp only [State.proofEvent_fields, ht]
  · exact ht

/-- The vector registers and the tensors, which drawing random numbers leaves as they are. -/
def State.vregsTens (s : State) : List (Nat × BitVec 32) × List Tensor := (s.core.vregs, s.tens)

theorem State.setGens_vregsTens {gens : List (Nat × BitVec 128)} :
    State.vregsTens { s with core := { s.core with gens := gens } } = s.vregsTens := rfl

theorem State.draw_vregsTens : (s.draw core lane).2.vregsTens = s.vregsTens := by
  have hcount : ∀ (v : State) (l : List Nat),
      (l.foldl (fun t p => t.addWrap (Reg.genDraws p) 63 0 1) v).vregsTens = v.vregsTens :=
    fun v => State.foldl_leaves State.vregsTens (fun _ _ => by rfl)
  unfold State.draw
  split
  · rw [hcount, State.setGens_vregsTens]
  · exact State.setGens_vregsTens

theorem State.drawLanes_vregsTens {ls : List Nat} : (State.drawLanes core ls s).2.vregsTens = s.vregsTens := by
  induction ls generalizing s with
  | nil => rfl
  | cons l ls ih => exact ih.trans State.draw_vregsTens

theorem State.drawLanes_vregs {ls : List Nat} : (State.drawLanes core ls s).2.core.vregs = s.core.vregs :=
  congrArg Prod.fst State.drawLanes_vregsTens

theorem State.drawLanes_tens {ls : List Nat} : (State.drawLanes core ls s).2.tens = s.tens :=
  congrArg Prod.snd State.drawLanes_vregsTens

theorem State.drawLanes_length {ls : List Nat} : (State.drawLanes core ls s).1.length = ls.length := by
  induction ls generalizing s with
  | nil => rfl
  | cons l ls ih => exact congrArg (· + 1) ih

theorem State.rounding_vregsTens {sr : Bool} : (s.rounding sr k n).2.vregsTens = s.vregsTens := by
  unfold State.rounding
  split
  exacts [State.draw_vregsTens, rfl]

theorem State.roundings_vregsTens {sr : Bool} {ns : List Nat} : (State.roundings sr k ns s).2.vregsTens = s.vregsTens := by
  induction ns generalizing s with
  | nil => rfl
  | cons n ns ih => exact ih.trans State.rounding_vregsTens

theorem State.convertOut_vregsTens {sr : Bool} {v : Val} : (s.convertOut sr m k n v).2.vregsTens = s.vregsTens := by
  unfold State.convertOut
  split
  exacts [rfl, State.rounding_vregsTens]

theorem State.rowOut_vregsTens {sr : Bool} {o : Tensor} {l : List (Nat × Val)} {a : State × List Write × Flags} :
    (State.rowOut sr o r k l a).1.vregsTens = a.1.vregsTens := by
  induction l generalizing a with
  | nil => rfl
  | cons p l ih => exact ih.trans State.convertOut_vregsTens

theorem State.rowScaled_vregsTens {sr : Bool} {o : Tensor} {l : List (List (Nat × Val))} {a : State × List Write × Flags} :
    (State.rowScaled sr o r k l a).1.vregsTens = a.1.vregsTens := by
  induction l generalizing a with
  | nil => rfl
  | cons b l ih => exact ih.trans State.roundings_vregsTens

/-- Converting a row draws, and leaves vector registers and tensors. -/
theorem State.outputRow_vregsTens {sr : Bool} {o : Tensor} {l : List (Nat × Val)} {a : State × List Write × Flags} :
    (State.outputRow sr o r k l a).1.vregsTens = a.1.vregsTens := by
  unfold State.outputRow
  split
  exacts [State.rowScaled_vregsTens, State.rowOut_vregsTens]

theorem State.write_core {y : Write} : (s.write y).core = s.core := by
  unfold State.write State.writeScales
  repeat' split
  all_goals rfl

theorem State.writeAll_core {l : List Write} : (s.writeAll l).core = s.core :=
  State.foldl_leaves State.core (fun _ _ => State.write_core) l

/-- A store changes no vector register. -/
theorem State.stLanes_vregs {slot : Nat} {sr : Bool} {l : List Nat} {fl : Flags} :
    (s.stLanes slot k g sr l fl).1.core.vregs = s.core.vregs := by
  unfold State.stLanes
  split
  · rfl
  · dsimp only
    split
    · exact congrArg CoreSt.vregs (State.foldl_leaves State.core (fun _ _ => State.write_core) _)
    · exact (congrArg CoreSt.vregs State.writeAll_core).trans (congrArg Prod.fst State.outputRow_vregsTens)

/-! ### Lanes (R119) -/

/-- Consecutive keys, one of them. -/
theorem Sparse.getD_getMany {α : Type} {dflt : Nat → α} {z : α} {l : List (Nat × α)} (h : i < n) :
    (Sparse.getMany dflt l k n).getD i z = Sparse.get dflt l (k + i) := by
  induction n generalizing k i with
  | zero => exact absurd h (Nat.not_lt_zero i)
  | succ n ih =>
    cases i with
    | zero => rfl
    | succ i => rw [Sparse.getMany, List.getD_cons_succ, ih (Nat.lt_of_succ_lt_succ h), Nat.add_right_comm, Nat.add_assoc]

/-- A lane of a vector register, where it is kept. -/
theorem State.vreg_lane (h : i < 64) : (s.vreg k r).getD i 0 =
    (Sparse.get (fun _ => (0 : BitVec 32)) s.core.vregs (2048 * k + 64 * r + i)).toNat := by
  rw [State.vreg, ← Sparse.getD_getMany (z := 0) h]
  exact List.getD_map _ 0 BitVec.toNat

theorem State.vreg_lane_lt (h : i < 64) : (s.vreg k r).getD i 0 < 2 ^ 32 := by
  rw [State.vreg_lane h]
  exact BitVec.isLt _

theorem State.vreg_congr (h : t.core.vregs = s.core.vregs) : t.vreg k r = s.vreg k r := by rw [State.vreg, h, State.vreg]

theorem State.setVreg_tens {l : List Nat} : (s.setVreg core d l).tens = s.tens := rfl

/-- An item of a list with a function applied to each. -/
theorem getD_map_of_lt {α β : Type} {h : α → β} {z : β} {z' : α} {l : List α} (hi : i < l.length) :
    (l.map h).getD i z = h (l.getD i z') := by
  rw [List.getD_eq_getElem _ _ (by simpa using hi), List.getD_eq_getElem _ _ hi, List.getElem_map]

/-- Item `i` of a list given by position. -/
theorem getD_map_range {α : Type} {h : Nat → α} {z : α} (hi : i < n) : ((List.range n).map h).getD i z = h i := by
  rw [List.getD_eq_getElem _ _ (by simpa using hi), List.getElem_map, List.getElem_range]

/-- After `u` register `d` of a core holds the lanes `f`, in 32 bits, and every other register of every core what it held. -/
def State.VregSet (s u : State) (core d : Nat) (f : Nat → Nat) : Prop :=
  ∀ k r i, r < 32 → i < 64 →
    (u.vreg k r).getD i 0 = if k = core ∧ r = d then f i % 2 ^ 32 else (s.vreg k r).getD i 0

/-- Setting a register, after what leaves all of them. -/
theorem State.vregSet_setVreg {l : List Nat} (ht : t.Sound) (hv : t.core.vregs = s.core.vregs) (hd : d < 32)
    (hl : l.length = 64) (hf : ∀ i < 64, l.getD i 0 = f i) : s.VregSet (t.setVreg core d l) core d f := by
  intro k r i hr hi
  have hwhere : 2048 * core + 64 * d ≤ 2048 * k + 64 * r + i ∧ 2048 * k + 64 * r + i < 2048 * core + 64 * d + 64 ↔
      k = core ∧ r = d := by omega
  rw [State.vreg_lane hi, State.setVreg, Sparse.get_setMany ht.vregs, List.length_map, hl, if_congr hwhere rfl rfl]
  split
  case isTrue h =>
    obtain ⟨rfl, rfl⟩ := h
    rw [Nat.add_sub_cancel_left, ← hf i hi]
    simp [List.getD, hl, hi]
  case isFalse => rw [hv, State.vreg_lane hi]

/-- What leaves every register leaves register `d` with the lanes it holds. -/
theorem State.vregSet_of_kept (h : u.core.vregs = s.core.vregs) : s.VregSet u core d fun i => (s.vreg core d).getD i 0 := by
  intro k r i _ hi
  rw [State.vreg_congr h]
  split
  case isTrue hkr =>
    obtain ⟨rfl, rfl⟩ := hkr
    rw [Nat.mod_eq_of_lt (State.vreg_lane_lt hi)]
  case isFalse => rfl

/-! ### The value of a lane operation does not depend on the flags raised before (R121) -/

theorem vadd_value {a b : Val} {fl : Flags} : (vadd a b fl).1 = (vadd a b Flags.none).1 := by
  cases a <;> cases b <;> simp only [vadd, roundF]
  split <;> rfl

theorem vmul_value {a b : Val} {fl : Flags} : (vmul a b fl).1 = (vmul a b Flags.none).1 := by
  unfold vmul
  split <;> rfl

theorem vfma_value {a b c : Val} {fl : Flags} : (vfma a b c fl).1 = (vfma a b c Flags.none).1 := by
  unfold vfma
  split
  · rw [vadd_value, vadd_value (fl := Flags.none.or _)]
  · cases c <;> rfl

theorem vmin_value {a b : Val} {fl : Flags} : (vmin a b fl).1 = (vmin a b Flags.none).1 := by
  unfold vmin
  repeat' split
  all_goals rfl

theorem vmax_value {a b : Val} {fl : Flags} : (vmax a b fl).1 = (vmax a b Flags.none).1 := by
  unfold vmax
  repeat' split
  all_goals rfl

theorem laneOp_value {sd : Seeds} {op fn a b c : Nat} {fl : Flags} :
    (laneOp sd op fn a b c fl).1 = (laneOp sd op fn a b c Flags.none).1 := by
  unfold laneOp
  dsimp only
  split
  · exact congrArg fp32.encode vadd_value
  · exact congrArg fp32.encode vadd_value
  · exact congrArg fp32.encode vmul_value
  · exact congrArg fp32.encode vfma_value
  · exact congrArg fp32.encode vmin_value
  · exact congrArg fp32.encode vmax_value
  all_goals rfl

/-- A fold whose steps append one item each collects the items. -/
theorem foldl_collects {α β ι : Type} {step : List α × β → ι → List α × β} {item : ι → α}
    (h : ∀ a y, (step a y).1 = a.1 ++ [item y]) (ys : List ι) (a : List α × β) :
    (ys.foldl step a).1 = a.1 ++ ys.map item := by
  induction ys generalizing a with
  | nil => simp
  | cons y ys ih => rw [List.foldl_cons, ih, h, List.append_assoc, List.singleton_append, List.map_cons]

/-! ### The step of each operation (R124) -/

theorem State.vstep_ld (h : vecOp w = 0x01) : (State.vstep core k g w x).1 =
    x.1.setVreg core (bits w 55 51) (x.1.ldLanes (bits w 35 33) k g) := by simp [State.vstep, h]

theorem State.vstep_st (h : vecOp w = 0x02) : ∃ fl, (State.vstep core k g w x).1 =
    (x.1.stLanes (bits w 35 33) k g (decide (bit w 32 = 1)) (x.1.vreg core (bits w 50 46)) fl).1 := by
  simp only [State.vstep, h]
  exact ⟨_, rfl⟩

theorem State.vstep_ldi (h : vecOp w = 0x03) : (State.vstep core k g w x).1 =
    x.1.setVreg core (bits w 55 51) (List.replicate 64 (bits w 31 0)) := by simp [State.vstep, h]

theorem State.vstep_rand (h : vecOp w = 0x30) : (State.vstep core k g w x).1 =
    (State.drawLanes core (List.range 64) x.1).2.setVreg core (bits w 55 51)
      (State.drawLanes core (List.range 64) x.1).1 := by simp [State.vstep, h]

/-- A draw as a fraction of 2^24, in FP32 (R140). -/
def drawFraction (z : Nat) : Nat := fp32.encode (Val.ofReal (mkRat (z / 256 : Nat) (2 ^ 24)))

theorem State.vstep_randu (h : vecOp w = 0x31) : (State.vstep core k g w x).1 =
    (State.drawLanes core (List.range 64) x.1).2.setVreg core (bits w 55 51)
      ((State.drawLanes core (List.range 64) x.1).1.map drawFraction) := by
  simp only [State.vstep, h]
  rfl

theorem State.vstep_nop (h : vecOp w = 0x3F) : State.vstep core k g w x = x := by simp [State.vstep, h]

/-- The opcodes from ADD to SFU apply the lane operation to each lane. -/
theorem State.vstep_lanes (h : 0x10 ≤ vecOp w ∧ vecOp w < 0x30) : (State.vstep core k g w x).1 =
    x.1.setVreg core (bits w 55 51) ((List.range 64).map fun l =>
      (laneOp (x.1.seeds ((x.1.core.vjob.map (·.bank)).getD 0)) (vecOp w) (bits w 3 0)
        ((x.1.vreg core (bits w 50 46)).getD l 0) ((x.1.vreg core (bits w 45 41)).getD l 0)
        ((x.1.vreg core (bits w 40 36)).getD l 0) Flags.none).1) := by
  have hop : vecOp w ≠ 0x01 ∧ vecOp w ≠ 0x02 ∧ vecOp w ≠ 0x03 ∧ vecOp w ≠ 0x30 ∧ vecOp w ≠ 0x31 ∧ vecOp w ≠ 0x3F := by omega
  simp only [State.vstep, hop, if_false]
  refine congrArg (State.setVreg _ _ _) ((foldl_collects (fun a l => ?_) _ _).trans (List.nil_append _))
  exact congrArg (a.1 ++ [·]) laneOp_value

theorem State.ldLanes_length {slot : Nat} : (s.ldLanes slot k g).length = 64 := by
  unfold State.ldLanes
  split <;> simp

/-! ### The rows of the vector instructions (log 12) -/

/-- The operations on lanes, with their opcodes. -/
def laneRows (core k g : Nat) (w : Word64) : List (Nat × Instr) :=
  [(0x10, .add core k g w), (0x11, .sub core k g w), (0x12, .mul core k g w), (0x13, .fma core k g w),
    (0x14, .min core k g w), (0x15, .max core k g w), (0x16, .abs core k g w), (0x17, .neg core k g w),
    (0x18, .cmplt core k g w), (0x19, .sel core k g w), (0x20, .sfu core k g w)]

/-- The other vector instructions, with their opcodes. -/
def plainRows (core k g : Nat) (w : Word64) : List (Nat × Instr) :=
  [(0x01, .ld core k g w), (0x02, .st core k g w), (0x03, .ldi core k g w), (0x30, .rand core k g w),
    (0x31, .randu core k g w), (0x3F, .vectorNop core k g w)]

theorem laneRows_opcode {w : Word64} : ∀ p ∈ laneRows core k g w, 0x10 ≤ p.1 ∧ p.1 < 0x30 := by simp [laneRows]

/-- Each row runs its instruction under its opcode. -/
theorem exec_vectorRow {w : Word64} : ∀ p ∈ laneRows core k g w ++ plainRows core k g w,
    exec p.2 s = .next (s.vectorRow p.1 core k g w) := by
  simp only [laneRows, plainRows, List.cons_append, List.nil_append, List.forall_mem_cons, List.not_mem_nil, false_imp_iff,
    implies_true, and_true]
  exact ⟨rfl, rfl, rfl, rfl, rfl, rfl, rfl, rfl, rfl, rfl, rfl, rfl, rfl, rfl, rfl, rfl, rfl⟩

/-- A row of an admitted word, in an engine with a program begun, is a step and the flags it raises. -/
theorem State.vectorRow_of_begun {w : Word64} (hj : s.core.vjob.isSome = true) (hc : core < 4096)
    (hok : vecOk w.toNat = true) : ∃ fl, s.vectorRow (vecOp w.toNat) core k g w =
      (State.vstep core k g w.toNat (s, Flags.none)).1.raiseAt (s.coresOf core) fl true :=
  ⟨_, if_pos ⟨hj, rfl, hok, hc⟩⟩

/-- Such a row runs as its step does, but for registers of flags. -/
theorem exec_vectorRow_of_begun {w : Word64} {p : Nat × Instr} (hp : p ∈ laneRows core k g w ++ plainRows core k g w)
    (hj : s.core.vjob.isSome = true) (hc : core < 4096) (hok : vecOk w.toNat = true) (hop : vecOp w.toNat = p.1) :
    ∃ u, exec p.2 s = .next u ∧ u.core = (State.vstep core k g w.toNat (s, Flags.none)).1.core ∧
      u.tens = (State.vstep core k g w.toNat (s, Flags.none)).1.tens := by
  obtain ⟨fl, hrow⟩ := State.vectorRow_of_begun (k := k) (g := g) hj hc hok
  exact ⟨_, exec_vectorRow p hp, by rw [← hop, hrow]; exact ⟨State.raiseIn_core, State.raiseIn_tens⟩⟩

theorem State.VregSet.of_core {v : State} (h : s.VregSet u core d f) (hv : v.core = u.core) : s.VregSet v core d f :=
  fun k r i hr hi => (congrArg (List.getD · i 0) (State.vreg_congr (congrArg CoreSt.vregs hv))).trans (h k r i hr hi)

/-- Settles O35: the row is the instruction's step, which sets VD alone, or (VECTOR_NOP, ST) no register; flags, draws and
stores leave the registers. -/
theorem vectorInstructionsWriteTheirRegister : Obligations.VectorInstructionsWriteTheirRegister := by
  unfold Obligations.VectorInstructionsWriteTheirRegister
  intro s core k g w b hs hb hc hok op i f hop h
  have hj : s.core.vjob.isSome = true := by
    cases hv : s.core.vjob <;> simp [hv] at hb ⊢
  have hd : bits w.toNat 55 51 < 32 := bits_lt
  have hrow : (op, i) ∈ laneRows core k g w ++ plainRows core k g w := by
    obtain ⟨h, -⟩ | ⟨h, -⟩ | ⟨h, -⟩ | ⟨h, -⟩ | ⟨h, -⟩ | ⟨h, -⟩ | ⟨h, -⟩ := h
    · exact List.mem_append_left _ h
    all_goals exact List.mem_append_right _ (by simp [h, plainRows])
  have hstep : s.VregSet (State.vstep core k g w.toNat (s, Flags.none)).1 core (bits w.toNat 55 51) f ∧
      (op ≠ 0x02 → (State.vstep core k g w.toNat (s, Flags.none)).1.tens = s.tens) := by
    have hsound := (State.drawLanes_kept (core := core) (a1 := List.range 64) hs.kept).sound
    have hlength := State.drawLanes_length (core := core) (ls := List.range 64) (s := s)
    rw [List.length_range] at hlength
    obtain ⟨hmem, rfl⟩ | ⟨h, rfl⟩ | ⟨h, rfl⟩ | ⟨h, rfl⟩ | ⟨h, rfl⟩ | ⟨h, rfl⟩ | ⟨h, rfl⟩ := h
    · rw [State.vstep_lanes (hop ▸ laneRows_opcode _ hmem), hb, hop]
      exact ⟨State.vregSet_setVreg hs rfl hd ((List.length_map _).trans List.length_range) fun _ hl => getD_map_range hl,
        fun _ => State.setVreg_tens⟩
    all_goals obtain ⟨rfl, -⟩ := Prod.mk.inj h
    · rw [State.vstep_ld hop]
      exact ⟨State.vregSet_setVreg hs rfl hd State.ldLanes_length fun _ _ => rfl, fun _ => State.setVreg_tens⟩
    · rw [State.vstep_ldi hop]
      exact ⟨State.vregSet_setVreg hs rfl hd List.length_replicate fun _ hl => List.getD_replicate _ hl,
        fun _ => State.setVreg_tens⟩
    · rw [State.vstep_rand hop]
      exact ⟨State.vregSet_setVreg hsound State.drawLanes_vregs hd hlength fun _ _ => rfl,
        fun _ => State.setVreg_tens.trans State.drawLanes_tens⟩
    · rw [State.vstep_randu hop]
      exact ⟨State.vregSet_setVreg hsound State.drawLanes_vregs hd ((List.length_map _).trans hlength)
        fun _ hl => getD_map_of_lt (hl.trans_eq hlength.symm), fun _ => State.setVreg_tens.trans State.drawLanes_tens⟩
    · rw [State.vstep_nop hop]
      exact ⟨State.vregSet_of_kept rfl, fun _ => rfl⟩
    · obtain ⟨fl, hst⟩ := State.vstep_st (core := core) (k := k) (g := g) (x := (s, Flags.none)) hop
      rw [hst]
      exact ⟨State.vregSet_of_kept State.stLanes_vregs, fun hne => absurd rfl hne⟩
  obtain ⟨hset, htens⟩ := hstep
  obtain ⟨u, hexec, hcore, hu⟩ := exec_vectorRow_of_begun hrow hj hc hok hop
  exact ⟨u, hexec, hset.of_core hcore, fun hne => hu.trans (htens hne)⟩

end Sys2Proof.Machine
end

section
/-! SUPPORT and PROOF. A store of a vector register into an FP32 tensor: what each element of each tensor holds afterwards (05
R121). -/

namespace Sys2Proof.Machine

variable {s : State} {core e k g j : Nat} {x a : Tensor} {l : List Nat}

/-- The write of lane `i` as element 64 `g` + `i` of row `k`. -/
def laneWrite (x : Tensor) (k g : Nat) (l : List Nat) (i : Nat) : Write :=
  ⟨x.handle, false, k * x.width + 64 * g + i, l.getD i 0⟩

/-- A store to an FP32 tensor writes the lanes that lie in the row, unchanged. -/
theorem State.stLanes_of_fp32 {slot : Nat} {sr : Bool} {fl : Flags} (hx : s.slotTensor slot = some (x, e)) (hfmt : x.fmt = 0) :
    s.stLanes slot k g sr l fl = (s.writeAll ((s.lanesIn slot k g).map (laneWrite x k g l)), fl) := by
  rw [State.stLanes, hx]
  simp only [hfmt, if_true, State.writeAll, List.foldl_map]
  rfl

theorem State.mem_lanesIn {slot i : Nat} (hx : s.slotTensor slot = some (x, e)) (hk : k < x.rows) :
    i ∈ s.lanesIn slot k g ↔ i < 64 ∧ 64 * g + i < x.width := by
  rw [State.lanesIn, hx]
  simp [Nat.not_le.2 hk]

/-- A lane stored, in a tensor with the slot's handle. -/
theorem codeAt_laneWrites_same {is : List Nat} {i : Nat} (ha : Sparse.wf codeDefault a.data = true)
    (hh : a.handle = x.handle) (hi : i ∈ is) :
    codeAt (a.written (is.map (laneWrite x k g l))).data (k * x.width + 64 * g + i) = l.getD i 0 % 2 ^ 32 := by
  have hagree : ∀ y ∈ is.map (laneWrite x k g l), y.handle = a.handle → y.index = k * x.width + 64 * g + i →
      y.code % 2 ^ 32 = l.getD i 0 % 2 ^ 32 := by
    intro y hy _ hindex
    obtain ⟨i', -, rfl⟩ := List.mem_map.1 hy
    obtain rfl : i' = i := Nat.add_left_cancel hindex
    rfl
  rw [Tensor.codeAt_written ha hagree]
  exact if_pos ⟨_, List.mem_map_of_mem hi, hh.symm, rfl⟩

/-- An element where no lane is stored. -/
theorem codeAt_laneWrites_other {is : List Nat} (ha : Sparse.wf codeDefault a.data = true)
    (hj : a.handle = x.handle → ∀ i ∈ is, j ≠ k * x.width + 64 * g + i) :
    codeAt (a.written (is.map (laneWrite x k g l))).data j = codeAt a.data j := by
  have hmiss : ¬ ∃ y ∈ is.map (laneWrite x k g l), y.handle = a.handle ∧ y.index = j := by
    rintro ⟨y, hy, hhandle, hindex⟩
    obtain ⟨i, hi, rfl⟩ := List.mem_map.1 hy
    exact hj hhandle.symm i hi hindex.symm
  rw [Tensor.codeAt_written (x := 0) ha fun y hy hh hi => absurd ⟨y, hy, hh, hi⟩ hmiss, if_neg hmiss]

/-- Settles O36: the row (log 12) writes the lanes that lie in the tensor's row, and the flags it raises change no tensor. -/
theorem storeOfARegisterIsExact : Obligations.StoreOfARegisterIsExact := by
  unfold Obligations.StoreOfARegisterIsExact
  intro s core k g e w x hs hj hc hok hop hx hfmt hk
  obtain ⟨u, hexec, -, htens⟩ := exec_vectorRow_of_begun (k := k) (g := g) (p := (0x02, .st core k g w))
    (List.mem_append_right _ (by simp [plainRows])) hj hc hok hop
  obtain ⟨fl, hst⟩ := State.vstep_st (core := core) (k := k) (g := g) (x := (s, Flags.none)) hop
  have hscale : ∀ y ∈ (s.lanesIn (bits w.toNat 35 33) k g).map (laneWrite x k g (s.vreg core (bits w.toNat 50 46))),
      y.scale = false := List.forall_mem_map.2 fun _ _ => rfl
  rw [hst, State.stLanes_of_fp32 hx hfmt, State.writeAll_tens hscale] at htens
  refine ⟨u, hexec, ?_⟩
  rw [htens, List.forall₂_map_right_iff, List.forall₂_same]
  intro a ha
  have hwf := hs.elements a ha
  refine ⟨rfl, fun hh i hi hwidth => ?same, fun j hother => ?other⟩
  case same =>
    rw [codeAt_laneWrites_same hwf hh ((State.mem_lanesIn hx hk).2 ⟨hi, hwidth⟩), Nat.mod_eq_of_lt (State.vreg_lane_lt hi)]
  case other =>
    refine codeAt_laneWrites_other hwf fun hh i hi => ?_
    obtain ⟨hi, hwidth⟩ := (State.mem_lanesIn hx hk).1 hi
    exact hother hh i hi hwidth

end Sys2Proof.Machine
end

section
/-! SUPPORT and PROOF. How the commands of the vector group end (05 R123, R125, R132, R134, R135, R141), the seed tables after
LOAD_SEED_TABLE (R130, R132) and the generators after SEED_GENERATORS (R142). -/

namespace Sys2Proof.Machine

variable {s t u v r : State} {n a k m : Nat} {c : Cmd} {env : Env} {x i o g : Tensor}

theorem exec_vectorProgram (n : Nat) (env : Env) (s : State) : exec (.vectorProgram n env) s = execVectorProgram n env s := rfl

theorem exec_rowStats (n : Nat) (env : Env) (s : State) : exec (.rowStats n env) s = execRowStats n env s := rfl

theorem exec_gatedAct (n : Nat) (env : Env) (s : State) : exec (.gatedAct n env) s = execGatedAct n env s := rfl

theorem exec_loadSeedTable (n : Nat) (s : State) : exec (.loadSeedTable n) s = execLoadSeedTable n s := rfl

theorem exec_seedBankSwitch (n : Nat) (s : State) : exec (.seedBankSwitch n) s = execSeedBankSwitch n s := rfl

theorem exec_seedGenerators (n : Nat) (s : State) : exec (.seedGenerators n) s = execSeedGenerators n s := rfl

/-- What a command that takes its saves finds of itself. -/
theorem State.takeSaves_cmdOf (hc : s.Clean) (h : s.takeSaves c = some u) : u.cmdOf n = s.cmdOf n :=
  Calm.cmdOf hc (State.takeSaves_calm_all h)

/-! ### VECTOR_PROGRAM (R123, R125) -/

theorem State.clearingHit_mem_cmd : (s.clearingHit a k).mem = s.mem ∧ (s.clearingHit a k).cmd = s.cmd :=
  ⟨State.foldl_leaves State.mem (fun _ _ => by simp only [State.addSat_fields, State.setFld_fields]) _,
    State.foldl_leaves State.cmd (fun _ _ => by simp only [State.addSat_fields, State.setFld_fields]) _⟩

/-- Bytes that could be read: nothing stopped the read, which changes registers of errors at most. -/
theorem State.loadBytes_ok {d : List Byte} (h : s.loadBytes a k = (r, .ok d)) :
    s.readStop a k = .none ∧ r.mem = s.mem ∧ r.cmd = s.cmd := by
  unfold State.loadBytes at h
  split at h
  case h_1 hstop =>
    obtain ⟨rfl, -⟩ := Prod.mk.inj h
    obtain ⟨hmem, hcmd⟩ := State.clearingHit_mem_cmd (a := a) (k := k)
      (s := if (pages a k).any s.unbackedPage && decide (regionOf a = .hbm) then s.unbackedHit else s)
    refine ⟨hstop, hmem.trans ?_, hcmd.trans ?_⟩
    all_goals split <;> simp
  case h_2 => exact absurd (Prod.mk.inj h).2 (by simp)

/-- A fetch from memory at hand goes on with the bytes read. -/
theorem State.fetch_of_loaded {detail : Nat} {d : List Byte} {f : List Byte → State → State} (hq : env.Quiet)
    (hr : s.rangeFault a k = none) (hg : s.rangeGate c [(localOf a, k)] [] = none)
    (hl : s.loadBytes (localOf a) k = (r, .ok d)) : s.fetch env c a k detail f = f d r := by
  obtain ⟨hstop, -, -⟩ := State.loadBytes_ok hl
  simp only [State.fetch, hr, State.corrections_quiet hq, hg, hstop, hl]

/-- The engines as a program begins: its slots and editions, and registers of zero (R123). -/
def State.programBegun (u : State) (c : Cmd) : State :=
  { u with core := { u.core with
    vjob := some ⟨c.id, (List.range 6).map fun i => c.par (44 + 4 * i) 4, c.latch.seedBank, c.latch.editions⟩
    vregs := [] } }

/-- A program run from its first step to its last over the rows of the tensor in slot 0, with the flags raised. -/
def State.programRan (u : State) (c : Cmd) (x : Tensor) (prog : List Nat) : State × Flags :=
  (u.programBegun c).runSteps (programSteps x.rows (ceilDiv x.width 64) prog) (u.programBegun c, Flags.none)

theorem State.programBegun_calm (m : Nat) : Calm m u (u.programBegun c) := Calm.upd (Calm.refl u) rfl rfl

theorem State.programRan_calm {prog : List Nat} (m : Nat) : Calm m u (u.programRan c x prog).1 :=
  State.runSteps_calm (State.programBegun_calm m) (State.programBegun_calm m)

/-- A program that was read, with no error of its table, runs whole and ends OK. -/
theorem State.vectorProgram_eq {prog : List Nat} (hq : env.Quiet) (hu : u.Clean) (hf : r.programFault c prog = none)
    (hx : r.tensor (c.par 44 4) = some x) (ht : r.takeSaves c = some u) : r.vectorProgram env c prog =
      ((u.programRan c x prog).1.markOutputs c (u.outMarks c)).finish c.id (Outcome.ok ((u.programRan c x prog).2.code % 8)) := by
  have hrun : (u.programBegun c).envStop env c 0x0108 = none := 
    have hbegun := hu.calm (State.programBegun_calm (c := c) 0)
    State.envStop_quiet hq hbegun.poison hbegun.flaws
  simp only [State.programBegun] at hrun
  simp only [State.vectorProgram, hf, hx, State.withSaves, ht, hrun]
  rfl

theorem State.vectorProgram_ended {prog : List Nat} (hq : env.Quiet) (hr : r.Clean) (hn : r.cmdOf n = some c)
    (hf : r.programFault c prog = none) (hx : r.tensor (c.par 44 4) = some x) (ht : r.takeSaves c = some u) :
    ∃ q, (r.vectorProgram env c prog).Ended n (Outcome.ok q) := by
  have huc := hr.calm (State.takeSaves_calm_all ht n)
  have hcmd : ((u.programRan c x prog).1.markOutputs c (u.outMarks c)).cmdOf n = some c := by
    rw [State.cmdOf, State.markOutputs_cmd, ← State.cmdOf, Calm.cmdOf huc State.programRan_calm,
      State.takeSaves_cmdOf hr ht, hn]
  obtain rfl : c.id = n := State.cmdOf_id hn
  exact ⟨_, State.vectorProgram_eq hq huc hf hx ht ▸ State.finish_ended hcmd⟩

/-- VECTOR_PROGRAM whose program can be read. -/
theorem exec_vectorProgram_of_ready {d : List Byte} (hq : env.Quiet) (h : s.Ready n 0x0501 c) (hb : s.Begins c)
    (hrange : programRange c = none) (hr : s.rangeFault (c.par 32 8 % 2 ^ 48) (8 * c.par 40 2) = none)
    (hg : s.rangeGate c [(localOf (c.par 32 8 % 2 ^ 48), 8 * c.par 40 2)] [] = none)
    (hl : s.loadBytes (localOf (c.par 32 8 % 2 ^ 48)) (8 * c.par 40 2) = (r, .ok d)) :
    exec (.vectorProgram n env) s = .next (r.vectorProgram env c (programWords d)) := by
  rw [exec_vectorProgram, execVectorProgram, h.work hb, hrange]
  exact congrArg Host.Outcome.next (State.fetch_of_loaded hq hr hg hl)

/-! ### ROW_STATS and GATED_ACT (R134, R135) -/

/-- The four FP32 elements that ROW_STATS writes of row `t`. -/
def statWrites (o : Tensor) (t : Nat) (y : RowStat) : List Write :=
  [y.mean, y.var, y.max, y.lse].zipIdx.map fun p => ⟨o.handle, false, 4 * t + p.2, fp32.encode p.1⟩

/-- The rows of ROW_STATS: the elements it writes, its equal rows, its flags, and the state once the flags of every row are
raised. -/
def State.statRows (u : State) (c : Cmd) (i o : Tensor) : List Write × Nat × Flags × State :=
  (List.range i.rows).foldl (fun a t =>
    let y := rowStats (u.seedsOf c) (u.rowVals i (State.readEdition c i) t) (c.par 40 1 % 2) Flags.none
    (a.1 ++ statWrites o t y.1, a.2.1 + ofBool y.1.equal, a.2.2.1.or y.2, a.2.2.2.raiseRow t y.2)) ([], 0, Flags.none, u)

theorem State.statRows_calm (m : Nat) : Calm m u (u.statRows c i o).2.2.2 :=
  Calm.foldl_proj (π := fun y : List Write × Nat × Flags × State => y.2.2.2) (Calm.refl u)
    fun _ _ h => State.raiseRow_calm h

/-- ROW_STATS with operands that fit writes the statistics of its rows and ends OK. -/
theorem exec_rowStats_of_ready (h : s.Ready n 0x0502 c) (hb : s.Begins c) (hi : s.readable c (c.par 32 4) = some i)
    (ho : s.tensor (c.par 36 4) = some o) (hfmt : o.fmt = 0) (hrole : o.role ≠ 1) (hshape : o.shape = (i.rows, 4))
    (hu : s.takeSaves c = some u) : ∃ q, exec (.rowStats n env) s =
      .next ((u.statRows c i o).2.2.2.complete env c 0x0108 (u.statRows c i o).1 (Outcome.ok q)) := by
  have hfault : firstFault [(decide (o.fmt ≠ 0 ∨ o.role = 1), 0x0101), (decide (o.shape ≠ (i.rows, 4)), 0x0107)] = none := by
    simp [firstFault, hfmt, hrole, hshape]
  rw [exec_rowStats, execRowStats, h.work hb]
  simp only [hi, ho, hfault, State.withSaves, hu]
  exact ⟨_, rfl⟩

theorem State.gatedRows_calm_all (m : Nat) : Calm m s (s.gatedRows c g x o).1 :=
  State.gatedRows_calm (c := { c with id := m }) rfl (Calm.refl s)

/-- GATED_ACT with operands that fit writes its rows and ends OK. -/
theorem exec_gatedAct_of_ready (h : s.Ready n 0x0503 c) (hb : s.Begins c) (hg : s.readable c (c.par 32 4) = some g)
    (hx : s.readable c (c.par 36 4) = some x) (ho : s.tensor (c.par 40 4) = some o) (hfmt : c.par 45 1 = o.fmt)
    (hrole : o.role ≠ 1) (hstore : storable o = true) (hact : c.par 44 1 ≤ 2) (hxs : x.shape = g.shape)
    (hos : o.shape = g.shape) (hu : s.takeSaves c = some u) : ∃ q, exec (.gatedAct n env) s =
      .next ((u.gatedRows c g x o).1.complete env c 0x0108 (u.gatedRows c g x o).2.1 (Outcome.ok q)) := by
  have hfault : firstFault [(decide (c.par 45 1 ≠ o.fmt ∨ o.role = 1) || ! storable o, 0x0101), (decide (2 < c.par 44 1), 0x0104),
      (decide (x.shape ≠ g.shape ∨ o.shape ≠ g.shape), 0x0107)] = none := by
    simp [firstFault, hfmt, hrole, hstore, hact, hxs, hos]
  rw [exec_gatedAct, execGatedAct, h.work hb]
  simp only [hg, hx, ho, hfault, State.withSaves, hu]
  exact ⟨_, rfl⟩

/-- A command that takes its saves, works in the engines alone and writes its elements ends OK. -/
theorem State.ended_of_saves {d q : Nat} {l : List Write} (hq : env.Quiet) (hc : s.Clean) (hn : s.cmdOf n = some c)
    (hu : s.takeSaves c = some u) (hv : ∀ m, Calm m u v) : (v.complete env c d l (Outcome.ok q)).Ended n (Outcome.ok q) := by
  have huc := hc.calm (State.takeSaves_calm_all hu n)
  refine State.complete_ended hq (huc.calm (hv n)) ?_
  rw [Calm.cmdOf huc hv, State.takeSaves_cmdOf hc hu, hn]

/-! ### LOAD_SEED_TABLE (R130, R132) -/

/-- LOAD_SEED_TABLE of the factory's image, or of one on this node, waits for the inactive bank. -/
theorem exec_loadSeedTable_of_ready (h : s.Ready n 0x0504 c) (hb : s.Begins c) (htable : c.par 40 1 ≤ 9)
    (hlocal : bit (c.par 41 1) 0 = 1 ∨ nodeOf (c.par 32 8) = s.node) :
    exec (.loadSeedTable n) s = .next (s.park n [15]) := by
  have hremote : ¬ (bit (c.par 41 1) 0 = 0 ∧ nodeOf (c.par 32 8) ≠ s.node) := by
    rintro ⟨hfactory, hnode⟩
    exact hlocal.elim (fun h => absurd (hfactory.symm.trans h) (by decide)) hnode
  rw [exec_loadSeedTable, execLoadSeedTable, h.work hb]
  simp only [Nat.not_lt.2 htable, if_false, hremote, h.id]

theorem exec_loadSeedTable_of_no_table (h : s.Ready n 0x0504 c) (hb : s.Begins c) (htable : 9 < c.par 40 1) :
    exec (.loadSeedTable n) s = .next (s.finish n (Outcome.bad 0x0104)) := by
  rw [exec_loadSeedTable, execLoadSeedTable, h.work hb]
  simp only [htable, if_true, h.id]

/-- The bank filled holds the tables of the active one, with one replaced. -/
theorem State.customTables_fillBank {e : List Nat} : (s.fillBank k e).customTables s.inactiveBank =
    withTable (s.customTables (s.fld Reg.seedBankState 31 31)) k e := by
  unfold State.fillBank State.customTables
  have hbank : s.inactiveBank = 0 ∨ s.inactiveBank = 1 := by
    have : s.inactiveBank ≤ 1 := Nat.sub_le _ _
    omega
  obtain hbank | hbank := hbank <;> simp [hbank]

/-- Filling a bank leaves everything but the banks. -/
theorem State.fillBank_fields {e : List Nat} : (s.fillBank k e).cmd = s.cmd ∧ (s.fillBank k e).mem = s.mem ∧
    (s.fillBank k e).tens = s.tens ∧ (s.fillBank k e).tally = s.tally ∧ (s.fillBank k e).regs = s.regs := by
  unfold State.fillBank
  split <;> exact ⟨rfl, rfl, rfl, rfl, rfl⟩

theorem State.switchBank_fields {check : Nat} : (s.switchBank k check).cmd = s.cmd ∧ (s.switchBank k check).mem = s.mem ∧
    (s.switchBank k check).tens = s.tens ∧ (s.switchBank k check).tally = s.tally ∧ (s.switchBank k check).core = s.core := by
  simp only [State.switchBank, State.setReg_fields, State.setFld_fields, and_self]

/-- The bank switched to is the one that was inactive. -/
theorem State.fld_switchBank {check : Nat} (hs : s.Sound) :
    (s.switchBank k check).fld Reg.seedBankState 31 31 = s.inactiveBank := by
  have hne : Reg.seedBankState ≠ Reg.seedCheck k := by unfold Reg.seedBankState Reg.seedCheck; omega
  have hbank : s.inactiveBank < 2 ^ (31 + 1 - 31) := Nat.lt_succ_of_le (Nat.sub_le _ _)
  simp only [State.switchBank, State.fld, State.reg_setReg_other hne]
  exact (State.fld_setFld_above hs.setFld (by decide) (by decide) (by decide)).trans
    ((State.fld_setFld_same hs (by decide) (by decide)).trans (Nat.mod_eq_of_lt hbank))

/-- The state once the inactive bank has been filled with table `k` of image `e` and switched to. -/
def State.bankLoaded (s : State) (k : Nat) (e : List Nat) (check : Nat) : State := (s.fillBank k e).switchBank k check

theorem State.bankLoaded_fields {e : List Nat} {check : Nat} : (s.bankLoaded k e check).cmd = s.cmd ∧
    (s.bankLoaded k e check).mem = s.mem ∧ (s.bankLoaded k e check).tens = s.tens ∧
    (s.bankLoaded k e check).tally = s.tally := by
  obtain ⟨hcmd, hmem, htens, htally, -⟩ := State.fillBank_fields (s := s) (k := k) (e := e)
  obtain ⟨hcmd', hmem', htens', htally', -⟩ := State.switchBank_fields (s := s.fillBank k e) (k := k) (check := check)
  exact ⟨hcmd'.trans hcmd, hmem'.trans hmem, htens'.trans htens, htally'.trans htally⟩

theorem State.fld_bankLoaded {e : List Nat} {check : Nat} (hs : s.Sound) :
    (s.bankLoaded k e check).fld Reg.seedBankState 31 31 = s.inactiveBank := by
  obtain ⟨-, -, -, -, hregs⟩ := State.fillBank_fields (s := s) (k := k) (e := e)
  rw [State.bankLoaded, State.fld_switchBank (State.fillBank_kept hs.kept).sound, State.inactiveBank, State.fld,
    State.reg_congr hregs, State.inactiveBank, State.fld]

theorem State.customTables_bankLoaded {e : List Nat} {check : Nat} : (s.bankLoaded k e check).customTables s.inactiveBank =
    withTable (s.customTables (s.fld Reg.seedBankState 31 31)) k e := by
  obtain ⟨-, -, -, -, hcore⟩ := State.switchBank_fields (s := s.fillBank k e) (k := k) (check := check)
  rw [← State.customTables_fillBank, State.bankLoaded, State.customTables, hcore, State.customTables]

/-- A table replaced by the factory's is no custom table. -/
theorem withTable_factory {l : List (Nat × List Nat)} : withTable l k (factoryTable k) = l.filter fun y => y.1 ≠ k :=
  if_pos rfl

/-- A bank whose custom tables are another's but for table `k` has the factory's table `k` and the other's others. -/
theorem State.seeds_of_factory (h : t.customTables a = (s.customTables m).filter fun y => y.1 ≠ k) :
    t.seeds a k = factorySeed k ∧ ∀ j, j ≠ k → t.seeds a j = s.seeds m j := by
  unfold State.seeds
  rw [h]
  refine ⟨?_, fun j hj => ?_⟩
  · have hnone : ((s.customTables m).filter fun y => y.1 ≠ k).find? (fun y => y.1 = k) = none := by
      simp [List.find?_eq_none]
    simp only [hnone]
  · have hsame : ((s.customTables m).filter fun y => y.1 ≠ k).find? (fun y => y.1 = j) =
        (s.customTables m).find? fun y => y.1 = j := by
      rw [List.find?_filter]
      congr 1
      funext y
      by_cases hy : y.1 = j <;> simp [hy, hj]
    simp only [hsame]

/-- The bank that was inactive, filled with the factory's table `k` and active. -/
theorem State.bankLoaded_factory_spec {check : Nat} (hs : s.Sound) (ht : t = s.bankLoaded k (factoryTable k) check) :
    t.fld Reg.seedBankState 31 31 = s.inactiveBank ∧ t.seeds (t.fld Reg.seedBankState 31 31) k = factorySeed k ∧
    (∀ j, j ≠ k → t.seeds (t.fld Reg.seedBankState 31 31) j = s.seeds (s.fld Reg.seedBankState 31 31) j) := by
  have hbank : t.fld Reg.seedBankState 31 31 = s.inactiveBank := ht ▸ State.fld_bankLoaded hs
  have htables : t.customTables s.inactiveBank = _ := ht ▸ State.customTables_bankLoaded.trans withTable_factory
  rw [hbank]
  exact ⟨rfl, State.seeds_of_factory htables⟩

/-- SEED_BANK_SWITCH of the factory's image, once the bank is free and no earlier load is in progress. -/
theorem exec_seedBankSwitch_of_factory (h : s.Waits n c) (hop : c.opcode = 0x0504) (haux : c.aux = [15])
    (husers : s.bankUsers s.inactiveBank = 0) (hearlier : (s.earlier c fun d => d.opcode = 0x0504) = false)
    (hfactory : bit (c.par 41 1) 0 = 1) :
    exec (.seedBankSwitch n) s = .next (s.seedLoad c (factoryTable (c.par 40 1))) := by
  rw [exec_seedBankSwitch, execSeedBankSwitch, h.resume, if_pos ⟨hop, haux, husers, by simp [hearlier]⟩, if_pos hfactory]

/-- A load whose check value is the one given: the bank filled is switched to. -/
theorem State.seedLoad_of_match {e : List Nat} (h : crc32 (imageBytes e) = c.par 44 4) : s.seedLoad c e =
    (s.bankLoaded (c.par 40 1) e (crc32 (imageBytes e))).finish c.id
      (Outcome.ok (resultOf 0 0 0 (crc32 (imageBytes e)) 0 0)) := if_neg (not_not.2 h)

theorem State.seedLoad_of_mismatch {e : List Nat} (h : crc32 (imageBytes e) ≠ c.par 44 4) : s.seedLoad c e =
    (s.fillBank (c.par 40 1) e).finish c.id ⟨stCheckFail, 0x0105, resultOf 0 0 0 (crc32 (imageBytes e)) 0 0⟩ := if_pos h

/-! ### SEED_GENERATORS (R141, R142) -/

theorem exec_seedGenerators_of_ready (h : s.Ready n 0x0505 c) (hb : s.Begins c) : exec (.seedGenerators n) s = .next (
    if 2 ^ 46 ≤ c.par 40 8 then s.finish n (Outcome.bad 0x0106)
    else (s.seedGenerators (c.par 32 8) (c.par 40 8)).finish n (Outcome.ok 0)) := by
  rw [exec_seedGenerators, execSeedGenerators, h.work hb, h.id]

/-- The imposition's generators are listed as seeded, with nothing drawn. -/
theorem State.seedings_seedGenerators {job step : Nat} : (s.seedGenerators job step).core.seedings =
    ⟨(s.imp.cur.map (·.cores)).getD 0, job, step⟩ ::
      s.core.seedings.filter fun y => (s.imp.cur.map (·.cores)).getD 0 < y.cores :=
  congrArg CoreSt.seedings (State.foldl_leaves State.core (fun _ _ => by simp only [State.setReg_fields]) _)

theorem State.seedGenerators_fields {job step : Nat} : (s.seedGenerators job step).mem = s.mem ∧
    (s.seedGenerators job step).tens = s.tens ∧ (s.seedGenerators job step).cmd = s.cmd :=
  ⟨State.foldl_leaves State.mem (fun _ _ => by simp only [State.setReg_fields]) _,
    State.foldl_leaves State.tens (fun _ _ => by simp only [State.setReg_fields]) _,
    State.foldl_leaves State.cmd (fun _ _ => by simp only [State.setReg_fields]) _⟩

/-- The seed of each lane of a core of the imposition. -/
theorem State.genStart_seedGenerators {job step lane : Nat} (hl : lane < 64) (hk : k < (s.imp.cur.map (·.cores)).getD 0) :
    (s.seedGenerators job step).genStart (64 * k + lane) = seedLane job step k lane := by
  have hcore : (64 * k + lane) / 64 = k := by omega
  have hlane : (64 * k + lane) % 64 = lane := by omega
  rw [State.genStart, State.seedings_seedGenerators, hcore, hlane, List.find?_cons_of_pos (by simpa using hk)]
  rfl

/-! ### The vector group -/

/-- Settles O37: the first three commands end as they write; a load of a table fills the inactive bank and then switches to
it; SEED_GENERATORS lists the imposition's generators as seeded. -/
theorem vectorCommandsComplete : Obligations.VectorCommandsComplete := by
  unfold Obligations.VectorCommandsComplete
  intro s n c env hs hq hbegins hclean
  refine ⟨?program, ?stats, ?gated, ?load, ?noTable, ?switch, ?seed, ?badStep⟩
  case program =>
    intro h hrange hr hg r d x hl hf hx hsaves
    obtain ⟨u, hu⟩ := Option.isSome_iff_exists.1 hsaves
    obtain ⟨-, hmem, hcmd⟩ := State.loadBytes_ok hl
    have hrc : r.Clean := ⟨hmem ▸ hclean.poison, hmem ▸ hclean.flaws⟩
    have hfound : r.cmdOf n = some c := by rw [State.cmdOf, hcmd, ← State.cmdOf, h.found]
    obtain ⟨q, hend⟩ := State.vectorProgram_ended hq hrc hfound hf hx hu
    exact ⟨_, q, exec_vectorProgram_of_ready hq h hbegins hrange hr hg hl, hend⟩
  case stats =>
    intro h i o hi ho hfmt hrole hshape hsaves
    obtain ⟨u, hu⟩ := Option.isSome_iff_exists.1 hsaves
    obtain ⟨q, hexec⟩ := exec_rowStats_of_ready (env := env) h hbegins hi ho hfmt hrole hshape hu
    exact ⟨_, q, hexec, State.ended_of_saves hq hclean h.found hu State.statRows_calm⟩
  case gated =>
    intro h g x o hg hx ho hfmt hrole hstore hact hxs hos hsaves
    obtain ⟨u, hu⟩ := Option.isSome_iff_exists.1 hsaves
    obtain ⟨q, hexec⟩ := exec_gatedAct_of_ready (env := env) h hbegins hg hx ho hfmt hrole hstore hact hxs hos hu
    exact ⟨_, q, hexec, State.ended_of_saves hq hclean h.found hu State.gatedRows_calm_all⟩
  case load => exact fun h htable hlocal => exec_loadSeedTable_of_ready h hbegins htable hlocal
  case noTable => exact fun h htable => exec_loadSeedTable_of_no_table h hbegins htable
  case switch =>
    rintro h hop haux husers hearlier hfactory k rfl
    obtain rfl := h.id
    have hexec := exec_seedBankSwitch_of_factory h hop haux husers hearlier hfactory
    refine ⟨fun hcheck => ?refused, fun hcheck => ?active⟩
    case refused => rw [hexec, State.seedLoad_of_mismatch hcheck]
    case active =>
      rw [State.seedLoad_of_match hcheck] at hexec
      obtain ⟨v, hv⟩ : ∃ v, v = s.bankLoaded (c.par 40 1) (factoryTable (c.par 40 1))
        (crc32 (imageBytes (factoryTable (c.par 40 1)))) := ⟨_, rfl⟩
      obtain ⟨hcmd, hmem, htens, htally⟩ : v.cmd = s.cmd ∧ v.mem = s.mem ∧ v.tens = s.tens ∧ v.tally = s.tally :=
        hv ▸ State.bankLoaded_fields
      obtain ⟨hbank, htable, hothers⟩ := State.bankLoaded_factory_spec hs hv
      have hfound : v.cmdOf c.id = some c := by rw [State.cmdOf, hcmd, ← State.cmdOf, h.found]
      rw [← hv] at hexec
      exact ⟨_, hexec, State.finish_ended hfound, hbank, htable, hothers, hmem, htens, htally⟩
  case seed =>
    intro h hstep
    have hexec := exec_seedGenerators_of_ready h hbegins
    rw [if_neg (Nat.not_le.2 hstep)] at hexec
    obtain ⟨hmem, htens, hcmd⟩ := State.seedGenerators_fields (s := s) (job := c.par 32 8) (step := c.par 40 8)
    refine ⟨_, hexec, State.finish_ended (c := c) ?_, fun k lane hl hk => State.genStart_seedGenerators hl hk, hmem, htens⟩
    rw [State.cmdOf, hcmd, ← State.cmdOf, h.found]
  case badStep =>
    intro h hstep
    rw [exec_seedGenerators_of_ready h hbegins, if_pos hstep]

end Sys2Proof.Machine
end

section
/-! SUPPORT and PROOF. The tables of the galley store under an edit, and the commands that append to their shadows and edit
them (06 R150, R151, R154, R155, R157, R158). -/

namespace Sys2Proof.Machine

variable {s t u : State} {n k m g : Nat} {c : Cmd} {env : Env} {tb : GTable} {b : Bank} {e e' : EditSt} {f : Flags}

/-! ### Tables by their number -/

theorem State.gtable_number (h : s.gtable k = some tb) : tb.number = k := by simpa using List.find?_some h

theorem State.gtable_congr (h : t.attn.tables = s.attn.tables) : t.gtable k = s.gtable k := by simp only [State.gtable, h]

theorem State.cmdOf_congr (h : t.cmd = s.cmd) : t.cmdOf n = s.cmdOf n := by simp only [State.cmdOf, h]

theorem State.liveTable_eq_some : s.liveTable k = some tb ↔ s.gtable k = some tb ∧ tb.destroying = false := by
  simp [State.liveTable, Option.filter_eq_some_iff]

/-- A table after a change of one table that keeps its number. -/
theorem State.gtable_updTable {f : GTable → GTable} (hf : ∀ x, (f x).number = x.number) :
    (s.updTable m f).gtable k = (s.gtable k).map fun x => if x.number = m then f x else x := by
  have hp : ((fun x : GTable => decide (x.number = k)) ∘ fun x => if x.number = m then f x else x) =
      fun x => decide (x.number = k) := by
    funext x
    by_cases hx : x.number = m <;> simp [hx, hf]
  rw [State.gtable, State.updTable, List.find?_map, hp, State.gtable]

/-- The table changed. -/
theorem State.gtable_updTable_same {f : GTable → GTable} (hf : ∀ x, (f x).number = x.number) (h : s.gtable k = some tb) :
    (s.updTable k f).gtable k = some (f tb) := by
  rw [State.gtable_updTable hf, h, Option.map_some, if_pos (State.gtable_number h)]

/-- What a change of a table keeps of it, the tables keep. -/
theorem State.map_tables_updTable {α : Type} {p : GTable → α} {f : GTable → GTable} (hf : ∀ x, p (f x) = p x) :
    (s.updTable k f).attn.tables.map p = s.attn.tables.map p := by
  rw [State.updTable, List.map_map]
  refine List.map_congr_left fun x _ => ?_
  rw [Function.comp_apply]
  split
  exacts [hf x, rfl]

/-- Galleys given back leave the tables, memory, tallies and commands. -/
theorem State.reclaim_fields : s.reclaim.2.attn.tables = s.attn.tables ∧ s.reclaim.2.mem = s.mem ∧
    s.reclaim.2.tally = s.tally ∧ s.reclaim.2.cmd = s.cmd := ⟨rfl, rfl, rfl, rfl⟩

/-- With nothing poisoned, flags raised leave the galley store and the commands. -/
theorem State.raiseFlags_attn {v : Bool} (hc : s.Clean) : (s.raiseFlags f v).attn = s.attn :=
  (State.raiseFlags_calm (kn := 0) (Calm.refl s) hc.poison hc.flaws).attn

theorem State.raiseFlags_cmdOf {v : Bool} (hc : s.Clean) : (s.raiseFlags f v).cmdOf n = s.cmdOf n :=
  Calm.cmdOf hc fun _ => State.raiseFlags_calm (Calm.refl s)

/-! ### Edits that find a shadow, and those that wait for one (R154) -/

theorem exec_galleyAppend (n : Nat) (env : Env) (s : State) : exec (.galleyAppend n env) s = execGalleyAppend n env s := rfl

theorem exec_galleyEdit (n : Nat) (s : State) : exec (.galleyEdit n) s = execGalleyEdit n s := rfl

theorem exec_verifyTree (n : Nat) (env : Env) (s : State) : exec (.verifyTree n env) s = execVerifyTree n env s := rfl

theorem exec_galleyWaiterResume (n : Nat) (env : Env) (s : State) :
    exec (.galleyWaiterResume n env) s = execGalleyWaiterResume n env s := rfl

theorem State.shadowEdit_of_shadow {w : State → State} (h : s.noShadow c = false) : s.shadowEdit c none w = w s := by
  simp only [State.shadowEdit, h, Bool.false_eq_true, if_false]

theorem State.shadowEdit_of_noShadow {check : Option Nat} {w : State → State} (h : s.noShadow c = true) :
    s.shadowEdit c check w = s.park c.id [11] := if_pos h

theorem exec_galleyAppend_of_ready (h : s.Ready n 0x0603 c) (hb : s.Begins c) (hf : s.appendFault c = none)
    (hs : s.noShadow c = false) : exec (.galleyAppend n env) s = .next (s.append env c) := by
  rw [exec_galleyAppend, execGalleyAppend, h.work hb, hf, State.shadowEdit_of_shadow hs]

theorem exec_galleyEdit_of_ready (h : s.Ready n 0x0604 c) (hb : s.Begins c) (hf : s.editFault c = none)
    (hs : s.noShadow c = false) : exec (.galleyEdit n) s = .next (s.edit c) := by
  rw [exec_galleyEdit, execGalleyEdit, h.work hb, hf, State.shadowEdit_of_shadow hs]

theorem exec_verifyTree_of_ready (h : s.Ready n 0x0606 c) (hb : s.Begins c) (hf : s.treeFault c = none)
    (hs : s.noShadow c = false) : exec (.verifyTree n env) s = .next (s.verify env c) := by
  rw [exec_verifyTree, execVerifyTree, h.work hb, hf, State.shadowEdit_of_shadow hs]

/-- A GALLEY_EDIT that waited goes on once it has its shadow. -/
theorem exec_galleyWaiterResume_edit (h : s.Waits n c) (haux : c.aux = [11]) (hs : s.noShadow c = false)
    (hop : c.opcode = 0x0604) (hf : s.editFault c = none) : exec (.galleyWaiterResume n env) s = .next (s.edit c) := by
  rw [exec_galleyWaiterResume, execGalleyWaiterResume, h.resume, if_neg (by simp [haux, hs])]
  simp only [hop, hf, State.shadowEdit_of_shadow hs]

/-! ### GALLEY_EDIT (R151, R158) -/

/-- The table that CREATE makes (Table 6.2). -/
def Cmd.newTable (c : Cmd) : GTable :=
  ⟨c.par 36 4, c.par 33 1, c.par 48 4, 1, ⟨0, []⟩, ⟨0, []⟩, false, false, false, [], []⟩

theorem State.edit_create (h : c.par 32 1 = 1) : s.edit c =
    State.editDone { s with attn := { s.attn with tables := s.attn.tables ++ [c.newTable] } } c 0 1 0 := by
  rw [State.edit, h]
  rfl

/-- A bank put in place of the shadow of the table that a GALLEY_EDIT names, and the edit done. -/
def State.shadowReplaced (s : State) (c : Cmd) (tb : GTable) (b : Bank) : State :=
  (s.setShadow (c.par 36 4) b).reclaim.2.editDone c b.length tb.generation (s.setShadow (c.par 36 4) b).reclaim.1

theorem State.edit_fork (h : c.par 32 1 = 2) (ht : s.gtable (c.par 36 4) = some tb)
    (hl : s.shareLimit tb (s.forkBank c) = false) : s.edit c = s.shadowReplaced c tb (s.forkBank c) := by
  rw [State.edit, h]
  simp only [ht, hl]
  rfl

theorem State.edit_truncate (h : c.par 32 1 = 3) (ht : s.gtable (c.par 36 4) = some tb) :
    s.edit c = s.shadowReplaced c tb (tb.second.cut (c.par 44 4)) := by
  rw [State.edit, h]
  simp only [ht]
  rfl

/-- The edit ends OK; the table has the bank as its shadow, and every published bank, memory and the tallies stay. -/
theorem State.shadowReplaced_spec (hn : s.cmdOf n = some c) (ht : s.gtable (c.par 36 4) = some tb) : ∃ freed,
    (s.shadowReplaced c tb b).Ended n (Outcome.ok (resultOf 0 0 0 b.length tb.generation freed)) ∧
    ((s.shadowReplaced c tb b).gtable (c.par 36 4)).map (·.second) = some b ∧
    ((s.shadowReplaced c tb b).attn.tables.map fun x => (x.number, x.published)) =
      s.attn.tables.map (fun x => (x.number, x.published)) ∧
    (s.shadowReplaced c tb b).mem = s.mem ∧ (s.shadowReplaced c tb b).tally = s.tally := by
  obtain rfl : c.id = n := State.cmdOf_id hn
  have htable : (s.setShadow (c.par 36 4) b).gtable (c.par 36 4) = some _ := State.gtable_updTable_same (fun _ => rfl) ht
  exact ⟨_, State.finish_ended (c := c) hn, congrArg (Option.map (·.second)) htable,
    State.map_tables_updTable fun _ => rfl, rfl, rfl⟩

/-! ### What the writes of an edit leave -/

/-- An edit of the store has left memory, the commands and the numbers of the tables. -/
structure EditKept (s t : State) : Prop where
  mem : t.mem = s.mem
  cmd : t.cmd = s.cmd
  numbers : t.attn.tables.map (·.number) = s.attn.tables.map (·.number)

theorem EditKept.refl (s : State) : EditKept s s := ⟨rfl, rfl, rfl⟩

theorem EditKept.trans (h : EditKept s t) (h' : EditKept t u) : EditKept s u :=
  ⟨h'.mem.trans h.mem, h'.cmd.trans h.cmd, h'.numbers.trans h.numbers⟩

theorem EditKept.cmdOf (h : EditKept s t) : t.cmdOf n = s.cmdOf n := State.cmdOf_congr h.cmd

theorem EditKept.clean (h : EditKept s t) (hc : s.Clean) : t.Clean := ⟨h.mem ▸ hc.poison, h.mem ▸ hc.flaws⟩

theorem EditKept.updTable {w : GTable → GTable} (hw : ∀ x, (w x).number = x.number := by intro; rfl) :
    EditKept s (s.updTable k w) := ⟨rfl, rfl, State.map_tables_updTable hw⟩

theorem EditKept.updGalley {w : Galley → Galley} : EditKept s (s.updGalley k w) := ⟨rfl, rfl, rfl⟩

theorem EditKept.addSat {off hi lo : Nat} : EditKept s (s.addSat off hi lo k) := ⟨rfl, rfl, rfl⟩

/-- A table there before an edit is there after it. -/
theorem EditKept.gtable (h : EditKept s t) (ht : s.gtable k = some tb) : ∃ x, t.gtable k = some x := by
  have hmem : k ∈ t.attn.tables.map (·.number) :=
    h.numbers ▸ State.gtable_number ht ▸ List.mem_map_of_mem (List.mem_of_find?_eq_some ht)
  obtain ⟨x, hx, rfl⟩ := List.mem_map.1 hmem
  exact Option.isSome_iff_exists.1 (List.find?_isSome.2 ⟨x, hx, by simp⟩)

theorem State.allocGalley_editKept (h : s.allocGalley = some (g, t)) : EditKept s t := by
  unfold State.allocGalley at h
  split at h
  case h_1 => cases h
  case h_2 =>
    dsimp only at h
    split at h
    case h_1 => cases h
    case h_2 =>
      split at h
      case isTrue => cases h
      case isFalse =>
        obtain ⟨-, rfl⟩ := Prod.mk.inj (Option.some.inj h)
        exact ⟨rfl, rfl, rfl⟩

/-- The galley made writable is the one there, a free one, or a copy in a free one (R156). -/
theorem EditSt.writable_editKept {h p : Nat} (hw : e.writable n h p = some (g, e')) : EditKept e.s e'.s := by
  unfold EditSt.writable at hw
  split at hw
  case h_1 => cases hw
  case h_2 =>
    dsimp only at hw
    split at hw
    case isTrue =>
      split at hw
      case h_1 => cases hw
      case h_2 halloc =>
        obtain ⟨-, rfl⟩ := Prod.mk.inj (Option.some.inj hw)
        exact (State.allocGalley_editKept halloc).trans EditKept.updTable
    case isFalse =>
      split at hw
      case isTrue =>
        obtain ⟨-, rfl⟩ := Prod.mk.inj (Option.some.inj hw)
        exact EditKept.refl _
      case isFalse =>
        split at hw
        case h_1 => cases hw
        case h_2 halloc =>
          obtain ⟨-, rfl⟩ := Prod.mk.inj (Option.some.inj hw)
          exact (((State.allocGalley_editKept halloc).trans EditKept.updGalley).trans EditKept.updTable).trans EditKept.addSat

theorem appendHead_editKept {d p i h : Nat} {krow vrow : List Val} {a a' : EditSt × Flags}
    (ha : appendHead c n d p i h krow vrow a = some a') : EditKept a.1.s a'.1.s := by
  unfold appendHead at ha
  split at ha
  case h_1 => cases ha
  case h_2 hw =>
    obtain rfl := Option.some.inj ha
    exact (EditSt.writable_editKept hw).trans EditKept.updGalley

/-! ### GALLEY_APPEND (R150, R157) -/

theorem State.appendTokens_editKept {kt vt : Tensor} (h : s.appendTokens c tb kt vt = some (e, f)) : EditKept s e.s := by
  have hall : ∀ a, s.appendTokens c tb kt vt = some a → EditKept s a.1.s := by
    unfold State.appendTokens
    refine Calm.foldl_some (Calm.some_intro (EditKept.refl s)) fun o i ho => ?_
    refine Calm.foldl_some ho fun o h ho => Calm.bind_some fun a ha a' ha' => ?_
    exact (ho a ha).trans (appendHead_editKept ha')
  exact hall _ h

/-- The state once the tokens are in: the shadow has its new length. -/
def EditSt.appended (e : EditSt) (tb : GTable) (rows : Nat) : State :=
  e.s.updTable tb.number fun x => { x with
    second := { ((e.s.gtable tb.number).map (·.second)).getD tb.second with length := tb.second.length + rows },
    changed := x.changed || decide (0 < rows) }

theorem State.append_of_noSpace {kt vt : Tensor} (hq : env.Quiet) (hk : s.readable c (c.par 36 4) = some kt)
    (hv : s.readable c (c.par 40 4) = some vt) (ht : s.liveTable (c.par 32 2) = some tb)
    (h : s.appendTokens c tb kt vt = none) : s.append env c = s.finish c.id (Outcome.noSpace 0x0107) := by
  simp only [State.append, hk, hv, ht, State.corrections_quiet hq, h]

theorem State.append_of_space {kt vt : Tensor} (hq : env.Quiet) (hc : s.Clean) (hk : s.readable c (c.par 36 4) = some kt)
    (hv : s.readable c (c.par 40 4) = some vt) (ht : s.liveTable (c.par 32 2) = some tb)
    (h : s.appendTokens c tb kt vt = some (e, f)) :
    s.append env c = ((e.appended tb kt.rows).raiseFlags f true).finish c.id
      (Outcome.ok (resultOf (f.code % 8) 0 0 (tb.second.length + kt.rows) e.alloc e.copies)) := by
  simp only [State.append, hk, hv, ht, State.corrections_quiet hq, h, State.envStop_quiet hq hc.poison hc.flaws]
  rfl

/-- An append with space ends OK, with the shadow at its new length. -/
theorem State.append_spec {kt vt : Tensor} (hq : env.Quiet) (hc : s.Clean) (hn : s.cmdOf n = some c)
    (hk : s.readable c (c.par 36 4) = some kt) (hv : s.readable c (c.par 40 4) = some vt)
    (ht : s.liveTable (c.par 32 2) = some tb) (h : s.appendTokens c tb kt vt = some (e, f)) :
    (s.append env c).Ended n (Outcome.ok (resultOf (f.code % 8) 0 0 (tb.second.length + kt.rows) e.alloc e.copies)) ∧
    ((s.append env c).gtable (c.par 32 2)).map (·.second.length) = some (tb.second.length + kt.rows) := by
  obtain rfl : c.id = n := State.cmdOf_id hn
  have htable := (State.liveTable_eq_some.1 ht).1
  have hnumber := State.gtable_number htable
  have hkept := State.appendTokens_editKept h
  obtain ⟨x, hx⟩ := hkept.gtable (k := tb.number) (hnumber ▸ htable)
  have hdone : EditKept s (e.appended tb kt.rows) := hkept.trans EditKept.updTable
  have hclean := hdone.clean hc
  have hshadow : (e.appended tb kt.rows).gtable tb.number = some _ := State.gtable_updTable_same (fun _ => rfl) hx
  rw [State.append_of_space hq hc hk hv ht h]
  refine ⟨State.finish_ended (c := c) ?ended, ?length⟩
  case ended => rw [State.raiseFlags_cmdOf hclean, hdone.cmdOf, hn]
  case length =>
    have htables := congrArg AttnSt.tables (State.raiseFlags_attn (f := f) (v := true) hclean)
    rw [← hnumber]
    exact congrArg (Option.map (·.second.length)) ((State.gtable_congr htables).trans hshadow)

/-! ### The edits of galleys -/

/-- Settles O39: what an append writes leaves commands, memory and the tables' numbers; FORK and TRUNCATE put a bank in place
of the shadow alone; with no shadow an edit parks before it looks at anything else. -/
theorem galleyEditsWorkOnTheShadow : Obligations.GalleyEditsWorkOnTheShadow := by
  unfold Obligations.GalleyEditsWorkOnTheShadow
  intro s n c env hq hc hbegins
  refine ⟨?append, ?edit, ?waits, ?resumes⟩
  case append =>
    intro kt vt tb h hf hs hk hv ht
    rw [exec_galleyAppend_of_ready h hbegins hf hs]
    refine ⟨fun hnone => ?noSpace, fun e f hsome => ⟨_, rfl, State.append_spec hq hc h.found hk hv ht hsome⟩⟩
    case noSpace => rw [State.append_of_noSpace hq hk hv ht hnone, h.id]
  case edit =>
    intro h hf hs
    rw [exec_galleyEdit_of_ready h hbegins hf hs]
    refine ⟨fun hop => ?create, fun tb ht hop hlimit => ?fork, fun tb ht hop => ?truncate⟩
    case create =>
      obtain rfl := h.id
      rw [State.edit_create hop]
      exact ⟨_, rfl, State.finish_ended (c := c) h.found, rfl, rfl, rfl, rfl, rfl⟩
    case fork =>
      obtain ⟨freed, hspec⟩ := State.shadowReplaced_spec (b := s.forkBank c) h.found ht
      exact ⟨_, freed, congrArg Host.Outcome.next (State.edit_fork hop ht hlimit), hspec⟩
    case truncate =>
      obtain ⟨freed, hspec⟩ := State.shadowReplaced_spec (b := tb.second.cut (c.par 44 4)) h.found ht
      exact ⟨_, freed, congrArg Host.Outcome.next (State.edit_truncate hop ht), hspec⟩
  case waits =>
    rintro i (⟨h, rfl⟩ | ⟨h, rfl⟩ | ⟨h, rfl⟩) hs
    · rw [exec_galleyAppend, execGalleyAppend, h.work hbegins, State.shadowEdit_of_noShadow hs, h.id]
    · rw [exec_galleyEdit, execGalleyEdit, h.work hbegins, State.shadowEdit_of_noShadow hs, h.id]
    · rw [exec_verifyTree, execVerifyTree, h.work hbegins, State.shadowEdit_of_noShadow hs, h.id]
  case resumes =>
    intro tb h haux hs hop hf ht hcut
    obtain ⟨freed, hended, hshadow, -⟩ := State.shadowReplaced_spec (b := tb.second.cut (c.par 44 4)) h.found ht
    refine ⟨_, freed, ?_, hended, hshadow⟩
    rw [exec_galleyWaiterResume_edit h haux hs hop hf, State.edit_truncate hcut ht]

end Sys2Proof.Machine
end

section
/-! SUPPORT and PROOF. The publication of a table, the end of a walk, and a tree whose accepted candidates stand in place (06
R152, R153, R173, R174). -/

namespace Sys2Proof.Machine

variable {s t u : State} {n k m : Nat} {c : Cmd} {env : Env} {x tb : GTable} {e : EditSt} {l : List Nat}

theorem exec_galleyPublish (n : Nat) (s : State) : exec (.galleyPublish n) s = execGalleyPublish n s := rfl

theorem exec_walkEnd (n : Nat) (s : State) : exec (.walkEnd n) s = execWalkEnd n s := rfl

/-! ### GALLEY_PUBLISH (R152) -/

/-- A table as its shadow is published: the bank replaced drains for the walks that were on it. -/
def GTable.replaced (x : GTable) : GTable :=
  { x with
    generation := (x.generation + 1) % 2 ^ 32, published := x.second, second := x.published, draining := true
    changed := false, walks := [], drainWalks := x.walks }

/-- A table as its second bank is refreshed: that bank is the shadow again. -/
def GTable.refreshed (x : GTable) : GTable :=
  { x with second := x.published, draining := false, changed := false, drainWalks := [] }

theorem State.refreshTable_of_live (h : s.gtable k = some x) (hl : x.destroying = false) :
    s.refreshTable k = (s.updTable k GTable.refreshed).reclaim := by
  simp only [State.refreshTable, h, Option.any_some, hl, Bool.false_eq_true, if_false]
  rfl

theorem State.publishTable_of_changed (h : s.gtable k = some tb) (hd : tb.draining = false) (hch : tb.changed = true) :
    s.publishTable k = if tb.walks.isEmpty then (s.updTable k GTable.replaced).refreshTable k
      else (0, s.updTable k GTable.replaced) := by
  simp only [State.publishTable, h, hd, hch, Bool.not_true, Bool.or_self, Bool.false_eq_true, if_false]
  rfl

/-- The publication of a live table: its shadow is published; the bank replaced is refreshed at once, or, while a walk is on
it, stays as it was. -/
theorem State.publishTable_spec (h : s.liveTable k = some tb) (hd : tb.draining = false) (hch : tb.changed = true) :
    (s.publishTable k).2.gtable k = some { tb with
      generation := (tb.generation + 1) % 2 ^ 32, published := tb.second,
      second := if tb.walks = [] then tb.second else tb.published, draining := ! tb.walks.isEmpty, changed := false,
      walks := [], drainWalks := tb.walks } ∧
    (s.publishTable k).2.mem = s.mem ∧ (s.publishTable k).2.tally = s.tally ∧ (s.publishTable k).2.cmd = s.cmd := by
  obtain ⟨htable, hlive⟩ := State.liveTable_eq_some.1 h
  have hreplaced : (s.updTable k GTable.replaced).gtable k = some tb.replaced :=
    State.gtable_updTable_same (fun _ => rfl) htable
  rw [State.publishTable_of_changed htable hd hch]
  by_cases hw : tb.walks = []
  · have hrefreshed : ((s.updTable k GTable.replaced).updTable k GTable.refreshed).gtable k = some tb.replaced.refreshed :=
      State.gtable_updTable_same (fun _ => rfl) hreplaced
    rw [hw, List.isEmpty_nil, if_pos rfl, State.refreshTable_of_live hreplaced hlive]
    exact ⟨hrefreshed, rfl, rfl, rfl⟩
  · have hsome : tb.walks.isEmpty = false := by simpa using hw
    rw [hsome, if_neg Bool.false_ne_true, if_neg hw]
    exact ⟨hreplaced, rfl, rfl, rfl⟩

/-- The publication of one table with a changed shadow counts one. -/
theorem State.publishTables_one (h : s.gtable k = some tb) (hd : tb.draining = false) (hch : tb.changed = true) :
    s.publishTables [k] = (1, (s.publishTable k).2) := by
  simp [State.publishTables, h, hd, hch, ofBool]

theorem exec_galleyPublish_of_one (h : s.Ready n 0x0605 c) (hb : s.Begins c) (hs : s.attn.store.isSome = true)
    (hcount : c.par 40 4 = 1) (hfirst : c.par 36 4 < 65536) (ht : s.liveTable (c.par 36 4) = some tb)
    (hd : tb.draining = false) (hch : tb.changed = true) : exec (.galleyPublish n) s =
      .next ((s.publishTable (c.par 36 4)).2.finish n
        (Outcome.ok (resultOf 0 0 0 ((tb.generation + 1) % 2 ^ 32) 1 0))) := by
  have hstore : s.attn.store.isNone = false := by rw [← Option.not_isSome, hs, Bool.not_true]
  have hrange : (List.range (1 % 65537)).map (c.par 36 4 + ·) = [c.par 36 4] := rfl
  have hlive : ¬ (1 = 0 ∨ 65536 < c.par 36 4 + 1 ∨ [c.par 36 4].any (fun k => (s.liveTable k).isNone) = true) := by
    simp [ht]
    omega
  obtain ⟨hpublished, -⟩ := State.publishTable_spec ht hd hch
  rw [exec_galleyPublish, execGalleyPublish, h.work hb]
  simp only [hcount, hrange, hstore, Bool.false_eq_true, if_false, hlive,
    State.publishTables_one (State.liveTable_eq_some.1 ht).1 hd hch, hpublished, h.id]
  rfl

/-! ### WALK_END (R153) -/

/-- A table as one walk of command `n` on its published bank ends. -/
def GTable.walkEnded (n : Nat) (x : GTable) : GTable := if n ∈ x.walks then { x with walks := x.walks.erase n } else x

theorem GTable.walkEnded_number : (x.walkEnded n).number = x.number := by
  unfold GTable.walkEnded
  split <;> rfl

/-- A state with other tables. -/
def State.withTables (s : State) (l : List GTable) : State := { s with attn := { s.attn with tables := l } }

/-- A change of the one table with its number. -/
theorem State.updTable_at {w : GTable → GTable} {pre post : List GTable} (hs : s.attn.tables = pre ++ x :: post)
    (hd : ((pre ++ x :: post).map (·.number)).Nodup) : s.updTable x.number w = s.withTables (pre ++ w x :: post) := by
  rw [List.map_append, List.map_cons, List.nodup_middle, List.nodup_cons, List.mem_append, not_or] at hd
  obtain ⟨⟨hpre, hpost⟩, -⟩ := hd
  have hfixed : ∀ l : List GTable, x.number ∉ l.map (·.number) →
      (l.map fun y => if y.number = x.number then w y else y) = l := by
    intro l hl
    refine (List.map_congr_left fun y hy => if_neg fun h => hl ?_).trans (List.map_id' l)
    exact h ▸ List.mem_map_of_mem hy
  rw [State.updTable, hs, List.map_append, List.map_cons, if_pos rfl, hfixed pre hpre, hfixed post hpost, State.withTables]

/-- A walk of command `n` ends on one table, on its published bank or on its DRAINING one. -/
def State.endWalkOn (n : Nat) (s : State) (x : GTable) : State :=
  if x.walks.contains n then s.updTable x.number fun y => { y with walks := y.walks.erase n }
  else if x.drainWalks.contains n then
    let s := s.updTable x.number fun y => { y with drainWalks := y.drainWalks.erase n }
    if x.drainWalks.length = 1 then (s.refreshTable x.number).2 else s
  else s

theorem State.endWalk_eq_foldl : s.endWalk n = s.attn.tables.foldl (State.endWalkOn n) s := rfl

/-- A walk ends on one table, whose DRAINING bank the command is not on. -/
theorem State.endWalkOn_published {pre post : List GTable} (hs : s.attn.tables = pre ++ x :: post)
    (hd : ((pre ++ x :: post).map (·.number)).Nodup) (hno : n ∉ x.drainWalks) :
    s.endWalkOn n x = s.withTables (pre ++ x.walkEnded n :: post) := by
  by_cases hw : n ∈ x.walks
  · rw [State.endWalkOn, if_pos (List.contains_iff_mem.2 hw), State.updTable_at hs hd, GTable.walkEnded, if_pos hw]
  · rw [State.endWalkOn, if_neg (by simpa using hw), if_neg (by simpa using hno), GTable.walkEnded, if_neg hw, ← hs,
      State.withTables]

/-- A walk ends on each of some tables, one after another: the numbers of the tables are apart, so that none is met twice. -/
theorem State.endWalkOn_foldl {pre post : List GTable} (hs : s.attn.tables = pre ++ post)
    (hd : ((pre ++ post).map (·.number)).Nodup) (hno : ∀ x ∈ post, n ∉ x.drainWalks) :
    post.foldl (State.endWalkOn n) s = s.withTables (pre ++ post.map (GTable.walkEnded n)) := by
  induction post generalizing s pre with
  | nil => rw [List.foldl_nil, List.map_nil, ← hs, State.withTables]
  | cons x post ih =>
    obtain ⟨hx, hpost⟩ := List.forall_mem_cons.1 hno
    have hnumbers : ((pre ++ [x.walkEnded n] ++ post).map (·.number)).Nodup := by
      simpa [GTable.walkEnded_number] using hd
    rw [List.foldl_cons, State.endWalkOn_published hs hd hx,
      ih (pre := pre ++ [x.walkEnded n]) (by simp [State.withTables]) hnumbers hpost, List.map_cons, List.append_assoc,
      List.singleton_append]
    rfl

/-- WALK_END of a command that is on no DRAINING bank. -/
theorem exec_walkEnd_of_published (hn : s.cmdOf n = some c) (hmay : s.walkMayEnd c = true)
    (hd : (s.attn.tables.map (·.number)).Nodup) (hno : ∀ x ∈ s.attn.tables, n ∉ x.drainWalks) :
    exec (.walkEnd n) s = .next (s.withTables (s.attn.tables.map (GTable.walkEnded n))) := by
  rw [exec_walkEnd, execWalkEnd, hn]
  simp only [hmay, if_true, State.endWalk_eq_foldl]
  exact congrArg Host.Outcome.next (State.endWalkOn_foldl (pre := []) rfl hd hno)

/-! ### VERIFY_TREE (R173, R174) -/

/-- The checks of a list all pass. -/
theorem firstFault_eq_none {l : List (Bool × Nat)} : firstFault l = none ↔ ∀ x ∈ l, x.1 = false := by
  simp [firstFault, List.find?_eq_none]

/-- A tree that passes its checks works on live tables. -/
theorem State.gtable_of_treeFault (h : s.treeFault c = none) (hk : k ∈ shadowTables c) : (s.gtable k).isSome = true := by
  rw [State.treeFault, firstFault_eq_none] at h
  have hlive := h _ (List.mem_cons_of_mem _ (List.mem_cons_of_mem _ List.mem_cons_self))
  simp only [Bool.or_eq_false_iff, List.any_eq_false, Option.isNone_iff_eq_none] at hlive
  obtain ⟨-, htables⟩ := hlive
  obtain ⟨tb, htb⟩ := Option.ne_none_iff_exists'.1 (htables k hk)
  exact Option.isSome_iff_exists.2 ⟨tb, (State.liveTable_eq_some.1 htb).1⟩

/-- An accepted path takes one step for each unit of fuel at most. -/
theorem acceptPath_length {masks cand tgt path : List Nat} {fuel : Nat} {cur : Option Nat} :
    (acceptPath masks cand tgt fuel cur path).length ≤ path.length + fuel := by
  induction fuel generalizing cur path with
  | zero => exact le_rfl
  | succ fuel ih =>
    unfold acceptPath
    dsimp only
    split
    · omega
    · exact ih.trans (by simp only [List.length_append, List.length_singleton]; omega)

/-- A path of the first candidates in order pairs each with its own place. -/
theorem zipIdx_range : (List.range m).zipIdx = (List.range m).map fun i => (i, i) := by
  refine List.ext_getElem (by simp) fun i _ _ => ?_
  simp

/-- Candidates that stand in place are not moved. -/
theorem verifyTable_inPlace {d base : Nat} (h : (e.s.gtable k).isSome = true) :
    verifyTable d base (List.range m) e k = some e := by
  obtain ⟨tb, ht⟩ := Option.isSome_iff_exists.1 h
  simp only [verifyTable, ht, zipIdx_range, List.foldl_map, if_true, List.foldl_fixed]

theorem verifyTables_inPlace {d base : Nat} (h : ∀ i ∈ l, (e.s.gtable i).isSome = true) :
    l.foldl (fun o i => o.bind fun e => verifyTable d base (List.range m) e i) (some e) = some e := by
  induction l with
  | nil => rfl
  | cons i l ih =>
    obtain ⟨hi, hl⟩ := List.forall_mem_cons.1 h
    rw [List.foldl_cons, Option.bind_some, verifyTable_inPlace hi, ih hl]

/-- A table whose shadow is cut to a length. -/
def GTable.cutTo (len : Nat) (x : GTable) : GTable :=
  { x with second := x.second.cut len, changed := x.changed || decide (x.second.length ≠ len) }

/-- Tables cut to a length. -/
def State.cutTables (s : State) (l : List Nat) (len : Nat) : State := l.foldl (fun s i => s.updTable i (GTable.cutTo len)) s

/-- The length of a shadow after a cut of some tables. -/
theorem State.gtable_cutTables {len : Nat} (h : (s.gtable k).map (·.second.length) = some m) :
    ((s.cutTables l len).gtable k).map (·.second.length) = some (if k ∈ l then len else m) := by
  unfold State.cutTables
  induction l generalizing s m with
  | nil => simpa using h
  | cons i l ih =>
    obtain ⟨tb, ht, hlen⟩ := Option.map_eq_some_iff.1 h
    have hnumber := State.gtable_number ht
    rw [List.foldl_cons, ih (m := if k = i then len else m)]
    · by_cases hki : k = i <;> simp [hki]
    · rw [State.gtable_updTable (f := GTable.cutTo len) fun _ => rfl, ht, Option.map_some, Option.map_some, hnumber]
      by_cases hki : k = i
      · simp [hki, GTable.cutTo, Bank.cut]
      · simp [hki, hlen]

/-- Tables cut, and the galleys they let go given back, leave memory, tallies and commands. -/
theorem State.reclaim_cutTables_fields {len : Nat} : (s.cutTables l len).reclaim.2.mem = s.mem ∧
    (s.cutTables l len).reclaim.2.tally = s.tally ∧ (s.cutTables l len).reclaim.2.cmd = s.cmd := by
  obtain ⟨-, hmem, htally, hcmd⟩ := State.reclaim_fields (s := s.cutTables l len)
  exact ⟨hmem.trans (State.foldl_leaves State.mem (fun _ _ => by rfl) l),
    htally.trans (State.foldl_leaves State.tally (fun _ _ => by rfl) l),
    hcmd.trans (State.foldl_leaves State.cmd (fun _ _ => by rfl) l)⟩

/-- The path that VERIFY_TREE accepts (R173). -/
def State.treePath (s : State) (c : Cmd) : List Nat :=
  acceptPath (s.treeMasks (c.par 40 4) (c.par 52 1)) ((List.range (c.par 52 1)).map fun i => wordAt (s.named (c.par 44 4)) i 0)
    ((List.range (c.par 52 1 + 1)).map fun i => wordAt (s.named (c.par 48 4)) i 0) (c.par 52 1) none []

theorem State.treePath_length : (s.treePath c).length ≤ c.par 52 1 :=
  acceptPath_length.trans (by rw [List.length_nil, Nat.zero_add])

/-- VERIFY_TREE whose accepted candidates stand in place cuts its tables to their end. -/
theorem State.verify_inPlace {base : Nat} (hq : env.Quiet) (hc : s.Clean) (hf : s.treeFault c = none)
    (hpub : bit (c.par 53 1) 0 = 0) (hpath : s.treePath c = List.range k)
    (hlen : (s.gtable (c.par 32 4)).map (·.second.length) = some (base + c.par 52 1)) :
    s.verify env c = ((s.cutTables (shadowTables c) (base + k)).reclaim.2).finish c.id
      (Outcome.ok (resultOf 0 0 0 k (wordAt (s.named (c.par 48 4)) k 0) (base + k))) := by
  have hk : k ≤ c.par 52 1 := by
    calc
      k = (s.treePath c).length := by rw [hpath, List.length_range]
      _ ≤ c.par 52 1 := State.treePath_length
  obtain ⟨tb, ht, hbase⟩ := Option.map_eq_some_iff.1 hlen
  have hbase' : ((s.gtable (c.par 32 4)).map fun t => t.second.length - c.par 52 1).getD 0 = base := by
    rw [ht, Option.map_some, hbase, Option.getD_some, Nat.add_sub_cancel]
  have hmoved : ((List.range k).map fun i => (i, i)).countP (fun p => decide (p.1 ≠ p.2)) = 0 := by
    simp [List.countP_map, List.countP_eq_zero]
  rw [State.treePath] at hpath
  unfold State.verify
  simp only [State.corrections_quiet hq, State.envStop_quiet hq hc.poison hc.flaws, hpath, hbase', zipIdx_range, hmoved,
    verifyTables_inPlace (e := ⟨s, 0, 0⟩) fun i hi => State.gtable_of_treeFault hf hi, hpub, List.length_range]
  have hbonus : ((List.range (c.par 52 1 + 1)).map fun i => wordAt (s.named (c.par 48 4)) i 0).getD k 0 =
      wordAt (s.named (c.par 48 4)) k 0 := by
    simp [Nat.lt_succ_of_le hk]
  cases k with
  | zero =>
    rw [← hbonus]
    rfl
  | succ k =>
    have hlast : (List.range (k + 1)).getLast? = some k := by simp [List.getLast?_range]
    rw [← hbonus, hlast, ← Nat.add_comm 1 k]
    rfl

/-! ### Publications, walks and trees -/

/-- Settles O40: a publication changes one table and is refreshed at once with no walk on the bank replaced; WALK_END changes
each table by itself (log 52); candidates in place are not moved, so that a tree only cuts its tables. -/
theorem publicationKeepsWhatWalksRead : Obligations.PublicationKeepsWhatWalksRead := by
  unfold Obligations.PublicationKeepsWhatWalksRead
  intro s n c
  refine ⟨?publish, fun hn hmay hd hno => exec_walkEnd_of_published hn hmay hd hno, ?tree⟩
  case publish =>
    intro tb hbegins h hs hcount hfirst ht hd hch
    obtain ⟨htable, hmem, htally, hcmd⟩ := State.publishTable_spec ht hd hch
    exact ⟨_, exec_galleyPublish_of_one h hbegins hs hcount hfirst ht hd hch,
      State.finish_ended ((State.cmdOf_congr hcmd).trans h.found), htable, hmem, htally⟩
  case tree =>
    intro k base env hq hc hbegins h hf hs hpub hpath hlen
    obtain rfl := h.id
    obtain ⟨hmem, htally, hcmd⟩ := State.reclaim_cutTables_fields (s := s) (l := shadowTables c) (len := base + k)
    have hcut : ∀ i ∈ shadowTables c,
        ((s.cutTables (shadowTables c) (base + k)).reclaim.2.gtable i).map (·.second.length) = some (base + k) := by
      intro i hi
      obtain ⟨tb, ht⟩ := Option.isSome_iff_exists.1 (State.gtable_of_treeFault hf hi)
      have hlen : (s.gtable i).map (·.second.length) = some tb.second.length := by rw [ht, Option.map_some]
      rw [State.gtable_congr State.reclaim_fields.1, State.gtable_cutTables hlen, if_pos hi]
    refine ⟨_, exec_verifyTree_of_ready h hbegins hf hs, ?_⟩
    rw [State.verify_inPlace hq hc hf hpub hpath hlen]
    generalize (s.cutTables (shadowTables c) (base + k)).reclaim.2 = v at hmem htally hcmd hcut ⊢
    exact ⟨State.finish_ended ((State.cmdOf_congr hcmd).trans h.found), hcut, hmem, htally⟩

end Sys2Proof.Machine
end

section
/-! SUPPORT and PROOF. How the attention commands end, and RING_ATTENTION while steps land (06 R160, R169, R176 to R178). -/

namespace Sys2Proof.Machine

variable {s t u v : State} {n k gen : Nat} {c : Cmd} {env : Env} {x : GTable} {b : Bank} {landed ring : List RingStep}

theorem exec_attnForward (n : Nat) (env : Env) (s : State) : exec (.attnForward n env) s = execAttnForward n env s := rfl

theorem exec_attnBackward (n : Nat) (env : Env) (s : State) : exec (.attnBackward n env) s = execAttnBackward n env s := rfl

theorem exec_ringAttention (n : Nat) (env : Env) (landed : List RingStep) (s : State) :
    exec (.ringAttention n env landed) s = execRingAttention n env landed s := rfl

/-! ### The operands of an attention command (Tables 6.6, 6.7) -/

/-- The tensors of a forward pass can be used, and for a backward pass those of a backward pass. -/
structure State.AttnOperands (s : State) (c : Cmd) : Prop where
  query : (s.readable c (c.par 32 4)).isSome = true
  output : (s.tensor (c.par 40 4)).isSome = true
  stats : (s.tensor (c.par 44 4)).isSome = true
  back : c.backward = true → (∀ i ∈ [40, 44, 144], (s.readable c (c.par i 4)).isSome = true) ∧
    ∀ i ∈ [144, 148, 152, 156], (s.tensor (c.par i 4)).isSome = true

/-- A command with no error of its tables has its operands. -/
theorem State.attnOperands_of_attnFault (h : s.attnFault c = none) : s.AttnOperands c := by
  unfold State.attnFault at h
  split at h
  case h_2 => cases h
  case h_1 q o st hq ho hst =>
    refine ⟨by rw [hq]; rfl, by rw [ho]; rfl, by rw [hst]; rfl, fun hback => ?_⟩
    have hfirst := firstFault_eq_none.1 h _ List.mem_cons_self
    simp only [Bool.or_eq_false_iff, hback, Bool.true_and, List.any_eq_false, Bool.not_eq_true', Bool.not_eq_false]
      at hfirst
    obtain ⟨⟨-, hthere⟩, hread⟩ := hfirst
    exact ⟨fun i hi => Option.isSome_iff_ne_none.2 (by simpa using hread i hi), hthere⟩

/-! ### The passes -/

theorem State.attnForward_calm_all {q o st : Tensor} {d nkb : Nat} {blocks : List KeyBlock} (m : Nat) :
    Calm m s (s.attnForward c q o st d nkb blocks).1 :=
  Calm.foldl_fst (Calm.refl s) fun _ _ hu => State.outputRow_calm hu

theorem State.backWrites_calm_all {q dq dk dv : Tensor} {d kv len : Nat} {rows : List BackRow}
    {ksum vsum : Nat → Nat → Nat → Flags → VF} {f : Flags} (m : Nat) :
    Calm m s (s.backWrites c q dq dk dv d kv len rows ksum vsum f).1 :=
  State.backWrites_calm (c := { c with id := m }) rfl (Calm.refl s)

/-- A forward pass with its operands and its space works in the engines alone, and then writes its elements. -/
theorem State.attnForwardCmd_eq_complete (ho : s.AttnOperands c) (hheld : s.heldBank c (c.par 36 2) = some (x, b, gen))
    (hu : s.takeSaves c = some u) : ∃ v l code empty, (∀ m, Calm m u v) ∧ s.attnForwardCmd env c ring =
      v.complete env c 0x010D l (Outcome.ok (resultOf code 0 0 empty gen b.length)) := by
  obtain ⟨q, hq⟩ := Option.isSome_iff_exists.1 ho.query
  obtain ⟨o, ho'⟩ := Option.isSome_iff_exists.1 ho.output
  obtain ⟨st, hst⟩ := Option.isSome_iff_exists.1 ho.stats
  simp only [State.attnForwardCmd, hq, ho', hst, hheld, State.withSaves, hu]
  exact ⟨_, _, _, _, fun m => State.addWrap_calm ArithReg.emptyRows (State.attnFlags_calm
    (State.attnForward_calm_all m)), rfl⟩

/-- A backward pass likewise. -/
theorem State.attnBackwardCmd_eq_complete (ho : s.AttnOperands c) (hback : c.backward = true)
    (hheld : s.heldBank c (c.par 36 2) = some (x, b, gen)) (hu : s.takeSaves c = some u) :
    ∃ v l code empty, (∀ m, Calm m u v) ∧ s.attnBackwardCmd env c ring =
      v.complete env c 0x010D l (Outcome.ok (resultOf code 0 0 empty gen b.length)) := by
  obtain ⟨hread, hthere⟩ := ho.back hback
  obtain ⟨q, hq⟩ := Option.isSome_iff_exists.1 ho.query
  obtain ⟨o, ho'⟩ := Option.isSome_iff_exists.1 (hread 40 (by simp))
  obtain ⟨st, hst⟩ := Option.isSome_iff_exists.1 (hread 44 (by simp))
  obtain ⟨g, hg⟩ := Option.isSome_iff_exists.1 (hread 144 (by simp))
  obtain ⟨dq, hdq⟩ := Option.isSome_iff_exists.1 (hthere 148 (by simp))
  obtain ⟨dk, hdk⟩ := Option.isSome_iff_exists.1 (hthere 152 (by simp))
  obtain ⟨dv, hdv⟩ := Option.isSome_iff_exists.1 (hthere 156 (by simp))
  simp only [State.attnBackwardCmd, hq, ho', hst, hheld, hg, hdq, hdk, hdv, State.withSaves, hu]
  exact ⟨_, _, _, _, fun m => State.attnFlags_calm (State.backWrites_calm_all m), rfl⟩

/-- The pass of a command: backward, or forward. -/
def State.attnPass (s : State) (env : Env) (c : Cmd) (ring : List RingStep) : State :=
  if c.backward then s.attnBackwardCmd env c ring else s.attnForwardCmd env c ring

/-- A pass ends OK; RESULT gives the generation and the length of the bank held. -/
theorem State.attnPass_ended (hq : env.Quiet) (hc : s.Clean) (hn : s.cmdOf n = some c) (ho : s.AttnOperands c)
    (hheld : s.heldBank c (c.par 36 2) = some (x, b, gen)) (hu : (s.takeSaves c).isSome = true) : ∃ code empty,
    (s.attnPass env c ring).Ended n (Outcome.ok (resultOf code 0 0 empty gen b.length)) := by
  obtain ⟨u, hu⟩ := Option.isSome_iff_exists.1 hu
  have hcomplete : ∃ v l code empty, (∀ m, Calm m u v) ∧ s.attnPass env c ring =
      v.complete env c 0x010D l (Outcome.ok (resultOf code 0 0 empty gen b.length)) := by
    unfold State.attnPass
    split
    case isTrue hback => exact State.attnBackwardCmd_eq_complete ho hback hheld hu
    case isFalse => exact State.attnForwardCmd_eq_complete ho hheld hu
  obtain ⟨v, l, code, empty, hcalm, heq⟩ := hcomplete
  exact ⟨code, empty, heq ▸ State.ended_of_saves hq hc hn hu hcalm⟩

theorem exec_attnForward_of_ready (h : s.Ready n 0x0601 c) (hb : s.Begins c) (hf : s.attnFault c = none) :
    exec (.attnForward n env) s = .next (s.attnPass env c []) := by
  have hback : c.backward = false := by simp [Cmd.backward, h.opcode]
  rw [exec_attnForward, execAttnForward, h.work hb, hf, State.attnPass, hback]
  rfl

theorem exec_attnBackward_of_ready (h : s.Ready n 0x0602 c) (hb : s.Begins c) (hf : s.attnFault c = none) :
    exec (.attnBackward n env) s = .next (s.attnPass env c []) := by
  have hback : c.backward = true := by simp [Cmd.backward, h.opcode]
  rw [exec_attnBackward, execAttnBackward, h.work hb, hf, State.attnPass, hback]
  rfl

/-! ### What sending leaves -/

/-- Sending a frame on a link, or by its route, changes only the links and their traffic counters. -/
theorem ifpSendVia_same (via : Option Nat) (node cls typ msgId : Nat) (last : Bool) (addr aux : Nat) (d : List Byte)
    (p : IfpPurpose) : SameButLinks s (State.ifpSendVia via s node cls typ msgId last addr aux d p) := by
  cases via with
  | none => exact ifpSend_same node cls typ msgId last addr aux d p
  | some l =>
    unfold State.ifpSendVia
    exact ((linkSend_same _ _).trans (SameButLinks.fab _)).trans (ackCarried_same _ _)

theorem schedFrames_same (via : Option Nat) (node cls msgId addr aux : Nat) (p : IfpPurpose) (fuel : Nat) (s : State)
    (d : List Byte) : SameButLinks s (State.schedFrames via node cls msgId addr aux p fuel s d) := by
  induction fuel generalizing s d with
  | zero => exact .refl s
  | succ fuel ih =>
    unfold State.schedFrames
    split
    · exact ifpSendVia_same _ _ _ _ _ _ _ _ _ _
    · exact (ifpSendVia_same _ _ _ _ _ _ _ _ _ _).trans (ih _ _)

/-- Two states in which a command of attention finds the same operands, space and banks: as they are before and after steps
of a ring are kept and sent on. -/
structure PassAlike (s t : State) : Prop where
  mem : t.mem = s.mem
  cmd : t.cmd = s.cmd
  tens : t.tens = s.tens
  imp : t.imp = s.imp
  tables : t.attn.tables = s.attn.tables

theorem PassAlike.refl (s : State) : PassAlike s s := ⟨rfl, rfl, rfl, rfl, rfl⟩

theorem PassAlike.trans (h : PassAlike s t) (h' : PassAlike t u) : PassAlike s u :=
  ⟨h'.mem.trans h.mem, h'.cmd.trans h.cmd, h'.tens.trans h.tens, h'.imp.trans h.imp, h'.tables.trans h.tables⟩

theorem PassAlike.of_links (h : SameButLinks s t) : PassAlike s t :=
  ⟨h.mem, h.cmd, h.tens, h.imp, congrArg AttnSt.tables h.attn⟩

theorem PassAlike.foldl {α : Type} {f : State → α → State} (hf : ∀ u a, PassAlike u (f u a)) (l : List α) (s : State) :
    PassAlike s (l.foldl f s) := by
  induction l generalizing s with
  | nil => exact .refl s
  | cons a l ih => exact (hf s a).trans (ih _)

/-- A message to a member of a group is noted in the Collator; its frames change only the links and their traffic counters. -/
theorem collSend_same (axis rank : Nat) (m : CollMsg) :
    SameButLinks { s with coll := { s.coll with out := s.coll.out ++ [(rank, axis, m)] } } (s.collSend axis rank m) := by
  unfold State.collSend State.collSendVia
  dsimp only
  split
  · exact (SameButLinks.fab _).trans (schedFrames_same _ _ _ _ _ _ _ _ _ _)
  · exact ifpMessage_same _ _ _ _ _ _ _

theorem collSend_alike (axis rank : Nat) (m : CollMsg) : PassAlike s (s.collSend axis rank m) :=
  PassAlike.trans (t := { s with coll := { s.coll with out := s.coll.out ++ [(rank, axis, m)] } })
    ⟨rfl, rfl, rfl, rfl, rfl⟩ (PassAlike.of_links (collSend_same axis rank m))

theorem collSend_attn (axis rank : Nat) (m : CollMsg) : (s.collSend axis rank m).attn = s.attn :=
  (collSend_same axis rank m).attn

/-! ### What a pass finds in states alike -/

/-- The second of two states alike is itself with the parts of the first. -/
theorem PassAlike.eq (h : PassAlike s t) :
    t = { t with
      mem := s.mem, cmd := s.cmd, tens := s.tens, imp := s.imp, attn := { t.attn with tables := s.attn.tables } } := by
  rw [← h.mem, ← h.cmd, ← h.tens, ← h.imp, ← h.tables]

theorem PassAlike.readable (h : PassAlike s t) : t.readable c k = s.readable c k := by rw [h.eq]; rfl

theorem PassAlike.tensor (h : PassAlike s t) : t.tensor k = s.tensor k := by rw [h.eq]; rfl

theorem PassAlike.heldBank (h : PassAlike s t) : t.heldBank c k = s.heldBank c k := by rw [h.eq]; rfl

theorem PassAlike.cmdOf (h : PassAlike s t) : t.cmdOf n = s.cmdOf n := State.cmdOf_congr h.cmd

theorem PassAlike.clean (h : PassAlike s t) (hc : s.Clean) : t.Clean := ⟨h.mem ▸ hc.poison, h.mem ▸ hc.flaws⟩

theorem PassAlike.attnOperands (h : PassAlike s t) (ho : s.AttnOperands c) : t.AttnOperands c := by
  obtain ⟨hquery, houtput, hstats, hback⟩ := ho
  exact ⟨h.readable ▸ hquery, h.tensor ▸ houtput, h.tensor ▸ hstats, fun hb =>
    ⟨fun i hi => h.readable ▸ (hback hb).1 i hi, fun i hi => h.tensor ▸ (hback hb).2 i hi⟩⟩

theorem PassAlike.saveFits (h : PassAlike s t) {w : Tensor} : t.saveFits w = s.saveFits w := by rw [h.eq]; rfl

/-- The saves that RING_ATTENTION writes. -/
theorem PassAlike.savesToTake (h : PassAlike s t) (hop : c.opcode = 0x0607) : t.savesToTake c = s.savesToTake c := by
  simp only [State.savesToTake, State.writes, hop, h.tens]

theorem PassAlike.takeSave (h : PassAlike s t) : PassAlike (s.takeSave k) (t.takeSave k) := by
  rw [h.eq]
  simp only [State.takeSave, State.dropImage, State.declared]
  split <;> exact ⟨rfl, rfl, rfl, rfl, rfl⟩

/-- The saves of RING_ATTENTION find space in both states alike, or in neither. -/
theorem PassAlike.takeSaves (h : PassAlike s t) (hop : c.opcode = 0x0607) :
    Option.Rel PassAlike (s.takeSaves c) (t.takeSaves c) := by
  unfold State.takeSaves
  rw [h.savesToTake hop]
  refine List.foldl_rel (Option.Rel.some h) fun w _ o o' hrel => ?_
  cases hrel with
  | none => exact .none
  | some hst =>
    dsimp only
    rw [hst.saveFits]
    split
    exacts [.some hst.takeSave, .none]

theorem PassAlike.takeSaves_isSome (h : PassAlike s t) (hop : c.opcode = 0x0607) (hs : (s.takeSaves c).isSome = true) :
    (t.takeSaves c).isSome = true := by
  have hrel := h.takeSaves hop
  generalize s.takeSaves c = o at hs hrel
  generalize t.takeSaves c = o' at hrel ⊢
  cases hrel with
  | none => exact hs
  | some _ => rfl

/-! ### RING_ATTENTION (R176 to R178) -/

/-- A state with the steps kept for a command. -/
def State.withRing (s : State) (n : Nat) (steps : List RingStep) : State :=
  { s with attn := { s.attn with
    ring := (s.attn.ring.filter fun (x : Nat × RingStep) => x.1 ≠ n) ++ steps.map fun r => (n, r) } }

theorem State.ringSteps_withRing : (s.withRing n ring).ringSteps n = ring := by
  simp [State.ringSteps, State.withRing, List.filter_filter, List.filter_map, Function.comp_def]

theorem State.ringSteps_congr (h : t.attn = s.attn) : t.ringSteps n = s.ringSteps n := by
  rw [State.ringSteps, h, State.ringSteps]

theorem State.withRing_alike : PassAlike s (s.withRing n ring) := ⟨rfl, rfl, rfl, rfl, rfl⟩

theorem ringForward_alike {d kv : Nat} {ps : List Partial} : PassAlike s (s.ringForward c d kv b ring ps k) :=
  collSend_alike _ _ _

theorem ringForward_attn {d kv : Nat} {ps : List Partial} : (s.ringForward c d kv b ring ps k).attn = s.attn :=
  collSend_attn _ _ _

/-- The steps that a RING_ATTENTION has with those that land now. -/
def State.ringHas (s : State) (c : Cmd) (landed : List RingStep) : List RingStep :=
  (s.ringSteps c.id ++ landed).take c.ringNeeds

/-- With its route, a ring keeps the steps that landed and forwards them; it waits for more, or makes its pass. -/
theorem State.ringGoesOn_of_route (hlost : env.lost = false) : ∃ v last, PassAlike s v ∧
    v.ringSteps c.id = s.ringHas c landed ∧ s.ringGoesOn env c landed =
      if (s.ringHas c landed).length < c.ringNeeds then v.park c.id [22, last] else v.attnPass env c (s.ringHas c landed) := by
  have hkept : PassAlike s (s.withRing c.id (s.ringHas c landed)) := State.withRing_alike
  have hsteps : (s.withRing c.id (s.ringHas c landed)).ringSteps c.id = s.ringHas c landed := State.ringSteps_withRing
  unfold State.ringGoesOn
  simp only [hlost, Bool.false_eq_true, false_and, if_false]
  refine ⟨_, _, hkept.trans ?alike, (State.ringSteps_congr ?attn).trans hsteps, rfl⟩
  case alike =>
    split
    · exact .refl _
    · exact PassAlike.foldl (fun _ _ => ringForward_alike) _ _
  case attn =>
    split
    · rfl
    · exact State.foldl_leaves State.attn (fun _ _ => ringForward_attn) _

/-- With its route lost, a ring ends ABORTED, RING_LOST. -/
theorem State.ringGoesOn_of_lost (hlost : env.lost = true) (hsize : 1 < c.ringSize) :
    s.ringGoesOn env c landed = s.finish c.id (Outcome.aborted 0x010E) := if_pos ⟨hlost, hsize⟩

/-- A RING_ATTENTION that begins, or has waited for steps, goes on. -/
theorem exec_ringAttention_goesOn
    (h : s.Ready n 0x0607 c ∨ s.Waits n c ∧ c.opcode = 0x0607 ∧ c.aux.head? = some 22) (hb : s.Begins c)
    (hf : s.attnFault c = none) : exec (.ringAttention n env landed) s = .next (s.ringGoesOn env c landed) := by
  rw [exec_ringAttention, execRingAttention]
  obtain h | ⟨h, hop, haux⟩ := h
  · have hphase : ¬ (c.phase = .waiting ∧ c.opcode = 0x0607 ∧ c.aux.head? = some 22) := by simp [h.phase]
    simp only [h.found, hphase, if_false, h.work hb, hf]
  · simp only [h.found, h.phase, hop, haux, and_self, if_true, h.resume]

/-! ### The attention commands -/

/-- Settles O38: a pass works in the engines alone and ends as it writes its elements; the steps of a ring, kept and sent on,
change nothing that a pass needs. -/
theorem attentionCommandsComplete : Obligations.AttentionCommandsComplete := by
  unfold Obligations.AttentionCommandsComplete
  intro s n gen c env x b _ hq hc hbegins hf hsaves hheld
  have hops := State.attnOperands_of_attnFault hf
  refine ⟨?passes, fun h landed => ?ring⟩
  case passes =>
    intro i hrow
    obtain ⟨hn, hexec⟩ : s.cmdOf n = some c ∧ exec i s = .next (s.attnPass env c []) := by
      obtain ⟨h, rfl⟩ | ⟨h, rfl⟩ := hrow
      exacts [⟨h.found, exec_attnForward_of_ready h hbegins hf⟩, ⟨h.found, exec_attnBackward_of_ready h hbegins hf⟩]
    obtain ⟨code, empty, hend⟩ := State.attnPass_ended (ring := []) hq hc hn hops hheld hsaves
    exact ⟨_, code, empty, hexec, hend⟩
  case ring =>
    obtain ⟨hn, hop⟩ : s.cmdOf n = some c ∧ c.opcode = 0x0607 := by
      obtain h | ⟨h, hop, -⟩ := h
      exacts [⟨h.found, h.opcode⟩, ⟨h.found, hop⟩]
    obtain rfl : c.id = n := State.cmdOf_id hn
    rw [exec_ringAttention_goesOn h hbegins hf]
    refine ⟨fun hroute henough => ?pass, fun hroute hfew => ?waits, fun hlost hsize => ?lost⟩
    case pass =>
      obtain ⟨v, last, halike, -, heq⟩ := State.ringGoesOn_of_route (s := s) (c := c) (landed := landed) hroute
      have hall : ¬ (s.ringHas c landed).length < c.ringNeeds := by
        simpa [State.ringHas] using henough
      obtain ⟨code, empty, hend⟩ := State.attnPass_ended (ring := s.ringHas c landed) hq (halike.clean hc)
        (halike.cmdOf.trans hn) (halike.attnOperands hops) (halike.heldBank.trans hheld) (halike.takeSaves_isSome hop hsaves)
      rw [heq, if_neg hall]
      exact ⟨_, code, empty, rfl, hend⟩
    case waits =>
      obtain ⟨v, last, halike, hsteps, heq⟩ := State.ringGoesOn_of_route (s := s) (c := c) (landed := landed) hroute
      have hhas : s.ringHas c landed = s.ringSteps c.id ++ landed :=
        List.take_of_length_le (by rw [List.length_append]; exact hfew.le)
      rw [heq, hhas, List.length_append, if_pos hfew]
      refine ⟨_, rfl, halike.tens, ?_, hsteps.trans hhas⟩
      rw [State.cmdOf_park (halike.cmdOf.trans hn)]
      rfl
    case lost => rw [State.ringGoesOn_of_lost hlost hsize]

end Sys2Proof.Machine
end

section
/-! SUPPORT and PROOF. The backward commands, their deferral, and the commands that waited for them or for a save (07 R188, R189,
R191, R194, R195, R200). -/

namespace Sys2Proof.Machine

variable {s u v : State} {n k j e count stale : Nat} {c : Cmd} {env : Env} {o g w x dy : Tensor} {l : List Write}

theorem exec_backwardInput (n : Nat) (env : Env) (s : State) : exec (.backwardInput n env) s = execBackwardInput n env s := rfl

theorem exec_backwardWeight (n : Nat) (env : Env) (s : State) :
    exec (.backwardWeight n env) s = execBackwardWeight n env s := rfl

theorem exec_deferredPass (env : Env) (s : State) : exec (.deferredPass env) s = execDeferredPass env s := rfl

theorem exec_wgradReaderResume (n : Nat) (s : State) : exec (.wgradReaderResume n) s = execWgradReaderResume n s := rfl

theorem exec_saveWriteResume (n : Nat) (s : State) : exec (.saveWriteResume n) s = execSaveWriteResume n s := rfl

/-! ### What the dispatch latched -/

/-- A body that the dispatch refused ends BAD_PARAM. -/
theorem State.latched_of_refused {d : Nat} {f : State → State} (h : c.latch.extra = [1, d]) :
    s.latched c f = s.finish c.id (Outcome.bad d) := by simp only [State.latched, h]

/-- A body that the dispatch did not refuse runs. -/
theorem State.latched_of_accepted {f : State → State} (h : ∀ d, c.latch.extra ≠ [1, d]) : s.latched c f = f s := by
  unfold State.latched
  split
  case h_1 d hd => exact absurd hd (h d)
  case h_2 => rfl

/-! ### BACKWARD_INPUT (R191) -/

/-- In its turn a BACKWARD_INPUT makes its passes, unless its dispatch refused it. -/
theorem exec_backwardInput_of_ready (h : s.Ready n 0x0701 c) (hb : s.Begins c) (ht : s.accTurn c = true) :
    exec (.backwardInput n env) s = .next (s.latched c fun s => s.backwardInput env c) := by
  rw [exec_backwardInput, execBackwardInput, h.work hb, if_pos ht]

/-- BACKWARD_INPUT with its operands and its space works in the engines alone, and then writes its elements. -/
theorem State.backwardInput_eq_complete (hdy : s.readable c (c.par 32 4) = some dy) (hw : s.tensor (c.par 36 4) = some w)
    (ho : s.tensor (if bit (c.par 54 1) 1 = 1 then c.par 48 4 else c.par 44 4) = some o) (hu : s.takeSaves c = some u) :
    ∃ v l code, (∀ m, Calm m u v) ∧ s.backwardInput env c =
      v.complete env c 0x010F l (Outcome.ok (resultOf code 0 0 (c.latch.extra.getD 1 0) 0 0)) := by
  simp only [State.backwardInput, hdy, hw, decide_eq_true_eq, ho, State.withSaves, hu]
  refine ⟨_, _, _, fun m => State.arraysUsed_calm (Calm.foldl_fst (Calm.refl u) fun a t ha => ?row), rfl⟩
  case row => exact Calm.ite_fst ha (State.outputRow_calm ha)

theorem State.backwardInput_ended (hq : env.Quiet) (hc : s.Clean) (hn : s.cmdOf n = some c)
    (hdy : s.readable c (c.par 32 4) = some dy) (hw : s.tensor (c.par 36 4) = some w)
    (ho : s.tensor (if bit (c.par 54 1) 1 = 1 then c.par 48 4 else c.par 44 4) = some o) (hu : s.takeSaves c = some u) :
    ∃ code, (s.backwardInput env c).Ended n (Outcome.ok (resultOf code 0 0 (c.latch.extra.getD 1 0) 0 0)) := by
  obtain ⟨v, l, code, hcalm, heq⟩ := State.backwardInput_eq_complete (env := env) hdy hw ho hu
  exact ⟨code, heq ▸ State.ended_of_saves hq hc hn hu hcalm⟩

/-! ### The elements of a weight gradient (R194) -/

/-- The code of element (k, j) of the weight gradient with the contribution of the whole pass, its tokens in the parts of
K_PARTS (log 140). -/
def State.gradCode (s : State) (c : Cmd) (dy x w g : Tensor) (k j : Nat) : Nat :=
  fp32.encode (gradElement (ArithMode.ofWord c.latch.mode) (s.kParts c) (decide (c.par 52 2 % 4096 = 0)) x dy (s.operand c x)
    (s.operand c dy) g.data w.width k j).1

/-- The write of that element. -/
def State.gradWrite (s : State) (c : Cmd) (dy x w g : Tensor) (k j : Nat) : Write :=
  ⟨g.handle, false, k * w.width + j, s.gradCode c dy x w g k j⟩

/-- The elements that a BACKWARD_WEIGHT writes. -/
def State.gradWrites (s : State) (c : Cmd) (dy x w g : Tensor) : List Write :=
  (List.range w.rows).flatMap fun k => (List.range w.width).map (s.gradWrite c dy x w g k)

/-- The writes of the weight gradient's elements, row after row, with the flags they raise. -/
def State.gradRun (s : State) (c : Cmd) (dy x w g : Tensor) : List Write × Flags :=
  (List.range w.rows).foldl (fun a k => (List.range w.width).foldl (fun a j =>
    (a.1 ++ [s.gradWrite c dy x w g k j], a.2.or (gradElement (ArithMode.ofWord c.latch.mode) (s.kParts c)
      (decide (c.par 52 2 % 4096 = 0)) x dy (s.operand c x) (s.operand c dy) g.data w.width k j).2)) a) ([], Flags.none)

/-- A fold whose steps append items each gathers the items of every step. -/
theorem foldl_gathers {α β ι : Type} {step : List α × β → ι → List α × β} {items : ι → List α}
    (h : ∀ a y, (step a y).1 = a.1 ++ items y) (ys : List ι) (a : List α × β) :
    (ys.foldl step a).1 = a.1 ++ ys.flatMap items := by
  induction ys generalizing a with
  | nil => simp
  | cons y ys ih => rw [List.foldl_cons, ih, h, List.append_assoc, List.flatMap_cons]

theorem State.gradRun_writes : (s.gradRun c dy x w g).1 = s.gradWrites c dy x w g :=
  foldl_gathers (fun a _ => foldl_collects (fun _ _ => rfl) _ a) _ ([], Flags.none)

theorem State.mem_gradWrites {y : Write} : y ∈ s.gradWrites c dy x w g ↔
    ∃ k < w.rows, ∃ j < w.width, s.gradWrite c dy x w g k j = y := by
  simp only [State.gradWrites, List.mem_flatMap, List.mem_map, List.mem_range]

/-- An element of the weight gradient after the writes: there is one write of it. -/
theorem State.codeAt_gradWrites (hg : Sparse.wf codeDefault g.data = true) (hk : k < w.rows) (hj : j < w.width) :
    codeAt (g.written (s.gradWrites c dy x w g)).data (k * w.width + j) = s.gradCode c dy x w g k j % 2 ^ 32 := by
  have hagree : ∀ y ∈ s.gradWrites c dy x w g, y.handle = g.handle → y.index = k * w.width + j →
      y.code % 2 ^ 32 = s.gradCode c dy x w g k j % 2 ^ 32 := by
    intro y hy _ hindex
    obtain ⟨k', _, j', hj', rfl⟩ := State.mem_gradWrites.1 hy
    obtain ⟨rfl, rfl⟩ := rowMajor_inj hj' hj hindex
    rfl
  rw [Tensor.codeAt_written hg hagree]
  exact if_pos ⟨_, State.mem_gradWrites.2 ⟨k, hk, j, hj, rfl⟩, rfl, rfl⟩

/-! ### Tensors that a command leaves -/

theorem State.tensor_mem (h : s.tensor k = some w) : w ∈ s.tens ∧ w.handle = k := by
  unfold State.tensor at h
  split at h
  case h_1 t ht =>
    split at h
    · obtain rfl := Option.some.inj h
      exact ⟨List.mem_of_find?_eq_some ht, by simpa using List.find?_some ht⟩
    · cases h
  case h_2 => cases h

/-- Marks leave a tensor that the command does not write. -/
theorem State.mem_markOutputs {marks : List Nat} (hw : w ∈ s.tens) (hh : w.handle ∉ s.writes c) :
    w ∈ (s.markOutputs c marks).tens := by
  unfold State.markOutputs
  generalize s.writes c = hs at hh
  induction hs generalizing s with
  | nil => exact hw
  | cons h hs ih =>
    rw [List.mem_cons, not_or] at hh
    obtain ⟨hne, hrest⟩ := hh
    exact ih (List.mem_map.2 ⟨w, hw, if_neg hne⟩) hrest

/-- Writes that do not name a tensor leave it. -/
theorem Tensor.written_of_unnamed (h : ∀ y ∈ l, y.handle ≠ w.handle) : w.written l = w := by
  have hdata : l.foldl (fun d y => if y.handle = w.handle then setCode d y.index y.code else d) w.data = w.data := by
    generalize w.data = d
    induction l with
    | nil => rfl
    | cons y l ih =>
      obtain ⟨hy, hl⟩ := List.forall_mem_cons.1 h
      rw [List.foldl_cons, if_neg hy, ih hl]
  rw [Tensor.written, hdata]

/-- BACKWARD_WEIGHT writes the weight gradient alone. -/
theorem State.writes_of_backwardWeight (hop : c.opcode = 0x0702) (h : k ∈ s.writes c) : k = c.par 44 4 := by
  simp only [State.writes, hop, List.map_cons, List.map_nil, List.mem_filter, List.mem_singleton] at h
  exact h.1

/-- A command that writes elements of data leaves a tensor that neither it nor an element names. -/
theorem State.mem_complete {d : Nat} {r : Outcome} (hq : env.Quiet) (hv : v.Clean) (hl : ∀ y ∈ l, y.scale = false)
    (hw : w ∈ v.tens) (hname : ∀ y ∈ l, y.handle ≠ w.handle)
    (hwrites : w.handle ∉ ((v.writeAll l).rewritten l).writes c) : w ∈ (v.complete env c d l r).tens := by
  rw [State.complete_quiet hq hv.poison hv.flaws]
  refine State.mem_markOutputs ?_ hwrites
  rw [State.rewritten_tens, State.writeAll_tens hl]
  exact List.mem_map.2 ⟨w, hw, Tensor.written_of_unnamed hname⟩

/-- Of two lists in a relation, an item of the first has its partner in the second. -/
theorem exists_mem_of_forall₂ {α β : Type} {R : α → β → Prop} {as : List α} {bs : List β} {a : α}
    (h : List.Forall₂ R as bs) (ha : a ∈ as) : ∃ b ∈ bs, R a b := by
  induction h with
  | nil => cases ha
  | cons hR _ ih =>
    obtain rfl | ha := List.mem_cons.1 ha
    · exact ⟨_, List.mem_cons_self, hR⟩
    · obtain ⟨b, hb, hRb⟩ := ih ha
      exact ⟨b, List.mem_cons_of_mem _ hb, hRb⟩

/-! ### BACKWARD_WEIGHT and its deferral (R188, R195) -/

theorem State.arraysUsed_tens {f : Flags} : (s.arraysUsed c f).tens = s.tens := by
  unfold State.arraysUsed
  dsimp only
  rw [State.foldl_leaves State.tens fun _ _ => by
    exact State.foldl_leaves State.tens (fun _ _ => by exact State.countRows_tens) _]
  exact State.raiseIn_tens

/-- BACKWARD_WEIGHT with its operands uses the arrays and writes the elements of the weight gradient. -/
theorem State.backwardWeight_eq_complete (hx : c.latch.extra = [0, e, count, stale])
    (hdy : s.readable c (c.par 32 4) = some dy) (hxr : s.readable c (c.par 36 4) = some x)
    (hw : s.tensor (c.par 40 4) = some w) (hg : s.tensor (c.par 44 4) = some g) : ∃ f : Flags, s.backwardWeight env c =
      (s.arraysUsed c f).complete env c 0x010F (s.gradWrites c dy x w g)
        (Outcome.ok (resultOf f.code 0 0 e count (ofBool g.spilled + 2 * stale))) := by
  rw [← State.gradRun_writes]
  simp only [State.backwardWeight, hdy, hxr, hw, hg, hx, List.getD_cons_succ, List.getD_cons_zero]
  exact ⟨(s.gradRun c dy x w g).2, rfl⟩

/-- The passes of a BACKWARD_WEIGHT: each element of the weight gradient takes its contribution, every other tensor stays,
and the command ends OK. -/
theorem State.backwardWeight_spec (hs : s.Sound) (hq : env.Quiet) (hc : s.Clean) (hn : s.cmdOf n = some c)
    (hop : c.opcode = 0x0702) (hx : c.latch.extra = [0, e, count, stale])
    (hdy : s.readable c (c.par 32 4) = some dy) (hxr : s.readable c (c.par 36 4) = some x)
    (hw : s.tensor (c.par 40 4) = some w) (hg : s.tensor (c.par 44 4) = some g) : ∃ code,
    (s.backwardWeight env c).Ended n (Outcome.ok (resultOf code 0 0 e count (ofBool g.spilled + 2 * stale))) ∧
    (∃ v ∈ (s.backwardWeight env c).tens, v.handle = g.handle ∧ ∀ k < w.rows, ∀ j < w.width,
      codeAt v.data (k * w.width + j) = s.gradCode c dy x w g k j % 2 ^ 32) ∧
    ∀ v ∈ s.tens, v.handle ≠ g.handle → v ∈ (s.backwardWeight env c).tens := by
  obtain ⟨f, heq⟩ := State.backwardWeight_eq_complete (env := env) hx hdy hxr hw hg
  obtain ⟨hmem, hhandle⟩ := State.tensor_mem hg
  have hcalm : ∀ m, Calm m s (s.arraysUsed c f) := fun m => State.arraysUsed_calm (Calm.refl s)
  have hclean := hc.calm (hcalm n)
  have hscale : ∀ y ∈ s.gradWrites c dy x w g, y.scale = false ∧ y.handle = g.handle := by
    intro y hy
    obtain ⟨k, _, j, _, rfl⟩ := State.mem_gradWrites.1 hy
    exact ⟨rfl, rfl⟩
  have hdata := fun y hy => (hscale y hy).1
  rw [heq]
  refine ⟨f.code, State.complete_ended hq hclean ((Calm.cmdOf hc hcalm).trans hn), ?element, fun v hv hne => ?stays⟩
  case element =>
    have htens := State.complete_tens (c := c) (d := 0x010F)
      (x := Outcome.ok (resultOf f.code 0 0 e count (ofBool g.spilled + 2 * stale))) hq hclean hdata
    rw [State.arraysUsed_tens] at htens
    obtain ⟨v, hv, hh, hd⟩ := exists_mem_of_forall₂ htens hmem
    exact ⟨v, hv, hh, fun k hk j hj => hd ▸ State.codeAt_gradWrites (hs.elements g hmem) hk hj⟩
  case stays =>
    refine State.mem_complete hq hclean hdata (by rwa [State.arraysUsed_tens]) (fun y hy hh => hne ?_) fun hwrites => hne ?_
    · exact hh.symm.trans (hscale y hy).2
    · exact (State.writes_of_backwardWeight hop hwrites).trans hhandle.symm

/-- BACKWARD_WEIGHT with DEFER joins the deferral queue. -/
theorem exec_backwardWeight_of_defer (h : s.Ready n 0x0702 c) (hx : ∀ d, c.latch.extra ≠ [1, d])
    (hdefer : bit (c.par 50 1) 0 = 1) : exec (.backwardWeight n env) s = .next (s.park n [13]) := by
  rw [exec_backwardWeight, execBackwardWeight, h.run, State.latched_of_accepted hx,
    if_pos (by simpa [Cmd.deferBit] using hdefer), h.id]

/-- BACKWARD_WEIGHT without DEFER makes its passes in its turn. -/
theorem exec_backwardWeight_of_ready (h : s.Ready n 0x0702 c) (hb : s.Begins c) (hx : ∀ d, c.latch.extra ≠ [1, d])
    (hdefer : bit (c.par 50 1) 0 = 0) (ht : s.gradTurn c = true) :
    exec (.backwardWeight n env) s = .next (s.backwardWeight env c) := by
  obtain ⟨hhold, hfailed⟩ := hb
  rw [exec_backwardWeight, execBackwardWeight, h.run, State.latched_of_accepted hx, if_neg (by simp [Cmd.deferBit, hdefer])]
  simp only [hhold, hfailed, Bool.false_eq_true, if_false, ht, if_true]

/-- With no pass ready without DEFER, the first deferred command makes its passes (R188). -/
theorem exec_deferredPass_of_first (hfirst : s.firstDeferred = some c) (h : s.Waits n c) (hb : s.Begins c)
    (hready : s.passReady = false) (ht : s.gradTurn c = true) :
    exec (.deferredPass env) s = .next (s.backwardWeight env c) := by
  obtain ⟨hhold, hfailed⟩ := hb
  rw [exec_deferredPass, execDeferredPass, hfirst]
  simp only [hready, hhold, hfailed, ht, Option.isSome_none, Bool.not_true, Bool.or_self, Bool.false_eq_true, if_false,
    State.onImposition_current h.units]

/-! ### Commands that waited (R189, R200) -/

/-- A command whose reason to wait has passed goes back to the start of its work. -/
theorem State.resume_wake {r : Nat} (h : s.Waits n c) (haux : c.aux = [r]) (hop : functionOf c.opcode < 10)
    (hhold : s.holdReason c ≠ some r) : s.resumeCmd n (fun c s => s.wake r c) =
      s.updCmd n fun c => { c with phase := .dispatched, aux := [] } := by
  rw [h.resume, State.wake, if_pos ⟨h.phase, haux, Or.inl hop, hhold⟩, h.id]

/-! ### The backward commands -/

/-- Settles O41: BACKWARD_INPUT works in the engines alone and ends as it writes; a deferred BACKWARD_WEIGHT makes the passes of
one that is not deferred, all of them at once (log 58), and those write each element of the weight gradient once. -/
theorem backwardCommandsComplete : Obligations.BackwardCommandsComplete := by
  unfold Obligations.BackwardCommandsComplete
  intro s n c env hs hq hc
  refine ⟨?input, ?refused, ?defer, ?weight, ?reader, ?writer⟩
  case input =>
    intro e l dy w o h hb ht hx hdy hw ho hsaves
    obtain ⟨u, hu⟩ := Option.isSome_iff_exists.1 hsaves
    obtain ⟨code, hend⟩ := State.backwardInput_ended hq hc h.found hdy hw ho hu
    rw [exec_backwardInput_of_ready h hb ht, State.latched_of_accepted (by simp [hx])]
    rw [hx, List.getD_cons_succ, List.getD_cons_zero] at hend
    exact ⟨_, code, rfl, hend⟩
  case refused =>
    intro d h hb ht hx
    rw [exec_backwardInput_of_ready h hb ht, State.latched_of_refused hx, h.id]
  case defer => exact fun h hx hdefer => exec_backwardWeight_of_defer h hx hdefer
  case weight =>
    intro i e count stale dy x w g hop hrow hb ht hx hdy hxr hw hg
    have haccepted : ∀ d, c.latch.extra ≠ [1, d] := by simp [hx]
    obtain ⟨hfound, hexec⟩ : s.cmdOf n = some c ∧ exec i s = .next (s.backwardWeight env c) := by
      obtain ⟨rfl, h, hdefer⟩ | ⟨rfl, hfirst, h, hready⟩ := hrow
      · exact ⟨h.found, exec_backwardWeight_of_ready h hb haccepted hdefer ht⟩
      · exact ⟨h.found, exec_deferredPass_of_first hfirst h hb hready ht⟩
    obtain ⟨code, hspec⟩ := State.backwardWeight_spec hs hq hc hfound hop hx hdy hxr hw hg
    exact ⟨_, code, hexec, hspec⟩
  case reader =>
    intro h haux hop hhold
    rw [exec_wgradReaderResume, execWgradReaderResume, State.resume_wake h haux hop hhold]
  case writer =>
    intro h haux hop hhold
    rw [exec_saveWriteResume, execSaveWriteResume, State.resume_wake h haux hop hhold]

end Sys2Proof.Machine
end

section
/-! SUPPORT and PROOF. OFFLOAD and PREFETCH of a save (07 R200, R201): what a change of state leaves, what writing an image
leaves, and how the two commands end. -/

namespace Sys2Proof.Machine

variable {s : State} {n k : Nat} {c : Cmd} {env : Env} {t w : Tensor} {i : Image} {st : SaveState} {b : List Byte}

theorem exec_offload (n : Nat) (env : Env) (s : State) : exec (.offload n env) s = execOffload n env s := rfl

theorem exec_prefetch (n : Nat) (env : Env) (s : State) : exec (.prefetch n env) s = execPrefetch n env s := rfl

/-! ### A tensor changed -/

/-- What a handle names after a change of tensors that keeps their handles. -/
theorem State.declared_updTensor {f : Tensor → Tensor} (hf : ∀ x, (f x).handle = x.handle) :
    (s.updTensor n f).declared k = (s.declared k).map fun x => if x.handle = n then f x else x := by
  have hp : ((fun x : Tensor => decide (x.handle = k)) ∘ fun x => if x.handle = n then f x else x) =
      fun x => decide (x.handle = k) := by
    funext x
    by_cases hx : x.handle = n <;> simp [hx, hf]
  rw [State.declared, State.updTensor, List.find?_map, hp, State.declared]

/-- The tensor changed, placed as it was. -/
theorem State.tensor_updTensor {f : Tensor → Tensor} (hf : ∀ x, (f x).handle = x.handle ∧ (f x).placed = x.placed)
    (h : s.tensor k = some t) : (s.updTensor k f).tensor k = some (f t) := by
  have hhandle := (State.tensor_mem h).2
  unfold State.tensor at h ⊢
  rw [State.declared_updTensor fun x => (hf x).1]
  cases hd : s.declared k with
  | none => simp [hd] at h
  | some x =>
    simp only [hd, Option.map_some] at h ⊢
    split at h
    case isTrue hplaced =>
      obtain rfl := Option.some.inj h
      simp [hhandle, hf, hplaced]
    case isFalse => cases h

theorem State.mem_updTensor {f : Tensor → Tensor} (hw : w ∈ s.tens) : f w ∈ (s.updTensor w.handle f).tens :=
  List.mem_map.2 ⟨w, hw, if_pos rfl⟩

/-! ### A save changes state -/

/-- A save in another state, with its image. -/
def Tensor.withSave (t : Tensor) (st : SaveState) (i : Image) : Tensor := { t with save := st, image := some i }

/-- The command that changes a save's state notes it. -/
theorem State.saveBegins_cmdOf (h : s.cmdOf c.id = some c) : (s.saveBegins c st i).cmdOf c.id =
    some { c with latch := { c.latch with extra := [20] } } :=
  State.cmdOf_updCmd (f := fun c => { c with latch := { c.latch with extra := [20] } }) rfl h

theorem State.saveBegins_tens : (s.saveBegins c st i).tens =
    (s.updTensor (c.par 32 4) fun t => t.withSave st i).tens := rfl

theorem State.saveBegins_tensor (h : s.tensor (c.par 32 4) = some t) :
    (s.saveBegins c st i).tensor (c.par 32 4) = some (t.withSave st i) :=
  State.tensor_updTensor (f := fun t => t.withSave st i) (fun _ => ⟨rfl, rfl⟩) h

/-- The scale tensor is there, or not, as it was, with as many bytes. -/
theorem State.saveBegins_scaleTensor : ((s.saveBegins c st i).scaleTensor (t.withSave st i)).map Tensor.byteLen =
    (s.scaleTensor t).map Tensor.byteLen := by
  unfold State.scaleTensor
  cases hscale : t.scaleOf with
  | none => simp [Tensor.withSave, hscale]
  | some h =>
    have hdeclared : (s.saveBegins c st i).declared h =
        (s.declared h).map fun x => if x.handle = c.par 32 4 then x.withSave st i else x :=
      State.declared_updTensor (f := fun t => t.withSave st i) fun _ => rfl
    have hbytes : (Tensor.byteLen ∘ fun x => if x.handle = c.par 32 4 then x.withSave st i else x) = Tensor.byteLen := by
      funext x
      rw [Function.comp_apply]
      split <;> rfl
    simp only [Tensor.withSave, hscale, Option.bind_some]
    rw [hdeclared, Option.map_map, hbytes]

/-! ### Pages taken and an image written (R200, R247) -/

/-- Pages taken leave commands and tensors. -/
theorem State.takePages_fields {l : List Nat} :
    (State.takePages k s l).2.cmd = s.cmd ∧ (State.takePages k s l).2.tens = s.tens := by
  induction k generalizing s l with
  | zero => exact ⟨rfl, rfl⟩
  | succ k ih =>
    unfold State.takePages
    split
    case h_1 => exact ⟨rfl, rfl⟩
    case h_2 => exact ih

/-- Bytes stored leave commands and tensors. -/
theorem State.storeBytes_fields : (State.storeBytes b k s).cmd = s.cmd ∧ (State.storeBytes b k s).tens = s.tens := by
  induction b generalizing s k with
  | nil => exact ⟨rfl, rfl⟩
  | cons x b ih =>
    obtain ⟨hcmd, htens⟩ := ih (s := s.storeByte k x) (k := k + 1)
    have hbyte : (s.storeByte k x).cmd = s.cmd ∧ (s.storeByte k x).tens = s.tens := by
      unfold State.storeByte
      split <;> exact ⟨rfl, rfl⟩
    exact ⟨hcmd.trans hbyte.1, htens.trans hbyte.2⟩

/-- Bytes put in pages leave commands and tensors. -/
theorem State.putPaged_fields {pages : List Nat} :
    (s.putPaged pages b).cmd = s.cmd ∧ (s.putPaged pages b).tens = s.tens :=
  ⟨State.foldl_leaves State.cmd (fun _ _ => by exact State.storeBytes_fields.1) _,
    State.foldl_leaves State.tens (fun _ _ => by exact State.storeBytes_fields.2) _⟩

/-! ### OFFLOAD (R200) -/

/-- OFFLOAD to pages of this node: they are taken, the save is on its way out, and its image is in them. -/
def State.offloadHere (s : State) (c : Cmd) (t : Tensor) : State :=
  let size := imageSize (s.saveData t).length
  let p := State.takePages (pagesFor size) s []
  (p.2.saveBegins c .offloading ⟨false, s.node, 0, p.1, size⟩).putPaged p.1 (imageOf (s.saveData t))

/-- OFFLOAD to another node: the save is on its way out. -/
def State.offloadAway (s : State) (c : Cmd) (t : Tensor) : State :=
  s.saveBegins c .offloading ⟨true, c.par 36 2, c.par 40 8 % 2 ^ 48, [], imageSize (s.saveData t).length⟩

/-- OFFLOAD whose checks pass. -/
theorem exec_offload_of_ready (hq : env.Quiet) (hc : s.Clean) (h : s.Ready n 0x0703 c) (hb : s.Begins c)
    (hf : s.offloadFault c = none) (ht : s.tensor (c.par 32 4) = some t) : exec (.offload n env) s = .next (
      if bit (c.par 38 1) 0 = 0 then
        if s.freePages < pagesFor (imageSize (s.saveData t).length) then s.finish n (Outcome.noSpace 0x0111)
        else (s.offloadHere c t).finish n (Outcome.ok (saveResult (s.saveData t)))
      else if env.lost then (s.offloadAway c t).finish n (Outcome.aborted 0x010E)
      else ((s.offloadAway c t).park n [1, saveResult (s.saveData t)]).ifpWrite (c.par 36 2)
        (c.par 36 2 * 2 ^ 48 + c.par 40 8 % 2 ^ 48) (imageOf (s.saveData t)) (.cmd n)) := by
  rw [exec_offload, execOffload, h.work hb]
  simp only [hf, ht, State.corrections_quiet hq, State.envStop_quiet hq hc.poison hc.flaws, h.id]
  rfl

/-- The save whose image is in pages of this node is OFFLOADING, with its data; the command finds itself. -/
theorem State.offloadHere_spec (hn : s.cmdOf n = some c) (ht : s.tensor (c.par 32 4) = some t) :
    ((s.offloadHere c t).cmdOf n).isSome = true ∧
    ∃ v ∈ (s.offloadHere c t).tens, v.handle = t.handle ∧ v.save = .offloading ∧ v.data = t.data := by
  obtain rfl := State.cmdOf_id hn
  obtain ⟨hmem, hhandle⟩ := State.tensor_mem ht
  obtain ⟨hcmd, htens⟩ := State.takePages_fields (s := s) (k := pagesFor (imageSize (s.saveData t).length)) (l := [])
  unfold State.offloadHere
  dsimp only
  obtain ⟨hcmd', htens'⟩ := State.putPaged_fields
  constructor
  · rw [State.cmdOf_congr hcmd', State.saveBegins_cmdOf ((State.cmdOf_congr hcmd).trans hn), Option.isSome_some]
  · rw [htens', State.saveBegins_tens, ← hhandle]
    exact ⟨_, State.mem_updTensor (htens.symm ▸ hmem), rfl, rfl, rfl⟩

/-! ### PREFETCH (R201) -/

/-- Nothing in clean pages is uncorrectable. -/
theorem State.pagedPoison_of_clean (hc : s.Clean) {pages : List Nat} : s.pagedPoison pages = none := by
  simp [State.pagedPoison, List.findSome?_eq_none_iff, State.badGranule, hc.poison, hc.flaws]

/-- PREFETCH of an image of this node, whose checks pass, reads it at once. -/
theorem exec_prefetch_of_local (hq : env.Quiet) (hc : s.Clean) (h : s.Ready n 0x0704 c) (hb : s.Begins c)
    (hf : s.prefetchFault c = none) (ht : s.tensor (c.par 32 4) = some t) (hi : t.image = some i)
    (hlocal : i.remote = false) : exec (.prefetch n env) s =
      .next ((s.saveBegins c .prefetching i).prefetchData c (s.getPaged i.pages i.size)) := by
  have hclean : (s.saveBegins c .prefetching i).Clean := ⟨hc.poison, hc.flaws⟩
  have hread : (s.saveBegins c .prefetching i).getPaged i.pages i.size = s.getPaged i.pages i.size := rfl
  rw [exec_prefetch, execPrefetch, h.work hb]
  simp only [hf, ht, Option.bind_some, hi, hlocal, State.corrections_quiet hq,
    State.envStop_quiet hq hclean.poison hclean.flaws, State.pagedPoison_of_clean hclean, Bool.false_eq_true, if_false,
    hread]

/-- The bytes that the image of a save stands for: its data and its scales. -/
def State.saveLength (s : State) (t : Tensor) : Nat := t.byteLen + ((s.scaleTensor t).map Tensor.byteLen).getD 0

/-- The bytes of an image put where a tensor and its scales are. -/
def State.imagePut (s : State) (t : Tensor) (d : List Byte) : State :=
  let s' := s.updTensor t.handle fun t => { t with data := setTensorBytes t (d.take t.byteLen) 0 [] }
  match s.scaleTensor t with
  | some u => s'.updTensor u.handle fun u => { u with data := setTensorBytes u (d.drop t.byteLen) 0 [] }
  | none => s'

theorem State.prefetchData_of_tensor (ht : s.tensor (c.par 32 4) = some t) : s.prefetchData c b =
    if imageOk (s.saveLength t) b = false then s.finish c.id ⟨stCheckFail, 0x010D, 0⟩
    else (s.imagePut t (b.take (s.saveLength t))).finish c.id (Outcome.ok (saveResult (b.take (s.saveLength t)))) := by
  simp only [State.prefetchData, ht]
  rfl

theorem State.imagePut_cmd : (s.imagePut t b).cmd = s.cmd := by
  unfold State.imagePut
  dsimp only
  split <;> rfl

/-- The bytes put in a tensor depend on its shape and format alone. -/
theorem setTensorBytes_withSave {d : Codes} : setTensorBytes (t.withSave st i) b k d = setTensorBytes t b k d := by
  induction b generalizing k d with
  | nil => rfl
  | cons x b ih => exact ih

theorem State.saveBegins_saveLength : (s.saveBegins c st i).saveLength (t.withSave st i) = s.saveLength t := by
  rw [State.saveLength, State.saveBegins_scaleTensor]
  rfl

/-- The data of a save without scales, on its way back, as its image has them. -/
theorem State.imagePut_data (ht : s.tensor (c.par 32 4) = some t) (hscale : s.scaleTensor t = none) :
    ∃ v ∈ ((s.saveBegins c .prefetching i).imagePut (t.withSave .prefetching i) b).tens,
      v.handle = t.handle ∧ v.save = .prefetching ∧ v.data = setTensorBytes t (b.take t.byteLen) 0 [] := by
  obtain ⟨hmem, -⟩ := State.tensor_mem (State.saveBegins_tensor (st := .prefetching) (i := i) ht)
  have hnone : (s.saveBegins c .prefetching i).scaleTensor (t.withSave .prefetching i) = none := by
    rw [← Option.map_eq_none_iff (f := Tensor.byteLen), State.saveBegins_scaleTensor, hscale, Option.map_none]
  unfold State.imagePut
  simp only [hnone]
  exact ⟨_, State.mem_updTensor hmem, rfl, rfl, setTensorBytes_withSave⟩

/-! ### Saves -/

/-- Settles O42: an image is written once its pages are taken, and neither changes a command or a tensor; a write to another
node changes only the links; the save of a PREFETCH is PREFETCHING before its image is read, which changes none of its shape. -/
theorem savesLeaveAndReturn : Obligations.SavesLeaveAndReturn := by
  unfold Obligations.SavesLeaveAndReturn
  intro s n c env t hq hc hb ht
  refine ⟨fun h hf => ?offload, fun h i hf hi hlocal k b hk hbytes => ?prefetch⟩
  case offload =>
    obtain rfl := h.id
    rw [exec_offload_of_ready hq hc h hb hf ht]
    have haway : (s.offloadAway c t).cmdOf c.id = some _ := State.saveBegins_cmdOf h.found
    refine ⟨fun hhere hroom => ?here, fun hhere hfull => ?full, fun hthere hlost => ?lost, fun hthere hlost => ?away⟩
    case here =>
      obtain ⟨hcmd, hsave⟩ := State.offloadHere_spec h.found ht
      obtain ⟨d, hd⟩ := Option.isSome_iff_exists.1 hcmd
      rw [if_pos hhere, if_neg (Nat.not_lt.2 hroom)]
      exact ⟨_, rfl, State.finish_ended hd, hsave⟩
    case full => rw [if_pos hhere, if_pos hfull]
    case lost =>
      rw [if_neg (by simp [hthere]), if_pos hlost]
      exact ⟨_, rfl, State.finish_ended haway⟩
    case away =>
      rw [if_neg (by simp [hthere]), if_neg (by simp [hlost])]
      refine ⟨_, rfl, ?_⟩
      rw [State.cmdOf_congr (ifpWrite_same _ _ _ _).cmd, State.cmdOf_park haway]
      rfl
  case prefetch =>
    obtain rfl := h.id
    have hfound := State.saveBegins_cmdOf (st := .prefetching) (i := i) h.found
    have hlength : (s.saveBegins c .prefetching i).saveLength (t.withSave .prefetching i) = k :=
      State.saveBegins_saveLength.trans hk.symm
    rw [exec_prefetch_of_local hq hc h hb hf ht hi hlocal, ← hbytes,
      State.prefetchData_of_tensor (State.saveBegins_tensor ht), hlength]
    refine ⟨fun hbad => ?checkFail, fun hok => ?ok⟩
    case checkFail =>
      rw [if_pos hbad]
      exact ⟨_, rfl, State.finish_ended hfound⟩
    case ok =>
      rw [if_neg (by simp [hok])]
      refine ⟨_, rfl, State.finish_ended ((State.cmdOf_congr State.imagePut_cmd).trans hfound), fun hscale => ?data⟩
      case data =>
        obtain ⟨v, hv, hhandle, hsave, hdata⟩ := State.imagePut_data (i := i) (b := b.take k) ht hscale
        have hall : k = t.byteLen := by rw [hk, hscale]; rfl
        rw [hall, List.take_take, Nat.min_self] at hdata
        exact ⟨v, hall ▸ hv, hhandle, hsave, hdata⟩

end Sys2Proof.Machine
end

section
/-! SUPPORT and PROOF. SET_STEP_SIZE, what its completion writes, and RETIRE_EDITION (08 R214, R215, R219). -/

namespace Sys2Proof.Machine

variable {s t : State} {n k e holds : Nat} {c : Cmd} {w : Tensor} {x : Edition}

theorem exec_setStepSize (n : Nat) (s : State) : exec (.setStepSize n) s = execSetStepSize n s := rfl

theorem exec_retireEdition (n : Nat) (s : State) : exec (.retireEdition n) s = execRetireEdition n s := rfl

/-! ### SET_STEP_SIZE (R219) -/

/-- The row of SET_STEP_SIZE judges the slot alone. -/
theorem exec_setStepSize_of_ready (h : s.Ready n 0x0705 c) (hb : s.Begins c) : exec (.setStepSize n) s =
    .next (s.finish n (if c.par 32 1 ≤ 15 then Outcome.ok 0 else Outcome.bad 0x0180)) := by
  rw [exec_setStepSize, execSetStepSize, h.work hb, h.id]
  split
  case isTrue hslot => rw [if_neg (Nat.not_le.2 hslot)]
  case isFalse hslot => rw [if_pos (Nat.not_lt.1 hslot)]

/-- The stamp of a slot after one more SET_STEP_SIZE: 0 is never one. -/
def nextStamp (old : Nat) : Nat := if old = 0xFFFFFFFF then 1 else old + 1

/-- At the completion of a SET_STEP_SIZE that is OK the registers of its slot are set. -/
theorem State.reg_stepSizeCompletes (hok : c.status = stOK) (o : Nat) : (s.stepSizeCompletes c).reg o =
    (((s.setReg (Reg.stepLr (c.par 32 1)) (c.par 36 4 + c.par 40 4 * 2 ^ 32)).setReg (Reg.stepBc (c.par 32 1))
      (c.par 44 4 + c.par 48 4 * 2 ^ 32)).setReg (Reg.stepStamp (c.par 32 1))
      (nextStamp (s.reg (Reg.stepStamp (c.par 32 1))))).reg o := by
  rw [State.stepSizeCompletes, if_neg (not_not.2 hok), nextStamp]
  exact State.reg_congr (State.updCmd_fields _ _ _).2.2.1

/-- The three registers of a slot are apart. -/
theorem stepRegisters_apart (k : Nat) :
    Reg.stepLr k ≠ Reg.stepBc k ∧ Reg.stepLr k ≠ Reg.stepStamp k ∧ Reg.stepBc k ≠ Reg.stepStamp k := by
  simp only [Reg.stepLr, Reg.stepBc, Reg.stepStamp]
  omega

/-- Two fields of 4 bytes, side by side, fill a register. -/
theorem Cmd.par_pair_mod (i j : Nat) : (c.par i 4 + c.par j 4 * 2 ^ 32) % 2 ^ 64 = c.par i 4 + c.par j 4 * 2 ^ 32 := by
  have hlow : c.par i 4 < 2 ^ (8 * 4) := Cmd.par_lt
  have hhigh : c.par j 4 < 2 ^ (8 * 4) := Cmd.par_lt
  omega

/-! ### RETIRE_EDITION (R215) -/

/-- The host holds of edition `e` of a weight set, and every edition retired that nothing refers to any more. -/
def State.setHolds (s : State) (w : Tensor) (e holds : Nat) : State :=
  (s.updTensor w.handle fun u =>
    { u with editions := u.editions.map fun y => if y.number = e then { y with holds := holds } else y }).retire

/-- A command in flight stays in flight while commands keep their numbers. -/
theorem SameInFlight.exists_cmdOf (h : SameInFlight s t) (hn : s.cmdOf n = some c) : ∃ d, t.cmdOf n = some d := by
  have hmem : n ∈ t.cmd.cmds.map (·.id) := by
    rw [h.ids, ← State.cmdOf_id hn]
    exact List.mem_map_of_mem (List.mem_of_find?_eq_some hn)
  obtain ⟨d, hd, hid⟩ := List.mem_map.1 hmem
  exact Option.isSome_iff_exists.1 (List.find?_isSome.2 ⟨d, hd, decide_eq_true hid⟩)

/-- Holds set, and the editions retired with them, leave memory and the command in flight. -/
theorem State.setHolds_fields (hn : s.cmdOf n = some c) :
    (∃ d, (s.setHolds w e holds).cmdOf n = some d) ∧ (s.setHolds w e holds).mem = s.mem := by
  have hsame : SameInFlight s (s.setHolds w e holds) := (State.retire_sameInFlight _).of_start rfl rfl rfl
  exact ⟨hsame.exists_cmdOf hn, hsame.mem⟩

/-- The host holds of an edition after its RETIRE_EDITION: COUNT of them taken or given back. -/
def Cmd.holdsAfter (c : Cmd) (holds : Nat) : Nat :=
  if bit (c.par 42 1) 0 = 1 then holds + c.par 40 2 else holds - c.par 40 2

theorem Cmd.holdsAfter_give (h : bit (c.par 42 1) 0 = 0) : c.holdsAfter k = k - c.par 40 2 := if_neg (by omega)

theorem Cmd.holdsAfter_take (h : bit (c.par 42 1) 0 = 1) : c.holdsAfter k = k + c.par 40 2 := if_pos h

/-- RETIRE_EDITION of a kept edition of a weight, by what it finds of the edition's holds. -/
theorem exec_retireEdition_of_ready (h : s.Ready n 0x0707 c) (hb : s.Begins c) (hw : s.tensor (c.par 32 4) = some w)
    (hrole : w.role = 1) (he : e = if c.par 36 4 = noHandle then w.currentEdition else c.par 36 4)
    (hx : w.edition e = some x) :
    (c.par 40 2 = 0 ∨ bit (c.par 42 1) 0 = 0 ∧ x.holds < c.par 40 2 →
      exec (.retireEdition n) s = .next (s.finish n (Outcome.bad 0x0188))) ∧
    (0 < c.par 40 2 → (bit (c.par 42 1) 0 ≠ 1 → c.par 40 2 ≤ x.holds) →
      (bit (c.par 42 1) 0 = 1 → x.holds + c.par 40 2 ≤ 65535) → ∃ t gone, exec (.retireEdition n) s = .next t ∧
        t.Ended n (Outcome.ok (resultOf 0 0 0 (c.holdsAfter x.holds) gone 0)) ∧ t.mem = s.mem) := by
  rw [exec_retireEdition, execRetireEdition, h.work hb, h.id]
  simp only [hw, hrole, ← he, hx, ne_eq, not_true_eq_false, if_false]
  refine ⟨fun hnone => ?refused, fun hcount hheld hroom => ?done⟩
  case refused => rw [if_pos (hnone.imp_right fun hfew => ⟨by simp [hfew.1], hfew.2⟩)]
  case done =>
    have henough : ¬ (c.par 40 2 = 0 ∨ decide (bit (c.par 42 1) 0 = 1) = false ∧ x.holds < c.par 40 2) := by
      simp only [decide_eq_false_iff_not]
      omega
    have hfits : ¬ (decide (bit (c.par 42 1) 0 = 1) = true ∧ 65535 < x.holds + c.par 40 2) := by
      simp only [decide_eq_true_eq]
      omega
    rw [if_neg henough, if_neg hfits]
    obtain ⟨⟨d, hd⟩, hmem⟩ := State.setHolds_fields (w := w) (e := e) (holds := c.holdsAfter x.holds) h.found
    simp only [State.setHolds, Cmd.holdsAfter] at hd hmem
    simp only [Cmd.holdsAfter, decide_eq_true_eq]
    exact ⟨_, _, rfl, State.finish_ended hd, hmem⟩

/-! ### Step sizes and holds -/

/-- Settles O44: SET_STEP_SIZE judges its slot alone; RETIRE_EDITION refuses a COUNT that the edition's holds do not cover,
and a COUNT of 0 (log 63); what retiring editions writes, tallies and the commands that wait for them, takes no command out
of flight. -/
theorem stepSizesAndEditionHolds : Obligations.StepSizesAndEditionHolds := by
  unfold Obligations.StepSizesAndEditionHolds
  intro s n c hs
  refine ⟨fun hb h => exec_setStepSize_of_ready h hb, fun hok _ => ?completion, fun w x hb h hw hrole hx => ?retire⟩
  case completion =>
    obtain ⟨hlrBc, hlrStamp, hbcStamp⟩ := stepRegisters_apart (c.par 32 1)
    simp only [State.reg_stepSizeCompletes hok]
    refine ⟨?stamp, ?lr, ?bc⟩
    case stamp => exact State.reg_setReg_same hs.setReg.setReg
    case lr =>
      rw [State.reg_setReg_other hlrStamp, State.reg_setReg_other hlrBc, State.reg_setReg_same hs, Cmd.par_pair_mod]
    case bc => rw [State.reg_setReg_other hbcStamp, State.reg_setReg_same hs.setReg, Cmd.par_pair_mod]
  case retire =>
    obtain ⟨hrefused, hdone⟩ := exec_retireEdition_of_ready h hb hw hrole rfl hx
    refine ⟨fun hgive hcount hheld => ?give, fun htake hcount hroom => ?take, hrefused⟩
    case give =>
      rw [← Cmd.holdsAfter_give hgive]
      exact hdone hcount (fun _ => hheld) (by omega)
    case take =>
      rw [← Cmd.holdsAfter_take htake]
      exact hdone hcount (by omega) fun _ => hroom

end Sys2Proof.Machine
end

section
/-! SUPPORT and PROOF. Verdicts in the D group: what sending one leaves, what the rule of a lone owner leaves, and how an
UPDATE ends or goes on waiting (08 R217, R218, R220, R224). -/

namespace Sys2Proof.Machine

variable {s t : State} {n rank status : Nat} {c : Cmd} {env : Env} {w g : Tensor} {m : CollMsg} {o : Outcome}

theorem exec_update (n : Nat) (env : Env) (s : State) : exec (.update n env) s = execUpdate n env s := rfl

theorem exec_verdict (n rank status : Nat) (env : Env) (s : State) :
    exec (.verdict n rank status env) s = execVerdict n rank status env s := rfl

theorem exec_peerLimit (n : Nat) (s : State) : exec (.peerLimit n) s = execPeerLimit n s := rfl

/-- The end of a command writes no register. -/
theorem State.reg_finish {off : Nat} : (s.finish n o).reg off = s.reg off := State.reg_congr (by simp)

/-! ### Messages to the D group (R217) -/

/-- Messages noted in the Collator as sent. -/
def State.noteSent (s : State) (l : List (Nat × Nat × CollMsg)) : State :=
  { s with coll := { s.coll with out := s.coll.out ++ l } }

/-- States that differ in the links alone still do with more messages noted. -/
theorem SameButLinks.noteSent (h : SameButLinks s t) (l : List (Nat × Nat × CollMsg)) :
    SameButLinks (s.noteSent l) (t.noteSent l) :=
  ⟨h.pending, h.fresh, h.time, h.node, h.mem, h.cmd, h.tally, h.gcl, h.tens, h.imp, h.core, h.attn,
    by simp only [State.noteSent, h.coll], h.feed, h.boot, h.pwr, h.obs, h.regs⟩

theorem foldl_collSend_same (axis : Nat) (m : CollMsg) (l : List Nat) (s : State) :
    SameButLinks (s.noteSent (l.map fun r => (r, axis, m))) (l.foldl (fun s r => s.collSend axis r m) s) := by
  induction l generalizing s with
  | nil =>
    simp only [List.map_nil, State.noteSent, List.append_nil]
    exact .refl s
  | cons r l ih =>
    have hfirst := (collSend_same (s := s) axis r m).noteSent (l.map fun r => (r, axis, m))
    simp only [State.noteSent, List.append_assoc, List.singleton_append] at hfirst
    exact hfirst.trans (ih _)

/-- A message to the D group is noted for each other member; its frames change only the links and their traffic counters. -/
theorem toPeers_same (s : State) (m : CollMsg) :
    SameButLinks (s.noteSent (s.dPeers.map fun r => (r, 1, m))) (s.toPeers m) := foldl_collSend_same 1 m s.dPeers s

theorem State.toPeers_out : (s.toPeers m).coll.out = s.coll.out ++ s.dPeers.map fun r => (r, 1, m) := by
  rw [(toPeers_same s m).coll]
  rfl

theorem State.toPeers_cmdOf : (s.toPeers m).cmdOf n = s.cmdOf n := State.cmdOf_congr (toPeers_same s m).cmd

theorem State.toPeers_verdictsOn : (s.toPeers m).verdictsOn n = s.verdictsOn n := by
  simp only [State.verdictsOn, (toPeers_same s m).coll, State.noteSent]

/-- The D group is that of the imposition. -/
theorem State.dGroup_congr (h : t.imp = s.imp) : t.dGroup = s.dGroup := by
  rw [State.dGroup, State.axis, h, State.dGroup, State.axis]

theorem State.toPeers_dPeers : (s.toPeers m).dPeers = s.dPeers := by
  rw [State.dPeers, State.dGroup_congr (t := s.toPeers m) (toPeers_same s m).imp, State.dPeers]
  rfl

/-- The only member of its D group has no other to tell. -/
theorem State.dPeers_alone (h : s.dGroup = (1, 0)) : s.dPeers = [] := by
  rw [State.dPeers, h]
  rfl

theorem State.toPeers_alone (h : s.dGroup = (1, 0)) : s.toPeers m = s := by
  rw [State.toPeers, State.dPeers_alone h, List.foldl_nil]

/-! ### Verdicts weighed (R217, R218) -/

/-- With passes alone heard, and one member of the group not heard, an UPDATE waits. -/
theorem State.weighVerdicts_waits {r : Nat} (hpass : ∀ v ∈ s.verdictsOn c.id, v.status = stOK) (hr : r ∈ s.dPeers)
    (hunheard : ∀ v ∈ s.verdictsOn c.id, v.rank ≠ r) : s.weighVerdicts env c = s.park c.id [16] := by
  have hnone : (s.verdictsOn c.id).find? (fun v => v.status ≠ stOK) = none :=
    List.find?_eq_none.2 fun v hv => by simp [hpass v hv]
  have hwait : ¬ (s.dPeers.all fun r => (s.verdictsOn c.id).any fun v => v.rank = r) = true := by
    simp only [List.all_eq_true, List.any_eq_true, decide_eq_true_eq, not_forall, not_exists, not_and]
    exact ⟨r, hr, hunheard⟩
  simp only [State.weighVerdicts, hnone]
  exact if_neg hwait

/-- A first failing verdict ends an UPDATE. -/
theorem State.weighVerdicts_fails {v : Verdict} (h : (s.verdictsOn c.id).find? (fun v => v.status ≠ stOK) = some v) :
    s.weighVerdicts env c = s.finish c.id (peerFailure v.status) := by simp only [State.weighVerdicts, h]

/-- The only member of its D group proceeds. -/
theorem State.weighVerdicts_alone (hl : s.verdictsOn c.id = []) (hd : s.dGroup = (1, 0)) :
    s.weighVerdicts env c = s.updateProceed env c := by
  simp only [State.weighVerdicts, hl, State.dPeers_alone hd, List.find?_nil, List.all_nil, if_true]

/-! ### The rule of a lone owner (R220 to R222, R224) -/

/-- The only member of its D group owns every weight. -/
theorem State.owns_alone (h : s.dGroup = (1, 0)) : s.owns w = true := by simp [State.owns, h, Nat.mod_one]

/-- The counts of a rule change neither commands nor memory. -/
theorem State.countRule_fields (s : State) (p : Prop) [Decidable p] (x : Nat) :
    ((if p then s.addSat Reg.updateEvents 63 48 1 else s).addSat Reg.updateEvents 47 32 x).cmd = s.cmd ∧
    ((if p then s.addSat Reg.updateEvents 63 48 1 else s).addSat Reg.updateEvents 47 32 x).mem = s.mem := by
  split <;> simp

/-- The rule writes beside what is in force, counts its attempts, and works in the engines. -/
theorem State.runRule_works : ∃ u, u.cmd = s.cmd ∧ u.mem = s.mem ∧ ∀ k, Calm k u (s.runRule c w g).1 := by
  unfold State.runRule
  dsimp only
  exact ⟨_, (State.countRule_fields (s.updTensor w.handle _) _ _).1, (State.countRule_fields (s.updTensor w.handle _) _ _).2,
    fun k => State.raiseFlags_calm (Calm.ite (State.arraysUsed_calm (Calm.refl _)) (Calm.refl _))⟩

theorem State.runRule_clean (hc : s.Clean) : (s.runRule c w g).1.Clean := by
  obtain ⟨u, -, hmem, hcalm⟩ := State.runRule_works (s := s) (c := c) (w := w) (g := g)
  exact State.Clean.calm ⟨hmem ▸ hc.poison, hmem ▸ hc.flaws⟩ (hcalm 0)

theorem State.runRule_cmdOf (hc : s.Clean) : (s.runRule c w g).1.cmdOf n = s.cmdOf n := by
  obtain ⟨u, hcmd, hmem, hcalm⟩ := State.runRule_works (s := s) (c := c) (w := w) (g := g)
  exact (Calm.cmdOf ⟨hmem ▸ hc.poison, hmem ▸ hc.flaws⟩ hcalm).trans (State.cmdOf_congr hcmd)

/-- An UPDATE skipped by a lone owner is counted and reported. -/
theorem State.updateProceed_skips (hd : s.dGroup = (1, 0)) (hw : s.tensor (c.par 32 4) = some w)
    (hg : s.tensor (c.par 36 4) = some g) (hskip : (c.uSkip && s.gradBad g) = true) :
    s.updateProceed env c = (s.addSat Reg.updateEvents 15 0 1).finish c.id
      (Outcome.ok (updateReport c 0 (c.par 44 1) 0 0 w.currentEdition true false false true 0)) := by
  have hd' : (s.addSat Reg.updateEvents 15 0 1).dGroup = (1, 0) := hd
  simp only [State.updateProceed, hw, hg, State.owns_alone hd, hskip, Bool.not_true, Bool.false_eq_true, if_false,
    if_true, State.toPeers_alone hd']

/-- A lone owner that does not skip runs its rule, and reports what that gives. -/
theorem State.updateProceed_runs (hq : env.Quiet) (hc : s.Clean) (hd : s.dGroup = (1, 0))
    (hw : s.tensor (c.par 32 4) = some w) (hg : s.tensor (c.par 36 4) = some g)
    (hskip : (c.uSkip && s.gradBad g) = false) : ∃ m, s.updateProceed env c =
      ((s.runRule c w g).1.toPeers m).finish c.id (Outcome.ok (s.runRule c w g).2) := by
  have hrule := State.runRule_clean (c := c) (w := w) (g := g) hc
  simp only [State.updateProceed, hw, hg, State.owns_alone hd, hskip, Bool.not_true, Bool.false_eq_true, if_false,
    State.corrections_quiet hq, State.envStop_quiet hq hrule.poison hrule.flaws, hd, lt_irrefl, and_false]
  exact ⟨_, rfl⟩

/-! ### The rows of UPDATE -/

/-- An UPDATE that passes its own check tells its group and weighs what it has heard. -/
theorem exec_update_of_passed (h : s.Ready n 0x0706 c) (hb : s.Begins c) (ho : s.ownVerdict c = none) :
    exec (.update n env) s = .next ((s.toPeers (.verdict stOK 0)).weighVerdicts env c) := by
  rw [exec_update, execUpdate, h.work hb]
  simp only [ho]

/-- An UPDATE that fails its own check tells its group, and ends. -/
theorem exec_update_of_failed (h : s.Ready n 0x0706 c) (hb : s.Begins c) (ho : s.ownVerdict c = some o) :
    exec (.update n env) s = .next (((if o.status = stStampMismatch then s.addSat Reg.updateEvents 31 16 1 else s).toPeers
      (.verdict o.status o.detail)).finish n o) := by
  rw [exec_update, execUpdate, h.work hb]
  simp only [ho, h.id]

/-- A verdict heard. -/
def State.hear (s : State) (n rank status : Nat) : State :=
  { s with coll := { s.coll with verdicts := s.coll.verdicts ++ [⟨n, rank, status⟩] } }

theorem State.verdictsOn_hear : (s.hear n rank status).verdictsOn n = s.verdictsOn n ++ [⟨n, rank, status⟩] := by
  simp [State.verdictsOn, State.hear]

/-- An UPDATE that waits for verdicts weighs them with each one heard. -/
theorem exec_verdict_of_waits (h : s.Waits n c) (hop : c.opcode = 0x0706) (haux : c.aux = [16]) :
    exec (.verdict n rank status env) s = .next ((s.hear n rank status).weighVerdicts env c) := by
  rw [exec_verdict, execVerdict, h.found]
  simp only [hop, h.phase, haux, and_self, if_true, Phase.unfinished, ne_eq, not_true_eq_false, Bool.true_eq_false,
    or_self, if_false]
  exact congrArg _ (State.onImposition_current h.units)

/-- The limit of its ring ends an UPDATE that waits for verdicts. -/
theorem exec_peerLimit_of_waits (h : s.Waits n c) (haux : c.aux = [16]) (hlimit : s.reg (Reg.ringTimeout c.ring) ≠ 0) :
    exec (.peerLimit n) s = .next ((s.toPeers (.verdict stTimeout 0x0186)).finish n ⟨stTimeout, 0x0186, 0⟩) := by
  rw [exec_peerLimit, execPeerLimit, h.resume, if_pos ⟨haux, hlimit⟩]

/-- A command of a state that sends to its D group ends as it is finished. -/
theorem State.toPeers_ended (h : s.cmdOf n = some c) : ((s.toPeers m).finish n o).Ended n o :=
  State.finish_ended (State.toPeers_cmdOf.trans h)

/-! ### Updates -/

/-- Settles O43: verdicts sent change the links alone, so an UPDATE finds what it has heard as before; alone in its group it
owns the weight and proceeds at once, else each verdict heard has it weigh all of them. -/
theorem updatesAwaitTheirVerdicts : Obligations.UpdatesAwaitTheirVerdicts := by
  unfold Obligations.UpdatesAwaitTheirVerdicts
  intro s n c env w g hs hq hc hb
  refine ⟨fun h hd ho hl hw hg => ?alone, fun o h ho => ?failed, fun r h ho hl hr => ?sent,
    fun rank status h hop haux hpass => ?heard, fun h haux hlimit => ?limit⟩
  case alone =>
    obtain rfl := h.id
    rw [exec_update_of_passed h hb ho, State.toPeers_alone hd, State.weighVerdicts_alone hl hd]
    refine ⟨fun hskip => ?runs, fun hskip => ?skips⟩
    case runs =>
      obtain ⟨m, hrun⟩ := State.updateProceed_runs hq hc hd hw hg hskip
      rw [hrun]
      exact ⟨_, rfl, State.toPeers_ended ((State.runRule_cmdOf hc).trans h.found)⟩
    case skips =>
      rw [State.updateProceed_skips hd hw hg hskip]
      have hfound : (s.addSat Reg.updateEvents 15 0 1).cmdOf c.id = some c :=
        (State.cmdOf_congr (by simp)).trans h.found
      exact ⟨_, rfl, State.finish_ended hfound,
        (State.fld_congr State.reg_finish).trans (State.fld_addSat_same hs (by decide) (by decide)),
        fun o ho => State.reg_finish.trans (State.reg_setFld_other ho), by simp, by simp⟩
  case failed =>
    rw [exec_update_of_failed h hb ho]
    refine ⟨_, rfl, State.toPeers_ended (c := c) ?found, ?tens, ?mem⟩
    case found => split <;> exact h.found
    case tens => refine (toPeers_same _ _).tens.trans ?_; split <;> rfl
    case mem => refine (toPeers_same _ _).mem.trans ?_; split <;> rfl
  case sent =>
    obtain rfl := h.id
    have hnone : (s.toPeers (.verdict stOK 0)).verdictsOn c.id = [] := State.toPeers_verdictsOn.trans hl
    rw [exec_update_of_passed h hb ho, State.weighVerdicts_waits (r := r) (by simp [hnone])
      (State.toPeers_dPeers.symm ▸ hr) (by simp [hnone])]
    exact ⟨_, rfl, State.cmdOf_park (State.toPeers_cmdOf.trans h.found), State.toPeers_out, (toPeers_same _ _).tens⟩
  case heard =>
    obtain rfl := h.id
    rw [exec_verdict_of_waits h hop haux]
    refine ⟨fun hfails => ?fails, fun r hpasses hr hne hunheard => ?passes⟩
    case fails =>
      have hfind : ((s.hear c.id rank status).verdictsOn c.id).find? (fun v => v.status ≠ stOK) =
          some ⟨c.id, rank, status⟩ := by
        rw [State.verdictsOn_hear, List.find?_append, List.find?_eq_none.2 fun v hv => by simp [hpass v hv]]
        simp [hfails]
      rw [State.weighVerdicts_fails hfind]
      exact ⟨_, rfl, State.finish_ended (c := c) h.found, rfl⟩
    case passes =>
      subst hpasses
      rw [State.weighVerdicts_waits (s := s.hear c.id rank stOK) (r := r)
        (by simpa [State.verdictsOn_hear, or_imp, forall_and] using hpass) hr
        (by simpa [State.verdictsOn_hear, or_imp, forall_and, hne.symm] using hunheard)]
      refine ⟨_, rfl, ?waits, State.verdictsOn_hear, rfl⟩
      case waits =>
        have hstays : { c with phase := .waiting, aux := [16] } = c := by rw [← h.phase, ← haux]
        exact (State.cmdOf_park (s := s.hear c.id rank stOK) h.found).trans (congrArg some hstays)
  case limit =>
    rw [exec_peerLimit_of_waits h haux hlimit]
    exact ⟨_, rfl, State.toPeers_ended h.found, State.toPeers_out, (toPeers_same _ _).tens, (toPeers_same _ _).mem⟩

end Sys2Proof.Machine
end

section
/-! SUPPORT. Rules of the state that moves, the sweep and the tests share: fields set, what waits for memory, the test of a
slot, and frames that leave by another link. -/

namespace Sys2Proof.Machine

variable {s : State} {n : Nat}

/-- A field just set to a value of its width holds it. -/
theorem State.fld_setFld_of_fits (hs : s.Sound) {off hi lo v : Nat} (h : lo ≤ hi) (hw : hi < 64)
    (hv : v < 2 ^ (hi + 1 - lo)) : (s.setFld off hi lo v).fld off hi lo = v := by
  rw [State.fld_setFld_same hs h hw, Nat.mod_eq_of_lt hv]

/-- A command that parks writes no register. -/
theorem State.reg_park {a : List Nat} {o : Nat} : (s.park n a).reg o = s.reg o := State.reg_congr (by simp)

/-! ### What waits for memory (09 R250, 10 R283) -/

/-- A part of the state that an update of a command leaves, commands reconsidered leave. -/
theorem State.wakeAll_leaves {β : Type} (part : State → β) (h : ∀ (u : State) k f, part (u.updCmd k f) = part u)
    (l : List Nat) : part (s.wakeAll l) = part s := by
  have hwake (u : State) (r : Nat) (c : Cmd) : part (u.wake r c) = part u := by
    unfold State.wake
    split
    · exact h u _ _
    · rfl
  exact State.foldl_leaves part (fun u c => State.foldl_leaves part (fun u r => hwake u r c) l) _

/-- With no access waiting, memory that admits accesses again changes nothing but commands. -/
theorem State.memoryGoesOn_fields (h : s.mem.stalled = []) : s.memoryGoesOn.mem = s.mem ∧ s.memoryGoesOn.regs = s.regs ∧
    s.memoryGoesOn.tens = s.tens ∧ s.memoryGoesOn.tally = s.tally ∧ s.memoryGoesOn.imp = s.imp := by
  have hmem : (s.wakeAll [8, 30]).mem = s.mem := State.wakeAll_leaves State.mem (fun _ _ _ => rfl) _
  have hsame : { (s.wakeAll [8, 30]).mem with stalled := [] } = s.mem := by rw [hmem, ← h]
  rw [State.memoryGoesOn, State.restart, hmem, h, List.foldl_nil]
  exact ⟨hmem ▸ hsame, State.wakeAll_leaves State.regs (fun _ _ _ => rfl) _,
    State.wakeAll_leaves State.tens (fun _ _ _ => rfl) _, State.wakeAll_leaves State.tally (fun _ _ _ => rfl) _,
    State.wakeAll_leaves State.imp (fun _ _ _ => rfl) _⟩

/-! ### Slots tested, and frames launched again (18 R430, 11 R300) -/

/-- The test of a slot is recorded in its own history alone. -/
theorem State.reg_slotTested_other {p kind o : Nat} {pass : Bool} (h : o ≠ Reg.slotTest p) :
    (s.slotTested p kind pass).reg o = s.reg o := by
  have hcount (u : State) (hi lo x : Nat) : (u.addSat (Reg.slotTest p) hi lo x).reg o = u.reg o := State.reg_setFld_other h
  cases pass <;> simp [State.slotTested, State.reg_setFld_other h, hcount]

@[simp] theorem State.slotTested_fields {p kind : Nat} {pass : Bool} : (s.slotTested p kind pass).cmd = s.cmd ∧
    (s.slotTested p kind pass).mem = s.mem ∧ (s.slotTested p kind pass).tens = s.tens ∧
    (s.slotTested p kind pass).imp = s.imp ∧ (s.slotTested p kind pass).pwr = s.pwr := by
  cases pass <;> simp [State.slotTested]

theorem relaunch_same (f : IfpFrame) : SameButLinks s (s.relaunch f) := by
  unfold State.relaunch
  dsimp only
  split
  · exact launch_same f
  · exact SameButLinks.fab _

end Sys2Proof.Machine
end

section
/-! SUPPORT and PROOF. Declarations of tensors and of operations, and the release of a tensor (09 R238 to R242). -/

namespace Sys2Proof.Machine

variable {s : State} {n d : Nat} {c : Cmd}

theorem exec_declareTensor (n : Nat) (s : State) : exec (.declareTensor n) s = execDeclareTensor n s := rfl

theorem exec_declareOp (n : Nat) (s : State) : exec (.declareOp n) s = execDeclareOp n s := rfl

theorem exec_releaseTensor (n : Nat) (s : State) : exec (.releaseTensor n) s = execReleaseTensor n s := rfl

/-! ### DECLARE_TENSOR (R238 to R240) -/

/-- How many handles a DECLARE_TENSOR takes: one for the tensor, and one for the companion of a block-scaled format. -/
def Cmd.handleCount (c : Cmd) : Nat := if isMX (c.par 32 1) then 2 else 1

theorem State.addTensor_nextHandle : (s.addTensor c).imp.nextHandle = s.imp.nextHandle + c.handleCount := by
  unfold State.addTensor Cmd.handleCount
  dsimp only [Cmd.newTensor]
  split <;> rfl

/-- A DECLARE_TENSOR that its checks refuse ends BAD_PARAM. -/
theorem exec_declareTensor_of_fault (h : s.Ready n 0x0301 c) (hf : s.declareFault c = some d) :
    exec (.declareTensor n) s = .next (s.finish n (Outcome.bad d)) := by
  rw [exec_declareTensor, execDeclareTensor, h.run]
  simp only [hf, h.id]

/-- A DECLARE_TENSOR with room in the tables and no imposition in force declares its tensors, without a place. -/
theorem exec_declareTensor_of_noImposition (h : s.Ready n 0x0301 c) (hf : s.declareFault c = none)
    (hcur : s.imp.cur = none) (hroom : s.tens.length + c.handleCount ≤ 65536)
    (hhandles : s.imp.nextHandle + c.handleCount ≤ noHandle) : exec (.declareTensor n) s =
      .next ((s.addTensor c).finish n (Outcome.ok ((s.addTensor c).declareResult s.imp.nextHandle))) := by
  have hfits : ¬ (65536 < s.tens.length + c.handleCount ∨ noHandle < s.imp.nextHandle + c.handleCount) := by omega
  have hnone : (s.addTensor c).imp.cur.isNone = true := by rw [Option.isNone_iff_eq_none]; exact hcur
  rw [exec_declareTensor, execDeclareTensor, h.run]
  simp only [hf, h.id]
  rw [Cmd.handleCount] at hfits
  rw [if_neg hfits, if_pos hnone]

/-! ### DECLARE_OP (R241) -/

/-- A DECLARE_OP with room in the plan joins it under the next number. -/
theorem exec_declareOp_of_room (h : s.Ready n 0x0303 c) (hf : s.declareOpFault c = none)
    (hroom : s.imp.ops.length < 4096) : exec (.declareOp n) s =
      .next (State.finish { s with imp := { s.imp with
        ops := s.imp.ops ++ [⟨c.par 32 2, c.par 34 2, c.opHandles, c.par 52 1⟩] } } n (Outcome.ok s.imp.ops.length)) := by
  rw [exec_declareOp, execDeclareOp, h.run]
  simp only [hf, h.id]
  exact congrArg _ (if_neg (Nat.not_le.2 hroom))

/-! ### Declarations -/

/-- Settles O26: a tensor declared while no imposition is in force is not placed, so it changes the list of tensors and the
next handle alone; the handle of a RELEASE_TENSOR was forgotten at its dispatch (log 59), and its row only answers. -/
theorem declarationsEnterTheTables : Obligations.DeclarationsEnterTheTables := by
  unfold Obligations.DeclarationsEnterTheTables
  refine ⟨?tensor, fun s n d c h hf => exec_declareTensor_of_fault h hf, ?op, ?release⟩
  case tensor =>
    intro s n c h hf hcur hroom hhandles
    rw [exec_declareTensor_of_noImposition h hf hcur hroom hhandles]
    exact ⟨_, rfl, State.finish_ended (s := s.addTensor c) h.found, rfl, State.addTensor_nextHandle, rfl, rfl, rfl, rfl⟩
  case op =>
    intro s n c h hf hroom
    rw [exec_declareOp_of_room h hf hroom]
    exact ⟨_, rfl, State.finish_ended (c := c) h.found, rfl, rfl, rfl, rfl, rfl⟩
  case release =>
    intro s n c h
    rw [exec_releaseTensor, execReleaseTensor, h.run, h.id]
    refine ⟨fun hfound => ?found, fun d hfault => ?fault⟩
    case found => simp only [hfound]
    case fault => simp only [hfault]

end Sys2Proof.Machine
end

section
/-! SUPPORT and PROOF. The sliver length, the logical cores and the spread of an imposition (09 R243, R245). -/

namespace Sys2Proof.Machine

variable {s : State} {c : Cmd} {a b k m t lc : Nat}

/-! ### Quotients rounded up -/

theorem ceilDiv_le_iff (hb : 0 < b) : ceilDiv a b ≤ k ↔ a ≤ b * k := by
  rw [ceilDiv, ← Nat.ceilDiv_eq_add_pred_div, ceilDiv_le_iff_le_smul hb, smul_eq_mul]

/-- What lies below a number lies in one of the pieces that the quotient rounded up counts. -/
theorem div_lt_ceilDiv (hb : 0 < b) (hk : k < a) : k / b < ceilDiv a b :=
  Nat.div_lt_of_lt_mul (hk.trans_le ((ceilDiv_le_iff hb).1 le_rfl))

theorem ceilDiv_pos (hb : 0 < b) (ha : 0 < a) : 0 < ceilDiv a b := (Nat.zero_le _).trans_lt (div_lt_ceilDiv hb ha)

/-! ### Slivers (R243) -/

/-- The sliver length for `t` tokens and at most `lc` logical cores. -/
def sliverFor (t lc : Nat) : Nat := 64 * ceilDiv (ceilDiv t lc) 64

theorem sliverFor_pos (ht : 0 < t) (hlc : 0 < lc) : 0 < sliverFor t lc :=
  Nat.mul_pos (by decide) (ceilDiv_pos (by decide) (ceilDiv_pos hlc ht))

/-- A multiple of 64 is at least the sliver length when the tokens fit in as many slivers of it. -/
theorem sliverFor_le_iff (hlc : 0 < lc) (hm : m % 64 = 0) : sliverFor t lc ≤ m ↔ t ≤ lc * m := by
  obtain ⟨q, rfl⟩ := Nat.dvd_of_mod_eq_zero hm
  rw [sliverFor, Nat.mul_le_mul_left_iff (by decide), ceilDiv_le_iff (by decide), ceilDiv_le_iff hlc]

/-- The slivers do not exceed the logical cores asked for. -/
theorem ceilDiv_sliverFor_le (ht : 0 < t) (hlc : 0 < lc) : ceilDiv t (sliverFor t lc) ≤ lc := by
  rw [ceilDiv_le_iff (sliverFor_pos ht hlc), Nat.mul_comm]
  exact (sliverFor_le_iff hlc (Nat.mul_mod_right 64 _)).1 le_rfl

/-- No multiple of 64 below the sliver length makes as few slivers. -/
theorem sliverFor_le_of_fits (hlc : 0 < lc) (hpos : 0 < m) (hm : m % 64 = 0) (hfits : ceilDiv t m ≤ lc) :
    sliverFor t lc ≤ m := by
  rw [sliverFor_le_iff hlc hm, Nat.mul_comm]
  exact (ceilDiv_le_iff hpos).1 hfits

/-! ### The spread (R245) -/

theorem powerBelow_eq_two_pow (n : Nat) : ∃ k ≤ 5, powerBelow n = 2 ^ k := by
  unfold powerBelow
  split_ifs
  exacts [⟨5, by decide, rfl⟩, ⟨4, by decide, rfl⟩, ⟨3, by decide, rfl⟩, ⟨2, by decide, rfl⟩, ⟨1, by decide, rfl⟩,
    ⟨0, by decide, rfl⟩]

theorem powerBelow_le {n : Nat} (hn : 0 < n) : powerBelow n ≤ n := by
  unfold powerBelow
  split_ifs <;> omega

/-- No power of two up to 32 and up to a number is above `powerBelow` of it. -/
theorem two_pow_le_powerBelow {n : Nat} (h32 : 2 ^ k ≤ 32) (hn : 2 ^ k ≤ n) : 2 ^ k ≤ powerBelow n := by
  have hk : k ≤ 5 := (Nat.pow_le_pow_iff_right (by decide)).1 (h32.trans_eq (by decide : 32 = 2 ^ 5))
  unfold powerBelow
  interval_cases k <;> split_ifs <;> omega

/-- The spread of `l` logical cores over `n` positions. -/
def spreadFor (l n : Nat) : Nat := if 2 * l ≤ n then powerBelow (n / l) else 1

/-- With two positions for each logical core or more, the spread is the greatest power of two up to 32 that fits. -/
theorem spreadFor_greatest {l n : Nat} (hl : 0 < l) (hn : 2 * l ≤ n) : spreadFor l n ≤ 32 ∧ spreadFor l n * l ≤ n ∧
    (∃ k, spreadFor l n = 2 ^ k) ∧ ∀ k, 2 ^ k ≤ 32 → 2 ^ k * l ≤ n → 2 ^ k ≤ spreadFor l n := by
  have hshare : 0 < n / l := Nat.div_pos (by omega) hl
  obtain ⟨k, hk, hpower⟩ := powerBelow_eq_two_pow (n / l)
  rw [spreadFor, if_pos hn]
  refine ⟨?upTo32, ?fits, ⟨k, hpower⟩, fun j h32 hj => ?greatest⟩
  case upTo32 => exact hpower ▸ Nat.pow_le_pow_right (by decide) hk
  case fits => exact (Nat.mul_le_mul_right l (powerBelow_le hshare)).trans (Nat.div_mul_le_self _ _)
  case greatest => exact two_pow_le_powerBelow h32 ((Nat.le_div_iff_mul_le hl).2 hj)

/-! ### The imposition of MODE NEW -/

/-- The imposition of an IMPOSE NEW with LOGICAL_CORES. -/
def State.newImposition (s : State) (c : Cmd) : Imposition :=
  let lam := sliverFor (c.par 40 4) (c.par 38 2)
  let l := ceilDiv (c.par 40 4) lam
  { number := s.imp.nextNumber, tokens := c.par 40 4, cores := l, sliver := lam, spread := spreadFor l s.positions,
    axisSize := c.axisSizes, axisRank := c.axisRanks, ops := s.imp.ops }

theorem State.nextImposition_of_new (hnew : c.isNew = true) (hlc : 0 < c.par 38 2) : s.nextImposition c =
    if 512 < sliverFor (c.par 40 4) (c.par 38 2) then .error dSliverRange else .ok (s.newImposition c) := by
  simp only [State.nextImposition, hnew, if_true, if_neg hlc.ne']
  rfl

/-- Settles O27: a multiple of 64 is at least the sliver length exactly when the tokens fit in LOGICAL_CORES slivers of it. The
positions are those without retired and vacated copses (log 105), and the model always spreads where R245 says 'may'. -/
theorem sliversAreTheLeastThatFit : Obligations.SliversAreTheLeastThatFit := by
  unfold Obligations.SliversAreTheLeastThatFit
  intro s c i hnew ht hlc h
  rw [State.nextImposition_of_new hnew hlc] at h
  split at h
  case isTrue => cases h
  case isFalse h512 =>
    obtain rfl := Except.ok.inj h
    have hpos := sliverFor_pos ht hlc
    exact ⟨rfl, rfl, Nat.mul_mod_right 64 _, hpos, Nat.not_lt.1 h512, ceilDiv_sliverFor_le ht hlc,
      fun m hm hmul hfits => sliverFor_le_of_fits hlc hm hmul hfits, rfl, fun τ hτ => div_lt_ceilDiv hpos hτ,
      spreadFor_greatest (ceilDiv_pos hpos ht)⟩

end Sys2Proof.Machine
end

section
/-! SUPPORT and PROOF. The commands of the Imposer: publication, migration, re-sharding and reports (09 R248 to R254, R262,
R263). -/

namespace Sys2Proof.Machine

variable {s t : State} {n lo hi last : Nat} {c : Cmd} {sh : Option (List (List Byte))} {moved changed : Bool}

theorem exec_impose (n : Nat) (sh : Option (List (List Byte))) (s : State) : exec (.impose n sh) s = execImpose n sh s := rfl

theorem exec_pendingPublication (n : Nat) (sh : Option (List (List Byte))) (s : State) :
    exec (.pendingPublication n sh) s = execPendingPublication n sh s := rfl

theorem exec_migrate (n : Nat) (s : State) : exec (.migrate n) s = execMigrate n s := rfl

theorem exec_reshard (n : Nat) (s : State) : exec (.reshard n) s = execReshard n s := rfl

theorem exec_queryImposition (n : Nat) (s : State) : exec (.queryImposition n) s = execQueryImposition n s := rfl

theorem exec_readIdle (n : Nat) (s : State) : exec (.readIdle n) s = execReadIdle n s := rfl

/-! ### IMPOSE and publication (R248, R249) -/

/-- An IMPOSE that has published, with nothing staged to re-shard, completes, or waits for a stopped evacuation. -/
theorem State.published_of_impose (hop : c.opcode = 0x0304) (hstaged : t.imp.reshard = none) :
    t.published c last sh = if t.evacuationStopped ((t.imp.cur.map (·.number)).getD 0) = true then t.park c.id [28, last]
      else t.finish c.id (Outcome.ok (t.impositionResult last)) := by
  simp [State.published, hop, hstaged]

/-- An IMPOSE whose checks pass and whose placement is found publishes it. -/
theorem State.publishNow_of_impose (hop : c.opcode = 0x0304) (hf : s.imposeFault c = none)
    (hp : s.publish c lo hi = .ok (t, moved, changed)) :
    s.publishNow c lo hi sh = t.published c (ofBool moved + 2 * ofBool changed) sh := by
  have hpass : s.publishFault c = none := by rw [State.publishFault, if_pos hop, hf]
  simp only [State.publishNow, hpass, hp]

/-- A BOUNDARY that expects another imposition than the one in force is STALE. -/
theorem State.imposeFault_of_stale {i : Imposition} (hmode : c.par 32 1 = 1) (hcur : s.imp.cur = some i)
    (hnumber : i.number ≠ c.par 60 4) : s.imposeFault c = some 0x0104 := by
  have hnew : c.isNew = false := by simp [Cmd.isNew, hmode]
  have hstale : s.stale (c.par 60 4) = true := by simp [State.stale, hcur, hnumber]
  simp [State.imposeFault, firstFault, hnew, hmode, hstale, dStale]

theorem exec_impose_of_fault {d : Nat} (h : s.Ready n 0x0304 c) (hf : s.imposeFault c = some d) :
    exec (.impose n sh) s = .next (s.finish n (Outcome.bad d)) := by
  rw [exec_impose, execImpose, h.run]
  simp only [hf, h.id]

theorem exec_impose_of_passed (h : s.Ready n 0x0304 c) (hf : s.imposeFault c = none) : exec (.impose n sh) s = .next (
    if s.publicationWaits c = true then s.park n [25, 0, s.imp.nextChange] else s.publishNow c 0 s.imp.nextChange sh) := by
  rw [exec_impose, execImpose, h.run]
  simp only [hf, h.id]

/-- A publication that waited takes place when it need not wait any more. -/
theorem exec_pendingPublication_of_turn (h : s.Waits n c) (hop : c.opcode = 0x0304) (haux : c.aux = [25, lo, hi])
    (hwaits : s.publicationWaits c = false) : exec (.pendingPublication n sh) s = .next (s.publishNow c lo hi sh) := by
  have hvacate : s.vacateWaits c lo hi = false := by simp [State.vacateWaits, hop]
  rw [exec_pendingPublication, execPendingPublication, h.resume]
  simp only [haux, hwaits, hvacate, Bool.or_self, Bool.false_eq_true, if_false]

/-- A BOUNDARY whose evacuation was stopped is looked at again. -/
theorem exec_pendingPublication_of_stopped (h : s.Waits n c) (haux : c.aux = [28, last]) :
    exec (.pendingPublication n sh) s = .next (s.published c last sh) := by
  rw [exec_pendingPublication, execPendingPublication, h.resume]
  simp only [haux]

/-! ### MIGRATE and RESHARD (R253, R254) -/

/-- MIGRATE without NOW makes its changes pending. -/
theorem exec_migrate_of_later (h : s.Ready n 0x0306 c) (hf : s.migrateFault c = none) (hnow : c.par 36 1 = 0) :
    exec (.migrate n) s = .next ((s.request c.migrateChanges).finish n
      (Outcome.ok ((s.request c.migrateChanges).impositionResult 0))) := by
  have hbit (i : Nat) : bit (c.par 36 1) i ≠ 1 := by simp [hnow, bit]
  rw [exec_migrate, execMigrate, h.run]
  simp only [hf, h.id, if_neg (hbit _)]

/-- Bytes of this node that can be read are given to what a command does with them. -/
theorem State.fetch_of_readable {env : Env} {a k d : Nat} {f : List Byte → State → State} {b : List Byte} (hq : env.Quiet)
    (hrange : s.rangeFault a k = none) (hgate : s.rangeGate c [(localOf a, k)] [] = none)
    (hstop : s.readStop (localOf a) k = .none) (hload : s.loadBytes (localOf a) k = (t, .ok b)) :
    s.fetch env c a k d f = f b t := by
  simp only [State.fetch, hrange, State.corrections_quiet hq, hgate, hstop, hload]

/-- RESHARD with a list that can be read stages it. -/
theorem exec_reshard_of_readable {b : List Byte} (h : s.Ready n 0x0307 c) (hf : s.reshardFault c = none)
    (hrange : s.rangeFault (c.par 40 8) (8 * c.par 36 4) = none)
    (hgate : s.rangeGate c [(localOf (c.par 40 8), 8 * c.par 36 4)] [] = none)
    (hstop : s.readStop (localOf (c.par 40 8)) (8 * c.par 36 4) = .none)
    (hload : s.loadBytes (localOf (c.par 40 8)) (8 * c.par 36 4) = (t, .ok b)) :
    exec (.reshard n) s = .next (t.stageReshard c (reshardList (c.par 36 4) b)) := by
  rw [exec_reshard, execReshard, h.run]
  simp only [hf, State.fetch_of_readable (env := Env.good) ⟨rfl, rfl, rfl, rfl, rfl⟩ hrange hgate hstop hload]

/-! ### Reports (R262, R263) -/

/-- QUERY_IMPOSITION without its report answers in RESULT alone. -/
theorem exec_queryImposition_of_noReport (h : s.Ready n 0x0305 c) (hreport : c.par 40 1 % 2 = 0) :
    exec (.queryImposition n) s = .next (s.finish n (Outcome.ok s.queryResult)) := by
  have hbit : bit (c.par 40 1) 0 ≠ 1 := by
    rw [bit, Nat.shiftRight_zero, hreport]
    decide
  rw [exec_queryImposition, execQueryImposition, h.run, if_neg hbit, h.id]

/-- READ_IDLE to memory of this node that admits the access gives its snapshot. -/
theorem exec_readIdle_of_writable (h : s.Ready n 0x0308 c) (halign : c.par 32 8 % 8 = 0)
    (hnode : nodeOf (c.par 32 8) = s.node) (hrange : s.rangeFault (c.par 32 8) 294912 = none)
    (hgate : s.rangeGate c [] [(localOf (c.par 32 8), 294912)] = none) :
    exec (.readIdle n) s = .next (s.giveIdle c (c.par 32 8)) := by
  rw [exec_readIdle, execReadIdle, h.run]
  simp only [halign, hnode, hrange, hgate, ne_eq, not_true_eq_false, Option.isSome_none, Bool.false_eq_true, or_self,
    if_false]

/-! ### The Imposer's commands -/

/-- Settles O28: each row meets its checks and then does its one effect; a publication takes place at the row of its IMPOSE, or
at PENDING_PUBLICATION, with the changes pending at its dispatch (log 110). -/
theorem imposerCommandsTakePlace : Obligations.ImposerCommandsTakePlace := by
  unfold Obligations.ImposerCommandsTakePlace
  intro s n c
  refine ⟨?publishes, ?waits, ?stale, ?pending, ?stopped, exec_migrate_of_later, ?reshard, exec_queryImposition_of_noReport,
    exec_readIdle_of_writable⟩
  case publishes =>
    intro sh t moved changed h hf hwaits hp hstaged
    rw [exec_impose_of_passed h hf, if_neg (by simp [hwaits]), State.publishNow_of_impose h.opcode hf hp,
      State.published_of_impose h.opcode hstaged, h.id]
  case waits =>
    intro sh h hf hwaits
    rw [exec_impose_of_passed h hf, if_pos hwaits]
  case stale =>
    rintro sh h hmode ⟨i, hcur, hnumber⟩
    exact exec_impose_of_fault h (State.imposeFault_of_stale hmode hcur hnumber)
  case pending =>
    intro sh t lo hi moved changed h hop haux hwaits hf hp hstaged hgoes
    rw [exec_pendingPublication_of_turn h hop haux hwaits, State.publishNow_of_impose hop hf hp,
      State.published_of_impose hop hstaged, if_neg (by simp [hgoes]), h.id]
  case stopped =>
    intro sh last h hop haux hstaged hgoes
    rw [exec_pendingPublication_of_stopped h haux, State.published_of_impose hop hstaged, if_neg (by simp [hgoes]), h.id]
  case reshard =>
    intro h hf hrange hgate hstop t d hload
    exact exec_reshard_of_readable h hf hrange hgate hstop hload

end Sys2Proof.Machine
end

section
/-! SUPPORT and PROOF. Moves of pages, and the end of a superseded imposition (09 R250, R251; 10 R277). -/

namespace Sys2Proof.Machine

variable {s : State} {m x : Move} {p : Nat}

theorem exec_placementMove (k : MoveKind) (s : State) : exec (.placementMove k) s = execPlacementMove k s := rfl

theorem exec_placementMoveEnd (k : MoveKind) (s : State) : exec (.placementMoveEnd k) s = execPlacementMoveEnd k s := rfl

theorem exec_impositionDrained (s : State) : exec .impositionDrained s = execImpositionDrained s := rfl

/-! ### A page begins its move (R250) -/

/-- The move of a page that may begin does. -/
theorem exec_placementMove_of_page (hmay : s.mayMove m = true)
    (hfind : (s.imp.moves.find? fun x => x.kind = .page p ∧ ! x.begun) = some m) :
    exec (.placementMove (.page p)) s = .next (s.setMove m { m with begun := true }) := by
  simp only [exec_placementMove, execPlacementMove, hfind, hmay, Bool.not_true, Bool.false_eq_true, if_false]

/-- The move changed is in the list. -/
theorem State.mem_setMove (h : m ∈ s.imp.moves) : x ∈ (s.setMove m x).imp.moves :=
  List.mem_map.2 ⟨m, h, if_pos rfl⟩

/-! ### A page's move ends (R250, R251) -/

/-- A channel that is not evacuating reads as it did when a page has left it. -/
theorem State.channelEmpty_of_notEvacuating (h : s.fld (Reg.channelState (m.src % 256)) 63 62 ≠ 2) :
    s.channelEmpty m = s := if_neg fun hand => h hand.1

/-- The channel of the last page to leave reads mapped out. -/
theorem State.channelEmpty_of_last (h : s.fld (Reg.channelState (m.src % 256)) 63 62 = 2)
    (hlast : ∀ x ∈ s.imp.moves, x.ended = false → x.src % 256 ≠ m.src % 256) :
    s.channelEmpty m = s.setFld (Reg.channelState (m.src % 256)) 63 62 3 := by
  refine if_pos ⟨h, List.any_eq_false.2 fun x hx => ?_⟩
  cases hended : x.ended with
  | true => simp
  | false => simp [hlast x hx hended]

/-- The state of a channel is all that its last page leaving changes. -/
theorem State.channelEmpty_fields : (s.channelEmpty m).mem = s.mem ∧ (s.channelEmpty m).tens = s.tens ∧
    (s.channelEmpty m).tally = s.tally ∧ (s.channelEmpty m).imp = s.imp := by
  unfold State.channelEmpty
  dsimp only
  split <;> simp

/-- A move that has ended: it carries and holds nothing any more. -/
def Move.finished (m : Move) : Move := { m with ended := true, cells := [], regs := [], heldDeliveries := [] }

theorem Move.finished_of_page (h : m.kind = .page p) :
    m.finished = ⟨.page p, m.number, m.src, m.dst, m.begun, true, [], [], m.lost, []⟩ := by rw [Move.finished, h]

/-- The moves that have ended are forgotten. -/
def State.endedForgotten (s : State) : State :=
  { s with imp := { s.imp with moves := s.imp.moves.filter fun x => ! x.ended } }

/-- The move of a page ends: with no imposition DRAINING it is forgotten, and what waited for memory goes on. -/
theorem exec_placementMoveEnd_of_page (hkind : m.kind = .page p) (hheld : m.heldDeliveries = [])
    (hdraining : s.imp.draining = none) (hgoes : s.moveStopped m = false)
    (hfind : (s.imp.moves.find? fun x => x.kind = .page p ∧ x.begun ∧ ! x.ended) = some m) :
    exec (.placementMoveEnd (.page p)) s =
      .next (((s.setMove m m.finished).channelEmpty m).endedForgotten).memoryGoesOn := by
  have hnone : ((s.setMove m m.finished).channelEmpty m).imp.draining.isNone = true := by
    obtain ⟨-, -, -, himp⟩ := State.channelEmpty_fields (s := s.setMove m m.finished) (m := m)
    rw [himp, Option.isNone_iff_eq_none]
    exact hdraining
  rw [exec_placementMoveEnd, execPlacementMoveEnd, hfind]
  simp only [hkind, hheld, hgoes, Bool.false_and, Bool.false_eq_true, if_false, List.foldl_nil,
    ← Move.finished_of_page hkind, hnone, if_true]
  rfl

/-- A move that ended is not among those kept. -/
theorem State.not_mem_endedForgotten (hended : m.ended = false) :
    m ∉ (s.setMove m m.finished).imp.moves.filter fun x => ! x.ended := by
  intro hm
  obtain ⟨hm, -⟩ := List.mem_filter.1 hm
  obtain ⟨x, -, hx⟩ := List.mem_map.1 hm
  split at hx
  case isTrue =>
    have : m.finished.ended = m.ended := congrArg Move.ended hx
    simp [Move.finished, hended] at this
  case isFalse hne => exact hne hx

/-- Of the moves after one has ended, those not ended were there before, and are others. -/
theorem State.unended_of_mem_setMove (hx : x ∈ (s.setMove m m.finished).imp.moves) (hended : x.ended = false) :
    x ∈ s.imp.moves ∧ x ≠ m := by
  obtain ⟨y, hy, hxy⟩ := List.mem_map.1 hx
  split at hxy
  case isTrue => simp [← hxy, Move.finished] at hended
  case isFalse hne =>
    subst hxy
    exact ⟨hy, hne⟩

/-! ### The end of a superseded imposition (R251) -/

/-- A DRAINING imposition that nothing holds and nothing in transit names is dropped, and its tallies are raised. -/
theorem exec_impositionDrained_of_free {d : Superseded} (hdraining : s.imp.draining = some d)
    (hholders : s.holders d.imp.number = 0) (htransit : s.inTransit d.imp.number = false) : exec .impositionDrained s = .next
      (State.raiseAll { s with imp := { s.imp with
        draining := none, moves := s.imp.moves.filter fun x => ! x.ended } } d.tallies) := by
  have hfree : ¬ (s.holders d.imp.number ≠ 0 ∨ s.inTransit d.imp.number = true) := by simp [hholders, htransit]
  rw [exec_impositionDrained, execImpositionDrained]
  simp only [hdraining, if_neg hfree]

/-! ### Moves and drains -/

/-- Settles O29: a page's move changes the map and not the memory (log 113), and what waits for it is reconsidered, which
changes commands alone. -/
theorem movesBeginAndEnd : Obligations.MovesBeginAndEnd := by
  unfold Obligations.MovesBeginAndEnd
  refine ⟨?begins, ?ends, ?drained⟩
  case begins =>
    intro s m p _ hmay hfind
    exact ⟨_, exec_placementMove_of_page hmay hfind, State.mem_setMove (List.mem_of_find?_eq_some hfind), rfl, rfl, rfl, rfl,
      rfl⟩
  case ends =>
    intro s m p hs hkind hheld hdraining hstalled hgoes hfind
    have hended : m.ended = false := by
      obtain ⟨-, -, hended⟩ : m.kind = .page p ∧ m.begun = true ∧ m.ended = false := by
        simpa using List.find?_some hfind
      exact hended
    obtain ⟨hmem, htens, htally, himp⟩ := State.channelEmpty_fields (s := s.setMove m m.finished) (m := m)
    obtain ⟨gmem, gregs, gtens, gtally, gimp⟩ := State.memoryGoesOn_fields
      (s := ((s.setMove m m.finished).channelEmpty m).endedForgotten) ((congrArg MemSt.stalled hmem).trans hstalled)
    have hregs : _ = ((s.setMove m m.finished).channelEmpty m).regs := gregs
    refine ⟨_, exec_placementMoveEnd_of_page hkind hheld hdraining hgoes hfind, ?forgotten, gmem.trans hmem,
      gtens.trans htens, gtally.trans htally, fun hstate => ?stays, fun hstate hlast => ?mappedOut⟩
    case forgotten =>
      rw [gimp, State.endedForgotten, himp]
      exact State.not_mem_endedForgotten hended
    case stays =>
      rw [hregs, State.channelEmpty_of_notEvacuating (s := s.setMove m m.finished) hstate]
      rfl
    case mappedOut =>
      have hothers : ∀ x ∈ (s.setMove m m.finished).imp.moves, x.ended = false → x.src % 256 ≠ m.src % 256 := by
        intro x hx hx'
        obtain ⟨hold, hne⟩ := State.unended_of_mem_setMove hx hx'
        exact hlast x hold hne
      have hset : (s.setMove m m.finished).Sound := (State.setMove_kept hs.kept).sound
      rw [State.fld_congr (State.reg_congr hregs), State.channelEmpty_of_last (s := s.setMove m m.finished) hstate hothers,
        State.fld_setFld_of_fits hset (by decide) (by decide) (by decide)]
  case drained =>
    intro s d hdraining hholders htransit
    exact exec_impositionDrained_of_free hdraining hholders htransit

end Sys2Proof.Machine
end

section
/-! SUPPORT and PROOF. The sweep, and a router found bad while running (09 R255, R256; 01 R20; 18 R428). -/

namespace Sys2Proof.Machine

variable {s : State} {n k j : Nat} {c : Cmd}

theorem exec_sweepControl (n : Nat) (s : State) : exec (.sweepControl n) s = execSweepControl n s := rfl

theorem exec_sweepEvent (s : State) : exec .sweepEvent s = execSweepEvent s := rfl

theorem exec_sweepMoveEnd (k : Nat) (s : State) : exec (.sweepMoveEnd k) s = execSweepMoveEnd k s := rfl

theorem exec_slotTestEnd (k : Nat) (pass : Bool) (s : State) : exec (.slotTestEnd k pass) s = execSlotTestEnd k pass s := rfl

theorem exec_routerFault (k : Nat) (s : State) : exec (.routerFault k) s = execRouterFault k s := rfl

/-! ### SWEEP_CONTROL (R255) -/

/-- The sweep stopped, started at a pace, or paced, by an ACTION. -/
def State.sweepSet (s : State) (action pace : Nat) : State :=
  match action with
  | 0 => s.setFld Reg.sweepState 31 31 0
  | 1 => (s.setFld Reg.sweepState 31 31 1).setFld Reg.sweepState 15 0 pace
  | _ => s.setFld Reg.sweepState 15 0 pace

/-- SWEEP_CONTROL with an ACTION and an INTERVAL_MS of its ranges sets the sweep. -/
theorem exec_sweepControl_of_ready (h : s.Ready n 0x0D06 c) (haction : c.par 32 1 ≤ 2) (hpace : c.par 34 2 ≠ 0) :
    exec (.sweepControl n) s = .next ((s.sweepSet (c.par 32 1) (c.par 34 2)).finish n (Outcome.ok 0)) := by
  have hgood : ¬ (2 < c.par 32 1 ∨ c.par 34 2 = 0) := by omega
  rw [exec_sweepControl, execSweepControl, h.run, h.id]
  exact congrArg _ (if_neg hgood)

/-- The sweep set changes SWEEP_STATE alone. -/
theorem State.sweepSet_fields (a p : Nat) : (s.sweepSet a p).cmd = s.cmd ∧ (s.sweepSet a p).mem = s.mem ∧
    (s.sweepSet a p).tally = s.tally ∧ ∀ o, o ≠ Reg.sweepState → (s.sweepSet a p).reg o = s.reg o := by
  unfold State.sweepSet
  split <;> simp +contextual [State.reg_setFld_other]

theorem State.sweepSet_stops (hs : s.Sound) {p : Nat} : (s.sweepSet 0 p).fld Reg.sweepState 31 31 = 0 ∧
    (s.sweepSet 0 p).fld Reg.sweepState 15 0 = s.fld Reg.sweepState 15 0 :=
  ⟨State.fld_setFld_of_fits hs (by decide) (by decide) (by decide),
    State.fld_setFld_below hs (by decide) (by decide) (by decide) (by decide)⟩

theorem State.sweepSet_starts (hs : s.Sound) {p : Nat} (hp : p < 2 ^ 16) : (s.sweepSet 1 p).fld Reg.sweepState 31 31 = 1 ∧
    (s.sweepSet 1 p).fld Reg.sweepState 15 0 = p := by
  have hon : (s.setFld Reg.sweepState 31 31 1).Sound := hs.setFld
  rw [State.sweepSet, State.fld_setFld_above hon (by decide) (by decide) (by decide)]
  exact ⟨State.fld_setFld_of_fits hs (by decide) (by decide) (by decide),
    State.fld_setFld_of_fits hon (by decide) (by decide) hp⟩

theorem State.sweepSet_paces (hs : s.Sound) {p : Nat} (hp : p < 2 ^ 16) : (s.sweepSet 2 p).fld Reg.sweepState 31 31 =
    s.fld Reg.sweepState 31 31 ∧ (s.sweepSet 2 p).fld Reg.sweepState 15 0 = p :=
  ⟨State.fld_setFld_above hs (by decide) (by decide) (by decide),
    State.fld_setFld_of_fits hs (by decide) (by decide) hp⟩

/-! ### Sweep events and the slots under test (R255, R256) -/

/-- A sweep event of a running sweep, beside no array self-test: it is counted, the next one is of the next slot, and each copse
takes its part in it. -/
theorem exec_sweepEvent_of_running (hon : s.fld Reg.sweepState 31 31 = 1)
    (htests : ∀ t ∈ s.obs.tests, t.kind = 0 → t.running = false) : exec .sweepEvent s =
      .next ((List.range 256).foldl (State.sweepCopse (s.fld Reg.sweepState 30 26))
        ((s.addSat Reg.sweepState 63 32 1).setFld Reg.sweepState 30 26 ((s.fld Reg.sweepState 30 26 + 1) % 17))) := by
  have hnone : (s.obs.tests.any fun t => decide (t.kind = 0) && t.running) = false :=
    List.any_eq_false.2 fun t ht => by simpa using htests t ht
  rw [exec_sweepEvent, execSweepEvent]
  simp only [hon, hnone, Nat.one_ne_zero, decide_false, Bool.or_self, Bool.false_eq_true, if_false]

/-- A position whose weights stay behind leaves registers, memory and the sweep. -/
theorem State.weightsLeft_fields (core : Nat) : (s.weightsLeft core).regs = s.regs ∧ (s.weightsLeft core).mem = s.mem ∧
    (s.weightsLeft core).imp = s.imp := ⟨rfl, rfl, rfl⟩

/-- What happens next to a copse is noted in the sweep alone. -/
theorem State.setSweep_fields (p : Option SweepPhase) : (s.setSweep k p).regs = s.regs ∧ (s.setSweep k p).mem = s.mem :=
  ⟨rfl, rfl⟩

/-- The next phase of a copse in the sweep is there. -/
theorem State.mem_setSweep {p q : SweepPhase} (h : (k, p) ∈ s.imp.sweep) : (k, q) ∈ (s.setSweep k (some q)).imp.sweep :=
  List.mem_filterMap.2 ⟨(k, p), h, by simp⟩

/-- A copse of which the position `j` is on slot 16: it reads SWEEP with `j` under test. -/
def State.sweepReads (s : State) (k j : Nat) : State :=
  (s.setFld (Reg.copseState k) 31 28 1).setFld (Reg.copseState k) 21 17 j

theorem State.sweepReads_spec (hs : s.Sound) (hj : j < 2 ^ 5) : (s.sweepReads k j).fld (Reg.copseState k) 31 28 = 1 ∧
    (s.sweepReads k j).fld (Reg.copseState k) 21 17 = j ∧
    ∀ o, o ≠ Reg.copseState k → (s.sweepReads k j).reg o = s.reg o := by
  have hout : (s.setFld (Reg.copseState k) 31 28 1).Sound := hs.setFld
  unfold State.sweepReads
  rw [State.fld_setFld_above hout (by decide) (by decide) (by decide)]
  exact ⟨State.fld_setFld_of_fits hs (by decide) (by decide) (by decide),
    State.fld_setFld_of_fits hout (by decide) (by decide) hj,
    fun o ho => (State.reg_setFld_other ho).trans (State.reg_setFld_other ho)⟩

/-- A position that was moving out is on slot 16: its weights stay behind, and its old slot is under test. -/
def State.sweptOut (s : State) (k j : Nat) : State :=
  ((s.sweepReads k j).setSweep k (some (.testing j))).weightsLeft (16 * k + j)

theorem State.sweptOut_fields {p : SweepPhase} (h : (k, p) ∈ s.imp.sweep) :
    (s.sweptOut k j).regs = (s.sweepReads k j).regs ∧ (s.sweptOut k j).mem = s.mem ∧ (k, .testing j) ∈ (s.sweptOut k j).imp.sweep := by
  obtain ⟨hregs, hmem, himp⟩ := State.weightsLeft_fields
    (s := (s.sweepReads k j).setSweep k (some (.testing j))) (16 * k + j)
  obtain ⟨hregs', hmem'⟩ := State.setSweep_fields (s := s.sweepReads k j) (k := k) (some (.testing j))
  obtain ⟨hsame, hsweep⟩ : (s.sweepReads k j).mem = s.mem ∧ (s.sweepReads k j).imp = s.imp := by simp [State.sweepReads]
  refine ⟨hregs.trans hregs', hmem.trans (hmem'.trans hsame), ?_⟩
  rw [State.sweptOut, himp]
  refine State.mem_setSweep (p := p) ?_
  rw [hsweep]
  exact h

/-- A position that was moving out, and may move, is on slot 16. -/
theorem exec_sweepMoveEnd_of_out (hfind : (s.imp.sweep.find? fun x => x.1 = k) = some (k, .movingOut j))
    (hmay : s.sweepMayMove = true) (hstate : s.fld (Reg.copseState k) 31 28 = 0) : exec (.sweepMoveEnd k) s =
      .next (s.sweptOut k j) := by
  rw [exec_sweepMoveEnd, execSweepMoveEnd, hfind]
  simp only [hmay, Bool.not_true, Bool.false_eq_true, if_false, hstate, if_true]
  rfl

/-- A slot that passes its test, not the spare one, moves back. -/
theorem exec_slotTestEnd_of_pass (hfind : (s.imp.sweep.find? fun x => x.1 = k) = some (k, .testing j)) (hj : j < 16) :
    exec (.slotTestEnd k true) s = .next ((s.slotTested (17 * k + j) 1 true).setSweep k (some (.movingBack j))) := by
  rw [exec_slotTestEnd, execSlotTestEnd, hfind]
  simp only [if_true, if_neg hj.ne]

/-! ### The sweep -/

/-- Settles O30: each row of the sweep sets fields of its own register, and the phase of a copse is noted in the sweep; the
weight registers of a position that moves stay behind (04 R102). -/
theorem theSweepGoesOn : Obligations.TheSweepGoesOn := by
  unfold Obligations.TheSweepGoesOn
  refine ⟨?control, ?event, ?moved, ?passes, ?router⟩
  case control =>
    intro s n c hs h haction hpace
    obtain ⟨hcmd, hmem, htally, hother⟩ := State.sweepSet_fields (s := s) (c.par 32 1) (c.par 34 2)
    refine ⟨_, exec_sweepControl_of_ready h haction hpace, State.finish_ended ((State.cmdOf_congr hcmd).trans h.found),
      fun hstop => ?stop, fun hstart => ?start, fun hpaced => ?pace, fun o ho => State.reg_finish.trans (hother o ho), hmem,
      htally⟩
    case stop =>
      rw [State.fld_congr State.reg_finish, State.fld_congr State.reg_finish, hstop]
      exact State.sweepSet_stops hs
    case start =>
      rw [State.fld_congr State.reg_finish, State.fld_congr State.reg_finish, hstart]
      exact State.sweepSet_starts hs Cmd.par_lt
    case pace =>
      rw [State.fld_congr State.reg_finish, State.fld_congr State.reg_finish, hpaced]
      exact State.sweepSet_paces hs Cmd.par_lt
  case event =>
    intro s hon htests
    exact exec_sweepEvent_of_running hon htests
  case moved =>
    intro s k j hs hfind hj hmay hstate
    obtain ⟨hsweep, hslot, hother⟩ := State.sweepReads_spec (k := k) hs (Nat.lt_trans hj (by decide))
    obtain ⟨hregs, hmem, hnoted⟩ := State.sweptOut_fields (j := j) (List.mem_of_find?_eq_some hfind)
    refine ⟨_, exec_sweepMoveEnd_of_out hfind hmay hstate, ?_, ?_, hnoted, fun o ho => ?_, hmem⟩
    · rw [State.fld_congr (State.reg_congr hregs), hsweep]
    · rw [State.fld_congr (State.reg_congr hregs), hslot]
    · rw [State.reg_congr hregs, hother o ho]
  case passes =>
    intro s k j hfind hj
    obtain ⟨-, hmem, -, himp, -⟩ := State.slotTested_fields (s := s) (p := 17 * k + j) (kind := 1) (pass := true)
    obtain ⟨hregs, hmem'⟩ := State.setSweep_fields (s := s.slotTested (17 * k + j) 1 true) (k := k) (some (.movingBack j))
    refine ⟨_, exec_slotTestEnd_of_pass hfind hj, State.mem_setSweep (p := .testing j) ?_, fun o ho => ?_, hmem'.trans hmem⟩
    · rw [himp]
      exact List.mem_of_find?_eq_some hfind
    · rw [State.reg_congr hregs, State.reg_slotTested_other ho]
  case router =>
    intro s k hup hk
    rw [exec_routerFault, execRouterFault, hup.when]
    exact congrArg _ (if_pos hk)

end Sys2Proof.Machine
end

section
/-! SUPPORT and PROOF. The test group, what its tests leave as it is, and deferred test work (09 R259; 11 R312; 18 R427 to
R430). -/

namespace Sys2Proof.Machine

variable {s t u : State} {n kind l us : Nat} {c : Cmd} {r : Findings} {pass : Bool} {w : TestWork}

theorem exec_arraySelfTest (n : Nat) (r : Findings) (s : State) :
    exec (.arraySelfTest n r) s = execArraySelfTest n r s := rfl

theorem exec_hbmRecalAll (n : Nat) (r : Findings) (s : State) : exec (.hbmRecalAll n r) s = execHbmRecalAll n r s := rfl

theorem exec_linkRetrainAll (n : Nat) (r : Findings) (s : State) :
    exec (.linkRetrainAll n r) s = execLinkRetrainAll n r s := rfl

theorem exec_hbmRecalChannel (n : Nat) (pass : Bool) (s : State) :
    exec (.hbmRecalChannel n pass) s = execHbmRecalChannel n pass s := rfl

theorem exec_linkRetrainOne (n : Nat) (s : State) : exec (.linkRetrainOne n) s = execLinkRetrainOne n s := rfl

theorem exec_idleBoundary (s : State) : exec .idleBoundary s = execIdleBoundary s := rfl

theorem exec_deferredWorkEnd (kind : Nat) (r : Findings) (us : Nat) (s : State) :
    exec (.deferredWorkEnd kind r us) s = execDeferredWorkEnd kind r us s := rfl

/-! ### What tests leave (R428) -/

/-- What a test that finds no router bad leaves as it is: commands, tensors, memory, the power state, the capacity tally, and
whether the device is FATAL. -/
structure TestKept (s t : State) : Prop where
  cmd : t.cmd = s.cmd
  tens : t.tens = s.tens
  mem : t.mem = s.mem
  pwr : t.pwr = s.pwr
  capTally : t.imp.capTally = s.imp.capTally
  status : t.reg Reg.cmdStatus = s.reg Reg.cmdStatus

theorem TestKept.refl (s : State) : TestKept s s := ⟨rfl, rfl, rfl, rfl, rfl, rfl⟩

theorem TestKept.trans (a : TestKept s t) (b : TestKept t u) : TestKept s u :=
  ⟨b.cmd.trans a.cmd, b.tens.trans a.tens, b.mem.trans a.mem, b.pwr.trans a.pwr, b.capTally.trans a.capTally,
    b.status.trans a.status⟩

theorem TestKept.foldl {α : Type} {f : State → α → State} (hf : ∀ u a, u.imp.capTally = none → TestKept u (f u a))
    (l : List α) (hs : s.imp.capTally = none) : TestKept s (l.foldl f s) := by
  induction l generalizing s with
  | nil => exact .refl s
  | cons a l ih =>
    have hfirst := hf s a hs
    exact hfirst.trans (ih (hfirst.capTally.trans hs))

theorem TestKept.fatal (h : TestKept s t) : t.isFatal = s.isFatal := by
  rw [State.isFatal, State.fld_congr h.status, State.isFatal]

theorem State.slotTested_testKept {p : Nat} : TestKept s (s.slotTested p kind pass) := by
  obtain ⟨hcmd, hmem, htens, himp, hpwr⟩ := State.slotTested_fields (s := s) (p := p) (kind := kind) (pass := pass)
  have hother : Reg.cmdStatus ≠ Reg.slotTest p := by simp only [Reg.cmdStatus, Reg.slotTest]; omega
  exact ⟨hcmd, htens, hmem, hpwr, congrArg ImpSt.capTally himp, State.reg_slotTested_other hother⟩

/-- The registers of a channel queued for mapping out. -/
def State.channelQueued (s : State) (ch cause : Nat) : State :=
  (s.setFld (Reg.channelState ch) 63 62 1).setFld (Reg.channelState ch) 61 59 cause

/-- A channel in service is queued, which raises no tally when none is named. -/
theorem State.queueChannel_of_inService {ch cause : Nat} (hstate : s.fld (Reg.channelState ch) 63 62 = 0)
    (hcap : s.imp.capTally = none) : (s.queueChannel ch cause).regs = (s.channelQueued ch cause).regs ∧
      (s.queueChannel ch cause).cmd = s.cmd ∧ (s.queueChannel ch cause).tens = s.tens ∧
      (s.queueChannel ch cause).mem = s.mem ∧ (s.queueChannel ch cause).pwr = s.pwr ∧
      (s.queueChannel ch cause).imp.capTally = s.imp.capTally := by
  rw [State.queueChannel, if_pos hstate, State.capacityChange]
  simp [hcap, State.channelQueued]

theorem State.channelQueued_spec (hs : s.Sound) {ch cause : Nat} (hcause : cause < 2 ^ 3) :
    (s.channelQueued ch cause).fld (Reg.channelState ch) 63 62 = 1 ∧
      (s.channelQueued ch cause).fld (Reg.channelState ch) 61 59 = cause := by
  have hset : (s.setFld (Reg.channelState ch) 63 62 1).Sound := hs.setFld
  unfold State.channelQueued
  rw [State.fld_setFld_above hset (by decide) (by decide) (by decide)]
  exact ⟨State.fld_setFld_of_fits hs (by decide) (by decide) (by decide),
    State.fld_setFld_of_fits hset (by decide) (by decide) hcause⟩

theorem State.reg_channelQueued_other {ch cause o : Nat} (h : o ≠ Reg.channelState ch) :
    (s.channelQueued ch cause).reg o = s.reg o := by
  rw [State.channelQueued, State.reg_setFld_other h, State.reg_setFld_other h]

theorem State.queueChannel_testKept {ch cause : Nat} (hcap : s.imp.capTally = none) :
    TestKept s (s.queueChannel ch cause) := by
  by_cases hstate : s.fld (Reg.channelState ch) 63 62 = 0
  case pos =>
    have hother : Reg.cmdStatus ≠ Reg.channelState ch := by simp only [Reg.cmdStatus, Reg.channelState]; omega
    obtain ⟨hregs, hcmd, htens, hmem, hpwr, htally⟩ := State.queueChannel_of_inService (cause := cause) hstate hcap
    exact ⟨hcmd, htens, hmem, hpwr, htally, (State.reg_congr hregs).trans (State.reg_channelQueued_other hother)⟩
  case neg =>
    rw [State.queueChannel, if_neg hstate]
    exact .refl s

/-- An array self-test that finds nothing bad records its tests alone. -/
theorem State.arrayTest_testKept (hcap : s.imp.capTally = none) (hslots : r.slots = []) (hrouters : r.routers = [])
    (hengines : r.engines = []) : TestKept s (s.arrayTest r) := by
  have hnothing : (List.range 256).filter r.routers.contains = [] := by simp [hrouters]
  unfold State.arrayTest
  simp only [hslots, hengines, hnothing, List.contains_nil, Bool.and_false, Bool.false_eq_true, if_false, List.foldl_fixed,
    List.isEmpty_nil, if_true]
  refine TestKept.foldl (fun u p _ => ?_) _ hcap
  split
  · exact State.slotTested_testKept
  · exact .refl u

theorem State.recal_testKept (hcap : s.imp.capTally = none) (l : List Nat) : TestKept s (s.recal l) :=
  TestKept.foldl (fun _ _ h => State.queueChannel_testKept h) l hcap

theorem State.testWork_array : s.testWork 0 r = (s.arrayTest r, s.selfTestCount r) := by rw [State.testWork]

theorem State.testWork_recal : s.testWork 1 r = (s.recal (s.recalFailed r), (s.recalFailed r).length) := by
  rw [State.testWork]

/-- The work of each kind, and the count of units it failed, where an array self-test finds nothing bad and no link is
assigned. -/
theorem State.testWork_spec (hkind : kind = 0 ∨ kind = 1 ∨ kind = 2) (hcap : s.imp.capTally = none)
    (hgood : kind = 0 → r.slots = [] ∧ r.routers = [] ∧ r.engines = []) (hlinks : kind = 2 → s.assigned = []) :
    TestKept s (s.testWork kind r).1 ∧ (s.testWork kind r).2 = if kind = 0 then s.selfTestCount r else if kind = 1 then
      (s.recalFailed r).length else 0 := by
  obtain rfl | rfl | rfl := hkind
  · obtain ⟨hslots, hrouters, hengines⟩ := hgood rfl
    rw [if_pos rfl, State.testWork_array]
    exact ⟨State.arrayTest_testKept hcap hslots hrouters hengines, by dsimp only⟩
  · rw [if_neg Nat.one_ne_zero, if_pos rfl, State.testWork_recal]
    exact ⟨State.recal_testKept hcap _, rfl⟩
  · simp only [State.testWork, hlinks rfl, List.foldl_nil, List.countP_nil]
    exact ⟨.refl s, rfl⟩

/-! ### The whole-device commands (R259, R427) -/

/-- A whole-device test during normal running is refused to a packet that asks for its answer at once. -/
theorem State.wholeTest_refused (hcur : s.imp.cur.isSome = true) (hnow : bit c.flags 8 = 1) :
    s.wholeTest kind r c = s.finish c.id (Outcome.bad 0x0009) := by
  rw [State.wholeTest, if_pos hcur, if_pos hnow]

/-- A whole-device test during normal running is deferred. -/
theorem State.wholeTest_deferred (hcur : s.imp.cur.isSome = true) (hlater : bit c.flags 8 = 0) :
    s.wholeTest kind r c = (s.deferTest kind c.pkt).finish c.id ⟨stDeferred, 0, 0⟩ := by
  rw [State.wholeTest, if_pos hcur, if_neg (by simp [hlater])]

/-- A whole-device test without an imposition runs and ends OK with its count, when it leaves the device running and has no
report to write. -/
theorem State.wholeTest_runs (hcur : s.imp.cur = none) (hfatal : s.isFatal = false) (hheld : s.pwr.held = false)
    (hreport : kind = 0 → reportAddr c.pkt = 2 ^ 64 - 1) (hkept : TestKept s (s.testWork kind r).1) :
    s.wholeTest kind r c = (s.testWork kind r).1.finish c.id (Outcome.ok (s.testWork kind r).2) := by
  have hnone : ¬ (s.imp.cur.isSome = true) := by simp [hcur]
  have hheld' : (s.testWork kind r).1.pwr.held = false := by rw [hkept.pwr, hheld]
  have hfatal' : (s.testWork kind r).1.isFatal = false := hkept.fatal.trans hfatal
  have hno : ¬ (kind = 0 ∧ reportAddr c.pkt ≠ 2 ^ 64 - 1) := fun hand => hand.2 (hreport hand.1)
  rw [State.wholeTest, if_neg hnone]
  simp only [State.unlessHeld, hheld', hfatal', Bool.false_eq_true, if_false, hno, decide_false]

/-- The rows of the whole-device tests, with their opcodes and the kinds of their work. -/
def wholeTests (n : Nat) (r : Findings) : List (Nat × Nat × Instr) :=
  [(0x0D01, 0, .arraySelfTest n r), (0x0D02, 1, .hbmRecalAll n r), (0x0D04, 2, .linkRetrainAll n r)]

theorem kind_of_mem_wholeTests {op : Nat} {i : Instr} (h : (op, kind, i) ∈ wholeTests n r) :
    kind = 0 ∨ kind = 1 ∨ kind = 2 := by
  simp only [wholeTests, List.mem_cons, Prod.mk.injEq, List.not_mem_nil, or_false] at h
  omega

/-- A whole-device test begins its work at its row, ARRAY_SELF_TEST when it has no report to write here. -/
theorem exec_wholeTest_of_ready {op : Nat} {i : Instr} (hrow : (op, kind, i) ∈ wholeTests n r) (h : s.Ready n op c)
    (hreport : kind = 0 → reportAddr c.pkt = 2 ^ 64 - 1 ∨ s.imp.cur.isSome = true) :
    exec i s = .next (s.wholeTest kind r c) := by
  simp only [wholeTests, List.mem_cons, Prod.mk.injEq, List.not_mem_nil, or_false] at hrow
  obtain ⟨rfl, rfl, rfl⟩ | ⟨rfl, rfl, rfl⟩ | ⟨rfl, rfl, rfl⟩ := hrow
  · have hdirect : reportAddr c.pkt = 2 ^ 64 - 1 ∨ s.imp.cur.isSome = true ∨ nodeOf (reportAddr c.pkt) ≠ s.node ∨
        (s.rangeFault (reportAddr c.pkt) 4628).isSome = true := (hreport rfl).imp_right Or.inl
    rw [exec_arraySelfTest, execArraySelfTest, h.run, if_pos hdirect]
  · rw [exec_hbmRecalAll, execHbmRecalAll, h.run]
  · rw [exec_linkRetrainAll, execLinkRetrainAll, h.run]

/-! ### HBM_RECAL_CHANNEL (R428) -/

theorem exec_hbmRecalChannel_of_ready (h : s.Ready n 0x0D03 c) : exec (.hbmRecalChannel n pass) s = .next (
    if s.mem.outChannels.contains (c.par 32 1) = true then s.finish n (Outcome.bad 0x0180)
    else if pass = true then s.finish n (Outcome.ok 0)
    else (s.queueChannel (c.par 32 1) 3).finish n ⟨stCheckFail, 0x0181, 1⟩) := by
  rw [exec_hbmRecalChannel, execHbmRecalChannel, h.run, h.id]

/-- A channel is queued, and the capacity tally raised, with the commands in flight as they were but for their waits. -/
theorem State.queueChannel_sameInFlight {ch cause : Nat} : SameInFlight s (s.queueChannel ch cause) := by
  unfold State.queueChannel State.capacityChange
  dsimp only
  split
  · split
    · exact (State.tallyAdd_sameInFlight _ _).of_start (by simp) (by simp) (by simp)
    · exact .of_eq (by simp) (by simp) (by simp)
  · exact .refl s

/-! ### LINK_RETRAIN_ONE (R312) -/

/-- A link that has gone down, with its frames still to leave by others. -/
def State.linkFallen (s : State) (l cause : Nat) : State :=
  let t := ((s.setFld (Reg.linkState l) 31 29 0).setFld (Reg.linkState l) 28 24 cause).addSat (Reg.linkErr l) 15 0 1
  let t := t.updLink l fun l => { LinkSt.reset with
    sent := l.sent, retraining := l.retraining, txRest := l.txRest, rxRest := l.rxRest }
  { t with fab := { t.fab with pfcPaused := t.fab.pfcPaused.filter (· ≠ l) } }

/-- The registers of a link that goes down are its own. -/
theorem State.reg_linkFallen_other {cause o : Nat} (hstate : o ≠ Reg.linkState l) (herr : o ≠ Reg.linkErr l) :
    (s.linkFallen l cause).reg o = s.reg o := by
  have hregs : (s.linkFallen l cause).regs = (((s.setFld (Reg.linkState l) 31 29 0).setFld (Reg.linkState l) 28 24
    cause).addSat (Reg.linkErr l) 15 0 1).regs := rfl
  rw [State.reg_congr hregs, State.addSat, State.reg_setFld_other herr, State.reg_setFld_other hstate,
    State.reg_setFld_other hstate]

/-- A link that goes down, where that resets nothing and raises no tally: its frames leave by others. -/
theorem State.linkDown_eq_relaunch {cause : Nat} (hmode : s.fld Reg.cdcRstmode 2 2 = 1)
    (hevents : s.fld Reg.linkEventCfg 31 31 = 0) : s.linkDown l cause =
      (((s.link l).unacked.map (·.ends)).flatten ++ (s.link l).queued).foldl State.relaunch (s.linkFallen l cause) := by
  have hstate : Reg.linkEventCfg ≠ Reg.linkState l := by simp only [Reg.linkEventCfg, Reg.linkState]; omega
  have herr : Reg.linkEventCfg ≠ Reg.linkErr l := by simp only [Reg.linkEventCfg, Reg.linkErr]; omega
  have hquiet : (s.linkFallen l cause).linkEvent l = s.linkFallen l cause := by
    rw [State.linkEvent, State.fld_congr (State.reg_linkFallen_other hstate herr), hevents]
    exact if_neg fun hand => absurd hand.2 (by decide)
  have hsame : (if s.fld (Reg.linkState l) 31 29 = 2 then (s.linkFallen l cause).linkEvent l else s.linkFallen l cause) =
      s.linkFallen l cause := by rw [hquiet, ite_self]
  rw [State.linkDown, if_neg (by simp [hmode]), ← hsame]
  rfl

/-- Such a link leaves commands, memory, tensors and power. -/
theorem State.linkDown_fields {cause : Nat} (hmode : s.fld Reg.cdcRstmode 2 2 = 1)
    (hevents : s.fld Reg.linkEventCfg 31 31 = 0) : (s.linkDown l cause).cmd = s.cmd ∧ (s.linkDown l cause).mem = s.mem ∧
      (s.linkDown l cause).tens = s.tens ∧ (s.linkDown l cause).pwr = s.pwr := by
  have hsame := SameButLinks.foldl (fun _ f => relaunch_same f) (s.linkFallen l cause)
    (l := ((s.link l).unacked.map (·.ends)).flatten ++ (s.link l).queued)
  rw [State.linkDown_eq_relaunch hmode hevents, hsame.cmd, hsame.mem, hsame.tens, hsame.pwr]
  simp [State.linkFallen]

theorem State.link_updLink_same {f : LinkSt → LinkSt} (hl : l < s.fab.links.length) :
    (s.updLink l f).link l = f (s.link l) := by
  simp [State.link, State.updLink, List.getD_eq_getElem?_getD, hl]

/-- LINK_RETRAIN_ONE refuses a link that is not there or not assigned. -/
theorem exec_linkRetrainOne_of_bad (h : s.Ready n 0x0D05 c)
    (hbad : 64 ≤ c.par 32 1 ∨ s.fld (Reg.linkCfg (c.par 32 1)) 31 30 = 0) :
    exec (.linkRetrainOne n) s = .next (s.finish n (Outcome.bad 0x0180)) := by
  rw [exec_linkRetrainOne, execLinkRetrainOne, h.run, h.id]
  exact congrArg _ (if_pos hbad)

/-- A link that is not ganged, and in no retraining, is removed and trains for its command. -/
theorem exec_linkRetrainOne_of_single (h : s.Ready n 0x0D05 c) (hl : c.par 32 1 < 64)
    (hcfg : s.fld (Reg.linkCfg (c.par 32 1)) 31 30 = 1 ∨ s.fld (Reg.linkCfg (c.par 32 1)) 31 30 = 2)
    (hfree : (s.link (c.par 32 1)).retraining = none) (hheld : s.pwr.held = false) : exec (.linkRetrainOne n) s =
      .next (((s.park n [26, 0]).retrain (c.par 32 1)).unlessHeld fun s =>
        s.updLink (c.par 32 1) fun x => { x with retraining := some n }) := by
  have hgood : ¬ (64 ≤ c.par 32 1 ∨ s.fld (Reg.linkCfg (c.par 32 1)) 31 30 = 0) := by omega
  have hgang : s.gang (c.par 32 1) = [c.par 32 1] := if_neg (by omega)
  rw [exec_linkRetrainOne, execLinkRetrainOne, h.run, h.id]
  simp only [if_neg hgood, hgang, List.any_cons, List.any_nil, hfree, Option.isSome_none, Bool.or_self, Bool.false_eq_true,
    if_false, List.foldl_cons, List.foldl_nil]
  exact congrArg _ (if_neg (by simpa using hheld))

/-- A link removed to train reads TRAINING; commands, memory, tensors and power stay. -/
theorem State.retrain_spec (hs : s.Sound) (hmode : s.fld Reg.cdcRstmode 2 2 = 1)
    (hevents : s.fld Reg.linkEventCfg 31 31 = 0) (hheld : s.pwr.held = false) : (s.retrain l).Sound ∧
      (s.retrain l).cmd = s.cmd ∧ (s.retrain l).mem = s.mem ∧ (s.retrain l).tens = s.tens ∧
      (s.retrain l).pwr.held = false ∧ (s.retrain l).fld (Reg.linkState l) 31 29 = 1 := by
  obtain ⟨hcmd, hmem, htens, hpwr⟩ := State.linkDown_fields (l := l) (cause := 6) hmode hevents
  have hdown : (s.linkDown l 6).Sound := (State.linkDown_kept hs.kept).sound
  have hup : (s.linkDown l 6).pwr.held = false := by rw [hpwr, hheld]
  have heq : s.retrain l = (s.linkDown l 6).setFld (Reg.linkState l) 31 29 1 := if_neg (by simp [hup])
  rw [heq]
  exact ⟨hdown.setFld, by simp [hcmd], by simp [hmem], by simp [htens], by simp [hup],
    State.fld_setFld_of_fits hdown (by decide) (by decide) (by decide)⟩

/-! ### Deferred work (R259, R429) -/

/-- Deferred work gone, with a word for its result. -/
def State.testRecorded (s : State) (w : TestWork) (kind word : Nat) : State :=
  State.setReg { s with obs := { s.obs with tests := s.obs.tests.erase w } } (Reg.testResult kind) word

theorem State.testRecorded_spec (hs : s.Sound) {word : Nat} (hword : word < 2 ^ 64) :
    (s.testRecorded w kind word).obs.tests = s.obs.tests.erase w ∧
    (s.testRecorded w kind word).reg (Reg.testResult kind) = word ∧
    (∀ o, o ≠ Reg.testResult kind → (s.testRecorded w kind word).reg o = s.reg o) ∧
    (s.testRecorded w kind word).mem = s.mem ∧ (s.testRecorded w kind word).tens = s.tens := by
  have hregs : (s.testRecorded w kind word).regs = (s.setReg (Reg.testResult kind) word).regs := rfl
  refine ⟨by simp [State.testRecorded], ?_, fun o ho => ?_, by simp [State.testRecorded], by simp [State.testRecorded]⟩
  · rw [State.reg_congr hregs, State.reg_setReg_same hs, Nat.mod_eq_of_lt hword]
  · rw [State.reg_congr hregs, State.reg_setReg_other ho]

/-- A recalibration of every channel that found none bad, for no request, ends: its result is recorded. -/
theorem exec_deferredWorkEnd_of_recal (hheld : s.pwr.held = false)
    (hfind : (s.obs.tests.find? fun t => t.kind = 1 ∧ t.running) = some w) (hrequests : w.requests = [])
    (hchannels : r.channels = []) : exec (.deferredWorkEnd 1 r us) s =
      .next (s.testRecorded w 1 ((if s.isFatal then stFatal else stOK) * 2 ^ 48 + us % 2 ^ 32)) := by
  have hwork (v : State) : (v.testWork 1 r).1 = v := by simp [State.testWork_recal, State.recalFailed, hchannels, State.recal]
  have hsame : State.isFatal { s with obs := { s.obs with tests := s.obs.tests.erase w } } = s.isFatal := rfl
  rw [exec_deferredWorkEnd, execDeferredWorkEnd, hfind]
  simp only [hwork, State.unlessHeld, hheld, Bool.false_eq_true, if_false, Nat.one_ne_zero, false_and, hsame]
  cases s.isFatal with
  | true => rfl
  | false =>
    simp only [State.testEnds, hrequests, stOK, Nat.zero_mul, Nat.zero_add, Bool.false_eq_true, if_false, Nat.one_ne_zero,
      List.foldl_nil]
    rfl

/-! ### Tests -/

/-- Settles O53: what the tests find is recorded in registers of their own and queued as changes, so no command, tensor or
memory changes and the device stays as FATAL as it was; the frames of a link removed to train go over others. -/
theorem testsRunOrAreDeferred : Obligations.TestsRunOrAreDeferred := by
  unfold Obligations.TestsRunOrAreDeferred
  refine ⟨?whole, ?channel, ?link, fun s hidle => ?idle, ?deferred⟩
  case whole =>
    intro s n op k c r i hrow h
    refine ⟨fun hcur hnow => ?refused, fun hcur hlater => ?later, fun hcur hfatal hheld hcap hs hfound hlinks => ?runs⟩
    case refused =>
      rw [exec_wholeTest_of_ready hrow h fun _ => .inr hcur, State.wholeTest_refused hcur hnow, h.id]
    case later =>
      rw [exec_wholeTest_of_ready hrow h fun _ => .inr hcur, State.wholeTest_deferred hcur hlater, h.id]
    case runs =>
      obtain ⟨hkept, hcount⟩ := State.testWork_spec (kind_of_mem_wholeTests hrow) hcap (fun hk => (hfound hk).2) hlinks
      rw [exec_wholeTest_of_ready hrow h fun hk => .inl (hfound hk).1,
        State.wholeTest_runs hcur hfatal hheld (fun hk => (hfound hk).1) hkept, h.id, ← hcount]
      exact ⟨_, rfl, State.finish_ended ((State.cmdOf_congr hkept.cmd).trans h.found), hkept.tens, hkept.mem⟩
  case channel =>
    intro s n c pass hs h
    rw [exec_hbmRecalChannel_of_ready h]
    refine ⟨fun hout => by rw [if_pos hout], fun hin => ⟨_, rfl, fun hpass => ?pass, fun hfail => ?fail⟩⟩
    case pass =>
      rw [hin, if_neg Bool.false_ne_true, if_pos hpass]
      exact ⟨State.finish_ended h.found, rfl⟩
    case fail =>
      rw [hin, if_neg Bool.false_ne_true, if_neg (by simp [hfail])]
      obtain ⟨d, hd⟩ := (State.queueChannel_sameInFlight (ch := c.par 32 1) (cause := 3)).exists_cmdOf h.found
      refine ⟨State.finish_ended hd, fun hstate hcap => ?queued⟩
      case queued =>
        obtain ⟨hregs, -⟩ := State.queueChannel_of_inService (cause := 3) hstate hcap
        have hqueued (hi lo : Nat) : ((s.queueChannel (c.par 32 1) 3).finish n ⟨stCheckFail, 0x0181, 1⟩).fld
            (Reg.channelState (c.par 32 1)) hi lo =
            (s.channelQueued (c.par 32 1) 3).fld (Reg.channelState (c.par 32 1)) hi lo :=
          State.fld_congr (State.reg_finish.trans (State.reg_congr hregs))
        rw [hqueued, hqueued]
        exact State.channelQueued_spec hs (by decide)
  case link =>
    rintro s n l c hs h rfl
    refine ⟨exec_linkRetrainOne_of_bad h, fun hl hcfg hfree hmode hevents hheld => ?trains⟩
    case trains =>
      obtain ⟨hsound, hcmd, hmem, htens, hup, hstate⟩ := State.retrain_spec (s := s.park n [26, 0]) (l := c.par 32 1)
        (State.park_kept hs.kept).sound ((State.fld_congr State.reg_park).trans hmode)
        ((State.fld_congr State.reg_park).trans hevents) hheld
      rw [exec_linkRetrainOne_of_single h hl hcfg hfree hheld, State.unlessHeld, if_neg (by simp [hup])]
      refine ⟨_, rfl, (State.cmdOf_congr hcmd).trans (State.cmdOf_park h.found), hstate, ?_, hmem, htens⟩
      rw [State.link_updLink_same (hl.trans_eq hsound.links.symm)]
  case idle =>
    rw [exec_idleBoundary, execIdleBoundary, if_pos hidle]
  case deferred =>
    intro s us w r hs hheld _ hfind hrequests hchannels
    have hword : (if s.isFatal then stFatal else stOK) * 2 ^ 48 + us % 2 ^ 32 < 2 ^ 64 := by
      split <;> simp only [stFatal, stOK] <;> omega
    exact ⟨_, exec_deferredWorkEnd_of_recal hheld hfind hrequests hchannels, State.testRecorded_spec hs hword⟩

end Sys2Proof.Machine
end

section
/-! SUPPORT and PROOF. The memory's own events: channels queued for mapping out, the refresh calendar, and the temperatures of
the stacks (10 R269 to R273, R276). -/

namespace Sys2Proof.Machine

variable {s t u : State} {ch k v : Nat}

theorem exec_mapOutRequest (ch : Nat) (s : State) : exec (.mapOutRequest ch) s = execMapOutRequest ch s := rfl

theorem exec_refreshSubslot (s : State) : exec .refreshSubslot s = execRefreshSubslot s := rfl

theorem exec_stackTempRead (k : Nat) (r : Reading) (s : State) :
    exec (.stackTempRead k r) s = execStackTempRead k r s := rfl

/-! ### MAP_OUT_REQUEST (R276) -/

/-- A request with GO queues its channel with cause 4. -/
theorem exec_mapOutRequest_of_up (hup : s.Up) (hch : ch < 256) :
    exec (.mapOutRequest ch) s = .next (s.queueChannel ch 4) := by
  have hgo : bit (2 ^ 31 + ch % 256) 31 = 1 := by
    rw [bit_eq_bits, bits_eq]
    omega
  have hnumber : bits (2 ^ 31 + ch % 256) 7 0 = ch := by
    rw [bits_eq]
    omega
  rw [exec_mapOutRequest, execMapOutRequest, hup.when, State.mapOut, if_pos hgo, hnumber]

/-- A channel in service that is queued joins the pending changes, which raises no tally when none is named. -/
theorem State.queueChannel_changes {cause : Nat} (hstate : s.fld (Reg.channelState ch) 63 62 = 0)
    (hcap : s.imp.capTally = none) :
    (s.queueChannel ch cause).imp.changes = s.imp.changes ++ [(s.imp.nextChange, .evacuate ch)] ∧
      (s.queueChannel ch cause).tally = s.tally := by
  rw [State.queueChannel, if_pos hstate, State.capacityChange]
  simp [hcap]

/-! ### REFRESH_SUBSLOT (R269, R271) -/

/-- The calendar with its next sub-slot begun. -/
def State.subslotBegun (s : State) : State :=
  { s with mem := { s.mem with subslot := (s.mem.subslot + 1) % 32, refreshes := s.mem.refreshes + 1 } }

theorem State.subslotEnd_of_within (h : s.mem.subslot ≠ 31) : s.subslotEnd = s.subslotBegun := by
  rw [State.subslotEnd, if_neg h, State.subslotBegun]

theorem State.subslotEnd_of_last (h : s.mem.subslot = 31) :
    s.subslotEnd = (s.subslotBegun.addWrap Reg.hbmCalendar 63 32 1).applyRate := by
  rw [State.subslotEnd, if_pos h, State.subslotBegun]

/-- A pending rate that takes effect leaves the sub-slot and memory's bytes. -/
theorem State.applyRate_mem : s.applyRate.mem.subslot = s.mem.subslot ∧ s.applyRate.mem.bytes = s.mem.bytes := by
  unfold State.applyRate
  split <;> simp

/-- A pending rate that takes effect leaves the count of periods, which stands above the fields of the calendar it sets. -/
theorem State.applyRate_periods (hs : s.Sound) :
    s.applyRate.fld Reg.hbmCalendar 63 32 = s.fld Reg.hbmCalendar 63 32 := by
  unfold State.applyRate
  split
  case isTrue => rfl
  case isFalse =>
    have hother : Reg.hbmCalendar ≠ Reg.clkState := by decide
    extract_lets r a b
    have ha : a.Sound := ((hs.setFld).setFld).addSat
    have hb : b.fld Reg.hbmCalendar 63 32 = a.fld Reg.hbmCalendar 63 32 := by
      rw [State.fld_setFld_above ha.setFld.setFld (by decide) (by decide) (by decide),
        State.fld_setFld_above ha.setFld (by decide) (by decide) (by decide),
        State.fld_setFld_above ha (by decide) (by decide) (by decide)]
    have hrestart : State.fld { b with mem := { b.mem with refreshes := 0 } } Reg.hbmCalendar 63 32 =
        b.fld Reg.hbmCalendar 63 32 := State.fld_congr (State.reg_congr (by dsimp only))
    calc _ = b.fld Reg.hbmCalendar 63 32 := hrestart
      _ = a.fld Reg.hbmCalendar 63 32 := hb
      _ = s.fld Reg.hbmCalendar 63 32 := by
        rw [State.fld_addSat_other hother, State.fld_setFld_other hother, State.fld_setFld_other hother]

theorem exec_refreshSubslot_of_trained (hup : s.Up) (htrained : s.mem.trained = true) :
    exec .refreshSubslot s = .next s.subslotEnd := by
  rw [exec_refreshSubslot, execRefreshSubslot, hup.when, if_pos htrained]

/-- The end of a sub-slot begins the next of 32 and leaves memory's bytes. -/
theorem State.subslotEnd_mem :
    s.subslotEnd.mem.subslot = (s.mem.subslot + 1) % 32 ∧ s.subslotEnd.mem.bytes = s.mem.bytes := by
  by_cases h : s.mem.subslot = 31
  case pos => rw [State.subslotEnd_of_last h]; exact State.applyRate_mem
  case neg => rw [State.subslotEnd_of_within h]; exact ⟨rfl, rfl⟩

/-- The end of the last sub-slot counts a period. -/
theorem State.subslotEnd_periods (hs : s.Sound) (h : s.mem.subslot = 31) :
    s.subslotEnd.fld Reg.hbmCalendar 63 32 = (s.fld Reg.hbmCalendar 63 32 + 1) % 2 ^ 32 := by
  have hbegun : s.subslotBegun.Sound :=
    ⟨hs.mem, hs.regs, hs.tallies, hs.flash, hs.rings, hs.links, hs.numbers, hs.vregs, hs.elements⟩
  rw [State.subslotEnd_of_last h, State.applyRate_periods hbegun.addWrap,
    State.fld_addWrap_same hbegun (by decide) (by decide)]
  rfl

/-! ### STACK_TEMP_READ (R272, R273) -/

/-- A stack at level 0 below the first threshold stays at level 0. -/
theorem stackLevel_of_cool (h : v < 85) : stackLevel 0 v = 0 := by
  have hup : (if 100 ≤ v then 4 else if 95 ≤ v then 3 else if 90 ≤ v then 2 else if 85 ≤ v then 1 else 0) = 0 := by
    split_ifs <;> omega
  rw [stackLevel, hup]
  rfl

/-- The register of a stack's sensor after a reading: no failure, its level, the greatest temperature read and this one. -/
def State.tempRecorded (s : State) (k level v : Nat) : State :=
  let t := (s.setFld (Reg.stackTemp k) 31 31 0).setFld (Reg.stackTemp k) 30 28 level
  (t.setFld (Reg.stackTemp k) 23 16 (max (t.fld (Reg.stackTemp k) 23 16) v)).setFld (Reg.stackTemp k) 7 0 v

/-- The fields of a stack's sensor after a reading. -/
theorem State.tempRecorded_spec {level : Nat} (hs : s.Sound) (hlevel : level < 8) (hv : v < 256) :
    (s.tempRecorded k level v).fld (Reg.stackTemp k) 7 0 = v ∧
    (s.tempRecorded k level v).fld (Reg.stackTemp k) 30 28 = level ∧
    (s.tempRecorded k level v).fld (Reg.stackTemp k) 31 31 = 0 ∧
    (s.tempRecorded k level v).fld (Reg.stackTemp k) 23 16 = max (s.fld (Reg.stackTemp k) 23 16) v := by
  unfold State.tempRecorded
  extract_lets t
  have hfail : (s.setFld (Reg.stackTemp k) 31 31 0).Sound := hs.setFld
  have ht : t.Sound := hfail.setFld
  have hmax : (t.setFld (Reg.stackTemp k) 23 16 (max (t.fld (Reg.stackTemp k) 23 16) v)).Sound := ht.setFld
  have hold : t.fld (Reg.stackTemp k) 23 16 = s.fld (Reg.stackTemp k) 23 16 := by
    rw [State.fld_setFld_below hfail (by decide) (by decide) (by decide) (by decide),
      State.fld_setFld_below hs (by decide) (by decide) (by decide) (by decide)]
  have hfits : max (s.fld (Reg.stackTemp k) 23 16) v < 2 ^ 8 := max_lt bits_lt hv
  refine ⟨State.fld_setFld_of_fits hmax (by decide) (by decide) hv, ?level, ?fail, ?greatest⟩
  case level =>
    rw [State.fld_setFld_above hmax (by decide) (by decide) (by decide),
      State.fld_setFld_above ht (by decide) (by decide) (by decide),
      State.fld_setFld_of_fits hfail (by decide) (by decide) hlevel]
  case fail =>
    rw [State.fld_setFld_above hmax (by decide) (by decide) (by decide),
      State.fld_setFld_above ht (by decide) (by decide) (by decide),
      State.fld_setFld_above hfail (by decide) (by decide) (by decide),
      State.fld_setFld_of_fits hs (by decide) (by decide) (by decide)]
  case greatest =>
    rw [State.fld_setFld_above hmax (by decide) (by decide) (by decide), hold,
      State.fld_setFld_of_fits ht (by decide) (by decide) hfits]

/-- A reading writes no register but that of its stack. -/
theorem State.reg_tempRecorded_other {level o : Nat} (h : o ≠ Reg.stackTemp k) :
    (s.tempRecorded k level v).reg o = s.reg o := by
  unfold State.tempRecorded
  dsimp only
  rw [State.reg_setFld_other h, State.reg_setFld_other h, State.reg_setFld_other h, State.reg_setFld_other h]

theorem State.tempRecorded_mem {level : Nat} : (s.tempRecorded k level v).mem = s.mem := by
  simp [State.tempRecorded]

/-- An alarm that rises, or does not, changes no register and no memory. -/
theorem State.alarmRose_regs_mem : (s.alarmRose u).regs = s.regs ∧ (s.alarmRose u).mem = s.mem := by
  unfold State.alarmRose
  split <;> simp

/-- The reading of a cool stack at level 0 is recorded, with no interrupt and nothing that goes on. -/
theorem exec_stackTempRead_of_cool (hk : k < 16) (hv : v < 85) (hlevel : s.fld (Reg.stackTemp k) 30 28 = 0) :
    exec (.stackTempRead k (.value v)) s = .next ((s.tempRecorded k 0 v).alarmRose s) := by
  have hbyte : v % 256 = v := Nat.mod_eq_of_lt (by omega)
  have hgood : decide (Reading.value v = .failed) = false := by simp
  rw [exec_stackTempRead, execStackTempRead, if_neg (Nat.not_le.2 hk)]
  simp only [hbyte, hgood, hlevel, stackLevel_of_cool hv, Bool.false_eq_true, false_and, if_false, Nat.zero_ne_add_one]
  rfl

/-! ### The memory's events -/

/-- Settles O25: a channel queued, a sub-slot ended and a cool stack read are each a few fields of their own registers; a rate
that takes effect at the end of a period sets fields of the calendar below its count. -/
theorem memoryEventsTakePlace : Obligations.MemoryEventsTakePlace := by
  unfold Obligations.MemoryEventsTakePlace
  refine fun s hup hs => ⟨?channel, ?subslot, ?stack⟩
  case channel =>
    intro ch hch hstate hcap
    obtain ⟨hregs, -, -, hmem, -⟩ := State.queueChannel_of_inService (cause := 4) hstate hcap
    obtain ⟨hchanges, htally⟩ := State.queueChannel_changes (cause := 4) hstate hcap
    obtain ⟨hqueued, hcause⟩ := State.channelQueued_spec (ch := ch) (cause := 4) hs (by decide)
    have hreg (o : Nat) : (s.queueChannel ch 4).reg o = (s.channelQueued ch 4).reg o := State.reg_congr hregs
    exact ⟨_, exec_mapOutRequest_of_up hup hch, (State.fld_congr (hreg _)).trans hqueued,
      (State.fld_congr (hreg _)).trans hcause, hchanges,
      fun o ho => (hreg o).trans (State.reg_channelQueued_other ho), hmem, htally⟩
  case subslot =>
    intro htrained
    obtain ⟨hsubslot, hbytes⟩ := State.subslotEnd_mem (s := s)
    exact ⟨_, exec_refreshSubslot_of_trained hup htrained, hsubslot, hbytes,
      fun hwithin => by rw [State.subslotEnd_of_within hwithin, State.subslotBegun],
      fun hlast => State.subslotEnd_periods hs hlast⟩
  case stack =>
    intro k hk v hv hlevel
    obtain ⟨hregs, hmem⟩ := State.alarmRose_regs_mem (s := s.tempRecorded k 0 v) (u := s)
    obtain ⟨hread, hlevel', hfail, hgreatest⟩ := State.tempRecorded_spec (k := k) hs (show 0 < 8 by decide)
      (show v < 256 by omega)
    have hfld (hi lo : Nat) : ((s.tempRecorded k 0 v).alarmRose s).fld (Reg.stackTemp k) hi lo =
        (s.tempRecorded k 0 v).fld (Reg.stackTemp k) hi lo := State.fld_congr (State.reg_congr hregs)
    exact ⟨_, exec_stackTempRead_of_cool hk hv hlevel, (hfld 7 0).trans hread, (hfld 30 28).trans hlevel',
      (hfld 31 31).trans hfail, (hfld 23 16).trans hgreatest,
      fun o ho => (State.reg_congr hregs).trans (State.reg_tempRecorded_other ho), hmem.trans State.tempRecorded_mem⟩

end Sys2Proof.Machine
end

section
/-! SUPPORT and PROOF. Bytes of this node stored without a hole, and the memory and copy group on this node (10 R284, R285). -/

namespace Sys2Proof.Machine

variable {s t : State} {n a k d i : Nat} {c : Cmd} {env : Env} {l : List Segment} {bytes : List Byte}

theorem exec_copy (n : Nat) (env : Env) (s : State) : exec (.copy n env) s = execCopy n env s := rfl

theorem exec_fill (n : Nat) (env : Env) (s : State) : exec (.fill n env) s = execFill n env s := rfl

theorem exec_copy2d (n : Nat) (env : Env) (s : State) : exec (.copy2d n env) s = execCopy2d n env s := rfl

theorem exec_checksum (n : Nat) (env : Env) (s : State) : exec (.checksum n env) s = execChecksum n env s := rfl

/-! ### Ranges without a hole (01 R18, 10 R278) -/

/-- A range of HBM or of the core windows with no unbacked byte and none in a clearing: a store to it keeps all its bytes and
is counted nowhere. -/
structure State.Backed (s : State) (a n : Nat) : Prop where
  kept : ∀ i < n, (s.unbacked (a + i) || s.inClearing (a + i)) = false
  pages : ((pages a n).any s.unbackedPage && decide (regionOf a = .hbm)) = false
  copses : (copsesIn a n).filter s.isRetired = []

theorem regionOf_eq_hbm : regionOf a = .hbm ↔ a < 0x6000000000 := by
  unfold regionOf
  split_ifs <;> simp_all

theorem regionOf_eq_window : regionOf a = .window ↔ 0x100000000000 ≤ a ∧ a < 0x100100000000 := by
  unfold regionOf
  split_ifs <;> simp_all
  omega

/-- The page of a byte of a range is one that the range touches. -/
theorem page_mem_pages (h : i < n) : (a + i) / 4096 ∈ pages a n := by
  rw [pages, if_neg (by omega), List.mem_map]
  exact ⟨(a + i) / 4096 - a / 4096, List.mem_range.2 (by omega), by omega⟩

/-- The copse of a byte of a range in the windows is one whose window the range touches. -/
theorem copse_mem_copsesIn (hr : regionOf a = .window) (h : i < n) : copseOfWindow (a + i) ∈ copsesIn a n := by
  have hn : 0 < n := by omega
  rw [copsesIn, if_pos ⟨hr, hn⟩, List.mem_map]
  refine ⟨copseOfWindow (a + i) - copseOfWindow a, List.mem_range.2 ?_, ?_⟩ <;> simp only [copseOfWindow] <;> omega

/-- A range of HBM none of whose pages is unbacked. -/
theorem State.backed_of_hbm (hr : rangeIn .hbm a n = true) (hole : s.holeIn a n = false) : s.Backed a n := by
  obtain ⟨hfirst, hlast⟩ : regionOf a = .hbm ∧ regionOf (a + n - 1) = .hbm := by simpa [rangeIn] using hr
  have hpages : (pages a n).any s.unbackedPage = false := by simpa [State.holeIn, hfirst] using hole
  refine ⟨fun i hi => ?_, by rw [hpages, Bool.false_and], by simp [copsesIn, hfirst]⟩
  have hin : regionOf (a + i) = .hbm := regionOf_eq_hbm.2 (by have := regionOf_eq_hbm.1 hlast; omega)
  have hpage : s.unbackedPage ((a + i) / 4096) = false :=
    Bool.eq_false_iff.2 (List.any_eq_false.1 hpages _ (page_mem_pages hi))
  simp [State.unbacked, State.inClearing, hin, hpage]

/-- A range of the core windows none of whose copses is retired. -/
theorem State.backed_of_window (hr : rangeIn .window a n = true) (hole : s.holeIn a n = false) : s.Backed a n := by
  obtain ⟨hfirst, hlast⟩ : regionOf a = .window ∧ regionOf (a + n - 1) = .window := by simpa [rangeIn] using hr
  have hcopses : (copsesIn a n).any s.isRetired = false := by simpa [State.holeIn, hfirst] using hole
  refine ⟨fun i hi => ?_, by simp [hfirst], List.filter_eq_nil_iff.2 (List.any_eq_false.1 hcopses)⟩
  have hin : regionOf (a + i) = .window := regionOf_eq_window.2 (by
    have := regionOf_eq_window.1 hfirst
    have := regionOf_eq_window.1 hlast
    omega)
  have hcopse : s.isRetired (copseOfWindow (a + i)) = false :=
    Bool.eq_false_iff.2 (List.any_eq_false.1 hcopses _ (copse_mem_copsesIn hfirst hi))
  simp [State.unbacked, State.inClearing, hin, hcopse]

/-- A range of this node that passes the checks of the memory and copy group has no hole. -/
theorem State.backed_of_checks (hnode : nodeOf a = s.node) (hrange : s.copyRange a n = true)
    (hole : s.copyHole a n = false) : s.Backed (localOf a) n := by
  have hole' : s.holeIn (localOf a) n = false := by simpa [State.copyHole, hnode] using hole
  have hin : rangeIn .hbm (localOf a) n = true ∨ rangeIn .window (localOf a) n = true := by
    rw [State.copyRange, if_neg fun h => h.2 hnode, Bool.and_eq_true, Bool.or_eq_true] at hrange
    exact hrange.1
  exact hin.elim (fun h => State.backed_of_hbm h hole') fun h => State.backed_of_window h hole'

/-! ### Clean memories (04 R92, 10 R275) -/

theorem State.Clean.badGranule (hc : s.Clean) : s.badGranule k = false := by
  simp [State.badGranule, hc.poison, hc.flaws]

theorem State.Clean.badWord (hc : s.Clean) : s.badWord k = false := by simp [State.badWord, hc.flaws]

/-- No read of clean memories is uncorrectable. -/
theorem State.Clean.readStop (hc : s.Clean) : s.readStop a n = .none := by
  have hnone : (granules a n).find? s.badGranule = none := List.find?_eq_none.2 fun g _ => by simp [hc.badGranule]
  simp [State.readStop, hc.flaws, hnone]

/-- No write to clean memories merges an uncorrectable read. -/
theorem State.Clean.mergeStops (hc : s.Clean) : s.mergeStops a n = [] := by
  refine List.filter_eq_nil_iff.2 fun x _ => ?_
  cases x <;> simp [State.badStop, hc.badGranule, hc.badWord]

/-! ### A store (10 R278, R282; 11 Table 11.11) -/

/-- Bytes stored one by one where there is no hole and no context of a queue pair in use are all put. -/
theorem State.storeOpen_eq_putBytes (hqp : ∀ i, s.qpIsReady i = false)
    (hkept : ∀ i < bytes.length, (s.unbacked (a + i) || s.inClearing (a + i)) = false) :
    State.storeOpen bytes a s = s.putBytes a bytes := by
  induction bytes generalizing a s with
  | nil => rfl
  | cons x bytes ih =>
    have hbyte : s.storeByte a x = s.putBytes a [x] := by
      rw [State.storeByte, if_neg (by simpa using hkept 0 (Nat.succ_pos _))]
    have hnext : State.storeOpen (x :: bytes) a s = State.storeOpen bytes (a + 1) (s.putBytes a [x]) := by
      rw [State.storeOpen]
      split <;> simp only [hqp, hbyte, Bool.false_eq_true, if_false]
    rw [hnext, ih (s := s.putBytes a [x]) hqp fun i hi => ?_]
    · rfl
    · have := hkept (i + 1) (Nat.succ_lt_succ hi)
      rwa [Nat.add_comm i 1, ← Nat.add_assoc] at this

/-- The state once bytes are stored where nothing stops or discards them. -/
def State.bytesStored (s : State) (a : Nat) (d : List Byte) : State :=
  ((s.putBytes a d).clearPoison a d.length).qpWritten a d.length

/-- A store to clean memories without a hole. -/
theorem State.saveBytes_of_backed (hc : s.Clean) (hqp : ∀ i, s.qpIsReady i = false) (hb : s.Backed a bytes.length) :
    s.saveBytes a bytes = (s.bytesStored a bytes, none) := by
  simp only [State.saveBytes, hc.mergeStops, List.foldl_nil, hb.pages, State.clearingHit, hb.copses, List.map_nil,
    List.eraseDups_nil, List.isEmpty_nil, if_true, Bool.false_eq_true, if_false,
    State.storeOpen_eq_putBytes hqp hb.kept]
  rfl

/-- The state once a command of the memory and copy group has stored bytes. -/
def State.cmdStored (s : State) (a : Nat) (d : List Byte) : State := (s.bytesStored a d).unmark a d.length

theorem State.cmdStore_of_backed (hc : s.Clean) (hqp : ∀ i, s.qpIsReady i = false) (hb : s.Backed a bytes.length) :
    s.cmdStore a bytes = (s.cmdStored a bytes, none) := by
  simp only [State.cmdStore, hc.mergeStops, State.saveBytes_of_backed hc hqp hb, State.cmdStored]

/-- A context written changes the queue pairs alone. -/
theorem State.qpWritten_leaves {β : Type} (part : State → β) (h : ∀ (u : State) f, part { u with fab := f } = part u) :
    part (s.qpWritten a n) = part s :=
  State.foldl_leaves part (fun u i => by
    dsimp only
    split_ifs
    · rfl
    · exact h u _
    · exact h u _
    · rfl) _

/-- Marks taken away are all that changes of a state and of its tensors. -/
theorem State.unmark_fields : (s.unmark a n).cmd = s.cmd ∧ (s.unmark a n).regs = s.regs ∧ (s.unmark a n).tally = s.tally ∧
    (s.unmark a n).mem = s.mem ∧ (s.unmark a n).tens.map (fun x => { x with marks := [] }) =
      s.tens.map fun x => { x with marks := [] } := by
  unfold State.unmark
  split
  case isFalse => exact ⟨rfl, rfl, rfl, rfl, rfl⟩
  case isTrue =>
    refine ⟨rfl, rfl, rfl, rfl, ?_⟩
    rw [List.map_map]
    refine List.map_congr_left fun x _ => ?_
    rw [Function.comp_apply]
    split <;> rfl

/-- What a store leaves: commands, registers, tallies, and tensors but for their marks. -/
theorem State.cmdStored_fields : (s.cmdStored a bytes).cmd = s.cmd ∧ (s.cmdStored a bytes).regs = s.regs ∧
    (s.cmdStored a bytes).tally = s.tally ∧ (s.cmdStored a bytes).tens.map (fun x => { x with marks := [] }) =
      s.tens.map fun x => { x with marks := [] } := by
  obtain ⟨hcmd, hregs, htally, -, htens⟩ := State.unmark_fields (s := s.bytesStored a bytes) (a := a) (n := bytes.length)
  exact ⟨hcmd.trans (State.qpWritten_leaves State.cmd fun _ _ => rfl),
    hregs.trans (State.qpWritten_leaves State.regs fun _ _ => rfl),
    htally.trans (State.qpWritten_leaves State.tally fun _ _ => rfl),
    htens.trans (congrArg _ (State.qpWritten_leaves State.tens fun _ _ => rfl))⟩

/-- A byte after a store: the one stored where the bytes lie, the old one elsewhere. -/
theorem State.byteAt_cmdStored (hs : s.Sound) : (s.cmdStored a bytes).byteAt i =
    if a ≤ i ∧ i < a + bytes.length then bytes.getD (i - a) 0 else s.byteAt i := by
  obtain ⟨-, -, -, hmem, -⟩ := State.unmark_fields (s := s.bytesStored a bytes) (a := a) (n := bytes.length)
  have hbytes : (s.bytesStored a bytes).mem.bytes = (s.putBytes a bytes).mem.bytes :=
    State.qpWritten_leaves (fun u => u.mem.bytes) fun _ _ => rfl
  rw [State.cmdStored, State.byteAt_congr hmem, State.byteAt, hbytes, ← State.byteAt, State.byteAt_putBytes hs]

/-- A command that stores bytes and then ends: its outcome, every byte of memory, and what stays. -/
theorem State.cmdStored_finish_spec {o : Outcome} (hs : s.Sound) (h : s.cmdOf n = some c) :
    ((s.cmdStored a bytes).finish n o).Ended n o ∧
    (∀ i, ((s.cmdStored a bytes).finish n o).byteAt i =
      if a ≤ i ∧ i < a + bytes.length then bytes.getD (i - a) 0 else s.byteAt i) ∧
    ((s.cmdStored a bytes).finish n o).regs = s.regs ∧ ((s.cmdStored a bytes).finish n o).tally = s.tally ∧
    ((s.cmdStored a bytes).finish n o).tens.map (fun x => { x with marks := [] }) =
      s.tens.map fun x => { x with marks := [] } := by
  obtain ⟨hcmd, hregs, htally, htens⟩ := State.cmdStored_fields (s := s) (a := a) (bytes := bytes)
  exact ⟨State.finish_ended ((State.cmdOf_congr hcmd).trans h), fun _ => State.byteAt_cmdStored hs, hregs, htally, htens⟩

/-! ### The bytes a command stores -/

@[simp] theorem Sparse.length_getMany {α : Type} {z : Nat → α} {m : List (Nat × α)} :
    (Sparse.getMany z m k n).length = n := by
  induction n generalizing k with
  | zero => rfl
  | succ n ih => rw [Sparse.getMany, List.length_cons, ih]

@[simp] theorem State.length_bytesAt : (s.bytesAt a n).length = n := Sparse.length_getMany

theorem State.getD_bytesAt (h : i < n) : (s.bytesAt a n).getD i 0 = s.byteAt (a + i) := Sparse.getD_getMany h

@[simp] theorem length_patternBytes : (patternBytes n k).length = n := by simp [patternBytes]

theorem getD_patternBytes (h : i < n) : (patternBytes n k).getD i 0 = BitVec.ofNat 8 (k / 2 ^ (8 * (i % 8))) := by
  simp [patternBytes, h]

/-! ### The pieces of a command (Table 10.7) -/

/-- The opcodes of COPY and COPY_2D. -/
def Cmd.IsCopy (c : Cmd) : Prop := c.opcode = 0x0201 ∨ c.opcode = 0x0203

theorem segments_of_copy (h : c.opcode = 0x0201) : segments c = [(c.par 32 8, c.par 40 8, c.par 48 8)] := by
  rw [segments, if_neg (by omega)]

theorem memReads_of_copy (h : c.IsCopy) : memReads c = (segments c).map fun x => (x.1, x.2.2) := by
  rcases h with h | h <;> simp [memReads, segments, h]

theorem memWrites_of_copy (h : c.IsCopy) : memWrites c = (segments c).map fun x => (x.2.1, x.2.2) := by
  rcases h with h | h <;> simp [memWrites, segments, h]

theorem sources_of_copy (h : c.IsCopy) : sources c = segments c := by
  rcases h with h | h <;> simp [sources, h]

/-- The bytes that the rows of a COPY_2D cover. -/
theorem copyBytes_of_rows (h : c.opcode = 0x0203) : copyBytes c = c.par 68 4 * c.par 64 4 := by
  simp [copyBytes, segments, h, Function.comp_def]

theorem copyBytes_of_copy (h : c.opcode = 0x0201) : copyBytes c = c.par 48 8 := by
  simp [copyBytes, segments_of_copy h]

/-- Fabric ranges that all name this node, by their local addresses. -/
theorem State.rangesHere_of_here {α : Type} {f : α → Nat × Nat} {m : List α} (h : ∀ x ∈ m, nodeOf (f x).1 = s.node) :
    s.rangesHere (m.map f) = m.map fun x => (localOf (f x).1, (f x).2) := by
  have hall : (m.map f).filter (fun r => nodeOf r.1 = s.node) = m.map f :=
    List.filter_eq_self.2 fun r hr => by
      obtain ⟨x, hx, rfl⟩ := List.mem_map.1 hr
      exact decide_eq_true (h x hx)
  rw [State.rangesHere, hall, List.map_map]
  rfl

/-! ### Sources read and destinations written (R284) -/

/-- Source pieces of this node, in clean memories, are all read at once, in order. -/
theorem State.gather_of_here (hc : s.Clean) (h : ∀ x ∈ l, nodeOf x.1 = s.node) :
    s.gather c l bytes = s.gathered c (bytes ++ (l.map fun x => s.bytesAt (localOf x.1) x.2.2).flatten) := by
  induction l generalizing bytes with
  | nil => rw [State.gather, List.map_nil, List.flatten_nil, List.append_nil]
  | cons x l ih =>
    obtain ⟨hx, hl⟩ := List.forall_mem_cons.1 h
    rw [State.gather, if_neg (by simp [hx]), hc.readStop]
    dsimp only
    rw [ih hl, List.map_cons, List.flatten_cons, List.append_assoc]

/-- A copy within this node is no SEND. -/
theorem State.oneSend_of_here (h : ∀ x ∈ l, nodeOf x.2.1 = s.node) : s.oneSend l = none := by
  unfold State.oneSend
  split
  case h_1 => rfl
  case h_2 x l => rw [if_neg (by simp [h x List.mem_cons_self])]

/-- A copy whose destinations are of this node, and can be stored to, ends OK with the bytes it covers. -/
theorem State.copyOut_of_here (h : ∀ x ∈ segments c, nodeOf x.2.1 = s.node)
    (hput : s.putOut c (segments c) bytes = (t, none)) :
    s.copyOut c bytes = t.finish c.id (Outcome.ok (copyBytes c)) := by
  have hhere : ((segments c).all fun x => nodeOf x.2.1 = s.node) = true :=
    List.all_eq_true.2 fun x hx => decide_eq_true (h x hx)
  simp only [State.copyOut, State.oneSend_of_here h, hhere, if_true, hput]

/-- A copy within this node, with nothing to wait for, stores what it reads and ends OK. -/
theorem State.copyCmd_of_here (hq : env.Quiet) (hc : s.Clean) (hop : c.IsCopy) (hf : s.copyFault c = none)
    (hhere : ∀ x ∈ segments c, nodeOf x.1 = s.node ∧ nodeOf x.2.1 = s.node)
    (hgate : s.rangeGate c ((segments c).map fun x => (localOf x.1, x.2.2))
      ((segments c).map fun x => (localOf x.2.1, x.2.2)) = none)
    (hput : s.putOut c (segments c) ((segments c).map fun x => s.bytesAt (localOf x.1) x.2.2).flatten = (t, none)) :
    s.copyCmd env c = t.finish c.id (Outcome.ok (copyBytes c)) := by
  have hreads : s.rangesHere (memReads c) = (segments c).map fun x => (localOf x.1, x.2.2) := by
    rw [memReads_of_copy hop, State.rangesHere_of_here fun x hx => (hhere x hx).1]
  have hwrites : s.rangesHere (memWrites c) = (segments c).map fun x => (localOf x.2.1, x.2.2) := by
    rw [memWrites_of_copy hop, State.rangesHere_of_here fun x hx => (hhere x hx).2]
  have hcopies : c.opcode ≠ 0x0204 := by rcases hop with h | h <;> omega
  simp only [State.copyCmd, hf, State.corrections_quiet hq, hreads, hwrites, hgate, sources_of_copy hop]
  rw [State.gather_of_here hc fun x hx => (hhere x hx).1, State.gathered, if_neg hcopies, List.nil_append,
    State.copyOut_of_here (fun x hx => (hhere x hx).2) hput]

/-- What a copy that passes its checks knows of its destination. -/
theorem State.backed_of_copyFault (h : c.opcode = 0x0201) (hf : s.copyFault c = none) (hnode : nodeOf (c.par 40 8) = s.node) :
    s.Backed (localOf (c.par 40 8)) (c.par 48 8) := by
  have hnot : ¬ c.opcode = 0x0203 := by omega
  simp only [State.copyFault, segments_of_copy h, hnot, if_false, List.any_cons, List.any_nil, Bool.or_false] at hf
  split_ifs at hf with hlen hrange hhole
  simp only [Bool.or_eq_true, not_or, Bool.not_eq_true, Bool.not_eq_false'] at hrange hhole
  exact State.backed_of_checks hnode hrange.2 hhole.2

theorem exec_copy_of_begins (h : s.Ready n 0x0201 c) (hb : s.Begins c) :
    exec (.copy n env) s = .next (s.copyCmd env c) := by rw [exec_copy, execCopy, h.work hb]

theorem exec_copy2d_of_begins (h : s.Ready n 0x0203 c) (hb : s.Begins c) :
    exec (.copy2d n env) s = .next (s.copyCmd env c) := by rw [exec_copy2d, execCopy2d, h.work hb]

/-- A COPY within this node that passes its checks stores what it reads. -/
theorem exec_copy_of_here (hq : env.Quiet) (hc : s.Clean) (hqp : ∀ i, s.qpIsReady i = false) (h : s.Ready n 0x0201 c)
    (hb : s.Begins c) (hf : s.copyFault c = none) (hsrc : nodeOf (c.par 32 8) = s.node) (hdst : nodeOf (c.par 40 8) = s.node)
    (hgate : s.rangeGate c [(localOf (c.par 32 8), c.par 48 8)] [(localOf (c.par 40 8), c.par 48 8)] = none) :
    exec (.copy n env) s = .next ((s.cmdStored (localOf (c.par 40 8))
      (s.bytesAt (localOf (c.par 32 8)) (c.par 48 8))).finish n (Outcome.ok (c.par 48 8))) := by
  have hsegs := segments_of_copy h.opcode
  have hbacked := State.backed_of_copyFault h.opcode hf hdst
  have hput : s.putOut c (segments c) ((segments c).map fun x => s.bytesAt (localOf x.1) x.2.2).flatten =
      (s.cmdStored (localOf (c.par 40 8)) (s.bytesAt (localOf (c.par 32 8)) (c.par 48 8)), none) := by
    have hall : (s.bytesAt (localOf (c.par 32 8)) (c.par 48 8)).take (c.par 48 8) =
        s.bytesAt (localOf (c.par 32 8)) (c.par 48 8) := List.take_of_length_le State.length_bytesAt.le
    have hstore : s.cmdStore (localOf (c.par 40 8)) (s.bytesAt (localOf (c.par 32 8)) (c.par 48 8)) = _ :=
      State.cmdStore_of_backed hc hqp (by rwa [State.length_bytesAt])
    rw [hsegs, List.map_singleton, List.flatten_singleton, State.putOut, if_pos hdst, hall, hstore]
    dsimp only
    rw [State.putOut]
  rw [exec_copy_of_begins h hb, State.copyCmd_of_here hq hc (.inl h.opcode) hf (by simpa [hsegs] using ⟨hsrc, hdst⟩)
    (by simpa [hsegs] using hgate) hput, h.id, copyBytes_of_copy h.opcode]

/-- A FILL within this node that passes its checks stores its pattern. -/
theorem exec_fill_of_here (hq : env.Quiet) (hc : s.Clean) (hqp : ∀ i, s.qpIsReady i = false) (h : s.Ready n 0x0202 c)
    (hb : s.Begins c) (hlen : c.par 40 8 % 8 = 0) (hpos : 0 < c.par 40 8) (hmax : c.par 40 8 ≤ 2 ^ 40)
    (halign : c.par 32 8 % 8 = 0) (hnode : nodeOf (c.par 32 8) = s.node)
    (hrange : s.copyRange (c.par 32 8) (c.par 40 8) = true) (hole : s.copyHole (c.par 32 8) (c.par 40 8) = false)
    (hgate : s.rangeGate c [] [(localOf (c.par 32 8), c.par 40 8)] = none) :
    exec (.fill n env) s = .next ((s.cmdStored (localOf (c.par 32 8)) (patternBytes (c.par 40 8) (c.par 48 8))).finish n
      (Outcome.ok (c.par 40 8))) := by
  have hbacked : s.Backed (localOf (c.par 32 8)) (patternBytes (c.par 40 8) (c.par 48 8)).length := by
    rw [length_patternBytes]
    exact State.backed_of_checks hnode hrange hole
  have hlength : ¬ (c.par 40 8 % 8 ≠ 0 ∨ 2 ^ 40 < c.par 40 8) := by omega
  have hplace : ¬ (c.par 32 8 % 8 ≠ 0 ∨ s.copyRange (c.par 32 8) (max (c.par 40 8) 1) = false) := by
    simp [halign, Nat.max_eq_left hpos, hrange]
  rw [exec_fill, execFill, h.work hb, State.corrections_quiet hq]
  simp only [hlength, hplace, hpos.ne', hole, hnode, hgate, State.cmdStore_of_backed hc hqp hbacked, h.id, ne_eq,
    not_true_eq_false, if_false, Bool.false_eq_true]

/-- A CHECKSUM of a region of this node answers with its CRC-64 and its length. -/
theorem exec_checksum_of_here (hq : env.Quiet) (hc : s.Clean) (h : s.Ready n 0x0204 c) (hb : s.Begins c)
    (hmax : c.par 40 8 ≤ 2 ^ 40) (hpos : 0 < c.par 40 8) (hnode : nodeOf (c.par 32 8) = s.node)
    (hrange : s.copyRange (c.par 32 8) (c.par 40 8) = true) (hole : s.copyHole (c.par 32 8) (c.par 40 8) = false)
    (hgate : s.rangeGate c [(localOf (c.par 32 8), c.par 40 8)] [] = none) :
    exec (.checksum n env) s = .next (s.finish n (Outcome.ok
      (crc64 (s.bytesAt (localOf (c.par 32 8)) (c.par 40 8)) + c.par 40 8 * 2 ^ 64))) := by
  have hsource : sources c = [(c.par 32 8, 0, c.par 40 8)] := by rw [sources, if_pos h.opcode]
  have hhere : s.rangesHere [(c.par 32 8, c.par 40 8)] = [(localOf (c.par 32 8), c.par 40 8)] :=
    State.rangesHere_of_here (f := id) (m := [(c.par 32 8, c.par 40 8)]) (by simpa using hnode)
  have hread : s.gather c (sources c) [] = s.gathered c (s.bytesAt (localOf (c.par 32 8)) (c.par 40 8)) := by
    rw [hsource, State.gather_of_here hc (by simpa using hnode)]
    simp
  rw [exec_checksum, execChecksum, h.work hb]
  simp only [Nat.not_lt.2 hmax, Nat.max_eq_left hpos, hrange, hpos.ne', hole, State.corrections_quiet hq, hhere, hgate, hread,
    State.gathered, h.opcode, State.length_bytesAt, h.id, if_true, if_false, Bool.true_eq_false, Bool.false_eq_true]

/-- A refusal ends BAD_PARAM with its DETAIL and leaves memory, tallies and tensors. -/
theorem State.copyRefused_spec {ranges : List (Nat × Nat)} (h : s.cmdOf n = some c) :
    (s.copyRefused c d ranges).Ended n (Outcome.bad d) ∧ (s.copyRefused c d ranges).mem = s.mem ∧
      (s.copyRefused c d ranges).tally = s.tally ∧ (s.copyRefused c d ranges).tens = s.tens := by
  obtain rfl := State.cmdOf_id h
  have hfault (code node addr : Nat) : (s.fabricErr code node addr).cmd = s.cmd ∧ (s.fabricErr code node addr).mem = s.mem ∧
      (s.fabricErr code node addr).tally = s.tally ∧ (s.fabricErr code node addr).tens = s.tens := by
    unfold State.fabricErr
    split <;> simp
  unfold State.copyRefused
  extract_lets u
  obtain ⟨hcmd, hmem, htally, htens⟩ : u.cmd = s.cmd ∧ u.mem = s.mem ∧ u.tally = s.tally ∧ u.tens = s.tens := by
    unfold u
    split
    case h_1 => exact hfault _ _ _
    case h_2 => exact ⟨rfl, rfl, rfl, rfl⟩
  exact ⟨State.finish_ended ((State.cmdOf_congr hcmd).trans h), hmem, htally, htens⟩

/-! ### The memory and copy group -/

/-- Settles O23: a command that passes its checks has a destination without a hole, so a store of its bytes puts them all and
discards none; the source was read before, and does not meet the destination. -/
theorem copyAndFillWriteTheirDestination : Obligations.CopyAndFillWriteTheirDestination := by
  unfold Obligations.CopyAndFillWriteTheirDestination
  refine fun s n c env hs hb hq hc hqp => ⟨?copy, ?fill⟩
  case copy =>
    intro h hf hsrc hdst hgate
    obtain ⟨hended, hbytes, hregs, htally, htens⟩ := State.cmdStored_finish_spec (a := localOf (c.par 40 8))
      (bytes := s.bytesAt (localOf (c.par 32 8)) (c.par 48 8)) (o := Outcome.ok (c.par 48 8)) hs h.found
    refine ⟨_, exec_copy_of_here hq hc hqp h hb hf hsrc hdst hgate, hended, fun i => ?_, hregs, htally, htens⟩
    rw [hbytes, State.length_bytesAt]
    exact if_ctx_congr Iff.rfl (fun hin => State.getD_bytesAt (by omega)) fun _ => rfl
  case fill =>
    intro h hlen hpos hmax halign hnode hrange hole hgate
    obtain ⟨hended, hbytes, hregs, htally, htens⟩ := State.cmdStored_finish_spec (a := localOf (c.par 32 8))
      (bytes := patternBytes (c.par 40 8) (c.par 48 8)) (o := Outcome.ok (c.par 40 8)) hs h.found
    refine ⟨_, exec_fill_of_here hq hc hqp h hb hlen hpos hmax halign hnode hrange hole hgate, hended, fun i => ?_, hregs,
      htally, htens⟩
    rw [hbytes, length_patternBytes]
    exact if_ctx_congr Iff.rfl (fun hin => getD_patternBytes (by omega)) fun _ => rfl

/-- Settles O24: a copy within this node reads all its rows before it stores any; CHECKSUM reads and answers; a refusal comes
before any byte moves and records at most a fabric fault. -/
theorem copy2dAndChecksumComplete : Obligations.Copy2dAndChecksumComplete := by
  unfold Obligations.Copy2dAndChecksumComplete
  refine fun s t n c env hq hb hc => ⟨?rows, ?refused, ?checksum⟩
  case rows =>
    intro h hf hhere hgate hput
    rw [exec_copy2d_of_begins h hb, State.copyCmd_of_here hq hc (.inr h.opcode) hf hhere hgate hput, h.id,
      copyBytes_of_rows h.opcode]
  case refused =>
    intro i d hrow hf
    have hcmd : s.copyCmd env c = s.copyRefused c d (memReads c ++ memWrites c) := by simp only [State.copyCmd, hf]
    obtain ⟨h, rfl⟩ | ⟨h, rfl⟩ := hrow
    · exact ⟨_, by rw [exec_copy_of_begins h hb, hcmd], State.copyRefused_spec h.found⟩
    · exact ⟨_, by rw [exec_copy2d_of_begins h hb, hcmd], State.copyRefused_spec h.found⟩
  case checksum =>
    intro h hmax hpos hnode hrange hole hgate
    exact exec_checksum_of_here hq hc h hb hmax hpos hnode hrange hole hgate

end Sys2Proof.Machine
end

section
/-! SUPPORT and PROOF. Triggers of a proof: what makes one, what misses one, and what ends with it (18 R422 to R425; 11 R310). -/

namespace Sys2Proof.Machine

variable {s t : State} {n k : Nat} {c : Cmd} {l : List Nat} {o : Outcome}

theorem exec_proofFire (l : List Nat) (s : State) : exec (.proofFire l) s = execProofFire l s := rfl

theorem exec_proofNow (n : Nat) (s : State) : exec (.proofNow n) s = execProofNow n s := rfl

theorem exec_proofAtTime (n : Nat) (s : State) : exec (.proofAtTime n) s = execProofAtTime n s := rfl

theorem exec_proofPinEdge (s : State) : exec .proofPinEdge s = execProofPinEdge s := rfl

theorem exec_proofPullEnd (s : State) : exec .proofPullEnd s = execProofPullEnd s := rfl

theorem exec_proofRelease (s : State) : exec .proofRelease s = execProofRelease s := rfl

/-! ### Who waits for a proof -/

theorem State.cmdOf_of_proofWaiter (hs : s.Sound) (h : s.proofWaiter k = some c) : s.cmdOf c.id = some c :=
  hs.cmdOf_mem (List.mem_of_find?_eq_some h)

/-- The command that waited for its trigger ends, in whatever became of the state but for its commands. -/
theorem State.proofEnds_of_waiter (h : s.proofWaiter k = some c) (hcmd : t.cmd = s.cmd) :
    t.proofEnds k o = t.finish c.id o := by
  have hwaiter : t.proofWaiter k = some c := by rw [← h, State.proofWaiter, hcmd, State.proofWaiter]
  simp only [State.proofEnds, hwaiter]

theorem State.Ended.of_proofWaiter (hs : s.Sound) (h : s.proofWaiter k = some c) (hcmd : t.cmd = s.cmd) :
    (t.finish c.id o).Ended c.id o :=
  State.finish_ended ((State.cmdOf_congr hcmd).trans (State.cmdOf_of_proofWaiter hs h))

theorem State.fld_finish {off hi lo : Nat} : (s.finish n o).fld off hi lo = s.fld off hi lo := State.fld_congr State.reg_finish

/-- The trigger of a PROOF_AT_TIME is on its way once PTP_NOW has reached its time (11 R310). -/
theorem State.triggerDue_timed (h : s.proofWaiter 24 = some c) :
    s.triggerDue 1 = decide (c.aux.getD 1 0 ≤ s.fab.ptp.now / 1000) := by rw [State.triggerDue, h, Option.any_some]

/-- One trigger that is on its way fires alone. -/
theorem exec_proofFire_one (hk : k < 5) (hdue : s.triggerDue k = true) : exec (.proofFire [k]) s = .next (s.fire [k]) := by
  rw [exec_proofFire, execProofFire, List.filter_cons_of_pos (by simp [hk, hdue])]
  rfl

/-- A trigger that is not on its way fires nothing. -/
theorem exec_proofFire_none (hdue : s.triggerDue k = false) : exec (.proofFire [k]) s = .next s := by
  rw [exec_proofFire, execProofFire, List.filter_cons_of_neg (by simp [hdue])]
  rfl

/-! ### A proof made (R422), and one missed (R423) -/

/-- The state once triggers have reached the master: they are on their way no more. -/
def State.triggersTaken (s : State) (l : List Nat) : State :=
  { s with obs := { s.obs with due := l.foldl (fun d k => d.erase k) s.obs.due } }

/-- The number of the proof that is made next. -/
def State.proofNumber (s : State) : Nat := (s.fld Reg.proofState 63 32 + 1) % 2 ^ 32

/-- The state once the proof of some triggers is made and held: stamped, numbered, its sources in PROOF_STATE. -/
def State.proofMade (s : State) (l : List Nat) : State :=
  let u := s.stampProof
  let v := ((u.setFld Reg.proofState 63 32 s.proofNumber).setFld Reg.proofState 31 31 1).setFld Reg.proofState 4 0
    ((l.map (2 ^ ·)).sum)
  { v with obs := { v.obs with
    image := some (u.imageNow s.proofNumber)
    pull := v.obs.pull || decide (v.fld Reg.proofCfg 30 30 = 1) } }

/-- UNSYNCED_PROOF, for the scheduled proof of a command (R425). -/
def State.syncNoted (s : State) (c : Cmd) : State :=
  if c.aux.getD 2 0 = 1 then s.setFld Reg.ptpStatus 30 30 1 else s

/-- The registers that the making of a proof writes, besides UNSYNCED_PROOF. -/
def proofRegs : List Nat := [Reg.proofState, Reg.proofStampTime, Reg.proofStampPtp, Reg.proofStampCal]

@[simp] theorem State.triggersTaken_fields : (s.triggersTaken l).cmd = s.cmd ∧ (s.triggersTaken l).mem = s.mem ∧
    (s.triggersTaken l).tens = s.tens ∧ (s.triggersTaken l).tally = s.tally ∧ (s.triggersTaken l).time = s.time :=
  ⟨rfl, rfl, rfl, rfl, rfl⟩

theorem State.reg_triggersTaken {r : Nat} : (s.triggersTaken l).reg r = s.reg r := State.reg_congr rfl

theorem State.fld_triggersTaken {off hi lo : Nat} : (s.triggersTaken l).fld off hi lo = s.fld off hi lo :=
  State.fld_congr State.reg_triggersTaken

theorem State.proofNumber_triggersTaken : (s.triggersTaken l).proofNumber = s.proofNumber := by
  rw [State.proofNumber, State.fld_triggersTaken, State.proofNumber]

theorem State.Sound.triggersTaken (hs : s.Sound) : (s.triggersTaken l).Sound :=
  (Kept.upd hs.kept rfl rfl rfl rfl rfl rfl rfl).sound

theorem State.syncNoted_fields : (s.syncNoted c).cmd = s.cmd ∧ (s.syncNoted c).time = s.time := by
  unfold State.syncNoted
  split <;> simp

theorem State.Sound.syncNoted (hs : s.Sound) : (s.syncNoted c).Sound := by
  unfold State.syncNoted
  split
  · exact hs.setFld
  · exact hs

theorem State.fld_syncNoted_proofState {hi lo : Nat} :
    (s.syncNoted c).fld Reg.proofState hi lo = s.fld Reg.proofState hi lo := by
  unfold State.syncNoted
  split
  · exact State.fld_setFld_other (by decide)
  · rfl

theorem State.proofNumber_syncNoted : (s.syncNoted c).proofNumber = s.proofNumber := by
  rw [State.proofNumber, State.fld_syncNoted_proofState, State.proofNumber]

/-- The release of an image writes HELD alone. -/
theorem State.reg_releaseImage {r : Nat} : s.releaseImage.reg r = (s.setFld Reg.proofState 31 31 0).reg r := State.reg_congr rfl

/-- The stamp of a proof writes its three registers, the device time among them, and nothing else but the free value. -/
theorem State.stampProof_spec (hs : s.Sound) : s.stampProof.Sound ∧ s.stampProof.cmd = s.cmd ∧ s.stampProof.mem = s.mem ∧
    s.stampProof.tens = s.tens ∧ s.stampProof.tally = s.tally ∧ s.stampProof.reg Reg.proofStampTime = s.time % 2 ^ 64 ∧
    ∀ r, r ∉ proofRegs.tail → s.stampProof.reg r = s.reg r := by
  have hfree : s.calendarCounter.2.Sound := (State.calendarCounter_kept hs.kept).sound
  refine ⟨(State.stampProof_kept hs.kept).sound, rfl, rfl, rfl, rfl, ?_, fun r hr => ?_⟩
  · rw [State.stampProof, State.reg_setReg_other (by decide), State.reg_setReg_other (by decide),
      State.reg_setReg_same hfree]
    rfl
  · simp only [proofRegs, List.tail_cons, List.mem_cons, List.not_mem_nil, or_false, not_or] at hr
    obtain ⟨htime, hptp, hcal⟩ := hr
    rw [State.stampProof, State.reg_setReg_other hcal, State.reg_setReg_other hptp, State.reg_setReg_other htime]
    rfl

/-- The fields of PROOF_STATE and PROOF_STAMP once a proof is made, its image, and what making it leaves. -/
theorem State.proofMade_spec (hs : s.Sound) (hl : (l.map (2 ^ ·)).sum < 2 ^ 5) :
    (∃ img, (s.proofMade l).obs.image = some img ∧ img.number = s.proofNumber) ∧
    (s.proofMade l).fld Reg.proofState 31 31 = 1 ∧ (s.proofMade l).fld Reg.proofState 63 32 = s.proofNumber ∧
    (s.proofMade l).fld Reg.proofState 4 0 = (l.map (2 ^ ·)).sum ∧
    (s.proofMade l).reg Reg.proofStampTime = s.time % 2 ^ 64 ∧ (s.proofMade l).cmd = s.cmd ∧
    (s.proofMade l).mem = s.mem ∧ (s.proofMade l).tens = s.tens ∧ (s.proofMade l).tally = s.tally ∧
    ∀ r, r ∉ proofRegs → (s.proofMade l).reg r = s.reg r := by
  obtain ⟨husound, hcmd, hmem, htens, htally, htime, hother⟩ := State.stampProof_spec hs
  let u := s.stampProof
  have hregs : ∀ r, (s.proofMade l).reg r = (((u.setFld Reg.proofState 63 32 s.proofNumber).setFld Reg.proofState 31 31
      1).setFld Reg.proofState 4 0 ((l.map (2 ^ ·)).sum)).reg r := fun r => State.reg_congr rfl
  refine ⟨⟨_, rfl, rfl⟩, (State.fld_congr (hregs _)).trans ?_, (State.fld_congr (hregs _)).trans ?_,
    (State.fld_congr (hregs _)).trans ?_, (hregs _).trans ?_, by simp [State.proofMade, hcmd], by simp [State.proofMade, hmem],
    by simp [State.proofMade, htens], by simp [State.proofMade, htally], fun r hr => (hregs r).trans ?_⟩
  · rw [State.fld_setFld_above husound.setFld.setFld (by decide) (by decide) (by decide),
      State.fld_setFld_of_fits husound.setFld (by decide) (by decide) (by decide)]
  · rw [State.fld_setFld_above husound.setFld.setFld (by decide) (by decide) (by decide),
      State.fld_setFld_above husound.setFld (by decide) (by decide) (by decide)]
    exact State.fld_setFld_of_fits husound (by decide) (by decide) (Nat.mod_lt _ (by decide))
  · exact State.fld_setFld_of_fits husound.setFld.setFld (by decide) (by decide) hl
  · rw [State.reg_setFld_other (by decide), State.reg_setFld_other (by decide), State.reg_setFld_other (by decide), htime]
  · have hstate : r ≠ Reg.proofState := fun h => hr (h ▸ List.mem_cons_self)
    rw [State.reg_setFld_other hstate, State.reg_setFld_other hstate, State.reg_setFld_other hstate,
      hother r fun h => hr (List.mem_of_mem_tail h)]

/-- The trigger of a PROOF_NOW makes its proof, and the command ends with the number. -/
theorem State.fire_now (h : s.proofWaiter 23 = some c) (hheld : s.fld Reg.proofState 31 31 = 0) : s.fire [0] =
    ((s.triggersTaken [0]).proofMade [0]).finish c.id (Outcome.ok (s.proofNumber * 2 ^ 32)) := by
  have hcond : ¬ s.fld Reg.proofState 31 31 = 1 := by omega
  rw [State.fire]
  refine (if_neg hcond).trans ?_
  exact State.proofEnds_of_waiter (t := (s.triggersTaken [0]).proofMade [0]) h rfl

/-- The trigger of a PROOF_AT_TIME makes its proof, and the command ends with the number. -/
theorem State.fire_timed (hs : s.Sound) (h : s.proofWaiter 24 = some c) (hheld : s.fld Reg.proofState 31 31 = 0) : s.fire [1] =
    (((s.triggersTaken [1]).syncNoted c).proofMade [1]).finish c.id (Outcome.ok (s.proofNumber * 2 ^ 32)) := by
  have hcond : ¬ s.fld Reg.proofState 31 31 = 1 := by omega
  have hnumber := (State.proofNumber_syncNoted (c := c)).trans (State.proofNumber_triggersTaken (s := s) (l := [1]))
  have hnoted : (if [1].contains 1 ∧ ((s.triggersTaken [1]).proofWaiter 24).any (fun c => c.aux.getD 2 0 = 1) = true then
      (s.triggersTaken [1]).setFld Reg.ptpStatus 30 30 1 else s.triggersTaken [1]) = (s.triggersTaken [1]).syncNoted c := by
    rw [show (s.triggersTaken [1]).proofWaiter 24 = some c from h, State.syncNoted]
    simp
  rw [State.fire]
  refine (if_neg hcond).trans ?_
  have hcmd : (((s.triggersTaken [1]).syncNoted c).proofMade [1]).cmd = s.cmd := by
    obtain ⟨-, -, -, -, -, hmade, -⟩ := State.proofMade_spec (l := [1]) hs.triggersTaken.syncNoted (by decide)
    exact hmade.trans State.syncNoted_fields.1
  rw [← State.proofEnds_of_waiter h hcmd, State.proofMade, hnumber, ← hnoted]
  rfl

/-- The trigger of a PROOF_NOW that finds an image held is missed. -/
theorem State.fire_missed (h : s.proofWaiter 23 = some c) (hheld : s.fld Reg.proofState 31 31 = 1) : s.fire [0] =
    ((s.triggersTaken [0]).addSat Reg.proofState 23 16 1).finish c.id (Outcome.aborted 0x0100) := by
  rw [State.fire]
  refine (if_pos hheld).trans ?_
  exact State.proofEnds_of_waiter (t := (s.triggersTaken [0]).addSat Reg.proofState 23 16 1) h rfl

/-! ### Triggers -/

/-- Settles O51: a proof made is stamped and numbered before the command that waited for it ends; one missed is counted. -/
theorem triggersMakeProofs : Obligations.TriggersMakeProofs := by
  unfold Obligations.TriggersMakeProofs
  refine fun s n c hs => ⟨?now, ?atTime, ?fireNow, ?fireTimed, ?early, ?missed, ?edge, ?noEdge, ?pullEnd, ?release⟩
  case now =>
    intro h
    rw [exec_proofNow, execProofNow, h.run, h.id]
  case atTime =>
    intro h
    rw [exec_proofAtTime, execProofAtTime, h.run, h.id]
  case fireNow =>
    rintro h rfl hheld
    have hdue : s.triggerDue 0 = true := by simp [State.triggerDue, h]
    obtain ⟨⟨img, himg, hnum⟩, hmade, hnumber, hsource, hstamp, hcmd, hmem, htens, htally, -⟩ :=
      State.proofMade_spec (l := [0]) hs.triggersTaken (by decide)
    refine ⟨_, img, (exec_proofFire_one (by decide) hdue).trans (congrArg _ (State.fire_now h hheld)),
      State.Ended.of_proofWaiter hs h hcmd, ?_, hnum.trans State.proofNumber_triggersTaken, State.fld_finish.trans hmade,
      State.fld_finish.trans (hnumber.trans State.proofNumber_triggersTaken),
      State.fld_finish.trans hsource, State.reg_finish.trans hstamp, ?_, ?_, ?_⟩
    · simpa using himg
    · simpa using hmem
    · simpa using htens
    · simpa using htally
  case fireTimed =>
    rintro h rfl htime hheld
    have hdue : s.triggerDue 1 = true := by rw [State.triggerDue_timed h, decide_eq_true htime]
    let u := (s.triggersTaken [1]).syncNoted c
    have hu : u.Sound := hs.triggersTaken.syncNoted
    obtain ⟨⟨img, himg, hnum⟩, -, -, hsource, -, hcmd, -, -, -, hother⟩ := State.proofMade_spec (l := [1]) hu (by decide)
    refine ⟨_, img, (exec_proofFire_one (by decide) hdue).trans (congrArg _ (State.fire_timed hs h hheld)),
      State.Ended.of_proofWaiter hs h (hcmd.trans State.syncNoted_fields.1), ?_,
      hnum.trans (State.proofNumber_syncNoted.trans State.proofNumber_triggersTaken), State.fld_finish.trans hsource,
      fun hsync => ?_⟩
    · simpa using himg
    · have hnoted : u = (s.triggersTaken [1]).setFld Reg.ptpStatus 30 30 1 := if_pos hsync
      refine State.fld_finish.trans ((State.fld_congr (hother _ (by decide))).trans ?_)
      rw [hnoted]
      exact State.fld_setFld_of_fits hs.triggersTaken (by decide) (by decide) (by decide)
  case early =>
    intro h htime
    exact exec_proofFire_none (by rw [State.triggerDue_timed h, decide_eq_false (by omega)])
  case missed =>
    rintro h rfl hheld
    have hdue : s.triggerDue 0 = true := by simp [State.triggerDue, h]
    refine ⟨_, (exec_proofFire_one (by decide) hdue).trans (congrArg _ (State.fire_missed h hheld)),
      State.Ended.of_proofWaiter hs h (by simp), by simp [State.triggersTaken], State.fld_finish.trans ?_,
      fun r hr => State.reg_finish.trans ?_, by simp⟩
    · have hcount := State.fld_addSat_same (x := 1) (hs.triggersTaken (l := [0])) (off := Reg.proofState) (lo := 16) (hi := 23)
        (by decide) (by decide)
      rwa [State.fld_triggersTaken] at hcount
    · rw [State.addSat, State.reg_setFld_other hr, State.reg_triggersTaken]
  case edge =>
    intro hin hpull hdeaf hheld
    rw [exec_proofPinEdge, execProofPinEdge, if_pos ⟨hin, hpull, hdeaf, hheld⟩]
  case noEdge =>
    intro h
    rw [exec_proofPinEdge, execProofPinEdge, if_neg]
    rintro ⟨hin, hpull, hdeaf, -⟩
    rcases h with h | h | h
    · omega
    · simp [h] at hpull
    · omega
  case pullEnd =>
    intro h
    rw [exec_proofPullEnd, execProofPullEnd, if_pos h]
  case release =>
    intro hup
    refine ⟨_, by rw [exec_proofRelease, execProofRelease, hup.when], rfl, ?_, ?_, fun r hr => ?_,
      by simp [State.releaseImage], by simp [State.releaseImage]⟩
    · exact (State.fld_congr State.reg_releaseImage).trans (State.fld_setFld_of_fits hs (by decide) (by decide) (by decide))
    · exact (State.fld_congr State.reg_releaseImage).trans
        (State.fld_setFld_below hs (by decide) (by decide) (by decide) (by decide))
    · exact State.reg_releaseImage.trans (State.reg_setFld_other hr)

end Sys2Proof.Machine
end

section
/-! SUPPORT. The layer of one link: what an update of it leaves, a link on which nothing waits, blocks sent on it, and the
registers of the links, which are apart (11 R290, R292, R302; Table 11.22). -/

namespace Sys2Proof.Machine

variable {s t : State} {n m k o hi lo : Nat} {f g : LinkSt → LinkSt}

/-! ### The registers of a link -/

@[simp] theorem linkErr_ne_linkState : Reg.linkErr n ≠ Reg.linkState m := by simp only [Reg.linkErr, Reg.linkState]; omega

@[simp] theorem linkErr_ne_linkCfg : Reg.linkErr n ≠ Reg.linkCfg m := by simp only [Reg.linkErr, Reg.linkCfg]; omega

@[simp] theorem linkErr_ne_linkTraffic : Reg.linkErr n ≠ Reg.linkTraffic m := by
  simp only [Reg.linkErr, Reg.linkTraffic]; omega

@[simp] theorem linkState_ne_linkErr : Reg.linkState n ≠ Reg.linkErr m := linkErr_ne_linkState.symm

@[simp] theorem linkState_ne_linkCfg : Reg.linkState n ≠ Reg.linkCfg m := by simp only [Reg.linkState, Reg.linkCfg]; omega

@[simp] theorem linkState_ne_linkLat : Reg.linkState n ≠ Reg.linkLat m := by simp only [Reg.linkState, Reg.linkLat]; omega

@[simp] theorem linkState_ne_linkTraffic : Reg.linkState n ≠ Reg.linkTraffic m := by
  simp only [Reg.linkState, Reg.linkTraffic]; omega

@[simp] theorem linkCfg_ne_linkErr : Reg.linkCfg n ≠ Reg.linkErr m := linkErr_ne_linkCfg.symm

@[simp] theorem linkCfg_ne_linkState : Reg.linkCfg n ≠ Reg.linkState m := linkState_ne_linkCfg.symm

@[simp] theorem linkCfg_ne_linkTraffic : Reg.linkCfg n ≠ Reg.linkTraffic m := by
  simp only [Reg.linkCfg, Reg.linkTraffic]; omega

@[simp] theorem linkEventCfg_ne_linkState : Reg.linkEventCfg ≠ Reg.linkState n := by
  simp only [Reg.linkEventCfg, Reg.linkState]; omega

@[simp] theorem linkEventCfg_ne_linkLat : Reg.linkEventCfg ≠ Reg.linkLat n := by
  simp only [Reg.linkEventCfg, Reg.linkLat]; omega

/-- The eight upper bits of a link's state register: STATE and CAUSE (Table 11.22). -/
theorem bits_state_cause (v : Nat) : bits v 31 24 = bits v 31 29 * 32 + bits v 28 24 := by
  simp only [bits_eq]
  omega

/-! ### An update of a link -/

@[simp] theorem State.reg_updLink : (s.updLink n f).reg o = s.reg o := State.reg_congr rfl

@[simp] theorem State.fld_updLink : (s.updLink n f).fld o hi lo = s.fld o hi lo := State.fld_congr State.reg_updLink

@[simp] theorem State.length_links_updLink : (s.updLink n f).fab.links.length = s.fab.links.length := by simp [State.updLink]

theorem State.Sound.updLink (hs : s.Sound) : (s.updLink n f).Sound := (State.updLink_kept hs.kept).sound

theorem State.link_congr (h : t.fab = s.fab) : t.link n = s.link n := by rw [State.link, h, State.link]

@[simp] theorem State.link_addSat {x : Nat} : (s.addSat o hi lo x).link n = s.link n := State.link_congr (by simp)

@[simp] theorem State.link_setFld {x : Nat} : (s.setFld o hi lo x).link n = s.link n := State.link_congr (by simp)

theorem State.link_updLink_other (h : m ≠ n) : (s.updLink n f).link m = s.link m := by
  simp [State.link, State.updLink, List.getD_eq_getElem?_getD, h.symm]

/-- An update of a link depends on what it does to that link alone. -/
theorem State.updLink_congr (h : f (s.link n) = g (s.link n)) : s.updLink n f = s.updLink n g := by
  have hlinks : s.fab.links.modify n f = s.fab.links.modify n g := by
    refine List.ext_getElem? fun i => ?_
    rw [List.getElem?_modify, List.getElem?_modify]
    cases hi : s.fab.links[i]? with
    | none => rfl
    | some l =>
      by_cases hni : n = i
      · have hl : s.link n = l := by rw [State.link, List.getD_eq_getElem?_getD, hni, hi, Option.getD_some]
        rw [hl] at h
        simp [hni, h]
      · simp [hni]
  rw [State.updLink, hlinks, State.updLink]

theorem State.updLink_id : s.updLink n (fun l => l) = s := by
  rw [State.updLink, show s.fab.links.modify n (fun l => l) = s.fab.links from List.modify_id ..]

/-- An update that leaves its link as it is leaves the state. -/
theorem State.updLink_fixed (h : f (s.link n) = s.link n) : s.updLink n f = s :=
  (State.updLink_congr h).trans State.updLink_id

theorem State.updLink_updLink : (s.updLink n f).updLink n g = s.updLink n fun l => g (f l) := by
  have hlinks : (s.fab.links.modify n f).modify n g = s.fab.links.modify n fun l => g (f l) := by
    refine List.ext_getElem? fun i => ?_
    rw [List.getElem?_modify, List.getElem?_modify, List.getElem?_modify]
    cases s.fab.links[i]? with
    | none => rfl
    | some l => by_cases hni : n = i <;> simp [hni]
  simp only [State.updLink, hlinks]

/-! ### A link on which nothing waits -/

/-- No frame put on a link changes nothing. -/
theorem State.linkPut_nil : s.linkPut n [] = s := by
  have hether : { s with fab := { s.fab with ether := s.fab.ether ++ [].map fun f => (s.ifpEther n f, EthBody.ifp f) } } = s := by
    simp
  have hblocks : s.blocksOut n [] = s := State.updLink_fixed (by simp)
  rw [State.linkPut, List.foldl_nil, hblocks, hether, ite_self]

/-- Nothing leaves a link on which nothing waits. -/
theorem State.linkFlush_of_empty (h : (s.link n).queued = []) : s.linkFlush n = s := by
  have hpick : s.linkPick n = ([], []) := by simp [State.linkPick, State.linkQueue, h]
  rw [State.linkFlush, hpick]
  dsimp only
  rw [State.updLink_fixed (by rw [← h]), State.linkPut_nil]

/-! ### What a good block carries (R290, R302) -/

/-- A link after the acknowledgement and the credit of a good block, in units of 512 bytes. -/
def LinkSt.told (l : LinkSt) (ack c : Nat) : LinkSt :=
  let left := l.unacked.filter fun u => ! seqBefore u.seq ack
  { l with
    unacked := left
    replayCount := if left.length = l.unacked.length then l.replayCount else 0
    credit := l.credit + 512 * c }

theorem State.blocksAcked_of_none (h : ∀ u ∈ (s.link n).unacked, seqBefore u.seq k = false) : s.blocksAcked n k = s := by
  have hleft : ((s.link n).unacked.filter fun u => ! seqBefore u.seq k) = (s.link n).unacked :=
    List.filter_eq_self.2 fun u hu => by rw [h u hu, Bool.not_false]
  simp only [State.blocksAcked, hleft, if_true]

/-- A good block on a link on which nothing waits: acknowledgement and credit, and no frame leaves. -/
theorem State.blockHeader_of_empty (hn : n < s.fab.links.length) (h : (s.link n).queued = []) (ack c : Nat) :
    s.blockHeader n ack c = s.updLink n fun l => l.told ack c := by
  have hacked : s.blocksAcked n ack = s.updLink n fun l => l.told ack 0 := by
    simp only [State.blocksAcked]
    split
    case isTrue heq =>
      have hleft := List.filter_eq_self.2 (List.length_filter_eq_length_iff.1 heq)
      refine (State.updLink_fixed ?_).symm
      simp only [LinkSt.told, hleft, if_true, Nat.mul_zero, Nat.add_zero]
    case isFalse hne =>
      rw [State.linkFlush_of_empty (by rw [State.link_updLink_same hn]; exact h)]
      refine State.updLink_congr ?_
      simp only [LinkSt.told, if_neg hne, Nat.mul_zero, Nat.add_zero]
  rw [State.blockHeader, hacked, State.linkCredit, State.updLink_updLink]
  exact State.linkFlush_of_empty (by rw [State.link_updLink_same hn]; exact h)

/-! ### Blocks sent (R290, R292) -/

/-- A block sent uses up the credit due and joins the record of what was sent; what else the link holds stays. -/
theorem State.link_blockSend (hn : n < s.fab.links.length) {seq start typ : Nat} {p : List Byte} :
    ∃ c, (s.blockSend n seq start typ p).link n = { s.link n with
      creditDue := (s.link n).creditDue - 512 * c
      sent := (s.link n).sent ++ [d128Block c start typ (s.link n).seqRx seq p] } :=
  ⟨min 7 ((s.link n).creditDue / 512), State.link_updLink_same hn⟩

theorem State.blockSend_fields {seq start typ : Nat} {p : List Byte} : (s.blockSend n seq start typ p).regs = s.regs ∧
    (s.blockSend n seq start typ p).mem = s.mem ∧
    (s.blockSend n seq start typ p).fab.links.length = s.fab.links.length :=
  ⟨rfl, rfl, State.length_links_updLink⟩

/-- Blocks sent again one after another: each joins the record of what was sent; what else the link holds stays, but the
credit due. -/
theorem State.link_foldl_blockSend (l : List LinkBlock) (hn : n < s.fab.links.length) : ∃ sent due,
    sent.length = l.length ∧ (l.foldl (fun s b => s.blockSend n b.seq b.start 0 b.payload) s).link n =
      { s.link n with creditDue := due, sent := (s.link n).sent ++ sent } := by
  induction l generalizing s with
  | nil => exact ⟨[], _, rfl, by rw [List.append_nil]; rfl⟩
  | cons b l ih =>
    obtain ⟨c, hb⟩ := State.link_blockSend (s := s) (n := n) (seq := b.seq) (start := b.start) (typ := 0) (p := b.payload) hn
    obtain ⟨sent, due, hlen, hl⟩ := ih (s := s.blockSend n b.seq b.start 0 b.payload) (by rwa [State.blockSend_fields.2.2])
    refine ⟨d128Block c b.start 0 (s.link n).seqRx b.seq b.payload :: sent, due, by simp [hlen], ?_⟩
    rw [List.foldl_cons, hl, hb]
    simp

theorem State.foldl_blockSend_fields (l : List LinkBlock) :
    (l.foldl (fun s b => s.blockSend n b.seq b.start 0 b.payload) s).regs = s.regs ∧
    (l.foldl (fun s b => s.blockSend n b.seq b.start 0 b.payload) s).mem = s.mem :=
  ⟨State.foldl_leaves State.regs (fun _ _ => State.blockSend_fields.1) l,
    State.foldl_leaves State.mem (fun _ _ => State.blockSend_fields.2.1) l⟩

/-! ### Frames that leave touch only links that are up (R300, R301) -/

theorem SameButLinks.fld_of_ne (h : SameButLinks s t) (ho : ∀ k, o ≠ Reg.linkTraffic k) : t.fld o hi lo = s.fld o hi lo :=
  State.fld_congr (h.regs o ho)

theorem SameButLinks.ethPort (h : SameButLinks s t) : t.ethPort n = s.ethPort n := by
  rw [State.ethPort, h.fld_of_ne fun _ => linkCfg_ne_linkTraffic, State.ethPort]

theorem State.link_countTraffic_other {b : Nat} {x : Bool} (h : m ≠ s.ethPort n) :
    (s.countTraffic n b x).link m = s.link m := by
  cases x <;> simp [State.countTraffic, State.link_updLink_other h]

theorem State.link_blocksOut_other {fs : List IfpFrame} (h : m ≠ n) : (s.blocksOut n fs).link m = s.link m := by
  unfold State.blocksOut
  refine (State.foldl_leaves (fun u => u.link m) (fun u b => ?_) _).trans (State.link_updLink_other h)
  exact (State.link_updLink_other h).trans (State.link_updLink_other h)

/-- Frames put on a link that serves its own port leave the layers of the other links. -/
theorem State.link_linkPut_other {fs : List IfpFrame} (h : m ≠ n) (hport : s.ethPort n = n) :
    (s.linkPut n fs).link m = s.link m := by
  have hcount (l : List IfpFrame) (u : State) (hu : SameButLinks s u) : (l.foldl (fun s f =>
      ({ s with fab := { s.fab with out := s.fab.out ++ [(n, f)] } }).countTraffic n f.payload.length true) u).link m =
        u.link m := by
    induction l generalizing u with
    | nil => rfl
    | cons f l ih =>
      have hport' : State.ethPort { u with fab := { u.fab with out := u.fab.out ++ [(n, f)] } } n = n :=
        (hu.trans (SameButLinks.fab _)).ethPort.trans hport
      rw [List.foldl_cons, ih _ ((hu.trans (SameButLinks.fab _)).trans (countTraffic_same _ _ _)),
        State.link_countTraffic_other (by rwa [hport'])]
      rfl
  unfold State.linkPut
  dsimp only
  split
  · rw [hcount _ _ (blocksOut_same _ _), State.link_blocksOut_other h]
  · rw [hcount _ _ (SameButLinks.fab _)]
    rfl

theorem State.link_linkSend_other {f : IfpFrame} (h : m ≠ n) (hport : s.ethPort n = n) : (s.linkSend n f).link m = s.link m := by
  unfold State.linkSend
  dsimp only
  split
  · exact State.link_linkPut_other h hport
  · exact State.link_updLink_other h

/-- The link that a frame takes is up and serves its own port. -/
theorem State.routeLink_spec {src dst cls : Nat} (h : s.routeLink src dst cls = some n) :
    s.fld (Reg.linkState n) 31 29 = 2 ∧ s.ethPort n = n := by
  unfold State.routeLink at h
  split at h
  · cases h
  · have hmem := List.mem_of_getElem? h
    simpa using (List.mem_filter.1 hmem).2

/-- A link that is not up is left by every frame that leaves. -/
theorem State.link_launch_of_down {f : IfpFrame} (h : s.fld (Reg.linkState m) 31 29 ≠ 2) : (s.launch f).1.link m = s.link m := by
  unfold State.launch
  split
  case h_1 n hroute =>
    obtain ⟨hup, hport⟩ := State.routeLink_spec hroute
    exact State.link_linkSend_other (by rintro rfl; exact h hup) hport
  case h_2 => rfl

theorem State.link_relaunch_of_down {f : IfpFrame} (h : s.fld (Reg.linkState m) 31 29 ≠ 2) :
    (s.relaunch f).link m = s.link m := by
  unfold State.relaunch
  dsimp only
  split
  · exact State.link_launch_of_down h
  · rfl

theorem State.link_foldl_relaunch_of_down (l : List IfpFrame) (h : s.fld (Reg.linkState m) 31 29 ≠ 2) :
    (l.foldl State.relaunch s).link m = s.link m := by
  induction l generalizing s with
  | nil => rfl
  | cons f l ih =>
    have hstate := (relaunch_same (s := s) f).fld_of_ne (hi := 31) (lo := 29) (o := Reg.linkState m) fun _ =>
      linkState_ne_linkTraffic
    rw [List.foldl_cons, ih (by rwa [hstate]), State.link_relaunch_of_down h]

/-! ### What sending leaves of the fabric: all but the layers of the links and the records of what was sent -/

/-- The fabric but for the layers of its links and the records of what left on them: connections, reads, queue pairs, EPOCHs,
paused ports and the clock. -/
def FabSt.conns (f : FabSt) : FabSt := { f with links := [], out := [], ether := [] }

theorem FabSt.tx_eq {f g : FabSt} (h : f.conns = g.conns) : f.tx = g.tx := by
  rw [show f.tx = f.conns.tx from rfl, h, FabSt.conns]

theorem FabSt.rx_eq {f g : FabSt} (h : f.conns = g.conns) : f.rx = g.rx := by
  rw [show f.rx = f.conns.rx from rfl, h, FabSt.conns]

theorem FabSt.reads_eq {f g : FabSt} (h : f.conns = g.conns) : f.reads = g.reads := by
  rw [show f.reads = f.conns.reads from rfl, h, FabSt.conns]

theorem FabSt.qps_eq {f g : FabSt} (h : f.conns = g.conns) : f.qps = g.qps := by
  rw [show f.qps = f.conns.qps from rfl, h, FabSt.conns]

theorem FabSt.epochs_eq {f g : FabSt} (h : f.conns = g.conns) : f.epochs = g.epochs := by
  rw [show f.epochs = f.conns.epochs from rfl, h, FabSt.conns]

theorem FabSt.pfcPaused_eq {f g : FabSt} (h : f.conns = g.conns) : f.pfcPaused = g.pfcPaused := by
  rw [show f.pfcPaused = f.conns.pfcPaused from rfl, h, FabSt.conns]

@[simp] theorem State.updLink_conns : (s.updLink n f).fab.conns = s.fab.conns := rfl

theorem State.countTraffic_conns {b : Nat} {x : Bool} : (s.countTraffic n b x).fab.conns = s.fab.conns := by
  cases x <;> simp [State.countTraffic]

theorem State.blocksOut_conns {fs : List IfpFrame} : (s.blocksOut n fs).fab.conns = s.fab.conns := by
  unfold State.blocksOut
  refine (State.foldl_leaves (fun u => u.fab.conns) (fun u b => ?_) _).trans State.updLink_conns
  exact State.updLink_conns.trans State.updLink_conns

theorem State.linkPut_conns {fs : List IfpFrame} : (s.linkPut n fs).fab.conns = s.fab.conns := by
  have hcount (u : State) : (fs.foldl (fun s f => ({ s with fab := { s.fab with out := s.fab.out ++ [(n, f)] } }).countTraffic n
      f.payload.length true) u).fab.conns = u.fab.conns := by
    refine State.foldl_leaves (fun u => u.fab.conns) (fun v f => ?_) _
    exact State.countTraffic_conns.trans rfl
  unfold State.linkPut
  dsimp only
  split
  · exact (hcount _).trans State.blocksOut_conns
  · exact (hcount _).trans rfl

theorem State.linkFlush_conns : (s.linkFlush n).fab.conns = s.fab.conns := State.linkPut_conns.trans rfl

theorem State.linkSend_conns {f : IfpFrame} : (s.linkSend n f).fab.conns = s.fab.conns := by
  unfold State.linkSend
  dsimp only
  split
  · exact State.linkPut_conns
  · rfl

theorem State.launch_conns {f : IfpFrame} : (s.launch f).1.fab.conns = s.fab.conns := by
  unfold State.launch
  split
  · exact State.linkSend_conns
  · rfl

theorem linkFlush_same (n : Nat) : SameButLinks s (s.linkFlush n) := (updLink_same n _).trans (linkPut_same n _)

end Sys2Proof.Machine
end

section
/-! SUPPORT and PROOF. Events of a link: the blocks of D128, its loss and its training, and what an Ethernet port does with
frames that are not IFP or RoCEv2 (11 R289 to R294, R302; 17 R413). -/

namespace Sys2Proof.Machine

variable {s t : State} {n k : Nat} {b d : List Byte} {x : LinkTraining}

theorem exec_d128IdleBlock (n ack credit : Nat) (s : State) :
    exec (.d128IdleBlock n ack credit) s = execD128IdleBlock n ack credit s := rfl

theorem exec_d128NackBlock (n seq : Nat) (s : State) : exec (.d128NackBlock n seq) s = execD128NackBlock n seq s := rfl

theorem exec_d128DataBlock (n : Nat) (b : List Byte) (s : State) : exec (.d128DataBlock n b) s = execD128DataBlock n b s := rfl

theorem exec_lossOfSignal (n : Nat) (s : State) : exec (.lossOfSignal n) s = execLossOfSignal n s := rfl

theorem exec_linkRetrainTimer (n : Nat) (s : State) : exec (.linkRetrainTimer n) s = execLinkRetrainTimer n s := rfl

theorem exec_linkTrained (n : Nat) (x : Option LinkTraining) (s : State) :
    exec (.linkTrained n x) s = execLinkTrained n x s := rfl

theorem exec_pauseFrame (n : Nat) (s : State) : exec (.pauseFrame n) s = execPauseFrame n s := rfl

theorem exec_frameDrops (n : Nat) (h : RxHeader) (s : State) : exec (.frameDrops n h) s = execFrameDrops n h s := rfl

theorem exec_priorityFlowControl (n : Nat) (p : Bool) (s : State) :
    exec (.priorityFlowControl n p) s = execPriorityFlowControl n p s := rfl

/-! ### Links that are up -/

theorem State.Up.onLink (hu : s.Up) (hn : n < 64) (hup : s.fld (Reg.linkState n) 31 29 = 2) {f : State → State} :
    s.onLink n f = f s := by rw [State.onLink, hu.when, if_pos ⟨hn, hup⟩]

/-- A D128 link that is up. -/
structure State.D128Up (s : State) (n : Nat) : Prop where
  up : s.Up
  link : n < 64
  state : s.fld (Reg.linkState n) 31 29 = 2
  mode : s.fld (Reg.linkCfg n) 31 30 = 1

theorem State.D128Up.on (h : s.D128Up n) {f : State → State} : s.onD128 n f = f s := by
  rw [State.onD128, h.up.onLink h.link h.state, if_pos h.mode]

/-- Errors counted, and links changed, leave a D128 link up. -/
theorem State.D128Up.of_fields (h : s.D128Up n) (hpwr : t.pwr = s.pwr)
    (hregs : ∀ o, (∀ m, o ≠ Reg.linkErr m) → t.reg o = s.reg o) : t.D128Up n :=
  ⟨⟨by rw [hpwr, h.up.1], by rw [hpwr, h.up.2]⟩, h.link,
    (State.fld_congr (hregs _ fun _ => linkState_ne_linkErr)).trans h.state,
    (State.fld_congr (hregs _ fun _ => linkCfg_ne_linkErr)).trans h.mode⟩

theorem State.Up.onE100 (hu : s.Up) (hn : n < 64) (hup : s.fld (Reg.linkState n) 31 29 = 2)
    (hmode : 2 ≤ s.fld (Reg.linkCfg n) 31 30) {f : State → State} : s.onE100 n f = f s := by
  rw [State.onE100, hu.onLink hn hup, if_pos hmode]

/-! ### D128 blocks (R290 to R292, R302) -/

theorem exec_d128IdleBlock_of_empty (h : s.D128Up n) (hlen : n < s.fab.links.length) (hq : (s.link n).queued = [])
    (hwait : (s.link n).awaiting = false) (ack c : Nat) : exec (.d128IdleBlock n ack c) s =
      .next (s.updLink n fun l => l.told (ack % 1024) (c % 8)) := by
  rw [exec_d128IdleBlock, execD128IdleBlock, h.on, if_neg (by simp [hwait]), State.blockHeader_of_empty hlen hq]

/-- The state once the unacknowledged blocks of a link are sent again. -/
def State.blocksResent (s : State) (n : Nat) : State :=
  (s.link n).unacked.foldl (fun s b => s.blockSend n b.seq b.start 0 b.payload)
    ((s.addSat (Reg.linkErr n) 31 16 1).updLink n fun l =>
      { l with resent := l.resent ++ l.unacked.map (·.seq), replayCount := l.replayCount + 1 })

/-- A NACK that names the first block not acknowledged, below the 16th replay of it. -/
theorem State.blockReplay_of_first (hnone : ∀ u ∈ (s.link n).unacked, seqBefore u.seq k = false)
    (hun : (s.link n).unacked ≠ []) (hcount : (s.link n).replayCount ≠ 15) : s.blockReplay n k = s.blocksResent n := by
  have hempty : ¬ (s.link n).unacked.isEmpty = true := by simpa using hun
  have h16 : ¬ (s.link n).replayCount + 1 = 16 := by omega
  simp only [State.blockReplay, State.blocksAcked_of_none hnone, if_neg hempty, if_neg h16]
  rfl

theorem State.blocksResent_spec (hs : s.Sound) (hlen : n < s.fab.links.length) :
    (∃ sent due, sent.length = (s.link n).unacked.length ∧ (s.blocksResent n).link n = { s.link n with
      resent := (s.link n).resent ++ (s.link n).unacked.map (·.seq), replayCount := (s.link n).replayCount + 1
      creditDue := due, sent := (s.link n).sent ++ sent }) ∧
    (s.blocksResent n).fld (Reg.linkErr n) 31 16 = min (s.fld (Reg.linkErr n) 31 16 + 1) (2 ^ 16 - 1) ∧
    (∀ o, o ≠ Reg.linkErr n → (s.blocksResent n).reg o = s.reg o) ∧ (s.blocksResent n).mem = s.mem := by
  let u := s.addSat (Reg.linkErr n) 31 16 1
  let v := u.updLink n fun l =>
    { l with resent := l.resent ++ l.unacked.map (·.seq), replayCount := l.replayCount + 1 }
  obtain ⟨hregs, hmem⟩ := State.foldl_blockSend_fields (s := v) (n := n) (s.link n).unacked
  obtain ⟨sent, due, hsent, hlink⟩ := State.link_foldl_blockSend (s := v) (n := n) (s.link n).unacked
    (by simpa [u, v] using hlen)
  have hv : v.link n = { s.link n with
      resent := (s.link n).resent ++ (s.link n).unacked.map (·.seq), replayCount := (s.link n).replayCount + 1 } := by
    rw [State.link_updLink_same (by simpa [u] using hlen), State.link_addSat]
  have hreg (o : Nat) : (s.blocksResent n).reg o = u.reg o := (State.reg_congr hregs).trans State.reg_updLink
  refine ⟨⟨sent, due, hsent, hlink.trans (by rw [hv])⟩, ?_, fun o ho => (hreg o).trans (State.reg_setFld_other ho),
    hmem.trans (by simp [u, v])⟩
  exact (State.fld_congr (hreg _)).trans (State.fld_addSat_same hs (by decide) (by decide))

/-- The layer of a link once a block is discarded and the awaited one named in a NACK. -/
theorem State.link_blockNack (hlen : n < s.fab.links.length) : ∃ due sent, (s.blockNack n).link n = { s.link n with
    nacks := (s.link n).nacks ++ [(s.link n).seqRx], awaiting := true, creditDue := due, sent := sent } := by
  obtain ⟨c, hsend⟩ := State.link_blockSend (n := n)
    (s := s.updLink n fun l => { l with nacks := l.nacks ++ [l.seqRx], awaiting := true })
    (by simpa using hlen) (seq := (s.link n).seqTx) (start := 127) (typ := 2) (p := List.replicate 256 0)
  rw [State.link_updLink_same hlen] at hsend
  exact ⟨_, _, hsend⟩

/-- An uncorrectable block, while fewer than 65,536 came within a second, is discarded and named in a NACK. -/
theorem State.blockBad_of_few (hlen : n < s.fab.links.length) (hfew : (s.link n).badBlocks.length < 65535) :
    ((s.blockBad n).link n).nacks = (s.link n).nacks ++ [(s.link n).seqRx] ∧ ((s.blockBad n).link n).awaiting = true ∧
      (s.blockBad n).mem = s.mem := by
  let bad := (s.link n).badBlocks.filter (fun t => s.time < t + 100000000) ++ [s.time]
  have hshort : ¬ 65536 ≤ bad.length := by
    have := List.length_filter_le (fun t => decide (s.time < t + 100000000)) (s.link n).badBlocks
    simp only [bad, List.length_append, List.length_singleton]
    omega
  have heq : s.blockBad n = (s.updLink n fun x => { x with badBlocks := bad }).blockNack n := if_neg hshort
  obtain ⟨due, sent, hlink⟩ := State.link_blockNack (n := n) (s := s.updLink n fun x => { x with badBlocks := bad })
    (by simpa using hlen)
  rw [State.link_updLink_same hlen] at hlink
  rw [heq, hlink]
  exact ⟨rfl, rfl, rfl⟩

/-- A block in its turn taken, before its answer: the next one is awaited, and it brought acknowledgement and credit. -/
def State.dataTaken (s : State) (n ack c : Nat) : State :=
  s.updLink n fun l => { l with seqRx := (l.seqRx + 1) % 1024, awaiting := false }.told ack c

/-- The payload of a block in which no frame begins, on a link on which none goes on, brings none. -/
theorem State.blockPayload_of_none (h : (s.link n).partials = []) {p : List Byte} : s.blockPayload n 127 p = s := by
  have hframes : framesOf 65 [] = ([], []) := rfl
  simp only [State.blockPayload, h, List.isEmpty_nil, if_true, hframes, List.foldl_nil, List.filter_nil, List.map_nil,
    List.sum_nil, Nat.add_zero]
  exact State.updLink_fixed (by rw [← h])

/-- The codewords of a block that were corrected are counted. -/
def State.blockCounted (s : State) (n : Nat) (b : List Byte) : State := s.addSat (Reg.linkErr n) 63 32 (blockDecode b).2

theorem State.blockCounted_fields : (s.blockCounted n b).link n = s.link n ∧ (s.blockCounted n b).mem = s.mem ∧
    (s.blockCounted n b).fab.links.length = s.fab.links.length ∧ (s.blockCounted n b).pwr = s.pwr :=
  ⟨State.link_addSat, by simp [State.blockCounted], by simp [State.blockCounted], by simp [State.blockCounted]⟩

theorem State.D128Up.blockCounted (h : s.D128Up n) : (s.blockCounted n b).D128Up n :=
  h.of_fields State.blockCounted_fields.2.2.2 fun _ ho => State.reg_setFld_other (ho n)

theorem exec_d128DataBlock_of_bad (h : s.D128Up n) (hb : b.length = 272) (hd : (blockDecode b).1 = none) :
    exec (.d128DataBlock n b) s = .next ((s.blockCounted n b).blockBad n) := by
  rw [exec_d128DataBlock, execD128DataBlock, h.on, if_neg (by simp [hb])]
  simp only [hd, State.blockCounted]

theorem exec_d128DataBlock_of_good (h : s.D128Up n) (hb : b.length = 272) (hd : (blockDecode b).1 = some d) :
    exec (.d128DataBlock n b) s = .next ((s.blockCounted n b).blockTake n d) := by
  rw [exec_d128DataBlock, execD128DataBlock, h.on, if_neg (by simp [hb])]
  simp only [hd, State.blockCounted]

theorem State.Sound.blockCounted (hs : s.Sound) : (s.blockCounted n b).Sound := by
  rw [State.blockCounted]
  exact hs.addSat

theorem State.fld_blockCounted (hs : s.Sound) : (s.blockCounted n b).fld (Reg.linkErr n) 63 32 =
    min (s.fld (Reg.linkErr n) 63 32 + (blockDecode b).2) (2 ^ 32 - 1) := by
  rw [State.blockCounted, State.fld_addSat_same hs (by decide) (by decide)]

/-- A block replayed at the receiver is counted when the awaited one comes (log 102). -/
def State.replayNoted (s : State) (n : Nat) : State := if (s.link n).awaiting then s.addSat (Reg.linkErr n) 31 16 1 else s

theorem State.replayNoted_fields : (s.replayNoted n).link n = s.link n ∧ (s.replayNoted n).mem = s.mem ∧
    (s.replayNoted n).fab.links.length = s.fab.links.length ∧ (s.replayNoted n).pwr = s.pwr := by
  unfold State.replayNoted
  split
  · exact ⟨State.link_addSat, by simp, by simp, by simp⟩
  · exact ⟨rfl, rfl, rfl, rfl⟩

theorem State.reg_replayNoted_other {o : Nat} (ho : o ≠ Reg.linkErr n) : (s.replayNoted n).reg o = s.reg o := by
  unfold State.replayNoted
  split
  · exact State.reg_setFld_other ho
  · rfl

/-- The count of corrected codewords lies above that of replays. -/
theorem State.fld_replayNoted (hs : s.Sound) :
    (s.replayNoted n).fld (Reg.linkErr n) 63 32 = s.fld (Reg.linkErr n) 63 32 := by
  unfold State.replayNoted
  split
  · exact State.fld_setFld_above hs (by decide) (by decide) (by decide)
  · rfl

/-- A data block in its turn, without frames, on a link on which nothing waits: it is taken and answered by an IDLE block. -/
theorem State.blockTake_of_turn (h : s.D128Up n) (hlen : n < s.fab.links.length) (hq : (s.link n).queued = [])
    (hpart : (s.link n).partials = []) (htyp : bits (fieldAt d 0 4) 21 20 = 0)
    (hseq : bits (fieldAt d 0 4) 9 0 = (s.link n).seqRx) (hstart : bits (fieldAt d 0 4) 28 22 = 127) : s.blockTake n d =
      ((s.replayNoted n).dataTaken n (bits (fieldAt d 0 4) 19 10) (bits (fieldAt d 0 4) 31 29)).blockIdle n := by
  let u := s.replayNoted n
  obtain ⟨hlink, -, hlinks, hpwr⟩ := State.replayNoted_fields (s := s) (n := n)
  have hup : u.D128Up n := h.of_fields hpwr fun o ho => State.reg_replayNoted_other (ho n)
  let v := u.updLink n fun l => { l with seqRx := (l.seqRx + 1) % 1024, awaiting := false }
  have hv : v.link n = { s.link n with seqRx := ((s.link n).seqRx + 1) % 1024, awaiting := false } := by
    rw [State.link_updLink_same (by rwa [hlinks]), hlink]
  have hvlen : n < v.fab.links.length := by rwa [State.length_links_updLink, hlinks]
  have hheader : v.blockHeader n (bits (fieldAt d 0 4) 19 10) (bits (fieldAt d 0 4) 31 29) =
      u.dataTaken n (bits (fieldAt d 0 4) 19 10) (bits (fieldAt d 0 4) 31 29) := by
    rw [State.blockHeader_of_empty hvlen (by rw [hv]; exact hq), State.updLink_updLink]
    rfl
  have htaken : (u.dataTaken n (bits (fieldAt d 0 4) 19 10) (bits (fieldAt d 0 4) 31 29)).D128Up n :=
    hup.of_fields (by simp [State.dataTaken]) fun _ _ => State.reg_updLink
  have hparts : ((u.dataTaken n (bits (fieldAt d 0 4) 19 10) (bits (fieldAt d 0 4) 31 29)).link n).partials = [] := by
    rw [State.dataTaken, State.link_updLink_same (by rwa [hlinks]), hlink]
    exact hpart
  simp only [State.blockTake, htyp, hseq, ne_eq, not_true_eq_false, if_false, hstart]
  rw [← State.replayNoted, show ((s.replayNoted n).updLink n fun l =>
      { l with seqRx := ((s.link n).seqRx + 1) % 1024, awaiting := false }) = v from
    State.updLink_congr (by rw [hlink]), hheader, htaken.on, State.blockPayload_of_none hparts, htaken.on]

/-- A link and the state once a block is taken and answered. -/
theorem State.dataTaken_blockIdle_spec (hlen : n < s.fab.links.length) (ack c : Nat) : ∃ due x,
    ((s.dataTaken n ack c).blockIdle n).link n =
      { { s.link n with seqRx := ((s.link n).seqRx + 1) % 1024, awaiting := false }.told ack c with
        creditDue := due
        sent := (s.link n).sent ++ [d128Block x 127 1 (((s.link n).seqRx + 1) % 1024) (s.link n).seqTx
          (List.replicate 256 0)] } ∧
    ((s.dataTaken n ack c).blockIdle n).regs = s.regs ∧ ((s.dataTaken n ack c).blockIdle n).mem = s.mem := by
  let w := s.dataTaken n ack c
  have hw : w.link n = { s.link n with seqRx := ((s.link n).seqRx + 1) % 1024, awaiting := false }.told ack c :=
    State.link_updLink_same hlen
  obtain ⟨x, hsend⟩ := State.link_blockSend (s := w) (n := n) (seq := (w.link n).seqTx) (start := 127) (typ := 1)
    (p := List.replicate 256 0) (by simpa [w, State.dataTaken] using hlen)
  refine ⟨(w.link n).creditDue - 512 * x, x, hsend.trans ?_, ?_, ?_⟩
  · rw [hw]
    rfl
  · exact State.blockSend_fields.1.trans (by simp [State.dataTaken])
  · exact State.blockSend_fields.2.1.trans (by simp [State.dataTaken])

/-! ### Loss, retraining and training (R291, R293; 17 R413) -/

/-- A full reset that begins with the cause ESCALATION is held and records it (17 R415). -/
theorem State.beginReset_escalation (hu : s.Up) :
    (s.beginReset 7).pwr.held = true ∧ (s.beginReset 7).fld Reg.resetCause 31 28 = 7 := by
  obtain ⟨u, hu, hregs, hheld⟩ : ∃ u : State, s.beginReset 7 = u.setReg Reg.resetCause (s.resetCauseAfter 7) ∧ u.regs = [] ∧
      u.pwr.held = true := by
    refine ⟨_, by rw [State.beginReset, if_neg (by simp [hu.1]), if_neg (by simp [hu.2])], rfl, rfl⟩
  have hword : (s.beginReset 7).reg Reg.resetCause = s.resetCauseAfter 7 % 2 ^ 64 := by
    rw [hu, State.reg, State.setReg]
    dsimp only
    rw [hregs, Sparse.get_set_same rfl]
    simp
  refine ⟨by rw [hu]; simpa using hheld, ?_⟩
  have hcount : saturate (2 ^ 32 - 1) (s.fld Reg.resetCause 63 32 + 1) < 2 ^ 32 := by
    simp only [saturate]
    omega
  rw [State.fld, hword, State.resetCauseAfter]
  generalize saturate (2 ^ 32 - 1) (s.fld Reg.resetCause 63 32 + 1) = count at hcount
  have hfield : bits (count * 2 ^ 32 + 7 % 16 * 2 ^ 28 + 2 ^ 7) 31 28 = 7 := by
    simp only [bits_eq]
    omega
  have hmod (v : Nat) : bits (v % 2 ^ 64) 31 28 = bits v 31 28 := by
    simp only [bits_eq]
    omega
  rw [hmod]
  split
  · rw [bits_putBits_above (by decide) (by decide), hfield]
  · exact hfield

/-- A link that goes DOWN where that neither resets the device nor raises a tally. -/
theorem State.linkDown_spec (hs : s.Sound) (hn : n < 64) (hmode : s.fld Reg.cdcRstmode 2 2 = 1)
    (hevents : s.fld Reg.linkEventCfg 31 31 = 0) (hk : k < 32) :
    (s.linkDown n k).fld (Reg.linkState n) 31 24 = k ∧ ((s.linkDown n k).link n).unacked = [] ∧
      (s.linkDown n k).fld (Reg.linkErr n) 15 0 = min (s.fld (Reg.linkErr n) 15 0 + 1) (2 ^ 16 - 1) ∧
      (s.linkDown n k).mem = s.mem ∧ (s.linkDown n k).tens = s.tens ∧ (s.linkDown n k).tally = s.tally := by
  have hsame := SameButLinks.foldl (fun _ f => relaunch_same f) (s.linkFallen n k)
    (l := ((s.link n).unacked.map (·.ends)).flatten ++ (s.link n).queued)
  have hstate := hsame.regs (Reg.linkState n) fun _ => linkState_ne_linkTraffic
  have herr := hsame.regs (Reg.linkErr n) fun _ => linkErr_ne_linkTraffic
  let u := (s.setFld (Reg.linkState n) 31 29 0).setFld (Reg.linkState n) 28 24 k
  have hregs (o : Nat) : (s.linkFallen n k).reg o = (u.addSat (Reg.linkErr n) 15 0 1).reg o := State.reg_congr rfl
  have hdown : (s.linkFallen n k).fld (Reg.linkState n) 31 29 = 0 := by
    rw [State.fld_congr (hregs _), State.fld_addSat_other linkState_ne_linkErr,
      State.fld_setFld_above hs.setFld (by decide) (by decide) (by decide)]
    exact State.fld_setFld_of_fits hs (by decide) (by decide) (by decide)
  have hcause : (s.linkFallen n k).fld (Reg.linkState n) 28 24 = k := by
    rw [State.fld_congr (hregs _), State.fld_addSat_other linkState_ne_linkErr]
    exact State.fld_setFld_of_fits hs.setFld (by decide) (by decide) hk
  have hlink : ((s.linkFallen n k).link n).unacked = [] := by
    have hlen : n < (u.addSat (Reg.linkErr n) 15 0 1).fab.links.length := by simpa [u, hs.links] using hn
    have hlinks : (s.linkFallen n k).fab.links = ((u.addSat (Reg.linkErr n) 15 0 1).updLink n fun l => { LinkSt.reset with
      sent := l.sent, retraining := l.retraining, txRest := l.txRest, rxRest := l.rxRest }).fab.links := rfl
    rw [State.link, hlinks, ← State.link, State.link_updLink_same hlen]
    rfl
  rw [State.linkDown_eq_relaunch hmode hevents]
  refine ⟨?_, ?_, ?_, hsame.mem.trans ?_, hsame.tens.trans ?_, hsame.tally.trans ?_⟩
  · rw [State.fld_congr hstate, State.fld, bits_state_cause, ← State.fld, ← State.fld, hdown, hcause, Nat.zero_mul,
      Nat.zero_add]
  · rw [State.link_foldl_relaunch_of_down _ (by rw [hdown]; decide), hlink]
  · rw [State.fld_congr herr, State.fld_congr (hregs _)]
    refine (State.fld_addSat_same hs.setFld.setFld (by decide) (by decide)).trans ?_
    rw [State.fld_setFld_other linkErr_ne_linkState, State.fld_setFld_other linkErr_ne_linkState]
  · simp [State.linkFallen]
  · simp [State.linkFallen]
  · simp [State.linkFallen]

theorem exec_linkTrained_of_training (hu : s.Up) (hn : n < 64) (h : s.fld (Reg.linkState n) 31 29 = 1)
    (x : Option LinkTraining) : exec (.linkTrained n x) s = .next (s.linkTrained n x) := by
  rw [exec_linkTrained, execLinkTrained, hu.when, if_pos ⟨hn, h⟩]

/-- With every frame on its way none is launched when a link comes up. -/
theorem State.launchWaiting_of_sent (h : ∀ c ∈ s.fab.tx, ∀ u ∈ c.unacked, u.sent = true) : s.launchWaiting = s := by
  have hfold (l : List ConnTx) (hl : ∀ c ∈ l, ∀ u ∈ c.unacked, u.sent = true) :
      l.foldl (fun s c => if c.unacked.all fun u => u.sent then s else
        (c.unacked.foldl (fun (p : State × List Unacked) u => if u.sent then (p.1, p.2 ++ [u])
          else let l := p.1.launch u.frame; (l.1, p.2 ++ [{ u with sent := l.2 }])) (s, [])).1.setConnTx
            { c with unacked := (c.unacked.foldl (fun (p : State × List Unacked) u => if u.sent then (p.1, p.2 ++ [u])
              else let l := p.1.launch u.frame; (l.1, p.2 ++ [{ u with sent := l.2 }])) (s, [])).2 }) s = s := by
    induction l with
    | nil => rfl
    | cons c l ih =>
      obtain ⟨hc, hrest⟩ := List.forall_mem_cons.1 hl
      rw [List.foldl_cons, if_pos (List.all_eq_true.2 hc), ih hrest]
  exact hfold s.fab.tx h

/-- The registers and the layer of a link that has been trained (Table 11.22). -/
theorem State.trainLink_spec (hs : s.Sound) (hn : n < 64) : (s.trainLink n x).fld (Reg.linkState n) 31 29 = 2 ∧
    (s.trainLink n x).fld (Reg.linkState n) 23 20 = x.polarity % 16 ∧ ((s.trainLink n x).link n).credit = 65536 ∧
    (s.fld (Reg.linkCfg n) 31 30 = 1 → (s.trainLink n x).fld (Reg.linkLat n) 31 16 = x.flight % 2 ^ 16) ∧
    (s.trainLink n x).mem = s.mem ∧ (s.trainLink n x).fab.tx = s.fab.tx ∧
    (s.trainLink n x).fld Reg.linkEventCfg 31 31 = s.fld Reg.linkEventCfg 31 31 := by
  let word := 2 * 2 ^ 29 + s.fld (Reg.linkState n) 28 24 * 2 ^ 24 + x.polarity % 16 * 2 ^ 20 + ofBool x.reversed * 2 ^ 19
  let u := s.setReg (Reg.linkState n) word
  have hcause : s.fld (Reg.linkState n) 28 24 < 32 := bits_lt
  have hrev : ofBool x.reversed < 2 := by cases x.reversed <;> decide
  have hreg (o : Nat) : (s.trainLink n x).reg o = (u.setReg (Reg.linkLat n) (if u.fld (Reg.linkCfg n) 31 30 = 1 then
      x.flight % 2 ^ 16 * 2 ^ 16 + (56 + 4 * ceilDiv x.flight 4) % 2 ^ 16 else 0)).reg o := State.reg_updLink
  have hstate : (s.trainLink n x).reg (Reg.linkState n) = word := by
    rw [hreg, State.reg_setReg_other linkState_ne_linkLat, State.reg_setReg_same hs]
    exact Nat.mod_eq_of_lt (by simp only [word]; omega)
  refine ⟨?_, ?_, ?_, fun hmode => ?_, by simp [State.trainLink], by simp [State.trainLink, State.updLink], ?_⟩
  · rw [State.fld, hstate, bits_eq]
    simp only [word]
    omega
  · rw [State.fld, hstate, bits_eq]
    simp only [word]
    omega
  · exact congrArg LinkSt.credit (State.link_updLink_same (by simpa [hs.links] using hn))
  · have hmode' : u.fld (Reg.linkCfg n) 31 30 = 1 := by
      rw [State.fld_congr (State.reg_setReg_other linkCfg_ne_linkState), hmode]
    rw [State.fld, hreg, if_pos hmode', State.reg_setReg_same hs.setReg, bits_eq]
    omega
  · rw [State.fld_congr (hreg _), State.fld_congr (State.reg_setReg_other linkEventCfg_ne_linkLat),
      State.fld_congr (State.reg_setReg_other linkEventCfg_ne_linkState)]

/-- A link that no command removed comes up, with no frame waiting for it and no tally to raise. -/
theorem State.linkTrained_of_found (hs : s.Sound) (hn : n < 64) (hevents : s.fld Reg.linkEventCfg 31 31 = 0)
    (howner : (s.link n).retraining = none) (hsent : ∀ c ∈ s.fab.tx, ∀ u ∈ c.unacked, u.sent = true) :
    s.linkTrained n (some x) = s.trainLink n x := by
  obtain ⟨-, -, -, -, -, htx, hcfg⟩ := State.trainLink_spec (x := x) hs hn
  have hevent : (s.trainLink n x).linkEvent n = s.trainLink n x :=
    if_neg fun h => absurd h.2 (by rw [hcfg, hevents]; decide)
  simp only [State.linkTrained, howner, hevent, State.launchWaiting_of_sent (htx.symm ▸ hsent), State.retrainEnds]

/-- A link that no command removed and that does not train is DOWN with cause 4. -/
theorem State.linkTrained_of_none (howner : (s.link n).retraining = none) : s.linkTrained n none = s.linkDown n 4 := by
  simp only [State.linkTrained, howner, State.unlessHeld, State.retrainEnds, ite_self]

/-! ### Ethernet ports (R294) -/

/-- The state once the priority of a port is paused or resumed. -/
def State.pausedSet (s : State) (n : Nat) (p : Bool) : State :=
  { s with fab := { s.fab with pfcPaused := (s.fab.pfcPaused.filter (· ≠ n)) ++ (if p then [n] else []) } }

/-- Priority flow control pauses a port, or resumes it, and leaves the others. -/
theorem exec_priorityFlowControl_of_class (hu : s.Up) (hn : n < 64) (hup : s.fld (Reg.linkState n) 31 29 = 2)
    (hmode : 2 ≤ s.fld (Reg.linkCfg n) 31 30) (hclass : Config.pfcClass n = some k) (p : Bool) : ∃ t,
      exec (.priorityFlowControl n p) s = .next t ∧
      t.fab.pfcPaused = s.fab.pfcPaused.filter (· ≠ n) ++ (if p then [n] else []) ∧ t.mem = s.mem := by
  refine ⟨(s.pausedSet n p).linkFlush n, ?_, (FabSt.pfcPaused_eq State.linkFlush_conns).trans rfl,
    (linkFlush_same n).mem.trans rfl⟩
  rw [exec_priorityFlowControl, execPriorityFlowControl, hu.onE100 hn hup hmode, if_neg (by simp [hclass])]
  rfl

/-! ### Links -/

/-- Settles O56: blocks, loss and training of a link, and what an Ethernet port discards. -/
theorem linkEventsTakePlace : Obligations.LinkEventsTakePlace := by
  unfold Obligations.LinkEventsTakePlace
  refine fun s n hu hs hn => ⟨fun hup hmode hq => ?d128, fun hup => ⟨fun hjoint => ?reset, fun hjoint hev => ?loss⟩,
    fun hdown hcfg hhold => ?timer, fun htrain hev howner hsent => ⟨fun x => ?trained, fun hjoint => ?failed⟩,
    fun hup hmode => ⟨?pause, fun h => ?drops, fun p hclass => ?unclassed, fun p k hclass => ?flow⟩⟩
  case d128 =>
    have hd : s.D128Up n := ⟨hu, hn, hup, hmode⟩
    have hlen : n < s.fab.links.length := by rwa [hs.links]
    refine ⟨fun ack c => ⟨fun hwait => ?ignored, fun hwait => ?idle⟩, fun seq hnone hun hcount => ?nack,
      fun b hb hdec hfew => ?bad, fun b d hb hdec htyp hseq hstart hpart => ?data⟩
    case ignored => rw [exec_d128IdleBlock, execD128IdleBlock, hd.on, if_pos hwait]
    case idle =>
      refine ⟨_, exec_d128IdleBlock_of_empty hd hlen hq hwait ack c, ?_, ?_, by simp, by simp⟩
      · rw [State.link_updLink_same hlen, LinkSt.told]
      · rw [State.link_updLink_same hlen, LinkSt.told]
    case nack =>
      obtain ⟨⟨sent, due, hsent, hlink⟩, herr, hother, hmem⟩ := State.blocksResent_spec hs hlen
      refine ⟨s.blocksResent n, ?_, by rw [hlink], ⟨sent, by rw [hlink], hsent⟩, by rw [hlink], herr, hother, hmem⟩
      rw [exec_d128NackBlock, execD128NackBlock, hd.on, State.blockReplay_of_first hnone hun hcount]
    case bad =>
      obtain ⟨hlink, hmem, hlinks, -⟩ := State.blockCounted_fields (s := s) (n := n) (b := b)
      obtain ⟨hnacks, hwait, hmem'⟩ := State.blockBad_of_few (s := s.blockCounted n b) (n := n) (by rwa [hlinks])
        (by rwa [hlink])
      exact ⟨_, exec_d128DataBlock_of_bad hd hb hdec, by rw [hnacks, hlink], hwait, hmem'.trans hmem⟩
    case data =>
      obtain ⟨hlink, hmem, hlinks, -⟩ := State.blockCounted_fields (s := s) (n := n) (b := b)
      obtain ⟨hlink', hmem', hlinks', -⟩ := State.replayNoted_fields (s := s.blockCounted n b) (n := n)
      obtain ⟨due, c, hl, hregs, hm⟩ := State.dataTaken_blockIdle_spec (s := (s.blockCounted n b).replayNoted n) (n := n)
        (by rwa [hlinks', hlinks]) (bits (fieldAt d 0 4) 19 10) (bits (fieldAt d 0 4) 31 29)
      rw [hlink', hlink] at hl
      refine ⟨_, (exec_d128DataBlock_of_good hd hb hdec).trans (congrArg _ (State.blockTake_of_turn hd.blockCounted
        (by rwa [hlinks]) (by rwa [hlink]) (by rwa [hlink]) htyp (by rwa [hlink]) hstart)), by rw [hl, LinkSt.told],
        by rw [hl, LinkSt.told], by rw [hl, LinkSt.told], by rw [hl, LinkSt.told], ⟨c, by rw [hl]⟩, ?_,
        hm.trans (hmem'.trans hmem)⟩
      refine (State.fld_congr (State.reg_congr hregs)).trans ((State.fld_replayNoted hs.blockCounted).trans ?_)
      exact State.fld_blockCounted hs
  case reset =>
    obtain ⟨hheld, hcause⟩ := State.beginReset_escalation hu
    refine ⟨_, ?_, hheld, hcause⟩
    rw [exec_lossOfSignal, execLossOfSignal, hu.onLink hn hup, State.linkDown, if_pos hjoint]
  case loss =>
    exact ⟨_, by rw [exec_lossOfSignal, execLossOfSignal, hu.onLink hn hup],
      State.linkDown_spec hs hn hjoint hev (by decide)⟩
  case timer => rw [exec_linkRetrainTimer, execLinkRetrainTimer, hu.when, if_pos ⟨hn, hcfg, hdown, hhold⟩]
  case trained =>
    obtain ⟨hstate, hpol, hcredit, hlat, hmem, -, -⟩ := State.trainLink_spec (x := x) hs hn
    exact ⟨_, (exec_linkTrained_of_training hu hn htrain _).trans (congrArg _
      (State.linkTrained_of_found hs hn hev howner hsent)), hstate, hpol, hcredit, hlat, hmem⟩
  case failed =>
    obtain ⟨hcause, -, -, hmem, -, -⟩ := State.linkDown_spec (k := 4) hs hn hjoint hev (by decide)
    exact ⟨_, (exec_linkTrained_of_training hu hn htrain _).trans (congrArg _ (State.linkTrained_of_none howner)), hcause, hmem⟩
  case pause => rw [exec_pauseFrame, execPauseFrame, hu.onE100 hn hup hmode]
  case drops => rw [exec_frameDrops, execFrameDrops, hu.onE100 hn hup hmode, State.ethDrop]
  case unclassed =>
    rw [exec_priorityFlowControl, execPriorityFlowControl, hu.onE100 hn hup hmode, if_pos (by simp [hclass])]
  case flow =>
    obtain ⟨t, hrun, hpaused, hmem⟩ := exec_priorityFlowControl_of_class hu hn hup hmode hclass p
    refine ⟨t, hrun, ?_, fun m hm => ?_, hmem⟩
    · cases p <;> simp [hpaused]
    · cases p <;> simp [hpaused, hm]

end Sys2Proof.Machine
end

section
/-! SUPPORT. The layer of a connection: its two sides as they are put back, what sending does to them, and a frame that comes
in its turn (11 R295 to R298, R303). -/

namespace Sys2Proof.Machine

variable {s t v : State} {n k node cls : Nat} {f : IfpFrame} {r q : ConnRx} {c : ConnTx}

/-! ### The sides of a connection -/

/-- A receiving side that awaits the next SEQ. -/
def ConnRx.next (r : ConnRx) : ConnRx := { r with expected := (r.expected + 1) % 2 ^ 32 }

/-- A receiving side that owes one acknowledgement more. -/
def ConnRx.owed (r : ConnRx) : ConnRx := { r with sinceAck := r.sinceAck + 1 }

/-- A receiving side whose acknowledgement and ECE have been carried. -/
def ConnRx.carried (r : ConnRx) : ConnRx := { r with sinceAck := 0, eceDue := false }

theorem State.connRx_spec (h : s.connRx node cls = some r) : r.node = node ∧ r.cls = cls := by
  simpa using List.find?_some h

theorem State.connTx_spec : (s.connTx node cls).node = node ∧ (s.connTx node cls).cls = cls := by
  unfold State.connTx
  cases h : s.fab.tx.find? fun c => c.node = node ∧ c.cls = cls with
  | none => exact ⟨rfl, rfl⟩
  | some c => simpa using List.find?_some h

theorem State.connRx_congr (h : t.fab.rx = s.fab.rx) : t.connRx node cls = s.connRx node cls := by
  rw [State.connRx, h, State.connRx]

/-- What is put in the place of every element that passes a test, and passes it, is the first that does. -/
theorem find?_replaced {α : Type} {p : α → Bool} {l : List α} {x : α} (hx : p x = true) :
    ((l.filter fun y => ! p y) ++ [x]).find? p = some x := by
  have hrest : (l.filter fun y => ! p y).find? p = none :=
    List.find?_eq_none.2 fun y hy => by simpa using (List.mem_filter.1 hy).2
  rw [List.find?_append, hrest, Option.none_or, List.find?_singleton, if_pos hx]

theorem State.connRx_setConnRx (h : r.node = node ∧ r.cls = cls) : (s.setConnRx r).connRx node cls = some r := by
  obtain ⟨rfl, rfl⟩ := h
  simp only [State.connRx, State.setConnRx, Bool.decide_and]
  exact find?_replaced (by simp)

theorem State.connTx_of_tx (htx : t.fab.tx = (s.setConnTx c).fab.tx) (h : c.node = node ∧ c.cls = cls) :
    t.connTx node cls = c := by
  obtain ⟨rfl, rfl⟩ := h
  have hfound : (s.setConnTx c).fab.tx.find? (fun d => d.node = c.node ∧ d.cls = c.cls) = some c := by
    simp only [State.setConnTx, Bool.decide_and]
    exact find?_replaced (by simp)
  rw [State.connTx, htx, hfound, Option.getD_some]

theorem State.connTx_setConnTx (h : c.node = node ∧ c.cls = cls) : (s.setConnTx c).connTx node cls = c :=
  State.connTx_of_tx rfl h

/-- A receiving side put back twice is the one put back last. -/
theorem State.setConnRx_setConnRx (h : q.node = r.node ∧ q.cls = r.cls) : (s.setConnRx r).setConnRx q = s.setConnRx q := by
  simp only [State.setConnRx, h.1, h.2, List.filter_append, List.filter_filter, Bool.and_self]
  simp

/-- The port rate of a connection depends on its route, the node map and the links. -/
theorem State.portRate_congr (hnode : t.node = s.node) (hroute : t.reg (Reg.route (node / 8)) = s.reg (Reg.route (node / 8)))
    (hmap : t.reg Reg.nodeMapBase = s.reg Reg.nodeMapBase) (hcfg : ∀ n, t.reg (Reg.linkCfg n) = s.reg (Reg.linkCfg n))
    (hstate : ∀ n, t.reg (Reg.linkState n) = s.reg (Reg.linkState n)) : t.portRate node cls = s.portRate node cls := by
  have hport : t.ethPort = s.ethPort := by
    funext n
    simp only [State.ethPort, State.fld_congr (hcfg _)]
  have hgroup : t.groupUp = s.groupUp := by
    funext g
    simp only [State.groupUp, State.groupLinks, State.fld_congr (hcfg _), State.fld_congr (hstate _), hport]
  have hrate : t.linkRate = s.linkRate := by
    funext n
    simp only [State.linkRate, State.fld_congr (hcfg _)]
  simp only [State.portRate, State.routeLink, State.routeGroup, hnode, hgroup, hroute, hmap, hrate]

theorem State.connTx_congr (hfab : t.fab.conns = s.fab.conns) (hrate : t.portRate node cls = s.portRate node cls) :
    t.connTx node cls = s.connTx node cls := by
  simp only [State.connTx, State.firstEpoch, FabSt.tx_eq hfab, FabSt.epochs_eq hfab, hrate]

/-! ### Traffic counted leaves both sides -/

theorem State.ethPort_le : s.ethPort n ≤ n := by
  unfold State.ethPort
  split <;> omega

theorem State.reg_countTraffic_other {o b : Nat} {x : Bool} (h : o ≠ Reg.linkTraffic (s.ethPort n)) :
    (s.countTraffic n b x).reg o = s.reg o := by
  cases x
  · exact (State.reg_setFld_other h).trans State.reg_updLink
  · exact (State.reg_setFld_other h).trans State.reg_updLink

theorem State.connTx_countTraffic {b : Nat} {x : Bool} (hn : n < 64) :
    (s.countTraffic n b x).connTx node cls = s.connTx node cls := by
  have hport := Nat.lt_of_le_of_lt (State.ethPort_le (s := s)) hn
  refine State.connTx_congr State.countTraffic_conns (State.portRate_congr (countTraffic_same n b x).node ?_ ?_
    (fun m => ?_) fun m => ?_) <;> refine State.reg_countTraffic_other ?_
  · simp only [Reg.route, Reg.linkTraffic]
    omega
  · simp only [Reg.nodeMapBase, Reg.linkTraffic]
    omega
  · exact linkCfg_ne_linkTraffic
  · exact linkState_ne_linkTraffic

theorem State.connRx_countTraffic {b : Nat} {x : Bool} : (s.countTraffic n b x).connRx node cls = s.connRx node cls :=
  State.connRx_congr (FabSt.rx_eq State.countTraffic_conns)

/-! ### What sending does to a connection (R296, R298, R303) -/

theorem State.ackCarried_of_conn (h : s.connRx node cls = some r) :
    s.ackCarried node cls = s.setConnRx r.carried := by
  simp only [State.ackCarried, h, ConnRx.carried]

theorem State.ackCarried_of_none (h : s.connRx node cls = none) : s.ackCarried node cls = s := by
  simp only [State.ackCarried, h]

theorem State.ackCarried_tx : (s.ackCarried node cls).fab.tx = s.fab.tx := by
  cases h : s.connRx node cls with
  | none => rw [State.ackCarried_of_none h]
  | some r => rw [State.ackCarried_of_conn h, State.setConnRx]

/-- A connection once its acknowledgement travels in a frame of this node. -/
theorem State.connRx_ackCarried (h : s.connRx node cls = some r) :
    (s.ackCarried node cls).connRx node cls = some r.carried := by
  obtain ⟨hnode, hcls⟩ := State.connRx_spec h
  rw [State.ackCarried_of_conn h]
  exact State.connRx_setConnRx ⟨hnode, hcls⟩

/-- A frame sent is kept as the last that is unacknowledged, and carries the acknowledgement of the other direction. -/
theorem State.ifpSend_conn {typ m addr aux : Nat} {last : Bool} {d : List Byte} {p : IfpPurpose} : ∃ sent,
    ((s.ifpSend node cls typ m last addr aux d p).connTx node cls).unacked = (s.connTx node cls).unacked ++
      [⟨ifpSealed (s.frameTo node cls typ (s.connTx node cls).seq m last addr aux d), 0, p, sent⟩] ∧
    (∀ r, s.connRx node cls = some r → (s.ifpSend node cls typ m last addr aux d p).connRx node cls =
      some r.carried) := by
  let x := s.launch (s.frameTo node cls typ (s.connTx node cls).seq m last addr aux d)
  let c : ConnTx := { s.connTx node cls with
    seq := ((s.connTx node cls).seq + 1) % 2 ^ 32
    unacked := (s.connTx node cls).unacked ++
      [⟨ifpSealed (s.frameTo node cls typ (s.connTx node cls).seq m last addr aux d), 0, p, x.2⟩] }
  have hsend : s.ifpSend node cls typ m last addr aux d p = (x.1.setConnTx c).ackCarried node cls := rfl
  refine ⟨x.2, ?_, fun r hr => ?_⟩
  · rw [hsend, State.connTx_of_tx State.ackCarried_tx (c := c) State.connTx_spec]
  · rw [hsend]
    exact State.connRx_ackCarried ((State.connRx_congr (FabSt.rx_eq (State.launch_conns.trans rfl))).trans hr)

/-! ### Frames that arrive (R295, R296) -/

/-- The state once a frame that arrives is counted. -/
def State.counted (s : State) (n : Nat) (f : IfpFrame) : State := s.countTraffic n f.payload.length false

theorem State.counted_same : SameButLinks s (s.counted n f) := countTraffic_same _ _ _

@[simp] theorem State.connRx_counted {g : IfpFrame} : (s.counted n f).connRx g.src g.cls = s.connRx g.src g.cls :=
  State.connRx_countTraffic

theorem State.Comes.onLink (h : s.Comes n f) {g : State → State} : s.onLink n g = g s := by
  rw [State.onLink, h.up.when, if_pos ⟨h.link, h.linkUp⟩]

theorem State.Comes.frameIn (h : s.Comes n f) : s.frameIn n f false = (s.counted n f).frameHere f false := by
  have hnode := (State.counted_same (s := s) (n := n) (f := f)).node
  simp only [State.frameIn, ← State.counted.eq_1, hnode, h.here, ne_eq, not_true, if_false, if_neg (not_not.2 h.icrc),
    Bool.false_and]

theorem State.Comes.frameRow (h : s.Comes n f) (ht : f.typ = k) :
    s.frameRow k n f false = (s.counted n f).frameHere f false := by
  rw [State.frameRow, h.onLink, if_pos ht, h.frameIn]

/-- Nothing is acknowledged on a connection on which nothing is unacknowledged. -/
theorem State.framesAcked_of_quiet {ack : Nat} (h : (s.connTx node cls).unacked = []) : s.framesAcked node cls ack = s := by
  simp only [State.framesAcked, h, List.filter_nil, List.isEmpty_nil, true_or, if_true]

/-- A frame under the EPOCH that is known, or the first of its connection, changes no EPOCH. -/
theorem State.epochSeen_of_known (h : ∀ r, s.connRx f.src f.cls = some r → r.epoch = f.epoch) : s.epochSeen f = s := by
  have hold : (s.rxFor f).2 = false := by
    cases hc : s.connRx f.src f.cls with
    | none => simp only [State.rxFor, hc]
    | some r => simp only [State.rxFor, hc, h r hc, if_true]
  simp only [State.epochSeen, hold, Bool.false_eq_true, if_false]

/-- What a frame without ECE does after its EPOCH is seen and its acknowledgement taken. -/
theorem State.frameHere_of_acked (hece : f.ece = false) (h : (s.epochSeen f).framesAcked f.src f.cls f.ack = t) :
    s.frameHere f false = match f.typ with
      | 9 => t
      | 10 => t.resend f.src f.cls fun u => (u.frame.seq + 2 ^ 32 - f.ack) % 2 ^ 32 < 2 ^ 31
      | 12 => t.rateCut f.src f.cls
      | _ => t.frameNumbered f := by
  simp only [State.frameHere, h, hece, Bool.false_eq_true, if_false] <;> rfl

/-! ### A frame in its turn (R296 to R298) -/

/-- The state in which a frame that comes in its turn takes effect: it is counted, and the next SEQ is awaited. -/
def State.arrived (s : State) (n : Nat) (f : IfpFrame) (r : ConnRx) : State :=
  (s.counted n f).setConnRx r.next

theorem State.arrived_same : SameButLinks s (s.arrived n f r) := State.counted_same.trans (SameButLinks.fab _)

theorem State.connRx_arrived (h : s.InTurn f r) :
    (s.arrived n f r).connRx f.src f.cls = some r.next := by
  obtain ⟨hnode, hcls⟩ := State.connRx_spec h.conn
  exact State.connRx_setConnRx ⟨hnode, hcls⟩

theorem SameButLinks.connBusy (h : SameButLinks s t) : t.connBusy node cls = s.connBusy node cls := by
  simp only [State.connBusy, h.mem, h.gcl]

theorem SameButLinks.unlessHeld (h : SameButLinks s t) (hu : s.Up) {g : State → State} : t.unlessHeld g = g t := by
  rw [State.unlessHeld, h.pwr, hu.2]
  rfl

/-- Nothing held behind a frame waits for its turn. -/
theorem State.heldApply_of_empty (h : s.connRx node cls = some q) (hheld : q.held = []) (fuel : Nat) :
    State.heldApply node cls fuel s = s := by
  cases fuel with
  | zero => rfl
  | succ fuel => simp only [State.heldApply, h, hheld, List.find?_nil]

/-- One frame more is to be acknowledged, and that is not yet due. -/
theorem State.owesAck_of_few (h : s.connRx node cls = some q) (hfew : q.sinceAck < 15) :
    s.owesAck node cls = s.setConnRx q.owed := by
  simp only [State.owesAck, h, if_neg (show ¬ 16 ≤ q.sinceAck + 1 by omega), ConnRx.owed]

/-- A frame in its turn: it takes effect, and is owed an acknowledgement. -/
theorem State.frameRow_of_turn (hc : s.Comes n f) (h : s.InTurn f r) (ht : f.typ = k) (hnum : k ≠ 9 ∧ k ≠ 10 ∧ k ≠ 12)
    (hv : (s.arrived n f r).frameApply f = v) (hq : v.connRx f.src f.cls = some q) (hheld : q.held = [])
    (hfew : q.sinceAck < 15) (hpwr : v.pwr = s.pwr) :
    s.frameRow k n f false = v.setConnRx q.owed := by
  have hconn : (s.counted n f).connRx f.src f.cls = some r := State.connRx_counted.trans h.conn
  have hquiet : ((s.counted n f).connTx f.src f.cls).unacked = [] := by
    rw [State.counted, State.connTx_countTraffic hc.link, h.quiet]
  have hepoch : (s.counted n f).epochSeen f = s.counted n f := State.epochSeen_of_known fun q hq => by
    rw [hconn] at hq
    cases hq
    exact h.epoch
  have hacked : ((s.counted n f).epochSeen f).framesAcked f.src f.cls f.ack = s.counted n f := by
    rw [hepoch]
    exact State.framesAcked_of_quiet hquiet
  have hrx : (s.counted n f).rxFor f = (r, false) := by simp only [State.rxFor, hconn, h.epoch, if_true]
  have hahead : (f.seq + 2 ^ 32 - r.expected) % 2 ^ 32 = 0 := by
    rw [h.seq, Nat.add_sub_cancel_left, Nat.mod_self]
  have hturn : ((s.counted n f).setConnRx r).setConnRx { r with expected := (r.expected + 1) % 2 ^ 32 } = s.arrived n f r :=
    State.setConnRx_setConnRx ⟨rfl, rfl⟩
  have hfree : (s.arrived n f r).frameTurn f = v := by
    rw [State.frameTurn, if_neg (by rw [State.arrived_same.connBusy, h.busy]; decide), hv]
  have hnumbered : (s.counted n f).frameNumbered f = v.setConnRx q.owed := by
    simp only [State.frameNumbered, hrx, hahead, if_true, hturn, hfree, State.heldApply_of_empty hq hheld,
      State.unlessHeld, hpwr, hc.up.2, Bool.false_eq_true, if_false, State.owesAck_of_few hq hfew]
  rw [hc.frameRow ht, State.frameHere_of_acked hc.ece hacked, ← hnumbered]
  split
  case h_1 h9 => exact absurd (ht.symm.trans h9) hnum.1
  case h_2 h10 => exact absurd (ht.symm.trans h10) hnum.2.1
  case h_3 h12 => exact absurd (ht.symm.trans h12) hnum.2.2
  case h_4 => rfl

/-- A frame in its turn whose effect leaves the receiving sides of the connections. -/
theorem State.frameRow_of_turn_kept (hc : s.Comes n f) (h : s.InTurn f r) (ht : f.typ = k) (hnum : k ≠ 9 ∧ k ≠ 10 ∧ k ≠ 12)
    (hv : (s.arrived n f r).frameApply f = v) (hrx : v.fab.rx = (s.arrived n f r).fab.rx) (hpwr : v.pwr = s.pwr) :
    s.frameRow k n f false =
      v.setConnRx r.next.owed :=
  State.frameRow_of_turn hc h ht hnum hv ((State.connRx_congr hrx).trans (State.connRx_arrived h)) h.held h.acks hpwr

end Sys2Proof.Machine
end

section
/-! SUPPORT. Loads and stores of another node in HBM: what they touch is as frames that arrive leave it, and in clean memory
without a hole each is answered at once (10 R278, 11 R297, 15 R374). -/

namespace Sys2Proof.Machine

variable {s t : State} {n a i : Nat} {d : List Byte}

/-! ### What a frame that arrives does not change of the memory -/

/-- Two states that differ at most in the links and the traffic counters of the 64 links. -/
structure SameButPorts (s t : State) : Prop where
  same : SameButLinks s t
  regs : ∀ o, (∀ m < 64, o ≠ Reg.linkTraffic m) → t.reg o = s.reg o

theorem State.arrived_sameButPorts {f : IfpFrame} {r : ConnRx} (hn : n < 64) : SameButPorts s (s.arrived n f r) :=
  ⟨State.arrived_same, fun _ ho =>
    State.reg_countTraffic_other (ho _ (Nat.lt_of_le_of_lt (State.ethPort_le (s := s)) hn))⟩

theorem SameButPorts.fld {o hi lo : Nat} (h : SameButPorts s t) (ho : ∀ m < 64, o ≠ Reg.linkTraffic m) :
    t.fld o hi lo = s.fld o hi lo := State.fld_congr (h.regs o ho)

theorem SameButPorts.window (h : SameButPorts s t) : t.window = s.window := by
  have hbase : t.fld Reg.gclCohBase 47 26 = s.fld Reg.gclCohBase 47 26 := h.fld fun m hm => by
    simp only [Reg.gclCohBase, Reg.linkTraffic]
    omega
  have hsize : t.fld Reg.gclCohSize 6 0 = s.fld Reg.gclCohSize 6 0 := h.fld fun m hm => by
    simp only [Reg.gclCohSize, Reg.linkTraffic]
    omega
  rw [State.window, hbase, hsize, State.window]

theorem SameButPorts.windowLines (h : SameButPorts s t) : t.windowLines a n = s.windowLines a n := by
  simp only [State.windowLines, State.inWindow, h.window]

theorem SameButPorts.dirOf (h : SameButPorts s t) : t.dirOf i = s.dirOf i := by rw [State.dirOf, h.same.gcl, State.dirOf]

theorem SameButPorts.snoopOf (h : SameButPorts s t) : t.snoopOf i = s.snoopOf i := by
  rw [State.snoopOf, h.same.gcl, State.snoopOf]

theorem SameButPorts.storeBlocks (h : SameButPorts s t) : t.storeBlocks a n = s.storeBlocks a n := by
  rw [State.storeBlocks, h.windowLines, State.storeBlocks]
  simp only [h.dirOf, h.snoopOf]

theorem SameButPorts.loadBlocks (h : SameButPorts s t) : t.loadBlocks a n = s.loadBlocks a n := by
  rw [State.loadBlocks, h.windowLines, State.loadBlocks]
  simp only [h.dirOf, h.snoopOf]

theorem SameButPorts.isDisabled (h : SameButPorts s t) : t.isDisabled i = s.isDisabled i := by
  have hstate : t.reg Reg.funcState = s.reg Reg.funcState := h.regs _ fun m hm => by
    simp only [Reg.funcState, Reg.linkTraffic]
    omega
  rw [State.isDisabled, hstate, State.isDisabled]

theorem SameButPorts.memFault (h : SameButPorts s t) : t.memFault a n = s.memFault a n := by
  have hhits : t.hitsDirectory a n = s.hitsDirectory a n := by
    simp only [State.hitsDirectory, State.inDirectory, h.window]
  rw [State.memFault, hhits, h.isDisabled, State.memFault]

theorem State.channelOf_lt : s.channelOf a < 256 := by
  unfold State.channelOf
  split <;> exact Nat.mod_lt _ (by decide)

theorem SameButPorts.pageStopped (h : SameButPorts s t) : t.pageStopped i = s.pageStopped i := by
  have hchannel : t.channelOf (4096 * i) = s.channelOf (4096 * i) := by simp only [State.channelOf, h.same.mem]
  have htemp : t.fld (Reg.stackTemp (s.channelOf (4096 * i) / 16)) 30 28 =
      s.fld (Reg.stackTemp (s.channelOf (4096 * i) / 16)) 30 28 := h.fld fun m hm => by
    have := State.channelOf_lt (s := s) (a := 4096 * i)
    simp only [Reg.stackTemp, Reg.linkTraffic]
    omega
  rw [State.pageStopped, hchannel, State.stackStopped, htemp, State.pageStopped, State.stackStopped]

theorem SameButPorts.stalledRange (h : SameButPorts s t) : t.stalledRange a n = s.stalledRange a n := by
  simp only [State.stalledRange, h.pageStopped, h.same.imp]

theorem SameButPorts.unbackedPages (h : SameButPorts s t) :
    (pages a n).any t.unbackedPage = (pages a n).any s.unbackedPage := by
  simp only [funext fun p => show t.unbackedPage p = s.unbackedPage p by simp only [State.unbackedPage, h.same.mem]]

theorem SameButPorts.clean (h : SameButPorts s t) (hc : s.Clean) : t.Clean :=
  ⟨by rw [h.same.mem, hc.poison], by rw [h.same.mem, hc.flaws]⟩

theorem SameButPorts.bytesAt (h : SameButPorts s t) : t.bytesAt a n = s.bytesAt a n := by rw [State.bytesAt, h.same.mem, State.bytesAt]

/-! ### A range of HBM served -/

/-- A range that meets no fault lies in one region. -/
theorem State.rangeIn_of_memFault (h : s.memFault a n = none) : rangeIn (regionOf a) a n = true := by
  unfold State.memFault at h
  split at h
  · simp at h
  · rename_i hgood
    simpa using (not_or.1 hgood).1

/-- A range of HBM that meets no fault, none of whose pages is unbacked. -/
theorem State.backed_of_memFault (hr : regionOf a = .hbm) (hf : s.memFault a n = none)
    (hp : (pages a n).any s.unbackedPage = false) : s.Backed a n := by
  have hin := State.rangeIn_of_memFault hf
  rw [hr] at hin
  exact State.backed_of_hbm hin (by simpa [State.holeIn, hr] using hp)

/-- The bytes that a load shows without a hole are those held. -/
theorem State.shownBytes_of_backed (hb : s.Backed a n) : s.shownBytes a n = s.bytesAt a n := by
  refine List.ext_getElem (by simp [State.shownBytes]) fun i hi _ => ?_
  have hin : i < n := by simpa [State.shownBytes] using hi
  have hbyte := State.getD_bytesAt (s := s) (a := a) hin
  rw [List.getD_eq_getElem _ _ (by simpa using hin)] at hbyte
  rw [hbyte]
  simp only [State.shownBytes, List.getElem_map, List.getElem_range, hb.kept i hin, Bool.false_eq_true, if_false]

/-- A load from clean memories without a hole. -/
theorem State.loadBytes_of_backed (hc : s.Clean) (hb : s.Backed a n) : s.loadBytes a n = (s, .ok (s.bytesAt a n)) := by
  simp only [State.loadBytes, hc.readStop, hb.pages, State.clearingHit, hb.copses, List.map_nil, List.eraseDups_nil,
    List.foldl_nil, Bool.false_eq_true, if_false, State.shownBytes_of_backed hb]

/-- HBM has no copse to wake. -/
theorem State.windowWake_of_hbm (hr : regionOf a = .hbm) : s.windowWake a = s := if_neg (by simp [hr])

theorem State.serveLoad_of_hbm (hr : regionOf a = .hbm) (hf : s.memFault a n = none) (hc : s.Clean) (hn : 0 < n)
    (hp : (pages a n).any s.unbackedPage = false) : s.serveLoad a n = (s, .ok (s.bytesAt a n)) := by
  simp only [State.serveLoad, if_neg (show n ≠ 0 by omega), hr, hf, State.windowWake_of_hbm hr,
    State.loadBytes_of_backed hc (State.backed_of_memFault hr hf hp)]

theorem State.serveStore_of_hbm (hr : regionOf a = .hbm) (hf : s.memFault a d.length = none) (hc : s.Clean)
    (hp : (pages a d.length).any s.unbackedPage = false) (hqp : ∀ i, s.qpIsReady i = false) (hd : d ≠ []) :
    s.serveStore a d = (s.bytesStored a d, none) := by
  simp only [State.serveStore, List.isEmpty_iff, if_neg hd, hr, hf, State.windowWake_of_hbm hr,
    State.saveBytes_of_backed hc hqp (State.backed_of_memFault hr hf hp)]

theorem State.byteAt_bytesStored (hs : s.Sound) : (s.bytesStored a d).byteAt i =
    if a ≤ i ∧ i < a + d.length then d.getD (i - a) 0 else s.byteAt i := by
  have hbytes : (s.bytesStored a d).mem.bytes = (s.putBytes a d).mem.bytes :=
    State.qpWritten_leaves (fun u => u.mem.bytes) fun _ _ => rfl
  rw [State.byteAt, hbytes, ← State.byteAt, State.byteAt_putBytes hs]

theorem State.qpWritten_rx : (s.qpWritten a n).fab.rx = s.fab.rx :=
  State.foldl_leaves (fun u => u.fab.rx) (fun u i => by
    dsimp only
    split_ifs <;> rfl) _

/-- A store served in HBM, of no byte or of some: every byte, and what stays. -/
theorem State.serveStore_spec (hs : s.Sound) (hr : regionOf a = .hbm) (hf : s.memFault a d.length = none) (hc : s.Clean)
    (hp : (pages a d.length).any s.unbackedPage = false) (hqp : ∀ i, s.qpIsReady i = false) : ∃ u,
      s.serveStore a d = (u, none) ∧
      (∀ i, u.byteAt i = if a ≤ i ∧ i < a + d.length then d.getD (i - a) 0 else s.byteAt i) ∧
      u.fab.rx = s.fab.rx ∧ u.tally = s.tally ∧ u.tens = s.tens ∧ u.pwr = s.pwr := by
  by_cases hd : d = []
  · subst hd
    exact ⟨s, rfl, fun i => (if_neg (by simp)).symm, rfl, rfl, rfl, rfl⟩
  · exact ⟨_, State.serveStore_of_hbm hr hf hc hp hqp hd, fun i => State.byteAt_bytesStored hs, State.qpWritten_rx,
      State.qpWritten_leaves State.tally fun _ _ => rfl, State.qpWritten_leaves State.tens fun _ _ => rfl,
      State.qpWritten_leaves State.pwr fun _ _ => rfl⟩

end Sys2Proof.Machine
end

section
/-! SUPPORT and PROOF. What each frame of another node does here, in its turn (11 R295 to R297, R304; 02 R49, R50, R66; 09
R251). -/

namespace Sys2Proof.Machine

variable {s t : State} {n i m : Nat} {f : IfpFrame} {r : ConnRx} {c : Cmd} {x : FabricRead}

theorem exec_write (n : Nat) (f : IfpFrame) (ce : Bool) (s : State) : exec (.write n f ce) s = execWrite n f ce s := rfl

theorem exec_readReq (n : Nat) (f : IfpFrame) (ce : Bool) (s : State) : exec (.readReq n f ce) s = execReadReq n f ce s := rfl

theorem exec_readResp (n : Nat) (f : IfpFrame) (ce : Bool) (s : State) : exec (.readResp n f ce) s = execReadResp n f ce s := rfl

theorem exec_ifpTallyAdd (n : Nat) (f : IfpFrame) (ce : Bool) (s : State) :
    exec (.ifpTallyAdd n f ce) s = execIfpTallyAdd n f ce s := rfl

theorem exec_watch (n : Nat) (f : IfpFrame) (ce : Bool) (s : State) : exec (.watch n f ce) s = execWatch n f ce s := rfl

theorem exec_watchNotify (n : Nat) (f : IfpFrame) (ce : Bool) (s : State) :
    exec (.watchNotify n f ce) s = execWatchNotify n f ce s := rfl

theorem exec_watchCancel (n : Nat) (f : IfpFrame) (ce : Bool) (s : State) :
    exec (.watchCancel n f ce) s = execWatchCancel n f ce s := rfl

theorem exec_sched (n : Nat) (f : IfpFrame) (ce : Bool) (s : State) : exec (.sched n f ce) s = execSched n f ce s := rfl

theorem exec_ifpError (n : Nat) (f : IfpFrame) (ce : Bool) (s : State) : exec (.ifpError n f ce) s = execIfpError n f ce s := rfl

theorem exec_control (n : Nat) (f : IfpFrame) (ce : Bool) (l : List Nat) (s : State) :
    exec (.control n f ce l) s = execControl n f ce l s := rfl

/-! ### The state in which a frame takes effect -/

theorem State.arrived_sound (hs : s.Sound) : (s.arrived n f r).Sound :=
  (State.setConnRx_kept (State.countTraffic_kept hs.kept)).sound

theorem State.arrived_reads : (s.arrived n f r).fab.reads = s.fab.reads :=
  (rfl : _ = (s.counted n f).fab.reads).trans (FabSt.reads_eq State.countTraffic_conns)

theorem State.qpIsReady_arrived : (s.arrived n f r).qpIsReady i = s.qpIsReady i := by
  have hqps : (s.arrived n f r).fab.qps = s.fab.qps :=
    (rfl : _ = (s.counted n f).fab.qps).trans (FabSt.qps_eq State.countTraffic_conns)
  rw [State.qpIsReady, hqps, State.qpIsReady]

theorem State.qpIsReady_setConnRx : (s.setConnRx r).qpIsReady i = s.qpIsReady i := rfl

theorem SameButPorts.setConnRx (h : SameButPorts s t) {q : ConnRx} : SameButPorts s (t.setConnRx q) :=
  ⟨h.same.trans (SameButLinks.fab _), h.regs⟩

theorem State.cmdOf_arrived : (s.arrived n f r).cmdOf m = s.cmdOf m := State.cmdOf_congr State.arrived_same.cmd

theorem State.tallyVal_arrived : (s.arrived n f r).tallyVal i = s.tallyVal i := State.tallyVal_congr State.arrived_same.tally

theorem fieldAt_lt {l : List Byte} {k : Nat} : fieldAt l i k < 2 ^ (8 * k) :=
  leNat_lt.trans_le (Nat.pow_le_pow_right (by decide) (Nat.mul_le_mul_left 8 (List.length_take_le _ _)))

/-- The state once the data of a read of this node are complete. -/
def State.readTaken (s : State) (x : FabricRead) : State := { s with fab := { s.fab with reads := s.fab.reads.erase x } }

/-- The state once a wait is attached to its tally. -/
def State.attached (s : State) (w : Waiter) : State :=
  { s with tally := { s.tally with waiters := s.tally.waiters ++ [w] } }

/-- The state once a tally that nothing waits on has a value. -/
def State.tallyHas (s : State) (i x : Nat) : State :=
  { s with tally := { s.tally with values := Sparse.set (fun _ => (0 : Word64)) s.tally.values i (BitVec.ofNat 64 x) } }

theorem State.present_of_alone {x : Nat} {l : List Waiter} (h : ∀ w ∈ l, w.tally ≠ i) : State.present i x l s = s := by
  induction l with
  | nil => rfl
  | cons w l ih =>
    obtain ⟨hw, hl⟩ := List.forall_mem_cons.1 h
    rw [State.present, if_neg fun hmet => hw hmet.1, ih hl]

theorem State.tallyTakes_of_alone {x : Nat} (h : ∀ w ∈ s.tally.waiters, w.tally ≠ i) : s.tallyTakes i x = s.tallyHas i x :=
  State.present_of_alone (s := s.tallyHas i x) h

theorem State.cmdOf_readTaken : (s.readTaken x).cmdOf m = s.cmdOf m := rfl

theorem State.wrapNoted_fab_pwr {v : Nat} : (s.wrapNoted i v).fab = s.fab ∧ (s.wrapNoted i v).pwr = s.pwr := by
  unfold State.wrapNoted
  split <;> simp

theorem State.tensor_eq_some {k : Nat} {y : Tensor} : s.tensor k = some y ↔ s.declared k = some y ∧ y.placed = true := by
  unfold State.tensor
  cases s.declared k with
  | none => simp
  | some z =>
    simp only [Option.ite_none_right_eq_some, Option.some.injEq]
    exact ⟨fun ⟨hp, hz⟩ => ⟨hz, hz ▸ hp⟩, fun ⟨hz, hp⟩ => ⟨hz ▸ hp, hz⟩⟩

/-- The state once the first fault of the fabric is recorded. -/
def State.faultNoted (s : State) (code node addr : Nat) : State :=
  (s.setReg Reg.fabricErr (code * 2 ^ 24 + node * 2 ^ 8 + 1)).setReg Reg.fabricErrAddr (addr % 2 ^ 48)

theorem State.faultNoted_regs {a code : Nat} (hs : s.Sound) (hcode : code < 256) (hn : n < 2 ^ 16) :
    (s.faultNoted code n a).reg Reg.fabricErr = code * 2 ^ 24 + n * 2 ^ 8 + 1 ∧
      (s.faultNoted code n a).reg Reg.fabricErrAddr = a % 2 ^ 48 := by
  constructor
  · rw [State.faultNoted, State.reg_setReg_other (by decide), State.reg_setReg_same hs]
    exact Nat.mod_eq_of_lt (by omega)
  · rw [State.faultNoted, State.reg_setReg_same hs.setReg]
    exact Nat.mod_eq_of_lt (by omega)

/-! ### WRITE and READ_REQ (R297) -/

section
variable (hc : s.Comes n f) (h : s.InTurn f r)
include hc h

/-- A WRITE to HBM puts its bytes there, and the next SEQ is awaited. -/
theorem exec_write_of_hbm (hs : s.Sound) (ht : f.typ = 1) (hr : regionOf (localOf f.addr) = .hbm)
    (hblocks : s.storeBlocks (localOf f.addr) f.payload.length = [])
    (hfault : s.memFault (localOf f.addr) f.payload.length = none) (hclean : s.Clean) (hqp : ∀ i, s.qpIsReady i = false)
    (hstall : s.stalledRange (localOf f.addr) f.payload.length = false)
    (hpages : (pages (localOf f.addr) f.payload.length).any s.unbackedPage = false) :
    ∃ t, exec (.write n f false) s = .next t ∧
      (∀ a, t.byteAt a = if localOf f.addr ≤ a ∧ a < localOf f.addr + f.payload.length
        then f.payload.getD (a - localOf f.addr) 0 else s.byteAt a) ∧
      (∃ q, t.connRx f.src f.cls = some q ∧ q.expected = (r.expected + 1) % 2 ^ 32) ∧ t.tally = s.tally ∧ t.tens = s.tens := by
  obtain ⟨hnode, hcls⟩ := State.connRx_spec h.conn
  let q : ConnRx := { r.next with waiting := r.waiting ++ [f.seq] }
  let w := (s.arrived n f r).setConnRx q
  have hw : SameButPorts s w := (State.arrived_sameButPorts hc.link).setConnRx
  have hws : w.Sound := (State.setConnRx_kept (State.arrived_sound hs).kept).sound
  have hwqp : ∀ i, w.qpIsReady i = false := fun i => by
    rw [State.qpIsReady_setConnRx, State.qpIsReady_arrived, hqp i]
  obtain ⟨u, hstore, hbytes, hrx, htally, htens, hpwr⟩ := State.serveStore_spec hws hr (hw.memFault.trans hfault)
    (hw.clean hclean) (hw.unbackedPages.trans hpages) hwqp
  have hconn : u.connRx f.src f.cls = some q := (State.connRx_congr hrx).trans (State.connRx_setConnRx ⟨hnode, hcls⟩)
  let q' : ConnRx := { q with waiting := q.waiting.erase ((f.msgId + 65536 * f.seq) / 65536) }
  have hv : (s.arrived n f r).frameApply f = u.setConnRx q' := by
    have hfabric : (s.arrived n f r).frameApply f = w.fabricStore f.src f.cls (f.msgId + 65536 * f.seq) f.addr f.payload := by
      simp only [State.frameApply, ht, State.connRx_arrived h]
      rfl
    simp only [hfabric, State.fabricStore, hw.stalledRange, hstall, hw.storeBlocks, hblocks, hstore, Bool.false_eq_true,
      if_false, State.frameVisible, hconn]
    rfl
  have hrow : s.frameRow 1 n f false = (u.setConnRx q').setConnRx q'.owed :=
    State.frameRow_of_turn hc h ht (by decide) hv (State.connRx_setConnRx ⟨hnode, hcls⟩) h.held h.acks
      (hpwr.trans hw.same.pwr)
  refine ⟨(u.setConnRx q').setConnRx q'.owed, by rw [exec_write, execWrite, hrow], fun a => ?_,
    ⟨q'.owed, State.connRx_setConnRx ⟨hnode, hcls⟩, rfl⟩, ?_, ?_⟩
  · refine (hbytes a).trans ?_
    rw [State.byteAt_congr hw.same.mem]
  · exact htally.trans hw.same.tally
  · exact htens.trans hw.same.tens

/-- A READ_REQ of HBM is answered by one READ_RESP with the bytes. -/
theorem exec_readReq_of_hbm (ht : f.typ = 2) (hr : regionOf (localOf f.addr) = .hbm)
    (hblocks : s.loadBlocks (localOf f.addr) f.aux = []) (hfault : s.memFault (localOf f.addr) f.aux = none)
    (hclean : s.Clean) (hpos : 0 < f.aux) (hlen : f.aux ≤ 4096) (hstall : s.stalledRange (localOf f.addr) f.aux = false)
    (hpages : (pages (localOf f.addr) f.aux).any s.unbackedPage = false) :
    ∃ t, exec (.readReq n f false) s = .next t ∧
      (∃ u ∈ (t.connTx f.src f.cls).unacked, u.frame.typ = 3 ∧ u.frame.msgId = f.msgId % 65536 ∧
        u.frame.payload = s.bytesAt (localOf f.addr) f.aux) ∧ t.mem = s.mem ∧ t.tens = s.tens := by
  have hw : SameButPorts s (s.arrived n f r) := State.arrived_sameButPorts hc.link
  let d := s.bytesAt (localOf f.addr) f.aux
  have hload : (s.arrived n f r).serveLoad (localOf f.addr) f.aux = (s.arrived n f r, .ok d) := by
    rw [State.serveLoad_of_hbm hr (by rw [hw.memFault, hfault]) (hw.clean hclean) hpos (by rw [hw.unbackedPages, hpages]),
      hw.bytesAt]
  let v := (s.arrived n f r).ifpSend f.src f.cls 3 f.msgId true f.addr 0 d .plain
  have hv : (s.arrived n f r).frameApply f = v := by
    have hfabric : (s.arrived n f r).frameApply f = (s.arrived n f r).fabricLoad f.src f.cls f.msgId f.addr f.aux := by
      simp only [State.frameApply, ht]
    have hone : (s.arrived n f r).readResponse f.src f.cls f.msgId f.addr d = v := by
      rw [State.readResponse, State.ifpFrames, if_pos (by simpa [d] using hlen)]
    simp only [hfabric, State.fabricLoad, hw.stalledRange, hstall, hw.loadBlocks, hblocks, hload, hw.same.unlessHeld hc.up,
      Bool.false_eq_true, if_false, hone]
  obtain ⟨sent, hunacked, hconn⟩ := State.ifpSend_conn (s := s.arrived n f r) (node := f.src) (cls := f.cls) (typ := 3)
    (m := f.msgId) (last := true) (addr := f.addr) (aux := 0) (d := d) (p := .plain)
  have hsame : SameButLinks s v := hw.same.trans (ifpSend_same _ _ _ _ _ _ _ _ _)
  have hrow : s.frameRow 2 n f false = v.setConnRx r.next.carried.owed :=
    State.frameRow_of_turn hc h ht (by decide) hv (hconn _ (State.connRx_arrived h)) h.held
      (show 0 < 15 by decide) hsame.pwr
  have htx : (v.setConnRx r.next.carried.owed).connTx f.src f.cls = v.connTx f.src f.cls := rfl
  refine ⟨v.setConnRx r.next.carried.owed, by rw [exec_readReq, execReadReq, hrow], ?_, hsame.mem, hsame.tens⟩
  rw [htx, hunacked]
  exact ⟨_, List.mem_append_right _ (List.mem_singleton_self _), rfl, rfl, rfl⟩

/-! ### READ_RESP and ERROR: what a read of this node comes to (R295, R304) -/

omit hc h in
/-- The last response of a TALLY_READ ends it with the value read. -/
theorem State.readArrives_of_last (ht : f.typ = 3)
    (hread : s.fab.reads.find? (fun x => x.node = f.src ∧ x.msgId = f.msgId) = some x) (hlast : f.last = true)
    (hp : x.purpose = .cmd m) (hm : s.cmdOf m = some c) (hphase : c.phase = .waiting) (haux : c.aux = [2])
    (hop : c.opcode = 0x0B05) : (s.arrived n f r).frameApply f =
      (((s.arrived n f r).readTaken x).updCmd m fun y => { y with buf := c.buf ++ (x.data ++ f.payload).take x.total }).finish m
        (Outcome.ok (leNat (c.buf ++ (x.data ++ f.payload).take x.total))) := by
  have hread' : (s.arrived n f r).fab.reads.find? (fun x => x.node = f.src ∧ x.msgId = f.msgId) = some x := by
    rw [State.arrived_reads, hread]
  have hm' : ((s.arrived n f r).readTaken x).cmdOf m = some c := by rw [State.cmdOf_readTaken, State.cmdOf_arrived, hm]
  have hwaits : ¬ (c.phase ≠ .waiting ∨ c.aux.head? ≠ some 2) := by simp [hphase, haux]
  have hop' (b : List Byte) : ({ c with buf := b } : Cmd).opcode = 0x0B05 := hop
  rw [State.frameApply, ht]
  simp only [State.readArrives, hread', hlast, if_true, hp, ← State.readTaken.eq_1, hm', if_neg hwaits, hop']

theorem exec_readResp_of_last (ht : f.typ = 3)
    (hread : s.fab.reads.find? (fun x => x.node = f.src ∧ x.msgId = f.msgId) = some x) (hlast : f.last = true)
    (hp : x.purpose = .cmd m) (hm : s.cmdOf m = some c) (hphase : c.phase = .waiting) (haux : c.aux = [2])
    (hop : c.opcode = 0x0B05) : ∃ t, exec (.readResp n f false) s = .next t ∧
      t.Ended m (Outcome.ok (leNat (c.buf ++ (x.data ++ f.payload).take x.total))) ∧ t.mem = s.mem := by
  have hsame := State.arrived_same (s := s) (n := n) (f := f) (r := r)
  have hrow := State.frameRow_of_turn_kept hc h ht (by decide)
    (State.readArrives_of_last (n := n) (r := r) ht hread hlast hp hm hphase haux hop) (by simp [State.readTaken])
    (by simp [State.readTaken, hsame.pwr])
  have hm' : ((s.arrived n f r).readTaken x).cmdOf m = some c := by rw [State.cmdOf_readTaken, State.cmdOf_arrived, hm]
  exact ⟨_, (exec_readResp n f false s).trans (congrArg Host.Outcome.next hrow), State.finish_ended (State.cmdOf_updCmd rfl hm'),
    by simp [State.readTaken, hsame.mem]⟩

/-! ### Tally frames (02 R49, R50, R66) -/

theorem exec_ifpTallyAdd_of_alone (hs : s.Sound) (ht : f.typ = 4) (hi : tallyIndex f.addr = some i)
    (halone : ∀ w ∈ s.tally.waiters, w.tally ≠ i) : ∃ t, exec (.ifpTallyAdd n f false) s = .next t ∧
      t.tallyVal i = (s.tallyVal i + fieldAt f.payload 0 8) % 2 ^ 64 ∧ (∀ j, j ≠ i → t.tallyVal j = s.tallyVal j) ∧
      t.tally.waiters = s.tally.waiters ∧ t.mem = s.mem := by
  let a := s.arrived n f r
  let w := a.wrapNoted i (fieldAt f.payload 0 8)
  have hsum : (a.tallyVal i + fieldAt f.payload 0 8) % 2 ^ 64 < 2 ^ 64 := Nat.mod_lt _ (by decide)
  obtain ⟨hmem, -, htally⟩ := State.wrapNoted_fields (s := a) i (fieldAt f.payload 0 8)
  have hws : w.Sound := State.wrapNoted_sound (State.arrived_sound hs) _ _
  have hwt : w.tally = s.tally := htally.trans State.arrived_same.tally
  have hv : a.frameApply f = w.tallyTakes i ((a.tallyVal i + fieldAt f.payload 0 8) % 2 ^ 64) := by
    rw [State.frameApply, ht]
    simp only [State.remoteAdd, hi]
    exact State.tallyAdd_eq fieldAt_lt
  have hnone := State.tallyTakes_of_alone (s := w) (x := (a.tallyVal i + fieldAt f.payload 0 8) % 2 ^ 64) (i := i)
    (by rw [hwt]; exact halone)
  obtain ⟨hfab, hpwr⟩ := State.wrapNoted_fab_pwr (s := a) (i := i) (v := fieldAt f.payload 0 8)
  have hrow := State.frameRow_of_turn_kept hc h ht (by decide) (hv.trans hnone) (congrArg FabSt.rx hfab)
    (hpwr.trans State.arrived_same.pwr)
  have hval (j : Nat) := State.tallyVal_congr (s := w.tallyTakes i ((a.tallyVal i + fieldAt f.payload 0 8) % 2 ^ 64))
    (i := j) (congrArg State.tally hnone.symm)
  refine ⟨_, (exec_ifpTallyAdd n f false s).trans (congrArg Host.Outcome.next hrow), ?_, fun j hj => ?_,
    (congrArg TallySt.waiters hwt :), hmem.trans State.arrived_same.mem⟩
  · refine (hval i).trans ?_
    rw [State.tallyVal_tallyTakes_same hws hsum, State.tallyVal_arrived]
  · refine (hval j).trans ?_
    rw [State.tallyVal_tallyTakes_other hj, State.tallyVal_congr hwt]

/-- A watch lodged of a value that the tally does not have is attached. -/
theorem exec_watch_of_unmet {w : Waiter} (ht : f.typ = 5) (hi : tallyIndex f.addr = some i) (hcount : s.watchCount < 1024)
    (hw : w = ⟨i, decide (fieldAt f.payload 8 1 = 1), fieldAt f.payload 0 8, .watch f.src (fieldAt f.payload 10 2)⟩)
    (hmet : w.metBy (s.tallyVal i) = false) : ∃ t, exec (.watch n f false) s = .next t ∧
      t.tally.waiters = s.tally.waiters ++ [w] ∧ t.tally.values = s.tally.values ∧ t.mem = s.mem := by
  have hsame := State.arrived_same (s := s) (n := n) (f := f) (r := r)
  have hcount' : ¬ 1024 ≤ (s.arrived n f r).watchCount := by
    rw [State.watchCount, hsame.tally]
    exact Nat.not_le.2 hcount
  have hmet' : w.metBy ((s.arrived n f r).tallyVal i) = false := by rw [State.tallyVal_arrived, hmet]
  have hv : (s.arrived n f r).frameApply f = (s.arrived n f r).attached w := by
    rw [State.frameApply, ht]
    simp only [State.remoteWatch, hi, if_neg hcount', ← hw, State.tallyWait, hmet', Bool.false_eq_true, if_false,
      State.attached]
  have hrow := State.frameRow_of_turn_kept hc h ht (by decide) hv (by simp [State.attached])
    (by simp [State.attached, hsame.pwr])
  exact ⟨_, (exec_watch n f false s).trans (congrArg Host.Outcome.next hrow), by simp [State.attached, hsame.tally],
    by simp [State.attached, hsame.tally], by simp [State.attached, hsame.mem]⟩

/-- The notice of a watch that is met ends the command that lodged it. -/
theorem exec_watchNotify_of_found (hs : s.Sound) (ht : f.typ = 6)
    (hfind : s.cmd.cmds.find? (fun c => c.phase = .waiting ∧ c.aux = [3, f.src, fieldAt f.payload 0 2]) = some c) :
    ∃ t v, exec (.watchNotify n f false) s = .next t ∧ t.Ended c.id (Outcome.ok v) ∧ c.par 40 8 ≤ v ∧ v < 2 ^ 64 ∧
      (c.opcode = 0x0B04 → v = c.par 40 8) ∧ t.mem = s.mem ∧ t.tally = s.tally := by
  let a := s.arrived n f r
  let w := a.updCmd c.id fun c => { c with aux := [] }
  have hsame : SameButLinks s a := State.arrived_same
  have hfind' : a.cmd.cmds.find? (fun c => c.phase = .waiting ∧ c.aux = [3, f.src, fieldAt f.payload 0 2]) = some c := by
    rw [State.arrived_same.cmd, hfind]
  have hcmd : ∃ d, w.cmdOf c.id = some d :=
    ⟨_, State.cmdOf_updCmd rfl (State.cmdOf_arrived.trans (hs.cmdOf_mem (List.mem_of_find?_eq_some hfind)))⟩
  obtain ⟨d, hd⟩ := hcmd
  have hlt : c.par 40 8 < 2 ^ 64 := Cmd.par_lt
  by_cases hop : c.opcode = 0x0B04
  · have hv : a.frameApply f = w.finish c.id (Outcome.ok (c.par 40 8)) := by
      rw [State.frameApply, ht]
      simp only [State.watchMet, hfind', if_pos hop]
      rfl
    have hrow := State.frameRow_of_turn_kept hc h ht (by decide) hv (by simp [w]; rfl) (by simp [w, a, hsame.pwr])
    exact ⟨_, _, (exec_watchNotify n f false s).trans (congrArg Host.Outcome.next hrow), State.finish_ended hd, le_rfl, hlt,
      fun _ => rfl, by simp [w, a, hsame.mem], by simp [w, a, hsame.tally]⟩
  · let v := c.par 40 8 + w.free.1 % (2 ^ 64 - c.par 40 8)
    have hrest : w.free.1 % (2 ^ 64 - c.par 40 8) < 2 ^ 64 - c.par 40 8 := Nat.mod_lt _ (by omega)
    have hv : a.frameApply f = w.free.2.finish c.id (Outcome.ok v) := by
      rw [State.frameApply, ht]
      simp only [State.watchMet, hfind', if_neg hop]
      rfl
    have hrow := State.frameRow_of_turn_kept hc h ht (by decide) hv (by simp [w, State.free]; rfl)
      (by simp [w, a, State.free, hsame.pwr])
    exact ⟨_, v, (exec_watchNotify n f false s).trans (congrArg Host.Outcome.next hrow), State.finish_ended hd,
      Nat.le_add_right _ _, by omega, fun hop' => absurd hop' hop, by simp [w, a, State.free, hsame.mem],
      by simp [w, a, State.free, hsame.tally]⟩

/-- A watch given up is dropped, and no other wait. -/
theorem exec_watchCancel_of_turn (ht : f.typ = 7) : ∃ t, exec (.watchCancel n f false) s = .next t ∧
    t.tally.values = s.tally.values ∧ t.mem = s.mem ∧
      ∀ w, w ∈ t.tally.waiters ↔ w ∈ s.tally.waiters ∧ w.owner ≠ .watch f.src (fieldAt f.payload 0 2) := by
  have hsame := State.arrived_same (s := s) (n := n) (f := f) (r := r)
  have hv : (s.arrived n f r).frameApply f =
      (s.arrived n f r).detach fun o => decide (o = .watch f.src (fieldAt f.payload 0 2)) := by
    rw [State.frameApply, ht]
    rfl
  have hrow := State.frameRow_of_turn_kept hc h ht (by decide) hv (by simp [State.detach])
    (by simp [State.detach, hsame.pwr])
  exact ⟨_, (exec_watchCancel n f false s).trans (congrArg Host.Outcome.next hrow), by simp [State.detach, hsame.tally],
    by simp [State.detach, hsame.mem], fun w => by simp [State.detach, hsame.tally]⟩

/-! ### SCHED (09 R251) -/

/-- The data of a scheduled delivery take their place in a tensor of an imposition in which nothing moves. -/
theorem exec_sched_of_still {y : Tensor} {j : Imposition} (ht : f.typ = 8) (hy : s.tensor (f.addr / 2 ^ 32 % 2 ^ 32) = some y)
    (hcur : s.imp.cur = some j) (hmoves : s.imp.moves = []) : ∃ t, exec (.sched n f false) s = .next t ∧ t.mem = s.mem ∧
      ∃ z ∈ t.tens, z.handle = y.handle ∧ z.data = setTensorBytes y f.payload (f.addr % 2 ^ 32 * 64) y.data := by
  have hsame := State.arrived_same (s := s) (n := n) (f := f) (r := r)
  obtain ⟨hdecl, hplaced⟩ := State.tensor_eq_some.1 hy
  have hy' : (s.arrived n f r).tensor (f.addr / 2 ^ 32 % 2 ^ 32) = some y := by
    rw [State.tensor, State.declared, hsame.tens, ← hy, State.tensor, State.declared]
  have hdecl' : (s.arrived n f r).declared (f.addr / 2 ^ 32 % 2 ^ 32) = some y := (State.tensor_eq_some.1 hy').1
  have hmem : y ∈ (s.arrived n f r).tens := List.mem_of_find?_eq_some hdecl'
  have hv : (s.arrived n f r).frameApply f =
      (s.arrived n f r).writeData y.handle (setTensorBytes y f.payload (f.addr % 2 ^ 32 * 64)) := by
    rw [State.frameApply, ht]
    simp only [State.scheduled, hy', hsame.imp, hcur, hmoves, State.movesTensor, List.any_nil, List.find?_nil,
      Bool.false_eq_true, and_false, if_false, State.schedStore, hdecl']
  have hrow := State.frameRow_of_turn_kept hc h ht (by decide) hv (by simp) (by simp [hsame.pwr])
  have hz := State.mem_updTensor (f := fun z => { z with data := setTensorBytes y f.payload (f.addr % 2 ^ 32 * 64) z.data }) hmem
  exact ⟨_, (exec_sched n f false s).trans (congrArg Host.Outcome.next hrow), by simp [hsame.mem], _, hz, rfl, rfl⟩

/-! ### ERROR (R304) -/

omit hc h in
/-- An ERROR for a read of a command of the memory and copy group is recorded, and ends the command with its fault. -/
theorem State.errorArrives_of_read (ht : f.typ = 11)
    (hread : s.fab.reads.find? (fun x => x.node = f.src ∧ x.msgId = f.msgId) = some x) (hp : x.purpose = .cmd m)
    (hm : s.cmdOf m = some c) (hphase : c.phase = .waiting) (hop : c.opcode / 256 = 2)
    (hreach : fieldAt f.payload 0 1 ≠ faultUnreachable) (hzero : fieldAt f.payload 0 1 ≠ 0)
    (hfree : s.fld Reg.fabricErr 0 0 = 0) : ∃ g,
      (s.arrived n f r).frameApply f = ({ ((s.arrived n f r).faultNoted (fieldAt f.payload 0 1) f.src f.addr) with
        fab := g }).finish m (faultOutcome (fieldAt f.payload 0 1)) ∧ g.rx = (s.arrived n f r).fab.rx := by
  have hsame := State.arrived_same (s := s) (n := n) (f := f) (r := r)
  have hfree' : ¬ (s.arrived n f r).fld Reg.fabricErr 0 0 = 1 := by
    rw [hsame.fld_of_ne fun k => by simp only [Reg.fabricErr, Reg.linkTraffic]; omega, hfree]
    decide
  have hnoted : (s.arrived n f r).fabricErr (fieldAt f.payload 0 1) f.src f.addr =
      (s.arrived n f r).faultNoted (fieldAt f.payload 0 1) f.src f.addr := if_neg hfree'
  have hread' : ((s.arrived n f r).faultNoted (fieldAt f.payload 0 1) f.src f.addr).fab.reads.find?
      (fun x => x.node = f.src ∧ x.msgId = f.msgId) = some x := by
    have hfab : ((s.arrived n f r).faultNoted (fieldAt f.payload 0 1) f.src f.addr).fab = (s.arrived n f r).fab := by
      simp [State.faultNoted]
    rw [hfab, State.arrived_reads, hread]
  let w := ((s.arrived n f r).faultNoted (fieldAt f.payload 0 1) f.src f.addr).readTaken x
  have hm' : w.cmdOf m = some c := by
    rw [State.cmdOf_readTaken, ← hm]
    exact State.cmdOf_congr (by simp [State.faultNoted, hsame.cmd])
  have hprefetch : ¬ (fieldAt f.payload 0 1 = faultUnreachable ∨ c.opcode = 0x0704) := by omega
  refine ⟨{ w.fab with reads := w.fab.reads.filter fun r => r.purpose ≠ IfpPurpose.cmd m }, ?_, ?_⟩
  · rw [State.frameApply, ht]
    simp only [State.errorArrives, if_neg hzero, hnoted, hread', ← State.readTaken.eq_1, hp, State.purposeFault,
      State.fabricEnd, show State.cmdOf (State.readTaken _ x) m = _ from hm', hphase, if_true, if_neg hprefetch, if_pos hop]
    rfl
  · simp [w, State.readTaken, State.faultNoted]

theorem exec_ifpError_of_read (hs : s.Sound) (ht : f.typ = 11)
    (hread : s.fab.reads.find? (fun x => x.node = f.src ∧ x.msgId = f.msgId) = some x) (hp : x.purpose = .cmd m)
    (hm : s.cmdOf m = some c) (hphase : c.phase = .waiting) (hop : c.opcode / 256 = 2)
    (hreach : fieldAt f.payload 0 1 ≠ faultUnreachable) (hzero : fieldAt f.payload 0 1 ≠ 0)
    (hfree : s.fld Reg.fabricErr 0 0 = 0) (hsrc : f.src < 2 ^ 16) : ∃ t, exec (.ifpError n f false) s = .next t ∧
      t.Ended m (faultOutcome (fieldAt f.payload 0 1)) ∧
      t.reg Reg.fabricErr = fieldAt f.payload 0 1 * 2 ^ 24 + f.src * 2 ^ 8 + 1 ∧
      t.reg Reg.fabricErrAddr = f.addr % 2 ^ 48 ∧ t.mem = s.mem := by
  have hsame := State.arrived_same (s := s) (n := n) (f := f) (r := r)
  obtain ⟨g, hv, hrx⟩ := State.errorArrives_of_read (n := n) (r := r) ht hread hp hm hphase hop hreach hzero hfree
  let w := (s.arrived n f r).faultNoted (fieldAt f.payload 0 1) f.src f.addr
  obtain ⟨herr, haddr⟩ := State.faultNoted_regs (n := f.src) (a := f.addr) (State.arrived_sound (n := n) (f := f) (r := r) hs)
    (show fieldAt f.payload 0 1 < 256 from fieldAt_lt) hsrc
  have hrow := State.frameRow_of_turn_kept hc h ht (by decide) hv (by simpa using hrx) (by simp [State.faultNoted, hsame.pwr])
  have hm' : ({ w with fab := g } : State).cmdOf m = some c :=
    (State.cmdOf_congr (by simp [w, State.faultNoted, hsame.cmd])).trans hm
  have hregs (o : Nat) : (({ w with fab := g } : State).finish m (faultOutcome (fieldAt f.payload 0 1))).reg o = w.reg o :=
    State.reg_congr (by simp)
  exact ⟨_, (exec_ifpError n f false s).trans (congrArg Host.Outcome.next hrow), State.finish_ended hm', (hregs _).trans herr,
    (hregs _).trans haddr, by simp [State.faultNoted, hsame.mem]⟩

/-! ### CONTROL (R295; 12 R324) -/

/-- A control frame is received; the chunk it reports is known checked. -/
theorem exec_control_of_turn (ht : f.typ = 13) : ∃ t, exec (.control n f false []) s = .next t ∧ t.mem = s.mem ∧ t.cmd = s.cmd ∧
    (∃ q, t.connRx f.src f.cls = some q ∧ q.expected = (r.expected + 1) % 2 ^ 32 ∧ q.sinceAck = r.sinceAck + 1) ∧
      ∀ axis seq phase shard chunk dest, exec (.control n f false [axis, seq, phase, shard, chunk, dest]) s =
        .next (t.collChecked axis seq ⟨phase, shard, chunk, dest⟩) := by
  have hsame := State.arrived_same (s := s) (n := n) (f := f) (r := r)
  obtain ⟨hnode, hcls⟩ := State.connRx_spec h.conn
  have hv : (s.arrived n f r).frameApply f = s.arrived n f r := by
    rw [State.frameApply, ht]
    rfl
  have hrow := State.frameRow_of_turn_kept hc h ht (by decide) hv rfl hsame.pwr
  rw [hc.frameRow ht, ← hc.frameIn] at hrow
  have hexpected : (s.rxFor f).1.expected = f.seq := by simp only [State.rxFor, h.conn, h.epoch, if_true, h.seq]
  have hexec (l : List Nat) : exec (.control n f false l) s =
      .next (((s.arrived n f r).setConnRx r.next.owed).controlReport l) := by
    rw [exec_control, execControl, hc.onLink, if_neg (not_not.2 ht), hrow, hexpected]
    simp only [hc.here, ← hc.icrc, decide_true, Bool.and_self, if_true]
  exact ⟨_, hexec [], by simp [State.controlReport, hsame.mem], by simp [State.controlReport, hsame.cmd],
    ⟨r.next.owed, State.connRx_setConnRx ⟨hnode, hcls⟩, rfl, rfl⟩, fun axis seq phase shard chunk dest => hexec _⟩

end

end Sys2Proof.Machine
end

section
/-! SUPPORT and PROOF. Connections: a new EPOCH, acknowledgement, resending, congestion and loss (11 R296, R298, R299, R303;
02 R66). -/

namespace Sys2Proof.Machine

variable {s t v : State} {n m k node cls : Nat} {f : IfpFrame} {r : ConnRx} {c : ConnTx} {u : Unacked} {w : Cmd}

theorem exec_ifpAck (n : Nat) (f : IfpFrame) (ce : Bool) (s : State) : exec (.ifpAck n f ce) s = execIfpAck n f ce s := rfl

theorem exec_ifpNack (n : Nat) (f : IfpFrame) (ce : Bool) (s : State) : exec (.ifpNack n f ce) s = execIfpNack n f ce s := rfl

theorem exec_cnp (n : Nat) (f : IfpFrame) (ce : Bool) (s : State) : exec (.cnp n f ce) s = execCnp n f ce s := rfl

theorem exec_ackTimer (node cls : Nat) (s : State) : exec (.ackTimer node cls) s = execAckTimer node cls s := rfl

theorem exec_retransmissionTimeout (node cls seq : Nat) (s : State) :
    exec (.retransmissionTimeout node cls seq) s = execRetransmissionTimeout node cls seq s := rfl

theorem exec_noRouteTimeout (node cls : Nat) (s : State) :
    exec (.noRouteTimeout node cls) s = execNoRouteTimeout node cls s := rfl

theorem exec_rateIncrease (node cls : Nat) (s : State) : exec (.rateIncrease node cls) s = execRateIncrease node cls s := rfl

theorem State.connTx_counted (hn : n < 64) : (s.counted n f).connTx node cls = s.connTx node cls := State.connTx_countTraffic hn

theorem State.counted_sound (hs : s.Sound) : (s.counted n f).Sound := (State.countTraffic_kept hs.kept).sound

/-! ### A new EPOCH (R296; 02 R66) -/

/-- The receiving side of a connection under the EPOCH of a frame, as it begins. -/
def freshRx (f : IfpFrame) : ConnRx :=
  { node := f.src, cls := f.cls, epoch := f.epoch, expected := 0, held := [], sinceAck := 0, waiting := [], eceDue := false,
    lastCnp := 0, cnpYet := false }

theorem State.epochSeen_of_new (h : s.connRx f.src f.cls = some r) (hne : r.epoch ≠ f.epoch) :
    s.epochSeen f = (s.setConnRx (freshRx f)).watchesGone f.src := by
  have hrx : s.rxFor f = ((freshRx f), true) := by
    simp only [State.rxFor, h, if_neg hne, freshRx]
  rw [State.epochSeen, hrx]
  rfl

theorem State.watchesGone_fields : (s.watchesGone node).fab = s.fab ∧ (s.watchesGone node).regs = s.regs ∧
    (s.watchesGone node).node = s.node ∧ (s.watchesGone node).mem = s.mem :=
  ⟨State.foldl_leaves State.fab (fun _ _ => by simp) _, State.foldl_leaves State.regs (fun _ _ => by simp) _,
    State.foldl_leaves State.node (fun _ _ => by simp) _, State.foldl_leaves State.mem (fun _ _ => by simp) _⟩

/-- A command whose watch is held at a node has ended once its watches are gone, and no watch of the node is held here. -/
theorem State.watchesGone_spec (hm : s.cmdOf m = some w) (hphase : w.phase = .waiting) (haux : w.aux = [3, node, k]) :
    (s.watchesGone node).Ended m (Outcome.aborted 0x0103) ∧
      ∀ v ∈ (s.watchesGone node).tally.waiters, ∀ k, v.owner ≠ .watch node k := by
  have hid : w.id = m := by simpa using List.find?_some hm
  have hmem : w ∈ s.watchersOf node := List.mem_filter.2 ⟨List.mem_of_find?_eq_some hm, by simp [hphase, haux]⟩
  refine ⟨?_, fun v hv j hj => ?_⟩
  · obtain ⟨d, hd, hrest⟩ := State.ended_finishAll (o := Outcome.aborted 0x0103) hmem (by rw [hid, hm])
    exact ⟨d, by rw [← hid, ← hd]; rfl, hrest⟩
  · have hfilter := (List.mem_filter.1 hv).2
    simp [hj] at hfilter

theorem State.connTx_of_fields (hfab : t.fab.tx = s.fab.tx) (hepochs : t.fab.epochs = s.fab.epochs)
    (hregs : t.regs = s.regs) (hnode : t.node = s.node) : t.connTx node cls = s.connTx node cls := by
  have hrate : t.portRate node cls = s.portRate node cls := State.portRate_congr hnode (State.reg_congr hregs)
    (State.reg_congr hregs) (fun _ => State.reg_congr hregs) fun _ => State.reg_congr hregs
  simp only [State.connTx, State.firstEpoch, hfab, hepochs, hrate]

theorem State.connTx_setConnRx : (s.setConnRx r).connTx node cls = s.connTx node cls :=
  State.connTx_of_fields rfl rfl rfl rfl

/-- A frame of any class under a new EPOCH releases the watches between its node and this one (log 154). -/
theorem exec_ifpAck_of_new (hc : s.Comes n f) (ht : f.typ = 9) (hconn : s.connRx f.src f.cls = some r)
    (hepoch : r.epoch ≠ f.epoch) (hquiet : (s.connTx f.src f.cls).unacked = []) (hm : s.cmdOf m = some w)
    (hphase : w.phase = .waiting) (haux : w.aux = [3, f.src, k]) : ∃ t, exec (.ifpAck n f false) s = .next t ∧
      t.Ended m (Outcome.aborted 0x0103) ∧ (∀ v ∈ t.tally.waiters, ∀ k, v.owner ≠ .watch f.src k) ∧ t.mem = s.mem := by
  let a := (s.counted n f).setConnRx (freshRx f)
  have hsame : SameButLinks s a := State.counted_same.trans (SameButLinks.fab _)
  obtain ⟨hfab, hregs, hnode, hmem⟩ := State.watchesGone_fields (s := a) (node := f.src)
  have hseen : (s.counted n f).epochSeen f = a.watchesGone f.src :=
    State.epochSeen_of_new (State.connRx_counted.trans hconn) hepoch
  have hunacked : ((a.watchesGone f.src).connTx f.src f.cls).unacked = [] := by
    have hkept : (a.watchesGone f.src).connTx f.src f.cls = a.connTx f.src f.cls :=
      State.connTx_of_fields (congrArg FabSt.tx hfab) (congrArg FabSt.epochs hfab) hregs hnode
    rw [hkept, State.connTx_setConnRx, State.connTx_counted hc.link, hquiet]
  have hacked : ((s.counted n f).epochSeen f).framesAcked f.src f.cls f.ack = a.watchesGone f.src := by
    rw [hseen]
    exact State.framesAcked_of_quiet hunacked
  have hrow : s.frameRow 9 n f false = a.watchesGone f.src := by
    rw [hc.frameRow ht, State.frameHere_of_acked hc.ece hacked, ht]
    rfl
  obtain ⟨hended, hwaiters⟩ := State.watchesGone_spec ((State.cmdOf_congr hsame.cmd).trans hm) hphase haux
  exact ⟨_, (exec_ifpAck n f false s).trans (congrArg Host.Outcome.next hrow), hended, hwaiters, hmem.trans hsame.mem⟩

/-! ### Acknowledgement (R297, R298) -/

/-- A sending side with other frames unacknowledged. -/
def ConnTx.keeping (c : ConnTx) (l : List Unacked) : ConnTx := { c with unacked := l }

theorem State.connTx_setConnTx_keeping {l : List Unacked} :
    (s.setConnTx ((t.connTx node cls).keeping l)).connTx node cls = (t.connTx node cls).keeping l := by
  obtain ⟨hnode, hcls⟩ := State.connTx_spec (s := t) (node := node) (cls := cls)
  exact State.connTx_setConnTx ⟨hnode, hcls⟩

theorem State.purposeAcked_plain : s.purposeAcked .plain = s := by
  unfold State.purposeAcked
  split <;> rfl

theorem State.foldl_purposeAcked_plain {l : List IfpPurpose} (h : ∀ p ∈ l, p = .plain) : l.foldl State.purposeAcked s = s := by
  induction l with
  | nil => rfl
  | cons p l ih =>
    obtain ⟨hp, hl⟩ := List.forall_mem_cons.1 h
    rw [List.foldl_cons, hp, State.purposeAcked_plain, ih hl]

/-- Whether an unacknowledged frame has a number below the one that an acknowledgement gives. -/
def Unacked.below (u : Unacked) (ack : Nat) : Bool :=
  decide ((ack + 2 ^ 32 - u.frame.seq) % 2 ^ 32 < 2 ^ 31) && decide (u.frame.seq ≠ ack)

/-- An acknowledgement of frames that nothing awaits drops them. -/
theorem State.framesAcked_of_plain {ack : Nat} (hplain : ∀ u ∈ (s.connTx node cls).unacked, u.purpose = .plain)
    (hack : ((s.connTx node cls).seq + 2 ^ 32 - ack) % 2 ^ 32 < 2 ^ 31) :
    ((s.framesAcked node cls ack).connTx node cls).unacked =
      (s.connTx node cls).unacked.filter (fun u => ! u.below ack) ∧
    (s.framesAcked node cls ack).cmd = s.cmd ∧ (s.framesAcked node cls ack).mem = s.mem := by
  by_cases hdone : (s.connTx node cls).unacked.filter (fun u => u.below ack) = []
  · have hnone : s.framesAcked node cls ack = s := if_pos (.inl (List.isEmpty_iff.2 hdone))
    have hall : ∀ u ∈ (s.connTx node cls).unacked, (! u.below ack) = true := fun u hu => by
      simpa using List.filter_eq_nil_iff.1 hdone u hu
    rw [hnone, List.filter_eq_self.2 hall]
    exact ⟨rfl, rfl, rfl⟩
  · have hsome : s.framesAcked node cls ack =
        s.setConnTx ((s.connTx node cls).keeping ((s.connTx node cls).unacked.filter fun u => ! u.below ack)) := by
      have hcond : ¬ (((s.connTx node cls).unacked.filter fun u => u.below ack).isEmpty = true ∨
          2 ^ 31 ≤ ((s.connTx node cls).seq + 2 ^ 32 - ack) % 2 ^ 32) := by
        rw [List.isEmpty_iff, not_or]
        exact ⟨hdone, Nat.not_le.2 hack⟩
      refine (if_neg hcond).trans (State.foldl_purposeAcked_plain fun p hp => ?_)
      obtain ⟨u, hu, rfl⟩ := List.mem_map.1 (List.mem_eraseDups.1 hp)
      exact hplain u (List.mem_filter.1 hu).1
    rw [hsome, State.connTx_setConnTx_keeping]
    exact ⟨rfl, rfl, rfl⟩

/-- A frame of its known EPOCH that acknowledges no frame leaves the state in which it is counted. -/
theorem State.Comes.framesAcked_of_none_below (hc : s.Comes n f) (hepoch : ∀ r, s.connRx f.src f.cls = some r → r.epoch = f.epoch)
    (hnone : ∀ u ∈ (s.connTx f.src f.cls).unacked, u.below f.ack = false) :
    ((s.counted n f).epochSeen f).framesAcked f.src f.cls f.ack = s.counted n f := by
  rw [State.epochSeen_of_known fun r hr => hepoch r (State.connRx_counted.symm.trans hr)]
  refine if_pos (.inl (List.isEmpty_iff.2 (List.filter_eq_nil_iff.2 fun u hu => ?_)))
  rw [State.connTx_counted hc.link] at hu
  exact Bool.eq_false_iff.1 (hnone u hu)

theorem exec_ifpAck_of_plain (hc : s.Comes n f) (ht : f.typ = 9)
    (hepoch : ∀ r, s.connRx f.src f.cls = some r → r.epoch = f.epoch)
    (hack : ((s.connTx f.src f.cls).seq + 2 ^ 32 - f.ack) % 2 ^ 32 < 2 ^ 31)
    (hplain : ∀ u ∈ (s.connTx f.src f.cls).unacked, u.purpose = .plain) : ∃ t, exec (.ifpAck n f false) s = .next t ∧
      (t.connTx f.src f.cls).unacked = (s.connTx f.src f.cls).unacked.filter (fun u => ! u.below f.ack) ∧ t.cmd = s.cmd ∧
      t.mem = s.mem := by
  have hsame := State.counted_same (s := s) (n := n) (f := f)
  have hconn : (s.counted n f).connTx f.src f.cls = s.connTx f.src f.cls := State.connTx_counted hc.link
  have hrow : s.frameRow 9 n f false = (s.counted n f).framesAcked f.src f.cls f.ack := by
    have hseen : (s.counted n f).epochSeen f = s.counted n f :=
      State.epochSeen_of_known fun r hr => hepoch r (State.connRx_counted.symm.trans hr)
    rw [hc.frameRow ht, State.frameHere_of_acked hc.ece (congrArg (fun t => t.framesAcked f.src f.cls f.ack) hseen), ht]
    rfl
  rw [← hconn] at hack hplain ⊢
  obtain ⟨hunacked, hcmd, hmem⟩ := State.framesAcked_of_plain hplain hack
  exact ⟨_, (exec_ifpAck n f false s).trans (congrArg Host.Outcome.next hrow), hunacked, hcmd.trans hsame.cmd,
    hmem.trans hsame.mem⟩

/-! ### Frames sent again (R298) -/

/-- An unacknowledged frame as it is sent again. -/
def Unacked.again (u : Unacked) (ack : Nat) (sent : Bool) : Unacked :=
  { u with frame := { u.frame with retx := true, ack := ack }, retries := u.retries + 1, sent := sent }

/-- The only unacknowledged frame of a connection sent again: it is kept, marked, and counted. -/
theorem State.resendOne_spec (hs : s.Sound) (hu : (s.connTx node cls).unacked = [u]) : ∃ ack sent,
    ((s.resendOne node cls u.frame.seq).connTx node cls).unacked = [u.again ack sent] ∧
    (s.resendOne node cls u.frame.seq).fld Reg.ifpCounters 63 32 = min (s.fld Reg.ifpCounters 63 32 + 1) (2 ^ 32 - 1) ∧
    (s.resendOne node cls u.frame.seq).mem = s.mem := by
  obtain ⟨ack, x, hresent, hx⟩ : ∃ ack x, s.resendOne node cls u.frame.seq =
      (x.1.setConnTx ((s.connTx node cls).keeping [u.again ack x.2])).addSat Reg.ifpCounters 63 32 1 ∧
      x = s.launch { u.frame with retx := true, ack := ack } := by
    refine ⟨match s.connRx node cls with
      | some r => r.ackSeq
      | none => u.frame.ack, _, ?_, rfl⟩
    simp only [State.resendOne, hu, List.find?_cons, decide_true, List.map_cons, List.map_nil, if_true]
    rfl
  have hsame : SameButLinks s x.1 := hx ▸ launch_same _
  have hxs : (x.1.setConnTx ((s.connTx node cls).keeping [u.again ack x.2])).Sound :=
    (State.setConnTx_kept (hx ▸ State.launch_kept hs.kept)).sound
  obtain ⟨hnode, hcls⟩ := State.connTx_spec (s := s) (node := node) (cls := cls)
  refine ⟨ack, x.2, ?_, ?_, ?_⟩
  · rw [State.connTx_of_tx (s := x.1) (c := (s.connTx node cls).keeping [u.again ack x.2]) (by rw [hresent]; simp) ⟨hnode, hcls⟩]
    rfl
  · have hcount : x.1.fld Reg.ifpCounters 63 32 = s.fld Reg.ifpCounters 63 32 := hsame.fld_of_ne fun k => by
      simp only [Reg.ifpCounters, Reg.linkTraffic]
      omega
    rw [hresent, State.fld_addSat_same hxs (by decide) (by decide), ← hcount]
    rfl
  · rw [hresent]
    simp [hsame.mem]

/-- One frame of a connection is sent again while it has been fewer times than the limit. -/
theorem State.resend_of_one {p : Unacked → Bool} (hu : (s.connTx node cls).unacked = [u]) (hp : p u = true)
    (hlimit : u.retries < s.retryLimit) : s.resend node cls p = s.resendOne node cls u.frame.seq := by
  simp only [State.resend, hu, List.filter_cons, hp, if_true, List.filter_nil, List.any_cons, List.any_nil, Bool.or_false,
    decide_eq_true_eq, if_neg (Nat.not_le.2 hlimit), List.foldl_cons, List.foldl_nil]

theorem exec_ifpNack_of_one (hs : s.Sound) (hc : s.Comes n f) (ht : f.typ = 10)
    (hepoch : ∀ r, s.connRx f.src f.cls = some r → r.epoch = f.epoch) (hu : (s.connTx f.src f.cls).unacked = [u])
    (hseq : u.frame.seq = f.ack) (hlimit : u.retries < s.retryLimit) : ∃ t v, exec (.ifpNack n f false) s = .next t ∧
      (t.connTx f.src f.cls).unacked = [v] ∧ v.frame.seq = f.ack ∧ v.frame.retx = true ∧
      v.frame.payload = u.frame.payload ∧ v.retries = u.retries + 1 ∧
      t.fld Reg.ifpCounters 63 32 = min (s.fld Reg.ifpCounters 63 32 + 1) (2 ^ 32 - 1) ∧ t.mem = s.mem := by
  have hsame := State.counted_same (s := s) (n := n) (f := f)
  have hconn : ((s.counted n f).connTx f.src f.cls).unacked = [u] := by rw [State.connTx_counted hc.link, hu]
  have hlimit' : u.retries < (s.counted n f).retryLimit := by
    rw [State.retryLimit, hsame.fld_of_ne fun k => by simp only [Reg.ifpCfg, Reg.linkTraffic]; omega]
    exact hlimit
  have hcount : (s.counted n f).fld Reg.ifpCounters 63 32 = s.fld Reg.ifpCounters 63 32 := hsame.fld_of_ne fun k => by
    simp only [Reg.ifpCounters, Reg.linkTraffic]
    omega
  have hrow : s.frameRow 10 n f false = (s.counted n f).resendOne f.src f.cls u.frame.seq := by
    have hkept := hc.framesAcked_of_none_below hepoch fun v hv => by
      rw [hu, List.mem_singleton] at hv
      rw [hv, Unacked.below, hseq]
      simp
    rw [hc.frameRow ht, State.frameHere_of_acked hc.ece hkept, ht]
    exact State.resend_of_one hconn (by simp [hseq]) hlimit'
  obtain ⟨ack, sent, hunacked, hfld, hmem⟩ := State.resendOne_spec (State.counted_sound hs) hconn
  exact ⟨_, u.again ack sent, (exec_ifpNack n f false s).trans (congrArg Host.Outcome.next hrow), hunacked, hseq, rfl, rfl, rfl,
    hcount ▸ hfld, hmem.trans hsame.mem⟩

theorem exec_retransmissionTimeout_of_one (hup : s.Up) (hs : s.Sound) (hu : (s.connTx node cls).unacked = [u])
    (hsent : u.sent = true) (hlimit : u.retries < s.retryLimit) : ∃ t v,
      exec (.retransmissionTimeout node cls u.frame.seq) s = .next t ∧ (t.connTx node cls).unacked = [v] ∧
      v.frame.retx = true ∧ v.frame.seq = u.frame.seq ∧ v.retries = u.retries + 1 ∧ t.mem = s.mem := by
  obtain ⟨ack, sent, hunacked, -, hmem⟩ := State.resendOne_spec hs hu
  refine ⟨_, u.again ack sent, ?_, hunacked, rfl, rfl, rfl, hmem⟩
  rw [exec_retransmissionTimeout, execRetransmissionTimeout, hup.when]
  exact congrArg _ (State.resend_of_one hu (by simp [hsent]) hlimit)

/-! ### Congestion and acknowledgement due (R298, R303) -/

/-- A CNP cuts the rate of its connection by 7/8, rounded down in the units of 1/8 Gb/s in which the rate is kept (log 30). -/
theorem exec_cnp_of_quiet (hc : s.Comes n f) (ht : f.typ = 12)
    (hepoch : ∀ r, s.connRx f.src f.cls = some r → r.epoch = f.epoch) (hquiet : (s.connTx f.src f.cls).unacked = [])
    (hcut : (s.connTx f.src f.cls).cutYet = true → (s.connTx f.src f.cls).lastCut + 10 ≤ s.micros) :
    ∃ t, exec (.cnp n f false) s = .next t ∧
      (t.connTx f.src f.cls).rate = max ((s.connTx f.src f.cls).rate * 7 / 8) 8 ∧
      (t.connTx f.src f.cls).lastCut = s.micros ∧ t.mem = s.mem := by
  have hsame := State.counted_same (s := s) (n := n) (f := f)
  have hconn : (s.counted n f).connTx f.src f.cls = s.connTx f.src f.cls := State.connTx_counted hc.link
  have hmicros : (s.counted n f).micros = s.micros := by rw [State.micros, hsame.time, State.micros]
  obtain ⟨hnode, hcls⟩ := State.connTx_spec (s := s) (node := f.src) (cls := f.cls)
  let c : ConnTx := { s.connTx f.src f.cls with
    rate := max ((s.connTx f.src f.cls).rate * 7 / 8) 8, lastCut := s.micros, cutYet := true }
  have hset : ((s.counted n f).setConnTx c).connTx f.src f.cls = c := State.connTx_setConnTx ⟨hnode, hcls⟩
  have hrow : s.frameRow 12 n f false = (s.counted n f).setConnTx c := by
    have hkept := hc.framesAcked_of_none_below hepoch fun v hv => by
      rw [hquiet] at hv
      cases hv
    have hfree : ¬ ((s.connTx f.src f.cls).cutYet = true ∧ s.micros < (s.connTx f.src f.cls).lastCut + 10) := fun h =>
      Nat.not_lt.2 (hcut h.1) h.2
    rw [hc.frameRow ht, State.frameHere_of_acked hc.ece hkept, ht]
    simp only [State.rateCut, hconn, hmicros, if_neg hfree]
    rfl
  exact ⟨_, (exec_cnp n f false s).trans (congrArg Host.Outcome.next hrow), by rw [hset], by rw [hset], hsame.mem⟩

theorem exec_ackTimer_of_due (hup : s.Up) (hr : s.connRx node cls = some r) (hdue : 0 < r.sinceAck) :
    ∃ t, exec (.ackTimer node cls) s = .next t ∧ t.connRx node cls = some r.carried ∧ t.mem = s.mem ∧ t.cmd = s.cmd := by
  let f : IfpFrame := { s.frameTo node cls 9 (s.connTx node cls).seq 0 true 0 0 [] with ack := r.ackSeq }
  have hsame : SameButLinks s ((s.launch f).1.ackCarried node cls) := (launch_same f).trans (ackCarried_same node cls)
  refine ⟨(s.launch f).1.ackCarried node cls, ?_, ?_, hsame.mem, hsame.cmd⟩
  · rw [exec_ackTimer, execAckTimer, hup.when, hr]
    exact congrArg _ (if_pos hdue)
  · exact State.connRx_ackCarried ((State.connRx_congr (FabSt.rx_eq State.launch_conns)).trans hr)

theorem exec_rateIncrease_of_conn (hup : s.Up) (hcls : cls ≠ roceClass) (hfound : ∃ x ∈ s.fab.tx, x.node = node ∧ x.cls = cls) :
    ∃ t, exec (.rateIncrease node cls) s = .next t ∧
      (t.connTx node cls).rate = min ((s.connTx node cls).rate + 16) (s.portRate node cls) ∧ t.regs = s.regs ∧
      t.mem = s.mem := by
  obtain ⟨c, hc⟩ := Option.isSome_iff_exists.1 (List.find?_isSome.2
    (let ⟨x, hx, h⟩ := hfound; ⟨x, hx, decide_eq_true h⟩ :
      ∃ x ∈ s.fab.tx, decide (x.node = node ∧ x.cls = cls) = true))
  have hconn : s.connTx node cls = c := by rw [State.connTx, hc, Option.getD_some]
  have hspec := State.connTx_spec (s := s) (node := node) (cls := cls)
  rw [hconn] at hspec ⊢
  obtain ⟨hnode, hcls'⟩ := hspec
  let d : ConnTx := { c with rate := min (c.rate + 16) (s.portRate node cls) }
  have hset : (s.setConnTx d).connTx node cls = d := State.connTx_setConnTx ⟨hnode, hcls'⟩
  refine ⟨s.setConnTx d, ?_, by rw [hset], rfl, rfl⟩
  rw [exec_rateIncrease, execRateIncrease, hup.when, if_neg hcls, hc]

/-! ### A connection LOST (R299) -/

theorem State.placedFor_imp_congr {d : Cmd} (h : t.imp = s.imp) : (t.placedFor d).imp = (s.placedFor d).imp := by
  simp only [State.placedFor, h]
  cases s.imp.draining with
  | none => exact h
  | some x =>
    dsimp only
    split
    · rfl
    · exact h

theorem State.axis_congr (h : t.imp = s.imp) : t.axis k = s.axis k := by rw [State.axis, h, State.axis]

theorem State.dPeers_congr (h : t.imp = s.imp) : t.dPeers = s.dPeers := by
  have hgroup : t.dGroup = s.dGroup := by rw [State.dGroup, State.axis_congr h, State.dGroup]
  rw [State.dPeers, hgroup, State.dPeers]

theorem State.memberNode_congr (h : t.imp = s.imp) : t.memberNode k m = s.memberNode k m := by
  rw [State.memberNode, h, State.memberNode]

/-- The waits on the other members of a D group or a ring depend on the commands and the imposition. -/
theorem State.gradWaiters_congr (hcmd : t.cmd = s.cmd) (himp : t.imp = s.imp) : t.gradWaiters node = s.gradWaiters node := by
  have hpeers (d : Cmd) := State.dPeers_congr (State.placedFor_imp_congr (d := d) himp)
  have hmember (d : Cmd) (k m : Nat) := State.memberNode_congr (k := k) (m := m) (State.placedFor_imp_congr (d := d) himp)
  simp only [State.gradWaiters, hcmd, hpeers, hmember]

theorem State.ringWaiters_congr (hcmd : t.cmd = s.cmd) (himp : t.imp = s.imp) : t.ringWaiters node = s.ringWaiters node := by
  have hrank (d : Cmd) : (t.placedFor d).ringRank = (s.placedFor d).ringRank := by
    rw [State.ringRank, State.axis_congr (State.placedFor_imp_congr (d := d) himp), State.ringRank]
  have hmember (d : Cmd) (k m : Nat) := State.memberNode_congr (k := k) (m := m) (State.placedFor_imp_congr (d := d) himp)
  simp only [State.ringWaiters, hcmd, hrank, hmember]

theorem State.foldl_purposeFault_plain {fault : Nat} {l : List IfpPurpose} (h : ∀ p ∈ l, p = .plain) :
    l.foldl (fun s p => s.purposeFault p fault) s = s := by
  induction l with
  | nil => rfl
  | cons p l ih =>
    obtain ⟨hp, hl⟩ := List.forall_mem_cons.1 h
    rw [List.foldl_cons, hp, State.purposeFault, ih hl]

/-- The state once a connection is LOST that nothing awaits: its node is recorded, and it begins anew. -/
def State.connRenewed (s : State) (node cls : Nat) : State :=
  ((s.setFld Reg.ifpLostNode 15 0 node).addSat Reg.ifpLostNode 31 16 1).setConnTx { s.connTx node cls with
    epoch := ((s.connTx node cls).epoch + 1) % 256, seq := 0, unacked := [] }

/-- A scheduled connection that nothing awaits is LOST. -/
theorem State.connLost_of_plain (hplain : ∀ u ∈ (s.connTx node 0).unacked, u.purpose = .plain) (hcolls : s.coll.colls = [])
    (hgrad : s.gradWaiters node = []) (hring : s.ringWaiters node = []) : s.connLost node 0 = s.connRenewed node 0 := by
  let w := s.connRenewed node 0
  let lost := (s.connTx node 0).unacked.map fun u => (u.purpose, u.frame.addr)
  have hlost : ∀ p ∈ lost, p.1 = .plain := fun p hp => by
    obtain ⟨u, hu, rfl⟩ := List.mem_map.1 hp
    exact hplain u hu
  have hnone : lost.find? (fun p => p.1.isAccess) = none := List.find?_eq_none.2 fun p hp => by
    rw [hlost p hp]
    decide
  have hfaults : ((lost.map (·.1)).eraseDups).foldl (fun s p => s.purposeFault p faultUnreachable) w = w :=
    State.foldl_purposeFault_plain fun p hp => by
      obtain ⟨x, hx, rfl⟩ := List.mem_map.1 (List.mem_eraseDups.1 hp)
      exact hlost x hx
  have hcoll : w.collLost node 0 = w := by
    have hcolls' : w.coll.colls = [] := by simp [w, State.connRenewed, hcolls]
    rw [State.collLost, hcolls', List.filter_nil, List.foldl_nil]
  have hlast : w.gradLost node 0 = w := by
    have hgrad' : w.gradWaiters node = [] :=
      (State.gradWaiters_congr (by simp [w, State.connRenewed]) (by simp [w, State.connRenewed])).trans hgrad
    have hring' : w.ringWaiters node = [] :=
      (State.ringWaiters_congr (by simp [w, State.connRenewed]) (by simp [w, State.connRenewed])).trans hring
    simp only [State.gradLost, hgrad', hring', List.foldl_nil, if_true, if_neg (show (0 : Nat) ≠ 2 by decide)]
  have heq : s.connLost node 0 = State.gradLost (State.collLost (((lost.map (·.1)).eraseDups).foldl
      (fun (s : State) (p : IfpPurpose) => s.purposeFault p faultUnreachable)
      (match lost.find? (fun p => p.1.isAccess) with
        | some p => w.fabricErr faultUnreachable node p.2
        | none => w)) node 0) node 0 := by
    simp only [State.connLost, if_neg (show (0 : Nat) ≠ 2 by decide), if_neg (show (0 : Nat) ≠ 1 by decide), List.map_nil,
      List.append_nil]
    rfl
  rw [heq, hnone]
  dsimp only
  rw [hfaults, hcoll, hlast]

theorem exec_noRouteTimeout_of_plain (hup : s.Up) (hs : s.Sound) (hroute : s.routeGroup node = none)
    (hfound : ∃ x ∈ s.fab.tx, x.node = node ∧ x.cls = 0) (hplain : ∀ u ∈ (s.connTx node 0).unacked, u.purpose = .plain)
    (hcolls : s.coll.colls = []) (hgrad : s.gradWaiters node = []) (hring : s.ringWaiters node = []) :
    ∃ t, exec (.noRouteTimeout node 0) s = .next t ∧ (t.connTx node 0).unacked = [] ∧
      (t.connTx node 0).epoch = ((s.connTx node 0).epoch + 1) % 256 ∧ t.fld Reg.ifpLostNode 15 0 = node % 2 ^ 16 ∧
      t.fld Reg.ifpLostNode 31 16 = min (s.fld Reg.ifpLostNode 31 16 + 1) (2 ^ 16 - 1) ∧ t.mem = s.mem ∧ t.cmd = s.cmd := by
  obtain ⟨hnode, hcls⟩ := State.connTx_spec (s := s) (node := node) (cls := 0)
  have hset : (s.connRenewed node 0).connTx node 0 = { s.connTx node 0 with
      epoch := ((s.connTx node 0).epoch + 1) % 256, seq := 0, unacked := [] } := State.connTx_setConnTx ⟨hnode, hcls⟩
  have hany : (s.fab.tx.any fun c => c.node = node ∧ c.cls = 0) = true :=
    List.any_eq_true.2 (let ⟨x, hx, h⟩ := hfound; ⟨x, hx, decide_eq_true h⟩)
  have hfld (hi lo : Nat) : (s.connRenewed node 0).fld Reg.ifpLostNode hi lo =
      ((s.setFld Reg.ifpLostNode 15 0 node).addSat Reg.ifpLostNode 31 16 1).fld Reg.ifpLostNode hi lo :=
    State.fld_congr (State.reg_congr (by simp [State.connRenewed]))
  refine ⟨s.connRenewed node 0, ?_, by rw [hset], by rw [hset], ?_, ?_, by simp [State.connRenewed], by simp [State.connRenewed]⟩
  · rw [exec_noRouteTimeout, execNoRouteTimeout, hup.when, if_pos ⟨by rw [hroute]; rfl, hany⟩,
      State.connLost_of_plain hplain hcolls hgrad hring]
  · rw [hfld, State.addSat, State.fld_setFld_below hs.setFld (by decide) (by decide) (by decide) (by decide)]
    exact State.fld_setFld_same hs (by decide) (by decide)
  · rw [hfld, State.fld_addSat_same hs.setFld (by decide) (by decide),
      State.fld_setFld_above hs (by decide) (by decide) (by decide)]

end Sys2Proof.Machine
end

section
/-! PROOF. Frames of the fabric, each in its turn, and the timers of its connections (11 R295 to R299, R303, R304). -/

namespace Sys2Proof.Machine

/-- Settles O57: frames that come in their turn take effect as the state they arrive in says; the rest are frames and timers
of one connection. -/
theorem fabricFramesTakePlace : Obligations.FabricFramesTakePlace := by
  unfold Obligations.FabricFramesTakePlace
  refine ⟨fun s n f r hs hc h => ⟨exec_write_of_hbm hc h hs, exec_readReq_of_hbm hc h, fun x m c ht => ?resp,
    fun i ht => exec_ifpTallyAdd_of_alone hc h hs ht, fun i w ht => exec_watch_of_unmet hc h ht,
    fun c ht => exec_watchNotify_of_found hc h hs ht, exec_watchCancel_of_turn hc h, fun x i ht => exec_sched_of_still hc h ht,
    fun x m c ht => ?error, exec_control_of_turn hc h⟩, fun s n m k f r w hs hc ht => exec_ifpAck_of_new hc ht,
    fun s n f c hs hc hconn hepoch => ?answers, fun s node cls c hup hs hconn => ?timers⟩
  case resp => exact exec_readResp_of_last hc h ht
  case error => exact exec_ifpError_of_read hc h hs ht
  case answers =>
    subst hconn
    exact ⟨fun ht => exec_ifpAck_of_plain hc ht hepoch, fun u ht => exec_ifpNack_of_one hs hc ht hepoch,
      fun ht => exec_cnp_of_quiet hc ht hepoch⟩
  case timers =>
    subst hconn
    refine ⟨fun r => exec_ackTimer_of_due hup, fun u => exec_retransmissionTimeout_of_one hup hs, fun hcls => ?_,
      exec_rateIncrease_of_conn hup⟩
    subst hcls
    exact exec_noRouteTimeout_of_plain hup hs

end Sys2Proof.Machine
end

section
/-! SUPPORT and PROOF. Queue pairs: requests of the peer in their turn, answers that end commands, rate and retries, and a
context that becomes ready (11 R303, R305 to R308). -/

namespace Sys2Proof.Machine

variable {s t u v : State} {i j n p psn a : Nat} {q : QueuePair} {c : Cmd} {x : Nat × RoceMsg × Nat} {d : List Byte}

theorem exec_send (i psn kind : Nat) (d : List Byte) (ce : Bool) (s : State) :
    exec (.send i psn kind d ce) s = execSend i psn kind d ce s := rfl

theorem exec_rdmaWrite (i psn kind va rk len : Nat) (d : List Byte) (ce : Bool) (s : State) :
    exec (.rdmaWrite i psn kind va rk len d ce) s = execRdmaWrite i psn kind va rk len d ce s := rfl

theorem exec_rdmaReadRequest (i psn va rk len : Nat) (ce : Bool) (s : State) :
    exec (.rdmaReadRequest i psn va rk len ce) s = execRdmaReadRequest i psn va rk len ce s := rfl

theorem exec_nakInvalidRequest (i psn : Nat) (s : State) :
    exec (.nakInvalidRequest i psn) s = execNakInvalidRequest i psn s := rfl

theorem exec_rdmaReadResponse (i : Nat) (last : Bool) (d : List Byte) (ce : Bool) (s : State) :
    exec (.rdmaReadResponse i last d ce) s = execRdmaReadResponse i last d ce s := rfl

theorem exec_roceAcknowledge (i psn kind : Nat) (s : State) :
    exec (.roceAcknowledge i psn kind) s = execRoceAcknowledge i psn kind s := rfl

theorem exec_roceAckTimeout (i : Nat) (s : State) : exec (.roceAckTimeout i) s = execRoceAckTimeout i s := rfl

theorem exec_qpReady (i : Nat) (s : State) : exec (.qpReady i) s = execQpReady i s := rfl

/-! ### A queue pair whose port is up (R305) -/

/-- Queue pair `i` is `q`, ready, and its port is an Ethernet port that is up. -/
structure State.Serves (s : State) (i : Nat) (q : QueuePair) : Prop where
  up : s.Up
  found : s.qp i = some q
  port : fieldAt q.ctx 7 1 < 64
  linkUp : s.fld (Reg.linkState (fieldAt q.ctx 7 1)) 31 29 = 2
  mode : 2 ≤ s.fld (Reg.linkCfg (fieldAt q.ctx 7 1)) 31 30

theorem State.Serves.index (h : s.Serves i q) : q.index = i := by
  have hfound := List.find?_some h.found
  simp only [decide_eq_true_eq] at hfound
  exact hfound.1

theorem State.Serves.onQp (h : s.Serves i q) {f : QueuePair → State → State} : s.onQp i false f = f q s := by
  rw [State.onQp, h.up.when, h.found]
  exact h.up.onE100 h.port h.linkUp h.mode

/-- A request packet that has the PSN awaited is taken. -/
theorem State.Serves.inOrder (h : s.Serves i q) {f : State → State} : s.inOrder q q.rqPsn f =
    f (s.updQp i fun q => { q with nakSent := false }) := by
  rw [State.inOrder, if_pos rfl, h.index]

theorem exec_send_of_only (h : s.Serves i q) (hv : v = s.updQp i fun q => { q with nakSent := false })
    (hfree : bit (fieldAt (s.bytesAt (recvDescriptor q) 16) 12 4) 31 = 0)
    (hlen : 0 < fieldAt (s.bytesAt (recvDescriptor q) 16) 8 4)
    (hfits : d.length ≤ fieldAt (s.bytesAt (recvDescriptor q) 16) 8 4)
    (hu : u = (v.nextPsn i 1).roceStore i (2 * q.rqPsn) (fieldAt (s.bytesAt (recvDescriptor q) 16) 0 8) d)
    {w : State} (hw : w = (u.updQp i fun q => { q with recvLen := 0, recvIdx := (q.recvIdx + 1) % 2 ^ fieldAt q.ctx 52 1 }).roceStore
      i (2 * q.rqPsn + 1) (recvDescriptor q + 12) (leBytes 4 (d.length % 2 ^ 31 + 2 ^ 31))) :
    exec (.send i q.rqPsn 3 d false) s =
      .next (if bit (fieldAt q.ctx 53 1) 0 = 1 then w.tallyAdd (fieldAt q.ctx 54 2) 1 else w) := by
  have hbytes : v.bytesAt (recvDescriptor q) 16 = s.bytesAt (recvDescriptor q) 16 := by rw [hv]; rfl
  rw [exec_send, execSend, h.onQp, h.inOrder, ← hv]
  simp only [State.recvSend, h.index, hbytes, hfree, or_true, decide_true, Bool.true_and, if_true, Nat.zero_add, Nat.add_zero,
    show decide (0 = 1) = false from rfl, decide_eq_false (show ¬ fieldAt (s.bytesAt (recvDescriptor q) 16) 8 4 = 0 by omega),
    Bool.or_self, Bool.false_eq_true, if_false, if_neg (Nat.not_lt.2 hfits), ← hu, ← hw]

theorem exec_rdmaWrite_of_only (h : s.Serves i q) (hv : v = s.updQp i fun q => { q with nakSent := false }) {va rk len : Nat}
    (hok : s.windowOk va len rk 0 = true) (hfits : d.length ≤ len) : exec (.rdmaWrite i q.rqPsn 3 va rk len d false) s =
      .next (((v.updQp i fun q => { q with recvWrite := none }).nextPsn i 1).roceStore i (2 * q.rqPsn + 1) va d) := by
  have hok' : v.windowOk va len rk 0 = true := by rw [hv]; exact hok
  rw [exec_rdmaWrite, execRdmaWrite, h.onQp, h.inOrder, ← hv]
  simp only [or_true, decide_true, if_true, hok', Bool.not_true, Bool.and_false, Bool.false_eq_true, if_false,
    if_neg (Nat.not_lt.2 hfits), show ofBool true = 1 from rfl]

theorem exec_rdmaReadRequest_of_permitted (h : s.Serves i q) (hv : v = s.updQp i fun q => { q with nakSent := false })
    {va rk len : Nat} (hok : s.windowOk va len rk 1 = true) : exec (.rdmaReadRequest i q.rqPsn va rk len false) s =
      .next ((v.nextPsn i (max 1 (ceilDiv len (mtuOf q)))).roceLoad i q.rqPsn va len) := by
  have hok' : v.windowOk va len rk 1 = true := by rw [hv]; exact hok
  rw [exec_rdmaReadRequest, execRdmaReadRequest, h.onQp, h.inOrder, ← hv]
  simp only [hok', Bool.not_true, Bool.false_eq_true, if_false]

theorem exec_nakInvalidRequest_of_port (h : s.Serves i q) : exec (.nakInvalidRequest i psn) s =
    .next (s.rocePost (.nakInvalid i psn)) := by
  rw [exec_nakInvalidRequest, execNakInvalidRequest, h.onQp]

/-! ### The only queue pair: answers of its peer (R305, R307) -/

/-- The state with one queue pair left. -/
def State.withQp (s : State) (q : QueuePair) : State := { s with fab := { s.fab with qps := [q] } }

theorem State.updQp_of_only (hq : s.fab.qps = [q]) (hi : q.index = i) {f : QueuePair → QueuePair} :
    s.updQp i f = s.withQp (f q) := by
  rw [State.updQp, hq, List.map_singleton, if_pos hi, State.withQp]

theorem State.qp_of_only (hq : s.fab.qps = [q]) (hi : q.index = i) (hready : q.state = 1) : s.qp i = some q := by
  rw [State.qp, hq, List.find?_singleton, if_pos (by simp [hi, hready])]

/-- A PSN is not after itself. -/
theorem psn_self_below : (psn + 2 ^ 24 - psn) % 2 ^ 24 < 2 ^ 23 := by
  rw [Nat.add_sub_cancel_left]
  decide

theorem State.cmdOf_withQp : (s.withQp q).cmdOf n = s.cmdOf n := rfl

/-- A segment of which all bytes are at hand leaves none to read. -/
theorem piecesFrom_whole {y : Segment} (h : 0 < y.2.2) : piecesFrom [y] y.2.2 = some [] := by
  obtain ⟨a, b, n⟩ := y
  cases n with
  | zero => exact absurd h (Nat.lt_irrefl 0)
  | succ n => simp [piecesFrom]

/-- A CHECKSUM whose bytes are all at hand ends with their CRC-64 and number. -/
theorem State.memoryData_of_checksum (hop : c.opcode = 0x0204) (hlen : c.buf.length = c.par 40 8) (hpos : 0 < c.par 40 8) :
    s.memoryData c = s.finish c.id (Outcome.ok (crc64 c.buf + c.par 40 8 * 2 ^ 64)) := by
  have hpieces : piecesFrom (sources c) c.buf.length = some [] := by
    rw [sources, if_pos hop, hlen]
    exact piecesFrom_whole (y := (c.par 32 8, 0, c.par 40 8)) hpos
  rw [State.memoryData, hpieces]
  simp only [State.gather, State.gathered, if_pos hop, hlen]

/-- The last response of the only read outstanding completes the CHECKSUM it is for. -/
theorem exec_rdmaReadResponse_of_last (h : s.Serves i q) (hq : s.fab.qps = [q]) (hx : q.unacked = [x])
    (hread : x.2.1.isRead = true) (hc : s.cmdOf x.2.2 = some c) (hphase : c.phase = .waiting) (haux : c.aux = [2])
    (hop : c.opcode = 0x0204) (hlen : (c.buf ++ d).length = c.par 40 8) (hpos : 0 < c.par 40 8) :
    ∃ t, exec (.rdmaReadResponse i true d false) s = .next t ∧
      t.Ended x.2.2 (Outcome.ok (crc64 (c.buf ++ d) + c.par 40 8 * 2 ^ 64)) ∧ (∀ y ∈ t.fab.qps, y.unacked = []) ∧
      t.mem = s.mem := by
  let q' : QueuePair := { q with unacked := [], retries := 0, rnrRetries := 0 }
  have hid : c.id = x.2.2 := by simpa using List.find?_some hc
  let w := (s.withQp q').updCmd x.2.2 fun y => { y with buf := c.buf ++ d }
  have hw : w.cmdOf x.2.2 = some { c with buf := c.buf ++ d } :=
    State.cmdOf_updCmd (f := fun y => { y with buf := c.buf ++ d }) rfl (State.cmdOf_withQp.trans hc)
  have hacked : s.roceAcked q x.1 = s.withQp q := by
    simp only [State.roceAcked, hx, List.filter_cons, hread, Bool.not_true, Bool.and_false, Bool.false_eq_true, if_false,
      List.filter_nil, Bool.not_false, if_true, List.isEmpty_nil, List.map_nil, List.eraseDups_nil, State.roceSettle,
      List.foldl_nil, State.updQp_of_only hq rfl]
    rw [← hx]
  have htaken : (s.withQp q).updQp i (fun q => { q with
      unacked := q.unacked.erase x
      retries := 0
      rnrRetries := 0 }) = s.withQp q' := by
    rw [State.updQp_of_only (q := q) rfl h.index, hx]
    simp [State.withQp, q']
  have hdata : w.memoryData { c with buf := c.buf ++ d } =
      w.finish x.2.2 (Outcome.ok (crc64 (c.buf ++ d) + c.par 40 8 * 2 ^ 64)) := by
    rw [State.memoryData_of_checksum (c := { c with buf := c.buf ++ d }) hop hlen hpos, ← hid]
    rfl
  refine ⟨w.finish x.2.2 (Outcome.ok (crc64 (c.buf ++ d) + c.par 40 8 * 2 ^ 64)), ?_, State.finish_ended hw, ?_,
    by simp [w, State.withQp]⟩
  · rw [exec_rdmaReadResponse, execRdmaReadResponse, h.onQp, ← hdata]
    have hwaits : ¬ (c.phase ≠ .waiting ∨ c.aux ≠ [2]) := by simp [hphase, haux]
    simp only [hx, List.find?_cons, hread, hacked, if_true, htaken, State.cmdOf_withQp, hc, if_neg hwaits, hid, w]
  · simp [w, State.withQp, q']

/-- The acknowledgement of the only operation outstanding ends the command it is for. -/
theorem exec_roceAcknowledge_of_last {r : Nat} (h : s.Serves i q) (hq : s.fab.qps = [q]) (hx : q.unacked = [x])
    (hread : x.2.1.isRead = false) (hc : s.cmdOf x.2.2 = some c) (hphase : c.phase = .waiting) (haux : c.aux = [1, r])
    (hopen : s.purposeOpen (.cmd x.2.2) = false) : ∃ t, exec (.roceAcknowledge i x.1 0) s = .next t ∧
      t.Ended x.2.2 (Outcome.ok r) ∧ (∀ y ∈ t.fab.qps, y.unacked = []) ∧ t.mem = s.mem := by
  let q' : QueuePair := { q with unacked := [], retries := 0, rnrRetries := 0 }
  have hclosed : (s.withQp q').purposeOpen (.cmd x.2.2) = false := hopen
  have hended : (s.withQp q').purposeAcked (.cmd x.2.2) = (s.withQp q').finish x.2.2 (Outcome.ok r) := by
    simp only [State.purposeAcked, hclosed, Bool.false_eq_true, if_false, State.cmdOf_withQp, hc, hphase, haux]
  have hacked : s.roceAcked q x.1 = (s.withQp q').finish x.2.2 (Outcome.ok r) := by
    have hsettle : (s.withQp q').roceSettle [x.2.2].eraseDups = (s.withQp q').finish x.2.2 (Outcome.ok r) := by
      have hnone : ((s.withQp q').fab.qps.any fun y => y.unacked.any fun u => u.2.2 = x.2.2) = false := rfl
      rw [show [x.2.2].eraseDups = [x.2.2] by simp [List.eraseDups_cons], State.roceSettle, List.foldl_cons, List.foldl_nil,
        hnone, ← hended]
      rfl
    rw [← hsettle]
    simp only [State.roceAcked, State.updQp_of_only hq rfl, hx, List.filter_cons, psn_self_below, decide_true, hread, Bool.not_false,
      Bool.and_self, if_true, Bool.not_true, Bool.false_eq_true, if_false, List.filter_nil, List.isEmpty_cons, List.map_cons,
      List.map_nil]
    rfl
  refine ⟨(s.withQp q').finish x.2.2 (Outcome.ok r), ?_, State.finish_ended (State.cmdOf_withQp.trans hc),
    by simp [State.withQp, q'], by simp [State.withQp]⟩
  rw [exec_roceAcknowledge, execRoceAcknowledge, h.onQp, ← hacked]
  rfl

/-- A CNP cuts the rate of its queue pair, rounded down in units of 1/8 Gb/s (log 30). -/
theorem exec_roceAcknowledge_of_cnp (h : s.Serves i q) (hq : s.fab.qps = [q])
    (hcut : q.cutYet = true → q.lastCut + 10 ≤ s.micros) : ∃ t, exec (.roceAcknowledge i psn 5) s = .next t ∧
      (∀ y ∈ t.fab.qps, y.rate = max (q.rate * 7 / 8) 8 ∧ y.lastCut = s.micros) ∧ t.mem = s.mem ∧ t.regs = s.regs := by
  have hfree : ¬ (q.cutYet = true ∧ s.micros < q.lastCut + 10) := fun hlate => Nat.not_lt.2 (hcut hlate.1) hlate.2
  refine ⟨s.withQp { q with rate := max (q.rate * 7 / 8) 8, lastCut := s.micros, cutYet := true }, ?_, by simp [State.withQp],
    rfl, rfl⟩
  rw [exec_roceAcknowledge, execRoceAcknowledge, h.onQp]
  simp only [State.qpCut, if_neg hfree, State.updQp_of_only hq rfl]

/-- Go-back-N with one request outstanding, of the queue pair itself: it is sent again. -/
theorem State.roceAgain_of_one (hfound : s.qp i = some q) (hx : q.unacked = [x]) (hqp : x.2.1.qp = i) :
    s.roceAgain i x.1 = s.roceEmit q x.2.1 := by
  simp only [State.roceAgain, hfound, hx, List.filter_cons, psn_self_below, decide_true, if_true, List.filter_nil, List.foldl_cons,
    List.foldl_nil, State.rocePost, hqp]

/-- A timeout sends the only request outstanding again while its retries last. -/
theorem exec_roceAckTimeout_of_one (h : s.Serves i q) (hq : s.fab.qps = [q]) (hready : q.state = 1) (hx : q.unacked = [x])
    (hqp : x.2.1.qp = i) (hlimit : q.retries < bits (fieldAt q.ctx 11 1) 2 0) : ∃ t, exec (.roceAckTimeout i) s = .next t ∧
      t.fab.roceOut = s.fab.roceOut ++ [x.2.1] ∧ (∀ y ∈ t.fab.qps, y.retries = q.retries + 1) ∧ t.mem = s.mem := by
  let q' : QueuePair := { q with retries := q.retries + 1 }
  have hport : (s.withQp q').portUp (fieldAt q'.ctx 7 1) = true := by
    have hmode : 2 ≤ (s.withQp q').fld (Reg.linkCfg (fieldAt q'.ctx 7 1)) 31 30 := h.mode
    have hup : (s.withQp q').fld (Reg.linkState (fieldAt q'.ctx 7 1)) 31 29 = 2 := h.linkUp
    simp only [State.portUp, hmode, hup, decide_true, Bool.and_self]
  have hfound : (s.withQp q').qp i = some q' := State.qp_of_only rfl h.index hready
  have hagain : s.roceRetry q x.1 false = (s.withQp q').roceEmit q' x.2.1 := by
    have hupd : s.updQp i (fun q => { q with retries := q.retries + 1 }) = s.withQp q' := State.updQp_of_only hq h.index
    rw [← State.roceAgain_of_one hfound (show q'.unacked = [x] from hx) hqp, ← hupd]
    simp only [State.roceRetry, Bool.false_eq_true, if_false, if_neg (Nat.not_le.2 hlimit), h.index]
  refine ⟨(s.withQp q').roceEmit q' x.2.1, ?_, ?_, ?_, ?_⟩
  · rw [exec_roceAckTimeout, execRoceAckTimeout, h.up.when, h.found]
    simp only [hx, hagain]
  all_goals rw [State.roceEmit, if_pos hport]
  · rfl
  · simp [State.withQp, q']
  · rfl

/-! ### A context that becomes ready (R306) -/

/-- A step that leaves the state for every element of a list leaves it over the list. -/
theorem foldl_fixed_of_mem {α β : Type} {f : α → β → α} {a : α} {l : List β} (h : ∀ b ∈ l, f a b = a) : l.foldl f a = a := by
  induction l with
  | nil => rfl
  | cons b l ih =>
    obtain ⟨hb, hl⟩ := List.forall_mem_cons.1 h
    rw [List.foldl_cons, hb, ih hl]

/-- What a write does to queue pair `j`. -/
def State.qpSeen (s : State) (a n j : Nat) : State :=
  if s.qpContext j + 2 < a ∨ a + n ≤ s.qpContext j + 2 ∨ s.qpIsReady j then s
  else if s.byteAt (s.qpContext j + 2) = 1 then s.qpReady j
  else if s.byteAt (s.qpContext j + 2) = 0 then
    { s with fab := { s.fab with qps := s.fab.qps.filter fun x => x.index ≠ j } }
  else s

theorem State.qpWritten_eq : s.qpWritten a n = (List.range s.qpCount).foldl (fun s j => s.qpSeen a n j) s := rfl

theorem State.qpSeen_of_ready (h : s.qpIsReady j = true) : s.qpSeen a n j = s := by
  rw [State.qpSeen, if_pos (.inr (.inr h))]

/-- A write of the STATE byte of one context leaves the other queue pairs. -/
theorem State.qpSeen_other (hij : j ≠ i) : s.qpSeen (s.qpContext i + 2) 1 j = s := by
  rw [State.qpSeen, if_pos]
  simp only [State.qpContext]
  omega

theorem State.qpIsReady_qpReady : (s.qpReady i).qpIsReady i = true := by
  simp [State.qpIsReady, State.qpReady]

theorem State.qpContext_qpReady : (s.qpReady i).qpContext j = s.qpContext j := rfl

/-- A write of STATE 1 to a context that is not ready makes the device read it. -/
theorem State.qpWritten_of_state (hi : i < s.qpCount) (hready : s.qpIsReady i = false) (hone : s.byteAt (s.qpContext i + 2) = 1) :
    s.qpWritten (s.qpContext i + 2) 1 = s.qpReady i := by
  obtain ⟨l, r, hrange, hl⟩ := List.eq_append_cons_of_mem (List.mem_range.2 hi)
  have hread : s.qpSeen (s.qpContext i + 2) 1 i = s.qpReady i := by
    have hin : ¬ (s.qpContext i + 2 < s.qpContext i + 2 ∨ s.qpContext i + 2 + 1 ≤ s.qpContext i + 2 ∨
        s.qpIsReady i = true) := by
      rw [hready]
      simp
    rw [State.qpSeen, if_neg hin, if_pos hone]
  have hrest : r.foldl (fun u j => u.qpSeen (s.qpContext i + 2) 1 j) (s.qpReady i) = s.qpReady i := by
    refine foldl_fixed_of_mem fun j _ => ?_
    by_cases hij : j = i
    · subst hij
      exact State.qpSeen_of_ready State.qpIsReady_qpReady
    · exact State.qpSeen_other (s := s.qpReady i) hij
  have hfirst : l.foldl (fun u j => u.qpSeen (s.qpContext i + 2) 1 j) s = s :=
    foldl_fixed_of_mem fun j hj => State.qpSeen_other fun h => hl (h ▸ hj)
  rw [State.qpWritten_eq, hrange, List.foldl_append, List.foldl_cons, hfirst, hread, hrest]

/-- The byte of STATE of a context stored where the context is not in use. -/
theorem State.storeOpen_state (hi : i < s.qpCount) (hready : s.qpIsReady i = false)
    (hkept : (s.unbacked (s.qpContext i + 2) || s.inClearing (s.qpContext i + 2)) = false) :
    State.storeOpen [1] (s.qpContext i + 2) s = s.putBytes (s.qpContext i + 2) [1] := by
  have hat : s.qpAt (s.qpContext i + 2) = some i := by
    have hctx : s.qpContext i = s.qpContext 0 + 64 * i := by simp only [State.qpContext]; omega
    exact (if_pos (by omega)).trans (congrArg some (by omega))
  have hbyte : s.storeByte (s.qpContext i + 2) 1 = s.putBytes (s.qpContext i + 2) [1] := by
    rw [State.storeByte, if_neg (by simpa using hkept)]
  simp only [State.storeOpen, hat, hready, Bool.false_eq_true, if_false, hbyte]

theorem exec_qpReady_of_hbm (hup : s.Up) (hs : s.Sound) (hi : i < s.qpCount) (hr : regionOf (s.qpContext i + 2) = .hbm)
    (hf : s.memFault (s.qpContext i + 2) 1 = none) (hc : s.Clean) (hpage : s.unbackedPage ((s.qpContext i + 2) / 4096) = false)
    (hready : s.qpIsReady i = false) : ∃ t, exec (.qpReady i) s = .next t ∧ t.qpIsReady i = true ∧
      t.byteAt (s.qpContext i + 2) = 1 ∧ (∀ b, b ≠ s.qpContext i + 2 → t.byteAt b = s.byteAt b) ∧ t.regs = s.regs ∧
      t.tally = s.tally := by
  let w := (s.putBytes (s.qpContext i + 2) [1]).clearPoison (s.qpContext i + 2) 1
  have hpages : (pages (s.qpContext i + 2) 1).any s.unbackedPage = false := by simp [pages, hpage]
  have hb : s.Backed (s.qpContext i + 2) 1 := State.backed_of_memFault hr hf hpages
  have hbyte (b : Nat) : w.byteAt b = if b = s.qpContext i + 2 then 1 else s.byteAt b := by
    refine (State.byteAt_putBytes (a := s.qpContext i + 2) (i := b) (d := [1]) hs).trans ?_
    by_cases heq : b = s.qpContext i + 2
    · rw [if_pos (by simp [heq]), if_pos heq, heq, Nat.sub_self]
      rfl
    · rw [if_neg (by simp only [List.length_singleton]; omega), if_neg heq]
  have hsave : s.saveBytes (s.qpContext i + 2) [1] = (w.qpReady i, none) := by
    have hwritten : w.qpWritten (s.qpContext i + 2) 1 = w.qpReady i :=
      State.qpWritten_of_state (s := w) hi hready (by rw [show w.qpContext i = s.qpContext i from rfl, hbyte, if_pos rfl])
    simp only [State.saveBytes, List.length_singleton, hc.mergeStops, List.foldl_nil, hb.pages, State.clearingHit, hb.copses,
      List.map_nil, List.eraseDups_nil, List.isEmpty_nil, if_true, Bool.false_eq_true, if_false,
      State.storeOpen_state hi hready (hb.kept 0 Nat.one_pos)]
    exact congrArg (·, none) hwritten
  have hstore : s.serveStore (s.qpContext i + 2) [1] = (w.qpReady i, none) := by
    simp only [State.serveStore, List.isEmpty_cons, Bool.false_eq_true, if_false, hr, List.length_singleton, hf,
      State.windowWake_of_hbm hr, hsave]
  refine ⟨w.qpReady i, ?_, State.qpIsReady_qpReady, (hbyte _).trans (if_pos rfl), fun b hb => (hbyte b).trans (if_neg hb), rfl, rfl⟩
  rw [exec_qpReady, execQpReady, hup.when, if_pos hi, hstore]

end Sys2Proof.Machine
end

section
/-! SUPPORT and PROOF. The clock follows its master (11 R309), and the statement about queue pairs and clock. -/

namespace Sys2Proof.Machine

variable {s t : State} {transport domain seq : Nat} {o : Int}

theorem exec_ptpSync (transport domain seq : Nat) (two : Bool) (origin : Nat) (corr : Int) (s : State) :
    exec (.ptpSync transport domain seq two origin corr) s = execPtpSync transport domain seq two origin corr s := rfl

theorem exec_followUp (transport domain seq origin : Nat) (corr : Int) (s : State) :
    exec (.followUp transport domain seq origin corr) s = execFollowUp transport domain seq origin corr s := rfl

theorem exec_ptpDelayResponse (transport domain seq received : Nat) (corr : Int) (s : State) :
    exec (.ptpDelayResponse transport domain seq received corr) s =
      execPtpDelayResponse transport domain seq received corr s := rfl

/-- PTP is enabled for a transport and a domain, on an Ethernet port that is up. -/
structure State.Follows (s : State) (transport domain : Nat) : Prop where
  up : s.Up
  enabled : s.fld Reg.ptpCfg 31 31 = 1
  domain : s.fld Reg.ptpCfg 7 0 = domain
  transport : s.fld Reg.ptpCfg 30 29 = transport
  linkUp : s.fld (Reg.linkState (s.fld Reg.ptpCfg 13 8)) 31 29 = 2
  mode : 2 ≤ s.fld (Reg.linkCfg (s.fld Reg.ptpCfg 13 8)) 31 30

theorem State.Follows.onPtp (h : s.Follows transport domain) {f : State → State} : s.onPtp transport domain f = f s := by
  have hport : s.fld Reg.ptpCfg 13 8 < 64 := bits_lt
  rw [State.onPtp, h.up.when, if_pos ⟨h.enabled, h.domain, h.transport⟩]
  exact h.up.onE100 hport h.linkUp h.mode

/-! ### An offset from the master (R309) -/

theorem unsigned_lt : unsigned 30 o < 2 ^ 30 := by
  rw [unsigned]
  omega

/-- PTP_STATUS once an offset is recorded and the lock follows it: whether 16 good ones have come, or one is far. -/
def State.offsetNoted (s : State) (o : Int) (locks : Bool) : State :=
  if 200 < magnitude o then (s.setFld Reg.ptpStatus 29 0 (unsigned 30 o)).setFld Reg.ptpStatus 31 31 0
  else if locks then (s.setFld Reg.ptpStatus 29 0 (unsigned 30 o)).setFld Reg.ptpStatus 31 31 1
  else s.setFld Reg.ptpStatus 29 0 (unsigned 30 o)

theorem State.offsetNoted_spec (hs : s.Sound) (locks : Bool) :
    (s.offsetNoted o locks).fld Reg.ptpStatus 29 0 = unsigned 30 o ∧
    (200 < magnitude o → (s.offsetNoted o locks).fld Reg.ptpStatus 31 31 = 0) ∧
    (∀ r, r ≠ Reg.ptpStatus → (s.offsetNoted o locks).reg r = s.reg r) ∧ (s.offsetNoted o locks).mem = s.mem ∧
    (s.offsetNoted o locks).time = s.time := by
  have hoffset : (s.setFld Reg.ptpStatus 29 0 (unsigned 30 o)).fld Reg.ptpStatus 29 0 = unsigned 30 o :=
    State.fld_setFld_of_fits hs (by decide) (by decide) unsigned_lt
  have hbelow (x : Nat) : ((s.setFld Reg.ptpStatus 29 0 (unsigned 30 o)).setFld Reg.ptpStatus 31 31 x).fld Reg.ptpStatus 29 0 =
      unsigned 30 o :=
    (State.fld_setFld_below hs.setFld (by decide) (by decide) (by decide) (by decide)).trans hoffset
  unfold State.offsetNoted
  split
  case isTrue hfar =>
    exact ⟨hbelow 0, fun _ => State.fld_setFld_of_fits hs.setFld (by decide) (by decide) (by decide),
      fun r hr => (State.reg_setFld_other hr).trans (State.reg_setFld_other hr), by simp, by simp⟩
  case isFalse hnear =>
    split
    · exact ⟨hbelow 1, fun hfar => absurd hfar hnear,
        fun r hr => (State.reg_setFld_other hr).trans (State.reg_setFld_other hr), by simp, by simp⟩
    · exact ⟨hoffset, fun hfar => absurd hfar hnear, fun r hr => State.reg_setFld_other hr, by simp, by simp⟩

/-- The count of good offsets with one more. -/
def State.goodOffsets (s : State) (o : Int) : Nat := if magnitude o ≤ 50 then s.fab.ptp.goodSyncs + 1 else 0

/-- The clock once an offset is recorded: its time is stepped or slewed. -/
def State.clockMoved (s : State) (o : Int) : PtpSt :=
  if 1000000 < magnitude o then { s.fab.ptp with
    goodSyncs := min (s.goodOffsets o) 16, now := ((s.fab.ptp.now : Int) - 1000 * o).toNat, slew := 0 }
  else { s.fab.ptp with goodSyncs := min (s.goodOffsets o) 16, slew := -(1000 * o) }

theorem State.clockMoved_fields : (s.clockMoved o).pendingSync = s.fab.ptp.pendingSync ∧
    (s.clockMoved o).lastDiff = s.fab.ptp.lastDiff ∧ (s.clockMoved o).delaySeq = s.fab.ptp.delaySeq := by
  unfold State.clockMoved
  split <;> exact ⟨rfl, rfl, rfl⟩

/-- An offset changes PTP_STATUS and the clock. -/
theorem State.ptpOffset_eq : s.ptpOffset o =
    { s.offsetNoted o (decide (16 ≤ s.goodOffsets o)) with fab := { s.fab with ptp := s.clockMoved o } } := by
  unfold State.ptpOffset State.offsetNoted State.clockMoved
  simp only [State.setFld_fields, ← State.goodOffsets.eq_1, decide_eq_true_eq]
  split
  · simp
  · split <;> simp

/-- The clock once a Sync has given its times: the offset is recorded, and a Delay_Req leaves (log 133). -/
theorem State.ptpTimes_spec (hs : s.Sound) (origin received : Nat) (corr : Int) (ht : t = s.ptpTimes origin received corr) :
    t.fab.ptp.pendingSync = none ∧ t.fab.ptp.lastDiff = (received : Int) - (origin : Int) - corr ∧
    t.fld Reg.ptpStatus 29 0 = unsigned 30 ((received : Int) - (origin : Int) - corr - s.fab.ptp.pathDelay) ∧
    (200 < magnitude ((received : Int) - (origin : Int) - corr - s.fab.ptp.pathDelay) → t.fld Reg.ptpStatus 31 31 = 0) ∧
    t.fab.ptp.delayReq = some (s.fab.ptp.delaySeq, t.fab.ptp.now / 1000) ∧
    (∀ r, r ≠ Reg.ptpStatus → t.reg r = s.reg r) ∧ t.mem = s.mem ∧ t.time = s.time := by
  subst ht
  let d : Int := (received : Int) - (origin : Int) - corr
  let w : State := { s with fab := { s.fab with ptp := { s.fab.ptp with lastDiff := d, pendingSync := none } } }
  have hws : w.Sound := 
    ⟨hs.mem, hs.regs, hs.tallies, hs.flash, hs.rings, hs.links, hs.numbers, hs.vregs, hs.elements⟩
  obtain ⟨hpending, hdiff, hseq⟩ := State.clockMoved_fields (s := w) (o := d - s.fab.ptp.pathDelay)
  obtain ⟨hoffset, hfar, hregs, hmem, htime⟩ := State.offsetNoted_spec (o := d - s.fab.ptp.pathDelay) hws
    (decide (16 ≤ w.goodOffsets (d - s.fab.ptp.pathDelay)))
  have htimes : s.ptpTimes origin received corr =
      ({ w.offsetNoted (d - s.fab.ptp.pathDelay) (decide (16 ≤ w.goodOffsets (d - s.fab.ptp.pathDelay))) with
        fab := { w.fab with ptp := w.clockMoved (d - s.fab.ptp.pathDelay) } } : State).delayRequest :=
    congrArg State.delayRequest State.ptpOffset_eq
  rw [htimes]
  exact ⟨hpending, hdiff, hoffset, hfar, congrArg (fun k => some (k, (w.clockMoved (d - s.fab.ptp.pathDelay)).now / 1000)) hseq,
    hregs, hmem, htime⟩

/-! ### PTP messages (R309) -/

/-- A Sync of a one-step master, or the Follow_Up of the Sync kept, gives the times of the Sync. -/
theorem exec_of_syncTimes {i : Instr} {received origin : Nat} {first corr : Int} (h : s.Follows transport domain)
    (hi : i = Instr.ptpSync transport domain seq false origin corr ∧ received = s.fab.ptp.now / 1000 ∧ first = 0 ∨
      i = .followUp transport domain seq origin corr ∧ s.fab.ptp.pendingSync = some (seq, received, first)) :
    exec i s = .next (s.ptpTimes origin received (first + corr)) := by
  rcases hi with ⟨rfl, rfl, rfl⟩ | ⟨rfl, hpending⟩
  · rw [exec_ptpSync, execPtpSync, h.onPtp, Int.zero_add]
    rfl
  · rw [exec_followUp, execFollowUp, h.onPtp, hpending]
    exact congrArg _ (if_pos rfl)

theorem exec_ptpSync_of_twoStep {origin : Nat} {corr : Int} (h : s.Follows transport domain) :
    exec (.ptpSync transport domain seq true origin corr) s = .next { s with
      fab := { s.fab with ptp := { s.fab.ptp with pendingSync := some (seq, s.fab.ptp.now / 1000, corr) } } } := by
  rw [exec_ptpSync, execPtpSync, h.onPtp]
  rfl

theorem exec_ptpDelayResponse_of_sent {sent received : Nat} {corr : Int} (h : s.Follows transport domain)
    (hsent : s.fab.ptp.delayReq = some (seq, sent)) : exec (.ptpDelayResponse transport domain seq received corr) s =
      .next { s with fab := { s.fab with ptp := { s.fab.ptp with
        delayReq := none
        pathDelay := (s.fab.ptp.lastDiff + ((received : Int) - (sent : Int) - corr)) / 2 } } } := by
  rw [exec_ptpDelayResponse, execPtpDelayResponse, h.onPtp, hsent]
  exact congrArg _ (if_pos rfl)

/-! ### Queue pairs and clock -/

/-- Settles O58: requests of a peer in turn, answers to the only queue pair, a context that becomes ready, and the clock. -/
theorem queuePairsAndClockFollow : Obligations.QueuePairsAndClockFollow := by
  unfold Obligations.QueuePairsAndClockFollow
  refine ⟨?requests, ?answers, ?ready, ?clock⟩
  case requests =>
    intro s v i psn p q d hup hq hp hport hlink hmode hpsn hv
    subst hp hpsn
    have h : s.Serves i q := ⟨hup, hq, hport, hlink, hmode⟩
    refine ⟨fun a desc u w ha hdesc hfree hlen hfits hu hw => ?_, fun va rk len => exec_rdmaWrite_of_only h hv,
      fun va rk len => exec_rdmaReadRequest_of_permitted h hv, exec_nakInvalidRequest_of_port h⟩
    subst ha hdesc
    exact exec_send_of_only h hv hfree hlen hfits hu hw
  case answers =>
    intro s i p q hup hq hi hready hp hport hlink hmode
    subst hp
    have h : s.Serves i q := ⟨hup, State.qp_of_only hq hi hready, hport, hlink, hmode⟩
    exact ⟨fun x c d hx hread hc hphase haux hop hlen hpos =>
        exec_rdmaReadResponse_of_last h hq hx hread hc hphase haux hop hlen hpos,
      fun x c r hx hread hc hphase haux hopen => exec_roceAcknowledge_of_last h hq hx hread hc hphase haux hopen,
      fun psn hcut => exec_roceAcknowledge_of_cnp h hq hcut,
      fun x hx hqp hlimit => exec_roceAckTimeout_of_one h hq hready hx hqp hlimit⟩
  case ready =>
    intro s i a hup hs hi ha hr hf hc hpage hready
    subst ha
    exact exec_qpReady_of_hbm hup hs hi hr hf hc hpage hready
  case clock =>
    intro s p tr dom seq corr hup hs henabled hdomain htransport hp hlink hmode
    subst hp
    have h : s.Follows tr dom := ⟨hup, henabled, hdomain, htransport, hlink, hmode⟩
    exact ⟨fun received origin first i hi => ⟨_, exec_of_syncTimes h hi, State.ptpTimes_spec hs origin received _ rfl⟩,
      fun origin => exec_ptpSync_of_twoStep h, fun sent received hsent => exec_ptpDelayResponse_of_sent h hsent⟩

end Sys2Proof.Machine
end

section
/-! PROOF. The state after reset, and what one step does (17 R419; log 10). -/

namespace Sys2Proof.Machine

/-- Settles O2: every part of the state after reset is in its canonical form. -/
theorem resetIsSound : Obligations.ResetIsSound := by
  unfold Obligations.ResetIsSound
  exact ⟨State.reset_sound, rfl⟩

/-- Settles O3: the two cases of the queue. -/
theorem stepRunsTheFrontCommand : Obligations.StepRunsTheFrontCommand := by
  unfold Obligations.StepRunsTheFrontCommand
  refine ⟨fun _ _ _ => rfl, fun s hempty => ?_⟩
  rw [step, hempty]

end Sys2Proof.Machine
end

section
/-! SUPPORT and PROOF. Bytes that a command writes at this node, and PROOF_READ and COUNTERS_READ (18 R423, R426, R436). -/

namespace Sys2Proof.Machine

variable {s t u : State} {n a : Nat} {c : Cmd} {d : List Byte}

theorem exec_proofRead (n : Nat) (s : State) : exec (.proofRead n) s = execProofRead n s := rfl

theorem exec_countersRead (n : Nat) (s : State) : exec (.countersRead n) s = execCountersRead n s := rfl

/-! ### Bytes delivered at this node -/

theorem State.aliasFault_here (hnode : nodeOf a = s.node) : s.aliasFault a = false := by
  simp [State.aliasFault, hnode]

/-- Bytes written to a range of this node that can be written end the command with its result. -/
theorem State.deliver_of_writable {r e : Nat} (hd : d ≠ []) (hnode : nodeOf a = s.node)
    (hrange : s.rangeFault a d.length = none) (hgate : s.rangeGate c [] [(localOf a, d.length)] = none)
    (hsave : s.saveBytes (localOf a) d = (u, none)) : s.deliver c a d r e = u.finish c.id (Outcome.ok r) := by
  have hsome : d.isEmpty = false := List.isEmpty_eq_false_iff.2 hd
  simp only [State.deliver, hsome, State.aliasFault_here hnode, hnode, hrange, hgate, hsave, ne_eq, not_true_eq_false,
    Bool.false_eq_true, if_false]

/-! ### The register region as bytes (R426) -/

theorem regionBytes_length {view : Nat → Nat} {o n : Nat} (h : n % 8 = 0) : (regionBytes view o n).length = n := by
  simp only [regionBytes, List.length_flatten, List.map_map, Function.comp_def, leBytes_length, List.map_const',
    List.length_range, List.sum_replicate_nat]
  omega

theorem State.readBytes_of_rangeOk (h : s.rangeOk c = true) : c.readBytes % 8 = 0 := by
  simp only [State.rangeOk, Bool.and_eq_true, decide_eq_true_eq] at h
  exact h.1.1.1.2

theorem State.deliver_of_region {view : Nat → Nat} {o r e : Nat} (hmult : c.readBytes % 8 = 0) (hpos : 0 < c.readBytes)
    (hnode : nodeOf a = s.node) (hrange : s.rangeFault a c.readBytes = none)
    (hgate : s.rangeGate c [] [(localOf a, c.readBytes)] = none)
    (hsave : s.saveBytes (localOf a) (regionBytes view o c.readBytes) = (u, none)) :
    s.deliver c a (regionBytes view o c.readBytes) r e = u.finish c.id (Outcome.ok r) := by
  have hlen := regionBytes_length (view := view) (o := o) hmult
  exact State.deliver_of_writable (List.ne_nil_of_length_pos (by omega)) hnode (by rwa [hlen]) (by rwa [hlen]) hsave

/-! ### The two reads -/

theorem exec_proofRead_of_image {p : ProofImage} (h : s.Ready n 0x0C03 c) (himage : s.obs.image = some p)
    (hok : s.rangeOk c = true) (hnode : nodeOf (c.par 32 8) = s.node) (hrange : s.rangeFault (c.par 32 8) c.readBytes = none)
    (hgate : s.rangeGate c [] [(localOf (c.par 32 8), c.readBytes)] = none)
    (hsave : s.saveBytes (localOf (c.par 32 8)) (regionBytes p.reg c.readOffset c.readBytes) = (u, none))
    (hpos : 0 < c.readBytes) :
    exec (.proofRead n) s = .next (u.finish n (Outcome.ok (c.readBytes + p.number * 2 ^ 32))) := by
  rw [exec_proofRead, execProofRead, h.run, himage]
  simp only [hok, Bool.not_true, Bool.false_eq_true, if_false,
    State.deliver_of_region (State.readBytes_of_rangeOk hok) hpos hnode hrange hgate hsave, h.id]

theorem exec_countersRead_of_range (h : s.Ready n 0x0C04 c) (hok : s.rangeOk c = true) (hnode : nodeOf (c.par 32 8) = s.node)
    (hpos : 0 < c.readBytes) (hgate : s.rangeGate c [] [(localOf (c.par 32 8), c.readBytes)] = none)
    (ht : t = if bit (c.par 48 1) 0 = 1 then (List.range (c.readBytes / 8)).foldl (fun s i =>
      (regSpans (c.readOffset + 8 * i) 8).foldl State.clearRC s) s else s)
    (hrange : t.rangeFault (c.par 32 8) c.readBytes = none)
    (hgate' : t.rangeGate c [] [(localOf (c.par 32 8), c.readBytes)] = none) (hnode' : t.node = s.node)
    (hsave : t.saveBytes (localOf (c.par 32 8)) (regionBytes s.regView c.readOffset c.readBytes) = (u, none)) :
    exec (.countersRead n) s = .next (u.finish n (Outcome.ok c.readBytes)) := by
  rw [exec_countersRead, execCountersRead, h.run]
  simp only [hok, Bool.not_true, Bool.false_eq_true, if_false, State.snapshot, hnode, ne_eq, hpos.ne', not_false_eq_true,
    and_self, if_true, hgate, ← ht,
    State.deliver_of_region (State.readBytes_of_rangeOk hok) hpos (hnode.trans hnode'.symm) hrange hgate' hsave, h.id]

/-- Settles O52: an image or a snapshot delivered at this node, or the refusal of the command. -/
theorem readsOfProofsAndCounters : Obligations.ReadsOfProofsAndCounters := by
  unfold Obligations.ReadsOfProofsAndCounters
  intro s n c
  refine ⟨fun p u h himage hok hnode hrange hgate hsave hpos =>
      exec_proofRead_of_image h himage hok hnode hrange hgate hsave hpos, fun h himage => ?noImage,
    fun r u h hok hnode hpos hgate hr hrange hgate' hnode' hsave =>
      exec_countersRead_of_range h hok hnode hpos hgate hr hrange hgate' hnode' hsave, fun h hok => ?badRange⟩
  case noImage => rw [exec_proofRead, execProofRead, h.run, himage, h.id]
  case badRange =>
    rw [exec_countersRead, execCountersRead, h.run]
    simp only [hok, Bool.not_false, if_true, h.id]

end Sys2Proof.Machine
end

section
/-! PROOF. A held full reset, and a device without power (17 R415; log 1). -/

namespace Sys2Proof.Machine

variable {s : State} {f : State → State} {c : Instr}

theorem State.whenUp_of_down (h : s.pwr.powered = false ∨ s.pwr.held = true) : s.whenUp f = s := by
  rcases h with hpower | hheld
  · simp [State.whenUp, hpower]
  · simp [State.whenUp, hheld]

/-- A row whose event takes place only in a device that is up leaves one that is not. -/
theorem exec_of_down (h : s.pwr.powered = false ∨ s.pwr.held = true) (hc : exec c s = .next (s.whenUp f)) :
    exec c s = .next s := by
  rw [hc, State.whenUp_of_down h]

/-- Settles O6: each of the rows takes place through `State.whenUp`. -/
theorem nothingMovesInAHeldReset : Obligations.NothingMovesInAHeldReset := by
  unfold Obligations.NothingMovesInAHeldReset
  intro s c hdown hc
  rcases hc with hc | ⟨r, x, rfl | rfl⟩ | ⟨r, x, rfl | rfl⟩ | ⟨x, hc⟩ | ⟨x, y, hc⟩ | ⟨x, y, rfl⟩ | ⟨x, y, rfl⟩ |
    ⟨x, y, z, rfl⟩ | ⟨x, rfl⟩
  case inl =>
    simp only [List.mem_cons, List.not_mem_nil, or_false] at hc
    rcases hc with rfl | rfl | rfl <;> exact exec_of_down hdown rfl
  case inr.inr.inr.inl =>
    rcases hc with rfl | rfl | rfl | rfl | rfl | rfl | rfl | rfl | rfl | rfl | rfl <;> exact exec_of_down hdown rfl
  case inr.inr.inr.inr.inl => rcases hc with rfl | rfl | rfl | rfl | rfl <;> exact exec_of_down hdown rfl
  all_goals exact exec_of_down hdown rfl

end Sys2Proof.Machine
end

section
/-! SUPPORT. Rules of the Collator: a collective changed, a message sent for it, and what its own chunks leave (12 R317 to R320). -/

namespace Sys2Proof.Machine

variable {s t u : State} {n m : Nat} {x y : Coll} {k : ChunkKey} {d : List Byte}

/-! ### The collective of a command -/

theorem State.collOf_congr (h : t.coll.colls = s.coll.colls) : t.collOf n = s.collOf n := by rw [State.collOf, h, State.collOf]

theorem State.collOf_id (h : s.collOf n = some x) : x.id = n := by simpa using List.find?_some h

theorem State.collOf_updColl {f : Coll → Coll} (hf : ∀ x, (f x).id = x.id) :
    (s.updColl m f).collOf n = (s.collOf n).map fun x => if x.id = m then f x else x := by
  have hid : ((fun x : Coll => decide (x.id = n)) ∘ fun x => if x.id = m then f x else x) = fun x => decide (x.id = n) := by
    funext x
    simp only [Function.comp]
    split <;> simp [hf]
  rw [State.collOf, State.updColl, List.find?_map, hid, State.collOf]

theorem State.collOf_updColl_same {f : Coll → Coll} (h : s.collOf n = some x) (hf : (f x).id = n) :
    (s.updColl n f).collOf n = some (f x) := by
  unfold State.collOf at h
  simp only [State.collOf, State.updColl]
  generalize s.coll.colls = l at h ⊢
  induction l with
  | nil => cases h
  | cons z l ih =>
    simp only [List.map_cons, List.find?_cons] at h ⊢
    by_cases hz : z.id = n
    · simp only [hz, decide_true, Option.some.injEq] at h
      subst h
      simp [hz, hf]
    · simp only [hz, decide_false] at h
      simpa [hz] using ih h

/-! ### A message sent -/

/-- A message of a class, by a link, is noted in the Collator; its frames change only the links and their traffic counters. -/
theorem collSendVia_same (via : Option Nat) (cls axis rank : Nat) (m : CollMsg) :
    SameButLinks (s.noteSent [(rank, axis, m)]) (s.collSendVia via cls axis rank m) := by
  unfold State.collSendVia
  dsimp only
  split
  · exact (SameButLinks.fab _).trans (schedFrames_same _ _ _ _ _ _ _ _ _ _)
  · exact ifpMessage_same _ _ _ _ _ _ _

/-! ### A collective while it runs -/

/-- The second is the first after some of its chunks have been sent, used or held. -/
def Coll.Runs (x y : Coll) : Prop :=
  y = { x with
    retained := y.retained, queued := y.queued, crcs := y.crcs, toWrite := y.toWrite, unchecked := y.unchecked,
    asked := y.asked, written := y.written, reRequests := y.reRequests, flags := y.flags }

theorem Coll.Runs.refl (x : Coll) : x.Runs x := rfl

theorem Coll.Runs.trans {z : Coll} (h : x.Runs y) (h' : y.Runs z) : x.Runs z := by
  unfold Coll.Runs at h h' ⊢
  rw [h] at h'
  exact h'

theorem Coll.Runs.fields (h : x.Runs y) : y.id = x.id ∧ y.slot = x.slot ∧ y.share = x.share ∧ y.input = x.input ∧
    y.expect = x.expect := by
  unfold Coll.Runs at h
  rw [h]
  exact ⟨rfl, rfl, rfl, rfl, rfl⟩

/-- The chunks that a collective waits for follow from what it was started with. -/
theorem Coll.Runs.awaits (h : x.Runs y) : y.awaits = x.awaits := by
  unfold Coll.Runs at h
  rw [h]
  rfl

/-- What the work of the Collator on the chunks of collectives leaves: memory, commands and tallies, and of a collective all
that it was started with. -/
structure ChunksMove (s t : State) : Prop where
  mem : t.mem = s.mem
  cmd : t.cmd = s.cmd
  tally : t.tally = s.tally
  colls : ∀ n x, s.collOf n = some x → ∃ y, t.collOf n = some y ∧ x.Runs y

theorem ChunksMove.of_eq (hm : t.mem = s.mem) (hc : t.cmd = s.cmd) (ht : t.tally = s.tally)
    (hl : t.coll.colls = s.coll.colls) : ChunksMove s t :=
  ⟨hm, hc, ht, fun _ x h => ⟨x, (State.collOf_congr hl).trans h, .refl x⟩⟩

theorem ChunksMove.refl (s : State) : ChunksMove s s := .of_eq rfl rfl rfl rfl

theorem ChunksMove.trans (h : ChunksMove s t) (h' : ChunksMove t u) : ChunksMove s u :=
  ⟨h'.mem.trans h.mem, h'.cmd.trans h.cmd, h'.tally.trans h.tally, fun n x hx => by
    obtain ⟨y, hy, hxy⟩ := h.colls n x hx
    obtain ⟨z, hz, hyz⟩ := h'.colls n y hy
    exact ⟨z, hz, hxy.trans hyz⟩⟩

theorem ChunksMove.foldl {α : Type} {f : State → α → State} (hf : ∀ u a, ChunksMove u (f u a)) (l : List α) (s : State) :
    ChunksMove s (l.foldl f s) := by
  induction l generalizing s with
  | nil => exact .refl s
  | cons a l ih => exact (hf s a).trans (ih _)

theorem ChunksMove.ite {p : Prop} [Decidable p] (ht : ChunksMove s t) (hu : ChunksMove s u) :
    ChunksMove s (if p then t else u) := by
  split
  · exact ht
  · exact hu

theorem updColl_moves {f : Coll → Coll} (hf : ∀ x : Coll, x.Runs (f x)) : ChunksMove s (s.updColl m f) :=
  ⟨rfl, rfl, rfl, fun n x h => by
    refine ⟨_, (State.collOf_updColl fun x => (hf x).fields.1).trans (congrArg (Option.map _) h), ?_⟩
    dsimp only
    split
    · exact hf x
    · exact .refl x⟩

theorem collSendVia_moves {via : Option Nat} {cls axis rank : Nat} {q : CollMsg} :
    ChunksMove s (s.collSendVia via cls axis rank q) :=
  have h := collSendVia_same (s := s) via cls axis rank q
  .of_eq h.mem h.cmd h.tally (by rw [h.coll]; rfl)

theorem transmit_moves : ChunksMove s (s.transmit x k d) := (updColl_moves fun _ => by exact rfl).trans collSendVia_moves

theorem sendChunk_moves : ChunksMove s (s.sendChunk x k d) := .ite transmit_moves (updColl_moves fun _ => by exact rfl)

theorem writeChunk_moves : ChunksMove s (s.writeChunk x k d) := by
  unfold State.writeChunk
  refine .trans ?_ (updColl_moves fun _ => rfl)
  split
  · exact .of_eq rfl rfl rfl rfl
  · exact .refl s

theorem useData_moves : ChunksMove s (s.useData x k d) :=
  (ChunksMove.ite writeChunk_moves (.refl s)).trans (.ite sendChunk_moves (.refl _))

theorem reduceChunk_moves {acc : Option (List Byte)} : ChunksMove s (s.reduceChunk x k acc) :=
  (updColl_moves fun _ => by exact rfl).trans (.ite useData_moves sendChunk_moves)

theorem nextRound_moves : ChunksMove s (s.nextRound n) := by
  unfold State.nextRound
  split
  · exact .refl s
  · exact (updColl_moves fun _ => by exact rfl).trans (.foldl (fun _ _ => transmit_moves) _ _)

/-- A collective that waits for chunks does not end. -/
theorem collSettle_moves (hx : s.collOf n = some x) (hwaits : x.expect ≠ []) : ChunksMove s (s.collSettle n) := by
  have hmoves := nextRound_moves (s := s) (n := n)
  obtain ⟨y, hy, hxy⟩ := hmoves.colls n x hx
  obtain ⟨-, -, -, -, hexpect⟩ := hxy.fields
  have hmore : y.expect.isEmpty = false := List.isEmpty_eq_false_iff.2 (hexpect ▸ hwaits)
  have heq : s.collSettle n = s.nextRound n := by
    simp only [State.collSettle, hy, hmore, Bool.not_false, Bool.or_true, Bool.true_or, if_true]
  exact heq ▸ hmoves

/-! ### What waits for a collective goes on -/

/-- A gather that waits for a collective going on leaves the rest of the state. -/
theorem State.wakeGathers_fields : s.wakeGathers.mem = s.mem ∧ s.wakeGathers.tally = s.tally ∧ s.wakeGathers.coll = s.coll ∧
    s.wakeGathers.tens = s.tens ∧ s.wakeGathers.regs = s.regs := ⟨rfl, rfl, rfl, rfl, rfl⟩

/-- A waiting gather resumed: what `State.wakeGathers` does with a command. -/
def State.gatherWoken (s : State) (c : Cmd) : Cmd :=
  match c.aux with
  | [14, x] =>
    if c.phase = .waiting ∧ ! s.coll.colls.any fun y => y.id = x ∧ (y.slot = none ∨ y.toWrite ≠ [])
    then { c with phase := .dispatched, aux := [] } else c
  | _ => c

theorem State.wakeGathers_cmds : s.wakeGathers.cmd.cmds = s.cmd.cmds.map s.gatherWoken := rfl

theorem State.gatherWoken_id {c : Cmd} : (s.gatherWoken c).id = c.id := by
  unfold State.gatherWoken
  split
  · split <;> rfl
  · rfl

theorem State.gatherWoken_of_other {c : Cmd} (h : c.phase ≠ .waiting ∨ ∀ i, c.aux ≠ [14, i]) : s.gatherWoken c = c := by
  unfold State.gatherWoken
  split
  next i haux => exact if_neg fun hwaits => h.elim (fun hp => hp hwaits.1) fun ha => ha i haux
  next => rfl

theorem State.cmdOf_wakeGathers {c : Cmd} (h : s.cmdOf n = some c) (hother : c.phase ≠ .waiting ∨ ∀ i, c.aux ≠ [14, i]) :
    s.wakeGathers.cmdOf n = some c := by
  have hid : ((fun d : Cmd => decide (d.id = n)) ∘ s.gatherWoken) = fun d => decide (d.id = n) := by
    funext d
    simp only [Function.comp, State.gatherWoken_id]
  rw [State.cmdOf] at h
  rw [State.cmdOf, State.wakeGathers_cmds, List.find?_map, hid, h, Option.map_some, State.gatherWoken_of_other hother]

end Sys2Proof.Machine
end

section
/-! SUPPORT and PROOF. A collective at its start: refused, aborted, waiting for its slot and its share, or begun (12 R314, R317,
R329). -/

namespace Sys2Proof.Machine

variable {s t u v : State} {n k : Nat} {c : Cmd} {x y : Coll} {a : Tensor} {env : Env}

/-- A collective with its slot and its share taken and IN read: it waits for its chunks. -/
def Coll.started (x : Coll) (slot share : Nat) (input : List Byte) : Coll :=
  { x with
    slot := some slot
    share := share
    input := input
    expect := { x with input := input }.awaits
    toWrite := { x with input := input }.writesOut }

theorem Coll.awaits_started {slot share : Nat} {input : List Byte} :
    (x.started slot share input).awaits = (x.started slot share input).expect := rfl

/-- The state in which a collective begins: marks on what it writes, the collective started, its command waiting. -/
def State.collStarted (u : State) (c : Cmd) (x : Coll) : State :=
  ((u.markOutputs c (u.outMarks c)).updColl x.id fun _ => x).updCmd c.id fun c => { c with phase := .waiting, aux := [22] }

theorem State.markOutputs_fields {marks : List Nat} : (u.markOutputs c marks).mem = u.mem ∧
    (u.markOutputs c marks).tally = u.tally ∧ (u.markOutputs c marks).coll = u.coll :=
  ⟨State.foldl_leaves State.mem (fun _ _ => by rfl) _, State.foldl_leaves State.tally (fun _ _ => by rfl) _,
    State.foldl_leaves State.coll (fun _ _ => by rfl) _⟩

theorem State.collStarted_spec (hn : u.cmdOf n = some c) (hx : u.collOf n = some x) (hy : y.id = x.id) :
    (u.collStarted c y).mem = u.mem ∧ (u.collStarted c y).tally = u.tally ∧
    (u.collStarted c y).cmdOf n = some { c with phase := .waiting, aux := [22] } ∧ (u.collStarted c y).collOf n = some y := by
  have hid : c.id = n := by simpa using List.find?_some hn
  obtain ⟨hmem, htally, hcoll⟩ := State.markOutputs_fields (u := u) (c := c) (marks := u.outMarks c)
  refine ⟨hmem, htally, ?_, ?_⟩
  · subst hid
    exact State.cmdOf_updCmd rfl ((State.cmdOf_congr State.markOutputs_cmd).trans hn)
  · rw [State.collStarted, hy, State.collOf_id hx]
    exact (State.collOf_congr rfl).trans (State.collOf_updColl_same ((State.collOf_congr (by rw [hcoll])).trans hx)
      (hy.trans (State.collOf_id hx)))

/-- The first steps of a collective that waits for chunks leave memory and tallies, the command, and what it started with. -/
theorem State.collBegin_spec (hx : s.collOf x.id = some x) (hwaits : x.expect ≠ []) :
    (s.collBegin x).mem = s.mem ∧ (s.collBegin x).tally = s.tally ∧
    (∀ m d, s.cmdOf m = some d → (∀ i, d.aux ≠ [14, i]) → (s.collBegin x).cmdOf m = some d) ∧
    ∃ z, (s.collBegin x).collOf x.id = some z ∧ x.Runs z := by
  let v := (x.partials.filter fun k => x.rank = x.first k).foldl (fun s k => s.reduceChunk x k none) s
  let w := x.sources.foldl (fun s k => s.useData x k (x.own k)) v
  have hw : ChunksMove s w := .trans (t := v) (.foldl (fun _ _ => reduceChunk_moves) _ _) (.foldl (fun _ _ => useData_moves) _ _)
  obtain ⟨y, hy, hxy⟩ := hw.colls _ x hx
  obtain ⟨-, -, -, -, hexpect⟩ := hxy.fields
  have hsettled := hw.trans (collSettle_moves hy (hexpect ▸ hwaits))
  have hbegin : s.collBegin x = (w.collSettle x.id).wakeGathers := rfl
  obtain ⟨hmem, htally, hcoll, -, -⟩ := State.wakeGathers_fields (s := w.collSettle x.id)
  rw [hbegin]
  refine ⟨hmem.trans hsettled.mem, htally.trans hsettled.tally, fun m d hd haux =>
    State.cmdOf_wakeGathers ((State.cmdOf_congr hsettled.cmd).trans hd) (.inr haux), ?_⟩
  obtain ⟨z, hz, hxz⟩ := hsettled.colls _ x hx
  exact ⟨z, (State.collOf_congr (congrArg CollSt.colls hcoll)).trans hz, hxz⟩

/-! ### Slot and share (R317) -/

theorem State.collTry_of_held (hx : s.collOf c.id = some x)
    (h : s.freeSlot = none ∨ s.storeFree < collShare c ∨ s.earlierWaits c = true) : s.collTry env c = s.park c.id [21] := by
  cases hslot : s.freeSlot with
  | none => simp only [State.collTry, hx, hslot]
  | some i =>
    have hheld : ¬ (collShare c ≤ s.storeFree ∧ (! s.earlierWaits c) = true) := by
      rintro ⟨hshare, hturn⟩
      rcases h with h | h | h
      · simp [hslot] at h
      · omega
      · simp [h] at hturn
    simp only [State.collTry, hx, hslot, if_neg hheld]

theorem State.collTry_of_free (hq : env.Quiet) (hu : u.Clean) (hx : s.collOf c.id = some x) (hslot : s.freeSlot = some k)
    (hshare : collShare c ≤ s.storeFree) (hturn : s.earlierWaits c = false) (hsaves : s.takeSaves c = some u)
    (ha : u.tensor (x.par 32 4) = some a)
    (hy : y = x.started k (collShare c) (tensorBytes a (u.operand c a).1 0 a.byteLen)) :
    s.collTry env c = (u.collStarted c y).collBegin y := by
  have hstop : u.envStop env c 0x010B = none := State.envStop_quiet hq hu.poison hu.flaws
  subst hy
  simp only [State.collTry, hx, hslot, hshare, hturn, Bool.not_false, and_self, if_true, State.collTake, hsaves, ha,
    State.corrections_quiet hq, hstop]
  rfl

/-- A collective that takes its slot and its share. -/
theorem State.collTry_spec (hq : env.Quiet) (hc : s.Clean) (hn : s.cmdOf n = some c) (hx : s.collOf n = some x)
    (hslot : s.freeSlot = some k) (hshare : collShare c ≤ s.storeFree) (hturn : s.earlierWaits c = false)
    (hsaves : s.takeSaves c = some u) (ha : u.tensor (x.par 32 4) = some a)
    (hwaits : { x with input := tensorBytes a (u.operand c a).1 0 a.byteLen }.awaits ≠ []) :
    ∃ y, (s.collTry env c).collOf n = some y ∧ y.slot = some k ∧ y.share = collShare c ∧
      y.input = tensorBytes a (u.operand c a).1 0 a.byteLen ∧ y.expect = y.awaits ∧
      (s.collTry env c).cmdOf n = some { c with phase := .waiting, aux := [22] } ∧ (s.collTry env c).mem = u.mem ∧
      (s.collTry env c).tally = s.tally := by
  have hid : c.id = n := by simpa using List.find?_some hn
  have hxid := State.collOf_id hx
  have hcalm : RestKept (n + 1) s u := State.takeSaves_calm_all hsaves (n + 1) hc.poison hc.flaws
  have hu : u.Clean := ⟨hcalm.poison.trans hc.poison, hcalm.flaws.trans hc.flaws⟩
  let y := x.started k (collShare c) (tensorBytes a (u.operand c a).1 0 a.byteLen)
  obtain ⟨hmem, htally, hcmd, hcoll⟩ := State.collStarted_spec (y := y) ((State.takeSaves_cmdOf hc hsaves).trans hn)
    ((State.collOf_congr (congrArg CollSt.colls hcalm.coll)).trans hx) rfl
  obtain ⟨hmem', htally', hcmds, z, hz, hyz⟩ := State.collBegin_spec (x := y) (hxid ▸ hcoll) hwaits
  obtain ⟨-, hzslot, hzshare, hzinput, hzexpect⟩ := hyz.fields
  rw [State.collTry_of_free hq hu (hid ▸ hx) hslot hshare hturn hsaves ha rfl]
  exact ⟨z, hxid ▸ hz, hzslot, hzshare, hzinput, hzexpect.trans hyz.awaits.symm, hcmds n _ hcmd (by simp),
    hmem'.trans hmem, htally'.trans (htally.trans hcalm.tally)⟩

/-! ### The rows of the collectives -/

/-- A collective's row, by its opcode. -/
def CollectiveRow (n : Nat) (env : Env) (op : Nat) (i : Instr) : Prop :=
  (op, i) ∈ [(0x0801, Instr.allReduce n env), (0x0802, .reduceScatter n env), (0x0803, .allGather n env),
    (0x0804, .broadcast n env), (0x0805, .allToAll n env), (0x0806, .permute n env)]

theorem CollectiveRow.exec_eq {op : Nat} {i : Instr} (h : CollectiveRow n env op i) :
    exec i s = .next (s.collective n op env) := by
  simp only [CollectiveRow, List.mem_cons, Prod.mk.injEq, List.not_mem_nil, or_false] at h
  rcases h with ⟨rfl, rfl⟩ | ⟨rfl, rfl⟩ | ⟨rfl, rfl⟩ | ⟨rfl, rfl⟩ | ⟨rfl, rfl⟩ | ⟨rfl, rfl⟩ <;> rfl

theorem exec_collectiveStart_of_waits (h : s.Waits n c) (haux : c.aux = [21]) :
    exec (.collectiveStart n env) s = .next (s.collTry env c) := by
  have hrow : exec (.collectiveStart n env) s = .next (s.resumeCmd n fun c s => if c.aux = [21] then s.collTry env c else s) := rfl
  rw [hrow, h.resume, if_pos haux]

theorem CollectiveRow.exec_of_accepted {op : Nat} {i : Instr} (hi : CollectiveRow n env op i) (h : s.Ready n op c)
    (hb : s.Begins c) (hx : c.latch.extra = [0]) : exec i s = .next (s.collTry env c) := by
  rw [hi.exec_eq, State.collective, h.work hb]
  simp only [hx]

/-- Settles O45: what the dispatch latched, and whether the collective takes its slot and its share now. -/
theorem collectivesStartOrWait : Obligations.CollectivesStartOrWait := by
  unfold Obligations.CollectivesStartOrWait
  intro s n c env op i hi
  change CollectiveRow n env op i at hi
  refine ⟨fun d h hb hx => ?refused, fun h hb hx => ?aborted, fun x h hb hlatch hx hheld => ?waits,
    fun x k u a b hrow hq hc hx hslot hshare hturn hsaves ha hwaits => ?starts⟩
  case refused =>
    rw [hi.exec_eq, State.collective, h.work hb]
    simp only [hx, h.id]
  case aborted =>
    rw [hi.exec_eq, State.collective, h.work hb]
    simp only [hx, h.id]
  case waits => rw [hi.exec_of_accepted h hb hlatch, State.collTry_of_held (h.id ▸ hx) hheld, h.id]
  case starts =>
    obtain ⟨hn, hrun⟩ : s.cmdOf n = some c ∧ exec b s = .next (s.collTry env c) := by
      rcases hrow with ⟨h, hb, hlatch, rfl⟩ | ⟨h, haux, rfl⟩
      · exact ⟨h.found, hi.exec_of_accepted h hb hlatch⟩
      · exact ⟨h.found, exec_collectiveStart_of_waits h haux⟩
    exact ⟨_, (State.collTry_spec hq hc hn hx hslot hshare hturn hsaves ha hwaits).imp fun y hy => ⟨hrun, hy⟩⟩

end Sys2Proof.Machine
end

section
/-! SUPPORT and PROOF. Chunks checked, re-requests, and a collective committed once (12 R315, R321, R323, R324). -/

namespace Sys2Proof.Machine

variable {s t u : State} {n i v : Nat} {x : Coll} {k j : ChunkKey} {m d : List Byte} {o : Tensor} {env : Env}

theorem exec_chunk (m : ChunkMsg) (s : State) : exec (.chunk m) s = execChunk m s := rfl

theorem exec_reRequest (axis seq phase shard chunk dest rank : Nat) (bad : Bool) (env : Env) (s : State) :
    exec (.reRequest axis seq phase shard chunk dest rank bad env) s =
      execReRequest axis seq phase shard chunk dest rank bad env s := rfl

theorem exec_done (axis seq rank flags : Nat) (s : State) : exec (.done axis seq rank flags) s = execDone axis seq rank flags s :=
  rfl

theorem exec_commit (axis seq flags : Nat) (s : State) : exec (.commit axis seq flags) s = execCommit axis seq flags s := rfl

/-! ### What an add to a tally, and commands that go on, leave -/

theorem State.notify_coll (w : Waiter) (v : Nat) : (s.notify w v).coll = s.coll := by
  unfold State.notify
  split
  · rfl
  · rfl
  · exact (ifpMessage_same _ _ _ _ _ _ _).coll

theorem State.present_coll (l : List Waiter) (s : State) : (State.present i v l s).coll = s.coll := by
  induction l generalizing s with
  | nil => rfl
  | cons w l ih =>
    unfold State.present
    split
    · exact (ih _).trans (State.notify_coll w v)
    · exact ih s

theorem State.tallyAdd_one_fields : (s.tallyAdd i 1).mem = s.mem ∧ (s.tallyAdd i 1).tens = s.tens ∧
    (s.tallyAdd i 1).coll = s.coll := by
  obtain ⟨hmem, htens, -⟩ := State.wrapNoted_fields (s := s) i 1
  obtain ⟨hmem', htens', -⟩ := State.tallyTakes_fields (s := s.wrapNoted i 1) i ((s.tallyVal i + 1) % 2 ^ 64)
  rw [State.tallyAdd_eq (by decide)]
  refine ⟨hmem'.trans hmem, htens'.trans htens, (State.present_coll _ _).trans ?_⟩
  change (s.wrapNoted i 1).coll = s.coll
  unfold State.wrapNoted
  split <;> simp

theorem State.tallyVal_tallyAdd_one (hs : s.Sound) : (s.tallyAdd i 1).tallyVal i = (s.tallyVal i + 1) % 2 ^ 64 := by
  rw [State.tallyAdd_eq (by decide), State.tallyVal_tallyTakes_same (State.wrapNoted_sound hs i 1) (Nat.mod_lt _ (by decide))]

/-- A part of the state apart from the commands is as it was once what waited for a collective goes on. -/
theorem State.collWake_leaves {β : Type} (part : State → β) (h : ∀ (u : State) c, part { u with cmd := c } = part u) :
    part s.collWake = part s :=
  (State.wakeAll_leaves part (fun u _ _ => h u _) [20]).trans (h s _)

theorem State.collSend_fields (axis rank : Nat) (q : CollMsg) :
    (s.collSend axis rank q).coll = { s.coll with out := s.coll.out ++ [(rank, axis, q)] } ∧
    (s.collSend axis rank q).tens = s.tens ∧ (s.collSend axis rank q).mem = s.mem ∧
    (s.collSend axis rank q).tally = s.tally :=
  have h := collSend_same (s := s) axis rank q
  ⟨h.coll, h.tens, h.mem, h.tally⟩

theorem State.collOf_collSend {axis rank : Nat} {q : CollMsg} : (s.collSend axis rank q).collOf n = s.collOf n :=
  State.collOf_congr (by rw [(State.collSend_fields axis rank q).1])

/-! ### A chunk arrives (R315, R321) -/

theorem chunkArrives_eq (hseq : s.collBySeq (fieldAt m 15 1) (fieldAt m 0 4) = some x) (hcheck : fieldAt m 4 4 = x.descCheck)
    (hslot : x.slot.isSome = true) {dest : Nat}
    (hk : k = ⟨fieldAt m 14 1, fieldAt m 12 2, fieldAt m 8 4, if x.addressed then dest else 0⟩)
    (hfrom : x.opcode = 0x0806 → dest = x.rank → k.shard = x.par 54 2) (hj : x.arriving (fieldAt m 14 1) k = some j)
    (hlen : fieldAt m 16 4 = x.len j) (hd : d = (m.drop 32).take (x.len j)) (hwhole : d.length = x.len j) :
    exec (.chunk (.coll dest m)) s = .next (if crc64 d ≠ fieldAt m (32 + x.len j) 8 then s.chunkBad x (fieldAt m 14 1) j
      else s.chunkPassed x j d) := by
  have hplace : ¬ (x.opcode = 0x0806 ∧ dest = x.rank ∧ k.shard ≠ x.par 54 2) := fun h => h.2.2 (hfrom h.1 h.2.1)
  have hnone : x.slot.isNone = false := by cases hx : x.slot <;> simp [hx] at hslot ⊢
  subst hd hk
  have hsize : ¬ (fieldAt m 16 4 ≠ x.len j ∨ ((m.drop 32).take (fieldAt m 16 4)).length ≠ fieldAt m 16 4) := by
    rw [hlen]; simp only [hwhole]; simp
  rw [exec_chunk, execChunk, State.collChunkArrives, hseq]
  dsimp only
  rw [if_neg (not_not.2 hcheck), hnone, if_neg Bool.false_ne_true, if_neg hplace, hj]
  dsimp only
  rw [if_neg hsize, hlen]

/-- A copy that failed its check counted, and its chunk noted as asked for again. -/
def State.askedAgain (s : State) (x : Coll) (j : ChunkKey) : State :=
  ((s.addSat Reg.collEvents 63 48 1).addSat Reg.collEvents 47 32 1).updColl x.id fun y =>
    { y with asked := y.asked ++ [j], reRequests := y.reRequests + 1 }

theorem State.chunkBad_eq {phase : Nat} (hphase : phase ≠ 2) : s.chunkBad x phase j =
    (s.askedAgain x j).collSend x.axis (x.holder j) (.reRequest x.axis x.seq j) := if_neg hphase

theorem State.fld_askedAgain (hs : s.Sound) :
    (s.askedAgain x j).fld Reg.collEvents 47 32 = min (s.fld Reg.collEvents 47 32 + 1) (2 ^ 16 - 1) ∧
    (s.askedAgain x j).fld Reg.collEvents 63 48 = min (s.fld Reg.collEvents 63 48 + 1) (2 ^ 16 - 1) := by
  have hs' : (s.addSat Reg.collEvents 63 48 1).Sound := hs.setFld
  have hreg : (s.askedAgain x j).reg Reg.collEvents =
      ((s.addSat Reg.collEvents 63 48 1).addSat Reg.collEvents 47 32 1).reg Reg.collEvents := State.reg_congr (by
    simp only [State.askedAgain, State.updColl_fields])
  have hbelow : (s.addSat Reg.collEvents 63 48 1).fld Reg.collEvents 47 32 = s.fld Reg.collEvents 47 32 := by
    rw [State.addSat, State.fld_setFld_below hs (by decide) (by decide) (by decide) (by decide)]
  have habove : ((s.addSat Reg.collEvents 63 48 1).addSat Reg.collEvents 47 32 1).fld Reg.collEvents 63 48 =
      (s.addSat Reg.collEvents 63 48 1).fld Reg.collEvents 63 48 := by
    rw [State.addSat, State.fld_setFld_above hs' (by decide) (by decide) (by decide)]
  rw [State.fld_congr hreg, State.fld_congr hreg, habove, State.fld_addSat_same hs' (by decide) (by decide), hbelow,
    State.fld_addSat_same hs (by decide) (by decide)]
  exact ⟨rfl, rfl⟩

theorem collEvents_ne_linkTraffic (l : Nat) : Reg.collEvents ≠ Reg.linkTraffic l := by
  simp only [Reg.collEvents, Reg.linkTraffic]
  omega

/-- A copy that fails its check is asked for again from its holder. -/
theorem State.chunkBad_spec (hs : s.Sound) (hx : s.collOf x.id = some x) {phase : Nat} (hphase : phase ≠ 2)
    (ht : t = s.chunkBad x phase j) : t.coll.out = s.coll.out ++ [(x.holder j, x.axis, .reRequest x.axis x.seq j)] ∧
      t.collOf x.id = some { x with asked := x.asked ++ [j], reRequests := x.reRequests + 1 } ∧
      t.fld Reg.collEvents 47 32 = min (s.fld Reg.collEvents 47 32 + 1) (2 ^ 16 - 1) ∧
      t.fld Reg.collEvents 63 48 = min (s.fld Reg.collEvents 63 48 + 1) (2 ^ 16 - 1) ∧ t.tens = s.tens ∧ t.mem = s.mem := by
  obtain ⟨hasked, hcopies⟩ := State.fld_askedAgain (x := x) (j := j) hs
  obtain ⟨hcoll, htens, hmem, -⟩ := State.collSend_fields (s := s.askedAgain x j) x.axis (x.holder j) (.reRequest x.axis x.seq j)
  have hx' : (s.askedAgain x j).collOf x.id = some { x with asked := x.asked ++ [j], reRequests := x.reRequests + 1 } :=
    State.collOf_updColl_same ((State.collOf_congr (by simp only [State.addSat_fields])).trans hx) rfl
  have hreg : t.reg Reg.collEvents = (s.askedAgain x j).reg Reg.collEvents := by
    rw [ht, State.chunkBad_eq hphase]
    exact ((collSend_same _ _ _).regs _ collEvents_ne_linkTraffic).trans (State.reg_congr rfl)
  rw [State.fld_congr hreg, State.fld_congr hreg, ht, State.chunkBad_eq hphase, State.collOf_collSend, hcoll, htens, hmem]
  refine ⟨?_, hx', hasked, hcopies, ?_, ?_⟩ <;> simp only [State.askedAgain, State.updColl, State.addSat_fields]

/-! ### A chunk that passes, and goes no further -/

theorem Coll.goesOn_of_last (h : if x.addressed then j.dest = x.rank else x.opcode = 0x0802 ∨ x.next j = x.origin j) :
    x.goesOn j = false := by
  unfold Coll.goesOn
  split at h
  next ha => rw [if_pos ha, h]; simp
  next ha =>
    rw [if_neg ha]
    rcases h with h | h <;> simp [h]

/-- With no chunk held, the next round begins nothing. -/
theorem State.nextRound_of_none (hx : s.collOf n = some x) (hqueued : x.queued = []) :
    (s.nextRound n).coll.out = s.coll.out ∧ (s.nextRound n).tens = s.tens := by
  simp only [State.nextRound, hx, hqueued, List.filter_nil, List.foldl_nil]
  exact ⟨rfl, rfl⟩

/-- A collective that waits for more chunks, and holds none, only has what waits for it reconsidered. -/
theorem State.collSettle_of_waiting (hx : s.collOf n = some x) (hqueued : x.queued = []) (hwaits : x.expect ≠ []) :
    (s.collSettle n).coll.out = s.coll.out ∧ (s.collSettle n).tens = s.tens ∧ (s.collSettle n).mem = s.mem ∧
    (s.collSettle n).tally = s.tally := by
  have hmoves := nextRound_moves (s := s) (n := n)
  obtain ⟨y, hy, hxy⟩ := hmoves.colls n x hx
  obtain ⟨-, -, -, -, hexpect⟩ := hxy.fields
  have hmore : y.expect.isEmpty = false := List.isEmpty_eq_false_iff.2 (hexpect ▸ hwaits)
  have heq : s.collSettle n = s.nextRound n := by
    simp only [State.collSettle, hy, hmore, Bool.not_false, Bool.or_true, Bool.true_or, if_true]
  obtain ⟨hout, htens⟩ := State.nextRound_of_none hx hqueued
  exact heq ▸ ⟨hout, htens, hmoves.mem, hmoves.tally⟩

/-- A chunk taken from those awaited, and reported checked to its sender. -/
def State.chunkReported (s : State) (x : Coll) (j : ChunkKey) : State :=
  (s.updColl x.id fun y => { y with expect := y.expect.erase j, asked := y.asked.erase j }).collSend x.axis (x.prev j)
    (.checked x.axis x.seq j)

theorem State.chunkReported_spec (hx : s.collOf x.id = some x) :
    (s.chunkReported x j).coll.out = s.coll.out ++ [(x.prev j, x.axis, .checked x.axis x.seq j)] ∧
    (s.chunkReported x j).collOf x.id = some { x with expect := x.expect.erase j, asked := x.asked.erase j } ∧
    (s.chunkReported x j).tens = s.tens ∧ (s.chunkReported x j).mem = s.mem ∧ (s.chunkReported x j).tally = s.tally := by
  obtain ⟨hcoll, htens, hmem, htally⟩ := State.collSend_fields (s := s.updColl x.id fun y =>
    { y with expect := y.expect.erase j, asked := y.asked.erase j }) x.axis (x.prev j) (.checked x.axis x.seq j)
  rw [State.chunkReported, hcoll, htens, hmem, htally, State.collOf_collSend]
  exact ⟨rfl, State.collOf_updColl_same hx rfl, rfl, rfl, rfl⟩

theorem State.writeChunk_of_declared (ho : s.declared (x.par 36 4) = some o) : s.writeChunk x j d =
    (s.writeData (x.par 36 4) fun c => setTensorBytes o d (x.outOffset j) c).updColl x.id fun y =>
      { y with toWrite := y.toWrite.erase j, written := y.written + 1 } := by
  simp only [State.writeChunk, ho]

theorem State.useData_of_last (hwrites : j ∈ x.writesOut)
    (hlast : if x.addressed then j.dest = x.rank else x.opcode = 0x0802 ∨ x.next j = x.origin j) :
    s.useData x j d = s.writeChunk x j d := by
  simp only [State.useData, List.contains_iff_mem.2 hwrites, if_true, State.passOn, Coll.goesOn_of_last hlast,
    Bool.false_eq_true, if_false]

theorem State.chunkPassed_of_data (hphase : j.phase ≠ 0) : s.chunkPassed x j d =
    (((s.chunkReported x j).useData x j d).collSettle x.id).wakeGathers := by
  simp only [State.chunkPassed, if_neg hphase, State.chunkReported]

/-- A chunk of data that passes, and goes no further, is reported checked to its sender and written to OUT. -/
theorem State.chunkPassed_spec (hx : s.collOf x.id = some x) (hphase : j.phase ≠ 0) (hwrites : j ∈ x.writesOut)
    (ho : s.declared (x.par 36 4) = some o)
    (hlast : if x.addressed then j.dest = x.rank else x.opcode = 0x0802 ∨ x.next j = x.origin j)
    (hmore : x.expect.erase j ≠ []) (hqueued : x.queued = []) (ht : t = s.chunkPassed x j d) :
    t.coll.out = s.coll.out ++ [(x.prev j, x.axis, .checked x.axis x.seq j)] ∧
    t.tens = s.tens.map (fun v => if v.handle = x.par 36 4 then
      { v with data := setTensorBytes o d (x.outOffset j) v.data } else v) ∧ t.mem = s.mem ∧ t.tally = s.tally := by
  obtain ⟨hout, hreported, htens, hmem, htally⟩ := State.chunkReported_spec (j := j) hx
  have ho' : (s.chunkReported x j).declared (x.par 36 4) = some o := by rw [State.declared, htens]; exact ho
  have hwritten := State.collOf_updColl_same (f := fun y => { y with toWrite := y.toWrite.erase j, written := y.written + 1 })
    (s := (s.chunkReported x j).writeData (x.par 36 4) fun c => setTensorBytes o d (x.outOffset j) c)
    ((State.collOf_congr rfl).trans hreported) rfl
  obtain ⟨hout', htens', hmem', htally'⟩ := State.collSettle_of_waiting hwritten hqueued hmore
  rw [ht, State.chunkPassed_of_data hphase, State.useData_of_last hwrites hlast, State.writeChunk_of_declared ho']
  obtain ⟨hmem'', htally'', hcoll'', htens'', -⟩ := State.wakeGathers_fields (s := State.collSettle _ x.id)
  rw [htens'', hcoll'', hout', htens', hmem'', hmem', htally'', htally']
  simp only [State.updColl, State.writeData_fields, hout, hmem, htally, true_and, and_true]
  rw [State.writeData, State.updTensor, htens]

/-! ### RE_REQUEST (R323) -/

theorem State.retainedStop_of_clean (hq : env.Quiet) (hc : s.Clean) : s.retainedStop env x k = none := by
  obtain ⟨hsram, -⟩ := hq
  simp only [State.retainedStop, hsram, hc.poison, hc.flaws, List.filter_nil, List.map_nil, List.append_nil, List.find?_nil]

theorem exec_reRequest_of_retained {axis seq rank : Nat} (hq : env.Quiet) (hc : s.Clean) (hx : s.collBySeq axis seq = some x)
    (hd : s.retainedCopy x k = some d) (hslot : x.slot.isSome = true) (hphase : k.phase ≠ 3) :
    exec (.reRequest axis seq k.phase k.shard k.chunk k.dest rank false env) s =
      .next (if (x.crcs.any fun r => r.1 = k ∧ r.2 ≠ crc64 d) = true then s.collFail x 0x0107 true
        else s.collSendVia none 2 axis rank (.chunk k.dest (x.message 2 k d))) := by
  have hnone : x.slot.isNone = false := by cases h : x.slot <;> simp [h] at hslot ⊢
  rw [exec_reRequest, execReRequest, State.corrections_quiet hq]
  simp only [if_neg hphase, hx, hd, hnone, Bool.false_eq_true, if_false, State.retainedStop_of_clean hq hc, false_or]

/-! ### DONE and COMMIT (R324) -/

theorem exec_done_of_first {axis seq rank flags g : Nat} (haxis : s.axis axis = some (g, 0)) (hrank : rank < g)
    (hnone : s.collBySeq axis seq = none) (hnew : ∀ e ∈ s.coll.dones, ¬ (e.axis = axis ∧ e.seq = seq ∧ e.rank = rank)) :
    exec (.done axis seq rank flags) s =
      .next { s with coll := { s.coll with dones := s.coll.dones ++ [⟨axis, seq, rank, flags % 8⟩] } } := by
  have hany : ¬ (s.coll.dones.any fun e => e.axis = axis ∧ e.seq = seq ∧ e.rank = rank) = true := by
    simpa [List.any_eq_true] using hnew
  have hheld : s.holdDone ⟨axis, seq, rank, flags % 8⟩ =
      { s with coll := { s.coll with dones := s.coll.dones ++ [⟨axis, seq, rank, flags % 8⟩] } } := if_neg hany
  have hseq : (s.holdDone ⟨axis, seq, rank, flags % 8⟩).collBySeq axis seq = none := by rw [hheld]; exact hnone
  rw [exec_done, execDone]
  simp only [haxis, Option.any_some, hrank, decide_true, and_self, if_true, hseq]
  rw [hheld]

/-- A collective released: its marks cleared, and nothing of it left in the Collator. -/
def State.collReleased (s : State) (x : Coll) : State :=
  { s with
    tens := s.tens.map fun (t : Tensor) => { t with marks := t.marks.filter (· ≠ x.id) }
    coll := { s.coll with
      colls := s.coll.colls.filter fun y => y.id ≠ x.id
      dones := s.coll.dones.filter fun d => ! (decide (d.axis = x.axis) && decide (d.seq = x.seq)) } }

/-- The commit counted. -/
def State.commitNoted (s : State) (x : Coll) (flags : Nat) : State :=
  ((s.collReleased x).addSat Reg.collCommits 63 0 1).setFld Reg.collLastFlags 2 0 flags

theorem State.collReleased_sound (hs : s.Sound) : (s.collReleased x).Sound :=
  ⟨hs.mem, hs.regs, hs.tallies, hs.flash, hs.rings, hs.links, hs.numbers, hs.vregs, fun t ht => by
    obtain ⟨w, hw, rfl⟩ := List.mem_map.1 ht
    exact hs.elements w hw⟩

theorem State.collCommit_eq {flags : Nat} : s.collCommit x flags =
    (if bit (x.par 43 1) 0 = 1 then (s.commitNoted x flags).tallyAdd (x.par 44 2) 1 else s.commitNoted x flags).collWake := rfl

theorem State.collCommit_spec (hs : s.Sound) {flags : Nat} (ht : t = s.collCommit x flags) :
    t.coll.colls = s.coll.colls.filter (fun y => y.id ≠ x.id) ∧
    t.tens = s.tens.map (fun v => { v with marks := v.marks.filter (· ≠ x.id) }) ∧ t.mem = s.mem ∧
    (bit (x.par 43 1) 0 = 1 → t.tallyVal (x.par 44 2) = (s.tallyVal (x.par 44 2) + 1) % 2 ^ 64) ∧
    (bit (x.par 43 1) 0 = 0 → t.tally = s.tally ∧ t.fld Reg.collLastFlags 2 0 = flags % 8 ∧
      t.fld Reg.collCommits 63 0 = min (s.fld Reg.collCommits 63 0 + 1) (2 ^ 64 - 1)) := by
  have hreleased := State.collReleased_sound (x := x) hs
  have hcounted : ((s.collReleased x).addSat Reg.collCommits 63 0 1).Sound := hreleased.setFld
  have hnoted : (s.commitNoted x flags).Sound := hcounted.setFld
  rw [ht, State.collCommit_eq]
  rw [State.collWake_leaves State.coll (fun _ _ => rfl), State.collWake_leaves State.tens (fun _ _ => rfl),
    State.collWake_leaves State.mem (fun _ _ => rfl), State.tallyVal_congr (State.collWake_leaves State.tally (fun _ _ => rfl)),
    State.collWake_leaves State.tally (fun _ _ => rfl),
    State.collWake_leaves (fun u => u.fld Reg.collLastFlags 2 0) (fun _ _ => rfl),
    State.collWake_leaves (fun u => u.fld Reg.collCommits 63 0) (fun _ _ => rfl)]
  by_cases hbit : bit (x.par 43 1) 0 = 1
  · obtain ⟨hmem, htens, hcoll⟩ := State.tallyAdd_one_fields (s := s.commitNoted x flags) (i := x.par 44 2)
    rw [if_pos hbit]
    exact ⟨by rw [hcoll]; rfl, htens, hmem, fun _ => State.tallyVal_tallyAdd_one hnoted, fun h => absurd h (by omega)⟩
  · rw [if_neg hbit]
    refine ⟨rfl, rfl, rfl, fun h => absurd h hbit, fun _ => ⟨rfl, State.fld_setFld_same hcounted (by decide) (by decide), ?_⟩⟩
    exact (State.fld_setFld_other (by decide)).trans (State.fld_addSat_same hreleased (by decide) (by decide))

/-- Settles O46: what a chunk comes to by its check, a retained copy by its CRC, a DONE at rank 0 (log 69), and a COMMIT. -/
theorem chunksAreCheckedAndCommitted : Obligations.ChunksAreCheckedAndCommitted := by
  unfold Obligations.ChunksAreCheckedAndCommitted
  refine ⟨fun s x m d dest k j o hs hseq hx hcheck hslot hk hfrom hj hlen hd hwhole => ⟨fun hbad hphase => ?bad,
      fun hgood hphase hwrites ho hlast hmore hqueued => ?passed⟩,
    fun s x axis seq rank d k env hq hc hx hd hslot hphase => ⟨fun hgood => ?again, fun hbad => ?lost⟩,
    fun s axis seq rank flags g haxis hrank hnone hnew => exec_done_of_first haxis hrank hnone hnew,
    fun s x axis seq flags hs hx => ?commit⟩
  case bad =>
    rw [chunkArrives_eq hseq hcheck hslot hk hfrom hj hlen hd hwhole, if_pos hbad]
    exact ⟨_, rfl, State.chunkBad_spec hs hx hphase rfl⟩
  case passed =>
    rw [chunkArrives_eq hseq hcheck hslot hk hfrom hj hlen hd hwhole, if_neg (not_not.2 hgood)]
    exact ⟨_, rfl, State.chunkPassed_spec hx hphase hwrites ho hlast hmore hqueued rfl⟩
  case again =>
    rw [exec_reRequest_of_retained hq hc hx hd hslot hphase, if_neg]
    simpa [List.any_eq_true] using fun v hv => hgood (k, v) hv rfl
  case lost =>
    rw [exec_reRequest_of_retained hq hc hx hd hslot hphase, if_pos]
    simpa [List.any_eq_true] using hbad
  case commit =>
    have hrow : exec (.commit axis seq flags) s = .next (s.collCommit x flags) := by rw [exec_commit, execCommit, hx]
    exact ⟨_, hrow, State.collCommit_spec hs rfl⟩

end Sys2Proof.Machine
end

section
/-! SUPPORT and PROOF. A collective fails, a step is aborted, and a command that waited for marks (12 R327 to R329). -/

namespace Sys2Proof.Machine

variable {s t u : State} {n k d : Nat} {x y : Coll} {c : Cmd} {o : Outcome} {tell : Bool}

theorem exec_fail (axis seq detail : Nat) (s : State) : exec (.fail axis seq detail) s = execFail axis seq detail s := rfl

theorem exec_peerSilent (n : Nat) (s : State) : exec (.peerSilent n) s = execPeerSilent n s := rfl

theorem exec_collAbort (v : Nat) (s : State) : exec (.collAbort v) s = execCollAbort v s := rfl

theorem exec_markWaitEnd (n : Nat) (s : State) : exec (.markWaitEnd n) s = execMarkWaitEnd n s := rfl

/-! ### What the end of a collective leaves -/

/-- A collective dropped and counted as failed. -/
def State.collDropped (s : State) (x : Coll) (d : Nat) : State :=
  let s := { s with coll := { s.coll with
    colls := s.coll.colls.filter fun y => y.id ≠ x.id
    failed := s.coll.failed ++ [x.id]
    dones := s.coll.dones.filter fun d => ! (decide (d.axis = x.axis) && decide (d.seq = x.seq)) } }
  let s := s.addSat Reg.collEvents 31 16 1
  if d = 0x0106 then s.addSat Reg.collEvents 15 0 1 else s

/-- The other members told of a failure. -/
def State.failTold (s : State) (x : Coll) (d : Nat) (tell : Bool) : State :=
  if tell then x.peers.foldl (fun s r => s.collSend x.axis r (.fail x.axis x.seq d)) s else s

/-- The command of a collective that fails ends, if its work was not done. -/
def State.failEnds (s : State) (x : Coll) (d : Nat) : State :=
  match s.cmdOf x.id with
  | some c => if c.phase.unfinished && ! x.localDone then s.finish x.id (Outcome.aborted d) else s
  | none => s

/-- The failure added to FAIL_TALLY. -/
def State.failTallied (s : State) (x : Coll) : State := if bit (x.par 43 1) 1 = 1 then s.tallyAdd (x.par 48 2) 1 else s

theorem State.collEnd_eq : s.collEnd x d tell = (((s.collDropped x d).failTold x d tell).failEnds x d).failTallied x := rfl

theorem State.collDropped_fields : (s.collDropped x d).mem = s.mem ∧ (s.collDropped x d).tens = s.tens ∧
    (s.collDropped x d).cmd = s.cmd ∧ (s.collDropped x d).tally = s.tally ∧
    (s.collDropped x d).coll.colls = s.coll.colls.filter (fun y => y.id ≠ x.id) ∧
    (s.collDropped x d).coll.failed = s.coll.failed ++ [x.id] ∧ (s.collDropped x d).coll.aborted = s.coll.aborted := by
  unfold State.collDropped
  dsimp only
  split <;> simp only [State.addSat_fields, and_self]

theorem State.failTold_fields : (s.failTold x d tell).mem = s.mem ∧ (s.failTold x d tell).tens = s.tens ∧
    (s.failTold x d tell).cmd = s.cmd ∧ (s.failTold x d tell).tally = s.tally ∧
    (s.failTold x d tell).coll.colls = s.coll.colls ∧ (s.failTold x d tell).coll.failed = s.coll.failed ∧
    (s.failTold x d tell).coll.aborted = s.coll.aborted := by
  unfold State.failTold
  split
  · have h := foldl_collSend_same x.axis (.fail x.axis x.seq d) x.peers s
    refine ⟨h.mem, h.tens, h.cmd, h.tally, ?_, ?_, ?_⟩ <;> rw [h.coll] <;> rfl
  · exact ⟨rfl, rfl, rfl, rfl, rfl, rfl, rfl⟩

theorem State.failEnds_fields : (s.failEnds x d).mem = s.mem ∧ (s.failEnds x d).tens = s.tens ∧
    (s.failEnds x d).tally = s.tally ∧ (s.failEnds x d).coll = s.coll := by
  unfold State.failEnds
  split
  · split
    · exact ⟨rfl, rfl, rfl, rfl⟩
    · exact ⟨rfl, rfl, rfl, rfl⟩
  · exact ⟨rfl, rfl, rfl, rfl⟩

theorem State.failTallied_fields : (s.failTallied x).mem = s.mem ∧ (s.failTallied x).tens = s.tens ∧
    (s.failTallied x).coll = s.coll := by
  unfold State.failTallied
  split
  · exact State.tallyAdd_one_fields
  · exact ⟨rfl, rfl, rfl⟩

/-- The end of a collective leaves memory, tensors and the step aborted; it drops the collective alone. -/
theorem State.collEnd_fields : (s.collEnd x d tell).mem = s.mem ∧ (s.collEnd x d tell).tens = s.tens ∧
    (s.collEnd x d tell).coll.colls = s.coll.colls.filter (fun y => y.id ≠ x.id) ∧
    (s.collEnd x d tell).coll.failed = s.coll.failed ++ [x.id] ∧ (s.collEnd x d tell).coll.aborted = s.coll.aborted := by
  obtain ⟨hmem, htens, -, -, hcolls, hfailed, haborted⟩ := State.collDropped_fields (s := s) (x := x) (d := d)
  obtain ⟨hmem1, htens1, -, -, hcolls1, hfailed1, haborted1⟩ :=
    State.failTold_fields (s := s.collDropped x d) (x := x) (d := d) (tell := tell)
  obtain ⟨hmem2, htens2, -, hcoll2⟩ := State.failEnds_fields (s := (s.collDropped x d).failTold x d tell) (x := x) (d := d)
  obtain ⟨hmem3, htens3, hcoll3⟩ :=
    State.failTallied_fields (s := ((s.collDropped x d).failTold x d tell).failEnds x d) (x := x)
  rw [State.collEnd_eq, hmem3, hmem2, hmem1, htens3, htens2, htens1, hcoll3, hcoll2, hcolls1, hfailed1, haborted1]
  exact ⟨hmem, htens, hcolls, hfailed, haborted⟩

/-! ### A command that has ended stays so -/

/-- Whether a command has ended with an outcome. -/
def Cmd.EndedWith (c : Cmd) (o : Outcome) : Prop :=
  c.phase = .done ∧ c.status = o.status ∧ c.detail = o.detail ∧ c.result = o.result % 2 ^ 128

/-- Command `n` has ended with an outcome, under whatever place it has among the commands, and no wait of its own is
attached to a tally. -/
structure State.EndedApart (s : State) (n : Nat) (o : Outcome) : Prop where
  found : ∃ c ∈ s.cmd.cmds, c.id = n
  ended : ∀ c ∈ s.cmd.cmds, c.id = n → c.EndedWith o
  waits : ∀ w ∈ s.tally.waiters, w.owner ≠ .command n

theorem State.EndedApart.of_eq (h : s.EndedApart n o) (hc : t.cmd = s.cmd) (hw : ∀ w ∈ t.tally.waiters, w ∈ s.tally.waiters) :
    t.EndedApart n o := ⟨hc ▸ h.found, hc ▸ h.ended, fun w hm => h.waits w (hw w hm)⟩

theorem State.EndedApart.spec (h : s.EndedApart n o) : s.Ended n o := by
  obtain ⟨c, hc, hid⟩ := h.found
  have hsome : (s.cmdOf n).isSome = true := List.find?_isSome.2 ⟨c, hc, by simpa using hid⟩
  obtain ⟨b, hb⟩ := Option.isSome_iff_exists.1 hsome
  have hbid : b.id = n := by simpa using List.find?_some hb
  exact ⟨b, hb, h.ended b (List.mem_of_find?_eq_some hb) hbid⟩

/-- Commands changed one by one, each keeping its number, and an ended one its end. -/
theorem State.EndedApart.map (h : s.EndedApart n o) {f : Cmd → Cmd} (ht : t.cmd.cmds = s.cmd.cmds.map f)
    (hid : ∀ c, (f c).id = c.id) (hkeeps : ∀ c ∈ s.cmd.cmds, c.id = n → c.EndedWith o → (f c).EndedWith o)
    (hw : ∀ w ∈ t.tally.waiters, w ∈ s.tally.waiters) : t.EndedApart n o := by
  refine ⟨?_, fun c hc hcn => ?_, fun w hm => h.waits w (hw w hm)⟩
  · obtain ⟨c, hc, hcn⟩ := h.found
    exact ⟨f c, ht ▸ List.mem_map_of_mem hc, (hid c).trans hcn⟩
  · rw [ht] at hc
    obtain ⟨b, hb, rfl⟩ := List.mem_map.1 hc
    have hbn : b.id = n := (hid b).symm.trans hcn
    exact hkeeps b hb hbn (h.ended b hb hbn)

theorem State.EndedApart.updCmd (h : s.EndedApart n o) {m : Nat} {f : Cmd → Cmd} (hid : ∀ c, (f c).id = c.id)
    (hkeeps : m = n → ∀ c : Cmd, c.EndedWith o → (f c).EndedWith o) : (s.updCmd m f).EndedApart n o :=
  h.map (f := fun c => if c.id = m then f c else c) rfl (fun c => by split <;> simp [hid])
    (fun c _ hcn hc => by
      split
      next hcm => exact hkeeps (hcm.symm.trans hcn) c hc
      next => exact hc) fun _ hw => hw

/-- The end of every command with a number. -/
theorem State.finish_endedApart (h : s.cmdOf n = some c) (hw : ∀ w ∈ s.tally.waiters, w.owner ≠ .command n) :
    (s.finish n o).EndedApart n o := by
  have hid : c.id = n := by simpa using List.find?_some h
  refine ⟨⟨_, List.mem_map_of_mem (List.mem_of_find?_eq_some h), ?_⟩, fun b hb hbn => ?_, hw⟩
  · rw [if_pos hid]
    exact hid
  · obtain ⟨a, -, rfl⟩ := List.mem_map.1 hb
    have han : a.id = n := by split at hbn <;> exact hbn
    rw [if_pos han]
    exact ⟨rfl, rfl, rfl, rfl⟩

theorem State.EndedApart.notify (h : s.EndedApart n o) {w : Waiter} {v : Nat} (hw : w.owner ≠ .command n) :
    (s.notify w v).EndedApart n o := by
  unfold State.notify
  split
  next => exact h.updCmd (fun _ => rfl) fun _ _ hc => hc
  next m hm => exact h.updCmd (fun _ => rfl) fun hmn => absurd (hmn ▸ hm) hw
  next node k _ =>
    have hl := ifpMessage_same (s := s) node 1 6 0 0 (leBytes 2 k) .plain
    exact h.of_eq hl.cmd fun w hw => hl.tally ▸ hw

theorem State.EndedApart.present (h : s.EndedApart n o) {i v : Nat} {l : List Waiter} (hl : ∀ w ∈ l, w.owner ≠ .command n) :
    (State.present i v l s).EndedApart n o := by
  induction l generalizing s with
  | nil => exact h
  | cons w l ih =>
    obtain ⟨hw, hrest⟩ := List.forall_mem_cons.1 hl
    unfold State.present
    split
    · have hless : { s with tally := { s.tally with waiters := s.tally.waiters.erase w } }.EndedApart n o :=
        h.of_eq rfl fun _ hm => List.mem_of_mem_erase hm
      exact ih (hless.notify hw) hrest
    · exact ih h hrest

theorem State.EndedApart.tallyAdd (h : s.EndedApart n o) {i v : Nat} : (s.tallyAdd i v).EndedApart n o := by
  unfold State.tallyAdd State.tallyTakes
  refine State.EndedApart.present ?_ fun w hw => ?_
  · refine h.of_eq ?_ fun w hw => ?_
    · dsimp only
      split <;> simp
    · dsimp only at hw
      split at hw <;> simpa using hw
  · dsimp only at hw
    split at hw <;> exact h.waits w (by simpa using hw)

theorem State.EndedApart.failTallied (h : s.EndedApart n o) : (s.failTallied x).EndedApart n o := by
  unfold State.failTallied
  split
  · exact h.tallyAdd
  · exact h

/-- The end of another collective. -/
theorem State.EndedApart.collEnd (h : s.EndedApart n o) (hx : x.id ≠ n) : (s.collEnd x d tell).EndedApart n o := by
  obtain ⟨-, -, hcmd, htally, -⟩ := State.collDropped_fields (s := s) (x := x) (d := d)
  obtain ⟨-, -, hcmd', htally', -⟩ := State.failTold_fields (s := s.collDropped x d) (x := x) (d := d) (tell := tell)
  have htold : ((s.collDropped x d).failTold x d tell).EndedApart n o :=
    h.of_eq (hcmd'.trans hcmd) fun w hw => (htally'.trans htally) ▸ hw
  rw [State.collEnd_eq]
  refine State.EndedApart.failTallied ?_
  unfold State.failEnds
  split
  · split
    · exact htold.updCmd (fun _ => rfl) fun hn => absurd hn hx
    · exact htold
  · exact htold

/-- The end of a collective whose command is unfinished. -/
theorem State.collEnd_endedApart (hc : s.cmdOf x.id = some c) (hopen : c.phase.unfinished = true) (hdone : x.localDone = false)
    (hw : ∀ w ∈ s.tally.waiters, w.owner ≠ .command x.id) : (s.collEnd x d tell).EndedApart x.id (Outcome.aborted d) := by
  obtain ⟨-, -, hcmd, htally, -⟩ := State.collDropped_fields (s := s) (x := x) (d := d)
  obtain ⟨-, -, hcmd', htally', -⟩ := State.failTold_fields (s := s.collDropped x d) (x := x) (d := d) (tell := tell)
  have hfound : ((s.collDropped x d).failTold x d tell).cmdOf x.id = some c :=
    (State.cmdOf_congr (hcmd'.trans hcmd)).trans hc
  have hends : ((s.collDropped x d).failTold x d tell).failEnds x d =
      ((s.collDropped x d).failTold x d tell).finish x.id (Outcome.aborted d) := by
    simp only [State.failEnds, hfound, hopen, hdone, Bool.not_false, Bool.and_self, if_true]
  rw [State.collEnd_eq, hends]
  exact (State.finish_endedApart hfound fun w hm => hw w ((htally'.trans htally) ▸ hm)).failTallied

/-- What waits for a collective going on leaves a command that has ended. -/
theorem State.EndedApart.collWake (h : s.EndedApart n o) : s.collWake.EndedApart n o := by
  have hgathers : s.wakeGathers.EndedApart n o := h.map (f := s.gatherWoken) rfl (fun _ => State.gatherWoken_id)
    (fun c _ _ hc => (State.gatherWoken_of_other (.inl (by rw [hc.1]; decide))).symm ▸ hc) fun _ hw => hw
  have hwake : ∀ (u : State) (r : Nat) (c : Cmd), u.EndedApart n o → (c.id = n → c.EndedWith o) → (u.wake r c).EndedApart n o := by
    intro u r c hu hc
    unfold State.wake
    split
    next hwaits => exact hu.updCmd (fun _ => rfl) fun hn => absurd hwaits.1 (by rw [(hc hn).1]; decide)
    next => exact hu
  have hall : ∀ (l : List Cmd) (u : State), u.EndedApart n o → (∀ c ∈ l, c.id = n → c.EndedWith o) →
      (l.foldl (fun s c => [20].foldl (fun s r => s.wake r c) s) u).EndedApart n o := by
    intro l
    induction l with
    | nil => exact fun u hu _ => hu
    | cons c l ih =>
      intro u hu hl
      obtain ⟨hc, hrest⟩ := List.forall_mem_cons.1 hl
      exact ih _ (hwake u 20 c hu hc) hrest
  exact hall _ _ hgathers hgathers.ended

/-! ### A step aborted (R329) -/

/-- The step noted as aborted. -/
def State.abortNoted (s : State) (k : Nat) : State :=
  if s.coll.aborted = some k then s
  else
    let s := (s.addSat Reg.collAbortedStep 63 32 1).setFld Reg.collAbortedStep 31 0 k
    ({ s with coll := { s.coll with aborted := some k } }).proofEvent 1

theorem State.abortStep_eq : s.abortStep k = ((s.abortNoted k).coll.colls.filter fun x => x.par 56 4 = k).foldl
    (fun s x => s.collEnd x 0x010A true) (s.abortNoted k) := rfl

theorem State.abortNoted_fields : (s.abortNoted k).mem = s.mem ∧ (s.abortNoted k).tens = s.tens ∧
    (s.abortNoted k).cmd = s.cmd ∧ (s.abortNoted k).tally = s.tally ∧ (s.abortNoted k).coll.colls = s.coll.colls ∧
    (s.abortNoted k).coll.failed = s.coll.failed ∧ (s.abortNoted k).coll.aborted = some k := by
  unfold State.abortNoted
  split
  · exact ⟨rfl, rfl, rfl, rfl, rfl, rfl, ‹_›⟩
  · simp

/-- Collectives ended one by one. -/
def State.collsEnd (s : State) (l : List Coll) : State := l.foldl (fun s x => s.collEnd x 0x010A true) s

theorem State.collsEnd_spec (l : List Coll) (s : State) : (s.collsEnd l).mem = s.mem ∧ (s.collsEnd l).tens = s.tens ∧
    (s.collsEnd l).coll.aborted = s.coll.aborted ∧ (∀ m ∈ s.coll.failed, m ∈ (s.collsEnd l).coll.failed) ∧
    ∀ y ∈ (s.collsEnd l).coll.colls, y ∈ s.coll.colls ∧ ∀ x ∈ l, y.id ≠ x.id := by
  induction l generalizing s with
  | nil => exact ⟨rfl, rfl, rfl, fun _ h => h, fun y hy => ⟨hy, by simp⟩⟩
  | cons x l ih =>
    obtain ⟨hmem, htens, hcolls, hfailed, haborted⟩ := State.collEnd_fields (s := s) (x := x) (d := 0x010A) (tell := true)
    obtain ⟨hmem', htens', haborted', hfailed', hcolls'⟩ := ih (s.collEnd x 0x010A true)
    refine ⟨hmem'.trans hmem, htens'.trans htens, haborted'.trans haborted,
      fun m hm => hfailed' m (hfailed ▸ List.mem_append_left _ hm), fun y hy => ?_⟩
    obtain ⟨hy', hids⟩ := hcolls' y hy
    rw [hcolls, List.mem_filter, decide_eq_true_eq] at hy'
    exact ⟨hy'.1, List.forall_mem_cons.2 ⟨hy'.2, hids⟩⟩

theorem State.EndedApart.collsEnd {l : List Coll} (h : s.EndedApart n o) (hl : ∀ x ∈ l, x.id ≠ n) :
    (s.collsEnd l).EndedApart n o := by
  induction l generalizing s with
  | nil => exact h
  | cons x l ih =>
    obtain ⟨hx, hrest⟩ := List.forall_mem_cons.1 hl
    exact ih (h.collEnd hx) hrest

/-- An aborted step leaves memory and tensors, and no collective of it. -/
theorem State.abortStep_spec : (s.abortStep k).mem = s.mem ∧ (s.abortStep k).tens = s.tens ∧
    (s.abortStep k).coll.aborted = some k ∧ (∀ m ∈ s.coll.failed, m ∈ (s.abortStep k).coll.failed) ∧
    ∀ y ∈ (s.abortStep k).coll.colls, y ∈ s.coll.colls ∧ y.par 56 4 ≠ k := by
  obtain ⟨hmem, htens, -, -, hcolls, hfailed, haborted⟩ := State.abortNoted_fields (s := s) (k := k)
  obtain ⟨hmem', htens', haborted', hfailed', hcolls'⟩ :=
    State.collsEnd_spec ((s.abortNoted k).coll.colls.filter fun x => x.par 56 4 = k) (s.abortNoted k)
  refine ⟨hmem'.trans hmem, htens'.trans htens, haborted'.trans haborted, fun m hm => hfailed' m (hfailed ▸ hm),
    fun y hy => ?_⟩
  obtain ⟨hin, hids⟩ := hcolls' y hy
  exact ⟨hcolls ▸ hin, fun hstep => hids y (List.mem_filter.2 ⟨hin, by simpa using hstep⟩) rfl⟩

theorem State.EndedApart.abortStep (h : s.EndedApart n o) (hgone : ∀ y ∈ s.coll.colls, y.id ≠ n) :
    (s.abortStep k).EndedApart n o := by
  obtain ⟨-, -, hcmd, htally, hcolls, -⟩ := State.abortNoted_fields (s := s) (k := k)
  exact State.EndedApart.collsEnd (h.of_eq hcmd fun w hw => htally ▸ hw) fun x hx =>
    hgone x (hcolls ▸ List.mem_of_mem_filter hx)

/-! ### A collective fails (R327) -/

theorem State.collFail_spec (hc : s.cmdOf x.id = some c) (hopen : c.phase.unfinished = true) (hdone : x.localDone = false)
    (hw : ∀ w ∈ s.tally.waiters, w.owner ≠ .command x.id) (ht : t = s.collFail x d tell) :
    t.Ended x.id (Outcome.aborted d) ∧ x.id ∈ t.coll.failed ∧
      (∀ y ∈ t.coll.colls, y.id ≠ x.id ∧ y.par 56 4 ≠ x.par 56 4) ∧ t.coll.aborted = some (x.par 56 4) ∧
      t.mem = s.mem ∧ t.tens = s.tens := by
  obtain ⟨hmem, htens, hcolls, hfailed, -⟩ := State.collEnd_fields (s := s) (x := x) (d := d) (tell := tell)
  obtain ⟨hmem', htens', haborted', hfailed', hcolls'⟩ := State.abortStep_spec (s := s.collEnd x d tell) (k := x.par 56 4)
  have hgone : ∀ y ∈ (s.collEnd x d tell).coll.colls, y.id ≠ x.id := fun y hy => by
    rw [hcolls, List.mem_filter, decide_eq_true_eq] at hy
    exact hy.2
  have hcoll : t.coll = ((s.collEnd x d tell).abortStep (x.par 56 4)).coll := by
    rw [ht, State.collFail, State.collWake_leaves State.coll (fun _ _ => rfl)]
  refine ⟨?_, ?_, ?_, ?_, ?_, ?_⟩
  · rw [ht]
    exact ((State.collEnd_endedApart hc hopen hdone hw).abortStep hgone).collWake.spec
  · rw [hcoll]
    exact hfailed' _ (by rw [hfailed]; simp)
  · rw [hcoll]
    exact fun y hy => ⟨hgone y (hcolls' y hy).1, (hcolls' y hy).2⟩
  · rw [hcoll, haborted']
  · rw [ht, State.collFail, State.collWake_leaves State.mem (fun _ _ => rfl), hmem', hmem]
  · rw [ht, State.collFail, State.collWake_leaves State.tens (fun _ _ => rfl), htens', htens]

theorem exec_of_failing {i : Instr} (hrow : (∃ axis seq detail, i = .fail axis seq detail ∧ s.collBySeq axis seq = some x ∧
      d = detail % 65536) ∨ i = .peerSilent x.id ∧ s.collOf x.id = some x ∧ x.slot.isSome = true ∧
      s.fld Reg.collTimeout 31 0 ≠ 0 ∧ d = 0x0109) : ∃ tell, exec i s = .next (s.collFail x d tell) := by
  rcases hrow with ⟨axis, seq, detail, rfl, hx, rfl⟩ | ⟨rfl, hx, hslot, hlimit, rfl⟩
  · exact ⟨false, by rw [exec_fail, execFail, hx]⟩
  · exact ⟨true, by simp only [exec_peerSilent, execPeerSilent, hx, hslot, hlimit, ne_eq, not_false_eq_true, and_self, if_true]⟩

theorem exec_collAbort_spec {v : Nat} (hup : s.Up) : ∃ t, exec (.collAbort v) s = .next t ∧ t.coll.aborted = some (v % 2 ^ 32) ∧
    (∀ y ∈ t.coll.colls, y.par 56 4 ≠ v % 2 ^ 32) ∧ t.mem = s.mem ∧ t.tens = s.tens := by
  obtain ⟨hmem, htens, haborted, -, hcolls⟩ := State.abortStep_spec (s := s) (k := v % 2 ^ 32)
  refine ⟨(s.abortStep (v % 2 ^ 32)).collWake, by rw [exec_collAbort, execCollAbort, hup.when], ?_⟩
  rw [State.collWake_leaves State.coll (fun _ _ => rfl), State.collWake_leaves State.mem (fun _ _ => rfl),
    State.collWake_leaves State.tens (fun _ _ => rfl)]
  exact ⟨haborted, fun y hy => (hcolls y hy).2, hmem, htens⟩

/-! ### A command that waited for marks (R328) -/

/-- A command that waited for marks finds that a collective it waited for has failed. -/
theorem exec_markWaitEnd_of_failed (h : s.Waits n c) (haux : c.aux = [5]) (hfailed : ∃ m ∈ s.readMarks c, m ∈ s.coll.failed) :
    exec (.markWaitEnd n) s = .next (if c.opcode = 0x0706 then
        (s.toPeers (.verdict stAborted 0x0187)).finish n (Outcome.aborted 0x0187)
      else match s.collOf n with
        | some x => s.collFail x 0 true
        | none => s.finish n (Outcome.aborted 0)) := by
  have hany : (s.readMarks c).any s.coll.failed.contains = true := by
    obtain ⟨m, hm, hf⟩ := hfailed
    exact List.any_eq_true.2 ⟨m, hm, List.contains_iff_mem.2 hf⟩
  rw [exec_markWaitEnd, execMarkWaitEnd, h.resume, haux, if_neg (by decide), if_neg (by decide), if_pos hany,
    State.onImposition_current h.units, h.id] <;> rfl

theorem exec_markWaitEnd_of_cleared {r : Nat} (h : s.Waits n c) (haux : c.aux = [r]) (hr : r = 5 ∨ r = 20)
    (hnone : ∀ m ∈ s.readMarks c, m ∉ s.coll.failed) (hop : functionOf c.opcode < 10) (hfree : s.holdReason c ≠ some r) :
    exec (.markWaitEnd n) s = .next (s.updCmd n fun c => { c with phase := .dispatched, aux := [] }) := by
  have hany : ¬ (s.readMarks c).any s.coll.failed.contains = true := by
    simpa [List.any_eq_true] using hnone
  have hwake : s.wake r c = s.updCmd n fun c => { c with phase := .dispatched, aux := [] } := by
    rw [← State.resume_wake h haux hop hfree, h.resume]
  rw [exec_markWaitEnd, execMarkWaitEnd, h.resume, haux, ← hwake]
  rcases hr with rfl | rfl
  · rw [if_neg (by decide), if_neg (by decide), if_neg hany]
  · rw [if_pos rfl]

/-- Settles O47: a failure ends the collective and its step; what waited for marks ends or begins again (log 70). -/
theorem aFailedCollectiveEndsItsStep : Obligations.AFailedCollectiveEndsItsStep := by
  unfold Obligations.AFailedCollectiveEndsItsStep
  refine ⟨fun s x c i d hc hopen hdone hw hrow => ?fails, fun s v hup => exec_collAbort_spec hup, fun s n c h => ⟨fun haux hfailed =>
    ⟨fun hop => ?update, fun hop hx => ?plain, fun x hop hx => ?collective⟩,
      fun r haux hr hnone hop hfree => exec_markWaitEnd_of_cleared h haux hr hnone hop hfree⟩⟩
  case fails =>
    obtain ⟨tell, hexec⟩ := exec_of_failing hrow
    exact ⟨_, hexec, State.collFail_spec hc hopen hdone hw rfl⟩
  case update => rw [exec_markWaitEnd_of_failed h haux hfailed, if_pos hop]
  case plain => rw [exec_markWaitEnd_of_failed h haux hfailed, if_neg hop, hx]
  case collective => rw [exec_markWaitEnd_of_failed h haux hfailed, if_neg hop, hx]

end Sys2Proof.Machine
end

section
/-! SUPPORT. Rules of the Feeder: a stream after changes, the registers that show it, the end of its commands, and what a
write of bytes leaves (13 R336, R341, R344, R351). -/

namespace Sys2Proof.Machine

variable {s t u : State} {n k a : Nat} {c : Cmd} {x y : FeedStream} {o : Outcome} {d : List Byte}

theorem exec_feedOpen (n : Nat) (s : State) : exec (.feedOpen n) s = execFeedOpen n s := rfl

theorem exec_feedEpoch (n : Nat) (s : State) : exec (.feedEpoch n) s = execFeedEpoch n s := rfl

theorem exec_feedRows (n : Nat) (bad : List Nat) (s : State) : exec (.feedRows n bad) s = execFeedRows n bad s := rfl

theorem exec_feedSkipLog (n : Nat) (s : State) : exec (.feedSkipLog n) s = execFeedSkipLog n s := rfl

theorem exec_feedClose (n : Nat) (s : State) : exec (.feedClose n) s = execFeedClose n s := rfl

/-! ### A stream -/

theorem State.stream_congr (h : t.feed = s.feed) : t.stream n = s.stream n := by rw [State.stream, h, State.stream]

theorem State.stream_number (h : s.stream n = some x) : x.number = n := by simpa using List.find?_some h

theorem State.stream_updStream {f : FeedStream → FeedStream} (h : s.stream n = some x) (hf : (f x).number = n) :
    (s.updStream n f).stream n = some (f x) := by
  unfold State.stream at h
  simp only [State.stream, State.updStream]
  generalize s.feed.streams = l at h ⊢
  induction l with
  | nil => cases h
  | cons z l ih =>
    simp only [List.map_cons, List.find?_cons] at h ⊢
    by_cases hz : z.number = n
    · simp only [hz, decide_true, Option.some.injEq] at h
      subst h
      simp [hz, hf]
    · simp only [hz, decide_false] at h
      simpa [hz] using ih h

/-- The registers that show a stream. -/
def ShowsStream (k off : Nat) : Prop :=
  off = Reg.feedStream k ∨ off = Reg.feedEpoch k ∨ off = Reg.feedSkips k ∨ off = Reg.feedCache k

/-- Showing a stream writes its registers alone. -/
theorem State.reg_showStream {off : Nat} (h : ¬ ShowsStream x.number off) : (s.showStream x).reg off = s.reg off := by
  simp only [ShowsStream, not_or] at h
  obtain ⟨hstream, hepoch, hskips, hcache⟩ := h
  simp only [State.showStream, State.reg_setReg_other hcache, State.reg_setFld_other hskips, State.reg_setReg_other hepoch,
    State.reg_setReg_other hstream]

theorem State.showStream_fields : (s.showStream x).mem = s.mem ∧ (s.showStream x).cmd = s.cmd ∧
    (s.showStream x).tens = s.tens ∧ (s.showStream x).tally = s.tally ∧ (s.showStream x).feed = s.feed := by
  simp only [State.showStream, State.setReg_fields, State.setFld_fields, and_self]

theorem State.putStream_fields : (s.putStream x).mem = s.mem ∧ (s.putStream x).cmd = s.cmd ∧ (s.putStream x).tens = s.tens ∧
    (s.putStream x).tally = s.tally := by
  obtain ⟨hmem, hcmd, htens, htally, -⟩ := State.showStream_fields (s := s.updStream x.number fun _ => x) (x := x)
  exact ⟨hmem, hcmd, htens, htally⟩

/-- A stream put back in the place of the one with its number. -/
theorem State.stream_putStream (h : s.stream n = some x) (hy : y.number = n) : (s.putStream y).stream n = some y := by
  obtain ⟨-, -, -, -, hfeed⟩ := State.showStream_fields (s := s.updStream y.number fun _ => y) (x := y)
  rw [State.putStream, State.stream_congr hfeed, hy]
  exact State.stream_updStream h hy

/-! ### The end of a command of the Feeder -/

/-- A command that waited behind another of its stream, reconsidered. -/
def Cmd.feedWoken (c : Cmd) : Cmd := if c.phase = .waiting ∧ c.aux = [18] then { c with phase := .dispatched, aux := [] } else c

theorem Cmd.feedWoken_id : c.feedWoken.id = c.id := by
  unfold Cmd.feedWoken
  split <;> rfl

theorem State.wakeFeed_cmds : s.wakeFeed.cmd.cmds = s.cmd.cmds.map Cmd.feedWoken := rfl

/-- What waits behind a command of the Feeder going on leaves a command that has ended. -/
theorem State.Ended.wakeFeed (h : s.Ended n o) : s.wakeFeed.Ended n o := by
  obtain ⟨c, hc, hphase, hrest⟩ := h
  have hsame : c.feedWoken = c := if_neg fun hw => by rw [hphase] at hw; exact absurd hw.1 (by decide)
  refine ⟨c, ?_, hphase, hrest⟩
  rw [State.cmdOf_map State.wakeFeed_cmds fun _ => Cmd.feedWoken_id, hc, Option.map_some, hsame]

theorem State.feedEnd_ended (h : s.cmdOf n = some c) : (s.feedEnd n o).Ended n o := (State.finish_ended h).wakeFeed

theorem State.feedEnd_fields : (s.feedEnd n o).mem = s.mem ∧ (s.feedEnd n o).tens = s.tens ∧ (s.feedEnd n o).tally = s.tally ∧
    (s.feedEnd n o).feed = s.feed ∧ (s.feedEnd n o).regs = s.regs := ⟨rfl, rfl, rfl, rfl, rfl⟩

/-! ### What a write of bytes leaves -/

theorem State.storeOpen_leaves {β : Type} (part : State → β) (hmem : ∀ (u : State) m, part { u with mem := m } = part u)
    (d : List Byte) (a : Nat) (s : State) : part (State.storeOpen d a s) = part s := by
  have hbyte (u : State) (b : Byte) (i : Nat) : part (u.storeByte i b) = part u := by
    unfold State.storeByte
    split
    · rfl
    · exact hmem u _
  induction d generalizing a s with
  | nil => rfl
  | cons b d ih =>
    rw [State.storeOpen, ih]
    split
    · split
      · rfl
      · exact hbyte s b a
    · exact hbyte s b a

/-- A part of the state apart from memory, registers and links is as it was once bytes are saved whole. -/
theorem State.saveBytes_leaves {β : Type} (part : State → β) (hmem : ∀ (u : State) m, part { u with mem := m } = part u)
    (hregs : ∀ (u : State) r, part { u with regs := r } = part u) (hfab : ∀ (u : State) f, part { u with fab := f } = part u)
    (h : s.saveBytes a d = (u, none)) : part u = part s := by
  have hwhole : (s.mergeStops a d.length).isEmpty = true := by
    by_contra hbad
    have hsome := congrArg Prod.snd h
    simp [State.saveBytes, hbad] at hsome
  have hnil := List.isEmpty_iff.1 hwhole
  have hu := congrArg Prod.fst h
  simp only [State.saveBytes, hnil, List.foldl_nil, List.isEmpty_nil, if_true] at hu
  have hunbacked (v : State) (p : Prop) [Decidable p] : part (if p then v.unbackedHit else v) = part v := by
    split
    · exact (hregs _ _).trans (hregs _ _)
    · rfl
  have hclearing (v : State) : part (v.clearingHit a d.length) = part v :=
    State.foldl_leaves part (fun w g => (hregs _ _).trans (hregs _ _)) _
  rw [← hu, State.qpWritten_leaves part hfab]
  exact (hmem _ _).trans ((State.storeOpen_leaves part hmem d a _).trans ((hclearing _).trans (hunbacked s _)))

/-! ### Pages taken -/

/-- Pages taken leave the bytes of memory, and everything but memory and the counter of free values. -/
theorem State.takePages_leaves {β : Type} (part : State → β) (hfree : ∀ u : State, part u.free.2 = part u)
    (hused : ∀ (u : State) l ch, part { u with mem := { u.mem with usedPages := l, lastChannel := ch } } = part u)
    {l : List Nat} : part (State.takePages k s l).2 = part s := by
  induction k generalizing s l with
  | zero => rfl
  | succ k ih =>
    unfold State.takePages
    split
    · rfl
    · exact ih.trans ((hused _ _ _).trans (hfree s))

end Sys2Proof.Machine
end

section
/-! SUPPORT and PROOF. The Feeder's commands (13 R336, R341 to R344, R346, R351). -/

namespace Sys2Proof.Machine

variable {s t u v : State} {n k gib : Nat} {c d : Cmd} {x y : FeedStream} {p : Pack}

/-! ### FEED_OPEN (R336) -/

/-- The stream that FEED_OPEN opens. -/
def Cmd.newStream (c : Cmd) (gib : Nat) (pages : List Nat) : FeedStream :=
  { number := c.par 32 1, imgC := c.par 35 1, imgH := c.par 52 2, imgW := c.par 54 2, manifest := c.par 36 8,
    vocab := c.par 48 4, cacheGib := gib, cachePages := pages, started := false, shuffled := false, deadline := false,
    pad := false, epoch := 0, seed := 0, entries := 0, shardCount := 1, shardIndex := 0, nextPos := 0, nextOffset := 0,
    decoded := [], log := [], cache := [] }

/-- A stream opened in a state, shown with its count of entries. -/
def State.openStream (s : State) (x : FeedStream) (entries : Nat) : State :=
  (({ s with feed := { s.feed with streams := s.feed.streams ++ [x] } }).setReg (Reg.feedEntries x.number) entries).showStream x

/-- The bytes, tensors, tallies, commands, streams and registers of a state in which pages have been taken. -/
theorem State.takePages_opened {l : List Nat} (hv : v = (State.takePages k s l).2) : v.mem.bytes = s.mem.bytes ∧
    v.tens = s.tens ∧ v.tally = s.tally ∧ v.cmd = s.cmd ∧ v.feed = s.feed := by
  subst hv
  exact ⟨State.takePages_leaves (fun u => u.mem.bytes) (fun _ => rfl) (fun _ _ _ => rfl),
    State.takePages_leaves State.tens (fun _ => rfl) (fun _ _ _ => rfl),
    State.takePages_leaves State.tally (fun _ => rfl) (fun _ _ _ => rfl),
    State.takePages_leaves State.cmd (fun _ => rfl) (fun _ _ _ => rfl),
    State.takePages_leaves State.feed (fun _ => rfl) (fun _ _ _ => rfl)⟩

theorem State.openStream_spec (hs : s.Sound) (hnone : s.stream x.number = none) (hentries : k < 2 ^ 64)
    (ht : t = s.openStream x k) : t.stream x.number = some x ∧ t.reg (Reg.feedEntries x.number) = k ∧ t.mem = s.mem ∧
      t.tens = s.tens ∧ t.tally = s.tally ∧ t.cmd = s.cmd := by
  let w : State := ({ s with feed := { s.feed with streams := s.feed.streams ++ [x] } } : State)
  have hw : w.Sound := ⟨hs.mem, hs.regs, hs.tallies, hs.flash, hs.rings, hs.links, hs.numbers, hs.vregs, hs.elements⟩
  obtain ⟨hmem, hcmd, htens, htally, hfeed⟩ := State.showStream_fields (s := w.setReg (Reg.feedEntries x.number) k) (x := x)
  have hshown : ¬ ShowsStream x.number (Reg.feedEntries x.number) := by
    simp only [ShowsStream, Reg.feedEntries, Reg.feedStream, Reg.feedEpoch, Reg.feedSkips, Reg.feedCache]
    omega
  rw [ht, State.openStream]
  refine ⟨?_, ?_, hmem, htens, htally, hcmd⟩
  · rw [State.stream_congr hfeed]
    rw [State.stream] at hnone
    simp [State.stream, State.setReg, w, List.find?_append, hnone]
  · rw [State.reg_showStream hshown, State.reg_setReg_same hw, Nat.mod_eq_of_lt hentries]

theorem exec_feedOpen_of_room (h : s.Ready n 0x0901 c) (hb : s.Begins c) (hk : c.par 32 1 < 4)
    (hnone : s.stream (c.par 32 1) = none)
    (himage : c.par 35 1 = 0 ∨ (c.par 35 1 = 1 ∨ c.par 35 1 = 3) ∧ c.par 52 2 ≠ 0 ∧ c.par 54 2 ≠ 0)
    (halign : c.par 36 8 % 32 = 0) (hcount : c.par 44 4 ≠ 0) (hgib : gib = if bit (c.par 33 1) 0 = 1 then c.par 34 1 else 0)
    (hcache : bit (c.par 33 1) 0 = 1 → 0 < gib ∧ gib ≤ 64) (hroom : pagesFor (gib * 2 ^ 30) ≤ s.freePages) {l : List Nat}
    (htake : State.takePages (pagesFor (gib * 2 ^ 30)) s [] = (l, v)) : exec (.feedOpen n) s =
      .next ((v.openStream (c.newStream gib l) (c.par 44 4)).finish n (Outcome.ok (resultWords 0 (c.par 44 4) 0 0))) := by
  have hpart : (bit (c.par 33 1) 0 = 1 ∧ (gib = 0 ∨ 64 < gib)) = False := by
    refine eq_false fun h => ?_
    have := hcache h.1
    omega
  have hshape : ((c.par 35 1 ≠ 0 ∧ c.par 35 1 ≠ 1 ∧ c.par 35 1 ≠ 3) ∨
      c.par 35 1 ≠ 0 ∧ (c.par 52 2 = 0 ∨ c.par 54 2 = 0)) = False := eq_false (by omega)
  have hfault : firstFault [(decide (4 ≤ c.par 32 1) || (s.stream (c.par 32 1)).isSome, 0x0101),
      (decide (c.par 35 1 ≠ 0 ∧ c.par 35 1 ≠ 1 ∧ c.par 35 1 ≠ 3) ||
        (decide (c.par 35 1 ≠ 0) && decide (c.par 52 2 = 0 ∨ c.par 54 2 = 0)), 0x0103),
      (decide (c.par 36 8 % 32 ≠ 0 ∨ c.par 44 4 = 0), 0x0104),
      (decide (bit (c.par 33 1) 0 = 1) && decide (gib = 0 ∨ 64 < gib), 0)] = none := by
    rw [firstFault_eq_none]
    simp only [List.forall_mem_cons, List.not_mem_nil, false_implies, implies_true, and_true, hnone, Option.isSome_none,
      Bool.or_false, decide_eq_false_iff_not, ← Bool.decide_and, ← Bool.decide_or, hpart, hshape, not_false_eq_true, true_and]
    omega
  have hgiven : (if decide (bit (c.par 33 1) 0 = 1) = true then c.par 34 1 else 0) = gib := by simp only [hgib, decide_eq_true_eq]
  rw [exec_feedOpen, execFeedOpen, h.work hb]
  simp only [hgiven, hfault, if_neg (Nat.not_lt.2 hroom), htake, h.id]
  rfl

/-! ### FEED_EPOCH (R341, R342) -/

/-- The stream with its order and its place set. -/
def Cmd.epochOf (c : Cmd) (x : FeedStream) : FeedStream :=
  { x with
    started := true, shuffled := decide (c.par 33 1 = 1), deadline := decide (bit (c.par 34 1) 0 = 1),
    pad := decide (bit (c.par 34 1) 1 = 1), epoch := c.par 36 4, seed := c.par 40 8, entries := c.latch.extra.getD 0 0,
    shardCount := c.par 48 4, shardIndex := c.par 52 4, nextPos := c.par 56 4, nextOffset := c.par 60 3, decoded := [] }

theorem exec_feedEpoch_of_order (h : s.Ready n 0x0902 c) (hb : s.Begins c)
    (hfree : (s.feedBusy c fun d => d.opcode = 0x0903) = false) (hx : s.stream (c.par 32 1) = some x)
    (hcount : 0 < c.par 48 4) (hmany : c.par 48 4 ≤ 65536) (hindex : c.par 52 4 < c.par 48 4)
    (hpos : c.par 56 4 % c.par 48 4 = c.par 52 4) (hend : c.par 56 4 < c.latch.extra.getD 0 0) (horder : c.par 33 1 ≤ 1) :
    exec (.feedEpoch n) s = .next ((s.putStream (c.epochOf x)).feedEnd n
      (Outcome.ok (resultWords 0 (c.latch.extra.getD 0 0) 0 0))) := by
  have hfits : ¬ (c.par 48 4 = 0 ∨ 65536 < c.par 48 4 ∨ c.par 48 4 ≤ c.par 52 4 ∨ c.par 56 4 % c.par 48 4 ≠ c.par 52 4 ∨
      c.latch.extra.getD 0 0 ≤ c.par 56 4) := by omega
  rw [exec_feedEpoch, execFeedEpoch, h.work hb]
  simp only [hfree, Bool.false_eq_true, if_false, hx, if_neg hfits, if_neg (Nat.not_lt.2 horder), h.id]
  rfl

/-! ### FEED_ROWS (R346, R348) -/

/-- The workers in service follow from FEED_WORKERS and FEED_FAULTS. -/
theorem State.noWorkers_congr (h : ∀ g < 4, t.reg (Reg.feedWorkers g) = s.reg (Reg.feedWorkers g) ∧
    t.reg (Reg.feedFaults g) = s.reg (Reg.feedFaults g)) : t.noWorkers = s.noWorkers := by
  have hall : ∀ l : List Nat, (∀ g ∈ l, g < 4) →
      (l.all fun g => (t.reg (Reg.feedWorkers g) ||| t.reg (Reg.feedFaults g)) = 2 ^ 64 - 1) =
      l.all fun g => (s.reg (Reg.feedWorkers g) ||| s.reg (Reg.feedFaults g)) = 2 ^ 64 - 1 := fun l hl => by
    induction l with
    | nil => rfl
    | cons g l ih =>
      obtain ⟨hg, hrest⟩ := List.forall_mem_cons.1 hl
      rw [List.all_cons, List.all_cons, ih hrest, (h g hg).1, (h g hg).2]
  exact hall _ fun g hg => List.mem_range.1 hg

/-- FEED_WORKERS and FEED_FAULTS lie below FEED_EVENTS. -/
theorem feedRegisters_apart {g : Nat} (h : g < 4) : Reg.feedWorkers g ≠ Reg.feedEvents ∧ Reg.feedFaults g ≠ Reg.feedEvents := by
  simp only [Reg.feedWorkers, Reg.feedFaults, Reg.feedEvents]
  omega

/-- A FEED_ROWS that runs: its command waits for samples. -/
def State.rowsBegun (s : State) (n : Nat) : State := (s.addSat Reg.feedEvents 31 16 0).park n [19]

theorem State.noWorkers_rowsBegun : (s.rowsBegun n).noWorkers = s.noWorkers := by
  refine State.noWorkers_congr fun g hg => ?_
  obtain ⟨hworkers, hfaults⟩ := feedRegisters_apart hg
  rw [State.rowsBegun, State.reg_park, State.reg_park, State.addSat, State.reg_setFld_other hworkers,
    State.reg_setFld_other hfaults]
  exact ⟨rfl, rfl⟩

theorem State.cmdOf_rowsBegun (h : s.cmdOf n = some c) :
    (s.rowsBegun n).cmdOf n = some { c with phase := .waiting, aux := [19] } :=
  State.cmdOf_park ((State.cmdOf_congr (by rw [(State.addSat_fields s _ _ _ _).2.2.2.2.2.1])).trans h)

/-- The command of a FEED_ROWS that waits for samples. -/
def Cmd.rowsWait (c : Cmd) : Cmd := { c with phase := .waiting, aux := [19] }

theorem exec_feedRows_of_ready (h : s.Ready n 0x0903 c) (hb : s.Begins c)
    (hfree : (s.feedBusy c fun d => d.opcode = 0x0903 ∨ d.opcode = 0x0902) = false) (hfault : s.rowsFault c = none)
    (hx : s.stream (c.par 32 1) = some x) : exec (.feedRows n []) s = .next ((s.rowsBegun n).feedAdvance c.rowsWait) := by
  have hfound := State.cmdOf_rowsBegun h.found
  rw [exec_feedRows, execFeedRows, h.work hb]
  simp only [hfree, Bool.false_eq_true, if_false, hfault, hx, List.filter_nil, List.length_nil, h.id]
  rw [← State.rowsBegun, hfound, Cmd.rowsWait]

theorem State.stream_rowsBegun {m : Nat} : (s.rowsBegun n).stream m = s.stream m :=
  State.stream_congr (by simp only [State.rowsBegun, State.park_fields, State.addSat_fields])

/-- A FEED_ROWS that needs a sample waits for it. -/
theorem State.feedAdvance_of_needs {q : Nat} (hworkers : s.noWorkers = false) (hx : s.stream (d.par 32 1) = some x)
    (hp : x.progress d = .needs q) : s.feedAdvance d = s := by
  simp only [State.feedAdvance, hworkers, Bool.false_eq_true, if_false, hx, hp]

/-- A FEED_ROWS whose rows are packed writes them. -/
theorem State.feedAdvance_of_done {pos off : Nat} {fin : Bool} (hworkers : s.noWorkers = false)
    (hx : s.stream (d.par 32 1) = some x) (hp : x.progress d = .done p pos off fin) :
    s.feedAdvance d = s.emit d x p pos off fin := by
  simp only [State.feedAdvance, hworkers, Bool.false_eq_true, if_false, hx, hp]

/-- A skip logged and counted leaves the commands. -/
theorem State.logSkip_cmd {e : Nat × Nat × Nat} : (s.logSkip x e).1.cmd = s.cmd := by
  unfold State.logSkip
  dsimp only
  split <;> simp only [State.addSat_fields]

theorem State.logSkips_cmd (l : List (Nat × Nat × Nat)) (r : State × FeedStream) :
    (l.foldl (fun (r : State × FeedStream) e => r.1.logSkip r.2 e) r).1.cmd = r.1.cmd := by
  induction l generalizing r with
  | nil => rfl
  | cons e l ih => rw [List.foldl_cons, ih, State.logSkip_cmd]

/-- Elements put in a tensor, if it is declared. -/
def State.putTokens (s : State) (h : Nat) (f : Tensor → Codes) : State :=
  match s.tensor h with
  | some t => s.writeData h fun _ => f t
  | none => s

theorem State.putTokens_cmd {h : Nat} {f : Tensor → Codes} : (s.putTokens h f).cmd = s.cmd := by
  unfold State.putTokens
  split <;> rfl

/-- A FEED_ROWS whose rows are packed ends with what it packed, skipped and left. -/
theorem State.emit_ended {pos off : Nat} {fin : Bool} (hn : s.cmdOf n = some c) : (s.emit c x p pos off fin).Ended n
    (Outcome.ok (resultWords (c.par 48 4) p.skips.length pos (off % 2 ^ 24 + ofBool fin * 2 ^ 24 + ofBool p.late * 2 ^ 25))) := by
  have hid : c.id = n := by simpa using List.find?_some hn
  unfold State.emit
  rw [hid]
  refine State.feedEnd_ended (c := c) ((State.cmdOf_congr ?_).trans hn)
  obtain ⟨-, hput, -⟩ := State.putStream_fields (s := State.addSat _ _ _ _ _) (x := FeedStream.mk ..)
  rw [hput, (State.addSat_fields _ _ _ _ _).2.2.2.2.2.1, State.logSkips_cmd, State.markOutputs_cmd]
  change (if x.imgC = 0 ∧ c.par 44 4 ≠ noHandle then ((s.putTokens _ _).putTokens _ _).putTokens _ _
    else (s.putTokens _ _).putTokens _ _).cmd = _
  split <;> simp only [State.putTokens_cmd]

/-! ### FEED_SKIP_LOG (R344) -/

/-- The bytes of entries of a skip log. -/
def skipLogBytes (l : List (Nat × Nat × Nat × Nat)) : List Byte :=
  (l.map fun e => leBytes 4 e.1 ++ leBytes 4 e.2.1 ++ leBytes 4 e.2.2.1 ++ leBytes 4 e.2.2.2).flatten

theorem skipLogBytes_length (l : List (Nat × Nat × Nat × Nat)) : (skipLogBytes l).length = 16 * l.length := by
  simp only [skipLogBytes, List.length_flatten, List.map_map, Function.comp_def, List.length_append, leBytes_length,
    List.map_const', List.sum_replicate_nat]
  omega

/-- Entries of a skip log written to a range of this node end the command, with the streams as they were. -/
theorem State.deliver_skipLog {l : List (Nat × Nat × Nat × Nat)} {a r : Nat} (hn : s.cmdOf n = some c)
    (hnode : nodeOf a = s.node) (hrange : s.rangeFault a (16 * l.length) = none)
    (hgate : s.rangeGate c [] [(localOf a, 16 * l.length)] = none) (hsave : s.saveBytes (localOf a) (skipLogBytes l) = (u, none)) :
    ∃ v : State, s.deliver c a (skipLogBytes l) r 0 = v.finish n (Outcome.ok r) ∧ v.cmdOf n = some c ∧ v.feed = s.feed := by
  have hid : c.id = n := by simpa using List.find?_some hn
  have hlen := skipLogBytes_length l
  cases l with
  | nil => exact ⟨s, by rw [← hid]; rfl, hn, rfl⟩
  | cons e l =>
    have hsome : skipLogBytes (e :: l) ≠ [] := List.ne_nil_of_length_pos (by rw [hlen, List.length_cons]; omega)
    refine ⟨u, ?_, (State.cmdOf_congr (State.saveBytes_leaves State.cmd (fun _ _ => rfl) (fun _ _ => rfl) (fun _ _ => rfl)
      hsave)).trans hn, State.saveBytes_leaves State.feed (fun _ _ => rfl) (fun _ _ => rfl) (fun _ _ => rfl) hsave⟩
    rw [State.deliver_of_writable hsome hnode (hlen ▸ hrange) (hlen ▸ hgate) hsave, hid]

theorem exec_feedSkipLog_of_log {l left : List (Nat × Nat × Nat × Nat)} (h : s.Ready n 0x0904 c) (hb : s.Begins c)
    (hx : s.stream (c.par 32 1) = some x) (halign : c.par 40 8 % 16 = 0) (hpos : 0 < c.par 48 4) (hmax : c.par 48 4 ≤ 4096)
    (hnode : nodeOf (c.par 40 8) = s.node) (hl : l = x.log.take (c.par 48 4))
    (hleft : left = if bit (c.par 33 1) 0 = 1 then x.log.drop l.length else x.log)
    (hrange : s.rangeFault (c.par 40 8) (16 * l.length) = none)
    (hgate : s.rangeGate c [] [(localOf (c.par 40 8), 16 * l.length)] = none)
    (hsave : s.saveBytes (localOf (c.par 40 8)) (skipLogBytes l) = (u, none)) (haux : c.aux = []) :
    ∃ t, exec (.feedSkipLog n) s = .next t ∧ t.Ended n (Outcome.ok (resultWords l.length left.length 0 0)) ∧
      t.stream (c.par 32 1) = some { x with log := left } := by
  obtain ⟨v, hdeliver, hfound, hfeed⟩ :=
    State.deliver_skipLog (r := resultWords l.length left.length 0 0) h.found hnode hrange hgate hsave
  let w := v.finish n (Outcome.ok (resultWords l.length left.length 0 0))
  have hw : w.cmdOf n = some { c with
      phase := .done, status := stOK, detail := 0, result := resultWords l.length left.length 0 0 % 2 ^ 128,
      time := v.time % 2 ^ 48 } := State.cmdOf_updCmd rfl hfound
  have hgoes : ¬ ((w.cmdOf n).any fun c => c.phase = .done ∧ c.status = stAborted ∨ c.aux = [4] ∨ c.aux = [30]) = true := by
    rw [hw]
    simp [haux, stOK, stAborted]
  have hfits : ¬ (c.par 40 8 % 16 ≠ 0 ∨ c.par 48 4 = 0 ∨ 4096 < c.par 48 4) := by omega
  obtain ⟨-, hcmd, -⟩ := State.putStream_fields (s := w) (x := { x with log := left })
  refine ⟨w.putStream { x with log := left }, ?_, ?_, ?_⟩
  · rw [exec_feedSkipLog, execFeedSkipLog, h.work hb]
    simp only [hx, if_neg hfits, ← hl, ← hleft, ← skipLogBytes.eq_1, hdeliver, h.id]
    exact congrArg _ (if_neg hgoes)
  · exact ⟨_, (State.cmdOf_congr hcmd).trans hw, rfl, rfl, rfl, rfl⟩
  · exact State.stream_putStream (x := x) ((State.stream_congr hfeed).trans hx) (State.stream_number (x := x) hx)

/-! ### FEED_CLOSE (R351) -/

/-- A stream closed: its pages given back, its registers zero. -/
def State.closeStream (s : State) (x : FeedStream) : State :=
  let s := s.givePages x.cachePages
  let s := { s with feed := { s.feed with streams := s.feed.streams.filter fun y => y.number ≠ x.number } }
  let s := (s.setReg (Reg.feedStream x.number) 0).setReg (Reg.feedEpoch x.number) 0
  (s.setFld (Reg.feedSkips x.number) 12 0 0).setReg (Reg.feedCache x.number) 0

theorem exec_feedClose_of_open (h : s.Ready n 0x0905 c) (hb : s.Begins c) (hfree : (s.feedBusy c fun _ => true) = false)
    (hx : s.stream (c.par 32 1) = some x) : exec (.feedClose n) s =
      .next ((s.closeStream x).feedEnd n (Outcome.ok (resultWords 0 (x.cacheGib * 2 ^ 20) 0 0))) := by
  rw [exec_feedClose, execFeedClose, h.work hb]
  simp only [hfree, Bool.false_eq_true, if_false, hx, h.id]
  rfl

theorem State.closeStream_spec : (s.closeStream x).cmd = s.cmd ∧ (s.closeStream x).mem.bytes = s.mem.bytes ∧
    (s.closeStream x).tens = s.tens ∧ (s.closeStream x).stream x.number = none := by
  refine ⟨rfl, rfl, rfl, List.find?_eq_none.2 fun y hy => ?_⟩
  exact fun hnum => absurd (of_decide_eq_true hnum) (of_decide_eq_true (List.mem_filter.1 hy).2)

/-- Settles O48: each command of the Feeder, on the stream it names; the RESULT of FEED_CLOSE is log 75, the model's choice. -/
theorem feederCommandsComplete : Obligations.FeederCommandsComplete := by
  unfold Obligations.FeederCommandsComplete
  intro s n k c hs hb hk
  subst hk
  refine ⟨fun gib h hk hnone himage halign hcount hgib hcache hroom => ?opens,
    fun x h hfree hx hcount hmany hindex hpos hend horder => ?epoch, fun x d h hfree hfault hworkers hx hd => ?rows,
    fun x u l left h hx halign hpos hmax hnode hl hleft hrange hgate hsave haux => ?log, fun x h hfree hx => ?closes⟩
  case opens =>
    obtain ⟨l, v, htake⟩ : ∃ l v, State.takePages (pagesFor (gib * 2 ^ 30)) s [] = (l, v) := ⟨_, _, Prod.mk.eta.symm⟩
    have hv : v = (State.takePages (pagesFor (gib * 2 ^ 30)) s []).2 := (congrArg Prod.snd htake).symm
    obtain ⟨hbytes, htens, htally, hcmd, hfeed⟩ := State.takePages_opened hv
    have hsound : v.Sound := by rw [hv]; exact (State.takePages_kept hs.kept).sound
    have hcount' : c.par 44 4 < 2 ^ 64 := (fieldAt_lt (k := 4)).trans (by decide)
    obtain ⟨hstream, hentries, hmem', htens', htally', hcmd'⟩ :=
      State.openStream_spec (x := c.newStream gib l) hsound ((State.stream_congr hfeed).trans hnone) hcount' rfl
    refine ⟨_, c.newStream gib l, exec_feedOpen_of_room h hb hk hnone himage halign hcount hgib hcache hroom htake,
      State.finish_ended ((State.cmdOf_congr (hcmd'.trans hcmd)).trans h.found),
      (State.stream_congr (State.finish_fields _ _ _).2.2.2.2.2.2.2.2.2.2.2.2.2.2.1).trans hstream, rfl, rfl, rfl, rfl,
      State.reg_finish.trans hentries, ?_⟩
    simp only [State.finish_fields, hmem', hbytes, htens', htens, htally', htally, and_self]
  case epoch =>
    have hnum := State.stream_number hx
    obtain ⟨hmem, hcmd, htens, -⟩ := State.putStream_fields (s := s) (x := c.epochOf x)
    obtain ⟨hmem', htens', -, hfeed, -⟩ := State.feedEnd_fields (s := s.putStream (c.epochOf x)) (n := n)
      (o := Outcome.ok (resultWords 0 (c.latch.extra.getD 0 0) 0 0))
    exact ⟨_, c.epochOf x, exec_feedEpoch_of_order h hb hfree hx hcount hmany hindex hpos hend horder,
      State.feedEnd_ended ((State.cmdOf_congr hcmd).trans h.found),
      (State.stream_congr hfeed).trans (State.stream_putStream (y := c.epochOf x) hx hnum), rfl, rfl, rfl,
      rfl, rfl, rfl, rfl, rfl, rfl, rfl, rfl, hmem'.trans hmem, htens'.trans htens⟩
  case rows =>
    have hrun := exec_feedRows_of_ready h hb hfree hfault hx
    have hnone : (s.rowsBegun n).noWorkers = false := State.noWorkers_rowsBegun.trans hworkers
    have hd' : d = c.rowsWait := hd
    have hstream : (s.rowsBegun n).stream (d.par 32 1) = some x := by rw [hd', State.stream_rowsBegun]; exact hx
    have hfound : (s.rowsBegun n).cmdOf n = some d := by rw [hd]; exact State.cmdOf_rowsBegun h.found
    rw [hrun, ← hd']
    refine ⟨fun q hp => ⟨_, rfl, ?_⟩, fun p pos off fin hp => ⟨_, rfl, ?_⟩⟩
    · rw [State.feedAdvance_of_needs hnone hstream hp]
      exact ⟨hfound, by simp only [State.rowsBegun, State.park_fields, State.addSat_fields]⟩
    · have hrows : d.par 48 4 = c.par 48 4 := by rw [hd']; rfl
      rw [State.feedAdvance_of_done hnone hstream hp, ← hrows]
      exact State.emit_ended hfound
  case log =>
    obtain ⟨t, hrun, hended, hstream⟩ :=
      exec_feedSkipLog_of_log h hb hx halign hpos hmax hnode hl hleft hrange hgate hsave haux
    exact ⟨t, _, hrun, hended, hstream, rfl, rfl⟩
  case closes =>
    obtain ⟨hcmd, hbytes, htens, hstream⟩ := State.closeStream_spec (s := s) (x := x)
    rw [State.stream_number hx] at hstream
    refine ⟨_, exec_feedClose_of_open h hb hfree hx, State.feedEnd_ended ((State.cmdOf_congr hcmd).trans h.found), ?_⟩
    obtain ⟨hmem', htens', -, hfeed, -⟩ := State.feedEnd_fields (s := s.closeStream x) (n := n)
      (o := Outcome.ok (resultWords 0 (x.cacheGib * 2 ^ 20) 0 0))
    rw [State.stream_congr hfeed, hmem', htens']
    exact ⟨hstream, hbytes, htens⟩

end Sys2Proof.Machine
end

section
/-! SUPPORT and PROOF. The workers of the Feeder (13 R348, R350). -/

namespace Sys2Proof.Machine

variable {s t u : State} {k pos a n g w : Nat} {x : FeedStream} {env : Env} {d : List Byte}

theorem exec_decodeDone (stream pos : Nat) (entry bytes : List Byte) (env : Env) (s : State) :
    exec (.decodeDone stream pos entry bytes env) s = execDecodeDone stream pos entry bytes env s := rfl

theorem exec_deadline (stream : Nat) (s : State) : exec (.deadline stream) s = execDeadline stream s := rfl

theorem exec_workerFault (g w : Nat) (s : State) : exec (.workerFault g w) s = execWorkerFault g w s := rfl

theorem exec_workerBypass (g v : Nat) (s : State) : exec (.workerBypass g v) s = execWorkerBypass g v s := rfl

/-! ### A sample decoded (R348) -/

/-- What a worker's reads leave: all but the registers of the fabric. -/
structure WorkerReads (s t : State) : Prop where
  mem : t.mem = s.mem
  tens : t.tens = s.tens
  cmd : t.cmd = s.cmd
  tally : t.tally = s.tally
  feed : t.feed = s.feed

theorem WorkerReads.refl (s : State) : WorkerReads s s := ⟨rfl, rfl, rfl, rfl, rfl⟩

theorem fabricErr_reads {code node : Nat} : WorkerReads s (s.fabricErr code node a) := by
  unfold State.fabricErr
  split
  · exact .refl s
  · constructor <;> simp only [State.setReg_fields]

/-- A read that succeeds, in a memory without a flaw, changes nothing; one that does not is noted as a fault at most. -/
theorem State.feedBytes_spec (hc : s.Clean) :
    WorkerReads s (s.feedBytes env a n d).1 ∧ (∀ b, (s.feedBytes env a n d).2 = .ok b → (s.feedBytes env a n d).1 = s) := by
  unfold State.feedBytes
  rw [hc.readStop]
  split
  · exact ⟨.refl s, fun _ _ => rfl⟩
  · split
    · exact ⟨fabricErr_reads, fun _ h => nomatch h⟩
    · split
      · exact ⟨.refl s, fun _ h => nomatch h⟩
      · exact ⟨.refl s, fun _ _ => rfl⟩

/-- A sample decoded, in a stream whose FEED_ROWS does not run. -/
theorem State.sampleAdded_spec (hu : WorkerReads s u) (hx : s.stream k = some x) (hrows : s.feedRunning k = none) (y : Sample)
    (ht : t = (u.updStream x.number fun x => { x with decoded := x.decoded ++ [(pos, y)] }).feedResume x.number) :
    t.stream k = some { x with decoded := x.decoded ++ [(pos, y)] } ∧ t.mem = s.mem ∧ t.tens = s.tens ∧ t.cmd = s.cmd ∧
      t.tally = s.tally := by
  obtain rfl := State.stream_number hx
  have hstill : (u.updStream x.number fun x => { x with decoded := x.decoded ++ [(pos, y)] }).feedRunning x.number = none := by
    rw [← hrows, State.feedRunning, State.feedRunning, State.updStream, hu.cmd]
  rw [ht, State.feedResume, hstill]
  exact ⟨State.stream_updStream ((State.stream_congr hu.feed).trans hx) rfl, hu.mem, hu.tens, hu.cmd, hu.tally⟩

theorem State.windowHead_of_still (h : s.feedRunning x.number = none) : s.windowHead x = x.nextPos := by
  rw [State.windowHead, h]

/-- The number of entries of the order of a stream. -/
def State.orderCount (s : State) (x : FeedStream) : Nat :=
  if x.shuffled then x.entries else s.fld (Reg.feedEntries x.number) 31 0

theorem exec_decodeDone_spec {entry bytes : List Byte} (hq : env.Quiet) (hc : s.Clean) (hx : s.stream k = some x)
    (hstarted : x.started = true) (hworkers : s.noWorkers = false) (hrows : s.feedRunning x.number = none)
    (hstalled : ∀ a m, s.feedStalled a m = false) (hnew : ∀ e ∈ x.decoded, e.1 ≠ pos) (hfrom : x.nextPos ≤ pos)
    (hwindow : pos - x.nextPos ≤ 4096 * x.shardCount) (hmember : pos % x.shardCount = x.shardIndex)
    (hend : pos < s.orderCount x) : ∃ t d, exec (.decodeDone k pos entry bytes env) s = .next t ∧
      t.stream k = some { x with decoded := x.decoded ++ [(pos, d)] } ∧ t.mem = s.mem ∧ t.tens = s.tens ∧ t.cmd = s.cmd ∧
      t.tally = s.tally := by
  have hnum := State.stream_number hx
  have hplace : ¬ (pos < x.nextPos ∨ s.orderCount x ≤ pos ∨ pos % x.shardCount ≠ x.shardIndex ∨
      4096 * x.shardCount < pos - x.nextPos) := by omega
  have hany : (x.decoded.any fun e => e.1 = pos) = false := by simpa using hnew
  obtain ⟨hfirst, hfirst'⟩ := State.feedBytes_spec (env := env) (a := x.manifest + 32 * x.index pos) (n := 32) (d := entry) hc
  have hadded (u : State) (hu : WorkerReads s u) (y : Sample) := State.sampleAdded_spec (pos := pos) hu hx (hnum ▸ hrows) y rfl
  rw [exec_decodeDone, execDecodeDone, hx]
  dsimp only
  rw [if_neg (by simp only [hstarted, hany, hworkers, hstalled, State.windowHead_of_still hrows, ← State.orderCount.eq_1,
    hplace, decide_false, Bool.not_true, Bool.or_self, Bool.false_eq_true, not_false_eq_true]), State.corrections_quiet hq]
  cases hentry : (s.feedBytes env (x.manifest + 32 * x.index pos) 32 entry).2 with
  | error e => exact ⟨_, _, rfl, hadded _ hfirst _⟩
  | ok e32 =>
    rw [hfirst' e32 hentry]
    dsimp only
    rw [if_neg (by rw [hstalled]; decide)]
    obtain ⟨hsecond, -⟩ := State.feedBytes_spec (env := env) (a := fieldAt e32 0 8) (n := fieldAt e32 8 4) (d := bytes) hc
    cases (s.feedBytes env (fieldAt e32 0 8) (fieldAt e32 8 4) bytes).2 with
    | error e => exact ⟨_, _, rfl, hadded _ hsecond _⟩
    | ok b => exact ⟨_, _, rfl, hadded _ hsecond _⟩

/-- The sample at the head of the window is skipped when its time has passed. -/
theorem exec_deadline_of_head (hx : s.stream k = some x) (hstarted : x.started = true) (hdeadline : x.deadline = true)
    (hrows : s.feedRunning x.number = none) (hnew : ∀ e ∈ x.decoded, e.1 ≠ x.nextPos) (hend : x.nextPos < s.orderCount x) :
    exec (.deadline k) s = .next (s.updStream k fun y => { y with decoded := y.decoded ++ [(x.nextPos, .skip 0x0D)] }) := by
  have hnum := State.stream_number hx
  have hany : (x.decoded.any fun e => e.1 = x.nextPos) = false := by simpa using hnew
  have hstill : (s.updStream k fun y => { y with decoded := y.decoded ++ [(x.nextPos, .skip 0x0D)] }).feedRunning k = none :=
    hnum ▸ hrows
  rw [exec_deadline, execDeadline, hx]
  dsimp only
  rw [if_neg (by simp only [State.windowHead_of_still hrows, ← State.orderCount.eq_1, hstarted, hdeadline, hany,
    Nat.not_le.2 hend, decide_false, Bool.not_true, Bool.or_self, Bool.false_eq_true, not_false_eq_true]),
    State.windowHead_of_still hrows, hnum, State.feedResume, hstill]

/-! ### Workers out of service (R350) -/

/-- A FEED_ROWS that finds no worker ends; nothing but commands changes. -/
theorem State.feedResume_of_noWorkers (h : s.noWorkers = true) : (s.feedResume k).regs = s.regs ∧
    (s.feedResume k).mem = s.mem ∧ (s.feedResume k).tens = s.tens := by
  unfold State.feedResume
  split
  next c _ =>
    rw [State.feedAdvance, if_pos h]
    exact ⟨rfl, rfl, rfl⟩
  next => exact ⟨rfl, rfl, rfl⟩

/-- A change of the workers writes no register of its own. -/
theorem State.checkWorkers_fields : s.checkWorkers.regs = s.regs ∧ s.checkWorkers.mem = s.mem ∧ s.checkWorkers.tens = s.tens := by
  have hall : ∀ (l : List Nat) (u : State), u.noWorkers = true → (l.foldl State.feedResume u).regs = u.regs ∧
      (l.foldl State.feedResume u).mem = u.mem ∧ (l.foldl State.feedResume u).tens = u.tens := by
    intro l
    induction l with
    | nil => exact fun _ _ => ⟨rfl, rfl, rfl⟩
    | cons k l ih =>
      intro u hu
      obtain ⟨hregs, hmem, htens⟩ := State.feedResume_of_noWorkers (k := k) hu
      obtain ⟨hregs', hmem', htens'⟩ := ih (u.feedResume k) <|
        (State.noWorkers_congr fun g _ => ⟨State.reg_congr hregs, State.reg_congr hregs⟩).trans hu
      exact ⟨hregs'.trans hregs, hmem'.trans hmem, htens'.trans htens⟩
  unfold State.checkWorkers
  split
  next h => exact hall _ s h
  next => exact ⟨rfl, rfl, rfl⟩

theorem exec_workerFault_spec (hs : s.Sound) (hg : g < 4) (hw : w < 64) : ∃ t, exec (.workerFault g w) s = .next t ∧
    (∀ i < 64, bit (t.reg (Reg.feedFaults g)) i = if i = w then 1 else bit (s.reg (Reg.feedFaults g)) i) ∧
    t.fld Reg.feedEvents 15 0 = min (s.fld Reg.feedEvents 15 0 + 1) (2 ^ 16 - 1) ∧
    (∀ o, o ≠ Reg.feedFaults g → o ≠ Reg.feedEvents → t.reg o = s.reg o) ∧ t.mem = s.mem ∧ t.tens = s.tens := by
  obtain ⟨-, hapart⟩ := feedRegisters_apart hg
  let v := s.setFld (Reg.feedFaults g) w w 1
  have hv : v.Sound := hs.setFld
  obtain ⟨hregs, hmem, htens⟩ := State.checkWorkers_fields (s := v.addSat Reg.feedEvents 15 0 1)
  have hother (o : Nat) (ho : o ≠ Reg.feedEvents) : ((v.addSat Reg.feedEvents 15 0 1).checkWorkers).reg o = v.reg o := by
    rw [State.reg_congr hregs, State.addSat, State.reg_setFld_other ho]
  refine ⟨(v.addSat Reg.feedEvents 15 0 1).checkWorkers, ?_, fun i _ => ?_, ?_, fun o hfaults hevents => ?_, ?_, ?_⟩
  · rw [exec_workerFault, execWorkerFault, Nat.mod_eq_of_lt hg, Nat.mod_eq_of_lt hw]
  · rw [hother _ hapart, State.reg_setFld_same hs le_rfl hw]
    split
    next hi => rw [hi, bit_putBits_same]
    next hi => rw [bit_putBits_other hi]
  · rw [State.fld_congr (State.reg_congr hregs), State.fld_addSat_same hv (by decide) (by decide),
      State.fld_setFld_other hapart.symm]
  · rw [hother o hevents, State.reg_setFld_other hfaults]
  · rw [hmem]
    simp only [State.addSat_fields, State.setFld_fields, v]
  · rw [htens]
    simp only [State.addSat_fields, State.setFld_fields, v]

theorem exec_workerBypass_spec {v : Nat} (hup : s.Up) (hs : s.Sound) (hg : g < 4) : ∃ t, exec (.workerBypass g v) s = .next t ∧
    t.reg (Reg.feedWorkers g) = v % 2 ^ 64 ∧ (∀ o, o ≠ Reg.feedWorkers g → t.reg o = s.reg o) ∧ t.mem = s.mem ∧
    t.tens = s.tens := by
  obtain ⟨hregs, hmem, htens⟩ := State.checkWorkers_fields (s := s.setReg (Reg.feedWorkers g) v)
  refine ⟨(s.setReg (Reg.feedWorkers g) v).checkWorkers, ?_, ?_, fun o ho => ?_, ?_, ?_⟩
  · rw [exec_workerBypass, execWorkerBypass, hup.when, Nat.mod_eq_of_lt hg]
  · rw [State.reg_congr hregs, State.reg_setReg_same hs]
  · rw [State.reg_congr hregs, State.reg_setReg_other ho]
  · rw [hmem, (State.setReg_fields s _ _).2.2.2.2.1]
  · rw [htens]
    simp only [State.setReg_fields]

/-- Settles O49: a sample decoded or skipped, and workers that leave service. -/
theorem feederWorkersDecode : Obligations.FeederWorkersDecode := by
  unfold Obligations.FeederWorkersDecode
  exact ⟨fun s k pos entry bytes env x hq hc hx hstarted hworkers hrows hstalled hnew hfrom hwindow hmember hend =>
      exec_decodeDone_spec hq hc hx hstarted hworkers hrows hstalled hnew hfrom hwindow hmember hend,
    fun s k x hx hstarted hdeadline hrows hnew hend => exec_deadline_of_head hx hstarted hdeadline hrows hnew hend,
    fun s g w hs hg hw => exec_workerFault_spec hs hg hw, fun s g v hup hs hg => exec_workerBypass_spec hup hs hg⟩

end Sys2Proof.Machine
end

section
/-! SUPPORT and PROOF. Convolution, global average pooling and the Margin engines (14 R354 to R363). -/

namespace Sys2Proof.Machine

variable {s t u v : State} {n g h : Nat} {c : Cmd} {env : Env} {x w y : Tensor} {engines : List Nat} {l : List Write}

theorem exec_conv (n : Nat) (env : Env) (s : State) : exec (.conv n env) s = execConv n env s := rfl

theorem exec_convGrouped (n : Nat) (env : Env) (s : State) : exec (.convGrouped n env) s = execConvGrouped n env s := rfl

theorem exec_globalAvgPool (n : Nat) (env : Env) (s : State) : exec (.globalAvgPool n env) s = execGlobalAvgPool n env s := rfl

theorem exec_marginLayer (n : Nat) (env : Env) (fault : Option Nat) (s : State) :
    exec (.marginLayer n env fault) s = execMarginLayer n env fault s := rfl

theorem exec_marginBypass (v : Nat) (s : State) : exec (.marginBypass v) s = execMarginBypass v s := rfl

/-! ### Tensors whose saves take their space -/

theorem State.takeSave_handles : (s.takeSave h).tens.map (·.handle) = s.tens.map (·.handle) := by
  have hupd (u : State) (f : Tensor → Tensor) (hf : ∀ t, (f t).handle = t.handle) :
      (u.updTensor h f).tens.map (·.handle) = u.tens.map (·.handle) := by
    rw [State.updTensor, List.map_map]
    refine List.map_congr_left fun t _ => ?_
    rw [Function.comp_apply]
    split
    exacts [hf t, rfl]
  rw [State.takeSave, hupd]
  case hf => exact fun _ => rfl
  unfold State.dropImage
  split
  · rfl
  · simp only [State.givePages_fields]
    exact hupd s _ fun _ => rfl

/-- Taking space for saves adds no tensor and removes none. -/
theorem State.takeSaves_handles (hu : s.takeSaves c = some u) : u.tens.map (·.handle) = s.tens.map (·.handle) := by
  refine List.foldlRecOn (motive := fun o => ∀ u, o = some u → u.tens.map (·.handle) = s.tens.map (·.handle)) (s.savesToTake c) _
    (fun u hu => by rw [Option.some.inj hu]) (fun o ho t _ u hu => ?_) u hu
  split at hu
  · cases hu
  next v =>
    split at hu
    · rw [← Option.some.inj hu, State.takeSave_handles, ho v rfl]
    · cases hu

theorem State.takeSaves_tensor (hu : s.takeSaves c = some u) (hy : s.tensor h = some y) : ∃ z ∈ u.tens, z.handle = y.handle := by
  obtain ⟨hmem, -⟩ := State.tensor_mem hy
  have hh : y.handle ∈ u.tens.map (·.handle) := by
    rw [State.takeSaves_handles hu]
    exact List.mem_map_of_mem hmem
  exact List.mem_map.1 hh

/-! ### The rows of a convolution (R356) -/

theorem State.convRows_calm_all (m : Nat) : Calm m u (u.convRows c x w y).1 :=
  State.convRows_calm (c := { c with id := m }) rfl (Calm.refl u)

/-- The code of element `co` of row `r` of the output: the reduction of its taps in a pixel's row, +0 in a later one. -/
def State.convCode (u : State) (c : Cmd) (x w y : Tensor) (r co : Nat) : Nat :=
  let p := convShape c
  let per := p.hout * p.wout
  fp32.encode (if r < p.images * per then
    dotAbsentParts (ArithMode.ofWord c.latch.mode) x.fmt w.fmt (u.kParts c)
      (convTerms p x w (u.operand c x) (u.operand c w) (r / per) (r % per / p.wout) (r % p.wout) co)
      (accInit c.cAccIn y.data (r * y.width + co))
  else (vzero, Flags.none)).1

def State.convWrite (u : State) (c : Cmd) (x w y : Tensor) (r co : Nat) : Write :=
  ⟨y.handle, false, r * y.width + co, u.convCode c x w y r co⟩

/-- With ACC_OUT the rows of a convolution leave the state and write each element. -/
theorem State.convRows_of_accOut (hacc : c.cAccOut = true) : (u.convRows c x w y).1 = u ∧
    (u.convRows c x w y).2.1 = (List.range y.rows).flatMap fun r => (List.range y.width).map (u.convWrite c x w y r) := by
  refine foldl_appends (fun a r => ?_) (List.range y.rows) (u, [], Flags.none)
  simp only [hacc, if_true, List.map_map]
  trivial

theorem State.mem_convRows (hacc : c.cAccOut = true) {z : Write} : z ∈ (u.convRows c x w y).2.1 ↔
    ∃ r < y.rows, ∃ co < y.width, u.convWrite c x w y r co = z := by
  rw [(State.convRows_of_accOut hacc).2]
  simp only [List.mem_flatMap, List.mem_map, List.mem_range]

/-- An element of a tensor of the output's handle after the writes of a convolution. -/
theorem State.codeAt_convRows {z : Tensor} (hacc : c.cAccOut = true) (hz : Sparse.wf codeDefault z.data = true)
    (hh : z.handle = y.handle) {r co : Nat} (hr : r < y.rows) (hco : co < y.width) :
    codeAt (z.written (u.convRows c x w y).2.1).data (r * y.width + co) = u.convCode c x w y r co % 2 ^ 32 := by
  have hagree : ∀ e ∈ (u.convRows c x w y).2.1, e.handle = z.handle → e.index = r * y.width + co →
      e.code % 2 ^ 32 = u.convCode c x w y r co % 2 ^ 32 := by
    intro e he _ hindex
    obtain ⟨r', _, co', hco', rfl⟩ := (State.mem_convRows hacc).1 he
    obtain ⟨rfl, rfl⟩ := rowMajor_inj hco' hco hindex
    rfl
  rw [Tensor.codeAt_written hz hagree]
  exact if_pos ⟨_, (State.mem_convRows hacc).2 ⟨r, hr, co, hco, rfl⟩, hh.symm, rfl⟩

/-! ### CONV and CONV_GROUPED (R357, R363) -/

/-- The number of pixels of a convolution's output. -/
def ConvShape.pixels (p : ConvShape) : Nat := p.images * p.hout * p.wout

/-- The state in which a convolution's elements are written. -/
def State.convRan (u : State) (c : Cmd) (x w y : Tensor) : State :=
  (u.convRows c x w y).1.arraysRan c (u.convRows c x w y).2.2 (convShape c).pixels w.rows ((convShape c).steps x w)
    (termCount c x.fmt w.fmt) true

theorem State.convRan_calm (m : Nat) : Calm m u (u.convRan c x w y) := State.arraysRan_calm (State.convRows_calm_all m)

/-- A convolution with no error of its table and space for its saves. -/
theorem State.conv_eq (hf : s.convFault c = none) (hx : s.tensor (c.par 32 4) = some x) (hw : s.tensor (c.par 36 4) = some w)
    (hy : s.tensor (c.par 40 4) = some y) (hu : s.takeSaves c = some u) : s.conv env c =
      (u.convRan c x w y).complete env c 0x0108 (u.convRows c x w y).2.1
        (Outcome.ok (convResult c (u.convRows c x w y).2.2 0)) := by
  simp only [State.conv, hf, hx, hw, hy, State.withSaves, hu]
  rfl

/-- Into an accumulator a convolution writes each element of its output once. -/
theorem State.conv_tens (hs : u.Sound) (hq : env.Quiet) (hc : u.Clean) (hacc : c.cAccOut = true) {o : Outcome}
    (hy : ∃ z ∈ u.tens, z.handle = y.handle) :
    ∃ v ∈ ((u.convRan c x w y).complete env c 0x0108 (u.convRows c x w y).2.1 o).tens, v.handle = y.handle ∧
      ∀ r < y.rows, ∀ co < y.width, codeAt v.data (r * y.width + co) = u.convCode c x w y r co % 2 ^ 32 := by
  have hscale : ∀ e ∈ (u.convRows c x w y).2.1, e.scale = false := by
    intro e he
    obtain ⟨r, _, co, _, rfl⟩ := (State.mem_convRows hacc).1 he
    rfl
  have htens := State.complete_tens (c := c) (d := 0x0108) (x := o) hq
    (hc.calm (State.convRan_calm (c := c) (x := x) (w := w) (y := y) 0)) hscale
  obtain ⟨z, hz, hh⟩ := hy
  have hmem : z ∈ (u.convRan c x w y).tens := by
    rwa [State.convRan, State.arraysRan_tens, (State.convRows_of_accOut hacc).1]
  obtain ⟨v, hv, hvh, hdata⟩ := exists_mem_of_forall₂ htens hmem
  exact ⟨v, hv, hvh.trans hh, fun r hr co hco => by rw [hdata, State.codeAt_convRows hacc (hs.elements z hz) hh hr hco]⟩

/-! ### The Margin engines (R360, R361) -/

/-- The state in which a layer's elements are written: its engines and the passes of the arrays are counted. -/
def State.marginRan (u : State) (c : Cmd) (x w y : Tensor) (engines : List Nat) : State × List Write × Flags :=
  let p := convShape c
  let s := u.addSat Reg.marginCount 63 32 engines.length
  let s := s.addSat Reg.marginCount 31 0 ((u.shareGroves p.pixels).length - engines.length)
  let r := s.convRows c x w y
  let s := r.1.raiseAt (((s.sharedBy p.pixels).map s.coresOf).flatten) r.2.2 false
  (s.countPasses (fun k => ! engines.contains (k / 1024)) p.pixels w.rows (p.steps x w) (termCount c x.fmt w.fmt) true, r.2)

theorem State.marginRan_calm (m : Nat) : Calm m u (u.marginRan c x w y engines).1 :=
  State.countPasses_calm (State.raiseAt_calm (State.convRows_calm (c := { c with id := m }) rfl
    (State.addSat_calm .marginCount (State.addSat_calm .marginCount (Calm.refl u)))))

theorem State.marginRan_sound (hs : u.Sound) : (u.marginRan c x w y engines).1.Sound :=
  (State.countPasses_kept (State.raiseAt_kept (State.convRows_kept (State.addSat_kept (State.addSat_kept hs.kept))))).sound

/-- The engines of a layer (R360): those of the groves with a share, neither bypassed nor faulted at its dispatch. -/
def State.marginEngines (u : State) (c : Cmd) : List Nat :=
  (u.shareGroves (convShape c).pixels).filter fun g =>
    bit (c.latch.extra.getD 0 0) g = 0 ∧ bit (c.latch.extra.getD 0 0) (8 + g) = 0

/-- RESULT of a layer. -/
def State.marginResult (u : State) (c : Cmd) (x w y : Tensor) : Nat :=
  convResult c (u.marginRan c x w y (u.marginEngines c)).2.2 ((u.marginEngines c).foldl (fun a g => a + 2 ^ g) 0)

/-- A layer whose checks pass and whose saves have their space. -/
theorem exec_marginLayer_of_ready {fault : Option Nat} (h : s.Ready n 0x0A04 c) (hb : s.Begins c) (hf : s.convFault c = none)
    (hx : s.tensor (c.par 32 4) = some x) (hw : s.tensor (c.par 36 4) = some w) (hy : s.tensor (c.par 40 4) = some y)
    (hu : s.takeSaves c = some u) (r : State × List Write × Flags) (hr : r = u.marginRan c x w y (u.marginEngines c)) :
    exec (.marginLayer n env fault) s = .next (match fault.filter (u.marginEngines c).contains with
      | some g =>
        let t := (r.1.corrections env).setFld Reg.marginState (8 + g) (8 + g) 1
        ((t.writeSome r.2.1).markOutputs c (t.outMarks c)).finish n ⟨stAborted, 0x0107, u.marginResult c x w y⟩
      | none => r.1.complete env c 0x0108 r.2.1 (Outcome.ok (u.marginResult c x w y))) := by
  rw [exec_marginLayer, execMarginLayer, h.work hb, hr, ← h.id]
  simp only [hf, hx, hw, hy, State.withSaves, hu]
  rfl

/-- A command that writes some of its elements changes neither a register nor a command. -/
theorem State.writeSome_leaves : (s.writeSome l).regs = s.regs ∧ (s.writeSome l).cmd = s.cmd := by
  have hwrite (u : State) (e : Write) : (u.write e).regs = u.regs := by
    unfold State.write State.writeScales
    repeat' split
    all_goals rfl
  exact ⟨State.foldl_leaves State.regs (s := s.free.2) (fun u _ => by split; exacts [hwrite u _, rfl]) _,
    State.foldl_leaves State.cmd (s := s.free.2) (fun u _ => by split; exacts [State.write_cmd, rfl]) _⟩

theorem State.markOutputs_regs {marks : List Nat} : (s.markOutputs c marks).regs = s.regs :=
  State.foldl_leaves State.regs (fun _ _ => by rfl) _

/-- A layer none of whose engines faults ends OK. -/
theorem exec_marginLayer_ended (hq : env.Quiet) (hc : s.Clean) (h : s.Ready n 0x0A04 c) (hb : s.Begins c)
    (hf : s.convFault c = none) (hx : s.tensor (c.par 32 4) = some x) (hw : s.tensor (c.par 36 4) = some w)
    (hy : s.tensor (c.par 40 4) = some y) (hu : s.takeSaves c = some u) :
    ∃ t, exec (.marginLayer n env none) s = .next t ∧ t.Ended n (Outcome.ok (u.marginResult c x w y)) :=
  ⟨_, exec_marginLayer_of_ready h hb hf hx hw hy hu _ rfl, State.ended_of_saves hq hc h.found hu State.marginRan_calm⟩

/-- A layer one of whose engines faults meanwhile ends ABORTED, and the fault is recorded. -/
theorem exec_marginLayer_faulted (hs : s.Sound) (hq : env.Quiet) (hc : s.Clean) (h : s.Ready n 0x0A04 c) (hb : s.Begins c)
    (hf : s.convFault c = none) (hx : s.tensor (c.par 32 4) = some x) (hw : s.tensor (c.par 36 4) = some w)
    (hy : s.tensor (c.par 40 4) = some y) (hu : s.takeSaves c = some u) (hg : g ∈ u.marginEngines c) (h4 : g < 4) :
    ∃ t, exec (.marginLayer n env (some g)) s = .next t ∧ t.Ended n ⟨stAborted, 0x0107, u.marginResult c x w y⟩ ∧
      t.fld Reg.marginState (8 + g) (8 + g) = 1 := by
  have huc := hc.calm (State.takeSaves_calm_all hu n)
  have hsound : (u.marginRan c x w y (u.marginEngines c)).1.Sound :=
    State.marginRan_sound (State.takeSaves_kept hs.kept u hu).sound
  have hcmd : (u.marginRan c x w y (u.marginEngines c)).1.cmdOf n = some c := by
    rw [Calm.cmdOf huc State.marginRan_calm, State.takeSaves_cmdOf hc hu, h.found]
  have hexec := exec_marginLayer_of_ready (env := env) (fault := some g) h hb hf hx hw hy hu _ rfl
  rw [Option.filter_some_pos (List.contains_iff_mem.2 hg)] at hexec
  generalize u.marginRan c x w y (u.marginEngines c) = r at hexec hsound hcmd
  dsimp only at hexec
  rw [State.corrections_quiet hq] at hexec
  refine ⟨_, hexec, State.finish_ended (c := c) ?_, ?_⟩
  · rw [State.cmdOf_congr State.markOutputs_cmd, State.cmdOf_congr State.writeSome_leaves.2,
      State.cmdOf_congr (s := r.1) (by simp only [State.setFld_fields]), hcmd]
  · rw [State.fld_congr State.reg_finish, State.fld_congr (State.reg_congr State.markOutputs_regs),
      State.fld_congr (State.reg_congr State.writeSome_leaves.1), State.fld_setFld_same hsound le_rfl (by omega)]
    simp

/-! ### Global average pooling and the bypass bits (R359, R361) -/

/-- GLOBAL_AVG_POOL with no error of its table writes its means and ends OK with its flags. -/
theorem exec_globalAvgPool_ended (hq : env.Quiet) (hc : s.Clean) (h : s.Ready n 0x0A03 c) (hb : s.Begins c)
    (hf : s.poolFault c = none) (hx : s.tensor (c.par 32 4) = some x) (hy : s.tensor (c.par 36 4) = some y) :
    ∃ t f, exec (.globalAvgPool n env) s = .next t ∧ t.Ended n (Outcome.ok (f % 8)) := by
  rw [exec_globalAvgPool, execGlobalAvgPool, h.work hb]
  simp only [hf, hx, hy]
  exact ⟨_, _, rfl, State.complete_ended hq (hc.calm (State.raiseFlags_calm (Calm.refl s) : Calm n s _))
    ((Calm.cmdOf hc fun _ => State.raiseFlags_calm (Calm.refl s)).trans h.found)⟩

theorem exec_marginBypass_spec (hs : s.Sound) (hup : s.Up) (b : Nat) : ∃ t, exec (.marginBypass b) s = .next t ∧
    t.fld Reg.marginState 3 0 = b % 16 ∧ t.fld Reg.marginState 63 4 = s.fld Reg.marginState 63 4 ∧
    (∀ o, o ≠ Reg.marginState → t.reg o = s.reg o) ∧ t.mem = s.mem ∧ t.tens = s.tens := by
  refine ⟨_, by rw [exec_marginBypass, execMarginBypass, hup.when], State.fld_setFld_same hs (by decide) (by decide),
    State.fld_setFld_above hs (by decide) (by decide) (by decide), fun o ho => State.reg_setFld_other ho, ?_, ?_⟩
  all_goals simp only [State.setFld_fields]

/-- Settles O50: each command writes its elements from a state in which only engines have changed, and ends. -/
theorem convolutionCommandsComplete : Obligations.ConvolutionCommandsComplete := by
  unfold Obligations.ConvolutionCommandsComplete
  intro s u n c env x w y hs hq hc hx hw hy
  refine ⟨fun hb hu hf => ⟨fun i hrow => ?conv, fun h engines hengines => ?margin⟩, fun hb h hf => ?pool,
    fun v hup => exec_marginBypass_spec hs hup v⟩
  case conv =>
    have hexec : s.cmdOf n = some c ∧ exec i s = .next (s.conv env c) := by
      obtain ⟨h, rfl⟩ | ⟨h, rfl⟩ := hrow
      · exact ⟨h.found, by rw [exec_conv, execConv, h.work hb]⟩
      · exact ⟨h.found, by rw [exec_convGrouped, execConvGrouped, h.work hb]⟩
    obtain ⟨hfound, hexec⟩ := hexec
    rw [State.conv_eq hf hx hw hy hu] at hexec
    refine ⟨_, _, hexec, State.ended_of_saves hq hc hfound hu State.convRan_calm, fun hacc => ?_⟩
    obtain ⟨v, hv, hh, hcodes⟩ := State.conv_tens (x := x) (w := w) (State.takeSaves_kept hs.kept u hu).sound hq
      (hc.calm (State.takeSaves_calm_all hu n)) hacc (State.takeSaves_tensor hu hy)
    refine ⟨v, hv, hh, fun r hr co hco => ?_⟩
    rw [hcodes r hr co hco, State.convCode]
    split
    · rfl
    · decide
  case margin =>
    obtain rfl : engines = u.marginEngines c := hengines
    obtain ⟨t, hexec, hend⟩ := exec_marginLayer_ended hq hc h hb hf hx hw hy hu
    refine ⟨⟨t, _, hexec, hend⟩, fun g hg h4 => ?_⟩
    obtain ⟨t, hexec, hend, hfld⟩ := exec_marginLayer_faulted hs hq hc h hb hf hx hw hy hu hg h4
    exact ⟨t, _, hexec, hend, hfld⟩
  case pool => exact exec_globalAvgPool_ended hq hc h hb hf hx hw

end Sys2Proof.Machine
end

section
/-! SUPPORT and PROOF. The stages of start-up (16 R389 to R394, R396, R398; 01 R16, R20; 11 R291). -/

namespace Sys2Proof.Machine

variable {s t u v : State} {k d n o code kind h : Nat} {f g : State → State}

theorem exec_startUp (d : Nat) (s : State) : exec (.startUp d) s = execStartUp d s := rfl

theorem exec_bootRomStage (d : Nat) (ok : Bool) (s : State) : exec (.bootRomStage d ok) s = execBootRomStage d ok s := rfl

theorem exec_verificationStage (d : Nat) (s : State) : exec (.verificationStage d) s = execVerificationStage d s := rfl

theorem exec_falosteoStage (d : Nat) (ok : Bool) (s : State) : exec (.falosteoStage d ok) s = execFalosteoStage d ok s := rfl

theorem exec_pufStage (d : Nat) (ok : Bool) (s : State) : exec (.pufStage d ok) s = execPufStage d ok s := rfl

theorem exec_selfTestStage (d : Nat) (slots routers engines : List Nat) (s : State) :
    exec (.selfTestStage d slots routers engines) s = execSelfTestStage d slots routers engines s := rfl

theorem exec_hbmTrainingStage (d : Nat) (failed : List Nat) (s : State) :
    exec (.hbmTrainingStage d failed) s = execHbmTrainingStage d failed s := rfl

theorem exec_linkTrainingStage (d : Nat) (l : List (Nat × LinkTraining)) (s : State) :
    exec (.linkTrainingStage d l) s = execLinkTrainingStage d l s := rfl

theorem exec_gclTrainingStage (d : Nat) (x : Option GclTraining) (s : State) :
    exec (.gclTrainingStage d x) s = execGclTrainingStage d x s := rfl

/-! ### A stage begins (R389) -/

/-- Stage `k` has taken `d` UCLK, and the next one follows. -/
def State.stagePassed (s : State) (k d : Nat) : State :=
  let t := if k = 1 then { s with time := d } else s.elapse d
  { t with boot := { t.boot with next := k + 1 } }

/-- The state in which the work of stage `k` begins. -/
def State.stageBegun (s : State) (k d : Nat) : State :=
  ((s.stagePassed k d).setFld Reg.bootStatus 31 28 k).setReg (Reg.bootTime (k - 1)) d

/-- The next stage takes place. -/
theorem State.Up.stage (hup : s.Up) (hk : s.boot.next = k) : s.stage k d f = f (s.stageBegun k d) := by
  rw [State.stage, if_pos (by simp [hup.1, hup.2, hk]), State.stageBegun, State.stagePassed]

theorem State.stagePassed_fields : (s.stagePassed k d).boot = { s.boot with next := k + 1 } ∧
    (s.stagePassed k d).time = (if k = 1 then d else s.time + d) ∧ (s.stagePassed k d).freeCtr = s.freeCtr ∧
    (s.stagePassed k d).mem = s.mem ∧ (s.stagePassed k d).gcl = s.gcl ∧ (s.stagePassed k d).regs = s.regs := by
  unfold State.stagePassed
  by_cases hk : k = 1
  · simp only [hk, if_true, and_self]
  · simp only [hk, if_false, State.elapse_fields, and_true, true_and]
    rfl

theorem State.stagePassed_sound (hs : s.Sound) : (s.stagePassed k d).Sound := by
  unfold State.stagePassed
  by_cases hk : k = 1
  · simp only [hk, if_true]
    refine Kept.sound (q := s.pending) (n := s.freeCtr) (Kept.upd hs.kept rfl rfl rfl rfl rfl rfl rfl)
  · simp only [hk, if_false]
    refine Kept.sound (q := s.pending) (n := s.freeCtr) (Kept.upd (State.elapse_kept hs.kept) rfl rfl rfl rfl rfl rfl rfl)

theorem State.stageBegun_sound (hs : s.Sound) : (s.stageBegun k d).Sound := (State.stagePassed_sound hs).setFld.setReg

/-- A stage records itself in BOOT_STATUS and its time, and lets the time pass. -/
theorem State.stageBegun_fields : (s.stageBegun k d).boot = { s.boot with next := k + 1 } ∧
    (s.stageBegun k d).time = (if k = 1 then d else s.time + d) ∧ (s.stageBegun k d).freeCtr = s.freeCtr ∧
    (s.stageBegun k d).mem = s.mem ∧ (s.stageBegun k d).gcl = s.gcl := by
  obtain ⟨hboot, htime, hctr, hmem, hgcl, -⟩ := State.stagePassed_fields (s := s) (k := k) (d := d)
  simp only [State.stageBegun, State.setReg_fields, State.setFld_fields, hboot, htime, hctr, hmem, hgcl, and_self]

theorem bootStatus_ne_bootTime : Reg.bootStatus ≠ Reg.bootTime k := by simp only [Reg.bootStatus, Reg.bootTime]; omega

theorem State.stageBegun_reg (hs : s.Sound) (hk : k < 16) (hd : d < 2 ^ 32) :
    (s.stageBegun k d).fld Reg.bootStatus 31 28 = k ∧ (s.stageBegun k d).reg (Reg.bootTime (k - 1)) = d ∧
      ∀ o, o ≠ Reg.bootStatus → o ≠ Reg.bootTime (k - 1) → (s.stageBegun k d).reg o = s.reg o := by
  have hpassed := State.stagePassed_sound (k := k) (d := d) hs
  obtain ⟨-, -, -, -, -, hregs⟩ := State.stagePassed_fields (s := s) (k := k) (d := d)
  refine ⟨?_, ?_, fun o hstatus htime => ?_⟩
  · rw [State.stageBegun, State.fld_congr (State.reg_setReg_other bootStatus_ne_bootTime),
      State.fld_setFld_of_fits hpassed (by decide) (by decide) hk]
  · rw [State.stageBegun, State.reg_setReg_same hpassed.setFld, Nat.mod_eq_of_lt (by omega)]
  · rw [State.stageBegun, State.reg_setReg_other htime, State.reg_setFld_other hstatus, State.reg_congr hregs]

/-! ### A stage fails (R390, R391) -/

theorem State.bootFail_sound (hs : u.Sound) : (u.bootFail k code).Sound := (State.bootFail_kept hs.kept).sound

/-- FAILED_STAGE and FAIL_CODE are recorded, and nothing else. -/
theorem State.bootFail_spec (hs : u.Sound) (hk : k < 16) (hcode : code < 256) :
    (u.bootFail k code).fld Reg.bootStatus 27 16 = 256 * k + code ∧
      (u.bootFail k code).fld Reg.bootStatus 31 28 = u.fld Reg.bootStatus 31 28 ∧
      ∀ o, o ≠ Reg.bootStatus → (u.bootFail k code).reg o = u.reg o := by
  have hjoin (v : Nat) : bits v 27 16 = 256 * bits v 27 24 + bits v 23 16 := by
    simp only [bits_eq]
    omega
  have hstage : (u.bootFail k code).fld Reg.bootStatus 27 24 = k := by
    rw [State.bootFail, State.fld_setFld_above hs.setFld (by decide) (by decide) (by decide),
      State.fld_setFld_of_fits hs (by decide) (by decide) hk]
  have hfail : (u.bootFail k code).fld Reg.bootStatus 23 16 = code :=
    State.fld_setFld_of_fits hs.setFld (by decide) (by decide) hcode
  refine ⟨?_, ?_, fun o ho => ?_⟩
  · rw [State.fld, hjoin, ← State.fld, ← State.fld, hstage, hfail]
  · rw [State.bootFail, State.fld_setFld_above hs.setFld (by decide) (by decide) (by decide),
      State.fld_setFld_above hs (by decide) (by decide) (by decide)]
  · rw [State.bootFail, State.reg_setFld_other ho, State.reg_setFld_other ho]

/-- Start-up stops in the boot ROM, the alarm asserted. -/
theorem State.bootStop_spec (hs : u.Sound) (hk : k < 16) (hcode : code < 256) :
    (u.bootStop k code).boot = { u.boot with next := 0 } ∧ (u.bootStop k code).fld Reg.bootStatus 27 16 = 256 * k + code ∧
      (u.bootStop k code).fld Reg.bootStatus 31 28 = u.fld Reg.bootStatus 31 28 ∧
      (u.bootStop k code).fld Reg.alarmState 5 5 = 1 := by
  obtain ⟨hfail, hstage, -⟩ := State.bootFail_spec hs hk hcode
  have hreg (o : Nat) : (u.bootStop k code).reg o = ((u.bootFail k code).setFld Reg.alarmState 5 5 1).reg o := State.reg_congr rfl
  have hstatus : (u.bootStop k code).reg Reg.bootStatus = (u.bootFail k code).reg Reg.bootStatus :=
    (hreg _).trans (State.reg_setFld_other (by decide))
  refine ⟨?_, ?_, ?_, ?_⟩
  · simp only [State.bootStop, State.bootFail, State.setFld_fields]
  · rw [State.fld_congr hstatus, hfail]
  · rw [State.fld_congr hstatus, hstage]
  · rw [State.fld_congr (hreg _), State.fld_setFld_of_fits (State.bootFail_sound hs) (by decide) (by decide) (by decide)]

/-- A fatal fault writes CMD_STATUS and, with its interrupt, GCL_IRQ_ACK. -/
theorem State.reg_fatal (hstatus : o ≠ Reg.cmdStatus) (hack : o ≠ Reg.gclIrqAck) : u.fatal.reg o = u.reg o := by
  have hraised : u.fatal.reg o = u.fatalRaised.reg o := State.reg_congr rfl
  rw [hraised, State.fatalRaised]
  split
  · rfl
  · rw [State.reg_congr (t := State.proofEvent _ 2) (s := (u.setFld Reg.cmdStatus 30 30 1).irq 16)
      (by simp only [State.proofEvent_fields]), State.reg_irq_other hack, State.reg_setFld_other hstatus]

theorem State.isFatal_fatal (hs : u.Sound) : u.fatal.isFatal = true := State.isFatal_fatalRaised hs

/-- A failure of a later stage is recorded, and fatal. -/
theorem State.stageFatal_spec (hs : u.Sound) (hk : k < 16) (hcode : code < 256) : (u.stageFatal k code).isFatal = true ∧
    (u.stageFatal k code).fld Reg.bootStatus 27 16 = 256 * k + code ∧
    ∀ o, o ≠ Reg.bootStatus → o ≠ Reg.cmdStatus → o ≠ Reg.gclIrqAck → (u.stageFatal k code).reg o = u.reg o := by
  obtain ⟨hfail, -, hother⟩ := State.bootFail_spec hs hk hcode
  refine ⟨by rw [State.stageFatal, State.isFatal_fatal (State.bootFail_sound hs)], ?_, fun o hstatus hcmd hack => ?_⟩
  · rw [State.stageFatal, State.fld_congr (State.reg_fatal (by decide) (by decide)), hfail]
  · rw [State.stageFatal, State.reg_fatal hcmd hack, hother o hstatus]

/-! ### Stage 3: what the flash holds (R390, R394) -/

/-- What the flash holds decides what is chosen. -/
theorem State.flashBytes_congr (h : t.boot.flash = s.boot.flash) {n : Nat} : t.flashBytes o n = s.flashBytes o n := by
  rw [State.flashBytes, h, State.flashBytes]

theorem State.flashNat_congr (h : t.boot.flash = s.boot.flash) {n : Nat} : t.flashNat o n = s.flashNat o n := by
  rw [State.flashNat, State.flashBytes_congr h, State.flashNat]

theorem State.chooseSlot_congr (h : t.boot.flash = s.boot.flash) : t.chooseSlot kind = s.chooseSlot kind := by
  have hfloor : t.floorOf kind = s.floorOf kind := by rw [State.floorOf, State.flashNat_congr h, State.floorOf]
  have hverified (i : Nat) : t.verified kind i = s.verified kind i := by
    rw [State.verified, State.objectAt, State.flashBytes_congr h, State.flashBytes_congr h, State.verifyFault, hfloor,
      State.verified, State.verifyFault, State.objectAt]
  have hprimary : t.primary kind = s.primary kind := by
    simp only [State.primary, State.selector, State.selectorCopy, State.flashBytes_congr h]
  rw [State.chooseSlot, hprimary, hverified, hverified, State.chooseSlot]

/-- The registers of the firmware and the profile chosen: BOOT_STATUS, SEC_FLOORS and OWNER_ID. -/
def State.choiceShown (v : State) (f p : Nat × Bool × List Byte) : State :=
  let s := ((v.setFld Reg.bootStatus 3 3 f.1).setFld Reg.bootStatus 4 4 p.1).setFld Reg.bootStatus 5 5 (ofBool f.2.1)
  let s := s.setFld Reg.bootStatus 6 6 (ofBool p.2.1)
  let s := ((s.setFld Reg.secFloors 63 48 (objectSvn f.2.2)).setFld Reg.secFloors 47 32 (objectSvn p.2.2)).setFld
    Reg.secFloors 31 16 (s.floorOf 1)
  (s.setFld Reg.secFloors 15 0 (s.floorOf 2)).setReg Reg.ownerId (fieldAt (bodyOf (profileCert p.2.2)) 0 8)

theorem State.choiceShown_spec {x y : Nat × Bool × List Byte} (hs : v.Sound) :
    (v.choiceShown x y).boot = v.boot ∧ (v.choiceShown x y).fld Reg.bootStatus 3 3 = x.1 % 2 ∧
      (v.choiceShown x y).fld Reg.bootStatus 4 4 = y.1 % 2 ∧
      (v.choiceShown x y).reg Reg.ownerId = fieldAt (bodyOf (profileCert y.2.2)) 0 8 := by
  have hstatus (s : State) (hi lo q : Nat) : (s.setFld Reg.secFloors hi lo q).reg Reg.bootStatus = s.reg Reg.bootStatus :=
    State.reg_setFld_other (by decide)
  have hregs : (v.choiceShown x y).reg Reg.bootStatus = ((((v.setFld Reg.bootStatus 3 3 x.1).setFld Reg.bootStatus 4 4
      y.1).setFld Reg.bootStatus 5 5 (ofBool x.2.1)).setFld Reg.bootStatus 6 6 (ofBool y.2.1)).reg Reg.bootStatus := by
    rw [State.choiceShown, State.reg_setReg_other (by decide), hstatus, hstatus, hstatus, hstatus]
  refine ⟨?_, ?_, ?_, ?_⟩
  · simp only [State.choiceShown, State.setReg_fields, State.setFld_fields]
  · rw [State.fld_congr hregs, State.fld_setFld_below hs.setFld.setFld.setFld (by decide) (by decide) (by decide) (by decide),
      State.fld_setFld_below hs.setFld.setFld (by decide) (by decide) (by decide) (by decide),
      State.fld_setFld_below hs.setFld (by decide) (by decide) (by decide) (by decide),
      State.fld_setFld_same hs (by decide) (by decide)]
    rfl
  · rw [State.fld_congr hregs, State.fld_setFld_below hs.setFld.setFld.setFld (by decide) (by decide) (by decide) (by decide),
      State.fld_setFld_below hs.setFld.setFld (by decide) (by decide) (by decide) (by decide),
      State.fld_setFld_same hs.setFld (by decide) (by decide)]
    rfl
  · rw [State.choiceShown, State.reg_setReg_same hs.setFld.setFld.setFld.setFld.setFld.setFld.setFld.setFld]
    exact Nat.mod_eq_of_lt fieldAt_lt

/-- The next stage is the same. -/
def State.SameStage (u v : State) : Prop := v.boot.next = u.boot.next

theorem State.SameStage.flashPut {l : List Byte} (h : u.SameStage v) : u.SameStage (v.flashPut o l) := by
  unfold State.flashPut
  split <;> exact h

theorem State.SameStage.floorFor {l : List Byte} (h : u.SameStage v) : u.SameStage (v.floorFor kind l) := by
  unfold State.floorFor State.raiseFloor
  split
  · exact List.foldlRecOn (motive := u.SameStage) _ _ h fun _ ht _ _ => ht.flashPut
  · exact h

/-- The state in which the choice of stage 3 is shown: the floors raised (R394). -/
def State.floorsRaised (u : State) (f p : Nat × Bool × List Byte) : State := (u.floorFor 1 f.2.2).floorFor 2 p.2.2

/-- What is chosen is in force and shown. -/
theorem State.chosen_eq (x y : Nat × Bool × List Byte) : u.chosen x y =
    { (u.floorsRaised x y).choiceShown x y with
      node := fieldAt (profileFields y.2.2) 0 2
      boot := { ((u.floorsRaised x y).choiceShown x y).boot with
        locked := true
        ownerCert := profileCert y.2.2
        profile := profileFields y.2.2
        mFw := Config.sha384 x.2.2
        mProfile := Config.sha384 y.2.2
        mOwner := Config.sha384 (profileCert y.2.2) } } := rfl

/-- Stage 3 whose objects verify. -/
theorem exec_verificationStage_of_chosen (hup : s.Up) (hs : s.Sound) (hnext : s.boot.next = 3) {x y : Nat × Bool × List Byte}
    (hx : s.chooseSlot 1 = some x) (hy : s.chooseSlot 2 = some y) {t : State} (ht : exec (.verificationStage d) s = .next t) :
    t.boot.next = 4 ∧ t.boot.profile = profileFields y.2.2 ∧ t.boot.ownerCert = profileCert y.2.2 ∧
      t.boot.mFw = Config.sha384 x.2.2 ∧ t.boot.mProfile = Config.sha384 y.2.2 ∧
      t.boot.mOwner = Config.sha384 (profileCert y.2.2) ∧ t.node = fieldAt (profileFields y.2.2) 0 2 ∧
      t.fld Reg.bootStatus 3 3 = x.1 % 2 ∧ t.fld Reg.bootStatus 4 4 = y.1 % 2 ∧
      t.reg Reg.ownerId = fieldAt (bodyOf (profileCert y.2.2)) 0 8 := by
  obtain ⟨hboot, -⟩ := State.stageBegun_fields (s := s) (k := 3) (d := d)
  have hflash : (s.stageBegun 3 d).boot.flash = s.boot.flash := by rw [hboot]
  have hraised : ((s.stageBegun 3 d).floorsRaised x y).Sound :=
    (State.floorFor_kept (State.floorFor_kept (State.stageBegun_sound hs).kept)).sound
  have hfloors : ((s.stageBegun 3 d).floorsRaised x y).boot.next = 4 := by
    have hsame : (s.stageBegun 3 d).SameStage ((s.stageBegun 3 d).floorsRaised x y) :=
      State.SameStage.floorFor (State.SameStage.floorFor rfl)
    rw [hsame, hboot]
  obtain ⟨hshown, hfw, hprofile, howner⟩ := State.choiceShown_spec (x := x) (y := y) hraised
  have heq : t = (s.stageBegun 3 d).chosen x y := by
    rw [exec_verificationStage, execVerificationStage, hup.stage hnext] at ht
    simp only [State.chooseSlot_congr hflash, hx, hy, Host.Outcome.next.injEq] at ht
    exact ht.symm
  rw [State.chosen_eq] at heq
  generalize ((s.stageBegun 3 d).floorsRaised x y).choiceShown x y = v at heq hshown hfw hprofile howner
  have hregs : t.regs = v.regs := by rw [heq]
  rw [State.fld_congr (State.reg_congr hregs), State.fld_congr (State.reg_congr hregs), State.reg_congr hregs, heq, hshown]
  exact ⟨hfloors, rfl, rfl, rfl, rfl, rfl, rfl, hfw, hprofile, howner⟩

/-- Stage 3 stops without firmware, or without a profile, that verifies. -/
theorem exec_verificationStage_of_none (hup : s.Up) (hs : s.Sound) (hnext : s.boot.next = 3)
    (h : s.chooseSlot 1 = none ∧ code = 2 ∨ (∃ x, s.chooseSlot 1 = some x) ∧ s.chooseSlot 2 = none ∧ code = 3) {t : State}
    (ht : exec (.verificationStage d) s = .next t) : t.boot.next = 0 ∧ t.fld Reg.bootStatus 27 16 = 256 * 3 + code := by
  obtain ⟨hboot, -⟩ := State.stageBegun_fields (s := s) (k := 3) (d := d)
  have hflash : (s.stageBegun 3 d).boot.flash = s.boot.flash := by rw [hboot]
  have hstop : t = (s.stageBegun 3 d).bootStop 3 code := by
    rw [exec_verificationStage, execVerificationStage, hup.stage hnext] at ht
    obtain ⟨hx, rfl⟩ | ⟨⟨x, hx⟩, hy, rfl⟩ := h
    · simp only [State.chooseSlot_congr hflash, hx, Host.Outcome.next.injEq] at ht
      exact ht.symm
    · simp only [State.chooseSlot_congr hflash, hx, hy, Host.Outcome.next.injEq] at ht
      exact ht.symm
  have hcode : code < 256 := by omega
  obtain ⟨hnext', hfail, -⟩ := State.bootStop_spec (u := s.stageBegun 3 d) (State.stageBegun_sound hs) (k := 3) (by decide) hcode
  subst hstop
  exact ⟨by rw [hnext'], hfail⟩

/-! ### Stage 5: the device's identity (R392, R393, R396) -/

theorem State.identityOk_congr (h : t.boot.flash = s.boot.flash) : t.identityOk = s.identityOk := by
  rw [State.identityOk, State.deviceCert, State.flashBytes_congr h, State.identityOk, State.deviceCert]

theorem exec_pufStage_of_ok (hup : s.Up) (hs : s.Sound) (hnext : s.boot.next = 5) (hid : s.identityOk = true) :
    ∃ t, exec (.pufStage d true) s = .next t ∧ t.boot.next = 6 ∧ t.reg Reg.deviceId = deviceId ∧
      t.reg Reg.unlockNonce = Config.freeNat s.freeCtr % 2 ^ 64 := by
  obtain ⟨hboot, -, hctr, -⟩ := State.stageBegun_fields (s := s) (k := 5) (d := d)
  have hsound := State.stageBegun_sound (k := 5) (d := d) hs
  rw [exec_pufStage, execPufStage, hup.stage hnext]
  generalize s.stageBegun 5 d = v at hboot hctr hsound
  have hfree : v.identityOk = true := (State.identityOk_congr (by rw [hboot])).trans hid
  have hnonce : (v.setReg Reg.deviceId deviceId).free.2.Sound := (State.free_kept hsound.setReg.kept).sound
  rw [hfree, if_pos (show (true && true) = true from rfl)]
  refine ⟨_, rfl, ?_, ?_, ?_⟩
  all_goals rw [State.drawNonce]
  · simp only [State.free, State.setReg_fields, hboot]
  · rw [State.reg_setReg_other (by decide), State.reg_congr (s := v.setReg Reg.deviceId deviceId) (by simp only [State.free_fields]),
      State.reg_setReg_same hsound, Nat.mod_eq_of_lt]
    rw [deviceId]
    exact fieldAt_lt
  · rw [State.reg_setReg_same hnonce, State.free]
    simp only [State.setReg_fields, hctr]

/-- A stage whose work fails is fatal. -/
theorem State.Up.stage_fatal (hup : s.Up) (hs : s.Sound) (hnext : s.boot.next = k) (hk : k < 16) (hcode : code < 256)
    (hf : f (s.stageBegun k d) = (s.stageBegun k d).stageFatal k code) :
    (s.stage k d f).isFatal = true ∧ (s.stage k d f).fld Reg.bootStatus 27 16 = 256 * k + code := by
  obtain ⟨hfatal, hfail, -⟩ := State.stageFatal_spec (State.stageBegun_sound (k := k) (d := d) hs) hk hcode
  rw [hup.stage hnext, hf]
  exact ⟨hfatal, hfail⟩

/-! ### Stage 6: the repair map (R16, R20) -/

/-- A fold over a range whose step `i` establishes `P i`, which the other steps keep, and keeps `I`. -/
theorem State.foldl_range_spec {f : State → Nat → State} {I : State → Prop} {P : Nat → State → Prop} {m : Nat} (h : I s)
    (hI : ∀ u, ∀ i < m, I u → I (f u i)) (hP : ∀ u, ∀ i < m, I u → P i (f u i))
    (hkeep : ∀ u i j, i ≠ j → I u → P i u → P i (f u j)) :
    I ((List.range m).foldl f s) ∧ ∀ i < m, P i ((List.range m).foldl f s) := by
  induction m with
  | zero => exact ⟨h, fun i hi => absurd hi (Nat.not_lt_zero i)⟩
  | succ m ih =>
    obtain ⟨hinv, hall⟩ := ih (fun u i hi => hI u i (by omega)) fun u i hi => hP u i (by omega)
    rw [List.range_succ, List.foldl_append, List.foldl_cons, List.foldl_nil]
    refine ⟨hI _ m (by omega) hinv, fun i hi => ?_⟩
    obtain rfl | hlt := Nat.eq_or_lt_of_le (Nat.le_of_lt_succ hi)
    · exact hP _ i (by omega) hinv
    · exact hkeep _ i m (by omega) hinv (hall i hlt)

/-- A copse none of whose slots fails: every slot good, no core moved. -/
theorem State.mapCopse_of_good : u.mapCopse [] n = u.setReg (Reg.copseState n) 0x3FFFFF := by
  simp [State.mapCopse]

theorem State.slotTested_boot {p : Nat} {pass : Bool} : (u.slotTested p kind pass).boot = u.boot := by
  cases pass <;> simp [State.slotTested]

/-- The factory seed tables are in both banks; no register but those of the seeds is written, and start-up goes on. -/
theorem State.factorySeeds_spec : u.factorySeeds.core.bank0 = [] ∧ u.factorySeeds.core.bank1 = [] ∧
    u.factorySeeds.boot = u.boot ∧
    ∀ o, o ≠ Reg.seedBankState → (∀ i, o ≠ Reg.seedCheck i) → u.factorySeeds.reg o = u.reg o := by
  unfold State.factorySeeds
  generalize hl : List.range 10 = l
  let v : State := { u with core := { u.core with bank0 := [], bank1 := [] } }
  let w := (v.setFld Reg.seedBankState 31 31 0).setFld Reg.seedBankState 25 16 0
  have hw : w.core = v.core ∧ w.boot = v.boot := by simp only [w, State.setFld_fields, and_self]
  have hfold : (l.foldl (fun s t => s.setReg (Reg.seedCheck t) (crc32 (imageBytes (factoryTable t)))) w).core = w.core ∧
      (l.foldl (fun s t => s.setReg (Reg.seedCheck t) (crc32 (imageBytes (factoryTable t)))) w).boot = w.boot :=
    ⟨State.foldl_leaves State.core (fun _ _ => by simp only [State.setReg_fields]) l,
      State.foldl_leaves State.boot (fun _ _ => by simp only [State.setReg_fields]) l⟩
  refine ⟨?_, ?_, hfold.2.trans hw.2, fun o hbank hcheck => ?_⟩
  · exact congrArg CoreSt.bank0 (hfold.1.trans hw.1)
  · exact congrArg CoreSt.bank1 (hfold.1.trans hw.1)
  · refine (State.foldl_leaves (fun s => s.reg o) (s := w) (fun s t => State.reg_setReg_other (hcheck t)) l).trans ?_
    rw [State.reg_setFld_other hbank, State.reg_setFld_other hbank]
    exact State.reg_congr rfl

theorem copseState_apart {i : Nat} (hn : n < 256) : Reg.copseState n ≠ Reg.seedBankState ∧ Reg.copseState n ≠ Reg.seedCheck i := by
  simp only [Reg.copseState, Reg.seedBankState, Reg.seedCheck]
  omega

/-- Stage 6 when every slot, router and Margin engine passes. -/
theorem exec_selfTestStage_of_good (hup : s.Up) (hs : s.Sound) (hnext : s.boot.next = 6) :
    ∃ t, exec (.selfTestStage d [] [] []) s = .next t ∧ t.boot.next = 7 ∧
      (∀ c < 256, t.reg (Reg.copseState c) = 0x3FFFFF) ∧ (t.core.bank0, t.core.bank1) = ([], []) := by
  obtain ⟨hboot, -⟩ := State.stageBegun_fields (s := s) (k := 6) (d := d)
  have hsound := State.stageBegun_sound (k := 6) (d := d) hs
  rw [exec_selfTestStage, execSelfTestStage, hup.stage hnext]
  generalize s.stageBegun 6 d = v at hboot hsound
  obtain ⟨u, hu⟩ : ∃ u, u = (List.range 4352).foldl (fun s p => s.slotTested p 0 (! [].contains p)) v := ⟨_, rfl⟩
  have husound : u.Sound := hu ▸ (Kept.foldl hsound.kept fun _ _ h => State.slotTested_kept h).sound
  have huboot : u.boot.next = 7 := by
    rw [hu, State.foldl_leaves State.boot (fun _ _ => State.slotTested_boot), hboot]
  obtain ⟨w, hw⟩ : ∃ w, w = (List.range 256).foldl (State.mapCopse []) u := ⟨_, rfl⟩
  obtain ⟨⟨-, hwboot⟩, hcopses⟩ := State.foldl_range_spec (s := u) (f := State.mapCopse []) (m := 256)
    (I := fun u => u.Sound ∧ u.boot.next = 7) (P := fun c u => u.reg (Reg.copseState c) = 0x3FFFFF) ⟨husound, huboot⟩
    (fun u c _ h => by
      rw [State.mapCopse_of_good]
      exact ⟨h.1.setReg, by simp only [State.setReg_fields, h.2]⟩)
    (fun u c _ h => by exact (congrArg (State.reg · _) State.mapCopse_of_good).trans (State.reg_setReg_same h.1))
    (fun u c j hne _ h => by
      rw [State.mapCopse_of_good, State.reg_setReg_other (by simp only [Reg.copseState]; omega), h])
  rw [← hw] at hwboot hcopses
  obtain ⟨hbank0, hbank1, hseeds, hreg⟩ := State.factorySeeds_spec (u := w.zeroCores)
  refine ⟨w.zeroCores.factorySeeds, ?_, ?_, fun c hc => ?_, by rw [hbank0, hbank1]⟩
  · simp only [List.filter_nil, ne_eq, not_true_eq_false, if_false, List.foldl_nil, hw, hu]
  · rw [hseeds]
    exact hwboot
  · rw [hreg _ (copseState_apart hc (i := 0)).1 fun i => (copseState_apart hc).2]
    exact hcopses c hc

/-- Stage 6 when one router fails. -/
theorem exec_selfTestStage_of_router {r : Nat} (hup : s.Up) (hs : s.Sound) (hnext : s.boot.next = 6) (hr : r < 256) :
    ∃ t, exec (.selfTestStage d [] [r] []) s = .next t ∧ t.isFatal = true ∧
      t.fld Reg.bootStatus 27 16 = 0x606 ∧ t.fld (Reg.groveStatus (r / 64)) 1 1 = 1 := by
  have hsound := State.stageBegun_sound (k := 6) (d := d) hs
  rw [exec_selfTestStage, execSelfTestStage, hup.stage hnext]
  generalize s.stageBegun 6 d = v at hsound
  have hbad : [r].filter (· < 256) = [r] := by simp [hr]
  have hstate : (v.routerBad r).Sound := hsound.setFld
  obtain ⟨hfatal, hfail, hother⟩ := State.stageFatal_spec (k := 6) (code := 6) hstate (by decide) (by decide)
  refine ⟨(v.routerBad r).stageFatal 6 6, ?_, hfatal, hfail, ?_⟩
  · simp only [hbad, ne_eq, List.cons_ne_self, not_false_eq_true, if_true, List.foldl_cons, List.foldl_nil]
  · rw [State.fld_congr (hother _ ?_ ?_ ?_)]
    · exact State.fld_setFld_of_fits hsound (by decide) (by decide) (by decide)
    all_goals
      simp only [Reg.groveStatus, Reg.bootStatus, Reg.cmdStatus, Reg.gclIrqAck]
      omega

/-! ### Stage 7: HBM (R391, R398) -/

theorem State.repairs_congr (h : t.boot.flash = s.boot.flash) : t.repairs = s.repairs := by
  have hentries (fuel i : Nat) : t.repairEntries fuel i = s.repairEntries fuel i := by
    induction fuel generalizing i with
    | zero => rfl
    | succ fuel ih => rw [State.repairEntries, State.flashNat_congr h, ih, State.repairEntries]
  rw [State.repairs, hentries, State.repairs]

/-- Zeroed HBM reads as zero. -/
theorem State.byteAt_scrub {a : Nat} (ha : a < 0x6000000000) : u.scrub.byteAt a = 0 := by
  refine Sparse.get_of_unlisted (d := memDefault) fun hmem => ?_
  obtain ⟨e, he, rfl⟩ := List.mem_map.1 hmem
  have hlow := (List.mem_filter.1 he).2
  exact absurd ha (Nat.not_lt.2 (of_decide_eq_true hlow))

/-- HBM is trained, and out of self refresh. -/
def State.hbmReady (u : State) : State :=
  { u with
    mem := { u.mem with subslot := 0, refreshes := 0, trained := true }
    pwr := { u.pwr with selfRefresh := false } }

/-- Stage 7 when every channel trains. -/
theorem exec_hbmTrainingStage_of_good (hup : s.Up) (hs : s.Sound) (hnext : s.boot.next = 7) (hrepairs : s.repairs = []) :
    ∃ t, exec (.hbmTrainingStage d []) s = .next t ∧ t.boot.next = 8 ∧ t.pwr.selfRefresh = false ∧ t.mem.trained = true ∧
      (bit (fieldAt s.boot.profile 2 1) 0 = 0 → t.mem.bytes = s.mem.bytes) ∧
      (bit (fieldAt s.boot.profile 2 1) 0 = 1 → (∀ a < 0x6000000000, t.byteAt a = 0) ∧ t.fld Reg.bootStatus 7 7 = 1) := by
  obtain ⟨hboot, -, -, hmem, -⟩ := State.stageBegun_fields (s := s) (k := 7) (d := d)
  have hsound := State.stageBegun_sound (k := 7) (d := d) hs
  rw [exec_hbmTrainingStage, execHbmTrainingStage, hup.stage hnext]
  generalize s.stageBegun 7 d = v at hboot hmem hsound
  have hnone : v.repairs = [] := (State.repairs_congr (by rw [hboot])).trans hrepairs
  have hprofile : v.boot.profile = s.boot.profile := by rw [hboot]
  have hready : v.hbmReady.Sound := Kept.sound (q := v.pending) (n := v.freeCtr)
    (Kept.upd hsound.kept rfl rfl rfl rfl rfl rfl rfl)
  have htrains : ((List.range 16).any fun k => (List.range 16).all fun i => ([] : List Nat).contains (16 * k + i)) = false := by
    decide
  refine ⟨if bit (fieldAt v.boot.profile 2 1) 0 = 1 then v.hbmReady.scrub.setFld Reg.bootStatus 7 7 1 else v.hbmReady,
    ?_, ?_, ?_, ?_, fun hkeep => ?_, fun hzero => ?_⟩
  · simp only [htrains, hnone, List.map_nil, List.filter_nil, List.eraseDups_nil, List.foldl_nil, List.append_nil, if_false,
      Bool.false_eq_true]
    rfl
  · split <;> simp only [State.setFld_fields, State.scrub, State.hbmReady, hboot]
  · split <;> simp only [State.setFld_fields, State.scrub, State.hbmReady]
  · split <;> simp only [State.setFld_fields, State.scrub, State.hbmReady]
  · rw [hprofile, if_neg (by omega)]
    simp only [State.hbmReady, hmem]
  · rw [hprofile, if_pos hzero]
    have hscrub : v.hbmReady.scrub.Sound := (State.scrub_kept hready.kept).sound
    refine ⟨fun a ha => ?_, State.fld_setFld_of_fits hscrub (by decide) (by decide) (by decide)⟩
    rw [State.byteAt, (State.setFld_fields v.hbmReady.scrub Reg.bootStatus 7 7 1).2.2.2.2.1]
    exact State.byteAt_scrub ha

/-! ### Stage 8: links (R287, R289, R291) -/

theorem State.applyLink_spec (hs : u.Sound) :
    (u.applyLink n).fld (Reg.linkCfg n) 31 30 = profileMode u.boot.profile n ∧ (u.applyLink n).boot = u.boot ∧
      ∀ o, o ≠ Reg.linkCfg n → o ≠ Reg.ethMac n → (u.applyLink n).reg o = u.reg o := by
  have hmode : profileMode u.boot.profile n < 4 := bits_lt
  have hgroup : profileGroup u.boot.profile n < 16 := bits_lt
  have hcfg : Reg.linkCfg n ≠ Reg.ethMac n := by simp only [Reg.linkCfg, Reg.ethMac]; omega
  obtain ⟨word, hword, hword'⟩ : ∃ word, word = profileMode u.boot.profile n * 2 ^ 30 +
      (if profileMode u.boot.profile n = 0 then 0xF else profileGroup u.boot.profile n) * 2 ^ 24 ∧
      bits (word % 2 ^ 64) 31 30 = profileMode u.boot.profile n := by
    refine ⟨_, rfl, ?_⟩
    rw [bits_eq]
    split <;> omega
  have heq : u.applyLink n = if profileMode u.boot.profile n = 2 ∨ (profileMode u.boot.profile n = 3 ∧ n % 2 = 0) then
      (u.setReg (Reg.linkCfg n) word).setReg (Reg.ethMac n) (fieldAt u.boot.profile (132 + 12 * n) 6)
      else u.setReg (Reg.linkCfg n) word := by rw [hword]; rfl
  rw [heq]
  split
  · refine ⟨?_, by simp only [State.setReg_fields], fun o hlink hmac => ?_⟩
    · rw [State.fld, State.reg_setReg_other hcfg, State.reg_setReg_same hs, hword']
    · rw [State.reg_setReg_other hmac, State.reg_setReg_other hlink]
  · refine ⟨?_, by simp only [State.setReg_fields], fun o hlink _ => State.reg_setReg_other hlink⟩
    rw [State.fld, State.reg_setReg_same hs, hword']

/-- What training does to one link: only a link on D128 trains, and one that does not come up is DOWN. -/
def State.trainFound (l : List (Nat × LinkTraining)) (s : State) (n : Nat) : State :=
  if s.fld (Reg.linkCfg n) 31 30 ≠ 1 then s
  else match l.find? fun x => x.1 = n with
    | some x => s.trainLink n x.2
    | none => s.setFld (Reg.linkState n) 28 24 4

theorem State.trainLink_apart {x : LinkTraining} : (u.trainLink n x).boot = u.boot ∧
    (∀ o, o ≠ Reg.linkState n → o ≠ Reg.linkLat n → (u.trainLink n x).reg o = u.reg o) ∧
    ∀ m, m ≠ n → (u.trainLink n x).link m = u.link m := by
  unfold State.trainLink
  refine ⟨by simp only [State.updLink, State.setReg_fields], fun o hstate hlat => ?_, fun m hm => ?_⟩
  · rw [State.reg_updLink, State.reg_setReg_other hlat, State.reg_setReg_other hstate]
  · rw [State.link_updLink_other hm, State.link_congr (s := u)]
    simp only [State.setReg_fields]

theorem State.trainFound_apart {l : List (Nat × LinkTraining)} : (u.trainFound l n).boot = u.boot ∧
    (∀ o, o ≠ Reg.linkState n → o ≠ Reg.linkLat n → (u.trainFound l n).reg o = u.reg o) ∧
    ∀ m, m ≠ n → (u.trainFound l n).link m = u.link m := by
  unfold State.trainFound
  split
  · exact ⟨rfl, fun _ _ _ => rfl, fun _ _ => rfl⟩
  · split
    · exact State.trainLink_apart
    · exact ⟨by simp only [State.setFld_fields], fun o ho _ => State.reg_setFld_other ho, fun m _ => State.link_setFld⟩

theorem State.trainFound_sound {l : List (Nat × LinkTraining)} (hs : u.Sound) : (u.trainFound l n).Sound := by
  unfold State.trainFound
  split
  · exact hs
  · split
    · exact (State.trainLink_kept hs.kept).sound
    · exact hs.setFld

/-- A link on D128 is UP with its credit, or DOWN, as training found it. -/
def State.LinkFound (l : List (Nat × LinkTraining)) (n : Nat) (s : State) : Prop :=
  (∀ x, l.find? (fun x => x.1 = n) = some x → s.fld (Reg.linkState n) 31 29 = 2 ∧ (s.link n).credit = 65536) ∧
    (l.find? (fun x => x.1 = n) = none → s.fld (Reg.linkState n) 28 24 = 4)

theorem State.trainFound_found {l : List (Nat × LinkTraining)} (hs : u.Sound) (hn : n < 64)
    (hmode : u.fld (Reg.linkCfg n) 31 30 = 1) : (u.trainFound l n).LinkFound l n := by
  rw [State.trainFound, if_neg (not_not.2 hmode)]
  constructor
  · intro x hx
    obtain ⟨hstate, -, hcredit, -⟩ := State.trainLink_spec (x := x.2) hs hn
    rw [hx]
    exact ⟨hstate, hcredit⟩
  · intro hx
    rw [hx]
    exact State.fld_setFld_of_fits hs (by decide) (by decide) (by decide)

theorem State.LinkFound.of_same {l : List (Nat × LinkTraining)} (h : u.LinkFound l n)
    (hreg : t.reg (Reg.linkState n) = u.reg (Reg.linkState n)) (hlink : t.link n = u.link n) : t.LinkFound l n := by
  simpa only [State.LinkFound, State.fld_congr hreg, hlink] using h

/-- Stage 8: every link is configured, and those on D128 train. -/
theorem exec_linkTrainingStage_spec (hup : s.Up) (hs : s.Sound) (hnext : s.boot.next = 8) (l : List (Nat × LinkTraining)) :
    ∃ t, exec (.linkTrainingStage d l) s = .next t ∧ t.boot.next = 9 ∧ ∀ n < 64,
      t.fld (Reg.linkCfg n) 31 30 = profileMode s.boot.profile n ∧ (profileMode s.boot.profile n = 1 → t.LinkFound l n) := by
  obtain ⟨hboot, -⟩ := State.stageBegun_fields (s := s) (k := 8) (d := d)
  have hsound := State.stageBegun_sound (k := 8) (d := d) hs
  rw [exec_linkTrainingStage, execLinkTrainingStage, hup.stage hnext]
  generalize s.stageBegun 8 d = v at hboot hsound
  have hprofile : v.boot.profile = s.boot.profile := by rw [hboot]
  obtain ⟨⟨husound, huboot⟩, hmodes⟩ := State.foldl_range_spec (s := v) (f := State.applyLink) (m := 64)
    (I := fun u => u.Sound ∧ u.boot = v.boot) (P := fun n u => u.fld (Reg.linkCfg n) 31 30 = profileMode v.boot.profile n)
    ⟨hsound, rfl⟩
    (fun u n _ h => ⟨(State.applyLink_kept h.1.kept).sound, (State.applyLink_spec h.1).2.1.trans h.2⟩)
    (fun u n _ h => by rw [(State.applyLink_spec h.1).1, h.2])
    (fun u i j hne h hi => by
      obtain ⟨-, -, hother⟩ := State.applyLink_spec (n := j) h.1
      rw [State.fld_congr (hother _ (by simp only [Reg.linkCfg]; omega) (by simp only [Reg.linkCfg, Reg.ethMac]; omega)), hi])
  obtain ⟨⟨-, htboot, htmodes⟩, hfound⟩ := State.foldl_range_spec (s := (List.range 64).foldl State.applyLink v)
    (f := State.trainFound l) (m := 64)
    (I := fun u => u.Sound ∧ u.boot = v.boot ∧ ∀ n < 64, u.fld (Reg.linkCfg n) 31 30 = profileMode v.boot.profile n)
    (P := fun n u => profileMode v.boot.profile n = 1 → u.LinkFound l n) ⟨husound, huboot, hmodes⟩
    (fun u n _ h => by
      obtain ⟨hsame, hother, -⟩ := State.trainFound_apart (u := u) (n := n) (l := l)
      refine ⟨State.trainFound_sound h.1, hsame.trans h.2.1, fun m hm => ?_⟩
      rw [State.fld_congr (hother _ (by simp only [Reg.linkCfg, Reg.linkState]; omega)
        (by simp only [Reg.linkCfg, Reg.linkLat]; omega)), h.2.2 m hm])
    (fun u n hn h hmode => State.trainFound_found h.1 hn (by rw [h.2.2 n hn, hmode]))
    (fun u i j hne h hi hmode => by
      obtain ⟨-, hother, hlink⟩ := State.trainFound_apart (u := u) (n := j) (l := l)
      exact (hi hmode).of_same (hother _ (by simp only [Reg.linkState]; omega) (by simp only [Reg.linkState, Reg.linkLat]; omega))
        (hlink i hne))
  refine ⟨_, rfl, ?_, fun n hn => ?_⟩
  · exact (congrArg BootSt.next htboot).trans (congrArg BootSt.next hboot)
  · rw [← hprofile]
    exact ⟨htmodes n hn, hfound n hn⟩

/-! ### Stage 9: the GCL (R365, R366) -/

theorem State.gclFlush_of_empty (h : u.gcl.queued = []) : u.gclFlush = u := by
  have hsame : { u with gcl := { u.gcl with queued := [] } } = u := by rw [← h]
  rw [State.gclFlush, h, State.gclFlushList, hsame]

/-- The word of GCL_STATE after training (Table 15.10). -/
theorem State.gclTrained_reg (hs : u.Sound) (x : GclTraining) : (u.gclTrained x).fld Reg.gclState 31 29 = 2 ∧
    (u.gclTrained x).fld Reg.gclState 28 27 = x.width % 4 ∧
    (u.gclTrained x).fld Reg.gclState 9 0 = (48 + 2 * ceilDiv x.flight 2) % 1024 := by
  have hrev : ofBool x.reversed < 2 := by cases x.reversed <;> decide
  simp only [State.gclTrained, State.fld, State.reg_setReg_same hs, bits_eq]
  omega

/-- Stage 9 when the GCL trains, with no message waiting for it. -/
theorem exec_gclTrainingStage_of_trained (hup : s.Up) (hs : s.Sound) (hnext : s.boot.next = 9) (x : GclTraining)
    (hqueued : s.gcl.queued = []) : ∃ t, exec (.gclTrainingStage d (some x)) s = .next t ∧ t.boot.next = 10 ∧
      t.gclUp = true ∧ t.fld Reg.gclState 28 27 = x.width % 4 ∧
      t.fld Reg.gclState 9 0 = (48 + 2 * ceilDiv x.flight 2) % 1024 ∧ t.gcl.credits = [512, 64, 128, 512] ∧
      t.fld Reg.bootStatus 31 28 = 10 := by
  obtain ⟨hboot, -, -, -, hgcl⟩ := State.stageBegun_fields (s := s) (k := 9) (d := d)
  have hsound := State.stageBegun_sound (k := 9) (d := d) hs
  rw [exec_gclTrainingStage, execGclTrainingStage, hup.stage hnext]
  generalize s.stageBegun 9 d = v at hboot hgcl hsound
  obtain ⟨hup', hwidth, hlat⟩ := State.gclTrained_reg hsound x
  have htrained : (v.gclTrained x).Sound := hsound.setReg
  obtain ⟨w, hw⟩ : ∃ w, w = ({ v.gclTrained x with gcl := { v.gcl with credits := [512, 64, 128, 512] } } : State) := ⟨_, rfl⟩
  have hregs : w.regs = (v.gclTrained x).regs := by rw [hw]
  have hwsound : w.Sound := hw ▸ Kept.sound (q := v.pending) (n := v.freeCtr)
    (Kept.upd htrained.kept rfl rfl rfl rfl rfl rfl rfl)
  have hstate (hi lo : Nat) : (w.setFld Reg.bootStatus 31 28 0xA).fld Reg.gclState hi lo = (v.gclTrained x).fld Reg.gclState hi lo := by
    rw [State.fld_setFld_other (by decide), State.fld_congr (State.reg_congr hregs)]
  refine ⟨w.setFld Reg.bootStatus 31 28 0xA, ?_, ?_, ?_, ?_, ?_, ?_, ?_⟩
  · rw [hw]
    refine congrArg Host.Outcome.next (State.gclFlush_of_empty ?_)
    simp only [State.setFld_fields, hgcl, hqueued]
  · simp only [State.setFld_fields, hw, State.gclTrained, State.setReg_fields, hboot]
  · rw [State.gclUp, hstate, hup']
    rfl
  · rw [hstate, hwidth]
  · rw [hstate, hlat]
  · simp only [State.setFld_fields, hw]
  · exact State.fld_setFld_of_fits hwsound (by decide) (by decide) (by decide)

/-! ### The obligation -/

/-- A stage that passes, whose work leaves registers, time and memory. -/
theorem State.Up.stage_passes (hup : s.Up) (hs : s.Sound) (hnext : s.boot.next = k) (hk : k < 16) (hd : d < 2 ^ 32)
    (hf : ∀ u, (f u).boot = u.boot ∧ (f u).regs = u.regs ∧ (f u).time = u.time ∧ (f u).mem = u.mem) :
    (s.stage k d f).boot = { s.boot with next := k + 1 } ∧
      (s.stage k d f).fld Reg.bootStatus 31 28 = k ∧ (s.stage k d f).reg (Reg.bootTime (k - 1)) = d ∧
      (s.stage k d f).time = (if k = 1 then d else s.time + d) ∧
      (∀ o, o ≠ Reg.bootStatus → o ≠ Reg.bootTime (k - 1) → (s.stage k d f).reg o = s.reg o) ∧ (s.stage k d f).mem = s.mem := by
  obtain ⟨hboot, htime, -, hmem, -⟩ := State.stageBegun_fields (s := s) (k := k) (d := d)
  obtain ⟨hstage, hbegan, hother⟩ := State.stageBegun_reg (k := k) (d := d) hs hk hd
  obtain ⟨hboot', hregs', htime', hmem'⟩ := hf (s.stageBegun k d)
  have hreg (o : Nat) : (f (s.stageBegun k d)).reg o = (s.stageBegun k d).reg o := State.reg_congr hregs'
  rw [hup.stage hnext, hboot', htime', hmem', State.fld_congr (hreg _), hreg]
  exact ⟨hboot, hstage, hbegan, htime, fun o hstatus htime => (hreg o).trans (hother o hstatus htime), hmem⟩

/-- A stage at which start-up stops. -/
theorem State.Up.stage_stops (hup : s.Up) (hs : s.Sound) (hnext : s.boot.next = k) (hk : k < 16) (hcode : code < 256)
    (hd : d < 2 ^ 32) (hf : ∀ u, f u = u.bootStop k code) : (s.stage k d f).boot = { s.boot with next := 0 } ∧
      (s.stage k d f).fld Reg.bootStatus 31 24 = 16 * k + k ∧ (s.stage k d f).fld Reg.bootStatus 23 16 = code ∧
      (s.stage k d f).fld Reg.alarmState 5 5 = 1 := by
  obtain ⟨hboot, -⟩ := State.stageBegun_fields (s := s) (k := k) (d := d)
  obtain ⟨hbegan, -⟩ := State.stageBegun_reg (k := k) (d := d) hs hk hd
  obtain ⟨hstop, hfail, hstage, halarm⟩ := State.bootStop_spec (State.stageBegun_sound (k := k) (d := d) hs) hk hcode
  rw [hbegan] at hstage
  rw [hup.stage hnext, hf]
  generalize (s.stageBegun k d).bootStop k code = t at hstop hfail hstage halarm
  simp only [State.fld, bits_eq] at hfail hstage ⊢
  refine ⟨by rw [hstop, hboot], by omega, by omega, ?_⟩
  simpa only [State.fld, bits_eq] using halarm

/-- Settles O54. That start-up stops on a failure in the boot ROM as it does in stage 4, and that a failure of a later stage is
fatal also with FATAL set already, is log 78: the model's choice. -/
theorem startUpStagesPass : Obligations.StartUpStagesPass := by
  unfold Obligations.StartUpStagesPass
  intro s d hup hs hd
  refine ⟨?passes, ?stops, ?verification, ?puf, ?selfTest,
    fun hnext hrepairs => exec_hbmTrainingStage_of_good hup hs hnext hrepairs,
    fun hnext l => exec_linkTrainingStage_spec hup hs hnext l, ?gcl⟩
  case passes =>
    intro k i hnext hmem
    simp only [List.mem_cons, Prod.mk.injEq, List.not_mem_nil, or_false] at hmem
    obtain ⟨rfl, rfl⟩ | ⟨rfl, rfl⟩ | ⟨rfl, rfl⟩ := hmem
    · exact ⟨_, exec_startUp d s, hup.stage_passes hs hnext (by decide) hd fun _ => ⟨rfl, rfl, rfl, rfl⟩⟩
    · exact ⟨_, exec_bootRomStage d true s, hup.stage_passes hs hnext (by decide) hd fun _ => ⟨rfl, rfl, rfl, rfl⟩⟩
    · exact ⟨_, exec_falosteoStage d true s, hup.stage_passes hs hnext (by decide) hd fun _ => ⟨rfl, rfl, rfl, rfl⟩⟩
  case stops =>
    intro k code i hnext hmem
    simp only [List.mem_cons, Prod.mk.injEq, List.not_mem_nil, or_false] at hmem
    obtain ⟨rfl, rfl, rfl⟩ | ⟨rfl, rfl, rfl⟩ := hmem
    · exact ⟨_, exec_bootRomStage d false s, hup.stage_stops hs hnext (by decide) (by decide) hd fun _ => rfl⟩
    · exact ⟨_, exec_falosteoStage d false s, hup.stage_stops hs hnext (by decide) (by decide) hd fun _ => rfl⟩
  case verification =>
    intro hnext
    exact ⟨_, exec_verificationStage d s, fun f p hf hp => exec_verificationStage_of_chosen hup hs hnext hf hp rfl,
      fun hf => exec_verificationStage_of_none hup hs hnext (.inl ⟨hf, rfl⟩) rfl,
      fun f hf hp => exec_verificationStage_of_none hup hs hnext (.inr ⟨⟨f, hf⟩, hp, rfl⟩) rfl⟩
  case puf =>
    exact fun hnext => ⟨exec_pufStage_of_ok hup hs hnext,
      _, exec_pufStage d false s, hup.stage_fatal (code := 5) hs hnext (by decide) (by decide) rfl⟩
  case selfTest =>
    exact fun hnext => ⟨exec_selfTestStage_of_good hup hs hnext, fun r hr => exec_selfTestStage_of_router hup hs hnext hr⟩
  case gcl =>
    exact fun hnext => ⟨fun x hqueued => exec_gclTrainingStage_of_trained hup hs hnext x hqueued,
      _, exec_gclTrainingStage d none s, hup.stage_fatal (code := 8) hs hnext (by decide) (by decide) rfl⟩

end Sys2Proof.Machine
end

section
/-! SUPPORT and PROOF. Full and partial resets, power, readings, the ACLK rate and copse power states (17 R403 to R419, 19 R443,
R444). -/

namespace Sys2Proof.Machine

variable {s t u v : State} {k n o c g ch : Nat} {l : List Reading}

theorem exec_fullResetBegin (k : Nat) (s : State) : exec (.fullResetBegin k) s = execFullResetBegin k s := rfl

theorem exec_input (s : State) : exec .input s = execInput s := rfl

theorem exec_inputInRange (s : State) : exec .inputInRange s = execInputInRange s := rfl

theorem exec_resetNAssert (s : State) : exec .resetNAssert s = execResetNAssert s := rfl

theorem exec_resetNDeassert (s : State) : exec .resetNDeassert s = execResetNDeassert s := rfl

theorem exec_commandResetDelay (s : State) : exec .commandResetDelay s = execCommandResetDelay s := rfl

theorem exec_resetCtrl (v : Nat) (s : State) : exec (.resetCtrl v) s = execResetCtrl v s := rfl

theorem exec_resetRelease (s : State) : exec .resetRelease s = execResetRelease s := rfl

theorem exec_powerOn (s : State) : exec .powerOn s = execPowerOn s := rfl

theorem exec_powerLoss (s : State) : exec .powerLoss s = execPowerLoss s := rfl

theorem exec_watchdog (s : State) : exec .watchdog s = execWatchdog s := rfl

theorem exec_watchdogRestart (s : State) : exec .watchdogRestart s = execWatchdogRestart s := rfl

theorem exec_junctionRead (g : Nat) (l : List Reading) (s : State) : exec (.junctionRead g l) s = execJunctionRead g l s := rfl

theorem exec_powerCheck (a b : Nat) (s : State) : exec (.powerCheck a b) s = execPowerCheck a b s := rfl

theorem exec_aclkCapWrite (v : Nat) (s : State) : exec (.aclkCapWrite v) s = execAclkCapWrite v s := rfl

theorem exec_aclkRateChange (s : State) : exec .aclkRateChange s = execAclkRateChange s := rfl

theorem exec_gateEntry (c : Nat) (s : State) : exec (.gateEntry c) s = execGateEntry c s := rfl

theorem exec_retainEntry (c : Nat) (s : State) : exec (.retainEntry c) s = execRetainEntry c s := rfl

theorem exec_wake (c : Nat) (s : State) : exec (.wake c) s = execWake c s := rfl

theorem exec_wakeComplete (c : Nat) (s : State) : exec (.wakeComplete c) s = execWakeComplete c s := rfl

theorem exec_memoryControllerReset (ch : Nat) (reads : List Nat) (s : State) :
    exec (.memoryControllerReset ch reads) s = execMemoryControllerReset ch reads s := rfl

theorem exec_memoryControllerRetrained (ch : Nat) (s : State) :
    exec (.memoryControllerRetrained ch) s = execMemoryControllerRetrained ch s := rfl

theorem exec_seamReset (p : Nat) (s : State) : exec (.seamReset p) s = execSeamReset p s := rfl

theorem exec_seamPortRetrained (p : Nat) (s : State) : exec (.seamPortRetrained p) s = execSeamPortRetrained p s := rfl

/-! ### A full reset (R414, R415, R419) -/

/-- The word of RESET_CAUSE of a full reset: one more in COUNT, its cause in CAUSE and in SOURCES. -/
theorem State.resetCauseAfter_spec (hk : 1 ≤ k) (hk8 : k ≤ 8) : s.resetCauseAfter k < 2 ^ 64 ∧
    bits (s.resetCauseAfter k) 31 28 = k ∧ bit (s.resetCauseAfter k) k = 1 ∧
    bits (s.resetCauseAfter k) 63 32 = min (s.fld Reg.resetCause 63 32 + 1) (2 ^ 32 - 1) := by
  unfold State.resetCauseAfter
  have hcount : saturate (2 ^ 32 - 1) (s.fld Reg.resetCause 63 32 + 1) = min (s.fld Reg.resetCause 63 32 + 1) (2 ^ 32 - 1) := by
    rw [saturate, Nat.min_comm]
  rw [hcount]
  have hmax : min (s.fld Reg.resetCause 63 32 + 1) (2 ^ 32 - 1) < 2 ^ 32 := by omega
  generalize min (s.fld Reg.resetCause 63 32 + 1) (2 ^ 32 - 1) = count at hmax
  rw [Nat.mod_eq_of_lt (show k < 16 by omega)]
  have hsource : 2 ^ k ≤ 2 ^ 8 := Nat.pow_le_pow_right (by decide) hk8
  have hcause (q : Nat) (hq : q ≤ 2 ^ 8) : bits (count * 2 ^ 32 + k * 2 ^ 28 + q) 31 28 = k := by
    simp only [bits_eq]
    omega
  have hcounted (q : Nat) (hq : q ≤ 2 ^ 8) : bits (count * 2 ^ 32 + k * 2 ^ 28 + q) 63 32 = count := by
    simp only [bits_eq]
    omega
  have hbit : bit (count * 2 ^ 32 + k * 2 ^ 28 + 2 ^ k) k = 1 := by
    rw [bit, Nat.shiftRight_eq_div_pow]
    interval_cases k <;> omega
  replace hcause := hcause _ hsource
  replace hcounted := hcounted _ hsource
  have hlt : count * 2 ^ 32 + k * 2 ^ 28 + 2 ^ k < 2 ^ 64 := by omega
  dsimp only
  generalize count * 2 ^ 32 + k * 2 ^ 28 + 2 ^ k = w at hlt hcause hcounted hbit
  split
  · refine ⟨putBits_lt (by decide) (by decide) hlt, ?_, ?_, ?_⟩
    · rw [bits_putBits_above (by decide) (by decide), hcause]
    · by_cases h4 : k = 4
      · rw [h4, bit_putBits_same]
      · rw [bit_putBits_other h4, hbit]
    · rw [bits_putBits_above (by decide) (by decide), hcounted]
  · exact ⟨hlt, hcause, hbit, hcounted⟩

/-- What a full reset with its cause leaves of a device that was not held. -/
structure ResetBegun (s : State) (k : Nat) (t : State) : Prop where
  held : t.pwr.held = true
  cause : t.fld Reg.resetCause 31 28 = k
  source : bit (t.reg Reg.resetCause) k = 1
  count : t.fld Reg.resetCause 63 32 = min (s.fld Reg.resetCause 63 32 + 1) (2 ^ 32 - 1)
  regs : ∀ o, o ≠ Reg.resetCause → t.reg o = State.reset.reg o
  cmd : t.cmd = CmdSt.reset
  tally : t.tally = TallySt.reset
  imp : t.imp = ImpSt.reset
  tens : t.tens = []
  flash : t.boot.flash = s.boot.flash
  time : t.time = s.time
  pending : t.pending = s.pending

theorem State.Up.beginReset (hup : s.Up) (hk : 1 ≤ k) (hk8 : k ≤ 8) : ResetBegun s k (s.beginReset k) := by
  obtain ⟨hlt, hcause, hsource, hcount⟩ := State.resetCauseAfter_spec (s := s) hk hk8
  obtain ⟨u, heq, hregs, hheld, hcmd, htally, himp, htens, hflash, htime, hpending⟩ : ∃ u : State,
      s.beginReset k = u.setReg Reg.resetCause (s.resetCauseAfter k) ∧ u.regs = [] ∧ u.pwr.held = true ∧
        u.cmd = CmdSt.reset ∧ u.tally = TallySt.reset ∧ u.imp = ImpSt.reset ∧ u.tens = [] ∧
        u.boot.flash = s.boot.flash ∧ u.time = s.time ∧ u.pending = s.pending := by
    refine ⟨?after, ?eq, ?parts⟩
    case eq => rw [State.beginReset, if_neg (by simp [hup.1]), if_neg (by simp [hup.2])]
    case parts => exact ⟨rfl, rfl, rfl, rfl, rfl, rfl, rfl, rfl, rfl⟩
  have hword : (s.beginReset k).reg Reg.resetCause = s.resetCauseAfter k := by
    rw [heq, State.reg, State.setReg]
    dsimp only
    rw [hregs, Sparse.get_set_same rfl, BitVec.toNat_ofNat, Nat.mod_eq_of_lt hlt]
  have hother (o : Nat) (ho : o ≠ Reg.resetCause) : (s.beginReset k).reg o = State.reset.reg o := by
    rw [heq, State.reg_setReg_other ho, State.reg, hregs]
    rfl
  refine ⟨?_, by rw [State.fld, hword, hcause], by rw [hword, hsource], by rw [State.fld, hword, hcount], hother, ?_, ?_, ?_, ?_,
    ?_, ?_, ?_⟩
  all_goals rw [heq]
  all_goals simp only [State.setReg_fields, hheld, hcmd, htally, himp, htens, hflash, htime, hpending]

/-- What a reset begins from: the pins of the device do not matter. -/
theorem ResetBegun.of_pins {p : PwrSt} (h : ResetBegun { s with pwr := p } k t) : ResetBegun s k t :=
  ⟨h.held, h.cause, h.source, h.count, h.regs, h.cmd, h.tally, h.imp, h.tens, h.flash, h.time, h.pending⟩

/-- Every cause of a full reset (Table 17.7), of a device that has power and is not held. -/
theorem exec_beginsReset {i : Instr} (hup : s.Up)
    (h : 1 ≤ k ∧ k ≤ 8 ∧ i = Instr.fullResetBegin k ∨ k = 2 ∧ i = .input ∨ k = 3 ∧ i = .resetNAssert ∨
      k = 4 ∧ s.cmd.resetPhase = 2 ∧ i = .commandResetDelay ∨
      k = 5 ∧ (∃ v, bits v 31 16 = 0x5253 ∧ i = .resetCtrl v) ∨
      k = 7 ∧ s.fld Reg.cdcRstmode 0 0 = 0 ∧ (∃ ch l, ch < 256 ∧ i = .memoryControllerReset ch l) ∨
      k = 7 ∧ s.fld Reg.cdcRstmode 1 1 = 0 ∧ (∃ p, i = .seamReset p) ∨
      k = 8 ∧ 4 < s.boot.next ∧ s.fld Reg.watchdog 31 31 = 1 ∧ s.watchdogOut = true ∧ i = .watchdog) :
    ∃ t, exec i s = .next t ∧ ResetBegun s k t := by
  obtain ⟨hk, hk8, rfl⟩ | ⟨rfl, rfl⟩ | ⟨rfl, rfl⟩ | ⟨rfl, hphase, rfl⟩ | ⟨rfl, v, hv, rfl⟩ | ⟨rfl, hmode, ch, l, hch, rfl⟩ |
    ⟨rfl, hmode, p, rfl⟩ | ⟨rfl, hnext, hen, hout, rfl⟩ := h
  · exact ⟨_, by rw [exec_fullResetBegin, execFullResetBegin, if_pos ⟨hk, hk8⟩], hup.beginReset hk hk8⟩
  · have hout : ({ s with pwr := { s.pwr with inRange := false } } : State).Up := hup
    exact ⟨_, by rw [exec_input, execInput, State.whenPowered, if_pos hup.1],
      (hout.beginReset (by decide) (by decide)).of_pins⟩
  · have hlow : ({ s with pwr := { s.pwr with pinLow := true } } : State).Up := hup
    exact ⟨_, by rw [exec_resetNAssert, execResetNAssert], (hlow.beginReset (by decide) (by decide)).of_pins⟩
  · exact ⟨_, by rw [exec_commandResetDelay, execCommandResetDelay, if_pos hphase], hup.beginReset (by decide) (by decide)⟩
  · exact ⟨_, by rw [exec_resetCtrl, execResetCtrl, State.writeResetCtrl, if_pos hv], hup.beginReset (by decide) (by decide)⟩
  · exact ⟨_, by rw [exec_memoryControllerReset, execMemoryControllerReset, hup.when, if_neg (by omega), if_pos hmode],
      hup.beginReset (by decide) (by decide)⟩
  · exact ⟨_, by rw [exec_seamReset, execSeamReset, hup.when, if_pos hmode], hup.beginReset (by decide) (by decide)⟩
  · have hruns : s.watchdogRuns = true := by simp [State.watchdogRuns, hup.1, hup.2, hnext]
    exact ⟨_, by rw [exec_watchdog, execWatchdog, if_pos (by simp [hruns, hen, hout])], hup.beginReset (by decide) (by decide)⟩

/-! ### The rate that is requested (R403, R404) -/

/-- The rate wanted depends on the levels and the cap alone. -/
theorem State.rateWanted_congr (hreg : ∀ o, o ≠ Reg.clkState → o ≠ Reg.gclIrqAck → t.reg o = u.reg o)
    (hlevel : t.pwr.powerLevel = u.pwr.powerLevel) : t.rateWanted = u.rateWanted := by
  have hjunction (g : Nat) : t.fld (Reg.junction g) 30 29 = u.fld (Reg.junction g) 30 29 :=
    State.fld_congr (hreg _ (by simp only [Reg.junction, Reg.clkState]; omega) (by simp only [Reg.junction, Reg.gclIrqAck]; omega))
  have hcap : t.fld Reg.aclkCap 1 0 = u.fld Reg.aclkCap 1 0 := State.fld_congr (hreg _ (by decide) (by decide))
  simp only [State.rateWanted, State.thermalLevel, State.capCode, hjunction, hcap, hlevel]

/-- The request is written in CLK_STATE alone. -/
theorem State.requestRate_spec (hs : u.Sound) : u.requestRate.fld Reg.clkState 29 28 = u.rateWanted % 4 ∧
    u.requestRate.fld Reg.clkState 27 27 = ofBool (decide (u.rateWanted ≠ u.fld Reg.clkState 31 30)) ∧
    (∀ o, o ≠ Reg.clkState → u.requestRate.reg o = u.reg o) ∧ u.requestRate.pwr = u.pwr ∧ u.requestRate.mem = u.mem ∧
    u.requestRate.cmd = u.cmd := by
  unfold State.requestRate
  extract_lets w by_ a b
  have ha : a.Sound := hs.setFld
  have hb : b.Sound := ha.setFld
  have hbit : ofBool (decide (w ≠ a.fld Reg.clkState 31 30)) < 2 := by
    cases decide (w ≠ a.fld Reg.clkState 31 30) <;> decide
  have hrate : a.fld Reg.clkState 31 30 = u.fld Reg.clkState 31 30 :=
    State.fld_setFld_above hs (by decide) (by decide) (by decide)
  have hlow (x y z : Nat) {hi lo : Nat} (hlo : 26 < lo) : (((b.setFld Reg.clkState 26 26 x).setFld Reg.clkState 25 25 y).setFld
      Reg.clkState 24 24 z).fld Reg.clkState hi lo = b.fld Reg.clkState hi lo := by
    rw [State.fld_setFld_above hb.setFld.setFld (by decide) (by decide) (by omega),
      State.fld_setFld_above hb.setFld (by decide) (by decide) (by omega),
      State.fld_setFld_above hb (by decide) (by decide) hlo]
  refine ⟨?_, ?_, fun o ho => ?_, ?_, ?_, ?_⟩
  · rw [hlow _ _ _ (by decide), State.fld_setFld_above ha (by decide) (by decide) (by decide),
      State.fld_setFld_same hs (by decide) (by decide)]
    rfl
  · rw [hlow _ _ _ (by decide), State.fld_setFld_of_fits ha (by decide) (by decide) hbit, hrate]
  · simp only [State.reg_setFld_other ho, b, a]
  all_goals simp only [State.setFld_fields, b, a]

theorem State.requestRate_sound (hs : u.Sound) : u.requestRate.Sound := (State.requestRate_kept hs.kept).sound

/-- After a request the rate requested is the rate wanted. -/
theorem State.requestRate_wanted (hs : u.Sound) :
    u.requestRate.fld Reg.clkState 29 28 = u.requestRate.rateWanted % 4 ∧ u.requestRate.rateWanted = u.rateWanted := by
  obtain ⟨hrate, -, hreg, hpwr, -⟩ := State.requestRate_spec hs
  have hwanted : u.requestRate.rateWanted = u.rateWanted :=
    State.rateWanted_congr (fun o ho _ => hreg o ho) (by rw [hpwr])
  exact ⟨by rw [hwanted, hrate], hwanted⟩

theorem exec_aclkCapWrite_spec (hup : s.Up) (hs : s.Sound) (x : Nat) : ∃ t, exec (.aclkCapWrite x) s = .next t ∧
    t.fld Reg.aclkCap 1 0 = x % 4 ∧ t.fld Reg.clkState 29 28 = t.rateWanted % 4 ∧
    t.fld Reg.clkState 27 27 = ofBool (decide (t.rateWanted ≠ s.fld Reg.clkState 31 30)) := by
  have hset : (s.setFld Reg.aclkCap 1 0 x).Sound := hs.setFld
  obtain ⟨-, hpending, hreg, -⟩ := State.requestRate_spec hset
  obtain ⟨hrate, hwanted⟩ := State.requestRate_wanted hset
  refine ⟨_, by rw [exec_aclkCapWrite, execAclkCapWrite, hup.when, State.writeAclkCap], ?_, hrate, ?_⟩
  · rw [State.fld_congr (hreg _ (by decide)), State.fld_setFld_same hs (by decide) (by decide)]
    rfl
  · rw [hwanted, hpending, State.fld_setFld_other (by decide)]

/-! ### A grove's reading (R403) -/

/-- A reading has eight bits. -/
theorem groveReading_lt : groveReading l < 256 := by
  refine List.foldlRecOn (motive := (· < 256)) l _ (by decide) fun a ha r _ => max_lt ha ?_
  cases r with
  | value c => exact Nat.mod_lt _ (by decide)
  | failed => decide

theorem junctionLevel_lt {old x : Nat} (hold : old < 4) : junctionLevel old x < 4 := by
  unfold junctionLevel
  extract_lets up
  have hup : up < 4 := by
    simp only [up]
    split_ifs <;> decide
  split_ifs <;> omega

/-- The register of a grove after a reading. -/
def State.junctionShown (s : State) (g : Nat) (l : List Reading) : State :=
  let off := Reg.junction g
  let u := (s.setFld off 31 31 (ofBool (decide (Reading.failed ∈ l)))).setFld off 30 29
    (junctionLevel (s.fld off 30 29) (groveReading l))
  (u.setFld off 23 16 (max (u.fld off 23 16) (groveReading l))).setFld off 7 0 (groveReading l)

/-- The state with other power and pins. -/
def State.withPwr (s : State) (p : PwrSt) : State := { s with pwr := p }

theorem State.withPwr_fields {p : PwrSt} : (s.withPwr p).regs = s.regs ∧ (s.withPwr p).mem = s.mem ∧
    (s.withPwr p).cmd = s.cmd ∧ (s.withPwr p).pwr = p := ⟨rfl, rfl, rfl, rfl⟩

theorem State.Sound.withPwr (hs : s.Sound) {p : PwrSt} : (s.withPwr p).Sound :=
  Kept.sound (q := s.pending) (n := s.freeCtr) (Kept.upd hs.kept rfl rfl rfl rfl rfl rfl rfl)

/-- A grove's reading is its register's, and the temperature that holds a reset. -/
def State.junctionSet (s : State) (g : Nat) (l : List Reading) : State :=
  (s.junctionShown g l).withPwr { (s.junctionShown g l).pwr with
    temps := (s.junctionShown g l).pwr.temps.set g (groveReading l) }

/-- The interrupts of a reading (R431). -/
def State.junctionNoted (s : State) (g : Nat) (l : List Reading) : State :=
  let old := s.fld (Reg.junction g) 30 29
  let u := s.junctionSet g l
  let u := if 2 ≤ junctionLevel old (groveReading l) ∧ old < 2 then u.irq 16 else u
  if decide (Reading.failed ∈ l) ∧ s.fld (Reg.junction g) 31 31 = 0 then u.irq 16 else u

/-- A reading of a grove; level 3 begins a full reset. -/
theorem exec_junctionRead_eq (hg : g < 4) (hl : l ≠ []) (hp : s.pwr.powered = true) : exec (.junctionRead g l) s = .next (
    if junctionLevel (s.fld (Reg.junction g) 30 29) (groveReading l) = 3 then
      ((s.junctionNoted g l).requestRate.alarmRose s).beginReset 6
    else (s.junctionNoted g l).requestRate.alarmRose s) := by
  rw [exec_junctionRead, execJunctionRead, if_pos ⟨hg, hl, hp⟩]
  rfl

theorem State.junctionShown_spec (hs : s.Sound) :
    (s.junctionShown g l).fld (Reg.junction g) 7 0 = groveReading l ∧
      (s.junctionShown g l).fld (Reg.junction g) 30 29 = junctionLevel (s.fld (Reg.junction g) 30 29) (groveReading l) ∧
      (s.junctionShown g l).fld (Reg.junction g) 31 31 = ofBool (decide (Reading.failed ∈ l)) ∧
      (s.junctionShown g l).pwr = s.pwr ∧ (s.junctionShown g l).mem = s.mem ∧ (s.junctionShown g l).cmd = s.cmd ∧
      (s.junctionShown g l).Sound := by
  have hfailed : ofBool (decide (Reading.failed ∈ l)) < 2 := by cases decide (Reading.failed ∈ l) <;> decide
  have hlevel : junctionLevel (s.fld (Reg.junction g) 30 29) (groveReading l) < 4 := junctionLevel_lt bits_lt
  unfold State.junctionShown
  extract_lets off a
  have ha : a.Sound := hs.setFld.setFld
  have habove (x y : Nat) {hi lo : Nat} (hlo : 23 < lo) : ((a.setFld off 23 16 x).setFld off 7 0 y).fld off hi lo = a.fld off hi lo := by
    rw [State.fld_setFld_above ha.setFld (by decide) (by decide) (by omega), State.fld_setFld_above ha (by decide) (by decide) hlo]
  refine ⟨State.fld_setFld_of_fits ha.setFld (by decide) (by decide) groveReading_lt, ?_, ?_, ?_, ?_, ?_, ha.setFld.setFld⟩
  · rw [habove _ _ (by decide), State.fld_setFld_of_fits hs.setFld (by decide) (by decide) hlevel]
  · rw [habove _ _ (by decide), State.fld_setFld_above hs.setFld (by decide) (by decide) (by decide),
      State.fld_setFld_of_fits hs (by decide) (by decide) hfailed]
  all_goals simp only [a, State.setFld_fields]

/-- The interrupts write GCL_IRQ_ACK alone. -/
theorem State.junctionNoted_spec (hs : s.Sound) : (s.junctionNoted g l).Sound ∧
    (∀ o, o ≠ Reg.gclIrqAck → (s.junctionNoted g l).reg o = (s.junctionSet g l).reg o) ∧
    (s.junctionNoted g l).pwr = (s.junctionSet g l).pwr ∧ (s.junctionNoted g l).mem = (s.junctionSet g l).mem ∧
    (s.junctionNoted g l).cmd = (s.junctionSet g l).cmd := by
  obtain ⟨-, -, -, -, -, -, hshown⟩ := State.junctionShown_spec (g := g) (l := l) hs
  have hset : (s.junctionSet g l).Sound := hshown.withPwr
  have hirq (b : Prop) [Decidable b] (u : State) (hu : u.Sound) : (if b then u.irq 16 else u).Sound ∧
      (∀ o, o ≠ Reg.gclIrqAck → (if b then u.irq 16 else u).reg o = u.reg o) ∧ (if b then u.irq 16 else u).pwr = u.pwr ∧
      (if b then u.irq 16 else u).mem = u.mem ∧ (if b then u.irq 16 else u).cmd = u.cmd := by
    split
    · exact ⟨(State.irq_kept hu.kept).sound, fun o ho => State.reg_irq_other ho, by simp only [State.irq_fields],
        by simp only [State.irq_fields], by simp only [State.irq_fields]⟩
    · exact ⟨hu, fun _ _ => rfl, rfl, rfl, rfl⟩
  unfold State.junctionNoted
  extract_lets old a b
  obtain ⟨hb, hreg, hpwr, hmem, hcmd⟩ := hirq (2 ≤ junctionLevel old (groveReading l) ∧ old < 2) a hset
  obtain ⟨hc, hreg', hpwr', hmem', hcmd'⟩ :=
    hirq (decide (Reading.failed ∈ l) = true ∧ s.fld (Reg.junction g) 31 31 = 0) b hb
  exact ⟨hc, fun o ho => (hreg' o ho).trans (hreg o ho), hpwr'.trans hpwr, hmem'.trans hmem, hcmd'.trans hcmd⟩

theorem State.alarmRose_fields : (u.alarmRose s).regs = u.regs ∧ (u.alarmRose s).pwr = u.pwr ∧
    (u.alarmRose s).mem = u.mem ∧ (u.alarmRose s).cmd = u.cmd := by
  unfold State.alarmRose
  split
  · simp only [State.proofEvent_fields, and_self]
  · exact ⟨rfl, rfl, rfl, rfl⟩

/-- A reading sets the grove's register and the rate requested, and nothing of memory and commands. -/
theorem exec_junctionRead_spec (hup : s.Up) (hs : s.Sound) (hg : g < 4) (hl : l ≠ []) :
    ∃ t, exec (.junctionRead g l) s = .next t ∧
      (junctionLevel (s.fld (Reg.junction g) 30 29) (groveReading l) ≠ 3 →
        t.fld (Reg.junction g) 7 0 = groveReading l ∧
        t.fld (Reg.junction g) 30 29 = junctionLevel (s.fld (Reg.junction g) 30 29) (groveReading l) ∧
        t.fld (Reg.junction g) 31 31 = ofBool (decide (Reading.failed ∈ l)) ∧
        t.pwr.temps = s.pwr.temps.set g (groveReading l) ∧ t.fld Reg.clkState 29 28 = t.rateWanted % 4 ∧
        t.mem = s.mem ∧ t.cmd = s.cmd) ∧
      (junctionLevel (s.fld (Reg.junction g) 30 29) (groveReading l) = 3 →
        t.pwr.held = true ∧ t.fld Reg.resetCause 31 28 = 6) := by
  obtain ⟨hreading, hlevel, hfailed, hpwr, hmem, hcmd, -⟩ := State.junctionShown_spec (g := g) (l := l) hs
  obtain ⟨hsregs, hsmem, hscmd, hspwr⟩ := State.withPwr_fields (s := s.junctionShown g l) (p := { (s.junctionShown g l).pwr with
    temps := (s.junctionShown g l).pwr.temps.set g (groveReading l) })
  rw [← State.junctionSet] at hsregs hsmem hscmd hspwr
  obtain ⟨hnoted, hnreg, hnpwr, hnmem, hncmd⟩ := State.junctionNoted_spec (g := g) (l := l) hs
  obtain ⟨-, -, hrreg, hrpwr, hrmem, hrcmd⟩ := State.requestRate_spec hnoted
  obtain ⟨hrate, -⟩ := State.requestRate_wanted hnoted
  obtain ⟨haregs, hapwr, hamem, hacmd⟩ := State.alarmRose_fields (u := (s.junctionNoted g l).requestRate) (s := s)
  rw [exec_junctionRead_eq hg hl hup.1]
  generalize (s.junctionNoted g l).requestRate.alarmRose s = t at haregs hapwr hamem hacmd
  have hjunction : t.reg (Reg.junction g) = (s.junctionShown g l).reg (Reg.junction g) := by
    rw [State.reg_congr haregs, hrreg _ (by simp only [Reg.junction, Reg.clkState]; omega),
      hnreg _ (by simp only [Reg.junction, Reg.gclIrqAck]; omega), State.reg_congr hsregs]
  have htpwr : t.pwr = { s.pwr with temps := s.pwr.temps.set g (groveReading l) } := by rw [hapwr, hrpwr, hnpwr, hspwr, hpwr]
  have hwanted : t.rateWanted = (s.junctionNoted g l).requestRate.rateWanted :=
    State.rateWanted_congr (fun o _ _ => State.reg_congr haregs) (by rw [hapwr])
  refine ⟨_, rfl, fun hlow => ?_, fun hhigh => ?_⟩
  · rw [if_neg hlow, State.fld_congr hjunction, State.fld_congr hjunction, State.fld_congr hjunction,
      State.fld_congr (State.reg_congr haregs), hrate, hwanted, htpwr]
    exact ⟨hreading, hlevel, hfailed, rfl, rfl, by rw [hamem, hrmem, hnmem, hsmem, hmem], by rw [hacmd, hrcmd, hncmd, hscmd, hcmd]⟩
  · have htup : t.Up := by
      rw [State.Up, htpwr]
      exact hup
    rw [if_pos hhigh]
    obtain hbegun := htup.beginReset (k := 6) (by decide) (by decide)
    exact ⟨hbegun.held, hbegun.cause⟩

/-! ### The power limits (R403) -/

/-- The power level and the checks below both limits in sequence, after a check; 100 in sequence lower the level and begin a new
sequence (log 86: the model's choice). -/
def State.powerStep (s : State) (a b : Nat) : Nat × Nat :=
  if 4000 < a ∨ s.powerLimit < b then (min 2 (s.pwr.powerLevel + 1), 0)
  else if 100 * a < 95 * 4000 ∧ 100 * b < 95 * s.powerLimit then
    if s.pwr.calm = 99 then (s.pwr.powerLevel - 1, 0) else (s.pwr.powerLevel, s.pwr.calm + 1)
  else (s.pwr.powerLevel, 0)

/-- The averages of a check. -/
def State.powerShown (s : State) (a : Nat) : State :=
  (s.setFld Reg.powerLimit 31 16 (min a 0xFFFF)).setFld Reg.moduleInput 31 16 (max (s.fld Reg.moduleInput 31 16) (min a 0xFFFF))

theorem State.powerShown_spec (hs : s.Sound) (a : Nat) : (s.powerShown a).Sound ∧
    (s.powerShown a).fld Reg.powerLimit 31 16 = min a 0xFFFF ∧ (s.powerShown a).powerLimit = s.powerLimit ∧
    (s.powerShown a).pwr = s.pwr := by
  unfold State.powerShown
  refine ⟨hs.setFld.setFld, ?_, ?_, by simp only [State.setFld_fields]⟩
  · rw [State.fld_setFld_other (by decide), State.fld_setFld_of_fits hs (by decide) (by decide) (by omega)]
  · rw [State.powerLimit, State.fld_setFld_other (by decide),
      State.fld_setFld_below hs (by decide) (by decide) (by decide) (by decide), State.powerLimit]

/-- Power and pins after a check. -/
def State.powerAfter (s : State) (a b : Nat) : PwrSt :=
  let above := decide (4000 < a) || decide (s.powerLimit < b)
  let under := decide (100 * a < 95 * 4000) && decide (100 * b < 95 * s.powerLimit)
  let calm := if under then s.pwr.calm + 1 else 0
  if above then { s.pwr with powerLevel := min 2 (s.pwr.powerLevel + 1), calm := 0 }
  else if calm = 100 then { s.pwr with powerLevel := s.pwr.powerLevel - 1, calm := 0 }
  else { s.pwr with calm := calm }

theorem State.powerAfter_step {a b : Nat} : ((u.powerAfter a b).powerLevel, (u.powerAfter a b).calm) = u.powerStep a b := by
  by_cases habove : 4000 < a ∨ u.powerLimit < b
  · simp [State.powerAfter, State.powerStep, habove]
  · by_cases hunder : 100 * a < 95 * 4000 ∧ 100 * b < 95 * u.powerLimit
    · by_cases hcalm : u.pwr.calm = 99 <;> simp [State.powerAfter, State.powerStep, habove, hunder, hcalm]
    · simp [State.powerAfter, State.powerStep, habove, hunder]

theorem exec_powerCheck_spec (hp : s.pwr.powered = true) (hs : s.Sound) (a b : Nat) : ∃ t, exec (.powerCheck a b) s = .next t ∧
    t.fld Reg.powerLimit 31 16 = min a 0xFFFF ∧ t.fld Reg.clkState 29 28 = t.rateWanted % 4 ∧
    (t.pwr.powerLevel, t.pwr.calm) = s.powerStep a b := by
  obtain ⟨hshown, havg, hlimit, hpwr⟩ := State.powerShown_spec hs a
  have hstep := State.powerAfter_step (u := s.powerShown a) (a := a) (b := b)
  have hexec : exec (.powerCheck a b) s = .next ((s.powerShown a).withPwr ((s.powerShown a).powerAfter a b)).requestRate := by
    rw [exec_powerCheck, execPowerCheck, State.whenPowered, if_pos hp]
    rfl
  generalize (s.powerShown a).powerAfter a b = q at hexec hstep
  have hsound : ((s.powerShown a).withPwr q).Sound := hshown.withPwr
  obtain ⟨hregs, -, -, hqpwr⟩ := State.withPwr_fields (s := s.powerShown a) (p := q)
  obtain ⟨-, -, hreg, hrpwr, -⟩ := State.requestRate_spec hsound
  refine ⟨_, hexec, ?_, (State.requestRate_wanted hsound).1, ?_⟩
  · rw [State.fld_congr (hreg _ (by decide)), State.fld_congr (State.reg_congr hregs), havg]
  · rw [hrpwr, hqpwr, hstep, State.powerStep, hlimit, hpwr, State.powerStep]

/-! ### The rate changes (R404) -/

/-- CLK_STATE once the rate requested is in force. -/
def State.rateTaken (u : State) : State :=
  ((u.setFld Reg.clkState 31 30 (u.fld Reg.clkState 29 28)).setFld Reg.clkState 27 27 0).addSat Reg.clkState 63 32 1

/-- The calendar at the rate in force. -/
def State.calendarShown (u : State) (r : Nat) : State :=
  ((u.setFld Reg.hbmCalendar 31 30 r).setFld Reg.hbmCalendar 26 16 (calendarOf r).1).setFld Reg.hbmCalendar 15 10
    (calendarOf r).2

theorem State.applyRate_regs (hpending : u.fld Reg.clkState 27 27 = 1) :
    u.applyRate.regs = (u.rateTaken.calendarShown (u.fld Reg.clkState 29 28)).regs ∧ u.applyRate.mem.refreshes = 0 := by
  rw [State.applyRate, if_neg (by omega)]
  exact ⟨rfl, rfl⟩

theorem State.rateTaken_spec (hs : u.Sound) : u.rateTaken.Sound ∧
    u.rateTaken.fld Reg.clkState 31 30 = u.fld Reg.clkState 29 28 ∧ u.rateTaken.fld Reg.clkState 27 27 = 0 ∧
    u.rateTaken.fld Reg.clkState 63 32 = min (u.fld Reg.clkState 63 32 + 1) (2 ^ 32 - 1) := by
  have hrate : u.fld Reg.clkState 29 28 < 4 := bits_lt
  unfold State.rateTaken
  generalize u.fld Reg.clkState 29 28 = r at hrate
  have hone : (u.setFld Reg.clkState 31 30 r).Sound := hs.setFld
  have htwo : ((u.setFld Reg.clkState 31 30 r).setFld Reg.clkState 27 27 0).Sound := hone.setFld
  have hlow {hi lo : Nat} (hhi : hi < 32) (hlo : lo ≤ hi) :
      (((u.setFld Reg.clkState 31 30 r).setFld Reg.clkState 27 27 0).addSat Reg.clkState 63 32 1).fld Reg.clkState hi lo =
        ((u.setFld Reg.clkState 31 30 r).setFld Reg.clkState 27 27 0).fld Reg.clkState hi lo :=
    State.fld_setFld_below htwo (by decide) (by decide) hhi hlo
  refine ⟨htwo.addSat, ?_, ?_, ?_⟩
  · rw [hlow (by decide) (by decide), State.fld_setFld_above hone (by decide) (by decide) (by decide),
      State.fld_setFld_of_fits hs (by decide) (by decide) hrate]
  · rw [hlow (by decide) (by decide), State.fld_setFld_of_fits hone (by decide) (by decide) (by decide)]
  · rw [State.fld_addSat_same htwo (by decide) (by decide), State.fld_setFld_above hone (by decide) (by decide) (by decide),
      State.fld_setFld_above hs (by decide) (by decide) (by decide)]

theorem State.calendarShown_spec (hs : u.Sound) {r : Nat} :
    ((u.calendarShown r).fld Reg.hbmCalendar 26 16, (u.calendarShown r).fld Reg.hbmCalendar 15 10) = calendarOf r ∧
      ∀ o, o ≠ Reg.hbmCalendar → (u.calendarShown r).reg o = u.reg o := by
  have hfits : (calendarOf r).1 < 2 ^ 11 ∧ (calendarOf r).2 < 2 ^ 6 := by
    match r with
    | 0 | 1 => decide
    | r + 2 => exact ⟨by simp only [calendarOf]; decide, by simp only [calendarOf]; decide⟩
  unfold State.calendarShown
  constructor
  · rw [State.fld_setFld_above hs.setFld.setFld (by decide) (by decide) (by decide),
      State.fld_setFld_of_fits hs.setFld (by decide) (by decide) hfits.1,
      State.fld_setFld_of_fits hs.setFld.setFld (by decide) (by decide) hfits.2]
  · exact fun o ho => by simp only [State.reg_setFld_other ho]

/-- A pending rate takes effect: CLK_STATE and the calendar show it (R271, R404). -/
theorem State.applyRate_spec (hs : u.Sound) (hpending : u.fld Reg.clkState 27 27 = 1) :
    u.applyRate.fld Reg.clkState 31 30 = u.fld Reg.clkState 29 28 ∧ u.applyRate.fld Reg.clkState 27 27 = 0 ∧
      u.applyRate.fld Reg.clkState 63 32 = min (u.fld Reg.clkState 63 32 + 1) (2 ^ 32 - 1) ∧
      (u.applyRate.fld Reg.hbmCalendar 26 16, u.applyRate.fld Reg.hbmCalendar 15 10) =
        calendarOf (u.fld Reg.clkState 29 28) ∧ u.applyRate.mem.refreshes = 0 := by
  obtain ⟨hregs, hrefreshes⟩ := State.applyRate_regs hpending
  obtain ⟨htaken, hrate, hdone, hcount⟩ := State.rateTaken_spec hs
  obtain ⟨hcalendar, hother⟩ := State.calendarShown_spec htaken (r := u.fld Reg.clkState 29 28)
  have hclk := hother Reg.clkState (by decide)
  simp only [State.fld_congr (State.reg_congr hregs), State.fld_congr hclk]
  exact ⟨hrate, hdone, hcount, hcalendar, hrefreshes⟩

theorem exec_aclkRateChange_spec (hup : s.Up) (hs : s.Sound) (htrained : s.mem.trained = true)
    (hpending : s.fld Reg.clkState 27 27 = 1) (hlast : s.mem.subslot = 31) : ∃ t, exec .aclkRateChange s = .next t ∧
      t.fld Reg.clkState 31 30 = s.fld Reg.clkState 29 28 ∧ t.fld Reg.clkState 27 27 = 0 ∧
      t.fld Reg.clkState 63 32 = min (s.fld Reg.clkState 63 32 + 1) (2 ^ 32 - 1) ∧
      (t.fld Reg.hbmCalendar 26 16, t.fld Reg.hbmCalendar 15 10) = calendarOf (s.fld Reg.clkState 29 28) ∧
      t.mem.subslot = 0 ∧ t.mem.refreshes = 0 := by
  have hbegun : s.subslotBegun.Sound :=
    ⟨hs.mem, hs.regs, hs.tallies, hs.flash, hs.rings, hs.links, hs.numbers, hs.vregs, hs.elements⟩
  have hclk (hi lo : Nat) : (s.subslotBegun.addWrap Reg.hbmCalendar 63 32 1).fld Reg.clkState hi lo = s.fld Reg.clkState hi lo := by
    rw [State.fld_addWrap_other (by decide)]
    exact State.fld_congr (State.reg_congr rfl)
  obtain ⟨hrate, hdone, hcount, hcalendar, hrefreshes⟩ := State.applyRate_spec hbegun.addWrap ((hclk 27 27).trans hpending)
  simp only [hclk] at hrate hcount hcalendar
  obtain ⟨hsubslot, -⟩ := State.subslotEnd_mem (s := s)
  rw [exec_aclkRateChange, execAclkRateChange, hup.when, if_pos (by simp [htrained, hpending, hlast])]
  rw [hlast, State.subslotEnd_of_last hlast] at hsubslot
  rw [State.subslotEnd_of_last hlast]
  exact ⟨_, rfl, hrate, hdone, hcount, hcalendar, hsubslot, hrefreshes⟩

/-! ### Copse power states (R406, R407) -/

theorem exec_gateEntry_of_idle (hc : c < 256) (hheld : s.pwr.held = false) (hcfg : s.fld Reg.gateCfg 15 0 ≠ 0)
    (hretired : s.isRetired c = false) (hgated : s.isGated c = false) (hworks : s.copseWorks c = false)
    (hsweep : ∀ x ∈ s.imp.sweep, x.1 ≠ c) :
    exec (.gateEntry c) s = .next { s with pwr := { s.pwr with gates := s.pwr.gates ++ [(c, 1)] } } := by
  have hany : (s.imp.sweep.any fun x => x.1 = c) = false := by simpa using hsweep
  rw [exec_gateEntry, execGateEntry, if_pos ⟨hc, hheld, hcfg, hretired, hgated, hworks, hany⟩]

theorem exec_retainEntry_spec (hgated : (c, 1) ∈ s.pwr.gates) (hwaking : c ∉ s.pwr.waking) (hcfg : s.fld Reg.gateCfg 31 31 = 1)
    (hunit : s.carriesUnit c = false) : ∃ t, exec (.retainEntry c) s = .next t ∧ (c, 2) ∈ t.pwr.gates ∧ (c, 1) ∉ t.pwr.gates ∧
      (∀ g, g.1 ≠ c → (g ∈ t.pwr.gates ↔ g ∈ s.pwr.gates)) ∧ t.regs = s.regs ∧ t.mem = s.mem := by
  rw [exec_retainEntry, execRetainEntry, if_pos ⟨hgated, hwaking, hcfg, hunit⟩]
  refine ⟨_, rfl, ?_, ?_, fun g hg => ?_, rfl, rfl⟩
  · exact List.mem_map.2 ⟨(c, 1), hgated, if_pos rfl⟩
  · intro h
    obtain ⟨g, -, hg⟩ := List.mem_map.1 h
    split at hg
    next => cases hg
    next hne => exact hne (congrArg Prod.fst hg)
  · constructor
    · intro h
      obtain ⟨x, hx, hxg⟩ := List.mem_map.1 h
      split at hxg
      next => exact absurd (congrArg Prod.fst hxg).symm hg
      next => exact hxg ▸ hx
    · exact fun h => List.mem_map.2 ⟨g, h, if_neg hg⟩

theorem exec_wakeComplete_spec (hc : c ∈ s.pwr.waking) : ∃ t, exec (.wakeComplete c) s = .next t ∧ t.isGated c = false ∧
    c ∉ t.pwr.waking ∧ (∀ d, d ≠ c → t.isGated d = s.isGated d) ∧ t.regs = s.regs ∧ t.mem = s.mem := by
  rw [exec_wakeComplete, execWakeComplete, if_pos hc]
  refine ⟨_, rfl, ?_, ?_, fun d hd => ?_, rfl, rfl⟩
  · simp [State.isGated, State.wakeCopse]
  · simp [State.wakeCopse]
  · simp only [State.isGated, State.wakeCopse, List.any_filter]
    congr 1
    funext g
    by_cases hg : g.1 = d
    · simp [hg, hd]
    · simp [hg]

/-! ### Partial resets (R412, R413) -/

theorem exec_memoryControllerReset_spec (hup : s.Up) (hs : s.Sound) (hch : ch < 256) (hmode : s.fld Reg.cdcRstmode 0 0 = 1)
    (hcap : s.imp.capTally = none) : ∃ t, exec (.memoryControllerReset ch []) s = .next t ∧ ch ∈ t.mem.resetting ∧
      (s.fld (Reg.channelState ch) 63 62 = 0 → t.fld (Reg.channelState ch) 63 59 = 0b01011) ∧
      t.mem.bytes = s.mem.bytes ∧ t.pwr = s.pwr := by
  have hqueued : (s.queueChannel ch 3).mem = s.mem ∧ (s.queueChannel ch 3).pwr = s.pwr := by
    by_cases hstate : s.fld (Reg.channelState ch) 63 62 = 0
    · obtain ⟨-, -, -, hmem, hpwr, -⟩ := State.queueChannel_of_inService (cause := 3) hstate hcap
      exact ⟨hmem, hpwr⟩
    · rw [State.queueChannel, if_neg hstate]
      exact ⟨rfl, rfl⟩
  have hjoin (x : Nat) : bits x 63 59 = 8 * bits x 63 62 + bits x 61 59 := by
    simp only [bits_eq]
    omega
  have hshown : s.fld (Reg.channelState ch) 63 62 = 0 → (s.queueChannel ch 3).fld (Reg.channelState ch) 63 59 = 0b01011 := by
    intro hstate
    obtain ⟨hregs, -⟩ := State.queueChannel_of_inService (cause := 3) hstate hcap
    obtain ⟨hqueue, hcause⟩ := State.channelQueued_spec hs (ch := ch) (cause := 3) (by decide)
    rw [State.fld_congr (State.reg_congr hregs), State.fld, hjoin, ← State.fld, ← State.fld, hqueue, hcause]
  rw [exec_memoryControllerReset, execMemoryControllerReset, hup.when, if_neg (by omega), if_neg (by omega)]
  generalize s.queueChannel ch 3 = u at hqueued hshown
  obtain ⟨hmem, hpwr⟩ := hqueued
  refine ⟨{ u with mem := { u.mem with resetting := (u.mem.resetting ++ [ch]).eraseDups } }, rfl,
    List.mem_eraseDups.2 (List.mem_append_right _ List.mem_cons_self), fun hstate => ?_, by rw [← hmem], hpwr⟩
  exact (State.fld_congr (State.reg_congr rfl)).trans (hshown hstate)

/-- A command that holds the imposition it latched is aborted (R413). -/
def Cmd.seamAborted (time : Nat) (c : Cmd) : Cmd :=
  if (c.phase = .dispatched ∨ c.phase = .waiting) ∧ c.holds ∧ c.latch.imposition ≠ 0 then
    { c with phase := .done, status := stAborted, detail := 0, result := 0, time := time % 2 ^ 48 }
  else c

theorem State.cmdOf_abortImposition : s.abortImposition.cmdOf n = (s.cmdOf n).map (Cmd.seamAborted s.time) :=
  State.cmdOf_map rfl fun c => by
    rw [Cmd.seamAborted]
    split <;> rfl

/-- With no collective a reset of a seam port aborts the commands that hold the imposition. -/
theorem exec_seamReset_spec {p : Nat} (hup : s.Up) (hmode : s.fld Reg.cdcRstmode 1 1 = 1) (hcolls : s.coll.colls = []) :
    ∃ t, exec (.seamReset p) s = .next t ∧ p ∈ t.pwr.seams ∧
      (∀ n c, s.cmdOf n = some c → (c.phase = .dispatched ∨ c.phase = .waiting) → functionOf c.opcode < 10 →
        c.latch.imposition ≠ 0 → t.Ended n (Outcome.aborted 0)) ∧ t.mem = s.mem ∧ t.regs = s.regs := by
  obtain ⟨u, hu⟩ : ∃ u : State, u = { s with pwr := { s.pwr with seams := (s.pwr.seams ++ [p]).eraseDups } } := ⟨_, rfl⟩
  have hnone : u.abortImposition.abortSteps = u.abortImposition := by
    have hempty : u.abortImposition.coll.colls = [] := by rw [hu]; exact hcolls
    rw [State.abortSteps, hempty, List.map_nil, List.eraseDups_nil, List.foldl_nil]
  refine ⟨u.abortImposition, ?_, ?_, fun n c hc hphase hgroup himp => ?_, by rw [hu]; rfl, by rw [hu]; rfl⟩
  · rw [exec_seamReset, execSeamReset, hup.when, if_neg (by omega), ← hnone, hu]
  · rw [hu]
    exact List.mem_eraseDups.2 (List.mem_append_right _ List.mem_cons_self)
  · have hfound : u.cmdOf n = some c := by rw [hu]; exact hc
    have hholds : c.holds = true := decide_eq_true hgroup
    refine ⟨_, by rw [State.cmdOf_abortImposition, hfound]; rfl, ?_⟩
    rw [Cmd.seamAborted, if_pos ⟨hphase, hholds, himp⟩]
    exact ⟨rfl, rfl, rfl, rfl⟩

/-! ### The obligation -/

theorem exec_resetRelease_of_good (hpowered : s.pwr.powered = true) (hheld : s.pwr.held = true) (hpin : s.pwr.pinLow = false)
    (hrange : s.pwr.inRange = true) (htemps : ∀ c ∈ s.pwr.temps, c < 100) : exec .resetRelease s =
      .next { s with pwr := { s.pwr with held := false }, boot := { s.boot with next := 1 } } := by
  have hcool : s.pwr.temps.all (· < 100) = true := List.all_eq_true.2 fun c hc => decide_eq_true (htemps c hc)
  rw [exec_resetRelease, execResetRelease, if_pos (by simp only [State.mayRelease, hpowered, hheld, hpin, hrange, hcool]; decide)]

/-- Power comes or goes, and only the flash keeps its contents. -/
theorem exec_power_spec {i : Instr} (h : s.pwr.powered = false ∧ i = .powerOn ∨ i = .powerLoss) : ∃ t, exec i s = .next t ∧
    t.regs = [] ∧ t.time = 0 ∧ t.boot = { BootSt.reset with flash := s.boot.flash } ∧ t.tens = [] ∧
    t.pwr.pinLow = s.pwr.pinLow ∧ t.pwr.powered = decide (i = .powerOn) ∧ t.pwr.held = true := by
  obtain ⟨hoff, rfl⟩ | rfl := h
  · rw [exec_powerOn, execPowerOn, if_neg (by rw [hoff]; decide)]
    exact ⟨_, rfl, rfl, rfl, rfl, rfl, rfl, by simp [PwrSt.reset], rfl⟩
  · rw [exec_powerLoss, execPowerLoss]
    exact ⟨_, rfl, rfl, rfl, rfl, rfl, rfl, by simp, rfl⟩

/-- Settles O55: a reset is held or in progress as one state (log 1); that the count of 100 checks begins again after a step of
the power level, and that no rate is pending when the rate wanted is in force, is log 86: the model's choice. -/
theorem clockPowerAndResetEventsTakePlace : Obligations.ClockPowerAndResetEventsTakePlace := by
  unfold Obligations.ClockPowerAndResetEventsTakePlace
  intro s hs
  refine ⟨?begins, ?recorded, exec_resetRelease_of_good, exec_resetNDeassert s, ?inRange, fun i h => exec_power_spec h,
    ?restart, fun g l hup hg hl => exec_junctionRead_spec hup hs hg hl, fun a b hp => exec_powerCheck_spec hp hs a b,
    fun x hup => exec_aclkCapWrite_spec hup hs x,
    fun hup htrained hpending hlast => exec_aclkRateChange_spec hup hs htrained hpending hlast,
    fun c hc hheld hcfg hretired hgated hworks hsweep => exec_gateEntry_of_idle hc hheld hcfg hretired hgated hworks hsweep,
    fun c hgated hwaking hcfg hunit => exec_retainEntry_spec hgated hwaking hcfg hunit, ?wake,
    fun c hc => exec_wakeComplete_spec hc, fun ch hup hch hmode hcap => exec_memoryControllerReset_spec hup hs hch hmode hcap,
    fun ch => ⟨_, exec_memoryControllerRetrained ch s, by simp, rfl⟩,
    fun p hup hmode hcolls => exec_seamReset_spec hup hmode hcolls, fun p => ⟨_, exec_seamPortRetrained p s, by simp, rfl, rfl⟩⟩
  case begins =>
    intro k i hup h
    obtain ⟨t, hexec, hbegun⟩ := exec_beginsReset hup h
    exact ⟨t, hexec, hbegun.held, hbegun.cause, hbegun.source, hbegun.count, hbegun.regs, hbegun.cmd, hbegun.tally, hbegun.imp,
      hbegun.tens, hbegun.flash, hbegun.time, hbegun.pending⟩
  case recorded =>
    intro k hp hheld hk hk8
    rw [exec_fullResetBegin, execFullResetBegin, if_pos ⟨hk, hk8⟩, State.beginReset, if_neg (by simp [hp]), if_pos hheld]
  case inRange =>
    intro hp
    rw [exec_inputInRange, execInputInRange, State.whenPowered, if_pos hp]
  case restart =>
    intro hup hnext
    rw [exec_watchdogRestart, execWatchdogRestart, if_pos (by simp [State.watchdogRuns, hup.1, hup.2, hnext])]
  case wake =>
    intro c hgated hwaking
    rw [exec_wake, execWake, if_pos ⟨hgated, hwaking⟩]

end Sys2Proof.Machine
end

section
/-! SUPPORT and PROOF. The security commands, the Colophon monitor, SMBus and JTAG (16 R395 to R397, 18 R432 to R435, 19 R446). -/

namespace Sys2Proof.Machine

variable {s t u : State} {n k a o off : Nat} {c : Cmd} {d : List Byte} {env : Env}

theorem exec_attest (n : Nat) (s : State) : exec (.attest n) s = execAttest n s := rfl

theorem exec_getCertificate (n : Nat) (s : State) : exec (.getCertificate n) s = execGetCertificate n s := rfl

theorem exec_debugUnlock (n : Nat) (env : Env) (s : State) : exec (.debugUnlock n env) s = execDebugUnlock n env s := rfl

theorem exec_stageImage (n : Nat) (env : Env) (fail : Bool) (s : State) :
    exec (.stageImage n env fail) s = execStageImage n env fail s := rfl

theorem exec_activateImage (n : Nat) (fail : Bool) (s : State) :
    exec (.activateImage n fail) s = execActivateImage n fail s := rfl

theorem exec_colophonId (s : State) : exec .colophonId s = execColophonId s := rfl

theorem exec_colophonStatus (s : State) : exec .colophonStatus s = execColophonStatus s := rfl

theorem exec_colophonOverflow (s : State) : exec .colophonOverflow s = execColophonOverflow s := rfl

theorem exec_colophonReset (s : State) : exec .colophonReset s = execColophonReset s := rfl

theorem exec_colophonNonce (s : State) : exec .colophonNonce s = execColophonNonce s := rfl

theorem exec_colophonUnlock (o : List Byte) (s : State) : exec (.colophonUnlock o) s = execColophonUnlock o s := rfl

theorem exec_colophonRd (off : Nat) (s : State) : exec (.colophonRd off) s = execColophonRd off s := rfl

theorem exec_colophonWr (off v : Nat) (s : State) : exec (.colophonWr off v) s = execColophonWr off v s := rfl

theorem exec_colophonMr (a n : Nat) (s : State) : exec (.colophonMr a n) s = execColophonMr a n s := rfl

theorem exec_colophonProof (s : State) : exec .colophonProof s = execColophonProof s := rfl

theorem exec_colophonPr (o n : Nat) (s : State) : exec (.colophonPr o n) s = execColophonPr o n s := rfl

theorem exec_colophonLoad (k o : Nat) (d : List Byte) (fail : Bool) (s : State) :
    exec (.colophonLoad k o d fail) s = execColophonLoad k o d fail s := rfl

theorem exec_colophonActivate (k : Nat) (fail : Bool) (s : State) :
    exec (.colophonActivate k fail) s = execColophonActivate k fail s := rfl

theorem exec_smbusBlockWrite (off : Nat) (v : Word64) (s : State) :
    exec (.smbusBlockWrite off v) s = execSmbusBlockWrite off v s := rfl

theorem exec_smbusProcessCall (off : Nat) (s : State) : exec (.smbusProcessCall off) s = execSmbusProcessCall off s := rfl

theorem exec_tapReset (s : State) : exec .tapReset s = execTapReset s := rfl

theorem exec_idcode (s : State) : exec .idcode s = execIdcode s := rfl

theorem exec_bypass (s : State) : exec .bypass s = execBypass s := rfl

theorem exec_extest (s : State) : exec .extest s = execExtest s := rfl

theorem exec_samplePreload (pins cells : Nat) (s : State) : exec (.samplePreload pins cells) s = execSamplePreload pins cells s := rfl

/-! ### The security commands (R395 to R397) -/

/-- The security command whose turn it is does its work. -/
theorem State.Ready.secure {op : Nat} {f : Cmd → State → State} (h : s.Ready n op c)
    (hearlier : (s.earlier c fun d => decide (functionOf d.opcode = 13) && d.phase.unfinished) = false) :
    s.secure n op f = f c s := by
  rw [State.secure, h.run, hearlier]
  rfl

theorem flashBytes_length : (s.flashBytes o n).length = n := Sparse.length_getMany

theorem sized_length : (sized n d).length = n := by
  rw [sized, List.length_take, List.length_append, List.length_replicate]
  omega

theorem signedReport_ne_nil : signedReport d ≠ [] := by
  refine List.ne_nil_of_length_pos ?_
  rw [signedReport, List.length_append, sized_length]
  omega

theorem exec_attest_of_writable (h : s.Ready n 0x0E01 c)
    (hearlier : (s.earlier c fun d => decide (functionOf d.opcode = 13) && d.phase.unfinished) = false)
    (hnode : nodeOf (c.par 64 8) = s.node) (hrange : s.rangeFault (c.par 64 8) (signedReport c.buf).length = none)
    (hgate : s.rangeGate c [] [(localOf (c.par 64 8), (signedReport c.buf).length)] = none)
    (hsave : s.saveBytes (localOf (c.par 64 8)) (signedReport c.buf) = (u, none)) :
    exec (.attest n) s = .next (u.finish n (Outcome.ok 3741)) := by
  rw [exec_attest, execAttest, h.secure hearlier, State.deliver_of_writable signedReport_ne_nil hnode hrange hgate hsave, h.id]

theorem exec_getCertificate_of_writable (h : s.Ready n 0x0E02 c)
    (hearlier : (s.earlier c fun d => decide (functionOf d.opcode = 13) && d.phase.unfinished) = false)
    (hcert : (c.par 32 1, d) ∈ [(0, s.deviceCert), (1, s.makerCert), (2, sized certLen s.boot.ownerCert)])
    (hnode : nodeOf (c.par 40 8) = s.node) (hrange : s.rangeFault (c.par 40 8) d.length = none)
    (hgate : s.rangeGate c [] [(localOf (c.par 40 8), d.length)] = none)
    (hsave : s.saveBytes (localOf (c.par 40 8)) d = (u, none)) :
    exec (.getCertificate n) s = .next (u.finish n (Outcome.ok certLen)) := by
  have hlen : d.length = certLen := by
    simp only [List.mem_cons, Prod.mk.injEq, List.not_mem_nil, or_false] at hcert
    obtain ⟨-, rfl⟩ | ⟨-, rfl⟩ | ⟨-, rfl⟩ := hcert
    exacts [flashBytes_length, flashBytes_length, sized_length]
  have hsome : d ≠ [] := List.ne_nil_of_length_pos (by rw [hlen]; decide)
  have hwrite := State.deliver_of_writable (r := certLen) (e := 0) hsome hnode hrange hgate hsave
  rw [exec_getCertificate, execGetCertificate, h.secure hearlier, ← h.id, ← hwrite]
  simp only [List.mem_cons, Prod.mk.injEq, List.not_mem_nil, or_false] at hcert
  obtain ⟨hk, rfl⟩ | ⟨hk, rfl⟩ | ⟨hk, rfl⟩ := hcert <;> simp only [hk]

/-- An object of this node that can be read is at hand. -/
theorem State.withSource_of_readable {flag : Nat} {f : List Byte → State → State} (hq : env.Quiet) (hnode : nodeOf a = s.node)
    (hrange : s.rangeFault a k = none) (hgate : s.rangeGate c [(localOf a, k)] [] = none)
    (hload : s.loadBytes (localOf a) k = (u, .ok d)) : s.withSource env c a k flag f = f d u := by
  rw [State.withSource, State.aliasFault_here hnode, if_neg (by decide), if_neg (not_not.2 hnode),
    State.fetch_of_loaded hq hrange hgate hload]

theorem exec_debugUnlock_of_readable (h : s.Ready n 0x0E03 c)
    (hearlier : (s.earlier c fun d => decide (functionOf d.opcode = 13) && d.phase.unfinished) = false) (hq : env.Quiet)
    (hlen : c.par 40 4 = tokenLen) (hnode : nodeOf (c.par 32 8) = s.node) (hrange : s.rangeFault (c.par 32 8) tokenLen = none)
    (hgate : s.rangeGate c [(localOf (c.par 32 8), tokenLen)] [] = none)
    (hload : s.loadBytes (localOf (c.par 32 8)) tokenLen = (u, .ok d)) :
    exec (.debugUnlock n env) s = .next (u.debugUnlock c d) := by
  rw [exec_debugUnlock, execDebugUnlock, h.secure hearlier, if_neg (not_not.2 hlen),
    State.withSource_of_readable hq hnode hrange hgate hload]

theorem exec_stageImage_of_readable (h : s.Ready n 0x0E04 c)
    (hearlier : (s.earlier c fun d => decide (functionOf d.opcode = 13) && d.phase.unfinished) = false) (hq : env.Quiet)
    (hkind : c.par 44 1 = 1 ∨ c.par 44 1 = 2) (hpos : 0 < c.par 40 4) (hfits : c.par 40 4 ≤ slotSize (c.par 44 1))
    (hnode : nodeOf (c.par 32 8) = s.node) (hrange : s.rangeFault (c.par 32 8) (c.par 40 4) = none)
    (hgate : s.rangeGate c [(localOf (c.par 32 8), c.par 40 4)] [] = none)
    (hload : s.loadBytes (localOf (c.par 32 8)) (c.par 40 4) = (u, .ok d)) :
    exec (.stageImage n env false) s = .next (u.stageImage c d false) := by
  rw [exec_stageImage, execStageImage, h.secure hearlier, if_neg (by omega), if_neg (by omega),
    State.withSource_of_readable hq hnode hrange hgate hload]

theorem exec_activateImage_of_ready (h : s.Ready n 0x0E05 c)
    (hearlier : (s.earlier c fun d => decide (functionOf d.opcode = 13) && d.phase.unfinished) = false)
    (hkind : c.par 32 1 = 1 ∨ c.par 32 1 = 2) :
    (∀ t svn slot, s.activate (c.par 32 1) = .ok (t, svn, slot) → exec (.activateImage n false) s =
        .next (t.finish n (Outcome.ok (svn % 2 ^ 32 + slot * 2 ^ 32)))) ∧
      ∀ e, s.activate (c.par 32 1) = .error e → exec (.activateImage n false) s = .next (s.finish n (securityOutcome e)) := by
  rw [exec_activateImage, execActivateImage, h.secure hearlier, if_neg (by omega), h.id]
  exact ⟨fun t svn slot hok => by simp only [hok, Bool.false_eq_true, if_false], fun e herr => by simp only [herr]⟩

/-- The security commands. -/
theorem exec_security_spec (s u : State) (n : Nat) (c : Cmd) (d : List Byte)
    (hearlier : (s.earlier c fun d => decide (functionOf d.opcode = 13) && d.phase.unfinished) = false) :
    (∀ a r i, s.Ready n 0x0E01 c ∧ a = c.par 64 8 ∧ d = signedReport c.buf ∧ r = 3741 ∧ i = Instr.attest n ∨
        s.Ready n 0x0E02 c ∧ a = c.par 40 8 ∧ r = certLen ∧ i = .getCertificate n ∧ (c.par 32 1, d) ∈
          [(0, s.deviceCert), (1, s.makerCert), (2, sized certLen s.boot.ownerCert)] →
      nodeOf a = s.node → s.rangeFault a d.length = none → s.rangeGate c [] [(localOf a, d.length)] = none →
      s.saveBytes (localOf a) d = (u, none) → exec i s = .next (u.finish n (Outcome.ok r))) ∧
    (∀ env a len, env.Quiet → s.Clean → a = c.par 32 8 → len = c.par 40 4 → nodeOf a = s.node →
      s.rangeFault a len = none → s.rangeGate c [(localOf a, len)] [] = none → s.loadBytes (localOf a) len = (u, .ok d) →
      (s.Ready n 0x0E03 c → len = tokenLen →
        (∀ t, u.unlock d = .ok t → exec (.debugUnlock n env) s = .next (t.finish n (Outcome.ok (t.fld Reg.secState 1 0)))) ∧
        ∀ o, u.unlock d = .error o → exec (.debugUnlock n env) s = .next (u.finish n o)) ∧
      (∀ k off, s.Ready n 0x0E04 c → k = c.par 44 1 → k = 1 ∨ k = 2 → 0 < len → len ≤ slotSize k → stageFault k d = none →
        off = slotOffset k (u.otherSlot k) → exec (.stageImage n env false) s =
          .next (((u.flashErase off (slotSize k)).flashPut off d).finish n (Outcome.ok d.length)))) ∧
    (s.Ready n 0x0E05 c → c.par 32 1 = 1 ∨ c.par 32 1 = 2 →
      (∀ t svn slot, s.activate (c.par 32 1) = .ok (t, svn, slot) → exec (.activateImage n false) s =
        .next (t.finish n (Outcome.ok (svn % 2 ^ 32 + slot * 2 ^ 32)))) ∧
      ∀ e, s.activate (c.par 32 1) = .error e → exec (.activateImage n false) s = .next (s.finish n (securityOutcome e))) := by
  refine ⟨?writes, ?reads, fun h hkind => exec_activateImage_of_ready h hearlier hkind⟩
  case writes =>
    rintro a r i (⟨h, rfl, rfl, rfl, rfl⟩ | ⟨h, rfl, rfl, rfl, hcert⟩) hnode hrange hgate hsave
    · exact exec_attest_of_writable h hearlier hnode hrange hgate hsave
    · exact exec_getCertificate_of_writable h hearlier hcert hnode hrange hgate hsave
  case reads =>
    rintro env a len hq - rfl rfl hnode hrange hgate hload
    refine ⟨fun h hlen => ?_, fun k off h hk hkind hpos hfits hstage hoff => ?_⟩
    · rw [hlen] at hrange hgate hload
      rw [exec_debugUnlock_of_readable h hearlier hq hlen hnode hrange hgate hload, State.debugUnlock, h.id]
      exact ⟨fun t hok => by simp only [hok], fun o herr => by simp only [herr]⟩
    · subst hk
      rw [exec_stageImage_of_readable h hearlier hq hkind hpos hfits hnode hrange hgate hload, State.stageImage, h.id, hoff]
      simp only [hstage, Bool.false_eq_true, if_false]

/-! ### The Colophon monitor answers (R432, R433) -/

theorem State.up_of_monitor (h : s.monitor ≠ .silent) : s.Up := by
  unfold State.monitor at h
  split at h
  · exact absurd rfl h
  next hup => simpa [State.Up] using hup

theorem State.monitorCmd_of_normal {always : Bool} {f : State → State} (h : s.monitor = .normal)
    (hopen : (s.locked && ! always) = false) : s.monitorCmd always f = f s := by
  rw [State.monitorCmd, h, hopen]
  rfl

theorem State.monitorAny_of_heard {f : State → State} (h : s.monitor ≠ .silent) : s.monitorAny f = f s := by
  rw [State.monitorAny, if_neg h]

theorem State.monitorRecovery_of_recovery {f : State → State} (h : s.monitor = .recovery) : s.monitorRecovery f = f s := by
  rw [State.monitorRecovery, h]

theorem State.reply_uart {r : UartReply} : (s.reply r).obs.uart = s.obs.uart ++ [r] := rfl

theorem State.Up.beginReset_uart (hup : s.Up) : (s.beginReset k).obs.uart = [] := by
  rw [State.beginReset, if_neg (by simp [hup.1]), if_neg (by simp [hup.2])]
  simp only [State.setReg_fields]
  rfl

/-- What the monitor answers in either of its modes. -/
theorem exec_colophon_heard (h : s.monitor ≠ .silent) :
    exec .colophonId s = .next (s.reply (.ok [0x9400, 0xB0, if s.monitor = .recovery then 0 else s.reg Reg.deviceId,
        s.regView Reg.bootStatus])) ∧
      exec .colophonStatus s = .next (s.reply (.ok [s.regView Reg.bootStatus, s.regView Reg.cmdStatus,
        s.regView Reg.alarmState, s.regView Reg.resetCause])) ∧
      exec .colophonOverflow s = .next (s.reply (.err 5)) ∧
      ∃ t, exec .colophonReset s = .next t ∧ t.pwr.held = true ∧ t.fld Reg.resetCause 31 28 = 5 ∧ t.obs.uart = [.ok []] := by
  have hup := State.up_of_monitor h
  have hbegun : ResetBegun s 5 (s.beginReset 5) := hup.beginReset (by decide) (by decide)
  have huart : (s.beginReset 5).obs.uart = [] := hup.beginReset_uart
  rw [exec_colophonId, execColophonId, exec_colophonStatus, execColophonStatus, exec_colophonOverflow, execColophonOverflow,
    exec_colophonReset, execColophonReset, State.monitorAny_of_heard h, State.monitorAny_of_heard h, State.monitorAny_of_heard h,
    State.monitorAny_of_heard h]
  generalize s.beginReset 5 = t at hbegun huart
  refine ⟨rfl, rfl, rfl, t.reply (.ok []), rfl, hbegun.held, ?_, by rw [State.reply_uart, huart, List.nil_append]⟩
  exact (State.fld_congr (State.reg_congr rfl)).trans hbegun.cause

/-- A fresh nonce is drawn. -/
theorem State.drawNonce_spec (hs : s.Sound) : s.drawNonce.reg Reg.unlockNonce = Config.freeNat s.freeCtr % 2 ^ 64 ∧
    (∀ o, o ≠ Reg.unlockNonce → s.drawNonce.reg o = s.reg o) ∧ s.drawNonce.mem = s.mem := by
  have hfree : s.free.2.Sound := (State.free_kept hs.kept).sound
  rw [State.drawNonce]
  refine ⟨?_, fun o ho => ?_, by simp only [State.setReg_fields, State.free_fields]⟩
  · rw [State.reg_setReg_same hfree, State.free]
  · rw [State.reg_setReg_other ho, State.reg_congr (s := s) (by simp only [State.free_fields])]

/-- A token that holds unlocks its scopes, and the nonce is drawn anew (R396). -/
theorem exec_colophonUnlock_of_valid (hs : s.Sound) (h : s.monitor = .normal) {o : List Byte} (hlen : o.length = tokenLen)
    (hvalid : s.tokenFault o = none) : ∃ t, exec (.colophonUnlock o) s = .next t ∧
      t.reg Reg.secState = s.reg Reg.secState ||| fieldAt (bodyOf o) 16 1 % 4 ∧
      t.reg Reg.unlockNonce = Config.freeNat s.freeCtr % 2 ^ 64 ∧
      (∀ r, r ≠ Reg.secState → r ≠ Reg.unlockNonce → t.reg r = s.reg r) ∧ t.mem = s.mem := by
  have hscopes : s.reg Reg.secState ||| fieldAt (bodyOf o) 16 1 % 4 < 2 ^ 64 :=
    Nat.or_lt_two_pow State.reg_lt ((Nat.mod_lt _ (by decide)).trans (by decide))
  obtain ⟨hnonce, hother, hmem⟩ := State.drawNonce_spec
    (hs.setReg (off := Reg.secState) (v := s.reg Reg.secState ||| fieldAt (bodyOf o) 16 1 % 4))
  simp only [State.setReg_fields] at hnonce hmem
  have hunlock : s.unlock o = .ok (s.setReg Reg.secState (s.reg Reg.secState ||| fieldAt (bodyOf o) 16 1 % 4)).drawNonce := by
    rw [State.unlock, hvalid]
  rw [exec_colophonUnlock, execColophonUnlock, State.monitorCmd_of_normal h (by simp), if_neg (not_not.2 hlen)]
  simp only [hunlock]
  have hsecState := (hother Reg.secState (by decide)).trans (State.reg_setReg_same hs)
  rw [Nat.mod_eq_of_lt hscopes] at hsecState
  have hrest : ∀ r, r ≠ Reg.secState → r ≠ Reg.unlockNonce → _ = s.reg r := fun r hr hn =>
    (hother r hn).trans (State.reg_setReg_other hr)
  generalize (s.setReg Reg.secState (s.reg Reg.secState ||| fieldAt (bodyOf o) 16 1 % 4)).drawNonce = t at *
  have hreg (r : Nat) : (t.reply (.ok [t.regView Reg.secState])).reg r = t.reg r := State.reg_congr rfl
  exact ⟨_, rfl, (hreg _).trans hsecState, (hreg _).trans hnonce, fun r hr hn => (hreg r).trans (hrest r hr hn), hmem⟩

/-- A token that does not hold unlocks nothing. -/
theorem exec_colophonUnlock_of_fault (h : s.monitor = .normal) {o : List Byte} (hlen : o.length = tokenLen)
    (hfault : s.tokenFault o ≠ none) : exec (.colophonUnlock o) s = .next (s.reply (.err 4)) := by
  obtain ⟨e, he⟩ := Option.ne_none_iff_exists'.1 hfault
  have hunlock : s.unlock o = .error e := by rw [State.unlock, he]
  rw [exec_colophonUnlock, execColophonUnlock, State.monitorCmd_of_normal h (by simp), if_neg (not_not.2 hlen)]
  simp only [hunlock]

theorem exec_colophonRd_of_locked (h : s.monitor = .normal) (hlocked : s.locked = true) :
    exec (.colophonRd off) s = .next (s.reply (.err 2)) := by
  rw [exec_colophonRd, execColophonRd, State.monitorCmd, h, hlocked]
  rfl

/-- The commands of an unlocked monitor. -/
theorem exec_colophon_unlocked (h : s.monitor = .normal) (hopen : s.locked = false) :
    (∀ off n, consoleSize off = some n →
        exec (.colophonRd off) s = .next ((s.readReg off n).2.reply (.ok [(s.readReg off n).1])) ∧
        ∀ v < 2 ^ (8 * n), exec (.colophonWr off v) s = .next ((s.regWrite off n v).reply (.ok []))) ∧
      (∀ a n u d, 0 < n → n ≤ 256 → rangeIn .hbm a n = true ∨ rangeIn .window a n = true →
        s.loadBytes a n = (u, .ok d) → exec (.colophonMr a n) s = .next (u.reply (.data d))) ∧
      exec .colophonProof s = .next { s with obs := { s.obs with due := s.obs.due ++ [4] } } ∧
      ∀ o n p, 0 < n → n ≤ 256 → o + n ≤ 0x1000000 → s.obs.image = some p →
        exec (.colophonPr o n) s = .next (s.reply (.data (imageSlice p o n))) := by
  have hcmd {f : State → State} : s.monitorCmd false f = f s := State.monitorCmd_of_normal h (by rw [hopen]; rfl)
  refine ⟨fun off n hsize => ⟨?_, fun v hv => ?_⟩, fun a n u d hpos hmax hrange hload => ?_, ?_,
    fun o n p hpos hmax hend himage => ?_⟩
  · rw [exec_colophonRd, execColophonRd, hcmd]
    simp only [hsize]
  · rw [exec_colophonWr, execColophonWr, hcmd]
    simp only [hsize, Nat.not_le.2 hv, if_false]
  · have hregion : (rangeIn .hbm a n || rangeIn .window a n) = true := by simpa using hrange
    rw [exec_colophonMr, execColophonMr, hcmd, if_neg (by simp only [hregion, Bool.true_eq_false, or_false]; omega)]
    simp only [hload]
  · rw [exec_colophonProof, execColophonProof, hcmd]
  · rw [exec_colophonPr, execColophonPr, hcmd, if_neg (by omega)]
    simp only [himage]

/-! ### The recovery mode (R434) -/

/-- A slot lies in the flash above the regions that are locked. -/
theorem slotOffset_bounds (hk : k = 1 ∨ k = 2) (hn : n ≤ 1) :
    0x10000 ≤ slotOffset k n ∧ slotOffset k n + slotSize k ≤ 0x2040000 := by
  obtain rfl | rfl := hk
  · simp only [slotOffset, slotSize, if_true]
    omega
  · simp only [slotOffset, slotSize, OfNat.ofNat_ne_one, if_false]
    omega

/-- Bytes put in the flash above the locked regions. -/
theorem State.flashPut_of_slot (hlow : 0x10000 ≤ o) (hend : o + d.length ≤ 0x2040000) :
    s.flashPut o d = { s with boot := { s.boot with flash := Sparse.setMany flashDefault s.boot.flash o d } } := by
  have hlocked : s.flashLocked o d.length = false := by simp [State.flashLocked, Nat.not_lt.2 hlow]
  have hfits : decide (0x2040000 < o + d.length) = false := decide_eq_false (Nat.not_lt.2 hend)
  rw [State.flashPut, hlocked, hfits]
  rfl

/-- Bytes put in a slot: they are what the flash then holds there, and it holds the rest as before. -/
theorem State.flashPut_spec (hflash : Sparse.wf flashDefault s.boot.flash = true) (hlow : 0x10000 ≤ o)
    (hend : o + d.length ≤ 0x2040000) :
    (∀ j < d.length, Sparse.get flashDefault (s.flashPut o d).boot.flash (o + j) = d.getD j 0) ∧
      (∀ x, x < o ∨ o + d.length ≤ x →
        Sparse.get flashDefault (s.flashPut o d).boot.flash x = Sparse.get flashDefault s.boot.flash x) ∧
      Sparse.wf flashDefault (s.flashPut o d).boot.flash = true ∧ (s.flashPut o d).regs = s.regs ∧
      (s.flashPut o d).obs = s.obs := by
  rw [State.flashPut_of_slot hlow hend]
  refine ⟨fun j hj => ?_, fun x hx => ?_, Sparse.setMany_wf hflash, rfl, rfl⟩
  · rw [Sparse.get_setMany hflash, if_pos (by omega), Nat.add_sub_cancel_left, List.getD_eq_getElem _ _ hj,
      List.getD_eq_getElem _ _ hj]
  · rw [Sparse.get_setMany hflash, if_neg (by omega)]

/-- The slot erased when the first bytes of its object come. -/
def State.slotBegun (s : State) (base size o : Nat) : State := if o = 0 then s.flashErase base size else s

theorem State.slotBegun_spec {base size : Nat} (hflash : Sparse.wf flashDefault s.boot.flash = true) (hlow : 0x10000 ≤ base)
    (hend : base + size ≤ 0x2040000) :
    (∀ x, x < base ∨ base + size ≤ x →
        Sparse.get flashDefault (s.slotBegun base size o).boot.flash x = Sparse.get flashDefault s.boot.flash x) ∧
      Sparse.wf flashDefault (s.slotBegun base size o).boot.flash = true ∧ (s.slotBegun base size o).regs = s.regs ∧
      (s.slotBegun base size o).obs = s.obs := by
  unfold State.slotBegun
  split
  · obtain ⟨-, hother, hwf, hregs, hobs⟩ := State.flashPut_spec (d := List.replicate size 0xFF) hflash hlow
      (by rwa [List.length_replicate])
    rw [List.length_replicate] at hother
    exact ⟨hother, hwf, hregs, hobs⟩
  · exact ⟨fun _ _ => rfl, hflash, rfl, rfl⟩

/-- Bytes of an object loaded in the recovery mode. -/
theorem exec_colophonLoad_spec {base : Nat} (hs : s.Sound) (h : s.monitor = .recovery) (hk : k = 1 ∨ k = 2)
    (hd : d.length ≤ 2048) (hfits : o + d.length ≤ slotSize k) (hbase : base = slotOffset k (s.otherSlot k)) :
    ∃ t, exec (.colophonLoad k o d false) s = .next t ∧ t.obs.uart = s.obs.uart ++ [.ok [d.length]] ∧
      (∀ j < d.length, Sparse.get flashDefault t.boot.flash (base + o + j) = d.getD j 0) ∧
      (∀ x, x < base ∨ base + slotSize k ≤ x →
        Sparse.get flashDefault t.boot.flash x = Sparse.get flashDefault s.boot.flash x) ∧ t.regs = s.regs := by
  obtain ⟨hlow, hend⟩ := slotOffset_bounds hk (n := s.otherSlot k) (Nat.sub_le 1 _)
  rw [← hbase] at hlow hend
  have hexec : exec (.colophonLoad k o d false) s =
      .next (((s.slotBegun base (slotSize k) o).flashPut (base + o) d).reply (.ok [d.length])) := by
    rw [exec_colophonLoad, execColophonLoad, State.monitorRecovery_of_recovery h, if_neg (by omega), ← hbase]
    rfl
  obtain ⟨herased, hwf, hregs, hobs⟩ := State.slotBegun_spec (o := o) hs.flash hlow hend
  generalize s.slotBegun base (slotSize k) o = u at hexec herased hwf hregs hobs
  obtain ⟨hput, hother, -, hregs', hobs'⟩ := State.flashPut_spec (o := base + o) (d := d) hwf (by omega) (by omega)
  generalize u.flashPut (base + o) d = t at hexec hput hother hregs' hobs'
  refine ⟨_, hexec, ?_, hput, fun x hx => ?_, hregs'.trans hregs⟩
  · rw [State.reply_uart, hobs', hobs]
  · exact (hother x (by omega)).trans (herased x hx)

theorem exec_colophonActivate_of_valid {slot svn : Nat} (h : s.monitor = .recovery) (hk : k = 1 ∨ k = 2)
    (hok : s.activate k = .ok (t, svn, slot)) : exec (.colophonActivate k false) s = .next (t.reply (.ok [svn, slot])) := by
  rw [exec_colophonActivate, execColophonActivate, State.monitorRecovery_of_recovery h, if_neg (by omega)]
  simp only [hok, Bool.false_eq_true, if_false]

/-! ### SMBus and JTAG (18 R435, 19 R446) -/

theorem exec_smbus_spec (hp : s.pwr.powered = true) (hsize : consoleSize off = some n) :
    (∀ v : Word64, exec (.smbusBlockWrite off v) s = .next (s.regWrite off n (v.toNat % 2 ^ (8 * n)))) ∧
      (s.pwr.held = false ∨ isUnderstory off = true → exec (.smbusProcessCall off) s =
        .next ((s.readReg off n).2.smbReply 0 (s.readReg off n).1)) := by
  refine ⟨fun v => ?_, fun h => ?_⟩
  · rw [exec_smbusBlockWrite, execSmbusBlockWrite, State.whenPowered, if_pos hp]
    simp only [hsize]
  · have havailable : (s.pwr.held && ! isUnderstory off) = false := by
      obtain h | h := h <;> simp [h]
    rw [exec_smbusProcessCall, execSmbusProcessCall, State.whenPowered, if_pos hp]
    simp only [havailable, hsize, Bool.false_eq_true, if_false]

theorem State.tapInstr_of_powered (hp : s.pwr.powered = true) (ir : Nat) :
    s.tapInstr ir = { s with pwr := { s.pwr with tap := { s.pwr.tap with ir := ir } } } := by
  rw [State.tapInstr, State.whenPowered, if_pos hp]

/-- An instruction of the TAP selects its data register. -/
theorem exec_tap_spec {i : Instr} {v : Nat} (hp : s.pwr.powered = true)
    (h : (i, k, v) ∈ [(Instr.tapReset, 0x02, 0x19400B47), (.idcode, 0x02, 0x19400B47), (.bypass, 0xFF, 0),
      (.extest, 0x00, s.pwr.tap.sampled)]) : ∃ t, exec i s = .next t ∧ t.tapCapture = v ∧
      t = { s with pwr := { s.pwr with tap := { s.pwr.tap with ir := k } } } := by
  simp only [List.mem_cons, Prod.mk.injEq, List.not_mem_nil, or_false] at h
  obtain ⟨rfl, rfl, rfl⟩ | ⟨rfl, rfl, rfl⟩ | ⟨rfl, rfl, rfl⟩ | ⟨rfl, rfl, rfl⟩ := h
  · exact ⟨_, exec_tapReset s, by rw [State.tapInstr_of_powered hp]; rfl, State.tapInstr_of_powered hp _⟩
  · exact ⟨_, exec_idcode s, by rw [State.tapInstr_of_powered hp]; rfl, State.tapInstr_of_powered hp _⟩
  · exact ⟨_, exec_bypass s, by rw [State.tapInstr_of_powered hp]; rfl, State.tapInstr_of_powered hp _⟩
  · exact ⟨_, exec_extest s, by rw [State.tapInstr_of_powered hp]; rfl, State.tapInstr_of_powered hp _⟩

/-- Settles O60: an offset that is no multiple of 8 is accessed with 4 bytes, and COLOPHON_RESET records its OK with the reset
(log 117: the model's choice). -/
theorem securityAndConsoleAnswer : Obligations.SecurityAndConsoleAnswer := by
  unfold Obligations.SecurityAndConsoleAnswer
  refine ⟨exec_security_spec, fun s hs => ⟨exec_colophon_heard, fun h => ⟨?_, ?_, ?_, ?_⟩, exec_colophon_unlocked,
    fun h k hk => ⟨?_, fun t svn slot hok => exec_colophonActivate_of_valid h hk hok⟩⟩, fun s hp => ⟨fun off n hsize =>
    exec_smbus_spec hp hsize, fun i k v h => exec_tap_spec hp h, fun pins cells => ?_⟩⟩
  · rw [exec_colophonNonce, execColophonNonce, State.monitorCmd_of_normal h (by simp)]
  · exact fun o hlen hvalid => exec_colophonUnlock_of_valid hs h hlen hvalid
  · exact fun o hlen hfault => exec_colophonUnlock_of_fault h hlen hfault
  · exact fun hlocked off => exec_colophonRd_of_locked h hlocked
  · exact fun o d base hd hfits hbase => exec_colophonLoad_spec hs h hk hd hfits hbase
  · rw [exec_samplePreload, execSamplePreload, State.whenPowered, if_pos hp]
    exact ⟨_, rfl, rfl, rfl, rfl, rfl⟩

end Sys2Proof.Machine
end

section
/-! SUPPORT. Requests and completions of the companion over the GCL (15 R372 to R379). -/

namespace Sys2Proof.Machine

variable {s t u : State} {tag a n l slot : Nat} {own : Bool} {d b : List Byte} {g : DirState} {w : LineWork} {x : Snoop}
  {f : State → State}

theorem exec_rdNc (tag a n : Nat) (s : State) : exec (.rdNc tag a n) s = execRdNc tag a n s := rfl

theorem exec_wrNc (tag a : Nat) (d : List Byte) (s : State) : exec (.wrNc tag a d) s = execWrNc tag a d s := rfl

theorem exec_wrPosted (a : Nat) (d : List Byte) (s : State) : exec (.wrPosted a d) s = execWrPosted a d s := rfl

theorem exec_rdShared (tag a : Nat) (s : State) : exec (.rdShared tag a) s = execRdShared tag a s := rfl

theorem exec_rdOwn (tag a : Nat) (s : State) : exec (.rdOwn tag a) s = execRdOwn tag a s := rfl

theorem exec_wrBack (tag a : Nat) (d : List Byte) (s : State) : exec (.wrBack tag a d) s = execWrBack tag a d s := rfl

theorem exec_evictClean (tag a : Nat) (s : State) : exec (.evictClean tag a) s = execEvictClean tag a s := rfl

theorem exec_snpAck (tag : Nat) (s : State) : exec (.snpAck tag) s = execSnpAck tag s := rfl

theorem exec_snpData (tag : Nat) (d : List Byte) (s : State) : exec (.snpData tag d) s = execSnpData tag d s := rfl

theorem exec_cmp (tag : Nat) (s : State) : exec (.cmp tag) s = execCmp tag s := rfl

theorem exec_cmpData (tag : Nat) (d : List Byte) (s : State) : exec (.cmpData tag d) s = execCmpData tag d s := rfl

theorem exec_err (tag code : Nat) (s : State) : exec (.err tag code) s = execErr tag code s := rfl

/-! ### Taking a turn (R376) -/

theorem State.Up.onGcl (hup : s.Up) (hgcl : s.gclUp = true) : s.onGcl f = f s := by
  rw [State.onGcl, hup.when, if_pos hgcl]

theorem State.takeTurn_of_busy (hconn : w.conn = some (0, gclClass)) (hbusy : s.connBusy 0 gclClass = true) :
    s.takeTurn w = s.stall w := by
  rw [State.takeTurn, if_pos (by simpa only [hconn, Option.any_some] using hbusy)]

theorem State.takeTurn_of_free (hconn : w.conn = some (0, gclClass)) (hfree : s.connBusy 0 gclClass = false) :
    s.takeTurn w = s.lineRun w := by
  rw [State.takeTurn, if_neg (by simp only [hconn, Option.any_some, hfree, Bool.false_eq_true, not_false_eq_true])]

/-- RD_SHARED and RD_OWN are one request, which says whether the line is to be owned. -/
theorem exec_lineRequest (hup : s.Up) (hgcl : s.gclUp = true) :
    exec (if own then .rdOwn tag a else .rdShared tag a) s = .next (s.takeTurn (.request own tag a)) := by
  cases own
  · rw [if_neg Bool.false_ne_true, exec_rdShared, execRdShared, hup.onGcl hgcl]
  · rw [if_pos rfl, exec_rdOwn, execRdOwn, hup.onGcl hgcl]

/-! ### Reads and writes (R372, R376) -/

theorem State.gclRead_here (hsize : sizeOk a n = true) (hnode : nodeOf a = s.node) (hpage : s.stalledRange (localOf a) n = false)
    (hsnoop : s.snoopOf (localOf a / 64) = none) (hload : s.serveLoad (localOf a) n = (u, .ok d)) :
    s.gclRead tag a n = u.gclSend (.cmpData tag 0 a d) := by
  rw [State.gclRead, if_neg (by simp [hsize]), if_pos hnode, if_neg (by simp [hpage]), if_neg (by simp [hsnoop]), hload]

theorem State.gclRead_away (hsize : sizeOk a n = true) (hnode : nodeOf a ≠ s.node) (halias : s.aliasQp (nodeOf a) = none) :
    s.gclRead tag a n = s.ifpRead (nodeOf a) a n (.gclRead tag) := by
  rw [State.gclRead, if_neg (by simp [hsize]), if_neg hnode, if_neg (by simp [halias])]

/-- A write of this node that nothing of its line or page stops: WR_NC is answered, unless its write has begun a reset, and
WR_POSTED is not. -/
theorem State.gclStore_here {o : Option Nat} (hsize : sizeOk a d.length = true) (hnode : nodeOf a = s.node)
    (hpage : s.stalledRange (localOf a) d.length = false) (hsnoop : s.snoopOf (localOf a / 64) = none)
    (hstore : s.serveStore (localOf a) d = (u, none)) :
    s.gclStore o a d = match o with
      | some k => u.unlessHeld fun v => v.gclSend (.cmp k)
      | none => u := by
  unfold State.gclStore
  dsimp only
  rw [if_neg (by simp [hsize]), if_pos hnode, if_neg (by simp [hpage]), if_neg (by simp [hsnoop]), hstore]
  cases o <;> rfl

/-! ### Lines (R373 to R375) -/

theorem State.dirOf_setDir_same : (s.setDir l g).dirOf l = g := by
  have hrest : (s.gcl.dir.filter fun e => e.1 ≠ l).find? (fun e => decide (e.1 = l)) = none := by
    simp [List.find?_eq_none]
  simp only [State.setDir, State.dirOf]
  split
  · next hinv => rw [hrest, hinv]; rfl
  · rw [List.find?_append, hrest]
    simp

/-- Sending a message leaves the directory, the snoops, the replays counted and the causes remembered. -/
theorem State.gclSend_leaves (m : GclMsg) :
    (s.gclSend m).gcl.dir = s.gcl.dir ∧ (s.gclSend m).gcl.snoops = s.gcl.snoops ∧
      (s.gclSend m).gcl.replayCount = s.gcl.replayCount ∧ (s.gclSend m).gcl.irqMore = s.gcl.irqMore := by
  unfold State.gclSend
  split <;> exact ⟨rfl, rfl, rfl, rfl⟩

theorem State.dirOf_gclSend (m : GclMsg) : (s.gclSend m).dirOf l = s.dirOf l := by
  rw [State.dirOf, (State.gclSend_leaves m).1, State.dirOf]

/-- A read clears RC fields, wakes a copse, or counts what it met in memory: the node's number is none of these. -/
theorem State.clearRC_node (y : Nat × Nat × Nat) : (s.clearRC y).node = s.node := by
  unfold State.clearRC
  split
  · rfl
  · refine State.foldl_leaves State.node (fun v fd => ?_) _
    split
    · simp only [State.setFld_fields]
    · rfl

theorem State.clearingHit_node : (s.clearingHit a n).node = s.node :=
  State.foldl_leaves State.node (fun v c => by simp only [State.addSat_fields, State.setFld_fields]) _

theorem State.loadBytes_node (hload : s.loadBytes a n = (u, .ok d)) : u.node = s.node := by
  unfold State.loadBytes at hload
  split at hload
  case h_1 =>
    obtain ⟨rfl, -⟩ := Prod.mk.inj hload
    rw [State.clearingHit_node]
    split
    · simp only [State.unbackedHit_fields]
    · rfl
  case h_2 => exact absurd (Prod.mk.inj hload).2 (by simp)

theorem State.windowWake_node : (s.windowWake a).node = s.node := by
  unfold State.windowWake
  split <;> rfl

theorem State.serveLoad_node (hload : s.serveLoad a n = (u, .ok d)) : u.node = s.node := by
  unfold State.serveLoad at hload
  split at hload
  · rw [← (Prod.mk.inj hload).1]
  split at hload
  · exact absurd (Prod.mk.inj hload).2 (by simp)
  · split at hload
    · rw [← (Prod.mk.inj hload).1]
      exact State.foldl_leaves State.node (fun v y => State.clearRC_node y) _
    · exact absurd (Prod.mk.inj hload).2 (by simp)
  · split at hload
    · split at hload
      · rw [← (Prod.mk.inj hload).1]
      · exact absurd (Prod.mk.inj hload).2 (by simp)
    · exact absurd (Prod.mk.inj hload).2 (by simp)
  · split at hload
    · exact absurd (Prod.mk.inj hload).2 (by simp)
    · exact (State.loadBytes_node hload).trans State.windowWake_node

/-- A line that nothing stops is granted: owned when asked for or when no one has it. -/
theorem State.lineRequest_granted (hl : l = localOf a / 64) (hcoh : s.coherent a = true)
    (hdir : s.inDirectory (localOf a) = false) (hsnoop : s.snoopOf l = none) (hexcl : s.dirOf l ≠ .excl)
    (hpage : s.stalledRange (64 * l) 64 = false) (hload : s.serveLoad (64 * l) 64 = (u, .ok b))
    (hg : g = if own = true ∨ s.dirOf l = .inv then DirState.excl else .shared) :
    s.lineRequest own tag a =
      (u.setDir l g).gclSend (.cmpData tag (if g = .excl then 2 else 1) (s.node * 2 ^ 48 + 64 * l) b) := by
  have hgrant : (if (own || decide (s.dirOf l = .inv)) = true then DirState.excl else .shared) = g := by
    simp only [hg, Bool.or_eq_true, decide_eq_true_eq]
  rw [State.lineRequest, if_neg (by simp [hcoh]), if_neg (by simp [hdir]), ← hl, if_neg (by simp [hsnoop]), State.lineGrant,
    if_neg (by simp [hpage]), if_neg hexcl, hload]
  simp only [hgrant, State.serveLoad_node hload]

/-- What gives a line up: the directory lists it no more, and the request is answered. -/
theorem State.line_given_up : ((s.setDir l .inv).gclSend (.cmp tag)).dirOf l = .inv := by
  rw [State.dirOf_gclSend, State.dirOf_setDir_same]

theorem State.gclWriteBack_owned (hl : l = localOf a / 64) (hcoh : s.coherent a = true) (hexcl : s.dirOf l = .excl)
    (hstore : s.lineWrite l d = (u, none)) : s.gclWriteBack tag a d = (u.setDir l .inv).gclSend (.cmp tag) := by
  rw [State.gclWriteBack, if_neg (by simp [hcoh]), ← hl, if_neg (by simp [hexcl]), hstore]

theorem State.gclEvict_held (hl : l = localOf a / 64) (hcoh : s.coherent a = true) (hheld : s.dirOf l ≠ .inv) :
    s.gclEvict tag a = (s.setDir l .inv).gclSend (.cmp tag) := by
  rw [State.gclEvict, if_neg (by simp [hcoh]), ← hl, if_neg hheld]

/-! ### Snoops (R374, R375) -/

theorem State.gclTagFreed_of_none (h : s.gcl.waiting = []) : s.gclTagFreed = s := by rw [State.gclTagFreed, h]

theorem State.restart_of_none (h : s.mem.stalled = []) : s.restart = s := by
  have hsame : { s with mem := { s.mem with stalled := [] } } = s := by rw [← h]
  rw [State.restart, h, List.foldl_nil, hsame]

/-- A snoop ended: it and its request are gone. -/
def State.snoopLeft (s : State) (x : Snoop) : State :=
  { s with gcl := { s.gcl with
    snoops := s.gcl.snoops.filter fun y => y.line ≠ x.line
    reqs := s.gcl.reqs.filter fun r => decide (r.2 ≠ GclPurpose.snoop x.line)
    waiting := s.gcl.waiting.filter fun r => decide (r.1 ≠ GclPurpose.snoop x.line) } }

/-- A snoop that nothing waited for ends by setting its line. -/
theorem State.snoopDone_idle (hwork : x.work = []) (hwait : s.gcl.waiting = []) (hstall : s.mem.stalled = []) :
    s.snoopDone x = (s.snoopLeft x).setDir x.line (if x.inval || decide (s.dirOf x.line = .inv) then .inv else .shared) := by
  have hfreed : (s.snoopLeft x).gclTagFreed = s.snoopLeft x := State.gclTagFreed_of_none (by simp [State.snoopLeft, hwait])
  have hrestart (v : DirState) : ((s.snoopLeft x).setDir x.line v).restart = (s.snoopLeft x).setDir x.line v :=
    State.restart_of_none hstall
  have hdone : s.snoopDone x = (x.work.foldl State.lineRun ((s.snoopLeft x).gclTagFreed.setDir x.line
      (if x.inval || decide ((s.snoopLeft x).gclTagFreed.dirOf x.line = .inv) then .inv else .shared))).restart := rfl
  rw [hdone, hwork, List.foldl_nil, hfreed, hrestart]
  rfl

theorem State.snoopDone_idle_spec (hwork : x.work = []) (hwait : s.gcl.waiting = []) (hstall : s.mem.stalled = []) :
    (s.snoopDone x).snoopOf x.line = none ∧ (s.snoopDone x).mem = s.mem ∧
      (s.snoopDone x).dirOf x.line = if x.inval = true ∨ s.dirOf x.line = .inv then DirState.inv else .shared := by
  rw [State.snoopDone_idle hwork hwait hstall]
  refine ⟨?_, rfl, ?_⟩
  · simp [State.snoopOf, State.setDir, State.snoopLeft, List.find?_eq_none]
  · simp only [State.dirOf_setDir_same, Bool.or_eq_true, decide_eq_true_eq]

/-! ### The clauses of O59 on requests and completions -/

section
variable (hup : s.Up) (hgcl : s.gclUp = true)
include hup hgcl

theorem exec_rdNc_here (hfree : s.connBusy 0 gclClass = false) (hsize : sizeOk a n = true) (hnode : nodeOf a = s.node)
    (hpage : s.stalledRange (localOf a) n = false) (hsnoop : s.snoopOf (localOf a / 64) = none)
    (hload : s.serveLoad (localOf a) n = (u, .ok d)) : exec (.rdNc tag a n) s = .next (u.gclSend (.cmpData tag 0 a d)) := by
  rw [exec_rdNc, execRdNc, hup.onGcl hgcl, State.takeTurn_of_free rfl hfree, State.lineRun,
    State.gclRead_here hsize hnode hpage hsnoop hload]

theorem exec_rdNc_away (hfree : s.connBusy 0 gclClass = false) (hsize : sizeOk a n = true) (hnode : nodeOf a ≠ s.node)
    (halias : s.aliasQp (nodeOf a) = none) :
    exec (.rdNc tag a n) s = .next (s.ifpRead (nodeOf a) a n (.gclRead tag)) := by
  rw [exec_rdNc, execRdNc, hup.onGcl hgcl, State.takeTurn_of_free rfl hfree, State.lineRun,
    State.gclRead_away hsize hnode halias]

theorem exec_write_here (hfree : s.connBusy 0 gclClass = false) (hsize : sizeOk a d.length = true) (hnode : nodeOf a = s.node)
    (hpage : s.stalledRange (localOf a) d.length = false) (hsnoop : s.snoopOf (localOf a / 64) = none)
    (hstore : s.serveStore (localOf a) d = (u, none)) :
    (u.pwr.held = false → exec (.wrNc tag a d) s = .next (u.gclSend (.cmp tag))) ∧
      exec (.wrPosted a d) s = .next u := by
  refine ⟨fun hheld => ?_, ?_⟩
  · rw [exec_wrNc, execWrNc, hup.onGcl hgcl, State.takeTurn_of_free rfl hfree, State.lineRun,
      State.gclStore_here hsize hnode hpage hsnoop hstore]
    simp only [State.unlessHeld, hheld, Bool.false_eq_true, if_false]
  · rw [exec_wrPosted, execWrPosted, hup.onGcl hgcl, State.takeTurn_of_free rfl hfree, State.lineRun,
      State.gclStore_here hsize hnode hpage hsnoop hstore]

/-- Behind a request of the companion that still waits, every later one waits. -/
theorem exec_request_waits (hbusy : s.connBusy 0 gclClass = true) :
    (∀ a n, exec (.rdNc tag a n) s = .next (s.stall (.read tag a n))) ∧
      (∀ a d, exec (.wrNc tag a d) s = .next (s.stall (.write (some tag) a d)) ∧
        exec (.wrPosted a d) s = .next (s.stall (.write none a d))) ∧
      ∀ a own, exec (if own then .rdOwn tag a else .rdShared tag a) s = .next (s.stall (.request own tag a)) := by
  refine ⟨fun a n => ?_, fun a d => ⟨?_, ?_⟩, fun a own => ?_⟩
  · rw [exec_rdNc, execRdNc, hup.onGcl hgcl, State.takeTurn_of_busy rfl hbusy]
  · rw [exec_wrNc, execWrNc, hup.onGcl hgcl, State.takeTurn_of_busy rfl hbusy]
  · rw [exec_wrPosted, execWrPosted, hup.onGcl hgcl, State.takeTurn_of_busy rfl hbusy]
  · rw [exec_lineRequest hup hgcl, State.takeTurn_of_busy rfl hbusy]

theorem exec_snpAck_of (hx : s.snoopTagged tag = some x) : exec (.snpAck tag) s = .next (s.snoopDone x) := by
  rw [exec_snpAck, execSnpAck, hup.onGcl hgcl, State.snoopAck, hx]

theorem exec_snpData_of (hx : s.snoopTagged tag = some x) (hstore : s.lineWrite x.line d = (u, none)) :
    exec (.snpData tag d) s = .next (u.snoopDone x) := by
  rw [exec_snpData, execSnpData, hup.onGcl hgcl, State.snoopData, hx]
  simp only [hstore]

theorem exec_cmp_reply {last : Bool} (hp : s.gclPurpose tag = some (.reply n last)) :
    exec (.cmp tag) s = .next (((s.gclRetire tag).writeCompleted n last).fetchAll) := by
  rw [exec_cmp, execCmp, hup.onGcl hgcl, State.gclComplete, hp]

theorem exec_err_fetch (hp : s.gclPurpose tag = some (.fetch n slot)) (code : Nat) :
    exec (.err tag code) s = .next ((s.gclRetire tag).hostFault n) := by
  rw [exec_err, execErr, hup.onGcl hgcl, State.gclError, hp]

theorem exec_cmpData_fetch (hp : s.gclPurpose tag = some (.fetch n slot))
    (hwanted : (s.gclRetire tag).fetchWanted n slot = true) (d : List Byte) :
    exec (.cmpData tag d) s = .next (((s.gclRetire tag).updRing n fun x =>
      { x with slots := (x.slots.filter fun y => y.1 ≠ slot) ++ [(slot, d.take 32)] }).fetchAll) := by
  rw [exec_cmpData, execCmpData, hup.onGcl hgcl, State.gclData, hp]
  simp only [hwanted, if_true]

end

end Sys2Proof.Machine
end

section
/-! SUPPORT and PROOF. Flits, the loss of the link and the interrupts of the GCL (15 R367 to R370, R378, R380). -/

namespace Sys2Proof.Machine

variable {s t u : State} {i k m n v seq ack : Nat} {b d : List Byte} {f : State → State}

theorem exec_gclNackFlit (seq : Nat) (s : State) : exec (.gclNackFlit seq) s = execGclNackFlit seq s := rfl

theorem exec_gclDataFlit (b : List Byte) (s : State) : exec (.gclDataFlit b) s = execGclDataFlit b s := rfl

theorem exec_gclDown (x : Bool) (s : State) : exec (.gclDown x) s = execGclDown x s := rfl

theorem exec_gclRetrained (x : GclTraining) (s : State) : exec (.gclRetrained x) s = execGclRetrained x s := rfl

theorem exec_gclLossTimeout (s : State) : exec .gclLossTimeout s = execGclLossTimeout s := rfl

theorem exec_gclIrqAck (v : Nat) (s : State) : exec (.gclIrqAck v) s = execGclIrqAck v s := rfl

/-! ### Flits sent (R367) -/

/-- A state that has sent `k` flits more: they return credit, and nothing else changes. -/
structure FlitsSent (k : Nat) (s t : State) : Prop where
  same : t = { s with gcl := { s.gcl with creditDue := t.gcl.creditDue, sent := t.gcl.sent } }
  sent : ∃ l, t.gcl.sent = s.gcl.sent ++ l ∧ l.length = k

theorem FlitsSent.refl (s : State) : FlitsSent 0 s s := ⟨rfl, [], (List.append_nil _).symm, rfl⟩

theorem FlitsSent.mem (h : FlitsSent k s t) : t.mem = s.mem := by rw [h.same]

theorem FlitsSent.reg {o : Nat} (h : FlitsSent k s t) : t.reg o = s.reg o := State.reg_congr (by rw [h.same])

theorem FlitsSent.gcl_part {β : Type} {part : GclSt → β} (h : FlitsSent k s t)
    (hpart : ∀ g c l, part { g with creditDue := c, sent := l } = part g) : part t.gcl = part s.gcl := by
  rw [congrArg State.gcl h.same]
  exact hpart _ _ _

theorem FlitsSent.trans (h : FlitsSent k s t) (g : FlitsSent n t u) : FlitsSent (k + n) s u := by
  obtain ⟨l, hl, hk⟩ := h.sent
  obtain ⟨r, hr, hn⟩ := g.sent
  refine ⟨?_, l ++ r, by rw [hr, hl, List.append_assoc], by rw [List.length_append, hk, hn]⟩
  have hsame := g.same
  rw [h.same] at hsame
  exact hsame

theorem State.flitSend_sent (s : State) (seq typ : Nat) (slots : List Byte) : FlitsSent 1 s (s.flitSend seq typ slots) :=
  ⟨rfl, _, rfl, rfl⟩

theorem State.flits_sent (l : List (Nat × GclMsg)) (s : State) :
    FlitsSent l.length s (l.foldl (fun s u => s.flitSend u.1 0 u.2.bytes) s) := by
  induction l generalizing s with
  | nil => exact .refl s
  | cons x l ih =>
    rw [List.length_cons, Nat.add_comm]
    exact (State.flitSend_sent s _ _ _).trans (ih _)

/-- IDLE is answered by one flit at least. -/
theorem State.flitIdle_sent (s : State) : ∃ k, FlitsSent (k + 1) s s.flitIdle := by
  refine List.foldlRecOn (motive := fun t => ∃ k, FlitsSent (k + 1) s t) _ _ ⟨0, State.flitSend_sent s _ _ _⟩ ?_
  rintro t ⟨k, h⟩ i -
  split
  · exact ⟨k, h⟩
  · exact ⟨k + 1, h.trans (State.flitSend_sent t _ _ _)⟩

/-! ### Acknowledgement, credit and replay (R369, R370) -/

theorem State.gclAcked_of_none (h : ∀ u ∈ s.gcl.unacked, seqBefore u.1 ack = false) : s.gclAcked ack = s := by
  have hall : (s.gcl.unacked.filter fun u => ! seqBefore u.1 ack) = s.gcl.unacked :=
    List.filter_eq_self.2 fun u hu => by rw [h u hu]; rfl
  rw [State.gclAcked, hall, if_pos rfl]

/-- With nothing queued, an acknowledgement removes the flits it names and may restart the count of replays. -/
theorem State.gclAcked_of_empty (h : s.gcl.queued = []) : ∃ k, s.gclAcked ack = { s with gcl := { s.gcl with
    unacked := s.gcl.unacked.filter (fun u => ! seqBefore u.1 ack), replayCount := k } } := by
  unfold State.gclAcked
  dsimp only
  split
  · next hlen =>
    refine ⟨s.gcl.replayCount, ?_⟩
    rw [List.filter_eq_self.2 (List.length_filter_eq_length_iff.1 hlen)]
  · exact ⟨0, State.gclFlush_of_empty h⟩

theorem State.gclCredit_of_empty {c : Nat} (h : s.gcl.queued = []) :
    s.gclCredit c n = { s with gcl := { s.gcl with credits := s.gcl.credits.modify c (· + n) } } := State.gclFlush_of_empty h

/-- A replay begun of all flits unacknowledged. -/
def State.replayBegun (s : State) : State :=
  { s with gcl := { s.gcl with
    resent := s.gcl.resent ++ s.gcl.unacked.map (·.1), replayCount := s.gcl.replayCount + 1 } }

/-- The state a replay leaves before the flits are sent again: it is counted in GCL_ERR. -/
def State.resending (s : State) : State := (s.addSat Reg.gclErr 31 16 1).replayBegun

theorem State.resending_spec : s.resending.gcl.resent = s.gcl.resent ++ s.gcl.unacked.map (·.1) ∧
    s.resending.gcl.sent = s.gcl.sent ∧ s.resending.gcl.replayCount = s.gcl.replayCount + 1 ∧ s.resending.mem = s.mem ∧
    ∀ o, s.resending.reg o = (s.addSat Reg.gclErr 31 16 1).reg o := by
  refine ⟨?_, ?_, ?_, ?_, fun o => State.reg_congr (by rw [State.resending, State.replayBegun])⟩
  all_goals simp only [State.resending, State.replayBegun, State.addSat_fields]

theorem State.gclReplay_sends (hu : u = s.gclAcked seq) (hne : u.gcl.unacked ≠ []) :
    s.gclReplay seq = u.gcl.unacked.foldl (fun s u => s.flitSend u.1 0 u.2.bytes) u.resending := by
  obtain ⟨v, hv⟩ : ∃ v, v = u.addSat Reg.gclErr 31 16 1 := ⟨_, rfl⟩
  have hgcl : u.gcl = v.gcl := by simp only [hv, State.addSat_fields]
  rw [State.gclReplay, ← hu, if_neg (by rw [List.isEmpty_iff]; exact hne), State.resending, ← hv, hgcl]
  rfl

theorem State.gclReplay_of_none (h : ∀ u ∈ s.gcl.unacked, seqBefore u.1 seq = false) (hne : s.gcl.unacked ≠ []) :
    s.gclReplay seq = s.gcl.unacked.foldl (fun s u => s.flitSend u.1 0 u.2.bytes) s.resending :=
  State.gclReplay_sends (State.gclAcked_of_none h).symm hne

theorem exec_gclNackFlit_of_none (hup : s.Up) (hs : s.Sound) (hgcl : s.gclUp = true)
    (h : ∀ u ∈ s.gcl.unacked, seqBefore u.1 (seq % 1024) = false) (hne : s.gcl.unacked ≠ []) (hcount : s.gcl.replayCount ≠ 15) :
    ∃ t, exec (.gclNackFlit seq) s = .next t ∧ t.gcl.resent = s.gcl.resent ++ s.gcl.unacked.map (·.1) ∧
      (∃ l, t.gcl.sent = s.gcl.sent ++ l ∧ l.length = s.gcl.unacked.length) ∧
      t.gcl.replayCount = s.gcl.replayCount + 1 ∧
      t.fld Reg.gclErr 31 16 = min (s.fld Reg.gclErr 31 16 + 1) (2 ^ 16 - 1) ∧ t.mem = s.mem := by
  have hsent := State.flits_sent s.gcl.unacked s.resending
  obtain ⟨hresent, hsentOf, hreplays, hmem, hreg⟩ := State.resending_spec (s := s)
  rw [exec_gclNackFlit, execGclNackFlit, hup.onGcl hgcl, State.gclNacked, State.gclReplay_of_none h hne]
  generalize s.gcl.unacked.foldl (fun s u => s.flitSend u.1 0 u.2.bytes) s.resending = t at hsent
  generalize s.resending = v at hsent hresent hsentOf hreplays hmem hreg
  have hcount' : t.gcl.replayCount = s.gcl.replayCount + 1 :=
    (hsent.gcl_part (part := fun g => g.replayCount) fun _ _ _ => rfl).trans hreplays
  rw [if_neg (by rw [hcount']; omega)]
  refine ⟨t, rfl, (hsent.gcl_part (part := fun g => g.resent) fun _ _ _ => rfl).trans hresent, hsentOf ▸ hsent.sent, hcount', ?_,
    hsent.mem.trans hmem⟩
  rw [State.fld_congr (hsent.reg.trans (hreg _)), State.fld_addSat_same hs (by decide) (by decide)]

/-! ### Flits received (R367 to R370) -/

theorem State.onGcl_fixed (h : f s = s) : s.onGcl f = s := by
  unfold State.onGcl State.whenUp
  dsimp only
  split
  · split
    · exact h
    · rfl
  · rfl

theorem State.gclSlot_unused (hp : s.gcl.partials = []) (h : fieldAt b 0 1 = 0) : s.gclSlot b = s := by
  rw [State.gclSlot, if_pos ⟨by rw [hp]; rfl, h⟩]

/-- A flit that is not taken is named in a NACK. -/
theorem State.gclNack_spec : (s.gclNack).gcl.nacks = s.gcl.nacks ++ [s.gcl.seqRx] ∧ (s.gclNack).gcl.awaiting = true ∧
    (∃ b, (s.gclNack).gcl.sent = s.gcl.sent ++ [b]) ∧ (s.gclNack).mem = s.mem := ⟨rfl, rfl, ⟨_, rfl⟩, rfl⟩

theorem exec_gclDataFlit_bad (hup : s.Up) (hgcl : s.gclUp = true) (hlen : b.length = 256)
    (hbad : ∀ d, (flitDecode b).1 = some d → crc32 (d.take 244) ≠ fieldAt d 244 4) :
    exec (.gclDataFlit b) s = .next (s.addSat Reg.gclErr 63 32 (flitDecode b).2).gclNack := by
  rw [exec_gclDataFlit, execGclDataFlit, hup.onGcl hgcl, if_neg (not_not.2 hlen)]
  dsimp only
  split
  · rfl
  · next d hd => rw [if_pos (hbad d hd)]

/-- The state that awaits the flit after one in its turn, of header `h`. -/
def State.flitCounted (s : State) (h : Nat) : State :=
  { s with gcl := { s.gcl with seqRx := (bits h 9 0 + 1) % 1024, awaiting := false } }

/-- A DATA flit in its turn, with nothing queued and its slots unused: what is left of it before it is answered. -/
def State.flitTaken (s : State) (h k : Nat) : State :=
  { s.flitCounted h with gcl := { (s.flitCounted h).gcl with
    unacked := s.gcl.unacked.filter (fun u => ! seqBefore u.1 (bits h 19 10))
    replayCount := k
    credits := s.gcl.credits.modify (bits h 23 22) (· + bits h 31 24) } }

theorem State.gclTake_inTurn {h : Nat} (hh : h = fieldAt d 0 4) (htype : bits h 21 20 = 0) (hseq : bits h 9 0 = s.gcl.seqRx) :
    s.gclTake d = ((List.range 15).foldl (fun s i => s.onGcl fun s => s.gclSlot ((d.drop (4 + 16 * i)).take 16))
      (((s.flitCounted h).gclAcked (bits h 19 10)).gclCredit (bits h 23 22) (bits h 31 24))).onGcl State.flitIdle := by
  unfold State.gclTake
  simp only [← hh, htype]
  rw [if_neg fun hne => hne.2 hseq, if_neg fun hne => Nat.zero_ne_one hne.1]
  simp only [if_true]
  rfl

theorem State.gclTake_unused (hup : s.Up) (hgcl : s.gclUp = true) {h : Nat} (hh : h = fieldAt d 0 4)
    (htype : bits h 21 20 = 0) (hseq : bits h 9 0 = s.gcl.seqRx) (hq : s.gcl.queued = []) (hp : s.gcl.partials = [])
    (hslots : ∀ i < 15, fieldAt ((d.drop (4 + 16 * i)).take 16) 0 1 = 0) :
    ∃ k, s.gclTake d = (s.flitTaken h k).flitIdle := by
  obtain ⟨k, hacked⟩ := State.gclAcked_of_empty (ack := bits h 19 10) (s := s.flitCounted h) hq
  have hcredit : ((s.flitCounted h).gclAcked (bits h 19 10)).gclCredit (bits h 23 22) (bits h 31 24) = s.flitTaken h k := by
    rw [hacked]
    exact State.gclCredit_of_empty hq
  have hfold : (List.range 15).foldl (fun s i => s.onGcl fun s => s.gclSlot ((d.drop (4 + 16 * i)).take 16)) (s.flitTaken h k) =
      s.flitTaken h k := by
    refine List.foldlRecOn (motive := fun v => v = s.flitTaken h k) _ _ rfl ?_
    rintro v rfl i hi
    exact State.onGcl_fixed (State.gclSlot_unused hp (hslots i (List.mem_range.1 hi)))
  exact ⟨k, by rw [State.gclTake_inTurn hh htype hseq, hcredit, hfold,
    State.Up.onGcl (s := s.flitTaken h k) (f := State.flitIdle) hup hgcl]⟩

theorem exec_gclDataFlit_good (hup : s.Up) (hs : s.Sound) (hgcl : s.gclUp = true) {h : Nat} (hlen : b.length = 256)
    (hd : (flitDecode b).1 = some d) (hcrc : crc32 (d.take 244) = fieldAt d 244 4) (hh : h = fieldAt d 0 4)
    (htype : bits h 21 20 = 0) (hseq : bits h 9 0 = s.gcl.seqRx) (hq : s.gcl.queued = []) (hp : s.gcl.partials = [])
    (hslots : ∀ i < 15, fieldAt ((d.drop (4 + 16 * i)).take 16) 0 1 = 0) :
    ∃ t, exec (.gclDataFlit b) s = .next t ∧
      t.gcl.seqRx = (s.gcl.seqRx + 1) % 1024 ∧ t.gcl.awaiting = false ∧
      t.gcl.unacked = s.gcl.unacked.filter (fun u => ! seqBefore u.1 (bits h 19 10)) ∧
      t.gcl.credits = s.gcl.credits.modify (bits h 23 22) (· + bits h 31 24) ∧
      (∃ l, l ≠ [] ∧ t.gcl.sent = s.gcl.sent ++ l) ∧
      t.fld Reg.gclErr 63 32 = min (s.fld Reg.gclErr 63 32 + (flitDecode b).2) (2 ^ 32 - 1) ∧ t.mem = s.mem := by
  obtain ⟨v, hv⟩ : ∃ v, v = s.addSat Reg.gclErr 63 32 (flitDecode b).2 := ⟨_, rfl⟩
  obtain ⟨hvgcl, hvmem, hvpwr⟩ : v.gcl = s.gcl ∧ v.mem = s.mem ∧ v.pwr = s.pwr := by
    rw [hv]
    simp only [State.addSat_fields, and_self]
  have hvup : v.Up := by rw [State.Up, hvpwr]; exact hup
  have hvlink : v.gclUp = true := by
    rw [State.gclUp, hv, State.fld_addSat_other (by decide)]
    exact hgcl
  obtain ⟨k, htake⟩ := State.gclTake_unused hvup hvlink hh htype (by rw [hvgcl, hseq]) (by rw [hvgcl, hq]) (by rw [hvgcl, hp])
    hslots
  have hexec : exec (.gclDataFlit b) s = .next (v.flitTaken h k).flitIdle := by
    rw [exec_gclDataFlit, execGclDataFlit, hup.onGcl hgcl, if_neg (not_not.2 hlen)]
    simp only [hd, hcrc, ne_eq, not_true_eq_false, if_false, ← hv, htake]
  obtain ⟨r, hidle⟩ := State.flitIdle_sent (v.flitTaken h k)
  rw [hexec]
  generalize (v.flitTaken h k).flitIdle = t at hidle
  obtain ⟨l, hsent, hlong⟩ := hidle.sent
  have hseqRx : (v.flitTaken h k).gcl.seqRx = (s.gcl.seqRx + 1) % 1024 := by
    rw [← hseq]
    rfl
  refine ⟨t, rfl, ?_, ?_, ?_, ?_, ⟨l, ?_, ?_⟩, ?_, ?_⟩
  · rw [hidle.gcl_part (part := fun g => g.seqRx) fun _ _ _ => rfl, hseqRx]
  · exact hidle.gcl_part (part := fun g => g.awaiting) fun _ _ _ => rfl
  · rw [hidle.gcl_part (part := fun g => g.unacked) fun _ _ _ => rfl, State.flitTaken, hvgcl]
  · rw [hidle.gcl_part (part := fun g => g.credits) fun _ _ _ => rfl, State.flitTaken, hvgcl]
  · rintro rfl
    exact absurd hlong (by simp)
  · exact hsent.trans (congrArg (fun g => g.sent ++ l) hvgcl)
  · have hreg : t.reg Reg.gclErr = v.reg Reg.gclErr := hidle.reg.trans (State.reg_congr rfl)
    rw [State.fld_congr hreg, hv, State.fld_addSat_same hs (by decide) (by decide)]
  · exact hidle.mem.trans hvmem

end Sys2Proof.Machine
end

section
/-! SUPPORT and PROOF. The loss of the link, its training again, and the interrupts of the GCL (15 R378, R380). -/

namespace Sys2Proof.Machine

variable {s t u : State} {i j k m n o v seq ack : Nat} {b d : List Byte}

/-! ### The link goes down, or is lost (R380, 17 R413) -/

theorem State.fatal_mem : u.fatal.mem = u.mem := State.fatalRaised_fields.2.2.1

theorem State.irq_lines : (u.irq v).gcl.dir = u.gcl.dir ∧ (u.irq v).gcl.snoops = u.gcl.snoops := by
  unfold State.irq
  split
  · exact ⟨rfl, rfl⟩
  · split
    · exact ⟨rfl, rfl⟩
    · obtain ⟨hdir, hsnoops, -⟩ := State.gclSend_leaves (s := u.setReg Reg.gclIrqAck (putBits (u.reg Reg.gclIrqAck) v v 1))
        (.wrPosted (bits (u.reg (Reg.gclIrqAddr v)) 63 2 * 4)
          (leBytes 4 ((u.setReg Reg.gclIrqAck (putBits (u.reg Reg.gclIrqAck) v v 1)).reg (Reg.gclIrqData v))))
      exact ⟨hdir, hsnoops⟩

theorem State.fatal_lines : u.fatal.gcl.dir = u.gcl.dir ∧ u.fatal.gcl.snoops = u.gcl.snoops := by
  have hraised : u.fatal.gcl = u.fatalRaised.gcl := rfl
  rw [hraised, State.fatalRaised]
  split
  · exact ⟨rfl, rfl⟩
  · simp only [State.proofEvent_fields, State.irq_lines, State.setFld_fields, and_self]

/-- GCL_STATE of a lost link, which is fatal. -/
def State.linkOff (s : State) : State := (s.setFld Reg.gclState 31 29 0).fatal

/-- The lines of a lost link: none is listed any more, and those that were owned are poisoned. -/
def State.linesLost (s : State) : State :=
  let held := (s.gcl.dir.filter fun e => e.2 = .excl).map (·.1)
  { s with
    mem := { s.mem with poison := (s.mem.poison ++ held).eraseDups }
    gcl := { s.gcl with dir := [] } }

theorem State.linkOff_spec (hs : s.Sound) : s.linkOff.isFatal = true ∧ s.linkOff.fld Reg.gclState 31 29 = 0 ∧
    s.linkOff.mem = s.mem ∧ s.linkOff.gcl.dir = s.gcl.dir := by
  have hmem := State.fatal_mem (u := s.setFld Reg.gclState 31 29 0)
  have hdir := (State.fatal_lines (u := s.setFld Reg.gclState 31 29 0)).1
  have hstate := State.fld_setFld_of_fits hs (off := Reg.gclState) (hi := 31) (lo := 29) (v := 0) (by decide) (by decide) (by decide)
  simp only [State.setFld_fields] at hmem hdir
  refine ⟨State.isFatal_fatal hs.setFld, ?_, hmem, hdir⟩
  rw [State.linkOff, State.fld_congr (State.reg_fatal (by decide) (by decide)), hstate]

theorem State.linkOff_snoops : s.linkOff.gcl.snoops = s.gcl.snoops := by
  rw [State.linkOff, State.fatal_lines.2]
  simp only [State.setFld_fields]

theorem State.gclLost_eq (hu : u = s.linkOff) : s.gclLost = u.gcl.snoops.foldl (fun s x => match s.snoopOf x.line with
    | some y => s.snoopDone y
    | none => s) u.linesLost := by
  rw [State.linkOff] at hu
  rw [State.gclLost, ← hu]
  rfl

theorem State.gclLost_idle (h : s.gcl.snoops = []) : s.gclLost = s.linkOff.linesLost := by
  rw [State.gclLost_eq rfl, State.linkOff_snoops, h, List.foldl_nil]

theorem State.linesLost_spec : (u.linesLost).gcl.dir = [] ∧ (u.linesLost).isFatal = u.isFatal ∧
    (u.linesLost).fld Reg.gclState 31 29 = u.fld Reg.gclState 31 29 ∧ (u.linesLost).mem.bytes = u.mem.bytes ∧
    ∀ l, (l, DirState.excl) ∈ u.gcl.dir → l ∈ (u.linesLost).mem.poison := by
  have hreg (o : Nat) : u.linesLost.reg o = u.reg o := State.reg_congr rfl
  refine ⟨rfl, ?_, State.fld_congr (hreg _), rfl, fun l hl => ?_⟩
  · rw [State.isFatal, State.fld_congr (hreg _), State.isFatal]
  · exact List.mem_eraseDups.2 (List.mem_append_right _ (List.mem_map.2 ⟨_, List.mem_filter.2 ⟨hl, rfl⟩, rfl⟩))

theorem State.gclLost_spec (hs : s.Sound) (h : s.gcl.snoops = []) : s.gclLost.isFatal = true ∧
    s.gclLost.fld Reg.gclState 31 29 = 0 ∧ s.gclLost.gcl.dir = [] ∧
    (∀ l, (l, DirState.excl) ∈ s.gcl.dir → l ∈ s.gclLost.mem.poison) ∧ s.gclLost.mem.bytes = s.mem.bytes := by
  obtain ⟨hfatal, hstate, hmem, hlines⟩ := State.linkOff_spec hs
  rw [State.gclLost_idle h]
  generalize s.linkOff = u at hfatal hstate hmem hlines
  obtain ⟨hdir, hfatal', hstate', hbytes, hpoison⟩ := State.linesLost_spec (u := u)
  exact ⟨hfatal'.trans hfatal, hstate'.trans hstate, hdir, hlines ▸ hpoison, hbytes.trans (by rw [hmem])⟩

theorem exec_gclDown_up (hup : s.Up) (hgcl : s.gclUp = true) (x : Bool) : exec (.gclDown x) s = .next (s.gclDown x) := by
  rw [exec_gclDown, execGclDown, hup.onGcl hgcl]

theorem State.gclDown_joint (hmode : s.fld Reg.cdcRstmode 3 3 = 0) (x : Bool) : s.gclDown x = s.beginReset 7 := by
  rw [State.gclDown, if_pos hmode]

theorem State.gclDown_lost (hmode : s.fld Reg.cdcRstmode 3 3 = 1) : s.gclDown true = s.gclLost := by
  rw [State.gclDown, if_neg (by rw [hmode]; decide), if_pos rfl]

theorem State.gclDown_retrains (hmode : s.fld Reg.cdcRstmode 3 3 = 1) : s.gclDown false = s.setFld Reg.gclState 31 29 1 := by
  rw [State.gclDown, if_neg (by rw [hmode]; decide), if_neg Bool.false_ne_true]

/-! ### The link trains again (R380) -/

/-- A state alike in its registers, its memory and the replays counted: messages have moved, and no more. -/
structure Resent (s t : State) : Prop where
  regs : t.regs = s.regs
  mem : t.mem = s.mem
  replays : t.gcl.replayCount = s.gcl.replayCount

theorem Resent.refl (s : State) : Resent s s := ⟨rfl, rfl, rfl⟩

theorem Resent.trans (h : Resent s t) (g : Resent t u) : Resent s u :=
  ⟨g.regs.trans h.regs, g.mem.trans h.mem, g.replays.trans h.replays⟩

theorem FlitsSent.resent (h : FlitsSent k s t) : Resent s t := ⟨by rw [h.same], h.mem, by rw [h.same]⟩

theorem State.gclSend_resent (m : GclMsg) : Resent s (s.gclSend m) :=
  ⟨by simp only [State.gclSend_fields], by simp only [State.gclSend_fields], (State.gclSend_leaves m).2.2.1⟩

theorem State.gclFlushList_resent (l : List GclMsg) : ∀ (blocked : List Nat) (s : State),
    Resent s (State.gclFlushList blocked l s) := by
  have hqueued (u : State) (m : GclMsg) : Resent u { u with gcl := { u.gcl with queued := u.gcl.queued ++ [m] } } :=
    ⟨rfl, rfl, rfl⟩
  have hput (u : State) (m : GclMsg) : Resent u (u.gclPut m) := ⟨rfl, rfl, rfl⟩
  induction l with
  | nil => exact fun _ => .refl
  | cons m l ih =>
    intro blocked s
    unfold State.gclFlushList
    split
    · exact (hqueued s m).trans (ih _ _)
    · split
      · exact (hput s m).trans (ih _ _)
      · exact (hqueued s m).trans (ih _ _)

theorem State.gclFlush_resent : Resent s s.gclFlush :=
  Resent.trans (t := { s with gcl := { s.gcl with queued := [] } }) ⟨rfl, rfl, rfl⟩ (State.gclFlushList_resent _ _ _)

theorem State.gclRequest_resent (p : GclPurpose) (m : GclMsg) : Resent s (s.gclRequest p m) := by
  unfold State.gclRequest
  split
  · exact ⟨rfl, rfl, rfl⟩
  · next k _ =>
    exact Resent.trans (t := { s with gcl := { s.gcl with reqs := s.gcl.reqs ++ [(k, p)] } }) ⟨rfl, rfl, rfl⟩
      (State.gclSend_resent _)

theorem State.fetchLoop_resent (n k : Nat) (s : State) : Resent s (State.fetchLoop n k s) := by
  induction k generalizing s with
  | zero => exact .refl s
  | succ k ih =>
    unfold State.fetchLoop
    dsimp only
    split
    · exact .refl s
    · have hring (u : State) (f : RingSt → RingSt) : Resent u (u.updRing n f) := ⟨rfl, rfl, rfl⟩
      exact ((State.gclRequest_resent _ _).trans (hring _ _)).trans (ih _)

theorem State.fetchAll_resent : Resent s s.fetchAll := by
  refine List.foldlRecOn (motive := Resent s) _ _ (.refl s) fun u hu n _ => hu.trans ?_
  unfold State.fetchRing
  split
  · exact State.fetchLoop_resent _ _ u
  · exact .refl u

/-- An acknowledgement moves messages, and may restart the count of replays. -/
theorem State.gclAcked_kept_regs : (s.gclAcked ack).regs = s.regs ∧ (s.gclAcked ack).mem = s.mem := by
  unfold State.gclAcked
  dsimp only
  split
  · exact ⟨rfl, rfl⟩
  · exact ⟨State.gclFlush_resent.regs, State.gclFlush_resent.mem⟩

/-- A replay is counted in GCL_ERR; the link stays as it is, and so do the faults of the protocol. -/
theorem State.gclReplay_spec (hs : s.Sound) : (s.gclReplay seq).mem = s.mem ∧
    (s.gclReplay seq).fld Reg.gclState 31 29 = s.fld Reg.gclState 31 29 ∧
    (s.gclReplay seq).fld Reg.gclErr 0 0 = s.fld Reg.gclErr 0 0 := by
  obtain ⟨hregs, hmem⟩ := State.gclAcked_kept_regs (s := s) (ack := seq)
  have hsound : (s.gclAcked seq).Sound := (State.gclAcked_kept hs.kept).sound
  have hfld (o p q : Nat) : (s.gclAcked seq).fld o p q = s.fld o p q := State.fld_congr (State.reg_congr hregs)
  by_cases hnone : (s.gclAcked seq).gcl.unacked = []
  · rw [State.gclReplay, if_pos (List.isEmpty_iff.2 hnone)]
    exact ⟨hmem, hfld _ _ _, hfld _ _ _⟩
  · rw [State.gclReplay_sends rfl hnone]
    have hsent := State.flits_sent (s.gclAcked seq).gcl.unacked (s.gclAcked seq).resending
    obtain ⟨-, -, -, hrmem, hreg⟩ := State.resending_spec (s := s.gclAcked seq)
    have hbelow := State.fld_setFld_below hsound (off := Reg.gclErr) (hi := 31) (lo := 16) (b := 0) (a := 0)
      (x := saturate (2 ^ 16 - 1) ((s.gclAcked seq).fld Reg.gclErr 31 16 + 1)) (by decide) (by decide) (by decide) (by decide)
    refine ⟨hsent.mem.trans (hrmem.trans hmem), ?_, ?_⟩
    · rw [State.fld_congr (hsent.reg.trans (hreg _)), State.fld_addSat_other (by decide), hfld]
    · rw [State.fld_congr (hsent.reg.trans (hreg _)), State.addSat, hbelow, hfld]

theorem State.gclErrSet_spec (hs : s.Sound) (hi : i < 64) : (s.gclErrSet i).mem = s.mem ∧ (s.gclErrSet i).fld Reg.gclErr i i = 1 ∧
    ∀ o, o ≠ Reg.gclErr → o ≠ Reg.gclIrqAck → (s.gclErrSet i).reg o = s.reg o := by
  unfold State.gclErrSet
  split
  · next hset => exact ⟨rfl, hset, fun _ _ _ => rfl⟩
  · have hfits : 1 < 2 ^ (i + 1 - i) := by
      rw [Nat.add_sub_cancel_left]
      decide
    refine ⟨by simp only [State.irq_fields, State.setFld_fields], ?_, fun o herr hack => ?_⟩
    · rw [State.fld_congr (State.reg_irq_other (by decide)), State.fld_setFld_of_fits hs le_rfl hi hfits]
    · rw [State.reg_irq_other hack, State.reg_setFld_other herr]

/-- What a trained link sends again: its first unacknowledged flit and those after it. -/
def State.gclResume (s : State) : State :=
  match s.gcl.unacked with
  | [] => s
  | u :: _ => s.gclReplay u.1

theorem State.gclResume_spec (hs : s.Sound) : s.gclResume.mem = s.mem ∧
    s.gclResume.fld Reg.gclState 31 29 = s.fld Reg.gclState 31 29 ∧ s.gclResume.fld Reg.gclErr 0 0 = s.fld Reg.gclErr 0 0 := by
  unfold State.gclResume
  split
  · exact ⟨rfl, rfl, rfl⟩
  · exact State.gclReplay_spec hs

/-- The count of replays restarted. -/
def State.replaysCleared (s : State) : State := { s with gcl := { s.gcl with replayCount := 0 } }

theorem exec_gclRetrained_down (hup : s.Up) (hdown : s.fld Reg.gclState 31 29 = 1) (x : GclTraining)
    (hu : u = (s.gclTrained x).gclErrSet 0) :
    exec (.gclRetrained x) s = .next u.gclResume.replaysCleared.gclFlush.fetchAll := by
  rw [exec_gclRetrained, execGclRetrained, hup.when, if_neg (not_not.2 hdown), ← hu]
  rfl

theorem State.resumed_spec {v w : State} (hw : w = v.replaysCleared.gclFlush.fetchAll) : w.mem = v.mem ∧
    w.gcl.replayCount = 0 ∧ ∀ o p q, w.fld o p q = v.fld o p q := by
  have hsent := (State.gclFlush_resent (s := v.replaysCleared)).trans State.fetchAll_resent
  rw [← hw] at hsent
  exact ⟨hsent.mem, hsent.replays, fun o p q => State.fld_congr (State.reg_congr hsent.regs)⟩

theorem exec_gclRetrained_spec (hup : s.Up) (hs : s.Sound) (hdown : s.fld Reg.gclState 31 29 = 1) (x : GclTraining) :
    ∃ t, exec (.gclRetrained x) s = .next t ∧ t.gclUp = true ∧ t.fld Reg.gclErr 0 0 = 1 ∧ t.gcl.replayCount = 0 ∧
      t.mem = s.mem := by
  have htrained : (s.gclTrained x).Sound := hs.setReg
  have htmem : (s.gclTrained x).mem = s.mem := by rw [State.gclTrained, (State.setReg_fields _ _ _).2.2.2.2.1]
  obtain ⟨hmem, hset, hother⟩ := State.gclErrSet_spec htrained (i := 0) (by decide)
  have hsound : ((s.gclTrained x).gclErrSet 0).Sound := (State.gclErrSet_kept htrained.kept).sound
  have hstate : ((s.gclTrained x).gclErrSet 0).fld Reg.gclState 31 29 = 2 :=
    (State.fld_congr (hother _ (by decide) (by decide))).trans (State.gclTrained_reg hs x).1
  obtain ⟨u, hu⟩ : ∃ u, u = (s.gclTrained x).gclErrSet 0 := ⟨_, rfl⟩
  rw [exec_gclRetrained_down hup hdown x hu]
  rw [← hu] at hmem hset hsound hstate
  obtain ⟨hrmem, hrstate, hrset⟩ := State.gclResume_spec hsound
  obtain ⟨t, ht⟩ : ∃ t, t = u.gclResume.replaysCleared.gclFlush.fetchAll := ⟨_, rfl⟩
  obtain ⟨hsmem, hreplays, hfld⟩ := State.resumed_spec ht
  refine ⟨t, by rw [ht], ?_, by rw [hfld, hrset, hset], hreplays, by rw [hsmem, hrmem, hmem, htmem]⟩
  rw [State.gclUp, hfld, hrstate, hstate]
  rfl

/-! ### GCL_IRQ_ACK (R378) -/

/-- GCL_IRQ_ACK of vector `i`, where `v` names it: its cause remembered, if there is one, is sent. -/
def State.ackVector (v : Nat) (s : State) (i : Nat) : State :=
  if bit v i = 1 ∧ bit (s.reg Reg.gclIrqAck) i = 1 then
    let s := s.setReg Reg.gclIrqAck (putBits (s.reg Reg.gclIrqAck) i i 0)
    if s.gcl.irqMore.contains i then
      { s with gcl := { s.gcl with irqMore := s.gcl.irqMore.erase i } }.irqSend i
    else s
  else s

/-- A vector no longer pending whose remembered cause is to be sent. -/
def State.causeTaken (s : State) (i : Nat) : State :=
  let s := s.setReg Reg.gclIrqAck (putBits (s.reg Reg.gclIrqAck) i i 0)
  { s with gcl := { s.gcl with irqMore := s.gcl.irqMore.erase i } }

theorem State.causeTaken_sound (hs : s.Sound) : (s.causeTaken i).Sound :=
  Kept.sound (q := s.pending) (n := s.freeCtr) (Kept.upd (State.setReg_kept hs.kept) rfl rfl rfl rfl rfl rfl rfl)

theorem State.ackIrq_eq : s.ackIrq v = (List.range 17).foldl (State.ackVector v) s := rfl

theorem State.reg_setReg_ack (hs : s.Sound) (hi : i < 64) {x : Nat} :
    (s.setReg Reg.gclIrqAck (putBits (s.reg Reg.gclIrqAck) i i x)).reg Reg.gclIrqAck = putBits (s.reg Reg.gclIrqAck) i i x := by
  rw [State.reg_setReg_same hs, Nat.mod_eq_of_lt (putBits_lt le_rfl hi State.reg_lt)]

theorem State.irqSend_spec (hs : s.Sound) (hi : i < 64) : (s.irqSend i).mem = s.mem ∧
    (s.irqSend i).reg Reg.gclIrqAck = putBits (s.reg Reg.gclIrqAck) i i 1 ∧
    (∀ o, o ≠ Reg.gclIrqAck → (s.irqSend i).reg o = s.reg o) ∧ (s.irqSend i).gcl.irqMore = s.gcl.irqMore := by
  obtain ⟨m, hsend⟩ : ∃ m, s.irqSend i = (s.setReg Reg.gclIrqAck (putBits (s.reg Reg.gclIrqAck) i i 1)).gclSend m := ⟨_, rfl⟩
  have hreg (o : Nat) : (s.irqSend i).reg o = (s.setReg Reg.gclIrqAck (putBits (s.reg Reg.gclIrqAck) i i 1)).reg o :=
    State.reg_congr (by simp only [hsend, State.gclSend_fields])
  refine ⟨?_, (hreg _).trans (State.reg_setReg_ack hs hi), fun o ho => (hreg _).trans (State.reg_setReg_other ho), ?_⟩
  · simp only [hsend, State.gclSend_fields, State.setReg_fields]
  · rw [hsend, (State.gclSend_leaves m).2.2.2]
    simp only [State.setReg_fields]

/-- One vector acknowledged: it is no longer pending, unless its cause is remembered; the others are as before. -/
structure VectorAcked (v i : Nat) (s t : State) : Prop where
  sound : t.Sound
  mem : t.mem = s.mem
  regs : ∀ o, o ≠ Reg.gclIrqAck → t.reg o = s.reg o
  same : bit (t.reg Reg.gclIrqAck) i =
    if bit v i = 1 ∧ s.gcl.irqMore.contains i = false then 0 else bit (s.reg Reg.gclIrqAck) i
  other : ∀ j, j ≠ i → bit (t.reg Reg.gclIrqAck) j = bit (s.reg Reg.gclIrqAck) j ∧
    t.gcl.irqMore.contains j = s.gcl.irqMore.contains j

theorem State.ackVector_acked (hs : s.Sound) (hi : i < 64) : VectorAcked v i s (s.ackVector v i) := by
  have hbit : bit (s.reg Reg.gclIrqAck) i = 0 ∨ bit (s.reg Reg.gclIrqAck) i = 1 := by
    unfold bit
    omega
  unfold State.ackVector
  dsimp only
  split
  · next hpend =>
    split
    · next hmore =>
      simp only [State.setReg_fields] at hmore
      obtain ⟨hmem, hsame, hother, hleft⟩ := State.irqSend_spec (s := s.causeTaken i) (i := i) (State.causeTaken_sound hs) hi
      refine ⟨(State.irqSend_kept (State.causeTaken_sound hs).kept).sound, hmem.trans rfl, fun o ho => ?_, ?_, fun j hj => ⟨?_, ?_⟩⟩
      · exact (hother o ho).trans (State.reg_setReg_other ho)
      · rw [if_neg (by rw [hmore]; simp), hpend.2]
        exact (congrArg (bit · i) hsame).trans bit_putBits_same
      · refine (congrArg (bit · j) hsame).trans ((bit_putBits_other hj).trans ?_)
        exact (congrArg (bit · j) (State.reg_setReg_ack hs hi)).trans (bit_putBits_other hj)
      · refine (congrArg (List.contains · j) hleft).trans ?_
        rw [Bool.eq_iff_iff, List.contains_iff_mem, List.contains_iff_mem]
        exact List.mem_erase_of_ne hj
    · next hmore =>
      simp only [State.setReg_fields, Bool.not_eq_true] at hmore
      refine ⟨hs.setReg, by simp only [State.setReg_fields], fun o ho => State.reg_setReg_other ho, ?_, fun j hj => ⟨?_, ?_⟩⟩
      · rw [State.reg_setReg_ack hs hi, bit_putBits_same, if_pos ⟨hpend.1, hmore⟩]
      · rw [State.reg_setReg_ack hs hi, bit_putBits_other hj]
      · simp only [State.setReg_fields]
  · next hpend =>
    refine ⟨hs, rfl, fun _ _ => rfl, ?_, fun _ _ => ⟨rfl, rfl⟩⟩
    split
    · next hclear => omega
    · rfl

/-- The vectors below `m` acknowledged. -/
structure VectorsAcked (v m : Nat) (s t : State) : Prop where
  sound : t.Sound
  mem : t.mem = s.mem
  regs : ∀ o, o ≠ Reg.gclIrqAck → t.reg o = s.reg o
  below : ∀ i < m, bit (t.reg Reg.gclIrqAck) i =
    if bit v i = 1 ∧ s.gcl.irqMore.contains i = false then 0 else bit (s.reg Reg.gclIrqAck) i
  rest : ∀ i, m ≤ i → bit (t.reg Reg.gclIrqAck) i = bit (s.reg Reg.gclIrqAck) i ∧
    t.gcl.irqMore.contains i = s.gcl.irqMore.contains i

theorem State.ackVectors_acked (hs : s.Sound) (hm : m ≤ 64) :
    VectorsAcked v m s ((List.range m).foldl (State.ackVector v) s) := by
  induction m with
  | zero => exact ⟨hs, rfl, fun _ _ => rfl, fun i hi => absurd hi (Nat.not_lt_zero i), fun _ _ => ⟨rfl, rfl⟩⟩
  | succ m ih =>
    have hprev := ih (Nat.le_of_succ_le hm)
    obtain ⟨hpend, hmore⟩ := hprev.rest m le_rfl
    rw [List.range_succ, List.foldl_append, List.foldl_cons, List.foldl_nil]
    have hstep := State.ackVector_acked (v := v) hprev.sound (show m < 64 from hm)
    refine ⟨hstep.sound, hstep.mem.trans hprev.mem, fun o ho => (hstep.regs o ho).trans (hprev.regs o ho), fun i hi => ?_,
      fun i hi => ?_⟩
    · obtain rfl | hlt := Nat.eq_or_lt_of_le (Nat.le_of_lt_succ hi)
      · rw [hstep.same, hpend, hmore]
      · rw [(hstep.other i (Nat.ne_of_lt hlt)).1, hprev.below i hlt]
    · obtain ⟨hbit, hcont⟩ := hstep.other i (by omega)
      obtain ⟨hbit', hcont'⟩ := hprev.rest i (by omega)
      exact ⟨hbit.trans hbit', hcont.trans hcont'⟩

theorem exec_gclIrqAck_acked (hup : s.Up) (hs : s.Sound) (v : Nat) :
    ∃ t, exec (.gclIrqAck v) s = .next t ∧ VectorsAcked v 17 s t := by
  rw [exec_gclIrqAck, execGclIrqAck, hup.when, State.ackIrq_eq]
  exact ⟨_, rfl, State.ackVectors_acked hs (by decide)⟩

/-! ### The obligation -/

/-- Settles O59. That RD_NC of a window line reads HBM is log 32, and that training again restarts the count of replays is
log 94: the model's choices. -/
theorem companionMessagesTakePlace : Obligations.CompanionMessagesTakePlace := by
  unfold Obligations.CompanionMessagesTakePlace
  refine ⟨fun s tag hup hs hgcl => ⟨?read, ?away, ?write, ?grant, ?waits, ?writeBack, ?evict, ?snoop, ?reply, ?fetch⟩,
    fun s hup hs hgcl => ⟨?nack, ?bad, ?good, ?retrains, ?joint, ?lost⟩, fun s hup hs => ⟨fun hdown => ⟨?trained, ?timeout⟩, ?ack⟩⟩
  case read => exact fun a n u d hfree hsize hnode => exec_rdNc_here hup hgcl hfree hsize hnode
  case away => exact fun a n hfree hsize hnode => exec_rdNc_away hup hgcl hfree hsize hnode
  case write => exact fun a d u hfree hsize hnode => exec_write_here hup hgcl hfree hsize hnode
  case grant =>
    intro a l g own u b hfree hl hcoh hdir hsnoop hexcl hpage hload hg
    refine ⟨_, rfl, by rw [State.dirOf_gclSend, State.dirOf_setDir_same], ?_⟩
    rw [exec_lineRequest hup hgcl, State.takeTurn_of_free rfl hfree, State.lineRun,
      State.lineRequest_granted hl hcoh hdir hsnoop hexcl hpage hload hg]
  case waits => exact exec_request_waits hup hgcl
  case writeBack =>
    intro a d l u hl hcoh hexcl hstore
    exact ⟨_, rfl, State.line_given_up, by
      rw [exec_wrBack, execWrBack, hup.onGcl hgcl, State.gclWriteBack_owned hl hcoh hexcl hstore]⟩
  case evict =>
    intro a l hl hcoh hheld
    exact ⟨_, rfl, State.line_given_up, by
      rw [exec_evictClean, execEvictClean, hup.onGcl hgcl, State.gclEvict_held hl hcoh hheld]⟩
  case snoop =>
    exact fun x hx => ⟨fun hwork hwait hstall =>
      ⟨_, exec_snpAck_of hup hgcl hx, State.snoopDone_idle_spec hwork hwait hstall⟩, fun d u => exec_snpData_of hup hgcl hx⟩
  case reply => exact fun n last => exec_cmp_reply hup hgcl
  case fetch => exact fun r slot hp => ⟨exec_err_fetch hup hgcl hp, fun d hwanted => exec_cmpData_fetch hup hgcl hp hwanted d⟩
  case nack => exact fun seq => exec_gclNackFlit_of_none hup hs hgcl
  case bad =>
    intro b hlen hbad
    obtain ⟨hnacks, hawait, hsent, hmem⟩ := State.gclNack_spec (s := s.addSat Reg.gclErr 63 32 (flitDecode b).2)
    simp only [State.addSat_fields] at hnacks hsent hmem
    exact ⟨_, exec_gclDataFlit_bad hup hgcl hlen hbad, hnacks, hawait, hsent, hmem⟩
  case good => exact fun b d h => exec_gclDataFlit_good hup hs hgcl
  case retrains => exact fun hmode => by rw [exec_gclDown_up hup hgcl, State.gclDown_retrains hmode]
  case joint =>
    intro x hmode
    have hbegun := hup.beginReset (k := 7) (by decide) (by decide)
    exact ⟨_, by rw [exec_gclDown_up hup hgcl, State.gclDown_joint hmode], hbegun.held, hbegun.cause⟩
  case lost =>
    exact fun hmode hidle => ⟨_, by rw [exec_gclDown_up hup hgcl, State.gclDown_lost hmode],
      State.gclLost_spec hs hidle⟩
  case trained => exact exec_gclRetrained_spec hup hs hdown
  case timeout =>
    intro hidle
    obtain ⟨hfatal, hstate, hdir, -⟩ := State.gclLost_spec hs hidle
    exact ⟨_, by rw [exec_gclLossTimeout, execGclLossTimeout, hup.when, if_pos hdown], hfatal, hstate,
      hdir⟩
  case ack =>
    intro v
    obtain ⟨t, hexec, hacked⟩ := exec_gclIrqAck_acked hup hs v
    exact ⟨t, hexec, hacked.mem, hacked.regs, hacked.below⟩

end Sys2Proof.Machine
end
